-- ==== Sys2Proof/Word.lean ====
section
/-! DEFINITION. The word types of the Torotte TP6 (64-bit OBS registers, 43-bit device physical addresses, 64-byte
lines) and the sizes the manual fixes for every card. -/

namespace Sys2Proof

/-- One byte of a mailbox payload, a ring frame or a tally row. -/
abbrev Byte := BitVec 8

/-- A 64-bit OBS register (00_scope R6). -/
abbrev Word64 := BitVec 64

/-- A device physical address, DPA[42:0] (00_scope Table 0-6; 04 R87 uses bits 42 to 0). -/
abbrev Dpa := BitVec 43

/-- A 64-byte line, byte i in bits [8i+7:8i] (03 R61: the unit of atomicity). -/
abbrev Line := BitVec 512

/-- A byte-enable mask of one line: bit i enables byte i (03 R61). -/
abbrev Enables := BitVec 64

/-- A list of a register's or a payload's bytes. -/
abbrev Bytes := List Byte

/-- Bytes in one GiB, MiB, KiB (00_scope: capacities are binary). -/
abbrev gib : Nat := 1073741824
abbrev mib : Nat := 1048576
abbrev kib : Nat := 1024

/-- Nanoseconds in one second, one millisecond and one microsecond. -/
abbrev sec : Nat := 1000000000
abbrev msec : Nat := 1000000
abbrev usec : Nat := 1000

end Sys2Proof
end

