-- ==== Sys2Proof/Syntax.lean ====
section
/-! DEFINITION. The commands of the Torotte TP6 block: one constructor of `Instr` for each row of
spec/opcode_table.json, with the operands that the outside world (host, SMBus owner, ring peers, supplies, sensors,
medium) gives. The table gives no bits, so the operands are the model's own (log entry 1). A leading `t` is the card
time in ns at which the command takes place. -/

namespace Sys2Proof

/-- The two orderable parts (00_scope R1, Table 0-2). -/
inductive Part where
  | p8192
  | p4096
deriving DecidableEq, Repr, Inhabited

/-- The two mailbox paths (02 R44): the primary mailbox and MCTP on the SMBus sideband. -/
inductive Path where
  | primary
  | mctp
deriving DecidableEq, Repr, Inhabited

/-- One class-table entry (03 R64, Table 3-3). -/
structure ClassEntry where
  target : Nat
  limit : Nat
  floor : Nat
  ceiling : Nat
  window : Nat
  guarRead : Nat
  guarWrite : Nat
  /-- Bytes 20 to 31. -/
  reserved : BitVec 96 := 0
deriving DecidableEq, Repr, Inhabited

/-- One extent entry (08 R199, Table 8-1); `reserved` is true when a reserved bit of the entry is 1. -/
structure ExtentEntry where
  base : Nat
  units : Nat
  key : Nat
  cls : Nat
  epoch : Bool
  speculative : Bool
  pin : Bool
  encrypt : Bool
  viral : Bool
  scrub : Nat
  tag : BitVec 128
  reserved : Bool
deriving DecidableEq, Repr, Inhabited

/-- One slot-table entry, times in units of 10 µs (11 R300, Table 11-2). -/
structure SlotEntry where
  on : Nat
  off : Nat
  pg : Nat
deriving DecidableEq, Repr, Inhabited

/-- One limit entry of the thermal section, in °C (11 R311). -/
structure LimitEntry where
  warning : Nat
  t1 : Nat
  t2 : Nat
  shutdown : Nat
  hyst : Nat
deriving DecidableEq, Repr, Inhabited

/-- The thermal section: limits of the four kinds, then four neighbours of each of the 64 sensors; 255 is none. -/
structure ThermalSec where
  limits : List LimitEntry
  neighbours : List (List Nat)
deriving DecidableEq, Repr, Inhabited

/-- One recorder trigger definition (13 R363, Table 13-5). -/
structure Trigger where
  source : Nat
  enable : Bool
  freeze : Bool
  condOn : Bool
  count : Nat
  snaps : List Nat
  condReg : Nat
  condMask : Word64
  condValue : Word64
deriving DecidableEq, Repr, Inhabited

/-- The ring section (10 R274, Table 10-3). -/
structure RingSec where
  ringId : Nat
  members : Nat
  master : Nat
  waitMs : Nat
  serials : List Nat
deriving DecidableEq, Repr, Inhabited

/-- Link options (12 Table 12-7, section 0x09). -/
structure LinkOpts where
  rate : Nat
  width : Nat
  aspmL1 : Bool
  ide : Bool
deriving DecidableEq, Repr, Inhabited

/-- Policy section (12 Table 12-7, section 0x0A). -/
structure Policy where
  dirtyAge : Nat
  beadFloor : Nat
  scrubIdle : Nat
  tqTimeout : Nat
deriving DecidableEq, Repr, Inhabited

/-- A configuration image as its header and sections read (12 R333, Tables 12-6 and 12-7). A section that is absent is
`none`. `headerOk` says that magic, family, header length, image length and directory satisfy check 1 of R335;
`signatureOk` that the ML-DSA-44 signature verifies under section 0x0F; `digestOk` that the body digest and the section
CRCs are right. -/
structure Image where
  headerOk : Bool
  format : Nat
  subsystem : Nat
  sequence : Nat
  length : Nat
  signed : Bool
  enrol : Bool
  keyDigest : Nat
  keySection : Option Nat
  signatureOk : Bool
  digestOk : Bool
  bodyDigest : Nat
  slotTable : Option (List SlotEntry)
  thermal : Option ThermalSec
  extents : Option (List ExtentEntry)
  classes : Option (List ClassEntry)
  routing : Option (List (Bool × Nat))
  triggers : Option (List Trigger)
  ring : Option RingSec
  caps : Option (List Nat)
  link : Option LinkOpts
  policy : Option Policy
deriving DecidableEq, Repr, Inhabited

/-- A firmware image as its header reads (12 R340, Table 12-10). -/
structure FwImage where
  formatOk : Bool
  version : Nat
  rollback : Nat
  layoutLow : Nat
  layoutHigh : Nat
  minStep : Nat
  keyInFuses : Bool
  signatureOk : Bool
  digestOk : Bool
deriving DecidableEq, Repr, Inhabited

/-- Actions of a multi-part transfer (12 R337, R341). -/
inductive XferAction where
  | full
  | initiate
  | continue
  | finish
  | abort
deriving DecidableEq, Repr, Inhabited

/-- What link training found on the other side (02 R34): whether it agreed CXL.mem, with 256-byte flits or only
68-byte flits, whether the port is a CXL 1.1 root port; the trained rate code (1 = 8 GT/s … 4 = 64 GT/s) and width; the
highest rate code and width that both sides offered; whether the partner asks for IDE. -/
structure LinkOffer where
  mem : Bool
  flit256 : Bool
  root11 : Bool
  rate : Nat
  width : Nat
  bestRate : Nat
  bestWidth : Nat
deriving DecidableEq, Repr, Inhabited

/-- The result of GDDR7 training of one device at boot step 0x05 (04 R107): what the mode registers say, which
trainings pass. -/
structure GddrTrain where
  manufacturer : Nat
  density : Nat
  grade : Nat
  storedOk : Bool
  fullOk : Bool
  ok28 : Bool
  ok24 : Bool
deriving DecidableEq, Repr, Inhabited

/-- What a boot step meets in the hardware (12 R327): which of its methods succeed where that is a physical fact (rails
steady, flash and tally reads, training, checkpoint and journal reads), and what the census, the reference cells and
the dump read. -/
structure BootIn where
  methods : BitVec 4
  gddr : List GddrTrain
  censusFails : BitVec 64
  deltaA : List Nat
  badSlotLines : List Nat
  headSealOk : Bool
  tailOk : Bool
  dumpTopOk : Bool
  tallyTopOk : Bool
  counterBlocks : Nat
  rail13Good : Bool
deriving DecidableEq, Repr, Inhabited

/-- The outcome of one die operation (05 R115). `sense`: the 256-byte line whose codeword was sensed, the bit errors
found, the error pattern left in the decoded data (0 unless the code miscorrected), and the corrected bits reported as
(threshold, up). The others report success of the running write, program or reset on a member block. -/
inductive DieResult where
  | sense (l : BitVec 35) (errors : Nat) (residue : BitVec 2048) (reports : List (Nat × Bool))
  | write (ok : Bool) (block : Nat)
  | program (ok : Bool) (block : Nat)
  | reset (ok : Bool) (block : Nat)
deriving DecidableEq, Repr, Inhabited

/-- How a sector that a scrub reads is recovered (05 R130): by its hard decode, by soft decode, from its peers, or not. -/
inductive ReadEnd where
  | hard
  | soft
  | recon
  | lost
deriving DecidableEq, Repr, Inhabited

/-- What the check of a line's counter path finds besides the line's own MAC: a counter block with a single-bit error in the
counter cache, with one bad copy, or two (04 R103); or a counter block or node that fails its MAC against its verified parent, and whether
reconstruction recovers it (08 Table 8-7). Level 0 is the counter blocks. -/
inductive NodeFail where
  | corrected (page : Nat)
  | mirror (page : Nat)
  | bothCopies (page : Nat)
  | node (level : Fin 4) (index : Nat) (recovered : Bool)
deriving DecidableEq, Repr, Inhabited

/-- What strikes a near slot's stored words (04 R88, R94): data words of 8 bytes and tag copies that now fail parity, and the
tag that the copy with fewer failing bytes gives when both fail. -/
structure NearUpset where
  data : BitVec 32
  tags : BitVec 2
  readTag : BitVec 18
deriving DecidableEq, Repr, Inhabited

/-- What strikes a board slot's stored words (04 R96, R101, R102): a single-bit error, uncorrectable data words, tag copies,
dirty-index copies and reserved words; the corrected on-die ECC results that the device reports for the access, and whether it
reports an uncorrectable one. -/
structure BoardUpset where
  corrected : Bool
  data : BitVec 32
  tags : BitVec 2
  index : BitVec 2
  rest : Bool
  onDieCorrected : Nat
  onDie : Bool
deriving DecidableEq, Repr, Inhabited

/-- A fill that lands (04 R91): its 256-byte line, and what strikes the near slot and the board slot that it touches. -/
structure Landing where
  l : BitVec 35
  near : NearUpset
  board : BoardUpset
deriving DecidableEq, Repr, Inhabited

/-- An eviction-buffer line offered to the board cache (04 R92), and what strikes the board slot. -/
structure Offered where
  l : BitVec 35
  board : BoardUpset
deriving DecidableEq, Repr, Inhabited

/-- A near slot whose dirty lines are pushed (04 R93), and what strikes it and the board slot. -/
structure Pushed where
  index : BitVec 17
  near : NearUpset
  board : BoardUpset
deriving DecidableEq, Repr, Inhabited

/-- A channel at a card time (05 R137). -/
structure ChannelAt where
  t : Nat
  channel : Fin 16
deriving DecidableEq, Repr, Inhabited

/-- An IDE key, and whether the stream that it begins runs in containment mode, not in skid mode (02 R50). -/
structure IdeKey where
  key : BitVec 256
  contained : Bool
deriving DecidableEq, Repr, Inhabited

/-- Parts of a dump in the order of 09 Table 9-8 (steps: header, head directory, lines, journal tail, epoch, integrity). -/
inductive DumpPart where
  | header
  | headDirectory
  | nearLines
  | boardLines
  | journalTail
  | epochState
  | integrity
  | tailDirectory
deriving DecidableEq, Repr, Inhabited

/-- A ring frame (10 R273, Table 10-1): version of the sender, hop count, position of the origin, the four flags, the
ring ID, and whether the CRC received was right. -/
structure FrameHead where
  version : Nat
  hops : Nat
  origin : Nat
  resolve : Bool
  recovery : Bool
  retrans : Bool
  lap2 : Bool
  ringId : Nat
  crcOk : Bool
deriving DecidableEq, Repr, Inhabited

/-- The four supply inputs (11 R297), in mV. -/
structure Inputs where
  slot12 : Nat
  aux12 : Nat
  v33 : Nat
  vaux : Nat
deriving DecidableEq, Repr, Inhabited

/-- What an evaluation of the pace controller measures (01 R20): the regions in which work of an internal class with a floor in
force is served below that floor, the lowest pace code each region may take at its temperature (rated minimum rate), and
each slower replica's rate in MHz. Bit or entry i is region index i. What the host classes ask for is in the state. -/
structure PaceIn where
  shortOfFloor : BitVec 9
  minCode : List Nat
  replica : List Nat
deriving DecidableEq, Repr, Inhabited

/-- Targets of the checker flip mask (13 R379). -/
structure FlipIn where
  target : Nat
  matchDpa : Bool
  partition : Nat
  offset : Nat
  count : Nat
  dpa : Nat
  mask : BitVec 72
deriving DecidableEq, Repr, Inhabited

/-- SPDM requests the card answers (12 R347, R348; 08 R227). -/
inductive SpdmReq where
  | getVersion
  | getCertificate (slot : Nat)
  | challenge
  | keyExchange
  | endSession
  | setCertificate
  | getCapabilities
  | negotiateAlgorithms
deriving DecidableEq, Repr, Inhabited

/-- MCTP messages by type (02 Table 2-20): 0x00 control, 0x05 SPDM, 0x06 secured messages using SPDM, 0x08 the CXL component
command interface with its opcode, and any other type. -/
inductive MctpMsg where
  | control
  | spdm
  | secured
  | cci (opcode : Nat)
  | other (type : Nat)
deriving DecidableEq, Repr, Inhabited

/-- Faults of a cell (01 R10 to R12): a single-bit error corrected in flight; a stall, or (`double`) a double-bit error, that a
retry mends, that a reissue mends, that needs a reset of the block, or that needs D02 or D09 itself reset (R16). -/
inductive StallKind where
  | corrected
  | retrySucceeds (double : Bool)
  | reissueSucceeds (double : Bool)
  | blockReset (double : Bool)
  | domainReset (double : Bool)
deriving DecidableEq, Repr, Inhabited

/-- What a host access of a register addresses: OBS in BAR2; the telemetry aperture in BAR4, where `bad` says that the words read
are uncorrectable (13 R377); registers of configuration space and of BAR0 that 02 names (R38, R41, R54, R55, R57): AER and RAS
status, AER severity, the control with the viral enable, the memory device status, MSI-X table and pending bits, and the primary
mailbox's opcode. -/
inductive Window where
  | obs
  | aperture (bad : Bool)
  | aerUncStatus
  | aerUncSeverity
  | aerCorStatus
  | rasUncStatus
  | rasCorStatus
  | cxlControl
  | memDevStatus
  | msixTable
  | msixPba
  | mailbox
deriving DecidableEq, Repr, Inhabited

/-- A register's window and its offset there. -/
structure RegAddr where
  w : Window
  offset : Nat
deriving DecidableEq, Repr, Inhabited

/-- Link errors (02 R54, Table 2-21 row 1). -/
inductive LinkErr where
  | crc
  | replay
  | receiver
deriving DecidableEq, Repr, Inhabited

/-- Kinds of energy-store reading given to a store test (09 R240). -/
structure StoreRead where
  mv : Nat
  tempC : Int
deriving DecidableEq, Repr, Inhabited

/-- The commands, in the order of spec/opcode_table.json. -/
inductive Instr where
  -- link, power, start and resets (02, 12)
  | linkTrainingComplete (t : Nat) (o : LinkOffer)
  | linkTrainingRetry
  | vauxApplied (t : Nat)
  | vauxRemoved (t : Nat)
  | perstNAssert (t : Nat)
  | start (t : Nat)
  | bootStep (t : Nat) (b : BootIn)
  | lastResortScanEnd (t : Nat)
  | extentTableSave
  | hotReset (t : Nat)
  | cxlReset (t : Nat)
  | managementReset (t : Nat)
  -- the request path and the caches (03, 04)
  | cxlMemRead (t : Nat) (hpa : BitVec 64)
  | cxlMemWrite (t : Nat) (hpa : BitVec 64) (data : Line) (enables : Enables) (poison : Bool)
  | writeCompletion (t : Nat) (ctx : Nat)
  | admitHeldRequest (t : Nat)
  | lineFillLanded (t : Nat) (x : Landing)
  | boardOffer (t : Nat) (x : Offered)
  | dirtyAgePush (t : Nat) (x : Pushed)
  | boardSlotRewrite (index : BitVec 25)
  | writeHome (t : Nat) (folio : BitVec 29)
  | writeHomeAck (t : Nat) (folio : BitVec 29)
  -- fabric (01)
  | handshakeStall (t : Nat) (region : Fin 9) (block : Nat) (k : StallKind)
  | blockResetComplete (t : Nat) (region : Fin 9) (block : Nat) (ready : Bool)
  | regionRestartReady (t : Nat) (region : Fin 9)
  | regionRestartDeadline (t : Nat) (region : Fin 9)
  | engineWatchdogExpiry (t : Nat) (engine : Fin 64)
  | chipWatchdogExpiry (t : Nat)
  | paceEvaluation (t : Nat) (p : PaceIn)
  | paceLowerInterval (t : Nat) (p : PaceIn)
  -- classes and guarantees (03)
  | escalationEvaluation (t : Nat)
  | classWindowClose (t : Nat) (cls : Fin 8)
  | envelopeRecompute (t : Nat)
  | restorationHoldExpiry (t : Nat)
  -- the medium (05)
  | dieOperationComplete (t : Nat) (die : Fin 64) (r : DieResult)
  | operationSuspended (t : Nat) (die : Fin 64)
  | operationResume (t : Nat) (die : Fin 64)
  | dieCommandTimeout (t : Nat) (die : Fin 64)
  | reconstructionComplete (t : Nat) (l : BitVec 35) (badPeers : List (Fin 64 × Bool))
  | softDecodeComplete (t : Nat) (l : BitVec 35) (errors : Nat) (outside : Nat)
  | macCheckComplete (t : Nat) (l : BitVec 35) (fail : Option NodeFail)
  | lostNodeRewriteComplete (t : Nat) (level : Fin 4) (node : Nat)
  | rebuildComplete (t : Nat) (group : Fin 4)
  | channelGate (c : ChannelAt)
  | channelWakeComplete (t : Nat) (channel : Fin 16) (us : Nat) (hostRead : Bool)
  | stripePageFillTimeout (t : Nat) (group : Fin 4)
  -- map, placement and reclaim (06)
  | journalTailFlush (t : Nat)
  | checkpointSealed (t : Nat) (ms : Nat)
  | checkpointWriteFailed (t : Nat) (die : Fin 64)
  | mapWordRebuildComplete (t : Nat) (device : Fin 4) (word : Nat) (r : Option (Bool × Nat))
  | demotionSweep
  | demotion (t : Nat) (folio : BitVec 29)
  | beadRotation (t : Nat) (folio : BitVec 29)
  | reclaimSourceChosen (t : Nat) (group : Fin 4)
  | reclaimCopyComplete (t : Nat) (group : Fin 4)
  | reclaimCommitDurable (t : Nat) (group : Fin 4)
  | reclaimDrainComplete (t : Nat) (group : Fin 4)
  | wearLevelCheck (t : Nat) (die : Fin 64)
  -- drift, calibration, scrubbing (07)
  | calendarTick (t : Nat)
  | driftLedgerHourly
  | referenceGroupWrite
  | thresholdTableSave
  | thresholdCountEvaluation (t : Nat) (die : Fin 64) (bin : Fin 16) (band : Fin 4) (thr : Fin 15)
  | calibrationWindowEnd (t : Nat)
  | marginEvaluation (t : Nat) (group : Fin 4) (block : BitVec 20)
  | stripeBlockMigrate (t : Nat) (group : Fin 4) (block : BitVec 20)
  | stripeBlockRefresh (t : Nat) (group : Fin 4) (block : BitVec 20)
  | scrubLapStart (t : Nat)
  | scrubRead (t : Nat) (die : Fin 64) (group : Fin 4) (block : BitVec 20) (l : Option (BitVec 35)) (corrected : Nat)
      (up : List Nat) (down : List Nat) (how : ReadEnd)
  | scrubLapComplete (t : Nat)
  | scrubLapLimit (t : Nat)
  | scrubGatedWake (t : Nat) (channel : Fin 16)
  | scrubPositionSave
  -- keys and integrity (08)
  | keyRotationThreshold (t : Nat) (key : BitVec 12)
  | keyHeld (t : Nat) (key : BitVec 12)
  | sweepUnitRowsWritten (t : Nat)
  | carrySweepFolio (t : Nat) (macFails : BitVec 256)
  | carryBoundarySave
  | carrySweepComplete (t : Nat)
  -- persistence (09)
  | storeTestDue (t : Nat)
  | storeTestLoadApplied (t : Nat) (mv : Nat)
  | storeTestEsrMeasure (t : Nat) (mv : Nat)
  | storeTestDischargeEnd (t : Nat)
  | storeTestRechargeEnd (t : Nat) (mv : Nat)
  | storeTestTimeout (t : Nat)
  | budgetCompute (t : Nat) (r : StoreRead)
  | logSectorWritten (t : Nat) (lines : List (BitVec 37))
  | treeTopLogRecord (t : Nat)
  | slotArmed (t : Nat) (slot : Fin 2)
  | powerFailure (t : Nat)
  | dumpPartWritten (t : Nat) (p : DumpPart)
  | dumpTrailerWritten (t : Nat) (energy : Nat)
  | inputReturnDuringDump (t : Nat)
  | replayHomeWrite (t : Nat) (corrected : Nat) (lost : BitVec 256)
  | flushHomeComplete (t : Nat)
  | gpfPhase1
  | gpfPhase2
  -- the reckoning ring (10)
  | ringCableChange (t : Nat) (inCable outCable : Bool)
  | ringSyncAcquired (t : Nat)
  | ringSyncLost (t : Nat) (bypassLimit : Bool)
  | discoverSend (t : Nat)
  | discover (t : Nat) (f : FrameHead) (serial : Nat)
  | heartbeatSend (t : Nat)
  | heartbeat (t : Nat) (f : FrameHead) (epoch : BitVec 48) (mask : BitVec 16)
  | heartbeatTimeout (t : Nat)
  | flush (t : Nat) (f : FrameHead) (seq : BitVec 48) (mask : BitVec 16)
  | flushResend (t : Nat)
  | prepare (t : Nat) (f : FrameHead) (epoch : BitVec 48) (mask : BitVec 16)
  | commit (t : Nat) (f : FrameHead) (epoch : BitVec 48) (mask : BitVec 16)
  | rollback (t : Nat) (f : FrameHead) (epoch : BitVec 48) (mask : BitVec 16)
  | state (t : Nat) (f : FrameHead) (epoch : BitVec 48) (bits : BitVec 4)
  | reservedTypeFrame (t : Nat) (f : FrameHead) (type : Nat) (payload : BitVec 64)
  | preparedRecordWritten (t : Nat)
  | decisionRecordWritten (t : Nat)
  | closeResend (t : Nat)
  | closeStall (t : Nat)
  | memberWaitExpiry (t : Nat)
  | shadowSettle (t : Nat) (folio : BitVec 29)
  -- supplies, sequencing, thermal (11, 14)
  | inputQualified (t : Nat)
  | railEnableSlot (t : Nat) (rail : Fin 14)
  | railPowerGood (t : Nat) (rail : Fin 14)
  | railPgTimeout (t : Nat) (rail : Fin 14)
  | railDisableSlot (t : Nat) (rail : Fin 14)
  | minimumOffTimeEnd (t : Nat)
  | railPgLost (t : Nat) (rail : Fin 14) (overTemp : Bool)
  | sensorSample (t : Nat) (sensor : Fin 64) (tempC : Int) (slopeTenths : Int)
  | orderlyStopLinkDown (t : Nat)
  | thermalHoldRetry (t : Nat)
  | powerBrakeApply (t : Nat)
  | powerBrakeRelease (t : Nat)
  -- tally, recorder, telemetry, counters, health (13)
  | tallyRowWriteComplete (t : Nat)
  | tallySupplyRecheck (t : Nat) (rail0Good holdUp : Bool)
  | tallyDeferralLimit (t : Nat) (vauxMv : Nat)
  | tallyRefreshLap (t : Nat) (weak : List (Nat × Nat)) (replaced : List (Nat × Nat × Nat))
  | lifetimeCounterSave
  | recorderDrain
  | recorderRepeatFlush
  | telemetryTimeout (t : Nat)
  | pmuPortWindowEnd (t : Nat) (port : Fin 22) (inBytes outBytes : Nat)
  | pmuCounterWrap (t : Nat) (counter : Fin 64)
  | healthEvaluate (t : Nat)
  -- low-power states (12)
  | d3hotEntry (t : Nat)
  | d0Entry (t : Nat)
  | gddr7SelfRefreshEntry (t : Nat)
  | aspmL1Entry
  | aspmL1Exit
  -- link, IDE, attestation, management (02, 12)
  | hdmDecoderCommit (dec : Fin 4) (base size skip : Nat) (ways gran pos : Nat)
  | ideIntegrityFailure (t : Nat) (cachemem : Bool)
  | ideKeyProgram (cachemem : Bool) (key : Option IdeKey) (secured : Bool)
  | spdmMessage (path : Path) (r : SpdmReq)
  | getMeasurements (path : Path) (index : Nat) (signed : Bool)
  | doeDiscovery (index : Nat)
  | cdatTableAccess (entry : Nat)
  | smbusArp (address : BitVec 7)
  | setEndpointId (eid : Byte)
  | mctpControlMessage (m : MctpMsg)
  -- standard commands (02)
  | getEventRecords (path : Path) (log : Nat) (count : Nat)
  | clearEventRecords (path : Path) (log : Nat) (handles : List Nat) (all : Bool)
  | getEventInterruptPolicy (path : Path)
  | setEventInterruptPolicy (path : Path) (settings : List (BitVec 8))
  | getFwInfo (path : Path)
  | transferFw (t : Nat) (path : Path) (a : XferAction) (slot : Nat) (offset length : Nat) (img : FwImage)
  | activateFw (t : Nat) (path : Path) (online : Bool) (slot : Nat)
  | getTimestamp (path : Path)
  | setTimestamp (t : Nat) (path : Path) (ns : BitVec 64)
  | getSupportedLogs (path : Path)
  | getLog (path : Path) (cel : Bool) (offset length : Nat)
  | identifyMemoryDevice (path : Path)
  | getLsa (path : Path) (offset length : Nat)
  | setLsa (path : Path) (offset : Nat) (data : Bytes)
  | getHealthInfo (path : Path)
  | getAlertConfiguration (path : Path)
  | setAlertConfiguration (path : Path) (valid enable : BitVec 8) (lifeUsed : Nat) (overTemp underTemp : Int)
      (volErrors perErrors : Nat)
  | getShutdownState (path : Path)
  | setShutdownState (path : Path) (value : BitVec 32)
  | getPoisonList (path : Path) (dpa : Nat) (units : Nat)
  | injectPoison (t : Nat) (path : Path) (dpa : Nat)
  | clearPoison (t : Nat) (path : Path) (dpa : Nat) (data : Line)
  | getScanMediaCapabilities (path : Path) (dpa : Nat) (units : Nat)
  | scanMedia (t : Nat) (path : Path) (dpa : Nat) (units : Nat)
  | scanMediaComplete (t : Nat)
  | getScanMediaResults (path : Path)
  | sanitize (t : Nat) (path : Path)
  | sanitizeComplete (t : Nat)
  | secureErase (t : Nat) (path : Path)
  | mediumResetComplete (t : Nat)
  -- vendor commands (02 R43)
  | getCardStatusSummary (t : Nat) (path : Path)
  | readTallyRecords (t : Nat) (path : Path) (partition row count : Nat) (password : BitVec 128)
  | writeCustomerTally (t : Nat) (path : Path) (row : Nat) (password : BitVec 128) (data : Bytes)
  | setTallyPassword (t : Nat) (path : Path) (partition : Nat) (old new : BitVec 128)
  | transferConfigurationImage (t : Nat) (path : Path) (a : XferAction) (offset length : Nat) (img : Image)
  | getConfigurationImageInfo (path : Path)
  | selectConfigurationSlot (path : Path) (slot : Nat) (restZero : Bool)
  | discardRange (t : Nat) (path : Path) (dpa length : Nat) (restZero : Bool)
  | discardRangeFolio (t : Nat)
  | discardRangeComplete (t : Nat)
  | getExtentTable (path : Path) (first count : Nat)
  | generateKey (path : Path) (key : Nat)
  | startKeyRotation (t : Nat) (path : Path) (extent key : Nat) (erase : Bool)
  | retireKeyId (t : Nat) (path : Path) (key : Nat)
  | getKeyStatus (path : Path) (first count : Nat)
  | epochResolve (t : Nat) (path : Path) (epoch : Nat) (action : Nat)
  | getRingStatus (path : Path)
  | readRecorder (path : Path) (first : Nat) (count : Nat)
  | clearRecorder (t : Nat) (path : Path)
  | getBootLedger (path : Path) (index : Nat)
  | startEnergyStoreTest (t : Nat) (path : Path)
  | getWearAndDriftReport (path : Path) (die : Nat) (restZero : Bool)
  | setCheckFlipMask (path : Path) (m : FlipIn)
  -- OBS accesses (00, 10, 13)
  | registerWrite (a : RegAddr) (size : Nat) (value : Word64)
  | rcRegisterRead (a : RegAddr) (size : Nat)
  | ringDoorbellWrite (t : Nat) (size : Nat) (value : Word64)
  | ringFlushStart (t : Nat)
  | tqTailWrite (tail : Nat)
  | tqFlush
  | eccFlipArmWrite
  | eccFlipDisarmWrite
  | evtVecUnmask (t : Nat) (vector : Fin 32)
  | pflSuspectClear (word : Fin 64) (mask : Word64)
  -- rows added at the end of the table
  | inputLevelChange (t : Nat) (i : Inputs)
  | railPgDeassert (t : Nat) (rail : Fin 14)
  | prepareLap2Send (t : Nat)
  | marginRead (t : Nat) (die : Fin 64) (l : BitVec 35) (corrected : Nat) (reports : List (Nat × Bool)) (how : ReadEnd)
  | rebuildMove (t : Nat) (group : Fin 4) (folio : BitVec 29)
  | pmuLevelSample
  | linkError (e : LinkErr)
deriving DecidableEq, Repr

end Sys2Proof
end

