-- ==== Sys2Proof/Decode.lean ====
section
/-! DEFINITION. The command that a table word spells. spec/opcode_table.json gives none of its rows a bit pattern (its
commands are events and messages, not words), so no word spells a command (log entry 1). -/

namespace Sys2Proof

/-- The command of an opcode-table word: no row of the table gives bits, so none. -/
def decodeTableWord (_nbits _w : Nat) : Option Instr := none

end Sys2Proof
end

