-- ==== Sys2Proof/Config.lean ====
section
/-! DEFINITION. What the manual leaves open, as constants with no body: no proof can evaluate them, so a statement about
them holds whatever they are. Each is named in the assumption log. -/

namespace Sys2Proof.Config

/-- AES-256 of one block under a key (08 R209, R210): the cipher itself is FIPS 197, not the manual's. -/
opaque aes (key : Nat) (block : BitVec 128) : BitVec 128

/-- A key pair wrapped under the device-unique key of the fuses, 72 bytes (08 R204: AES key wrap, SP 800-38F). -/
opaque wrapKeys (key : Nat) : Bytes

/-- GHASH under the hash key h of a stored line and its line number (08 R209): the function of NIST SP 800-38D. -/
opaque ghash (h : BitVec 128) (stored : Line) (line : Nat) : BitVec 128

/-- SHA3-256 of a byte string (00_scope: FIPS 202). -/
opaque sha3 (b : Bytes) : BitVec 256

/-- A signature with the card's ML-DSA-44 identity key (12 R347, R348: FIPS 204). -/
opaque sign (b : Bytes) : Bytes

/-- The n-th value drawn where the manual gives an effect but not the value. -/
opaque free (n : Nat) : Nat

/-- What the n-th sector read of the card's own reports of its corrected bits: thresholds and directions (07 R184). -/
opaque freeReports (n : Nat) : List (Nat × Bool)

/-- The n-th line of data drawn where the manual does not give the data. -/
opaque freeLine (n : Nat) : Line

/-- What a counter that must not wrap or saturate by the manual's words holds after it passes its largest value. -/
opaque counterOver (n : Nat) : Nat

/-- The 252 check bits of the BCH code over the protected bytes of a codeword (05 R119 names no generator polynomial). -/
opaque bch (b : Bytes) : BitVec 252

/-- Contents of one reply of SPDM, DOE or MCTP control whose layout other standards give (12 R347). -/
opaque standardReply (kind : Nat) (n : Nat) : Bytes

/-- Bytes of an image that the model holds only as read fields: kind 0 firmware header, 1 effective sections, 2 boot ROM. -/
opaque imageBytes (kind : Nat) (fields : List Nat) : Bytes

/-- The link error count at which the CXL RAS threshold is reached (02 Table 2-21 gives no number). -/
opaque rasThreshold : Nat

/-- Digest of the service password of partition 6 (13 R359). -/
opaque serviceDigest : BitVec 256

/-- Where the latency histogram's bins lie (03 R65): how far above a latency its bin reads, before the bound of 3 %. -/
opaque binSlack (ns : Nat) : Nat

/-- A measured quantity that the card shows and no command gives: kind 0 slot power, 1 auxiliary power beside the
charger, 2 charger power (11 Table 11-17), at a card time in ns. -/
opaque measure (kind now : Nat) : Nat

/-- What a GDDR7 device's own exit from self-refresh adds to the 2 µs of 12 R345, in ns. -/
opaque gddrExit : Nat

/-- Critical thresholds that Get Alert Configuration reports (13 R382, CXL 3.1): 0 life used in percent, 1 over-temperature and
2 under-temperature as 16-bit two's complement in °C. -/
opaque alertCritical (which : Nat) : BitVec 16

/-- The 80 bytes of a General Media (kind 0) or Memory Module (kind 1) record after the common header, whose layout is CXL's. -/
opaque recordData (kind handle : Nat) : Bytes

/-- Effects that the Command Effects Log gives a command that changes state (02 R41, R44). -/
opaque celEffect (opcode : Nat) : BitVec 16

end Sys2Proof.Config
end

