-- ==== Sys2Proof/Machine/Tab.lean ====
section
/-! DEFINITION. Sparse tables keyed by a number, in one canonical form (keys strictly rising), so that equal contents are
equal data; and the little-endian and bit-field helpers that payloads and registers are built with. -/

namespace Sys2Proof.Machine

/-- A table of entries by number. A number that is not listed holds no entry; what that means is said where the table
is used. -/
abbrev Tab (α : Type) := List (Nat × α)

/-- The entry of number k. -/
def Tab.find {α : Type} : Tab α → Nat → Option α
  | [], _ => none
  | (i, a) :: r, k => if i = k then some a else Tab.find r k

/-- The table with the entry a at number k. -/
def Tab.put {α : Type} : Tab α → Nat → α → Tab α
  | [], k, a => [(k, a)]
  | (i, b) :: r, k, a =>
    if k < i then (k, a) :: (i, b) :: r
    else if k = i then (k, a) :: r
    else (i, b) :: Tab.put r k a

/-- The table with no entry at number k. -/
def Tab.del {α : Type} : Tab α → Nat → Tab α
  | [], _ => []
  | (i, b) :: r, k => if i = k then Tab.del r k else (i, b) :: Tab.del r k

/-- Every key of the table is above k. -/
def Tab.above {α : Type} (k : Nat) : Tab α → Bool
  | [] => true
  | (i, _) :: _ => decide (k < i)

/-- The canonical form: keys strictly rising. -/
def Tab.wf {α : Type} : Tab α → Bool
  | [] => true
  | (i, _) :: r => Tab.above i r && Tab.wf r

/-- The entry of number k, or d where none is listed. -/
def Tab.findD {α : Type} (m : Tab α) (k : Nat) (d : α) : α := (Tab.find m k).getD d

/-- Change the listed entry of number k (nothing where none is listed). -/
def Tab.upd {α : Type} (m : Tab α) (k : Nat) (f : α → α) : Tab α :=
  match Tab.find m k with
  | some a => Tab.put m k (f a)
  | none => m

/-- Keep the entries that p accepts. -/
def Tab.keep {α : Type} (m : Tab α) (p : Nat → α → Bool) : Tab α := m.filter (fun e => p e.1 e.2)

/-- Change every entry. -/
def Tab.mapV {α : Type} (m : Tab α) (f : Nat → α → α) : Tab α := m.map (fun e => (e.1, f e.1 e.2))

/-- Number of entries. -/
def Tab.size {α : Type} (m : Tab α) : Nat := m.length

/-- The n low bytes of v, lowest first: every multi-byte payload field is little-endian (03 R84 and others). -/
def le : Nat → Nat → Bytes
  | 0, _ => []
  | n + 1, v => BitVec.ofNat 8 v :: le n (v / 256)

/-- The number that little-endian bytes spell. -/
def ofBytes : Bytes → Nat
  | [] => 0
  | b :: r => b.toNat + 256 * ofBytes r

/-- One bit of a reflected CRC with polynomial p. -/
def crcBit (p c : Nat) : Nat := if c % 2 = 1 then (c / 2) ^^^ p else c / 2

/-- One byte of it. -/
def crcByte (p c : Nat) (b : Byte) : Nat :=
  crcBit p (crcBit p (crcBit p (crcBit p (crcBit p (crcBit p (crcBit p (crcBit p (c ^^^ b.toNat))))))))

/-- CRC-32C (Castagnoli) of a byte string. -/
def crc32c (b : Bytes) : Nat := (b.foldl (crcByte 0x82F63B78) 0xFFFFFFFF) ^^^ 0xFFFFFFFF

/-- n zero bytes. -/
def zeros (n : Nat) : Bytes := List.replicate n 0

/-- The bytes cut or zero-filled to length n. -/
def fit (n : Nat) (b : Bytes) : Bytes := (b ++ zeros (n - b.length)).take n

/-- Bits [hi:lo] of a number. -/
def bits (v hi lo : Nat) : Nat := (v >>> lo) % 2 ^ (hi + 1 - lo)

/-- 1 for true. -/
def b2n (b : Bool) : Nat := if b then 1 else 0

/-- a divided by b, rounded up. -/
def divUp (a b : Nat) : Nat := (a + b - 1) / b

/-- The list with position i replaced (unchanged where i is past its end). -/
def setAt {α : Type} (l : List α) (i : Nat) (a : α) : List α := l.set i a

/-- Sum of a list of numbers. -/
def total (l : List Nat) : Nat := l.foldl (· + ·) 0

/-- Largest of a list of numbers, 0 of none. -/
def largest (l : List Nat) : Nat := l.foldl max 0

end Sys2Proof.Machine
end

