-- ==== Sys2Proof/Machine/Regs.lean ====
section
/-! DEFINITION. The registers of the observation block OBS, field by field, as the register tables of the manual give
them (each table is named at its register): offset in BAR2, bits, access code, reset value and survival class
(00_scope R4 to R9). Field names are BLOCK_NAME.field as the manual writes them. -/

namespace Sys2Proof.Machine

/-- Access codes (00_scope R4, Table 0-7). -/
inductive Acc where
  | ro | rw | w1c | w1s | wo | rc
deriving DecidableEq, Repr

/-- What a reset of its class leaves in a field: a value, or what the tally store, the flash, the image or the start last
gave it (reset value "Tally", "Flash", "Image", "Start"). -/
inductive Rst where
  | val (n : Nat)
  | keep
deriving DecidableEq, Repr

/-- What a counting field does past its largest value: the manual says "wraps to 0", says "saturating", or says nothing. -/
inductive Ovf where
  | wrap | sat | unstated
deriving DecidableEq, Repr

/-- Survival classes (00_scope R9, Table 0-8). -/
inductive Survival where
  | persistent | power | conventional | function | region
deriving DecidableEq, Repr

/-- A register field: BAR2 offset of the register (of its first copy, with the stride between copies), its bits, access,
reset and overflow. -/
structure Fld where
  off : Nat
  stride : Nat
  hi : Nat
  lo : Nat
  acc : Acc
  rst : Rst
  ovf : Ovf
deriving DecidableEq, Repr

/-- A register: its offset, the stride and number of its copies, its survival class, its fields (reserved bits are no
field: 00_scope R5). -/
structure RegRow where
  off : Nat
  stride : Nat
  count : Nat
  cls : Survival
  flds : List Fld
deriving DecidableEq, Repr


-- ID_PRODUCT, R40, Table 2-8
def ID_PRODUCT.family : Fld := ⟨0x0, 0, 63, 48, .ro, .val 6, .unstated⟩
def ID_PRODUCT.capacity_gib : Fld := ⟨0x0, 0, 47, 32, .ro, .keep, .unstated⟩
def ID_PRODUCT.dies_per_channel : Fld := ⟨0x0, 0, 31, 24, .ro, .keep, .unstated⟩
def ID_PRODUCT.channels : Fld := ⟨0x0, 0, 23, 16, .ro, .val 16, .unstated⟩
def ID_PRODUCT.silicon_step : Fld := ⟨0x0, 0, 15, 8, .ro, .val 2, .unstated⟩
def ID_PRODUCT.board_issue : Fld := ⟨0x0, 0, 7, 0, .ro, .val 3, .unstated⟩
def rowIdProduct : RegRow :=
  ⟨0x0, 0, 1, .power, [ID_PRODUCT.family, ID_PRODUCT.capacity_gib, ID_PRODUCT.dies_per_channel, ID_PRODUCT.channels, ID_PRODUCT.silicon_step, ID_PRODUCT.board_issue]⟩

-- ID_FIRMWARE, R40, Table 2-9
def ID_FIRMWARE.fw_version : Fld := ⟨0x8, 0, 63, 32, .ro, .keep, .unstated⟩
def ID_FIRMWARE.rollback_count : Fld := ⟨0x8, 0, 31, 16, .ro, .keep, .unstated⟩
def ID_FIRMWARE.config_format : Fld := ⟨0x8, 0, 15, 8, .ro, .val 3, .unstated⟩
def ID_FIRMWARE.config_slot : Fld := ⟨0x8, 0, 1, 1, .ro, .keep, .unstated⟩
def ID_FIRMWARE.fw_slot : Fld := ⟨0x8, 0, 0, 0, .ro, .keep, .unstated⟩
def rowIdFirmware : RegRow :=
  ⟨0x8, 0, 1, .conventional, [ID_FIRMWARE.fw_version, ID_FIRMWARE.rollback_count, ID_FIRMWARE.config_format, ID_FIRMWARE.config_slot, ID_FIRMWARE.fw_slot]⟩

-- ID_LINK, R40, Table 2-10
def ID_LINK.protocol : Fld := ⟨0x10, 0, 15, 12, .ro, .val 0, .unstated⟩
def ID_LINK.rate : Fld := ⟨0x10, 0, 11, 8, .ro, .val 0, .unstated⟩
def ID_LINK.width : Fld := ⟨0x10, 0, 7, 3, .ro, .val 0, .unstated⟩
def ID_LINK.flit256 : Fld := ⟨0x10, 0, 2, 2, .ro, .val 0, .unstated⟩
def ID_LINK.ide_active : Fld := ⟨0x10, 0, 1, 1, .ro, .val 0, .unstated⟩
def ID_LINK.degraded : Fld := ⟨0x10, 0, 0, 0, .ro, .val 0, .unstated⟩
def rowIdLink : RegRow :=
  ⟨0x10, 0, 1, .function, [ID_LINK.protocol, ID_LINK.rate, ID_LINK.width, ID_LINK.flit256, ID_LINK.ide_active, ID_LINK.degraded]⟩

-- ID_SERIAL, R40, Table 2-11
def ID_SERIAL.serial : Fld := ⟨0x18, 0, 63, 0, .ro, .keep, .unstated⟩
def rowIdSerial : RegRow :=
  ⟨0x18, 0, 1, .persistent, [ID_SERIAL.serial]⟩

-- QOS_ENVELOPE, R85, Table 3-11
def QOS_ENVELOPE.write_env_mbps : Fld := ⟨0x10000, 0, 55, 32, .ro, .val 0, .unstated⟩
def QOS_ENVELOPE.read_env_mbps : Fld := ⟨0x10000, 0, 23, 0, .ro, .val 0, .unstated⟩
def rowQosEnvelope : RegRow :=
  ⟨0x10000, 0, 1, .function, [QOS_ENVELOPE.write_env_mbps, QOS_ENVELOPE.read_env_mbps]⟩

-- QOS_ENV_CAUSE, R85, Table 3-12
def QOS_ENV_CAUSE.retired_dies : Fld := ⟨0x10008, 0, 23, 16, .ro, .val 0, .unstated⟩
def QOS_ENV_CAUSE.failed_read_only : Fld := ⟨0x10008, 0, 9, 9, .ro, .val 0, .unstated⟩
def QOS_ENV_CAUSE.link_below_full : Fld := ⟨0x10008, 0, 8, 8, .ro, .val 0, .unstated⟩
def QOS_ENV_CAUSE.replay_draining : Fld := ⟨0x10008, 0, 7, 7, .ro, .val 0, .unstated⟩
def QOS_ENV_CAUSE.small_budget : Fld := ⟨0x10008, 0, 6, 6, .ro, .val 0, .unstated⟩
def QOS_ENV_CAUSE.region_fenced : Fld := ⟨0x10008, 0, 5, 5, .ro, .val 0, .unstated⟩
def QOS_ENV_CAUSE.media_throttle : Fld := ⟨0x10008, 0, 4, 3, .ro, .val 0, .unstated⟩
def QOS_ENV_CAUSE.asic_throttle : Fld := ⟨0x10008, 0, 2, 1, .ro, .val 0, .unstated⟩
def QOS_ENV_CAUSE.dies_retired : Fld := ⟨0x10008, 0, 0, 0, .ro, .val 0, .unstated⟩
def rowQosEnvCause : RegRow :=
  ⟨0x10008, 0, 1, .function, [QOS_ENV_CAUSE.retired_dies, QOS_ENV_CAUSE.failed_read_only, QOS_ENV_CAUSE.link_below_full, QOS_ENV_CAUSE.replay_draining, QOS_ENV_CAUSE.small_budget, QOS_ENV_CAUSE.region_fenced, QOS_ENV_CAUSE.media_throttle, QOS_ENV_CAUSE.asic_throttle, QOS_ENV_CAUSE.dies_retired]⟩

-- QOS_SUSPEND, R85, Table 3-13
def QOS_SUSPEND.missed : Fld := ⟨0x10010, 0, 15, 8, .w1c, .val 0, .unstated⟩
def QOS_SUSPEND.suspended : Fld := ⟨0x10010, 0, 7, 0, .ro, .val 0, .unstated⟩
def rowQosSuspend : RegRow :=
  ⟨0x10010, 0, 1, .function, [QOS_SUSPEND.missed, QOS_SUSPEND.suspended]⟩

-- QOS_TRACKER, R85, Table 3-14
def QOS_TRACKER.internal_high : Fld := ⟨0x10018, 0, 58, 48, .rc, .val 0, .unstated⟩
def QOS_TRACKER.internal_in_use : Fld := ⟨0x10018, 0, 42, 32, .ro, .val 0, .unstated⟩
def QOS_TRACKER.host_high : Fld := ⟨0x10018, 0, 28, 16, .rc, .val 0, .unstated⟩
def QOS_TRACKER.host_in_use : Fld := ⟨0x10018, 0, 12, 0, .ro, .val 0, .unstated⟩
def rowQosTracker : RegRow :=
  ⟨0x10018, 0, 1, .function, [QOS_TRACKER.internal_high, QOS_TRACKER.internal_in_use, QOS_TRACKER.host_high, QOS_TRACKER.host_in_use]⟩

-- QOS_LINK_HOLD, R85, Table 3-15
def QOS_LINK_HOLD.longest_pause_us : Fld := ⟨0x10020, 0, 63, 32, .rc, .val 0, .unstated⟩
def QOS_LINK_HOLD.pauses : Fld := ⟨0x10020, 0, 31, 0, .rc, .val 0, .unstated⟩
def rowQosLinkHold : RegRow :=
  ⟨0x10020, 0, 1, .function, [QOS_LINK_HOLD.longest_pause_us, QOS_LINK_HOLD.pauses]⟩

-- QOS_CLASS_CFG, R85, Table 3-16
def QOS_CLASS_CFG.latency_target_ns : Fld := ⟨0x10100, 64, 63, 32, .ro, .keep, .unstated⟩
def QOS_CLASS_CFG.outstanding_limit : Fld := ⟨0x10100, 64, 28, 16, .ro, .keep, .unstated⟩
def QOS_CLASS_CFG.window_100us : Fld := ⟨0x10100, 64, 13, 0, .ro, .keep, .unstated⟩
def rowQosClassCfg : RegRow :=
  ⟨0x10100, 64, 8, .conventional, [QOS_CLASS_CFG.latency_target_ns, QOS_CLASS_CFG.outstanding_limit, QOS_CLASS_CFG.window_100us]⟩

-- QOS_CLASS_GUAR, R85, Table 3-17
def QOS_CLASS_GUAR.guar_write_mbps : Fld := ⟨0x10108, 64, 63, 32, .ro, .keep, .unstated⟩
def QOS_CLASS_GUAR.guar_read_mbps : Fld := ⟨0x10108, 64, 31, 0, .ro, .keep, .unstated⟩
def rowQosClassGuar : RegRow :=
  ⟨0x10108, 64, 8, .conventional, [QOS_CLASS_GUAR.guar_write_mbps, QOS_CLASS_GUAR.guar_read_mbps]⟩

-- QOS_CLASS_STAGE, R85, Table 3-18
def QOS_CLASS_STAGE.staged_mib : Fld := ⟨0x10110, 64, 63, 48, .ro, .val 0, .unstated⟩
def QOS_CLASS_STAGE.staging_ceiling : Fld := ⟨0x10110, 64, 42, 32, .ro, .keep, .unstated⟩
def QOS_CLASS_STAGE.staging_floor : Fld := ⟨0x10110, 64, 10, 0, .ro, .keep, .unstated⟩
def rowQosClassStage : RegRow :=
  ⟨0x10110, 64, 8, .function, [QOS_CLASS_STAGE.staged_mib, QOS_CLASS_STAGE.staging_ceiling, QOS_CLASS_STAGE.staging_floor]⟩

-- QOS_CLASS_STATE, R85, Table 3-19
def QOS_CLASS_STATE.p99_ns : Fld := ⟨0x10118, 64, 63, 32, .ro, .val 0, .unstated⟩
def QOS_CLASS_STATE.outstanding : Fld := ⟨0x10118, 64, 28, 16, .ro, .val 0, .unstated⟩
def QOS_CLASS_STATE.best_effort : Fld := ⟨0x10118, 64, 3, 3, .ro, .keep, .unstated⟩
def QOS_CLASS_STATE.suspended : Fld := ⟨0x10118, 64, 2, 2, .ro, .val 0, .unstated⟩
def QOS_CLASS_STATE.level : Fld := ⟨0x10118, 64, 1, 0, .ro, .val 0, .unstated⟩
def rowQosClassState : RegRow :=
  ⟨0x10118, 64, 8, .function, [QOS_CLASS_STATE.p99_ns, QOS_CLASS_STATE.outstanding, QOS_CLASS_STATE.best_effort, QOS_CLASS_STATE.suspended, QOS_CLASS_STATE.level]⟩

-- QOS_CLASS_RDBYTES, R85, Table 3-20
def QOS_CLASS_RDBYTES.bytes : Fld := ⟨0x10120, 64, 47, 0, .ro, .val 0, .wrap⟩
def rowQosClassRdbytes : RegRow :=
  ⟨0x10120, 64, 8, .conventional, [QOS_CLASS_RDBYTES.bytes]⟩

-- QOS_CLASS_WRBYTES, R85, Table 3-20
def QOS_CLASS_WRBYTES.bytes : Fld := ⟨0x10128, 64, 47, 0, .ro, .val 0, .wrap⟩
def rowQosClassWrbytes : RegRow :=
  ⟨0x10128, 64, 8, .conventional, [QOS_CLASS_WRBYTES.bytes]⟩

-- QOS_CLASS_WINBW, R85, Table 3-21
def QOS_CLASS_WINBW.win_write_mbps : Fld := ⟨0x10130, 64, 63, 32, .ro, .val 0, .unstated⟩
def QOS_CLASS_WINBW.win_read_mbps : Fld := ⟨0x10130, 64, 31, 0, .ro, .val 0, .unstated⟩
def rowQosClassWinbw : RegRow :=
  ⟨0x10130, 64, 8, .function, [QOS_CLASS_WINBW.win_write_mbps, QOS_CLASS_WINBW.win_read_mbps]⟩

-- QOS_CLASS_MISSED, R85, Table 3-22
def QOS_CLASS_MISSED.thin_windows : Fld := ⟨0x10138, 64, 63, 32, .rc, .val 0, .unstated⟩
def QOS_CLASS_MISSED.missed_windows : Fld := ⟨0x10138, 64, 31, 0, .rc, .val 0, .unstated⟩
def rowQosClassMissed : RegRow :=
  ⟨0x10138, 64, 8, .conventional, [QOS_CLASS_MISSED.thin_windows, QOS_CLASS_MISSED.missed_windows]⟩

-- QOS_ICLASS_STATE, R85, Table 3-23
def QOS_ICLASS_STATE.win_mbps : Fld := ⟨0x10400, 16, 63, 32, .ro, .val 0, .unstated⟩
def QOS_ICLASS_STATE.floor_active : Fld := ⟨0x10400, 16, 1, 1, .ro, .val 0, .unstated⟩
def QOS_ICLASS_STATE.active : Fld := ⟨0x10400, 16, 0, 0, .ro, .val 0, .unstated⟩
def rowQosIclassState : RegRow :=
  ⟨0x10400, 16, 6, .function, [QOS_ICLASS_STATE.win_mbps, QOS_ICLASS_STATE.floor_active, QOS_ICLASS_STATE.active]⟩

-- QOS_ICLASS_BYTES, R85, Table 3-24
def QOS_ICLASS_BYTES.bytes : Fld := ⟨0x10408, 16, 47, 0, .ro, .val 0, .wrap⟩
def rowQosIclassBytes : RegRow :=
  ⟨0x10408, 16, 6, .conventional, [QOS_ICLASS_BYTES.bytes]⟩

-- CCH_NEAR_CFG, R110, Table 4-13
def CCH_NEAR_CFG.lines : Fld := ⟨0x20000, 0, 63, 32, .ro, .val 131072, .unstated⟩
def CCH_NEAR_CFG.dirty_age_limit_us : Fld := ⟨0x20000, 0, 7, 0, .ro, .keep, .unstated⟩
def rowCchNearCfg : RegRow :=
  ⟨0x20000, 0, 1, .conventional, [CCH_NEAR_CFG.lines, CCH_NEAR_CFG.dirty_age_limit_us]⟩

-- CCH_NEAR_STATE, R110, Table 4-14
def CCH_NEAR_STATE.dirty_lines : Fld := ⟨0x20008, 0, 49, 32, .ro, .val 0, .unstated⟩
def CCH_NEAR_STATE.evict_in_use : Fld := ⟨0x20008, 0, 23, 16, .ro, .val 0, .unstated⟩
def CCH_NEAR_STATE.oldest_dirty_us : Fld := ⟨0x20008, 0, 7, 0, .ro, .val 0, .unstated⟩
def rowCchNearState : RegRow :=
  ⟨0x20008, 0, 1, .function, [CCH_NEAR_STATE.dirty_lines, CCH_NEAR_STATE.evict_in_use, CCH_NEAR_STATE.oldest_dirty_us]⟩

-- CCH_NEAR_HITS, R110, Table 4-15
def CCH_NEAR_HITS.count : Fld := ⟨0x20010, 0, 47, 0, .ro, .val 0, .wrap⟩
def rowCchNearHits : RegRow :=
  ⟨0x20010, 0, 1, .conventional, [CCH_NEAR_HITS.count]⟩

-- CCH_NEAR_MISSES, R110, Table 4-15
def CCH_NEAR_MISSES.count : Fld := ⟨0x20018, 0, 47, 0, .ro, .val 0, .wrap⟩
def rowCchNearMisses : RegRow :=
  ⟨0x20018, 0, 1, .conventional, [CCH_NEAR_MISSES.count]⟩

-- CCH_BOARD_HITS, R110, Table 4-15
def CCH_BOARD_HITS.count : Fld := ⟨0x20050, 0, 47, 0, .ro, .val 0, .wrap⟩
def rowCchBoardHits : RegRow :=
  ⟨0x20050, 0, 1, .conventional, [CCH_BOARD_HITS.count]⟩

-- CCH_BOARD_MISSES, R110, Table 4-15
def CCH_BOARD_MISSES.count : Fld := ⟨0x20058, 0, 47, 0, .ro, .val 0, .wrap⟩
def rowCchBoardMisses : RegRow :=
  ⟨0x20058, 0, 1, .conventional, [CCH_BOARD_MISSES.count]⟩

-- CCH_NEAR_PARITY, R110, Table 4-16
def CCH_NEAR_PARITY.tag_repairs : Fld := ⟨0x20020, 0, 63, 48, .rc, .val 0, .unstated⟩
def CCH_NEAR_PARITY.clean_refetches : Fld := ⟨0x20020, 0, 47, 32, .rc, .val 0, .unstated⟩
def CCH_NEAR_PARITY.last_index : Fld := ⟨0x20020, 0, 16, 0, .ro, .val 0, .unstated⟩
def rowCchNearParity : RegRow :=
  ⟨0x20020, 0, 1, .conventional, [CCH_NEAR_PARITY.tag_repairs, CCH_NEAR_PARITY.clean_refetches, CCH_NEAR_PARITY.last_index]⟩

-- CCH_BOARD_CFG, R110, Table 4-17
def CCH_BOARD_CFG.slots_log2 : Fld := ⟨0x20040, 0, 39, 32, .ro, .keep, .unstated⟩
def CCH_BOARD_CFG.region_mib : Fld := ⟨0x20040, 0, 31, 16, .ro, .keep, .unstated⟩
def CCH_BOARD_CFG.data_mib : Fld := ⟨0x20040, 0, 15, 0, .ro, .keep, .unstated⟩
def rowCchBoardCfg : RegRow :=
  ⟨0x20040, 0, 1, .conventional, [CCH_BOARD_CFG.slots_log2, CCH_BOARD_CFG.region_mib, CCH_BOARD_CFG.data_mib]⟩

-- CCH_BOARD_STATE, R110, Table 4-18
def CCH_BOARD_STATE.dirty_slots : Fld := ⟨0x20048, 0, 57, 32, .ro, .val 0, .unstated⟩
def CCH_BOARD_STATE.wb_in_use : Fld := ⟨0x20048, 0, 16, 0, .ro, .val 0, .unstated⟩
def rowCchBoardState : RegRow :=
  ⟨0x20048, 0, 1, .function, [CCH_BOARD_STATE.dirty_slots, CCH_BOARD_STATE.wb_in_use]⟩

-- CCH_BOARD_OFFER, R110, Table 4-19
def CCH_BOARD_OFFER.declined : Fld := ⟨0x20060, 0, 63, 32, .rc, .val 0, .unstated⟩
def CCH_BOARD_OFFER.accepted : Fld := ⟨0x20060, 0, 31, 0, .rc, .val 0, .unstated⟩
def rowCchBoardOffer : RegRow :=
  ⟨0x20060, 0, 1, .conventional, [CCH_BOARD_OFFER.declined, CCH_BOARD_OFFER.accepted]⟩

-- CCH_BOARD_ECC, R110, Table 4-20
def CCH_BOARD_ECC.unc_dirty : Fld := ⟨0x20068, 0, 63, 48, .rc, .val 0, .unstated⟩
def CCH_BOARD_ECC.unc_clean : Fld := ⟨0x20068, 0, 47, 32, .rc, .val 0, .unstated⟩
def CCH_BOARD_ECC.corrected : Fld := ⟨0x20068, 0, 31, 0, .rc, .val 0, .unstated⟩
def rowCchBoardEcc : RegRow :=
  ⟨0x20068, 0, 1, .conventional, [CCH_BOARD_ECC.unc_dirty, CCH_BOARD_ECC.unc_clean, CCH_BOARD_ECC.corrected]⟩

-- CCH_CTR_ECC, R110, Table 4-21
def CCH_CTR_ECC.lost_blocks : Fld := ⟨0x20070, 0, 63, 48, .rc, .val 0, .unstated⟩
def CCH_CTR_ECC.mirror_reads : Fld := ⟨0x20070, 0, 47, 32, .rc, .val 0, .unstated⟩
def CCH_CTR_ECC.corrected : Fld := ⟨0x20070, 0, 31, 0, .rc, .val 0, .unstated⟩
def rowCchCtrEcc : RegRow :=
  ⟨0x20070, 0, 1, .conventional, [CCH_CTR_ECC.lost_blocks, CCH_CTR_ECC.mirror_reads, CCH_CTR_ECC.corrected]⟩

-- CCH_LAST_UNC, R110, Table 4-22
def CCH_LAST_UNC.level : Fld := ⟨0x20078, 0, 63, 62, .ro, .val 0, .unstated⟩
def CCH_LAST_UNC.dirty : Fld := ⟨0x20078, 0, 61, 61, .ro, .val 0, .unstated⟩
def CCH_LAST_UNC.line : Fld := ⟨0x20078, 0, 36, 0, .ro, .val 0, .unstated⟩
def rowCchLastUnc : RegRow :=
  ⟨0x20078, 0, 1, .function, [CCH_LAST_UNC.level, CCH_LAST_UNC.dirty, CCH_LAST_UNC.line]⟩

-- CCH_GDDR_ID, R110, Table 4-23
def CCH_GDDR_ID.manufacturer : Fld := ⟨0x20100, 16, 55, 48, .ro, .keep, .unstated⟩
def CCH_GDDR_ID.density_gbit : Fld := ⟨0x20100, 16, 47, 40, .ro, .keep, .unstated⟩
def CCH_GDDR_ID.grade_gbps : Fld := ⟨0x20100, 16, 39, 32, .ro, .keep, .unstated⟩
def CCH_GDDR_ID.rate_gbps : Fld := ⟨0x20100, 16, 31, 24, .ro, .keep, .unstated⟩
def CCH_GDDR_ID.cap_gbps : Fld := ⟨0x20100, 16, 23, 16, .ro, .keep, .unstated⟩
def CCH_GDDR_ID.training : Fld := ⟨0x20100, 16, 15, 8, .ro, .keep, .unstated⟩
def rowCchGddrId : RegRow :=
  ⟨0x20100, 16, 4, .conventional, [CCH_GDDR_ID.manufacturer, CCH_GDDR_ID.density_gbit, CCH_GDDR_ID.grade_gbps, CCH_GDDR_ID.rate_gbps, CCH_GDDR_ID.cap_gbps, CCH_GDDR_ID.training]⟩

-- CCH_GDDR_ERR, R110, Table 4-24
def CCH_GDDR_ERR.temperature_c : Fld := ⟨0x20108, 16, 63, 56, .ro, .val 0, .unstated⟩
def CCH_GDDR_ERR.device_unc : Fld := ⟨0x20108, 16, 47, 32, .rc, .val 0, .unstated⟩
def CCH_GDDR_ERR.device_corrected : Fld := ⟨0x20108, 16, 31, 0, .rc, .val 0, .unstated⟩
def rowCchGddrErr : RegRow :=
  ⟨0x20108, 16, 4, .conventional, [CCH_GDDR_ERR.temperature_c, CCH_GDDR_ERR.device_unc, CCH_GDDR_ERR.device_corrected]⟩

-- MED_GEOMETRY, R140, Table 5-10
def MED_GEOMETRY.blocks_per_plane : Fld := ⟨0x38000, 0, 63, 46, .ro, .val 157286, .unstated⟩
def MED_GEOMETRY.pages_per_block : Fld := ⟨0x38000, 0, 39, 32, .ro, .val 64, .unstated⟩
def MED_GEOMETRY.sectors_per_page : Fld := ⟨0x38000, 0, 31, 24, .ro, .val 16, .unstated⟩
def MED_GEOMETRY.planes : Fld := ⟨0x38000, 0, 23, 16, .ro, .val 4, .unstated⟩
def MED_GEOMETRY.channels : Fld := ⟨0x38000, 0, 15, 8, .ro, .val 16, .unstated⟩
def MED_GEOMETRY.dies_per_channel : Fld := ⟨0x38000, 0, 7, 4, .ro, .keep, .unstated⟩
def MED_GEOMETRY.groups : Fld := ⟨0x38000, 0, 3, 0, .ro, .keep, .unstated⟩
def rowMedGeometry : RegRow :=
  ⟨0x38000, 0, 1, .conventional, [MED_GEOMETRY.blocks_per_plane, MED_GEOMETRY.pages_per_block, MED_GEOMETRY.sectors_per_page, MED_GEOMETRY.planes, MED_GEOMETRY.channels, MED_GEOMETRY.dies_per_channel, MED_GEOMETRY.groups]⟩

-- MED_STATE, R140, Table 5-11
def MED_STATE.rebuilding : Fld := ⟨0x38008, 0, 39, 36, .ro, .val 0, .unstated⟩
def MED_STATE.second_loss : Fld := ⟨0x38008, 0, 35, 32, .ro, .val 0, .unstated⟩
def MED_STATE.retired_dies : Fld := ⟨0x38008, 0, 31, 24, .ro, .keep, .unstated⟩
def MED_STATE.fenced : Fld := ⟨0x38008, 0, 19, 16, .ro, .val 0, .unstated⟩
def MED_STATE.failed_read_only : Fld := ⟨0x38008, 0, 0, 0, .ro, .val 0, .unstated⟩
def rowMedState : RegRow :=
  ⟨0x38008, 0, 1, .function, [MED_STATE.rebuilding, MED_STATE.second_loss, MED_STATE.retired_dies, MED_STATE.fenced, MED_STATE.failed_read_only]⟩

-- MED_RECON, R140, Table 5-12
def MED_RECON.reconstructions : Fld := ⟨0x38010, 0, 63, 32, .rc, .val 0, .unstated⟩
def MED_RECON.exhausted : Fld := ⟨0x38010, 0, 31, 16, .rc, .val 0, .unstated⟩
def MED_RECON.recovered : Fld := ⟨0x38010, 0, 15, 0, .rc, .val 0, .unstated⟩
def rowMedRecon : RegRow :=
  ⟨0x38010, 0, 1, .conventional, [MED_RECON.reconstructions, MED_RECON.exhausted, MED_RECON.recovered]⟩

-- MED_ALLOW, R140, Table 5-13
def MED_ALLOW.g3 : Fld := ⟨0x38018, 0, 63, 48, .ro, .val 0, .unstated⟩
def MED_ALLOW.g2 : Fld := ⟨0x38018, 0, 47, 32, .ro, .val 0, .unstated⟩
def MED_ALLOW.g1 : Fld := ⟨0x38018, 0, 31, 16, .ro, .val 0, .unstated⟩
def MED_ALLOW.g0 : Fld := ⟨0x38018, 0, 15, 0, .ro, .val 0, .unstated⟩
def rowMedAllow : RegRow :=
  ⟨0x38018, 0, 1, .function, [MED_ALLOW.g3, MED_ALLOW.g2, MED_ALLOW.g1, MED_ALLOW.g0]⟩

-- MED_SUSPEND, R140, Table 5-14
def MED_SUSPEND.suspends : Fld := ⟨0x38020, 0, 63, 32, .rc, .val 0, .unstated⟩
def MED_SUSPEND.limit_hits : Fld := ⟨0x38020, 0, 31, 0, .rc, .val 0, .unstated⟩
def rowMedSuspend : RegRow :=
  ⟨0x38020, 0, 1, .conventional, [MED_SUSPEND.suspends, MED_SUSPEND.limit_hits]⟩

-- MED_REBUILD, R140, Table 5-15
def MED_REBUILD.folios_remaining : Fld := ⟨0x38028, 0, 63, 32, .ro, .val 0, .unstated⟩
def MED_REBUILD.die : Fld := ⟨0x38028, 0, 13, 8, .ro, .val 0, .unstated⟩
def MED_REBUILD.group : Fld := ⟨0x38028, 0, 2, 1, .ro, .val 0, .unstated⟩
def MED_REBUILD.active : Fld := ⟨0x38028, 0, 0, 0, .ro, .val 0, .unstated⟩
def rowMedRebuild : RegRow :=
  ⟨0x38028, 0, 1, .function, [MED_REBUILD.folios_remaining, MED_REBUILD.die, MED_REBUILD.group, MED_REBUILD.active]⟩

-- MED_GATE, R140, Table 5-16
def MED_GATE.wakes : Fld := ⟨0x38030, 0, 63, 32, .rc, .val 0, .unstated⟩
def MED_GATE.gated : Fld := ⟨0x38030, 0, 15, 0, .ro, .val 0, .unstated⟩
def rowMedGate : RegRow :=
  ⟨0x38030, 0, 1, .conventional, [MED_GATE.wakes, MED_GATE.gated]⟩

-- MED_FRO_DROPS, R140, Table 5-17
def MED_FRO_DROPS.writes : Fld := ⟨0x38038, 0, 47, 0, .rc, .val 0, .unstated⟩
def rowMedFroDrops : RegRow :=
  ⟨0x38038, 0, 1, .conventional, [MED_FRO_DROPS.writes]⟩

-- MED_DIE_STATE, R140, Table 5-18
def MED_DIE_STATE.retired_blocks : Fld := ⟨0x39000, 32, 47, 32, .ro, .keep, .unstated⟩
def MED_DIE_STATE.op : Fld := ⟨0x39000, 32, 23, 20, .ro, .val 0, .unstated⟩
def MED_DIE_STATE.op_suspends : Fld := ⟨0x39000, 32, 15, 8, .ro, .val 0, .unstated⟩
def MED_DIE_STATE.state : Fld := ⟨0x39000, 32, 2, 0, .ro, .keep, .unstated⟩
def rowMedDieState : RegRow :=
  ⟨0x39000, 32, 64, .conventional, [MED_DIE_STATE.retired_blocks, MED_DIE_STATE.op, MED_DIE_STATE.op_suspends, MED_DIE_STATE.state]⟩

-- MED_DIE_ERR, R140, Table 5-19
def MED_DIE_ERR.timeouts : Fld := ⟨0x39008, 32, 63, 48, .rc, .val 0, .unstated⟩
def MED_DIE_ERR.program_fail : Fld := ⟨0x39008, 32, 47, 32, .rc, .val 0, .unstated⟩
def MED_DIE_ERR.reset_fail : Fld := ⟨0x39008, 32, 31, 16, .rc, .val 0, .unstated⟩
def MED_DIE_ERR.reconstructed : Fld := ⟨0x39008, 32, 15, 0, .rc, .val 0, .unstated⟩
def rowMedDieErr : RegRow :=
  ⟨0x39008, 32, 64, .conventional, [MED_DIE_ERR.timeouts, MED_DIE_ERR.program_fail, MED_DIE_ERR.reset_fail, MED_DIE_ERR.reconstructed]⟩

-- MED_DIE_READS, R140, Table 5-20
def MED_DIE_READS.sectors : Fld := ⟨0x39010, 32, 47, 0, .ro, .val 0, .wrap⟩
def rowMedDieReads : RegRow :=
  ⟨0x39010, 32, 64, .conventional, [MED_DIE_READS.sectors]⟩

-- MAP_CFG, R175, Table 6-14
def MAP_CFG.bead_floor_gib : Fld := ⟨0x30000, 0, 39, 32, .ro, .keep, .unstated⟩
def MAP_CFG.folios : Fld := ⟨0x30000, 0, 31, 0, .ro, .keep, .unstated⟩
def rowMapCfg : RegRow :=
  ⟨0x30000, 0, 1, .conventional, [MAP_CFG.bead_floor_gib, MAP_CFG.folios]⟩

-- MAP_FILL, R175, Table 6-15
def MAP_FILL.placeable_gib : Fld := ⟨0x30008, 0, 63, 48, .ro, .keep, .unstated⟩
def MAP_FILL.bead_limit_gib : Fld := ⟨0x30008, 0, 47, 32, .ro, .val 0, .unstated⟩
def MAP_FILL.bead_used_gib : Fld := ⟨0x30008, 0, 31, 16, .ro, .val 0, .unstated⟩
def MAP_FILL.host_data_gib : Fld := ⟨0x30008, 0, 15, 0, .ro, .val 0, .unstated⟩
def rowMapFill : RegRow :=
  ⟨0x30008, 0, 1, .function, [MAP_FILL.placeable_gib, MAP_FILL.bead_limit_gib, MAP_FILL.bead_used_gib, MAP_FILL.host_data_gib]⟩

-- MAP_FREE_LO, R175, Table 6-16
def MAP_FREE_LO.upper : Fld := ⟨0x30010, 0, 63, 32, .ro, .val 0, .unstated⟩
def MAP_FREE_LO.lower : Fld := ⟨0x30010, 0, 31, 0, .ro, .val 0, .unstated⟩
def rowMapFreeLo : RegRow :=
  ⟨0x30010, 0, 1, .function, [MAP_FREE_LO.upper, MAP_FREE_LO.lower]⟩

-- MAP_FREE_HI, R175, Table 6-16
def MAP_FREE_HI.upper : Fld := ⟨0x30018, 0, 63, 32, .ro, .val 0, .unstated⟩
def MAP_FREE_HI.lower : Fld := ⟨0x30018, 0, 31, 0, .ro, .val 0, .unstated⟩
def rowMapFreeHi : RegRow :=
  ⟨0x30018, 0, 1, .function, [MAP_FREE_HI.upper, MAP_FREE_HI.lower]⟩

-- MAP_RECLAIM, R175, Table 6-17
def MAP_RECLAIM.dest_failures : Fld := ⟨0x30020, 0, 63, 48, .rc, .val 0, .unstated⟩
def MAP_RECLAIM.moves_dropped : Fld := ⟨0x30020, 0, 47, 32, .rc, .val 0, .unstated⟩
def MAP_RECLAIM.blocks_reclaimed : Fld := ⟨0x30020, 0, 31, 0, .rc, .val 0, .unstated⟩
def rowMapReclaim : RegRow :=
  ⟨0x30020, 0, 1, .conventional, [MAP_RECLAIM.dest_failures, MAP_RECLAIM.moves_dropped, MAP_RECLAIM.blocks_reclaimed]⟩

-- MAP_COPIED, R175, Table 6-18
def MAP_COPIED.folios : Fld := ⟨0x30028, 0, 47, 0, .ro, .val 0, .wrap⟩
def rowMapCopied : RegRow :=
  ⟨0x30028, 0, 1, .conventional, [MAP_COPIED.folios]⟩

-- MAP_PROMOTE, R175, Table 6-19
def MAP_PROMOTE.out_of_place : Fld := ⟨0x30030, 0, 63, 32, .rc, .val 0, .unstated⟩
def MAP_PROMOTE.promotions : Fld := ⟨0x30030, 0, 31, 0, .rc, .val 0, .unstated⟩
def rowMapPromote : RegRow :=
  ⟨0x30030, 0, 1, .conventional, [MAP_PROMOTE.out_of_place, MAP_PROMOTE.promotions]⟩

-- MAP_DEMOTE, R175, Table 6-20
def MAP_DEMOTE.rotations : Fld := ⟨0x30038, 0, 63, 32, .rc, .val 0, .unstated⟩
def MAP_DEMOTE.demotions : Fld := ⟨0x30038, 0, 31, 0, .rc, .val 0, .unstated⟩
def rowMapDemote : RegRow :=
  ⟨0x30038, 0, 1, .conventional, [MAP_DEMOTE.rotations, MAP_DEMOTE.demotions]⟩

-- MAP_JOURNAL, R175, Table 6-21
def MAP_JOURNAL.retained_mib : Fld := ⟨0x30040, 0, 63, 48, .ro, .val 0, .unstated⟩
def MAP_JOURNAL.committed_seq : Fld := ⟨0x30040, 0, 47, 0, .ro, .keep, .unstated⟩
def rowMapJournal : RegRow :=
  ⟨0x30040, 0, 1, .function, [MAP_JOURNAL.retained_mib, MAP_JOURNAL.committed_seq]⟩

-- MAP_CKPT, R175, Table 6-22
def MAP_CKPT.newest_start_seq : Fld := ⟨0x30048, 0, 63, 16, .ro, .keep, .unstated⟩
def MAP_CKPT.writing : Fld := ⟨0x30048, 0, 8, 8, .ro, .val 0, .unstated⟩
def MAP_CKPT.newest_slot : Fld := ⟨0x30048, 0, 0, 0, .ro, .keep, .unstated⟩
def rowMapCkpt : RegRow :=
  ⟨0x30048, 0, 1, .conventional, [MAP_CKPT.newest_start_seq, MAP_CKPT.writing, MAP_CKPT.newest_slot]⟩

-- MAP_WEAR, R175, Table 6-23
def MAP_WEAR.max_wear_ppm : Fld := ⟨0x30050, 0, 63, 32, .ro, .keep, .unstated⟩
def MAP_WEAR.mean_wear_ppm : Fld := ⟨0x30050, 0, 31, 0, .ro, .keep, .unstated⟩
def rowMapWear : RegRow :=
  ⟨0x30050, 0, 1, .conventional, [MAP_WEAR.max_wear_ppm, MAP_WEAR.mean_wear_ppm]⟩

-- MAP_SPARE, R175, Table 6-24
def MAP_SPARE.cover_initial_gib : Fld := ⟨0x30058, 0, 47, 32, .ro, .keep, .unstated⟩
def MAP_SPARE.cover_left_gib : Fld := ⟨0x30058, 0, 31, 16, .ro, .keep, .unstated⟩
def MAP_SPARE.spare_left_pct : Fld := ⟨0x30058, 0, 7, 0, .ro, .keep, .unstated⟩
def rowMapSpare : RegRow :=
  ⟨0x30058, 0, 1, .conventional, [MAP_SPARE.cover_initial_gib, MAP_SPARE.cover_left_gib, MAP_SPARE.spare_left_pct]⟩

-- MAP_CACHE, R175, Table 6-25
def MAP_CACHE.misses : Fld := ⟨0x30060, 0, 63, 32, .rc, .val 0, .unstated⟩
def MAP_CACHE.hits : Fld := ⟨0x30060, 0, 31, 0, .rc, .val 0, .unstated⟩
def rowMapCache : RegRow :=
  ⟨0x30060, 0, 1, .conventional, [MAP_CACHE.misses, MAP_CACHE.hits]⟩

-- MAP_DISCARD, R175, Table 6-26
def MAP_DISCARD.folios_remaining : Fld := ⟨0x30068, 0, 63, 32, .ro, .val 0, .unstated⟩
def MAP_DISCARD.active : Fld := ⟨0x30068, 0, 0, 0, .ro, .val 0, .unstated⟩
def rowMapDiscard : RegRow :=
  ⟨0x30068, 0, 1, .function, [MAP_DISCARD.folios_remaining, MAP_DISCARD.active]⟩

-- CAL_CALENDAR, R198, Table 7-7
def CAL_CALENDAR.slewing : Fld := ⟨0x40000, 0, 33, 33, .ro, .val 0, .unstated⟩
def CAL_CALENDAR.provisional : Fld := ⟨0x40000, 0, 32, 32, .ro, .keep, .unstated⟩
def CAL_CALENDAR.calendar_s : Fld := ⟨0x40000, 0, 31, 0, .ro, .keep, .unstated⟩
def rowCalCalendar : RegRow :=
  ⟨0x40000, 0, 1, .power, [CAL_CALENDAR.slewing, CAL_CALENDAR.provisional, CAL_CALENDAR.calendar_s]⟩

-- CAL_SYNC, R198, Table 7-8
def CAL_SYNC.last_host_s : Fld := ⟨0x40008, 0, 63, 32, .ro, .val 0, .unstated⟩
def CAL_SYNC.refused : Fld := ⟨0x40008, 0, 31, 16, .rc, .val 0, .unstated⟩
def CAL_SYNC.vaux_continuous : Fld := ⟨0x40008, 0, 0, 0, .ro, .keep, .unstated⟩
def rowCalSync : RegRow :=
  ⟨0x40008, 0, 1, .conventional, [CAL_SYNC.last_host_s, CAL_SYNC.refused, CAL_SYNC.vaux_continuous]⟩

-- CAL_UNPOWERED, R198, Table 7-9
def CAL_UNPOWERED.added_s : Fld := ⟨0x40010, 0, 63, 32, .ro, .keep, .unstated⟩
def CAL_UNPOWERED.median_delta_a : Fld := ⟨0x40010, 0, 31, 0, .ro, .keep, .sat⟩
def rowCalUnpowered : RegRow :=
  ⟨0x40010, 0, 1, .conventional, [CAL_UNPOWERED.added_s, CAL_UNPOWERED.median_delta_a]⟩

-- CAL_SCRUB_CFG, R198, Table 7-10
def CAL_SCRUB_CFG.idle_threshold_us : Fld := ⟨0x40018, 0, 9, 0, .ro, .keep, .unstated⟩
def rowCalScrubCfg : RegRow :=
  ⟨0x40018, 0, 1, .conventional, [CAL_SCRUB_CFG.idle_threshold_us]⟩

-- CAL_SCRUB, R198, Table 7-11
def CAL_SCRUB.last_lap_min : Fld := ⟨0x40020, 0, 63, 40, .ro, .keep, .unstated⟩
def CAL_SCRUB.elapsed_min : Fld := ⟨0x40020, 0, 39, 16, .ro, .keep, .unstated⟩
def CAL_SCRUB.progress_pct : Fld := ⟨0x40020, 0, 15, 8, .ro, .keep, .unstated⟩
def CAL_SCRUB.over_limit : Fld := ⟨0x40020, 0, 1, 1, .ro, .keep, .unstated⟩
def CAL_SCRUB.active : Fld := ⟨0x40020, 0, 0, 0, .ro, .val 0, .unstated⟩
def rowCalScrub : RegRow :=
  ⟨0x40020, 0, 1, .conventional, [CAL_SCRUB.last_lap_min, CAL_SCRUB.elapsed_min, CAL_SCRUB.progress_pct, CAL_SCRUB.over_limit, CAL_SCRUB.active]⟩

-- CAL_DECODE, R198, Table 7-12
def CAL_DECODE.soft_ok : Fld := ⟨0x40028, 0, 63, 48, .rc, .val 0, .unstated⟩
def CAL_DECODE.soft_failed : Fld := ⟨0x40028, 0, 47, 32, .rc, .val 0, .unstated⟩
def CAL_DECODE.corrected : Fld := ⟨0x40028, 0, 31, 0, .rc, .val 0, .unstated⟩
def rowCalDecode : RegRow :=
  ⟨0x40028, 0, 1, .conventional, [CAL_DECODE.soft_ok, CAL_DECODE.soft_failed, CAL_DECODE.corrected]⟩

-- CAL_MARGIN, R198, Table 7-13
def CAL_MARGIN.margin_reads : Fld := ⟨0x40030, 0, 63, 32, .rc, .val 0, .unstated⟩
def CAL_MARGIN.thin_entries : Fld := ⟨0x40030, 0, 15, 0, .ro, .val 0, .unstated⟩
def rowCalMargin : RegRow :=
  ⟨0x40030, 0, 1, .conventional, [CAL_MARGIN.margin_reads, CAL_MARGIN.thin_entries]⟩

-- CAL_MIGRATE, R198, Table 7-14
def CAL_MIGRATE.migrated : Fld := ⟨0x40038, 0, 63, 32, .rc, .val 0, .unstated⟩
def CAL_MIGRATE.refreshed : Fld := ⟨0x40038, 0, 31, 0, .rc, .val 0, .unstated⟩
def rowCalMigrate : RegRow :=
  ⟨0x40038, 0, 1, .conventional, [CAL_MIGRATE.migrated, CAL_MIGRATE.refreshed]⟩

-- CAL_POISON, R198, Table 7-15
def CAL_POISON.additions : Fld := ⟨0x40040, 0, 63, 32, .rc, .val 0, .unstated⟩
def CAL_POISON.overflow : Fld := ⟨0x40040, 0, 31, 31, .ro, .keep, .unstated⟩
def CAL_POISON.records : Fld := ⟨0x40040, 0, 13, 0, .ro, .keep, .unstated⟩
def rowCalPoison : RegRow :=
  ⟨0x40040, 0, 1, .conventional, [CAL_POISON.additions, CAL_POISON.overflow, CAL_POISON.records]⟩

-- CAL_DIE_AGE, R198, Table 7-16
def CAL_DIE_AGE.accumulator : Fld := ⟨0x41000, 32, 63, 0, .ro, .keep, .unstated⟩
def rowCalDieAge : RegRow :=
  ⟨0x41000, 32, 64, .power, [CAL_DIE_AGE.accumulator]⟩

-- CAL_DIE_STATE, R198, Table 7-17
def CAL_DIE_STATE.limit_hits : Fld := ⟨0x41008, 32, 63, 48, .rc, .val 0, .unstated⟩
def CAL_DIE_STATE.low_margin : Fld := ⟨0x41008, 32, 47, 32, .ro, .val 0, .unstated⟩
def CAL_DIE_STATE.thin_entries : Fld := ⟨0x41008, 32, 31, 16, .ro, .val 0, .unstated⟩
def CAL_DIE_STATE.substituted : Fld := ⟨0x41008, 32, 8, 8, .ro, .val 0, .unstated⟩
def CAL_DIE_STATE.temp : Fld := ⟨0x41008, 32, 7, 0, .ro, .val 0, .unstated⟩
def rowCalDieState : RegRow :=
  ⟨0x41008, 32, 64, .conventional, [CAL_DIE_STATE.limit_hits, CAL_DIE_STATE.low_margin, CAL_DIE_STATE.thin_entries, CAL_DIE_STATE.substituted, CAL_DIE_STATE.temp]⟩

-- CAL_DIE_REF, R198, Table 7-18
def CAL_DIE_REF.ref_calendar_s : Fld := ⟨0x41010, 32, 63, 32, .ro, .keep, .unstated⟩
def CAL_DIE_REF.delta_a : Fld := ⟨0x41010, 32, 31, 0, .ro, .keep, .sat⟩
def rowCalDieRef : RegRow :=
  ⟨0x41010, 32, 64, .conventional, [CAL_DIE_REF.ref_calendar_s, CAL_DIE_REF.delta_a]⟩

-- KEY_SLOTS, R233, Table 8-11
def KEY_SLOTS.filled : Fld := ⟨0x50000, 0, 28, 16, .ro, .keep, .unstated⟩
def KEY_SLOTS.empty : Fld := ⟨0x50000, 0, 12, 0, .ro, .keep, .unstated⟩
def rowKeySlots : RegRow :=
  ⟨0x50000, 0, 1, .conventional, [KEY_SLOTS.filled, KEY_SLOTS.empty]⟩

-- KEY_SWEEP, R233, Table 8-12
def KEY_SWEEP.new_key : Fld := ⟨0x50008, 0, 63, 52, .ro, .keep, .unstated⟩
def KEY_SWEEP.old_key : Fld := ⟨0x50008, 0, 51, 40, .ro, .keep, .unstated⟩
def KEY_SWEEP.extent : Fld := ⟨0x50008, 0, 39, 28, .ro, .keep, .unstated⟩
def KEY_SWEEP.automatic : Fld := ⟨0x50008, 0, 27, 27, .ro, .keep, .unstated⟩
def KEY_SWEEP.kind : Fld := ⟨0x50008, 0, 9, 8, .ro, .keep, .unstated⟩
def KEY_SWEEP.progress_pct : Fld := ⟨0x50008, 0, 7, 1, .ro, .keep, .unstated⟩
def KEY_SWEEP.active : Fld := ⟨0x50008, 0, 0, 0, .ro, .keep, .unstated⟩
def rowKeySweep : RegRow :=
  ⟨0x50008, 0, 1, .conventional, [KEY_SWEEP.new_key, KEY_SWEEP.old_key, KEY_SWEEP.extent, KEY_SWEEP.automatic, KEY_SWEEP.kind, KEY_SWEEP.progress_pct, KEY_SWEEP.active]⟩

-- KEY_BOUNDARY, R233, Table 8-13
def KEY_BOUNDARY.dpa : Fld := ⟨0x50010, 0, 42, 0, .ro, .keep, .unstated⟩
def rowKeyBoundary : RegRow :=
  ⟨0x50010, 0, 1, .conventional, [KEY_BOUNDARY.dpa]⟩

-- KEY_MAC, R233, Table 8-14
def KEY_MAC.late_alarms : Fld := ⟨0x50018, 0, 63, 48, .rc, .val 0, .unstated⟩
def KEY_MAC.poisoned : Fld := ⟨0x50018, 0, 47, 32, .rc, .val 0, .unstated⟩
def KEY_MAC.stored_poisoned : Fld := ⟨0x50018, 0, 31, 16, .rc, .val 0, .unstated⟩
def KEY_MAC.recovered : Fld := ⟨0x50018, 0, 15, 0, .rc, .val 0, .unstated⟩
def rowKeyMac : RegRow :=
  ⟨0x50018, 0, 1, .conventional, [KEY_MAC.late_alarms, KEY_MAC.poisoned, KEY_MAC.stored_poisoned, KEY_MAC.recovered]⟩

-- KEY_LAST_FAIL, R233, Table 8-15
def KEY_LAST_FAIL.kind : Fld := ⟨0x50020, 0, 63, 62, .ro, .val 0, .unstated⟩
def KEY_LAST_FAIL.line : Fld := ⟨0x50020, 0, 36, 0, .ro, .val 0, .unstated⟩
def rowKeyLastFail : RegRow :=
  ⟨0x50020, 0, 1, .function, [KEY_LAST_FAIL.kind, KEY_LAST_FAIL.line]⟩

-- KEY_TREE, R233, Table 8-16
def KEY_TREE.blocks_lost : Fld := ⟨0x50028, 0, 63, 48, .rc, .val 0, .unstated⟩
def KEY_TREE.nodes_lost : Fld := ⟨0x50028, 0, 47, 32, .rc, .val 0, .unstated⟩
def KEY_TREE.lines_poisoned : Fld := ⟨0x50028, 0, 31, 0, .rc, .val 0, .unstated⟩
def rowKeyTree : RegRow :=
  ⟨0x50028, 0, 1, .conventional, [KEY_TREE.blocks_lost, KEY_TREE.nodes_lost, KEY_TREE.lines_poisoned]⟩

-- KEY_TOP, R233, Table 8-17
def KEY_TOP.sequence : Fld := ⟨0x50030, 0, 63, 2, .ro, .keep, .unstated⟩
def KEY_TOP.source : Fld := ⟨0x50030, 0, 1, 0, .ro, .keep, .unstated⟩
def rowKeyTop : RegRow :=
  ⟨0x50030, 0, 1, .conventional, [KEY_TOP.sequence, KEY_TOP.source]⟩

-- KEY_NODE_CACHE, R233, Table 8-18
def KEY_NODE_CACHE.misses : Fld := ⟨0x50038, 0, 63, 32, .rc, .val 0, .unstated⟩
def KEY_NODE_CACHE.hits : Fld := ⟨0x50038, 0, 31, 0, .rc, .val 0, .unstated⟩
def rowKeyNodeCache : RegRow :=
  ⟨0x50038, 0, 1, .conventional, [KEY_NODE_CACHE.misses, KEY_NODE_CACHE.hits]⟩

-- KEY_OVERFLOW, R233, Table 8-19
def KEY_OVERFLOW.node_overflows : Fld := ⟨0x50040, 0, 63, 32, .rc, .val 0, .unstated⟩
def KEY_OVERFLOW.page_overflows : Fld := ⟨0x50040, 0, 31, 0, .rc, .val 0, .unstated⟩
def rowKeyOverflow : RegRow :=
  ⟨0x50040, 0, 1, .conventional, [KEY_OVERFLOW.node_overflows, KEY_OVERFLOW.page_overflows]⟩

-- KEY_HOLD, R233, Table 8-20
def KEY_HOLD.first_held : Fld := ⟨0x50048, 0, 43, 32, .ro, .val 0, .unstated⟩
def KEY_HOLD.held : Fld := ⟨0x50048, 0, 12, 0, .ro, .val 0, .unstated⟩
def rowKeyHold : RegRow :=
  ⟨0x50048, 0, 1, .function, [KEY_HOLD.first_held, KEY_HOLD.held]⟩

-- KEY_SLOT_STATE, R233, Table 8-21
def KEY_SLOT_STATE.state : Fld := ⟨0x51000, 8, 63, 62, .ro, .keep, .unstated⟩
def KEY_SLOT_STATE.generation : Fld := ⟨0x51000, 8, 61, 46, .ro, .keep, .unstated⟩
def KEY_SLOT_STATE.use_count : Fld := ⟨0x51000, 8, 40, 0, .ro, .keep, .unstated⟩
def rowKeySlotState : RegRow :=
  ⟨0x51000, 8, 4096, .conventional, [KEY_SLOT_STATE.state, KEY_SLOT_STATE.generation, KEY_SLOT_STATE.use_count]⟩

-- PFL_STATE, R268, Table 9-16
def PFL_STATE.clean_marked : Fld := ⟨0x60000, 0, 15, 15, .ro, .keep, .unstated⟩
def PFL_STATE.test_running : Fld := ⟨0x60000, 0, 14, 14, .ro, .val 0, .unstated⟩
def PFL_STATE.gpf_seen : Fld := ⟨0x60000, 0, 13, 13, .ro, .val 0, .unstated⟩
def PFL_STATE.flush_running : Fld := ⟨0x60000, 0, 12, 12, .ro, .val 0, .unstated⟩
def PFL_STATE.slot_b : Fld := ⟨0x60000, 0, 11, 8, .ro, .keep, .unstated⟩
def PFL_STATE.slot_a : Fld := ⟨0x60000, 0, 7, 4, .ro, .keep, .unstated⟩
def PFL_STATE.mode : Fld := ⟨0x60000, 0, 1, 0, .ro, .keep, .unstated⟩
def rowPflState : RegRow :=
  ⟨0x60000, 0, 1, .function, [PFL_STATE.clean_marked, PFL_STATE.test_running, PFL_STATE.gpf_seen, PFL_STATE.flush_running, PFL_STATE.slot_b, PFL_STATE.slot_a, PFL_STATE.mode]⟩

-- PFL_BUDGET, R268, Table 9-17
def PFL_BUDGET.b_energy_mib : Fld := ⟨0x60008, 0, 63, 48, .ro, .val 0, .unstated⟩
def PFL_BUDGET.b_charge_mib : Fld := ⟨0x60008, 0, 47, 32, .ro, .val 0, .unstated⟩
def PFL_BUDGET.budget_mib : Fld := ⟨0x60008, 0, 31, 16, .ro, .val 0, .unstated⟩
def PFL_BUDGET.staged_mib : Fld := ⟨0x60008, 0, 15, 0, .ro, .val 0, .unstated⟩
def rowPflBudget : RegRow :=
  ⟨0x60008, 0, 1, .function, [PFL_BUDGET.b_energy_mib, PFL_BUDGET.b_charge_mib, PFL_BUDGET.budget_mib, PFL_BUDGET.staged_mib]⟩

-- PFL_STORE, R268, Table 9-18
def PFL_STORE.energy_mj : Fld := ⟨0x60010, 0, 63, 48, .ro, .keep, .unstated⟩
def PFL_STORE.capacitance : Fld := ⟨0x60010, 0, 47, 32, .ro, .keep, .unstated⟩
def PFL_STORE.esr : Fld := ⟨0x60010, 0, 31, 16, .ro, .keep, .unstated⟩
def PFL_STORE.health : Fld := ⟨0x60010, 0, 9, 8, .ro, .keep, .unstated⟩
def PFL_STORE.last_result : Fld := ⟨0x60010, 0, 7, 0, .ro, .keep, .unstated⟩
def rowPflStore : RegRow :=
  ⟨0x60010, 0, 1, .conventional, [PFL_STORE.energy_mj, PFL_STORE.capacitance, PFL_STORE.esr, PFL_STORE.health, PFL_STORE.last_result]⟩

-- PFL_STORE_NOW, R268, Table 9-19
def PFL_STORE_NOW.vstore_mv : Fld := ⟨0x60018, 0, 63, 48, .ro, .val 0, .unstated⟩
def PFL_STORE_NOW.energy_now_mj : Fld := ⟨0x60018, 0, 47, 32, .ro, .val 0, .unstated⟩
def PFL_STORE_NOW.temp : Fld := ⟨0x60018, 0, 31, 24, .ro, .val 0, .unstated⟩
def PFL_STORE_NOW.derate_pct : Fld := ⟨0x60018, 0, 23, 16, .ro, .val 0, .unstated⟩
def rowPflStoreNow : RegRow :=
  ⟨0x60018, 0, 1, .function, [PFL_STORE_NOW.vstore_mv, PFL_STORE_NOW.energy_now_mj, PFL_STORE_NOW.temp, PFL_STORE_NOW.derate_pct]⟩

-- PFL_TEST, R268, Table 9-20
def PFL_TEST.last_calendar_s : Fld := ⟨0x60020, 0, 63, 32, .ro, .keep, .unstated⟩
def PFL_TEST.hours_since : Fld := ⟨0x60020, 0, 31, 16, .ro, .keep, .unstated⟩
def PFL_TEST.tests : Fld := ⟨0x60020, 0, 15, 0, .ro, .keep, .sat⟩
def rowPflTest : RegRow :=
  ⟨0x60020, 0, 1, .conventional, [PFL_TEST.last_calendar_s, PFL_TEST.hours_since, PFL_TEST.tests]⟩

-- PFL_SLOT_A, R268, Table 9-21
def PFL_SLOT_A.lines_remaining : Fld := ⟨0x60028, 0, 63, 32, .ro, .keep, .unstated⟩
def PFL_SLOT_A.sequence : Fld := ⟨0x60028, 0, 31, 8, .ro, .keep, .unstated⟩
def PFL_SLOT_A.state : Fld := ⟨0x60028, 0, 3, 0, .ro, .keep, .unstated⟩
def rowPflSlotA : RegRow :=
  ⟨0x60028, 0, 1, .conventional, [PFL_SLOT_A.lines_remaining, PFL_SLOT_A.sequence, PFL_SLOT_A.state]⟩

-- PFL_SLOT_B, R268, Table 9-21
def PFL_SLOT_B.lines_remaining : Fld := ⟨0x60030, 0, 63, 32, .ro, .keep, .unstated⟩
def PFL_SLOT_B.sequence : Fld := ⟨0x60030, 0, 31, 8, .ro, .keep, .unstated⟩
def PFL_SLOT_B.state : Fld := ⟨0x60030, 0, 3, 0, .ro, .keep, .unstated⟩
def rowPflSlotB : RegRow :=
  ⟨0x60030, 0, 1, .conventional, [PFL_SLOT_B.lines_remaining, PFL_SLOT_B.sequence, PFL_SLOT_B.state]⟩

-- PFL_LAST_DUMP, R268, Table 9-22
def PFL_LAST_DUMP.lines : Fld := ⟨0x60038, 0, 63, 32, .ro, .keep, .unstated⟩
def PFL_LAST_DUMP.duration_ms : Fld := ⟨0x60038, 0, 31, 16, .ro, .keep, .unstated⟩
def PFL_LAST_DUMP.energy : Fld := ⟨0x60038, 0, 15, 8, .ro, .keep, .unstated⟩
def PFL_LAST_DUMP.outcome : Fld := ⟨0x60038, 0, 2, 0, .ro, .keep, .unstated⟩
def rowPflLastDump : RegRow :=
  ⟨0x60038, 0, 1, .conventional, [PFL_LAST_DUMP.lines, PFL_LAST_DUMP.duration_ms, PFL_LAST_DUMP.energy, PFL_LAST_DUMP.outcome]⟩

-- PFL_COUNTS, R268, Table 9-23
def PFL_COUNTS.dumps : Fld := ⟨0x60040, 0, 63, 32, .ro, .keep, .unstated⟩
def PFL_COUNTS.dirty_shutdowns : Fld := ⟨0x60040, 0, 31, 16, .ro, .keep, .unstated⟩
def PFL_COUNTS.write_through : Fld := ⟨0x60040, 0, 15, 0, .ro, .keep, .unstated⟩
def rowPflCounts : RegRow :=
  ⟨0x60040, 0, 1, .conventional, [PFL_COUNTS.dumps, PFL_COUNTS.dirty_shutdowns, PFL_COUNTS.write_through]⟩

-- PFL_WT, R268, Table 9-24
def PFL_WT.log_writes : Fld := ⟨0x60048, 0, 63, 32, .rc, .val 0, .unstated⟩
def PFL_WT.log_used_mib : Fld := ⟨0x60048, 0, 31, 16, .ro, .val 0, .unstated⟩
def rowPflWt : RegRow :=
  ⟨0x60048, 0, 1, .function, [PFL_WT.log_writes, PFL_WT.log_used_mib]⟩

-- PFL_SUSPECT, R268, Table 9-25
def PFL_SUSPECT.suspect : Fld := ⟨0x61000, 8, 63, 0, .w1c, .keep, .unstated⟩
def rowPflSuspect : RegRow :=
  ⟨0x61000, 8, 64, .conventional, [PFL_SUSPECT.suspect]⟩

-- RING_CFG, R296, Table 10-11
def RING_CFG.ring_id : Fld := ⟨0x70000, 0, 63, 48, .ro, .keep, .unstated⟩
def RING_CFG.members : Fld := ⟨0x70000, 0, 47, 40, .ro, .keep, .unstated⟩
def RING_CFG.master : Fld := ⟨0x70000, 0, 39, 32, .ro, .keep, .unstated⟩
def RING_CFG.own_index : Fld := ⟨0x70000, 0, 27, 24, .ro, .keep, .unstated⟩
def RING_CFG.wait_ms : Fld := ⟨0x70000, 0, 15, 0, .ro, .keep, .unstated⟩
def rowRingCfg : RegRow :=
  ⟨0x70000, 0, 1, .conventional, [RING_CFG.ring_id, RING_CFG.members, RING_CFG.master, RING_CFG.own_index, RING_CFG.wait_ms]⟩

-- RING_STATUS, R296, Table 10-12
def RING_STATUS.wait_used_ms : Fld := ⟨0x70008, 0, 63, 52, .ro, .keep, .unstated⟩
def RING_STATUS.version : Fld := ⟨0x70008, 0, 51, 48, .ro, .val 0, .unstated⟩
def RING_STATUS.present : Fld := ⟨0x70008, 0, 47, 32, .ro, .val 0, .unstated⟩
def RING_STATUS.missing : Fld := ⟨0x70008, 0, 31, 16, .ro, .val 0, .unstated⟩
def RING_STATUS.position : Fld := ⟨0x70008, 0, 15, 12, .ro, .val 0, .unstated⟩
def RING_STATUS.state : Fld := ⟨0x70008, 0, 11, 8, .ro, .val 0, .unstated⟩
def RING_STATUS.is_master : Fld := ⟨0x70008, 0, 3, 3, .ro, .keep, .unstated⟩
def RING_STATUS.bypass_closed : Fld := ⟨0x70008, 0, 2, 2, .ro, .val 1, .unstated⟩
def RING_STATUS.out_cable : Fld := ⟨0x70008, 0, 1, 1, .ro, .val 0, .unstated⟩
def RING_STATUS.in_sync : Fld := ⟨0x70008, 0, 0, 0, .ro, .val 0, .unstated⟩
def rowRingStatus : RegRow :=
  ⟨0x70008, 0, 1, .function, [RING_STATUS.wait_used_ms, RING_STATUS.version, RING_STATUS.present, RING_STATUS.missing, RING_STATUS.position, RING_STATUS.state, RING_STATUS.is_master, RING_STATUS.bypass_closed, RING_STATUS.out_cable, RING_STATUS.in_sync]⟩

-- RING_EPOCH, R296, Table 10-13
def RING_EPOCH.committed : Fld := ⟨0x70010, 0, 63, 16, .ro, .keep, .unstated⟩
def RING_EPOCH.card_local : Fld := ⟨0x70010, 0, 3, 3, .ro, .val 0, .unstated⟩
def RING_EPOCH.pending : Fld := ⟨0x70010, 0, 2, 2, .ro, .val 0, .unstated⟩
def RING_EPOCH.holds_commit : Fld := ⟨0x70010, 0, 1, 1, .ro, .val 0, .unstated⟩
def RING_EPOCH.prepared : Fld := ⟨0x70010, 0, 0, 0, .ro, .val 0, .unstated⟩
def rowRingEpoch : RegRow :=
  ⟨0x70010, 0, 1, .function, [RING_EPOCH.committed, RING_EPOCH.card_local, RING_EPOCH.pending, RING_EPOCH.holds_commit, RING_EPOCH.prepared]⟩

-- RING_DOORBELL, R296, Table 10-14
def RING_DOORBELL.epoch : Fld := ⟨0x70018, 0, 47, 0, .wo, .val 0, .unstated⟩
def rowRingDoorbell : RegRow :=
  ⟨0x70018, 0, 1, .function, [RING_DOORBELL.epoch]⟩

-- RING_CLOSE, R296, Table 10-15
def RING_CLOSE.last_close_ns : Fld := ⟨0x70020, 0, 63, 32, .ro, .val 0, .unstated⟩
def RING_CLOSE.refusal : Fld := ⟨0x70020, 0, 7, 4, .ro, .val 0, .unstated⟩
def RING_CLOSE.phase : Fld := ⟨0x70020, 0, 3, 0, .ro, .val 0, .unstated⟩
def rowRingClose : RegRow :=
  ⟨0x70020, 0, 1, .function, [RING_CLOSE.last_close_ns, RING_CLOSE.refusal, RING_CLOSE.phase]⟩

-- RING_FLUSH, R296, Table 10-16
def RING_FLUSH.done_mask : Fld := ⟨0x70028, 0, 63, 48, .ro, .val 0, .unstated⟩
def RING_FLUSH.sequence : Fld := ⟨0x70028, 0, 47, 32, .ro, .val 0, .unstated⟩
def RING_FLUSH.done : Fld := ⟨0x70028, 0, 2, 2, .w1c, .val 0, .unstated⟩
def RING_FLUSH.running : Fld := ⟨0x70028, 0, 1, 1, .ro, .val 0, .unstated⟩
def RING_FLUSH.start : Fld := ⟨0x70028, 0, 0, 0, .w1s, .val 0, .unstated⟩
def rowRingFlush : RegRow :=
  ⟨0x70028, 0, 1, .function, [RING_FLUSH.done_mask, RING_FLUSH.sequence, RING_FLUSH.done, RING_FLUSH.running, RING_FLUSH.start]⟩

-- RING_ERR, R296, Table 10-17
def RING_ERR.crc_errors : Fld := ⟨0x70030, 0, 63, 48, .rc, .val 0, .unstated⟩
def RING_ERR.sync_losses : Fld := ⟨0x70030, 0, 47, 32, .rc, .val 0, .unstated⟩
def RING_ERR.retransmits : Fld := ⟨0x70030, 0, 31, 16, .rc, .val 0, .unstated⟩
def RING_ERR.reserved_types : Fld := ⟨0x70030, 0, 15, 8, .rc, .val 0, .unstated⟩
def RING_ERR.bad_doorbells : Fld := ⟨0x70030, 0, 7, 0, .rc, .val 0, .unstated⟩
def rowRingErr : RegRow :=
  ⟨0x70030, 0, 1, .conventional, [RING_ERR.crc_errors, RING_ERR.sync_losses, RING_ERR.retransmits, RING_ERR.reserved_types, RING_ERR.bad_doorbells]⟩

-- RING_SHADOW, R296, Table 10-18
def RING_SHADOW.in_use : Fld := ⟨0x70038, 0, 52, 32, .ro, .val 0, .unstated⟩
def RING_SHADOW.settle_pending : Fld := ⟨0x70038, 0, 31, 0, .ro, .val 0, .unstated⟩
def rowRingShadow : RegRow :=
  ⟨0x70038, 0, 1, .function, [RING_SHADOW.in_use, RING_SHADOW.settle_pending]⟩

-- RING_HOLD, R296, Table 10-19
def RING_HOLD.held_writes : Fld := ⟨0x70040, 0, 63, 32, .rc, .val 0, .unstated⟩
def RING_HOLD.pending_drops : Fld := ⟨0x70040, 0, 31, 0, .rc, .val 0, .unstated⟩
def rowRingHold : RegRow :=
  ⟨0x70040, 0, 1, .conventional, [RING_HOLD.held_writes, RING_HOLD.pending_drops]⟩

-- RING_MEMBER_SERIAL, R296, Table 10-20
def RING_MEMBER_SERIAL.serial : Fld := ⟨0x70100, 16, 63, 0, .ro, .keep, .unstated⟩
def rowRingMemberSerial : RegRow :=
  ⟨0x70100, 16, 16, .conventional, [RING_MEMBER_SERIAL.serial]⟩

-- RING_MEMBER_STATE, R296, Table 10-21
def RING_MEMBER_STATE.committed : Fld := ⟨0x70108, 16, 63, 16, .ro, .val 0, .unstated⟩
def RING_MEMBER_STATE.position : Fld := ⟨0x70108, 16, 15, 8, .ro, .val 255, .unstated⟩
def RING_MEMBER_STATE.version : Fld := ⟨0x70108, 16, 7, 4, .ro, .val 0, .unstated⟩
def RING_MEMBER_STATE.state_lost : Fld := ⟨0x70108, 16, 3, 3, .ro, .val 0, .unstated⟩
def RING_MEMBER_STATE.prepared : Fld := ⟨0x70108, 16, 2, 2, .ro, .val 0, .unstated⟩
def RING_MEMBER_STATE.present : Fld := ⟨0x70108, 16, 1, 1, .ro, .val 0, .unstated⟩
def RING_MEMBER_STATE.master : Fld := ⟨0x70108, 16, 0, 0, .ro, .keep, .unstated⟩
def rowRingMemberState : RegRow :=
  ⟨0x70108, 16, 16, .function, [RING_MEMBER_STATE.committed, RING_MEMBER_STATE.position, RING_MEMBER_STATE.version, RING_MEMBER_STATE.state_lost, RING_MEMBER_STATE.prepared, RING_MEMBER_STATE.present, RING_MEMBER_STATE.master]⟩

-- PWR_INPUTS, R323, Table 11-15
def PWR_INPUTS.slot_12v_mv : Fld := ⟨0x80000, 0, 63, 48, .ro, .val 0, .unstated⟩
def PWR_INPUTS.aux_12v_mv : Fld := ⟨0x80000, 0, 47, 32, .ro, .val 0, .unstated⟩
def PWR_INPUTS.slot_3v3_mv : Fld := ⟨0x80000, 0, 31, 16, .ro, .val 0, .unstated⟩
def PWR_INPUTS.vaux_mv : Fld := ⟨0x80000, 0, 15, 0, .ro, .val 0, .unstated⟩
def rowPwrInputs : RegRow :=
  ⟨0x80000, 0, 1, .function, [PWR_INPUTS.slot_12v_mv, PWR_INPUTS.aux_12v_mv, PWR_INPUTS.slot_3v3_mv, PWR_INPUTS.vaux_mv]⟩

-- PWR_RAILS, R323, Table 11-16
def PWR_RAILS.pg : Fld := ⟨0x80008, 0, 61, 48, .ro, .val 0, .unstated⟩
def PWR_RAILS.enabled : Fld := ⟨0x80008, 0, 45, 32, .ro, .val 0, .unstated⟩
def PWR_RAILS.image_table : Fld := ⟨0x80008, 0, 2, 2, .ro, .val 0, .unstated⟩
def PWR_RAILS.sequence : Fld := ⟨0x80008, 0, 1, 0, .ro, .val 0, .unstated⟩
def rowPwrRails : RegRow :=
  ⟨0x80008, 0, 1, .power, [PWR_RAILS.pg, PWR_RAILS.enabled, PWR_RAILS.image_table, PWR_RAILS.sequence]⟩

-- PWR_CARD, R323, Table 11-17
def PWR_CARD.charger_dw : Fld := ⟨0x80010, 0, 47, 32, .ro, .val 0, .unstated⟩
def PWR_CARD.aux_dw : Fld := ⟨0x80010, 0, 31, 16, .ro, .val 0, .unstated⟩
def PWR_CARD.slot_dw : Fld := ⟨0x80010, 0, 15, 0, .ro, .val 0, .unstated⟩
def rowPwrCard : RegRow :=
  ⟨0x80010, 0, 1, .function, [PWR_CARD.charger_dw, PWR_CARD.aux_dw, PWR_CARD.slot_dw]⟩

-- PWR_DOMAINS, R323, Table 11-18
def PWR_DOMAINS.gated : Fld := ⟨0x80018, 0, 29, 0, .ro, .val 0, .unstated⟩
def rowPwrDomains : RegRow :=
  ⟨0x80018, 0, 1, .function, [PWR_DOMAINS.gated]⟩

-- PWR_RAIL_CFG, R323, Table 11-19
def PWR_RAIL_CFG.on_delay : Fld := ⟨0x80100, 16, 63, 48, .ro, .keep, .unstated⟩
def PWR_RAIL_CFG.off_delay : Fld := ⟨0x80100, 16, 47, 32, .ro, .keep, .unstated⟩
def PWR_RAIL_CFG.pg_timeout : Fld := ⟨0x80100, 16, 31, 16, .ro, .keep, .unstated⟩
def rowPwrRailCfg : RegRow :=
  ⟨0x80100, 16, 14, .power, [PWR_RAIL_CFG.on_delay, PWR_RAIL_CFG.off_delay, PWR_RAIL_CFG.pg_timeout]⟩

-- PWR_RAIL_CNT, R323, Table 11-20
def PWR_RAIL_CNT.late_pg : Fld := ⟨0x80108, 16, 63, 48, .ro, .keep, .sat⟩
def PWR_RAIL_CNT.pg_lost : Fld := ⟨0x80108, 16, 47, 32, .ro, .keep, .sat⟩
def PWR_RAIL_CNT.timeouts : Fld := ⟨0x80108, 16, 31, 16, .ro, .keep, .sat⟩
def PWR_RAIL_CNT.reg_ot : Fld := ⟨0x80108, 16, 15, 0, .ro, .keep, .sat⟩
def rowPwrRailCnt : RegRow :=
  ⟨0x80108, 16, 14, .conventional, [PWR_RAIL_CNT.late_pg, PWR_RAIL_CNT.pg_lost, PWR_RAIL_CNT.timeouts, PWR_RAIL_CNT.reg_ot]⟩

-- PWR_PACE, R323, Table 11-21
def PWR_PACE.replica_mhz : Fld := ⟨0x80200, 8, 63, 48, .ro, .val 0, .unstated⟩
def PWR_PACE.temp : Fld := ⟨0x80200, 8, 47, 40, .ro, .val 0, .unstated⟩
def PWR_PACE.capped : Fld := ⟨0x80200, 8, 8, 8, .ro, .val 0, .unstated⟩
def PWR_PACE.pace_code : Fld := ⟨0x80200, 8, 5, 0, .ro, .val 0, .unstated⟩
def rowPwrPace : RegRow :=
  ⟨0x80200, 8, 9, .function, [PWR_PACE.replica_mhz, PWR_PACE.temp, PWR_PACE.capped, PWR_PACE.pace_code]⟩

-- THM_LEVELS, R324, Table 11-22
def THM_LEVELS.neighbour_rule : Fld := ⟨0x90000, 0, 20, 20, .ro, .val 0, .unstated⟩
def THM_LEVELS.media_throttle : Fld := ⟨0x90000, 0, 19, 18, .ro, .val 0, .unstated⟩
def THM_LEVELS.asic_throttle : Fld := ⟨0x90000, 0, 17, 16, .ro, .val 0, .unstated⟩
def THM_LEVELS.store : Fld := ⟨0x90000, 0, 15, 12, .ro, .val 0, .unstated⟩
def THM_LEVELS.gddr7 : Fld := ⟨0x90000, 0, 11, 8, .ro, .val 0, .unstated⟩
def THM_LEVELS.medium : Fld := ⟨0x90000, 0, 7, 4, .ro, .val 0, .unstated⟩
def THM_LEVELS.controller : Fld := ⟨0x90000, 0, 3, 0, .ro, .val 0, .unstated⟩
def rowThmLevels : RegRow :=
  ⟨0x90000, 0, 1, .function, [THM_LEVELS.neighbour_rule, THM_LEVELS.media_throttle, THM_LEVELS.asic_throttle, THM_LEVELS.store, THM_LEVELS.gddr7, THM_LEVELS.medium, THM_LEVELS.controller]⟩

-- THM_BROKEN, R324, Table 11-23
def THM_BROKEN.broken : Fld := ⟨0x90008, 0, 63, 0, .ro, .val 0, .unstated⟩
def rowThmBroken : RegRow :=
  ⟨0x90008, 0, 1, .conventional, [THM_BROKEN.broken]⟩

-- THM_FAST, R324, Table 11-24
def THM_FAST.fast : Fld := ⟨0x90010, 0, 63, 0, .ro, .val 0, .unstated⟩
def rowThmFast : RegRow :=
  ⟨0x90010, 0, 1, .function, [THM_FAST.fast]⟩

-- THM_STOP, R324, Table 11-25
def THM_STOP.sensor : Fld := ⟨0x90018, 0, 63, 56, .ro, .keep, .unstated⟩
def THM_STOP.temp : Fld := ⟨0x90018, 0, 55, 48, .ro, .keep, .unstated⟩
def THM_STOP.slope : Fld := ⟨0x90018, 0, 47, 32, .ro, .keep, .unstated⟩
def THM_STOP.t_left_ms : Fld := ⟨0x90018, 0, 31, 16, .ro, .keep, .unstated⟩
def THM_STOP.path : Fld := ⟨0x90018, 0, 15, 8, .ro, .keep, .unstated⟩
def THM_STOP.holds : Fld := ⟨0x90018, 0, 7, 0, .ro, .keep, .unstated⟩
def rowThmStop : RegRow :=
  ⟨0x90018, 0, 1, .conventional, [THM_STOP.sensor, THM_STOP.temp, THM_STOP.slope, THM_STOP.t_left_ms, THM_STOP.path, THM_STOP.holds]⟩

-- THM_AIR, R324, Table 11-26
def THM_AIR.outlet : Fld := ⟨0x90020, 0, 15, 8, .ro, .val 0, .unstated⟩
def THM_AIR.inlet : Fld := ⟨0x90020, 0, 7, 0, .ro, .val 0, .unstated⟩
def rowThmAir : RegRow :=
  ⟨0x90020, 0, 1, .function, [THM_AIR.outlet, THM_AIR.inlet]⟩

-- THM_LIMITS, R324, Table 11-27
def THM_LIMITS.hysteresis : Fld := ⟨0x90040, 8, 47, 40, .ro, .keep, .unstated⟩
def THM_LIMITS.absolute : Fld := ⟨0x90040, 8, 39, 32, .ro, .keep, .unstated⟩
def THM_LIMITS.shutdown : Fld := ⟨0x90040, 8, 31, 24, .ro, .keep, .unstated⟩
def THM_LIMITS.throttle2 : Fld := ⟨0x90040, 8, 23, 16, .ro, .keep, .unstated⟩
def THM_LIMITS.throttle1 : Fld := ⟨0x90040, 8, 15, 8, .ro, .keep, .unstated⟩
def THM_LIMITS.warning : Fld := ⟨0x90040, 8, 7, 0, .ro, .keep, .unstated⟩
def rowThmLimits : RegRow :=
  ⟨0x90040, 8, 4, .conventional, [THM_LIMITS.hysteresis, THM_LIMITS.absolute, THM_LIMITS.shutdown, THM_LIMITS.throttle2, THM_LIMITS.throttle1, THM_LIMITS.warning]⟩

-- THM_SENSOR, R324, Table 11-28
def THM_SENSOR.neighbours : Fld := ⟨0x90100, 8, 63, 32, .ro, .keep, .unstated⟩
def THM_SENSOR.used : Fld := ⟨0x90100, 8, 23, 16, .ro, .val 0, .unstated⟩
def THM_SENSOR.reading : Fld := ⟨0x90100, 8, 15, 8, .ro, .val 0, .unstated⟩
def THM_SENSOR.absent : Fld := ⟨0x90100, 8, 3, 3, .ro, .keep, .unstated⟩
def THM_SENSOR.deviating : Fld := ⟨0x90100, 8, 2, 2, .ro, .val 0, .unstated⟩
def THM_SENSOR.broken : Fld := ⟨0x90100, 8, 1, 1, .ro, .val 0, .unstated⟩
def THM_SENSOR.fast : Fld := ⟨0x90100, 8, 0, 0, .ro, .val 0, .unstated⟩
def rowThmSensor : RegRow :=
  ⟨0x90100, 8, 64, .function, [THM_SENSOR.neighbours, THM_SENSOR.used, THM_SENSOR.reading, THM_SENSOR.absent, THM_SENSOR.deviating, THM_SENSOR.broken, THM_SENSOR.fast]⟩

-- BOOT_STATUS, R351, Table 12-18
def BOOT_STATUS.attempt : Fld := ⟨0xA0000, 0, 63, 32, .ro, .keep, .unstated⟩
def BOOT_STATUS.step : Fld := ⟨0xA0000, 0, 31, 24, .ro, .val 0, .unstated⟩
def BOOT_STATUS.cause : Fld := ⟨0xA0000, 0, 23, 22, .ro, .keep, .unstated⟩
def BOOT_STATUS.cfg_source : Fld := ⟨0xA0000, 0, 21, 20, .ro, .keep, .unstated⟩
def BOOT_STATUS.fw_slot : Fld := ⟨0xA0000, 0, 19, 19, .ro, .keep, .unstated⟩
def BOOT_STATUS.hold : Fld := ⟨0xA0000, 0, 3, 3, .ro, .val 0, .unstated⟩
def BOOT_STATUS.migrated : Fld := ⟨0xA0000, 0, 2, 2, .ro, .val 0, .unstated⟩
def BOOT_STATUS.alternates : Fld := ⟨0xA0000, 0, 1, 1, .ro, .val 0, .unstated⟩
def BOOT_STATUS.complete : Fld := ⟨0xA0000, 0, 0, 0, .ro, .val 0, .unstated⟩
def rowBootStatus : RegRow :=
  ⟨0xA0000, 0, 1, .conventional, [BOOT_STATUS.attempt, BOOT_STATUS.step, BOOT_STATUS.cause, BOOT_STATUS.cfg_source, BOOT_STATUS.fw_slot, BOOT_STATUS.hold, BOOT_STATUS.migrated, BOOT_STATUS.alternates, BOOT_STATUS.complete]⟩

-- BOOT_METHODS, R351, Table 12-19
def BOOT_METHODS.methods : Fld := ⟨0xA0008, 0, 25, 0, .ro, .val 0, .unstated⟩
def rowBootMethods : RegRow :=
  ⟨0xA0008, 0, 1, .conventional, [BOOT_METHODS.methods]⟩

-- BOOT_TIME, R351, Table 12-20
def BOOT_TIME.active_ms : Fld := ⟨0xA0010, 0, 63, 48, .ro, .val 0, .unstated⟩
def BOOT_TIME.longest_ms : Fld := ⟨0xA0010, 0, 47, 32, .ro, .val 0, .unstated⟩
def BOOT_TIME.longest_step : Fld := ⟨0xA0010, 0, 31, 24, .ro, .val 0, .unstated⟩
def rowBootTime : RegRow :=
  ⟨0xA0010, 0, 1, .conventional, [BOOT_TIME.active_ms, BOOT_TIME.longest_ms, BOOT_TIME.longest_step]⟩

-- BOOT_FW, R351, Table 12-21
def BOOT_FW.other_version : Fld := ⟨0xA0018, 0, 63, 32, .ro, .keep, .unstated⟩
def BOOT_FW.other_rollback : Fld := ⟨0xA0018, 0, 31, 16, .ro, .keep, .unstated⟩
def BOOT_FW.other_state : Fld := ⟨0xA0018, 0, 15, 8, .ro, .keep, .unstated⟩
def BOOT_FW.fw_good : Fld := ⟨0xA0018, 0, 2, 2, .ro, .keep, .unstated⟩
def BOOT_FW.pending : Fld := ⟨0xA0018, 0, 1, 1, .ro, .keep, .unstated⟩
def BOOT_FW.fw_next : Fld := ⟨0xA0018, 0, 0, 0, .ro, .keep, .unstated⟩
def rowBootFw : RegRow :=
  ⟨0xA0018, 0, 1, .conventional, [BOOT_FW.other_version, BOOT_FW.other_rollback, BOOT_FW.other_state, BOOT_FW.fw_good, BOOT_FW.pending, BOOT_FW.fw_next]⟩

-- BOOT_CFG, R351, Table 12-22
def BOOT_CFG.sequence : Fld := ⟨0xA0020, 0, 63, 32, .ro, .keep, .unstated⟩
def BOOT_CFG.other_state : Fld := ⟨0xA0020, 0, 15, 8, .ro, .keep, .unstated⟩
def BOOT_CFG.stored_format : Fld := ⟨0xA0020, 0, 7, 4, .ro, .keep, .unstated⟩
def BOOT_CFG.key_enrolled : Fld := ⟨0xA0020, 0, 1, 1, .ro, .keep, .unstated⟩
def BOOT_CFG.cfg_next : Fld := ⟨0xA0020, 0, 0, 0, .ro, .keep, .unstated⟩
def rowBootCfg : RegRow :=
  ⟨0xA0020, 0, 1, .conventional, [BOOT_CFG.sequence, BOOT_CFG.other_state, BOOT_CFG.stored_format, BOOT_CFG.key_enrolled, BOOT_CFG.cfg_next]⟩

-- BOOT_RESETS, R351, Table 12-23
def BOOT_RESETS.hot : Fld := ⟨0xA0028, 0, 63, 48, .ro, .val 0, .sat⟩
def BOOT_RESETS.cxl : Fld := ⟨0xA0028, 0, 47, 32, .ro, .val 0, .sat⟩
def BOOT_RESETS.management : Fld := ⟨0xA0028, 0, 31, 16, .ro, .val 0, .sat⟩
def BOOT_RESETS.watchdog : Fld := ⟨0xA0028, 0, 15, 0, .ro, .val 0, .sat⟩
def rowBootResets : RegRow :=
  ⟨0xA0028, 0, 1, .power, [BOOT_RESETS.hot, BOOT_RESETS.cxl, BOOT_RESETS.management, BOOT_RESETS.watchdog]⟩

-- TLY_STATUS, R384, Table 13-15
def TLY_STATUS.spare_rows : Fld := ⟨0xB0000, 0, 63, 48, .ro, .keep, .unstated⟩
def TLY_STATUS.deferrals : Fld := ⟨0xB0000, 0, 47, 32, .rc, .val 0, .unstated⟩
def TLY_STATUS.hours_since_lap : Fld := ⟨0xB0000, 0, 31, 16, .ro, .keep, .unstated⟩
def TLY_STATUS.locked_out : Fld := ⟨0xB0000, 0, 2, 2, .ro, .val 0, .unstated⟩
def TLY_STATUS.deferred : Fld := ⟨0xB0000, 0, 1, 1, .ro, .val 0, .unstated⟩
def TLY_STATUS.busy : Fld := ⟨0xB0000, 0, 0, 0, .ro, .val 0, .unstated⟩
def rowTlyStatus : RegRow :=
  ⟨0xB0000, 0, 1, .conventional, [TLY_STATUS.spare_rows, TLY_STATUS.deferrals, TLY_STATUS.hours_since_lap, TLY_STATUS.locked_out, TLY_STATUS.deferred, TLY_STATUS.busy]⟩

-- TLY_LIFETIME, R384, Table 13-16
def TLY_LIFETIME.power_cycles : Fld := ⟨0xB0008, 0, 63, 32, .ro, .keep, .unstated⟩
def TLY_LIFETIME.power_on_s : Fld := ⟨0xB0008, 0, 31, 0, .ro, .keep, .unstated⟩
def rowTlyLifetime : RegRow :=
  ⟨0xB0008, 0, 1, .conventional, [TLY_LIFETIME.power_cycles, TLY_LIFETIME.power_on_s]⟩

-- TLY_BYTES_RD, R384, Table 13-16
def TLY_BYTES_RD.bytes : Fld := ⟨0xB0010, 0, 63, 0, .ro, .keep, .unstated⟩
def rowTlyBytesRd : RegRow :=
  ⟨0xB0010, 0, 1, .conventional, [TLY_BYTES_RD.bytes]⟩

-- TLY_BYTES_WR, R384, Table 13-16
def TLY_BYTES_WR.bytes : Fld := ⟨0xB0018, 0, 63, 0, .ro, .keep, .unstated⟩
def rowTlyBytesWr : RegRow :=
  ⟨0xB0018, 0, 1, .conventional, [TLY_BYTES_WR.bytes]⟩

-- TLY_HEALTH, R384, Table 13-17
def TLY_HEALTH.flags : Fld := ⟨0xB0020, 0, 23, 0, .ro, .keep, .unstated⟩
def rowTlyHealth : RegRow :=
  ⟨0xB0020, 0, 1, .function, [TLY_HEALTH.flags]⟩

-- REC_CTRL, R384, Table 13-18
def REC_CTRL.frozen_by_trigger : Fld := ⟨0xB0100, 0, 1, 1, .ro, .val 0, .unstated⟩
def REC_CTRL.freeze : Fld := ⟨0xB0100, 0, 0, 0, .rw, .val 0, .unstated⟩
def rowRecCtrl : RegRow :=
  ⟨0xB0100, 0, 1, .function, [REC_CTRL.frozen_by_trigger, REC_CTRL.freeze]⟩

-- REC_STATUS, R384, Table 13-18
def REC_STATUS.next_seq : Fld := ⟨0xB0108, 0, 63, 32, .ro, .keep, .unstated⟩
def REC_STATUS.stored : Fld := ⟨0xB0108, 0, 31, 19, .ro, .keep, .unstated⟩
def REC_STATUS.staged : Fld := ⟨0xB0108, 0, 18, 12, .ro, .val 0, .unstated⟩
def REC_STATUS.full : Fld := ⟨0xB0108, 0, 11, 11, .ro, .keep, .unstated⟩
def rowRecStatus : RegRow :=
  ⟨0xB0108, 0, 1, .conventional, [REC_STATUS.next_seq, REC_STATUS.stored, REC_STATUS.staged, REC_STATUS.full]⟩

-- REC_LOST, R384, Table 13-18
def REC_LOST.not_recorded_full : Fld := ⟨0xB0110, 0, 63, 32, .rc, .val 0, .unstated⟩
def REC_LOST.not_recorded_frozen : Fld := ⟨0xB0110, 0, 31, 16, .rc, .val 0, .unstated⟩
def REC_LOST.staging_overflow : Fld := ⟨0xB0110, 0, 15, 0, .rc, .val 0, .unstated⟩
def rowRecLost : RegRow :=
  ⟨0xB0110, 0, 1, .conventional, [REC_LOST.not_recorded_full, REC_LOST.not_recorded_frozen, REC_LOST.staging_overflow]⟩

-- REC_BASE, R384, Table 13-18
def REC_BASE.base : Fld := ⟨0xB0118, 0, 31, 0, .ro, .keep, .unstated⟩
def rowRecBase : RegRow :=
  ⟨0xB0118, 0, 1, .conventional, [REC_BASE.base]⟩

-- PMU_CTRL, R385, Table 13-19
def PMU_CTRL.freeze : Fld := ⟨0xC0000, 0, 1, 1, .rw, .val 0, .unstated⟩
def PMU_CTRL.enable : Fld := ⟨0xC0000, 0, 0, 0, .rw, .val 0, .unstated⟩
def rowPmuCtrl : RegRow :=
  ⟨0xC0000, 0, 1, .function, [PMU_CTRL.freeze, PMU_CTRL.enable]⟩

-- PMU_OVF, R385, Table 13-19
def PMU_OVF.overflow : Fld := ⟨0xC0008, 0, 63, 0, .w1c, .val 0, .unstated⟩
def rowPmuOvf : RegRow :=
  ⟨0xC0008, 0, 1, .function, [PMU_OVF.overflow]⟩

-- PMU_WINDOW, R385, Table 13-19
def PMU_WINDOW.window_us : Fld := ⟨0xC0010, 0, 19, 0, .rw, .val 1000, .unstated⟩
def rowPmuWindow : RegRow :=
  ⟨0xC0010, 0, 1, .function, [PMU_WINDOW.window_us]⟩

-- PMU_RANGE_BASE, R385, Table 13-19
def PMU_RANGE_BASE.dpa : Fld := ⟨0xC0040, 16, 42, 6, .rw, .val 0, .unstated⟩
def rowPmuRangeBase : RegRow :=
  ⟨0xC0040, 16, 4, .function, [PMU_RANGE_BASE.dpa]⟩

-- PMU_RANGE_LIMIT, R385, Table 13-19
def PMU_RANGE_LIMIT.dpa : Fld := ⟨0xC0048, 16, 42, 6, .rw, .val 0, .unstated⟩
def rowPmuRangeLimit : RegRow :=
  ⟨0xC0048, 16, 4, .function, [PMU_RANGE_LIMIT.dpa]⟩

-- PMU_CFG, R385, Table 13-19
def PMU_CFG.ld_filter : Fld := ⟨0xC0100, 8, 44, 44, .rw, .val 0, .unstated⟩
def PMU_CFG.ld : Fld := ⟨0xC0100, 8, 43, 40, .rw, .val 0, .unstated⟩
def PMU_CFG.class_mask : Fld := ⟨0xC0100, 8, 39, 26, .rw, .val 0, .unstated⟩
def PMU_CFG.agent : Fld := ⟨0xC0100, 8, 25, 24, .rw, .val 0, .unstated⟩
def PMU_CFG.cfg_error : Fld := ⟨0xC0100, 8, 23, 23, .ro, .val 0, .unstated⟩
def PMU_CFG.range : Fld := ⟨0xC0100, 8, 22, 20, .rw, .val 0, .unstated⟩
def PMU_CFG.ovf_irq : Fld := ⟨0xC0100, 8, 19, 19, .rw, .val 0, .unstated⟩
def PMU_CFG.enable : Fld := ⟨0xC0100, 8, 18, 18, .rw, .val 0, .unstated⟩
def PMU_CFG.tp2_mode : Fld := ⟨0xC0100, 8, 17, 17, .rw, .val 0, .unstated⟩
def PMU_CFG.level : Fld := ⟨0xC0100, 8, 16, 16, .rw, .val 0, .unstated⟩
def PMU_CFG.select : Fld := ⟨0xC0100, 8, 15, 0, .rw, .val 0, .unstated⟩
def rowPmuCfg : RegRow :=
  ⟨0xC0100, 8, 64, .function, [PMU_CFG.ld_filter, PMU_CFG.ld, PMU_CFG.class_mask, PMU_CFG.agent, PMU_CFG.cfg_error, PMU_CFG.range, PMU_CFG.ovf_irq, PMU_CFG.enable, PMU_CFG.tp2_mode, PMU_CFG.level, PMU_CFG.select]⟩

-- PMU_CNT, R385, Table 13-19
def PMU_CNT.count : Fld := ⟨0xC0400, 8, 47, 0, .rw, .val 0, .wrap⟩
def rowPmuCnt : RegRow :=
  ⟨0xC0400, 8, 64, .function, [PMU_CNT.count]⟩

-- PMU_PORT, R385, Table 13-19
def PMU_PORT.out_mbps : Fld := ⟨0xC0800, 8, 63, 32, .ro, .val 0, .unstated⟩
def PMU_PORT.in_mbps : Fld := ⟨0xC0800, 8, 31, 0, .ro, .val 0, .unstated⟩
def rowPmuPort : RegRow :=
  ⟨0xC0800, 8, 22, .function, [PMU_PORT.out_mbps, PMU_PORT.in_mbps]⟩

-- TQ_CFG, R386, Table 13-20
def TQ_CFG.writes : Fld := ⟨0xD0000, 0, 41, 41, .rw, .val 0, .unstated⟩
def TQ_CFG.reads : Fld := ⟨0xD0000, 0, 40, 40, .rw, .val 0, .unstated⟩
def TQ_CFG.class_mask : Fld := ⟨0xD0000, 0, 39, 32, .rw, .val 0, .unstated⟩
def TQ_CFG.interval : Fld := ⟨0xD0000, 0, 23, 0, .rw, .val 0, .unstated⟩
def rowTqCfg : RegRow :=
  ⟨0xD0000, 0, 1, .function, [TQ_CFG.writes, TQ_CFG.reads, TQ_CFG.class_mask, TQ_CFG.interval]⟩

-- TQ_HEAD, R386, Table 13-20
def TQ_HEAD.next_seq : Fld := ⟨0xD0008, 0, 63, 32, .ro, .val 0, .unstated⟩
def TQ_HEAD.head : Fld := ⟨0xD0008, 0, 19, 0, .ro, .val 0, .unstated⟩
def rowTqHead : RegRow :=
  ⟨0xD0008, 0, 1, .function, [TQ_HEAD.next_seq, TQ_HEAD.head]⟩

-- TQ_TAIL, R386, Table 13-20
def TQ_TAIL.tail : Fld := ⟨0xD0010, 0, 19, 0, .rw, .val 0, .unstated⟩
def rowTqTail : RegRow :=
  ⟨0xD0010, 0, 1, .function, [TQ_TAIL.tail]⟩

-- TQ_TIMEOUT, R386, Table 13-20
def TQ_TIMEOUT.timeout_us : Fld := ⟨0xD0018, 0, 13, 0, .rw, .keep, .unstated⟩
def rowTqTimeout : RegRow :=
  ⟨0xD0018, 0, 1, .function, [TQ_TIMEOUT.timeout_us]⟩

-- TQ_FLUSH, R386, Table 13-20
def TQ_FLUSH.flush : Fld := ⟨0xD0020, 0, 0, 0, .wo, .val 0, .unstated⟩
def rowTqFlush : RegRow :=
  ⟨0xD0020, 0, 1, .function, [TQ_FLUSH.flush]⟩

-- TQ_STATUS, R386, Table 13-20
def TQ_STATUS.dropped : Fld := ⟨0xD0028, 0, 63, 32, .rc, .val 0, .unstated⟩
def TQ_STATUS.remainders : Fld := ⟨0xD0028, 0, 31, 16, .rc, .val 0, .unstated⟩
def TQ_STATUS.open_bytes : Fld := ⟨0xD0028, 0, 15, 8, .ro, .val 0, .unstated⟩
def rowTqStatus : RegRow :=
  ⟨0xD0028, 0, 1, .function, [TQ_STATUS.dropped, TQ_STATUS.remainders, TQ_STATUS.open_bytes]⟩

-- TQ_CHQ, R386, Table 13-20
def TQ_CHQ.depth : Fld := ⟨0xD0100, 8, 63, 0, .ro, .val 0, .unstated⟩
def rowTqChq : RegRow :=
  ⟨0xD0100, 8, 4, .function, [TQ_CHQ.depth]⟩

-- TQ_INGRESS, R386, Table 13-20
def TQ_INGRESS.rwd_held : Fld := ⟨0xD0120, 0, 26, 16, .ro, .val 0, .unstated⟩
def TQ_INGRESS.req_held : Fld := ⟨0xD0120, 0, 10, 0, .ro, .val 0, .unstated⟩
def rowTqIngress : RegRow :=
  ⟨0xD0120, 0, 1, .function, [TQ_INGRESS.rwd_held, TQ_INGRESS.req_held]⟩

-- ECC_FABRIC, R387, Table 13-21
def ECC_FABRIC.corrected : Fld := ⟨0xE0000, 0, 63, 32, .rc, .val 0, .unstated⟩
def ECC_FABRIC.double : Fld := ⟨0xE0000, 0, 31, 16, .rc, .val 0, .unstated⟩
def ECC_FABRIC.stalls : Fld := ⟨0xE0000, 0, 15, 0, .rc, .val 0, .unstated⟩
def rowEccFabric : RegRow :=
  ⟨0xE0000, 0, 1, .conventional, [ECC_FABRIC.corrected, ECC_FABRIC.double, ECC_FABRIC.stalls]⟩

-- ECC_LINK, R387, Table 13-21
def ECC_LINK.crc : Fld := ⟨0xE0008, 0, 63, 32, .rc, .val 0, .unstated⟩
def ECC_LINK.replays : Fld := ⟨0xE0008, 0, 31, 16, .rc, .val 0, .unstated⟩
def ECC_LINK.receiver : Fld := ⟨0xE0008, 0, 15, 0, .rc, .val 0, .unstated⟩
def rowEccLink : RegRow :=
  ⟨0xE0008, 0, 1, .conventional, [ECC_LINK.crc, ECC_LINK.replays, ECC_LINK.receiver]⟩

-- ECC_TOTALS, R387, Table 13-21
def ECC_TOTALS.corrected_volatile : Fld := ⟨0xE0018, 0, 63, 32, .ro, .val 0, .sat⟩
def ECC_TOTALS.corrected_persistent : Fld := ⟨0xE0018, 0, 31, 0, .ro, .val 0, .sat⟩
def rowEccTotals : RegRow :=
  ⟨0xE0018, 0, 1, .power, [ECC_TOTALS.corrected_volatile, ECC_TOTALS.corrected_persistent]⟩

-- ECC_FLIP_CTRL, R387, Table 13-21
def ECC_FLIP_CTRL.count : Fld := ⟨0xE0100, 0, 34, 28, .rw, .val 0, .unstated⟩
def ECC_FLIP_CTRL.offset : Fld := ⟨0xE0100, 0, 27, 16, .rw, .val 0, .unstated⟩
def ECC_FLIP_CTRL.partition : Fld := ⟨0xE0100, 0, 15, 12, .rw, .val 0, .unstated⟩
def ECC_FLIP_CTRL.arm : Fld := ⟨0xE0100, 0, 8, 8, .w1s, .val 0, .unstated⟩
def ECC_FLIP_CTRL.match_dpa : Fld := ⟨0xE0100, 0, 3, 3, .rw, .val 0, .unstated⟩
def ECC_FLIP_CTRL.target : Fld := ⟨0xE0100, 0, 2, 0, .rw, .val 0, .unstated⟩
def rowEccFlipCtrl : RegRow :=
  ⟨0xE0100, 0, 1, .function, [ECC_FLIP_CTRL.count, ECC_FLIP_CTRL.offset, ECC_FLIP_CTRL.partition, ECC_FLIP_CTRL.arm, ECC_FLIP_CTRL.match_dpa, ECC_FLIP_CTRL.target]⟩

-- ECC_FLIP_MASK_LO, R387, Table 13-21
def ECC_FLIP_MASK_LO.mask_lo : Fld := ⟨0xE0108, 0, 63, 0, .rw, .val 0, .unstated⟩
def rowEccFlipMaskLo : RegRow :=
  ⟨0xE0108, 0, 1, .function, [ECC_FLIP_MASK_LO.mask_lo]⟩

-- ECC_FLIP_MASK_HI, R387, Table 13-21
def ECC_FLIP_MASK_HI.mask_hi : Fld := ⟨0xE0110, 0, 7, 0, .rw, .val 0, .unstated⟩
def rowEccFlipMaskHi : RegRow :=
  ⟨0xE0110, 0, 1, .function, [ECC_FLIP_MASK_HI.mask_hi]⟩

-- ECC_FLIP_DPA, R387, Table 13-21
def ECC_FLIP_DPA.dpa : Fld := ⟨0xE0118, 0, 42, 6, .rw, .val 0, .unstated⟩
def rowEccFlipDpa : RegRow :=
  ⟨0xE0118, 0, 1, .function, [ECC_FLIP_DPA.dpa]⟩

-- ECC_FLIP_LAST, R387, Table 13-21
def ECC_FLIP_LAST.target : Fld := ⟨0xE0120, 0, 63, 61, .ro, .val 0, .unstated⟩
def ECC_FLIP_LAST.valid : Fld := ⟨0xE0120, 0, 60, 60, .ro, .val 0, .unstated⟩
def ECC_FLIP_LAST.partition : Fld := ⟨0xE0120, 0, 59, 56, .ro, .val 0, .unstated⟩
def ECC_FLIP_LAST.row : Fld := ⟨0xE0120, 0, 55, 44, .ro, .val 0, .unstated⟩
def ECC_FLIP_LAST.dpa : Fld := ⟨0xE0120, 0, 42, 6, .ro, .val 0, .unstated⟩
def rowEccFlipLast : RegRow :=
  ⟨0xE0120, 0, 1, .conventional, [ECC_FLIP_LAST.target, ECC_FLIP_LAST.valid, ECC_FLIP_LAST.partition, ECC_FLIP_LAST.row, ECC_FLIP_LAST.dpa]⟩

-- EVT_VEC_MASK, R388, Table 13-22
def EVT_VEC_MASK.mask : Fld := ⟨0xF0000, 0, 31, 5, .rw, .val 0, .unstated⟩
def rowEvtVecMask : RegRow :=
  ⟨0xF0000, 0, 1, .function, [EVT_VEC_MASK.mask]⟩

-- EVT_STATUS, R388, Table 13-22
def EVT_STATUS.masked : Fld := ⟨0xF0008, 0, 63, 32, .rc, .val 0, .unstated⟩
def EVT_STATUS.last_source : Fld := ⟨0xF0008, 0, 26, 16, .ro, .val 0, .unstated⟩
def EVT_STATUS.log_full : Fld := ⟨0xF0008, 0, 15, 0, .rc, .val 0, .unstated⟩
def rowEvtStatus : RegRow :=
  ⟨0xF0008, 0, 1, .conventional, [EVT_STATUS.masked, EVT_STATUS.last_source, EVT_STATUS.log_full]⟩

-- EVT_PENDING, R388, Table 13-22
def EVT_PENDING.pending : Fld := ⟨0xF0010, 0, 31, 5, .ro, .val 0, .unstated⟩
def rowEvtPending : RegRow :=
  ⟨0xF0010, 0, 1, .function, [EVT_PENDING.pending]⟩

-- EVT_SRC_MASK, R388, Table 13-22
def EVT_SRC_MASK.mask : Fld := ⟨0xF0100, 8, 63, 0, .rw, .val 0, .unstated⟩
def rowEvtSrcMask : RegRow :=
  ⟨0xF0100, 8, 24, .function, [EVT_SRC_MASK.mask]⟩

-- PWR_BRAKE, R392, Table 14-5
def PWR_BRAKE.assertions : Fld := ⟨0x80020, 0, 63, 32, .rc, .val 0, .unstated⟩
def PWR_BRAKE.last_ms : Fld := ⟨0x80020, 0, 31, 16, .ro, .val 0, .sat⟩
def PWR_BRAKE.active : Fld := ⟨0x80020, 0, 0, 0, .ro, .val 0, .unstated⟩
def rowPwrBrake : RegRow :=
  ⟨0x80020, 0, 1, .function, [PWR_BRAKE.assertions, PWR_BRAKE.last_ms, PWR_BRAKE.active]⟩

/-- Registers of the OBS map, part 1. -/
def regTable1 : List RegRow :=
  [rowIdProduct, rowIdFirmware, rowIdLink, rowIdSerial, rowQosEnvelope, rowQosEnvCause, rowQosSuspend,
   rowQosTracker, rowQosLinkHold, rowQosClassCfg, rowQosClassGuar, rowQosClassStage, rowQosClassState,
   rowQosClassRdbytes, rowQosClassWrbytes, rowQosClassWinbw, rowQosClassMissed, rowQosIclassState,
   rowQosIclassBytes, rowCchNearCfg, rowCchNearState, rowCchNearHits, rowCchNearMisses, rowCchBoardHits,
   rowCchBoardMisses, rowCchNearParity, rowCchBoardCfg, rowCchBoardState, rowCchBoardOffer, rowCchBoardEcc,
   rowCchCtrEcc, rowCchLastUnc, rowCchGddrId, rowCchGddrErr, rowMedGeometry, rowMedState, rowMedRecon,
   rowMedAllow, rowMedSuspend, rowMedRebuild]

/-- Registers of the OBS map, part 2. -/
def regTable2 : List RegRow :=
  [rowMedGate, rowMedFroDrops, rowMedDieState, rowMedDieErr, rowMedDieReads, rowMapCfg, rowMapFill,
   rowMapFreeLo, rowMapFreeHi, rowMapReclaim, rowMapCopied, rowMapPromote, rowMapDemote, rowMapJournal,
   rowMapCkpt, rowMapWear, rowMapSpare, rowMapCache, rowMapDiscard, rowCalCalendar, rowCalSync,
   rowCalUnpowered, rowCalScrubCfg, rowCalScrub, rowCalDecode, rowCalMargin, rowCalMigrate, rowCalPoison,
   rowCalDieAge, rowCalDieState, rowCalDieRef, rowKeySlots, rowKeySweep, rowKeyBoundary, rowKeyMac,
   rowKeyLastFail, rowKeyTree, rowKeyTop, rowKeyNodeCache, rowKeyOverflow]

/-- Registers of the OBS map, part 3. -/
def regTable3 : List RegRow :=
  [rowKeyHold, rowKeySlotState, rowPflState, rowPflBudget, rowPflStore, rowPflStoreNow, rowPflTest,
   rowPflSlotA, rowPflSlotB, rowPflLastDump, rowPflCounts, rowPflWt, rowPflSuspect, rowRingCfg,
   rowRingStatus, rowRingEpoch, rowRingDoorbell, rowRingClose, rowRingFlush, rowRingErr, rowRingShadow,
   rowRingHold, rowRingMemberSerial, rowRingMemberState, rowPwrInputs, rowPwrRails, rowPwrCard,
   rowPwrDomains, rowPwrRailCfg, rowPwrRailCnt, rowPwrPace, rowThmLevels, rowThmBroken, rowThmFast,
   rowThmStop, rowThmAir, rowThmLimits, rowThmSensor, rowBootStatus, rowBootMethods]

/-- Registers of the OBS map, part 4. -/
def regTable4 : List RegRow :=
  [rowBootTime, rowBootFw, rowBootCfg, rowBootResets, rowTlyStatus, rowTlyLifetime, rowTlyBytesRd,
   rowTlyBytesWr, rowTlyHealth, rowRecCtrl, rowRecStatus, rowRecLost, rowRecBase, rowPmuCtrl, rowPmuOvf,
   rowPmuWindow, rowPmuRangeBase, rowPmuRangeLimit, rowPmuCfg, rowPmuCnt, rowPmuPort, rowTqCfg, rowTqHead,
   rowTqTail, rowTqTimeout, rowTqFlush, rowTqStatus, rowTqChq, rowTqIngress, rowEccFabric, rowEccLink,
   rowEccTotals, rowEccFlipCtrl, rowEccFlipMaskLo, rowEccFlipMaskHi, rowEccFlipDpa, rowEccFlipLast,
   rowEvtVecMask, rowEvtStatus, rowEvtPending]

/-- Registers of the OBS map, part 5. -/
def regTable5 : List RegRow :=
  [rowEvtSrcMask, rowPwrBrake]

/-- Every OBS register of the manual (02 R40, Table 2-7). -/
def regTable : List RegRow := regTable1 ++ regTable2 ++ regTable3 ++ regTable4 ++ regTable5

end Sys2Proof.Machine
end

