-- ==== Sys2Proof/Machine/State.lean ====
section
/-! DEFINITION. The state of one Torotte TP6 card, subsystem by subsystem, as plain data; the faults and refusals; the
state after reset. A register field that only the OBS registers hold (a counter, a control, a "last" value) lives in
`State.obs`; a register field that mirrors state held elsewhere is computed when it is read (Machine/Live.lean). -/

namespace Sys2Proof.Machine

/-- Why a step can stop. `noSuchUnit` is raised by a meaning whose operand names a die position that is not fitted on the
part (00_scope R2: it does not exist there); safe, because nothing can happen on such a position. -/
inductive Fault where
  | noSuchUnit
deriving DecidableEq, Repr

/-- Why a command is refused. `notModelled` would name a command that has no meaning yet (an arm of exec only); safe. -/
inductive Refusal where
  | notModelled (mnemonic : String)
deriving DecidableEq, Repr

/-! ## Outputs -/

/-- Mailbox return codes (those of CXL 3.1 that the manual names: 02 R44). -/
inductive Rc where
  | success | backgroundStarted | invalidInput | unsupported | retryRequired | busy | mediaDisabled
  | fwTransferInProgress | fwTransferOutOfOrder | fwVerificationFailed | invalidSlot | incorrectPassphrase
  | resourcesExhausted | injectPoisonLimit | aborted | invalidHandle | invalidPhysicalAddress
deriving DecidableEq, Repr, Inhabited

/-- Where a line was found, and so at which latency it is served (04 Table 4-2, 00_scope Table 0-4). -/
inductive Src where
  | near | evict | board | writeback | overlay | zeros | one | four | recon | soft | none
deriving DecidableEq, Repr, Inhabited

/-- Ring frame types (10 Table 10-2). -/
inductive FrameType where
  | discover | heartbeat | flush | prepare | commit | rollback | state | reserved (n : Nat)
deriving DecidableEq, Repr, Inhabited

/-- A frame on the ring (10 R273): head, type, payload bytes 6 to 11 (or 6 to 13) and mask bytes 12 and 13. -/
structure Frame where
  head : FrameHead
  type : FrameType
  payload : Nat
  mask : Nat
deriving DecidableEq, Repr, Inhabited

/-- The DevLoad field of an S2M response (CXL 3.1's four values). -/
inductive DevLoad where
  | lightLoad | optimalLoad | moderateOverload | severeOverload
deriving DecidableEq, Repr, Inhabited

/-- The severity that AER reports: an uncorrectable error is non-fatal or fatal as the severity register says (02 R54). -/
inductive AerSev where
  | correctable | nonFatal | fatal
deriving DecidableEq, Repr, Inhabited

/-- What the card gives the outside world, newest last in `State.sent`. -/
inductive Out where
  /-- The response of a read: data, poison, source (03 R59), and its DevLoad field (03 R82). -/
  | readData (id : Nat) (data : Line) (poison : Bool) (src : Src) (latency : Nat) (load : DevLoad)
  /-- The completion of a write; `stored` is false where a rule discards it by design (09 R235); `poison` is set where it
  completes with poison (01 Table 1-10); with its DevLoad field. -/
  | writeDone (id : Nat) (stored : Bool) (poison : Bool) (load : DevLoad)
  /-- The reply of a mailbox command. -/
  | reply (path : Path) (opcode : Nat) (rc : Rc) (out : Bytes)
  /-- The end of a background command (02 R43): vector 4 and its return code. -/
  | backgroundDone (opcode : Nat) (rc : Rc)
  /-- An MSI-X message. -/
  | msix (vector : Nat)
  /-- An AER report: correctable, or uncorrectable internal, with the RAS header log's region and cause (02 R54). -/
  | aer (sev : AerSev) (region : Nat) (cause : Nat)
  /-- A bit set in the CXL RAS capability (02 Table 2-21): 0 CRC threshold, 1 Mem Poison Received, 2 CXL IDE Rx Error,
  3 Internal Error, 4 retry threshold. -/
  | ras (bit : Nat)
  /-- A register or aperture read. -/
  | obsData (offset : Nat) (value : Word64)
  | apertureData (offset : Nat) (value : Word64) (poison : Bool)
  /-- A frame sent on J_RING_OUT. -/
  | frame (f : Frame)
  /-- An answer on SMBus, DOE or SPDM. -/
  | answer (kind : Nat) (data : Bytes)
  /-- The link trained, went down, or took a power state. -/
  | link (up : Bool)
deriving DecidableEq, Repr, Inhabited

/-! ## Fabric (01) -/

/-- A region restart in progress (01 R15, R17). -/
structure Restart where
  region : Nat
  dumpWaits : Bool
  t0 : Nat
deriving DecidableEq, Repr, Inhabited

/-- Error escalation of one block (01 R12): the step reached, when its last reset began and when it ended. -/
structure BlockEsc where
  step : Nat
  began : Nat
  resetEnd : Option Nat
deriving DecidableEq, Repr, Inhabited

structure Fabric where
  /-- Restarts in progress; those of neighbours run one after the other (01 Table 1-6). -/
  restarts : List Restart
  /-- Regions whose restart waits for the one in progress (01 Table 1-6). -/
  queue : List Nat
  /-- Failed restarts as (region, time): 01 R15 keeps 60 minutes. -/
  failed : List (Nat × Nat)
  /-- When a region last reported ready after a restart. -/
  ready : Tab Nat
  /-- Bit i: region index i is fenced (01 R18). -/
  fenced : BitVec 9
  /-- Blocks in escalation, by 64 × region + block. -/
  blocks : Tab BlockEsc
  /-- Engine watchdog expiries as (engine, time): 01 R29. -/
  expiries : List (Nat × Nat)
  /-- The active dump and replay coordinator, 62 or 63. -/
  coordinator : Nat
  /-- Pace code of each region index 0 to 8 (01 R19). -/
  pace : List Nat
  /-- Rate of each region's slower replica, MHz. -/
  replica : List Nat
  /-- Neighbour pairs whose temperatures hold the hotter region's raises (01 R22). -/
  heatHold : List (Nat × Nat)
  /-- Neighbour pairs whose difference reached 30 °C: ASIC throttle level 1 applies while any is listed (01 R22). -/
  hot30 : List (Nat × Nat)
  /-- Pulse-event crossings: until when the crossing is in request or acknowledge (01 R25), by event kind. -/
  crossing : Tab Nat
  /-- Fatal handling has begun (01 R18). -/
  fatal : Bool
  /-- Bit k: with region C fenced, GDDR7 controller k is out of the dump's reach (01 Table 1-7). -/
  lostCtrl : BitVec 4
deriving DecidableEq, Repr, Inhabited

/-! ## Link and management (02, 12) -/

/-- An HDM decoder (02 R39). -/
structure Decoder where
  base : Nat
  size : Nat
  skip : Nat
  ways : Nat
  gran : Nat
  pos : Nat
  committed : Bool
  errNotCommitted : Bool
deriving DecidableEq, Repr, Inhabited

/-- CDAT bandwidths and latencies as last generated (02 R49). -/
structure Cdat where
  readNs : Nat
  writeNs : Nat
  readMbps : Nat
  writeMbps : Nat
deriving DecidableEq, Repr, Inhabited

/-- A multi-part transfer (02 R44, 12 R337, R341). -/
structure Transfer where
  path : Path
  slot : Nat
  next : Nat
  lastAt : Nat
deriving DecidableEq, Repr, Inhabited

/-- A mailbox command that waits for its tally row writes (02 R44): the reply it gives when `left` reaches 0. -/
structure MbWait where
  path : Path
  opcode : Nat
  out : Bytes
  left : Nat
  /-- What the command does when its last row is written. -/
  args : List Nat
deriving DecidableEq, Repr, Inhabited

/-- A background command (02 R43): its opcode and the extent, key or slot that it works in. -/
structure Background where
  opcode : Nat
  target : Nat
  path : Path
deriving DecidableEq, Repr, Inhabited

/-- Inject Poison or Clear Poison (its opcode) on a 64-byte line, waiting for a fill or for room; `merged`: in write-through
mode its line waits for the log (04 R105, 09 R260). -/
structure Maint where
  opcode : Nat
  path : Path
  line : Nat
  data : Line
  merged : Bool
deriving DecidableEq, Repr, Inhabited

structure Link where
  protocol : Nat
  rate : Nat
  width : Nat
  flit256 : Bool
  degraded : Bool
  cdat : Cdat
  cdatChanged : Bool
  decoders : List Decoder
  memActive : Bool
  infoValid : Bool
  mboxReady : Bool
  /-- The last-resort metadata scan still runs with Memory_Active set (02 R56). -/
  scanRunning : Bool
  scanStart : Nat
  /-- Stream keys in region H: CXL.io and CXL.cachemem (08 R227). -/
  ideIo : Option (BitVec 256)
  ideMem : Option (BitVec 256)
  ideInsecureIo : Bool
  ideInsecureMem : Bool
  /-- The stream has failed and has no new key since the reset that must follow (02 R51). -/
  ideLostIo : Bool
  ideLostMem : Bool
  /-- The CXL.cachemem stream runs in containment mode, not in skid mode (02 R50). -/
  ideContained : Bool
  /-- AER and RAS registers (02 R54), with the header log's region and cause. -/
  aerUnc : BitVec 32
  aerSeverity : BitVec 32
  aerCor : BitVec 32
  rasUnc : BitVec 32
  rasCor : BitVec 32
  rasHeader : Nat × Nat
  /-- The MSI-X table as the host has written it: 64 words of 8 bytes (02 R38). -/
  msixTable : Tab Nat
  viralEnabled : Bool
  viral : Bool
  spdmSessions : Nat
  smbusAddress : BitVec 7
  eid : Byte
  d3hot : Bool
  l1 : Bool
  selfRefresh : Bool
  /-- Transfers of firmware and of a configuration image in progress. -/
  transfer : Option Transfer
  cfgTransfer : Option Transfer
  wait : Option MbWait
  /-- Mailbox commands that wait for the one that runs, or for region G (02 R44, 01 R17), in order. -/
  held : List Instr
  /-- Epoch Resolve waits for its frame's return (10 R293). -/
  resolve : Option Path
  background : Option Background
  /-- Result of the last background command. -/
  backgroundRc : Rc
  /-- Counts since events 0x010 and 0x011 were last raised, and when (02 R47). -/
  unclaimed : Nat
  unclaimedAt : Option Nat
  early : Nat
  earlyAt : Option Nat
  lsa : Tab Byte
  timestamp : Option (BitVec 64 × Nat)
  shutdownState : BitVec 32
  /-- Scan Media: range, and the results found. -/
  scan : Option (Nat × Nat)
  scanResults : List (Nat × Nat)
  maint : List Maint
  /-- Get Poison List goes on behind what it has returned: range and records returned. -/
  poisonNext : Option (Nat × Nat × Nat)
  /-- The link is taken down by the card and is not trained again before PERST_N. -/
  heldDown : Bool
deriving DecidableEq, Repr, Inhabited

/-! ## Request path (03) -/

/-- A request as it stands in the ingress buffer or in a tracker context. -/
structure Req where
  id : Nat
  t0 : Nat
  write : Bool
  cls : Nat
  dpa : Dpa
  data : Line
  enables : Enables
  poison : Bool
deriving DecidableEq, Repr, Inhabited

/-- A host tracker context (03 R63). For a read that waits for a fill, `snap` and `snapMask` hold the bytes written before
the read arrived (03 R62). `acceptedAt` is set once a write is accepted. -/
structure Ctx where
  req : Req
  acceptedAt : Option Nat
  src : Src
  snap : Line
  snapMask : Enables
  /-- The write waits for its log sector (09 R260). -/
  logWait : Bool
deriving DecidableEq, Repr, Inhabited

/-- A completed measurement (03 R65): when, its latency, whether a write. -/
structure Meas where
  at_ : Nat
  ns : Nat
  write : Bool
deriving DecidableEq, Repr, Inhabited

/-- The state of a host class (03 R65 to R77). -/
structure ClsState where
  level : Nat
  p99 : Nat
  suspended : Bool
  /-- Measurements of the last class window (trailing) and start of the present window. -/
  recent : List Meas
  winStart : Nat
  missedAt : Option Nat
  held : Nat
deriving DecidableEq, Repr, Inhabited

structure Qos where
  ctxs : List Ctx
  ingress : List Req
  nextId : Nat
  cls : List ClsState
  rEnv : Nat
  wEnv : Nat
  /-- The values of QOS_ENV_CAUSE at the last recompute. -/
  cause : Nat
  /-- Start of the 100 ms restoration hold (03 R77). -/
  holdStart : Option Nat
  envChanged : Nat
  /-- Credit return is paused since, with the entries held per class then (03 R81). -/
  pause : Option (Nat × List Nat)
  /-- Writes to epoch-mode lines that wait under 10 R282 are counted once: their ids. -/
  epochWaiters : List Nat
  /-- When the last CXL.mem request arrived (12 R345). -/
  lastReqAt : Nat
  /-- What the internal classes moved in the last 1 ms: class, time, bytes (03 R71). -/
  moved : List (Nat × Nat × Nat)
deriving DecidableEq, Repr, Inhabited

/-! ## Caches (04) -/

/-- A cached copy of a 256-byte line, DPA[42:8] in `l`, 64-byte line i in bits [512i+511:512i] of the data
(04 Table 4-1, Table 4-5). -/
structure Copy where
  l : BitVec 35
  dirty : BitVec 4
  poison : BitVec 4
  reuse : Nat
  epochMode : Bool
  epochTag : BitVec 2
  keyGen : Bool
  data : BitVec 2048
deriving DecidableEq, Repr, Inhabited

/-- A near-cache line (04 R87). `dirtySince` is when the first dirty bit was set. `filling` and `mask` are the fill of the
rest of the line and the bytes that it must not overwrite (04 R91). `badData` and `badTags` are the parity errors that the
stored words hold: bit w for data word w of 8 bytes, and tag copies (bit 0 and bit 1) (04 R88); `readTag` is the tag that the
copy with fewer failing bytes gives when both fail (04 R94). -/
structure NearSlot where
  copy : Copy
  dirtySince : Option Nat
  filling : Bool
  mask : BitVec 256
  badData : BitVec 32
  badTags : BitVec 2
  readTag : BitVec 18
deriving DecidableEq, Repr, Inhabited

/-- A board-cache slot (04 R96, R97) with the SECDED condition of its words: a correctable word, uncorrectable data words,
tag copies and dirty-index copies that are uncorrectable, and a reserved word (words 34 to 38) that is. `gone` marks 64-byte
lines invalidated in the slot (R102). -/
structure BoardSlot where
  copy : Copy
  corrected : Bool
  badData : BitVec 32
  gone : BitVec 4
  badTags : BitVec 2
  badIndex : BitVec 2
  badRest : Bool
deriving DecidableEq, Repr, Inhabited

/-- An entry of the near eviction buffer (04 R92, R104). -/
structure EvictEntry where
  copy : Copy
  /-- Clean 64-byte lines with a parity error, to be refetched before the offer (04 R94), and the bytes of them written since. -/
  refetch : BitVec 4
  mask : BitVec 256
  /-- When the board cache declined its clean offer: the entry is released as soon as time goes on (04 Table 4-8, log entry 70). -/
  declinedAt : Option Nat
deriving DecidableEq, Repr, Inhabited

/-- An entry of the board write-back buffer (04 R99; 10 R283 for `heldForEpoch`). -/
structure WbEntry where
  copy : Copy
  superseded : Bool
  heldForEpoch : Bool
  issued : Bool
  again : Bool
  /-- 64-byte lines invalidated in the slot that it left (04 R102). -/
  gone : BitVec 4
deriving DecidableEq, Repr, Inhabited

/-- How far a fill has come: issued to its source; soft decoding after a failed hard decode (07 R189); being
reconstructed (05 R128); data decoded and decrypted; every line judged by its MAC check (08 R216). -/
inductive FillPhase where
  | issued | soft | rebuild | arrived | judged
deriving DecidableEq, Repr, Inhabited

/-- Where a folio lives (06 Table 6-2). -/
structure Loc where
  group : Nat
  block : Nat
  index : Nat
deriving DecidableEq, Repr, Inhabited

/-- A fill in flight for a 256-byte line (04 R90 to R92; 03 R62), its class, its deadline (03 R58), when it was issued, and the
location that a medium read was issued under (06 R162). -/
structure Fill where
  l : BitVec 35
  cls : Nat
  deadline : Nat
  issuedAt : Nat
  loc : Option Loc
  /-- The threshold-table entry of its sense, and that entry's offsets then (07 R183, Table 7-4). -/
  entry : Nat
  offsets : List Int
  /-- Its channel was gated: the woken die may answer before the reconstruction does (05 R137). -/
  raced : Bool
  src : Src
  phase : FillPhase
  /-- Busy-die reconstruction spent allowance of the group (05 R127). -/
  spent : Bool
  /-- Stripe reconstruction has been made, or cannot be made. -/
  tried : Bool
  group : Nat
  data : BitVec 2048
  poison : BitVec 4
  macBad : BitVec 4
  /-- 64-byte lines whose data has been sent before its MAC check (08 R216). -/
  sent : BitVec 4
  /-- What waits for the fill (04 R105): 3 discard, 4 a new key phase. -/
  after : List Nat
deriving DecidableEq, Repr, Inhabited

/-- A GDDR7 device (04 R107). -/
structure Gddr where
  manufacturer : Nat
  density : Nat
  grade : Nat
  rate : Nat
  training : Nat
  tempC : Int
deriving DecidableEq, Repr, Inhabited

structure Caches where
  near : Tab NearSlot
  evict : List EvictEntry
  board : Tab BoardSlot
  wb : List WbEntry
  fills : List Fill
  /-- The eviction-policy engines are writing dirty board lines home (04 R100). -/
  writeback : Bool
  gddr : List Gddr
  /-- Board slots to be rewritten with corrected data (04 R102). -/
  rewrite : List Nat
  /-- Corrections of each device in the present second: when it began, how many (event 0x103). -/
  corrections : List (Nat × Nat)
deriving DecidableEq, Repr, Inhabited

/-! ## Medium (05) -/

/-- A sector on the medium: what its metadata word holds beside the lines' own bits (05 R118), and its condition. `folio` is the
folio, or the integrity folio, whose copy it belongs to (log entry 76). -/
structure Sector where
  folio : Nat
  writeTime : Nat
  writeTemp : Int
  /-- The placement sequence, of which the word holds 14 bits. -/
  seq : Nat
  /-- 0 host data, 1 map checkpoint or journal, 2 dump slot, 3 counter block. -/
  kind : Nat
  /-- Lost: no copy can be decoded (05 R130). -/
  lost : Bool
  /-- Half-written when the power failed (05 R136). -/
  torn : Bool
  /-- Number of bit errors that the flip mask left in it (13 R379). -/
  flips : Nat
deriving DecidableEq, Repr, Inhabited

/-- A 64-byte line stored on the medium with what its codeword holds about it (05 R117, R118; 08 R208 to R210). -/
structure Stored where
  cipher : Line
  mac : BitVec 48
  keyGen : Bool
  poison : Bool
  /-- The counter it is under, of a version that lies beneath a shadow; none: its page's counter block. -/
  ctr : Option (Nat × Nat)
deriving DecidableEq, Repr, Inhabited

/-- A running or suspended operation of a die (05 R115, R125): 2 in-place write, 3 program, 4 reset. -/
structure DieOp where
  op : Nat
  group : Nat
  block : Nat
  suspends : Nat
  suspended : Bool
  suspendedAt : Nat
  reads : Nat
  /-- When it ends, if it is not suspended again. -/
  endAt : Nat
deriving DecidableEq, Repr, Inhabited

/-- A one-bead write under way on its stripes (05 R122, R403): the folio, its location, the data sectors of the folio still to be
written, and the stripe positions whose parity sectors are; these come after the data. -/
structure Update where
  folio : Nat
  loc : Loc
  data : List Nat
  parity : List Nat
deriving DecidableEq, Repr, Inhabited

/-- A die (05 R132). -/
structure Die where
  retired : Bool
  cause : Nat
  rebuilt : Bool
  /-- Retired member blocks, by block index (05 R131), and how many. -/
  bad : List Nat
  retiredBlocks : Nat
  warned : Bool
  timeouts : List Nat
  op : Option DieOp
  tempC : Int
  /-- Thermal-age accumulator in 2^-16 equivalent seconds (07 R178), and its last start's addition. -/
  age : Nat
  deltaA : Nat
  /-- Drift ledger: (hour, accumulator/64) and (day, accumulator/64), oldest first (07 R179). -/
  hourly : List (Nat × Nat)
  daily : List (Nat × Nat)
  /-- The calendar hour that runs, with the accumulator at its start; ledger entries still to be written (07 R179). -/
  hourAt : Nat × Nat
  refWrite : Nat
  /-- When a command was last queued for the die, and when the scrubber last read it (07 R193). -/
  lastAt : Nat
  scrubAt : Option Nat
  /-- From when an operation of an internal class lies within its floor, and within its ceiling, again (03 R68, Table 3-8). -/
  floorAt : Tab Nat
  ceilAt : Tab Nat
  /-- From when the next write, program or reset, and the next sense, lies within the media throttle's limit (11 Table 11-10). -/
  opAt : Nat
  senseAt : Nat
  /-- Reference groups: (calendar, accumulator), newest first, 64 in rotation (07 R181). -/
  refs : List (Nat × Nat)
  /-- Member blocks: cycles_4 and cycles_1 by block index (06 R169). -/
  cycles4 : Tab Nat
  cycles1 : Tab Nat
  /-- Free member blocks: those used before, and the first of those never used (06 R170). -/
  freed : List Nat
  nextIx : Nat
  /-- Power-on seconds at the last comparison of wear (06 R170). -/
  wearCheckAt : Nat
deriving DecidableEq, Repr, Inhabited

/-- A stripe block (05 "Stripes", 06 R160, R169, 07 R186). -/
structure StripeBlock where
  bead : Bool
  w : Nat
  /-- Members as (channel, die block index), in channel order. -/
  members : List (Nat × Nat)
  /-- Channels whose member has still to take the reset that sets the block's mode (05 R114). -/
  toReset : List Nat
  sealedAt : Option Nat
  isOpen : Bool
  nextSlot : Nat
  /-- Write homes per folio slot (06 R169). -/
  homes : Tab Nat
  scrub : Nat
  /-- Largest hard-decode corrected count, the age bin and the die at which it was seen (07 R186). -/
  cMax : Nat
  cBin : Nat
  cDie : Nat
  writeCal : Nat
  band : Nat
  /-- Margin, in 1/256. -/
  margin : Int
  /-- Due for rewrite under 07 R187, with the cause of event 0x384. -/
  due : Option Nat
  dueSeq : Nat
  /-- Event 0x38A has been raised for the block (07 R180). -/
  oldStamp : Bool
  integrity : Bool
deriving DecidableEq, Repr, Inhabited

/-- A rebuild (05 R133): folios moved so far, and when it began. -/
structure Rebuild where
  group : Nat
  die : Nat
  moved : Nat
  startAt : Nat
deriving DecidableEq, Repr, Inhabited

structure Media where
  store : Tab Stored
  /-- Sectors, by line key / 4. -/
  secs : Tab Sector
  /-- Half-written parity sectors, and stripes that held a dumped line and have not been updated since the start, both by
  stripe-block key × 4,096 + position (05 R136). -/
  tornParity : List Nat
  recheck : List Nat
  updates : List Update
  dies : List Die
  blocks : Tab StripeBlock
  /-- Free stripe blocks of each group, and the next number to form. -/
  free : List Nat
  nextBlock : List Nat
  /-- Stripe blocks that were used and are free again, by group × 2^20 + block. -/
  freed : List Nat
  /-- One-bead wear that a freed member block takes with its next reset, by die × 2^20 + block index (06 R169). -/
  slotMax : Tab Nat
  allow : List Nat
  allowReads : List Nat
  allowEventAt : List (Option Nat)
  rebuild : Option Rebuild
  rebuildQueue : List (Nat × Nat)
  rebuiltGroups : List Nat
  secondLoss : BitVec 4
  /-- Causes of failed-read-only (05 R135): 0 to 8 region index, 16 + g group, 255 placeable capacity. -/
  froCauses : List Nat
  froDrops : Nat
  froAt : Option Nat
  gated : BitVec 16
  /-- Commands wait for a gated channel; when each channel was last used (05 R137). -/
  waking : BitVec 16
  usedAt : List Nat
deriving DecidableEq, Repr, Inhabited

/-! ## Map (06) -/

/-- A folio map entry (06 Table 6-1). A folio with no entry is never-written. -/
structure MapEntry where
  loc : Option Loc
  bead : Bool
  shadow : Bool
  discarded : Bool
  poisonedRange : Bool
  epochOpen : Bool
deriving DecidableEq, Repr, Inhabited

/-- A change record of the journal (06 R164). -/
structure Change where
  folio : Nat
  entry : Option MapEntry
  kind : Nat
deriving DecidableEq, Repr, Inhabited

/-- A journal sector on the medium (06 R164): its sequence, its records, and whether a reclaim commit in it counts: its stripe's
parity write has succeeded (R165). -/
structure JSector where
  seq : Nat
  changes : List Change
  settled : Bool
deriving DecidableEq, Repr, Inhabited

/-- A bead folio's record in the bead directory (06 R155, R157). -/
structure Bead where
  clock : Nat
  homes : Nat
  lastHome : Nat
deriving DecidableEq, Repr, Inhabited

/-- A line that a write home carries: line 0 to 255 of the folio, data and poison as they were taken from the caches. -/
structure HomeLine where
  ix : Nat
  data : Line
  poison : Bool
deriving DecidableEq, Repr, Inhabited

/-- A placement of one folio that is not acknowledged (06 R153). Kind, as change records code it: 0 in place, 1 promotion,
2 demotion, 3 rotation, 4 reclaim move, 6 rebuild move, 7 wear-levelling move, 8 migration, 9 shadow, 10 rewrite out of
place (a write-home placement), 11 base beneath a shadow. Destination, and the lines taken from the caches. -/
structure Home where
  kind : Nat
  loc : Loc
  bead : Bool
  lines : List HomeLine
  /-- Epoch whose writes the placement holds, of an epoch-mode folio. -/
  epoch : Nat
  tag : BitVec 2
  epochMode : Bool
  /-- The placed data is complete on the medium and the map change is made. -/
  committed : Bool
  /-- A discard reached the folio: the placement is dropped when it commits (06 R151). -/
  dropped : Bool
  startLoc : Option Loc
deriving DecidableEq, Repr, Inhabited

/-- An open four-bead stripe page of a group (06 R154): the folio of each filled slot, none for padding. -/
structure OpenPage where
  block : Nat
  page : Nat
  folios : List (Option Nat)
  since : Option Nat
deriving DecidableEq, Repr, Inhabited

/-- A four-bead stripe page that is programming (05 R121): channels whose members have reported success. -/
structure PageProg where
  group : Nat
  block : Nat
  page : Nat
  folios : List (Option Nat)
  reported : List Nat
deriving DecidableEq, Repr, Inhabited

/-- A reclaim job (06 R162): 0 copying, 1 committing, 2 draining. A copy of the version that an epoch shadow references
is listed by its folio number plus 2^29. -/
structure Reclaim where
  source : Nat
  phase : Nat
  copies : List (Nat × Loc)
deriving DecidableEq, Repr, Inhabited

/-- A Discard Range in progress (06 R150). -/
structure Discard where
  dpa : Nat
  length : Nat
  next : Nat
  left : Nat
  marked : Nat
deriving DecidableEq, Repr, Inhabited

/-- A poison-list record (07 R190): first 64-byte line, length, source 0 Internal, 1 External, 2 Injected. -/
structure PoisonRec where
  line : Nat
  length : Nat
  source : Nat
deriving DecidableEq, Repr, Inhabited

/-- A checkpoint slot (06 R166): sealed, its start and end sequences, the map with the integrity map, the bead directory. -/
structure Ckpt where
  sealed : Bool
  start : Nat
  last : Nat
  entries : Tab MapEntry
  beads : Tab Bead
deriving DecidableEq, Repr, Inhabited

structure Map where
  entries : Tab MapEntry
  /-- The medium journal back to the start of the older sealed checkpoint, oldest first, and the two checkpoint slots. -/
  journal : List JSector
  ckpts : List Ckpt
  /-- Changes that wait while the journal is full (06 R167). -/
  held : List Change
  /-- Folios whose entries are being rebuilt (06 R146). -/
  rebuilding : List Nat
  /-- Reclaim copies that a power failure left unreferenced: stripe blocks and folios (06 R163). -/
  orphans : Nat × Nat
  /-- The integrity map: entries of the integrity folios (08 R213). -/
  integrity : Tab MapEntry
  /-- Folios in the on-chip folio-map cache, newest use first, by set (06 R145). -/
  onChip : Tab (List Nat)
  beads : Tab Bead
  homes : Tab Home
  pages : Tab OpenPage
  progs : List PageProg
  nextGroup : Nat
  nextBead : Nat
  beadLimit : Nat
  beadFloor : Nat
  /-- U at the last recompute of the bead limit, in folios. -/
  limitAtU : Nat
  homeSeq : Nat
  tail : List Change
  tailSince : Option Nat
  committed : Nat
  retained : Nat
  ckptStart : Nat
  ckptSlot : Nat
  ckptOlder : Nat
  ckptWriting : Option (Nat × Nat)
  waiting : Bool
  reclaim : Tab Reclaim
  /-- Bit g: the reclaim floor is in force in group g (06 R160). -/
  floorOn : BitVec 4
  /-- Losses drawn on the spare cover, in tenths of a MiB (06 R172). -/
  losses : Nat
  pinned : Nat
  discard : Option Discard
  poison : List PoisonRec
  overflow : Option Nat
deriving DecidableEq, Repr, Inhabited

/-! ## Calendar, calibration and scrubbing (07) -/

/-- A threshold-table entry (07 R183): the 15 offsets, up and down counts, the rate in 1/256, the sectors decoded in the last 6
hours by second of power-on, and how long each threshold has been held at its limit. -/
structure ThrEntry where
  offsets : List Int
  up : List Nat
  down : List Nat
  rate : Nat
  recent : List (Nat × Nat)
  clamped : List Nat
deriving DecidableEq, Repr, Inhabited

structure Cal where
  calendar : Nat
  slew : Option Nat
  slewHalf : Bool
  provisional : Bool
  restored : Bool
  pendingHost : Option Int
  saved : Nat
  driftAdd : Nat
  /-- The addition that made the calendar provisional (07 R182). -/
  provAdd : Nat
  medianA : Nat
  vauxContinuous : Bool
  powerOnS : Nat
  /-- Tables by 64 × die + 16 × band + bin for four-bead entries, 48 + bin for one-bead. -/
  thr : Tab ThrEntry
  /-- The copies in the reference areas and in the GDDR7 mirror. -/
  thrSaved : Tab ThrEntry
  thrMirror : Tab ThrEntry
  lapActive : Bool
  lapStart : Nat
  lapElapsed : Nat
  lapProgress : Nat
  lapReads : Nat
  lapLost : Nat
  lastLap : Nat
  overLimit : Bool
  wakeChannel : Option (Nat × Nat)
  savedPosition : Nat × Nat
  /-- The stripe block that the lap has reached in each group, now and when the position was last saved (07 R192, R194). -/
  lapAt : List Nat
  savedAt : List Nat
  dueCount : Nat
  /-- When each channel last took a margin read (07 R185). -/
  marginAt : List (Option Nat)
deriving DecidableEq, Repr, Inhabited

/-! ## Extents, keys, integrity (08) -/

/-- A unit key entry (08 Table 8-2). A unit with no entry is unbound, phase 0. -/
structure UnitKey where
  key : Nat
  prev : Nat
  phase : Bool
  sweeping : Bool
  bound : Bool
  holdsData : Bool
  erasePending : Bool
  /-- The row write that binds the unit is waiting (08 R202). -/
  binding : Bool
deriving DecidableEq, Repr, Inhabited

/-- A key slot (08 R204, Table 8-3): 0 Empty, 1 Active, 2 Old, 3 Held. `key` numbers the cipher and MAC keys drawn from
the DRBG. -/
structure KeySlot where
  st : Nat
  gen : BitVec 16
  uses : Nat
  key : Nat
deriving DecidableEq, Repr, Inhabited

/-- A counter block or tree node (08 R210, R212): major and the minors that are not 0. -/
structure Counter where
  major : Nat
  minors : Tab Nat
deriving DecidableEq, Repr, Inhabited

/-- A carry sweep (08 R220 to R225): kind 1 host rotation, 2 automatic, 3 crypto-erase. -/
structure Sweep where
  kind : Nat
  extent : Nat
  units : List Nat
  oldKey : Nat
  newKey : Nat
  /-- The sweep record is written. -/
  recorded : Bool
  rowsDone : Bool
  boundary : Nat
  saved : Nat
  discarded : Nat
  startAt : Nat
deriving DecidableEq, Repr, Inhabited

structure Keys where
  extents : List ExtentEntry
  units : Tab UnitKey
  slots : Tab KeySlot
  ctrs : Tab Counter
  /-- Counter blocks as the medium holds them. -/
  ctrsHome : Tab Counter
  /-- Pages that the counter cache holds, by slot P[21:0] (04 R103). -/
  ctrCache : Tab Nat
  /-- Pages whose dirty block the mirror half holds too, by slot; the mirror slot of a clean block is invalid (04 R103). -/
  ctrMirror : Tab Nat
  /-- Nodes of levels 1 to 5 by level × 2^32 + index; the root is level 6. -/
  nodes : Tab Counter
  nodesHome : Tab Counter
  /-- The node cache: nodes of levels 1 to 3 by set, newest use first, and the dirty ones (08 R214). -/
  nodeCache : Tab (List Nat)
  dirtyNodes : List Nat
  /-- Pages whose counter block is dirty, oldest first (09 R236). -/
  dirtyCtrs : List Nat
  topSeq : Nat
  topSource : Nat
  tallyTop : Option Nat
  highMajor : List Nat
  /-- Ranges held on chip as poisoned while they are rewritten (08 R218): (level, node). -/
  lost : List (Nat × Nat)
  sweep : Option Sweep
  /-- Automatic sweeps that wait as (old key, new key); new key 0 while no empty slot was found (08 R207). -/
  sweepQueue : List (Nat × Nat)
  lockedDrops : Nat
  lockedAt : Option Nat
  /-- Sanitize or Secure Erase runs: opcode (08 R226). -/
  erasing : Option Nat
  resetPending : Bool
  treeKey : Nat
deriving DecidableEq, Repr, Inhabited

/-! ## Persistence (09) -/

/-- A line of a dump, an overlay or the write-through log: DPA[42:6], data, poison, key phase, epoch tag, part order. -/
structure DumpLine where
  line : Nat
  data : Line
  poison : Bool
  keyGen : Bool
  epochMode : Bool
  tag : BitVec 2
  part : Nat
  held : Bool
deriving DecidableEq, Repr, Inhabited

/-- A dump slot (09 Table 9-5, Table 9-6). -/
structure DumpSlot where
  st : Nat
  seq : Nat
  key : Nat
  cause : Nat
  headSealed : Bool
  trailer : Bool
  /-- What the header records beside the cause: calendar, B and staged bytes at the start of the dump. -/
  calendar : Nat
  budget : Nat
  staged : Nat
  lines : List DumpLine
  tail : List Change
  /-- Epoch state record of the dump: C, prepared, holds COMMIT. -/
  epoch : Option (Nat × Bool × Bool)
  topSeq : Option Nat
  logUsed : Nat
  drainStart : Nat
  /-- Data parts written: 1 the near and eviction lines, 2 the board and write-back lines too (Table 9-8). -/
  dataParts : Nat
  /-- Dirty counter blocks and, by level × 2^32 + index, dirty nodes of the integrity section. -/
  ctrs : Tab Counter
deriving DecidableEq, Repr, Inhabited

/-- A dump in progress (09 R249). -/
structure Dump where
  slot : Nat
  cause : Nat
  t0 : Nat
  stage : Nat
  staged : Nat
  inputBack : Option Nat
deriving DecidableEq, Repr, Inhabited

/-- A store test in progress (09 R240): phase 0 waiting for staged data and charge, 1 loaded, 2 discharging after the ESR
reading, 3 recharging; cause 0 scheduled, 1 host, 2 retest. -/
structure StoreTest where
  phase : Nat
  cause : Nat
  t0 : Nat
  loadAt : Nat
  before : Nat
  esr : Nat
  cap : Nat
deriving DecidableEq, Repr, Inhabited

structure Persist where
  vstore : Nat
  charging : Bool
  discharging : Bool
  tempC : Int
  /-- Results of the last test: C in 0.1 mF, ESR in 0.1 mΩ, E in mJ. -/
  cap : Nat
  esr : Nat
  energy : Nat
  health : Nat
  lastResult : Nat
  lastCal : Nat
  lastPowerS : Nat
  tests : Nat
  test : Option StoreTest
  dueSince : Option Nat
  /-- Power-on seconds at the last deferral of a test that is due (09 R239). -/
  deferredAt : Option Nat
  deferEvent : Bool
  budget : Nat
  bEnergy : Nat
  bCharge : Nat
  reported : Nat
  slots : List DumpSlot
  dump : Option Dump
  clean : Bool
  dirtyShutdowns : Nat
  dirtyLast : Bool
  flush : Option Nat
  flushStart : Nat
  flushBytes : Nat
  overlay : Tab DumpLine
  /-- Held-for-epoch entries of the dump, used where a roll back drops the newer copy of their line (10 R283). -/
  overlayHeld : Tab DumpLine
  overlaySlot : Option Nat
  /-- Write-through mode: its cause (09 R262), and when it was entered. -/
  wt : Option (Nat × Nat)
  /-- The mode has been entered, with data staged before entry still to go home (09 R263). -/
  wtPre : Bool
  gpf : Bool
  /-- A power failure, or fatal handling, has happened that no start has judged yet (09 R253, R255). -/
  failedPower : Bool
  /-- Its cause, as event 0x480 codes it. -/
  failCause : Nat
deriving DecidableEq, Repr, Inhabited

/-! ## The reckoning ring (10) -/

/-- What the card knows of a ring member (10 Table 10-9, R287). -/
structure Member where
  serial : Nat
  present : Bool
  version : Nat
  position : Nat
  committed : Nat
  prepared : Bool
  holds : Bool
  lost : Bool
  master : Bool
  foreign : Bool
deriving DecidableEq, Repr, Inhabited

/-- A shadow (10 R284). -/
structure Shadow where
  loc : Loc
  bead : Bool
  epoch : Nat
deriving DecidableEq, Repr, Inhabited

/-- A close in progress on this card (10 R286). Phase as RING_CLOSE; `held` while lines of the next tag go home
(10 R281); `ready` the mask of lap 2; `lap` the lap last sent; `recordDone` the own prepared record. -/
structure Close where
  n : Nat
  phase : Nat
  t0 : Nat
  lap1Sent : Nat
  lap1Back : Bool
  recordDone : Bool
  lap2Sent : Bool
  mask : Nat
  applied : Nat
  lastSent : Nat
  held : Bool
  stalled : Bool
deriving DecidableEq, Repr, Inhabited

structure Ring where
  ringId : Nat
  waitMs : Nat
  members : List Member
  own : Nat
  masterIx : Nat
  inCable : Bool
  outCable : Bool
  inSync : Bool
  bypass : Bool
  /-- 0 joining, 1 formed, 2 broken, 3 ring of one, 4 partial (10 Table 10-12). -/
  st : Nat
  version : Nat
  position : Option Nat
  waitUsed : Nat
  joinStart : Nat
  joined : Bool
  lastBeat : Nat
  committed : Nat
  prepared : Bool
  holds : Bool
  lost : Bool
  cardLocal : Bool
  pending : Bool
  provisional : Bool
  close : Option Close
  lastPhase : Nat
  refusal : Nat
  lastCloseNs : Nat
  /-- Coordinated flush: sequence, running from this card since, done mask, own lines still to go home. -/
  flushSeq : Nat
  /-- RING_FLUSH shows the last flush: no reset of its class has come since (10 R296). -/
  flushShown : Bool
  flushFrom : Option Nat
  flushMask : Nat
  flushLines : List Nat
  flushSeen : Option Nat
  pendingDrops : Nat
  pendingAt : Option Nat
  shadows : Tab Shadow
  tallyEpoch : Option Nat
  lastFrame : Option Frame
  resolving : Bool
  stateSeen : List Nat
deriving DecidableEq, Repr, Inhabited

/-! ## Supplies and thermal (11, 14) -/

/-- A rail (11 R298 to R308). -/
structure Rail where
  enabled : Bool
  pg : Bool
  enabledAt : Nat
  disabledAt : Nat
  latePg : Nat
  pgLost : Nat
  timeouts : Nat
  regOt : Nat
deriving DecidableEq, Repr, Inhabited

structure Power where
  inputs : Inputs
  rails : List Rail
  table : List SlotEntry
  imageTable : Bool
  /-- 0 idle, 1 power-up, 2 power-down, 3 dump rail set (11 Table 11-16). -/
  sequence : Nat
  common : Nat
  covered : BitVec 14
  attempts : Nat
  onHeld : Bool
  offUntil : Option Nat
  /-- Stays off until PERST_N is asserted and deasserted or the inputs are cycled (11 R303, R319). -/
  latchedOff : Bool
  needPerst : Bool
  qualified : Bool
  /-- Since when the inputs have held their levels (11 R297). -/
  okSince : Option Nat
  brake : Option Nat
  /-- Domains gated, bit n for Dn (11 R309). -/
  gated : BitVec 30
deriving DecidableEq, Repr, Inhabited

/-- A sensor (11 R310 to R313). -/
structure Sensor where
  reading : Int
  used : Int
  deviating : Bool
  devRun : Nat
  broken : Bool
  fast : Bool
  calm : Nat
  slope : Int
  sampled : Bool
deriving DecidableEq, Repr, Inhabited

/-- The levels a sensor kind has entered (11 R314). -/
structure KindLevel where
  warning : Bool
  t1 : Bool
  t2 : Bool
  shutdown : Bool
deriving DecidableEq, Repr, Inhabited

/-- The last thermal shutdown (11 Table 11-25) and the orderly stop in progress (11 R319). -/
structure ThermalStop where
  sensor : Nat
  temp : Int
  slope : Int
  tLeft : Option Nat
  path : Nat
  holds : Nat
  kind : Nat
deriving DecidableEq, Repr, Inhabited

structure Thermal where
  limits : List LimitEntry
  neighbours : List (List Nat)
  sensors : List Sensor
  levels : List KindLevel
  stop : Option ThermalStop
  stopping : Option Nat
  /-- Seconds per 8 °C bin, and the highest reading, of each kind (11 R308). -/
  hist : List (List Nat)
  highest : List Int
  inletAt : Option Nat
  /-- A thermal hold, since when (11 R320). -/
  heldAt : Option Nat
  /-- The next start checks the kind that shut down. -/
  recheck : Bool
deriving DecidableEq, Repr, Inhabited

/-! ## Start, flash, firmware (12) -/

/-- A copy of the boot header (12 R326). -/
structure BootHeader where
  valid : Bool
  sequence : Nat
  fwNext : Nat
  fwGood : Nat
  cfgNext : Nat
  pending : Bool
deriving DecidableEq, Repr, Inhabited

/-- A firmware or configuration slot of the flash: 0 empty, 1 valid, 2 invalid, 3 writing. -/
structure FwSlot where
  st : Nat
  img : FwImage
deriving DecidableEq, Repr, Inhabited

structure CfgSlot where
  st : Nat
  img : Image
deriving DecidableEq, Repr, Inhabited

/-- A step of the boot ledger (12 Table 12-16). -/
structure LedgerStep where
  result : Nat
  method : Nat
  start : Nat
  duration : Nat
  detail : Nat
deriving DecidableEq, Repr, Inhabited

/-- An attempt of the boot ledger. -/
structure Attempt where
  number : Nat
  cause : Nat
  fwSlot : Nat
  cfg : Nat
  outcome : Nat
  calendar : Nat
  activeMs : Nat
  steps : List LedgerStep
deriving DecidableEq, Repr, Inhabited

structure Boot where
  headers : List BootHeader
  fw : List FwSlot
  cfg : List CfgSlot
  /-- Sequences of format 2 images converted before (12 R336). -/
  converted : List Nat
  step : Nat
  stepStart : Nat
  /-- When this attempt began, and when PERST_N was last deasserted. -/
  startAt : Nat
  perstAt : Nat
  running : Bool
  complete : Bool
  hold : Bool
  recovery : Bool
  fwSlot : Nat
  cfgSource : Nat
  cfgSequence : Nat
  cfgFormat : Nat
  cfgDigest : Nat
  lastSequence : Nat
  migrated : Bool
  alternates : Bool
  methods : List Nat
  attempt : Nat
  cause : Nat
  /-- For each step code, the method that failed on the previous attempt (12 R329). -/
  failure : Tab Nat
  trainFails : Nat
  ledger : List Attempt
  enrolled : Option Nat
  rollback : Nat
  layout : Nat
  savedExtents : Option (List ExtentEntry)
  saveExtents : Bool
  perst : Bool
  /-- The next start follows a cold power-on (12 Table 12-16). -/
  cold : Bool
  activeMs : Nat
  ended : Option (Nat × Nat)
deriving DecidableEq, Repr, Inhabited

/-- The image in force (12 R335): the sections that no other subsystem keeps. -/
structure Running where
  classes : List ClassEntry
  routing : Tab (Bool × Nat)
  routingAll : Bool
  triggers : List Trigger
  caps : List Nat
  link : LinkOpts
  policy : Policy
deriving DecidableEq, Repr, Inhabited

/-! ## Tally, recorder, counters, telemetry, events (13) -/

/-- One physical copy of a tally record (13 R354). -/
structure TallyCopy where
  valid : Bool
  seq : Nat
  data : Bytes
deriving DecidableEq, Repr, Inhabited

structure TallyRow where
  a : TallyCopy
  b : TallyCopy
  reported : Bool
deriving DecidableEq, Repr, Inhabited

/-- A pending row write (13 R355): its rank, partition, row, content; `owner` says what its completion does: 0 nothing
more, 1 a mailbox command, 2 a unit binding (`arg`: the unit), 3 the sweep record (`arg` 0) or a unit row of a sweep. -/
structure RowWrite where
  rank : Nat
  part : Nat
  row : Nat
  data : Bytes
  owner : Nat
  arg : Nat
deriving DecidableEq, Repr, Inhabited

structure Tally where
  rows : Tab TallyRow
  queue : List RowWrite
  running : Option RowWrite
  /-- Opcode and arguments of an abandoned command whose row was being written (13 R358): the write completes. -/
  orphan : Option (Nat × List Nat)
  deferred : Bool
  deferredAt : Nat
  deferEvent : Bool
  rail0 : Bool
  holdUp : Bool
  spare : Nat
  lapHours : Nat
  wrong : Tab Nat
  locked : List Nat
  powerCycles : Nat
  bytesRd : Nat
  bytesWr : Nat
  /-- The rails have been off since the tally store was last mounted: the on-chip counts are gone (13 R353). -/
  stale : Bool
deriving DecidableEq, Repr, Inhabited

/-- A recorder record (13 Table 13-6). -/
structure Rec where
  trigger : Nat
  lostBefore : Bool
  repeats : Nat
  seq : Nat
  snaps : List Word64
  source : Nat
  severity : Nat
  region : Nat
deriving DecidableEq, Repr, Inhabited

structure Recorder where
  staging : List Rec
  stored : List Rec
  nextSeq : Nat
  base : Nat
  full : Bool
  lostFlag : Bool
  /-- Repeats of a record that has left staging, held on chip (13 R366). -/
  heldRepeats : Nat
  newest : Option Rec
deriving DecidableEq, Repr, Inhabited

/-- A telemetry line (13 Table 13-9). -/
structure TqLine where
  seq : Nat
  valid : Nat
  lead : Nat
  lost : Bool
  flush : Bool
  timeout : Bool
  words : List Word64
deriving DecidableEq, Repr, Inhabited

structure Telemetry where
  lines : Tab TqLine
  head : Nat
  tail : Nat
  seq : Nat
  openWords : List Word64
  openLead : Nat
  openSince : Option Nat
  /-- Words of a sample still to be written when the line closes (13 R376). -/
  lostFlag : Bool
  countdown : Nat
  samples : Nat
  dropsAt : Option Nat
  drops : Nat
  /-- Bit n: an occurrence that level counter n counts has come since the last sample (13 R370). -/
  levelSeen : BitVec 64
  /-- The port window in force at each port, in µs (13 R373). -/
  windows : List Nat
deriving DecidableEq, Repr, Inhabited

/-- An event record in a CXL log (02 R45). -/
structure EventRec where
  handle : Nat
  source : Nat
  severity : Nat
  region : Nat
  recorder : Nat
  data : List Nat
  kind : Nat
  time : BitVec 64
deriving DecidableEq, Repr, Inhabited

/-- What Set Alert Configuration has set (13 R382): the alerts enabled, and the programmable warning thresholds. -/
structure Alert where
  enable : BitVec 8
  lifeUsed : Nat
  overTemp : Int
  underTemp : Int
  volErrors : Nat
  perErrors : Nat
  /-- The alerts that stand, as last evaluated. -/
  standing : List Bool
deriving DecidableEq, Repr, Inhabited

structure Events where
  /-- The Informational, Warning, Failure and Fatal logs, and their overflow counts. -/
  logs : List (List EventRec)
  overflow : List Nat
  /-- First and last time that a record of a log was dropped. -/
  overflowAt : List (BitVec 64 × BitVec 64)
  policy : List (BitVec 8)
  nextHandle : Nat
  /-- Events raised while no log can be written (12 R350, 11 R306): source, severity, region, recorder sequence, data. -/
  deferred : List (Nat × Nat × Nat × Nat × List Nat)
  pending : BitVec 32
  alert : Alert
  health : BitVec 24
  /-- Sources of 02 Table 2-16 raised since the health flags were last evaluated. -/
  healthBy : List Nat
deriving DecidableEq, Repr, Inhabited

/-- The armed flip mask (13 R379). -/
structure Flip where
  armed : Option FlipIn
deriving DecidableEq, Repr, Inhabited

/-! ## The card -/

structure State where
  /-- The commands that wait, first in first out. -/
  pending : List Instr
  part : Part
  serial : Word64
  now : Nat
  /-- How many free values have been drawn: the model's own field. -/
  fresh : Nat
  obs : Tab Nat
  sent : List Out
  fab : Fabric
  link : Link
  qos : Qos
  cch : Caches
  med : Media
  map : Map
  cal : Cal
  key : Keys
  pfl : Persist
  ring : Ring
  pwr : Power
  thm : Thermal
  boot : Boot
  run : Running
  tly : Tally
  recd : Recorder
  tq : Telemetry
  evt : Events
  flip : Flip
deriving DecidableEq, Repr

/-! ## The state after reset: no supply has been applied yet (12 R343, cold power-on) -/

/-- The boot slot table in 10 µs units, rails 0 to 13 (11 Table 11-4; rail 0 has no entry there). -/
def bootSlotTable : List SlotEntry :=
  [⟨0, 0, 0⟩, ⟨0, 1100, 80⟩, ⟨100, 1000, 80⟩, ⟨200, 900, 80⟩, ⟨300, 800, 80⟩, ⟨400, 700, 80⟩, ⟨600, 500, 80⟩,
   ⟨700, 400, 80⟩, ⟨500, 600, 80⟩, ⟨300, 800, 80⟩, ⟨900, 200, 80⟩, ⟨800, 300, 80⟩, ⟨1000, 100, 80⟩, ⟨1500, 0, 100⟩]

/-- The default limits of the controller, medium, GDDR7 and store kinds (11 Table 11-9). -/
def defaultLimits : List LimitEntry :=
  [⟨95, 103, 107, 112, 5⟩, ⟨75, 82, 86, 90, 4⟩, ⟨85, 95, 100, 105, 5⟩, ⟨60, 65, 0, 70, 3⟩]

/-- The default entry of every class (12 Table 12-8). -/
def defaultClass : ClassEntry := ⟨1000000, 512, 0, 1024, 10, 0, 0, 0⟩

/-- An image in which every section is absent (12 Table 12-7). -/
def emptyImage : Image :=
  { headerOk := true, format := 3, subsystem := 0, sequence := 1, length := 4096, signed := false, enrol := false,
    keyDigest := 0, keySection := none, signatureOk := false, digestOk := true, bodyDigest := 0, slotTable := none,
    thermal := none, extents := none, classes := none, routing := none, triggers := none, ring := none, caps := none,
    link := none, policy := none }

/-- The firmware of manufacture: version 1.0.0, no rollback floor, tally layout 1. -/
def factoryFw : FwImage :=
  { formatOk := true, version := 0x01000000, rollback := 0, layoutLow := 1, layoutHigh := 1, minStep := 0,
    keyInFuses := true, signatureOk := true, digestOk := true }

def noFw : FwImage :=
  { formatOk := false, version := 0, rollback := 0, layoutLow := 0, layoutHigh := 0, minStep := 0,
    keyInFuses := false, signatureOk := false, digestOk := false }

def Fabric.atReset : Fabric :=
  { restarts := [], queue := [], failed := [], ready := [], fenced := 0, blocks := [], expiries := [],
    coordinator := 62, pace := List.replicate 9 0, replica := List.replicate 9 0, heatHold := [],
    hot30 := [], crossing := [], fatal := false, lostCtrl := 0 }

/-- The AER severity register begins as PCI Express gives it: an uncorrectable internal error, bit 22, is fatal (log entry 84). -/
def Link.atReset : Link :=
  { protocol := 0, rate := 0, width := 0, flit256 := false, degraded := false,
    cdat := ⟨650, 70, 112000, 104000⟩, cdatChanged := false,
    decoders := List.replicate 4 ⟨0, 0, 0, 1, 256, 0, false, false⟩,
    memActive := false, infoValid := false, mboxReady := false, scanRunning := false, scanStart := 0,
    ideIo := none, ideMem := none, ideInsecureIo := false, ideInsecureMem := false, ideLostIo := false,
    ideLostMem := false, ideContained := false, aerUnc := 0, aerSeverity := 0x00462030, aerCor := 0, rasUnc := 0, rasCor := 0,
    rasHeader := (0, 0), msixTable := [], held := [],
    viralEnabled := false, viral := false, spdmSessions := 0, smbusAddress := 0x62, eid := 0, d3hot := false,
    l1 := false, selfRefresh := false, transfer := none, cfgTransfer := none, wait := none, resolve := none, background := none, backgroundRc := .success,
    unclaimed := 0, unclaimedAt := none, early := 0, earlyAt := none, lsa := [], timestamp := none,
    shutdownState := 0, scan := none, scanResults := [], maint := [], poisonNext := none, heldDown := false }

/-- After an IDE failure no CXL.mem request is accepted until every failed stream has a new key (02 R51). -/
def Link.ideBlocked (l : Link) : Bool := l.ideLostIo || l.ideLostMem

def Qos.atReset : Qos :=
  { ctxs := [], ingress := [], nextId := 0,
    cls := List.replicate 8 ⟨0, 0, false, [], 0, none, 0⟩, rEnv := 0, wEnv := 0,
    cause := 0, holdStart := none, envChanged := 0, pause := none, epochWaiters := [], lastReqAt := 0, moved := [] }

def Caches.atReset : Caches :=
  { near := [], evict := [], board := [], wb := [], fills := [], writeback := false,
    gddr := List.replicate 4 ⟨1, 32, 32, 32, 0, 0⟩, rewrite := [],
    corrections := List.replicate 4 (0, 0) }

/-- A die as it leaves manufacture. -/
def Die.atReset : Die :=
  { freed := [], nextIx := 0, wearCheckAt := 0, retired := false, cause := 0, rebuilt := false, bad := [], retiredBlocks := 0, warned := false, timeouts := [], op := none,
    tempC := -40, age := 0, deltaA := 0, hourly := [], daily := [], hourAt := (0, 0), refWrite := 0, lastAt := 0, scrubAt := none, floorAt := [], ceilAt := [], opAt := 0, senseAt := 0,
    refs := [], cycles4 := [], cycles1 := [] }

def Media.atReset : Media :=
  { store := [], secs := [], tornParity := [], recheck := [], updates := [], slotMax := [], usedAt := List.replicate 16 0,
    dies := List.replicate 64 Die.atReset, blocks := [], free := List.replicate 4 152882,
    nextBlock := [0, 0, 0, 0], freed := [], allow := [0, 0, 0, 0], allowReads := [0, 0, 0, 0], allowEventAt := [none, none, none, none],
    rebuild := none, rebuildQueue := [], rebuiltGroups := [], secondLoss := 0, froCauses := [], froDrops := 0,
    froAt := none, gated := 0, waking := 0 }


def Map.atReset : Map :=
  { entries := [], journal := [], ckpts := [⟨true, 1, 0, [], []⟩, ⟨false, 0, 0, [], []⟩], held := [], rebuilding := [],
    orphans := (0, 0), nextBead := 0, integrity := [], onChip := [], beads := [], homes := [], pages := [], progs := [], nextGroup := 0, beadLimit := 0,
    beadFloor := 64, limitAtU := 0, homeSeq := 0, tail := [], tailSince := none, committed := 0, retained := 0,
    ckptStart := 1, ckptSlot := 0, ckptOlder := 1, ckptWriting := none, waiting := false, reclaim := [], floorOn := 0,
    losses := 0, pinned := 0, discard := none, poison := [], overflow := none }

def Cal.atReset : Cal :=
  { calendar := 0, slew := none, slewHalf := false, provisional := true, restored := false, pendingHost := none,
    saved := 0, driftAdd := 0, provAdd := 0, medianA := 0, vauxContinuous := false, powerOnS := 0, thr := [], thrSaved := [],
    thrMirror := [], lapActive := false, lapStart := 0, lapElapsed := 0, lapProgress := 0, lapReads := 0, lapLost := 0,
    lastLap := 0, overLimit := false, wakeChannel := none, savedPosition := (0, 0), lapAt := [0, 0, 0, 0], savedAt := [0, 0, 0, 0], dueCount := 0,
    marginAt := List.replicate 16 none }

/-- Slot 0 is Active from manufacture (08 R204); every other slot is Empty and not listed. -/
def Keys.atReset : Keys :=
  { extents := [], units := [], slots := [(0, ⟨1, 1, 0, 0⟩)], ctrs := [], ctrsHome := [], ctrCache := [], ctrMirror := [], nodes := [], nodesHome := [], nodeCache := [], dirtyNodes := [], dirtyCtrs := [], topSeq := 0,
    topSource := 0, tallyTop := some 0, highMajor := [], lost := [], sweep := none, sweepQueue := [], lockedDrops := 0,
    lockedAt := none, erasing := none, resetPending := false, treeKey := 1 }

def DumpSlot.atReset : DumpSlot :=
  { st := 0, seq := 0, key := 0, cause := 0, headSealed := false, trailer := false,
    calendar := 0, budget := 0, staged := 0, lines := [], tail := [],
    epoch := none, topSeq := none, logUsed := 0, drainStart := 0, dataParts := 0,
    ctrs := [] }

/-- The store at the beginning-of-life figures of 09 Table 9-1 (225 mF, 40 mΩ, and the energy that R237 gives for
them), with the factory test passed and nothing charged. -/
def Persist.atReset : Persist :=
  { vstore := 0, charging := false, discharging := false, tempC := -40, cap := 2250, esr := 400, energy := 48044,
    health := 0, lastResult := 1, lastCal := 0, lastPowerS := 0, tests := 0, test := none, dueSince := none, deferredAt := none,
    deferEvent := false, budget := 0, bEnergy := 0, bCharge := 0, reported := 0,
    slots := [DumpSlot.atReset, DumpSlot.atReset], dump := none, clean := true, dirtyShutdowns := 0,
    dirtyLast := false, flush := none, flushStart := 0, flushBytes := 0, overlay := [], overlayHeld := [], overlaySlot := none, wt := none,
    wtPre := false, gpf := false, failedPower := false, failCause := 0 }

def Member.atReset : Member :=
  { serial := 0, present := false, version := 0, position := 0, committed := 0, prepared := false, holds := false,
    lost := false, master := false, foreign := false }

def Ring.atReset : Ring :=
  { ringId := 0, waitMs := 2000, members := [], own := 0, masterIx := 0, inCable := false, outCable := false,
    inSync := false, bypass := true, st := 0, version := 0, position := none, waitUsed := 0, joinStart := 0,
    joined := false, lastBeat := 0, committed := 0, prepared := false, holds := false, lost := false,
    cardLocal := false, pending := false, provisional := false, close := none, lastPhase := 0, refusal := 0,
    lastCloseNs := 0, flushSeq := 0, flushShown := false, flushFrom := none, flushMask := 0, flushLines := [], flushSeen := none,
    pendingDrops := 0, pendingAt := none, shadows := [], tallyEpoch := none, lastFrame := none, resolving := false,
    stateSeen := [] }

def Rail.atReset : Rail :=
  { enabled := false, pg := false, enabledAt := 0, disabledAt := 0, latePg := 0, pgLost := 0, timeouts := 0,
    regOt := 0 }

def Power.atReset : Power :=
  { inputs := ⟨0, 0, 0, 0⟩, rails := List.replicate 14 Rail.atReset, table := bootSlotTable, imageTable := false,
    sequence := 0, common := 0, covered := 0, attempts := 0, onHeld := false, offUntil := none, latchedOff := false,
    needPerst := false, qualified := false, okSince := none, brake := none, gated := 0 }

def Sensor.atReset : Sensor :=
  { reading := -40, used := -40, deviating := false, devRun := 0, broken := false, fast := false, calm := 0, slope := 0,
    sampled := false }

def Thermal.atReset : Thermal :=
  { limits := defaultLimits, neighbours := List.replicate 64 [255, 255, 255, 255],
    sensors := List.replicate 64 Sensor.atReset, levels := List.replicate 4 ⟨false, false, false, false⟩, stop := none,
    stopping := none, hist := List.replicate 4 (List.replicate 16 0), highest := List.replicate 4 (-40),
    inletAt := none, heldAt := none, recheck := false }

/-- The flash of manufacture: factory firmware in slot A, an image with every section absent in configuration slot A. -/
def Boot.atReset : Boot :=
  { headers := [⟨true, 1, 0, 0, 0, false⟩, ⟨true, 1, 0, 0, 0, false⟩], fw := [⟨1, factoryFw⟩, ⟨0, noFw⟩],
    cfg := [⟨1, emptyImage⟩, ⟨0, emptyImage⟩], converted := [], step := 0, stepStart := 0, startAt := 0, perstAt := 0,
    running := false, complete := false, hold := false, recovery := false, fwSlot := 0, cfgSource := 0,
    cfgSequence := 0, cfgFormat := 3, cfgDigest := 0, lastSequence := 0, migrated := false, alternates := false,
    methods := List.replicate 13 0, attempt := 0, cause := 0, failure := [], trainFails := 0, ledger := [],
    enrolled := none, rollback := 0, layout := 1, savedExtents := none, saveExtents := false, perst := true, cold := true,
    activeMs := 0, ended := none }

def Running.atReset : Running :=
  { classes := List.replicate 8 defaultClass, routing := [], routingAll := true, triggers := [],
    caps := [32, 32, 32, 32], link := ⟨4, 16, true, true⟩, policy := ⟨20, 64, 20, 100⟩ }

def Tally.atReset : Tally :=
  { rows := [], queue := [], running := none, orphan := none, deferred := false, deferredAt := 0, deferEvent := false, rail0 := false,
    holdUp := false, spare := 768, lapHours := 0, wrong := [], locked := [], powerCycles := 0,
    bytesRd := 0, bytesWr := 0, stale := false }

def Recorder.atReset : Recorder :=
  { staging := [], stored := [], nextSeq := 1, base := 1, full := false, lostFlag := false, heldRepeats := 0,
    newest := none }

def Telemetry.atReset : Telemetry :=
  { lines := [], head := 0, tail := 0, seq := 0, openWords := [], openLead := 0, openSince := none, lostFlag := false,
    countdown := 0, samples := 0, dropsAt := none, drops := 0, levelSeen := 0, windows := List.replicate 22 1000 }

def Events.atReset : Events :=
  { logs := [[], [], [], []], overflow := [0, 0, 0, 0], overflowAt := [(0, 0), (0, 0), (0, 0), (0, 0)], policy := [0, 0, 0, 0], nextHandle := 1, deferred := [],
    pending := 0, alert := ⟨0, 0, 0, 0, 0, 0, [false, false, false, false, false]⟩, health := 0, healthBy := [] }

/-- The card before any supply is applied: the state a cold power-on starts from (12 R343). -/
def State.reset : State :=
  { pending := [], part := .p8192, serial := 0, now := 0, fresh := 0, obs := [], sent := [], fab := Fabric.atReset,
    link := Link.atReset, qos := Qos.atReset, cch := Caches.atReset, med := Media.atReset, map := Map.atReset,
    cal := Cal.atReset, key := Keys.atReset, pfl := Persist.atReset, ring := Ring.atReset, pwr := Power.atReset,
    thm := Thermal.atReset, boot := Boot.atReset, run := Running.atReset, tly := Tally.atReset,
    recd := Recorder.atReset, tq := Telemetry.atReset, evt := Events.atReset, flip := ⟨none⟩ }

end Sys2Proof.Machine
end

