-- ==== Sys2Proof/Machine/Operands.lean ====
section
/-! DEFINITION. How addresses, dies, regions and extents are read from a command's operands and the state: the part's
geometry, the HDM decode, the fields of a device physical address, and the state questions that several families ask. -/

namespace Sys2Proof.Machine

/-- The outcome type of every meaning. -/
abbrev Res := Host.Outcome State Fault Refusal

/-! ## The part (00_scope Table 0-2) -/

/-- Usable capacity in GiB. -/
def State.capGib (s : State) : Nat :=
  match s.part with
  | .p8192 => 8192
  | .p4096 => 4096

/-- Usable capacity in bytes. -/
def State.capacity (s : State) : Nat := s.capGib * gib

/-- Stripe groups, and die positions on each channel. -/
def State.groups (s : State) : Nat :=
  match s.part with
  | .p8192 => 4
  | .p4096 => 2

/-- Number of folios of the usable capacity (06 R141). -/
def State.folios (s : State) : Nat := s.capGib * 65536

/-- Number of 256 MiB units. -/
def State.unitCount (s : State) : Nat := s.capGib * 4

/-- Die i = 4 × channel + position is fitted (00_scope R2). -/
def State.fitted (s : State) (i : Nat) : Bool := decide (i < 64) && decide (i % 4 < s.groups)

/-- The stripe group of die i is its position. -/
def dieGroup (i : Nat) : Nat := i % 4
def dieChannel (i : Nat) : Nat := i / 4

/-- Region index of the media region of channel c (01 Table 1-3): M0 is 5. -/
def mediaRegion (c : Nat) : Nat := 5 + c / 4

/-! ## Register fields (00_scope R4 to R9) -/

/-- Where field f of copy i lies in `State.obs`. -/
def Fld.key (f : Fld) (i : Nat) : Nat := (f.off + f.stride * i) * 64 + f.lo

/-- The field's width, its largest value plus 1, and its reset value (a field that a reset leaves to the start, the
image or the tally store begins at 0: log entry 2). -/
def Fld.size (f : Fld) : Nat := 2 ^ (f.hi + 1 - f.lo)
def Fld.dflt (f : Fld) : Nat := match f.rst with | .val n => n | .keep => 0

/-- Stored value of field f. -/
def State.reg (s : State) (f : Fld) (i : Nat := 0) : Nat := Tab.findD s.obs (f.key i) f.dflt

/-- The table of stored fields with v at key k, canonical: a field at its reset value is not listed. -/
def putObs (o : Tab Nat) (k d v : Nat) : Tab Nat := if v = d then Tab.del o k else Tab.put o k v

/-- Set the stored value of field f. -/
def State.setReg (s : State) (f : Fld) (v : Nat) (i : Nat := 0) : State :=
  { s with obs := putObs s.obs (f.key i) f.dflt (v % f.size) }

/-- What a field that would pass its largest value holds (00_scope: "wraps to 0", "saturating"; where the manual says
neither, a free value). -/
def Fld.past (f : Fld) (v fresh : Nat) : Nat :=
  match f.ovf with
  | .wrap => v % f.size
  | .sat => f.size - 1
  | .unstated => Config.counterOver fresh % f.size

/-- Add k to a counting field. -/
def State.bump (s : State) (f : Fld) (k : Nat := 1) (i : Nat := 0) : State :=
  if s.reg f i + k < f.size then s.setReg f (s.reg f i + k) i
  else { s with fresh := s.fresh + 1 }.setReg f (f.past (s.reg f i + k) s.fresh) i

/-- Raise a high-water field to v. -/
def State.high (s : State) (f : Fld) (v : Nat) (i : Nat := 0) : State :=
  if s.reg f i < v then s.setReg f v i else s

/-! ## Addresses -/

/-- Line number DPA[42:6], 256-byte line DPA[42:8], folio DPA[42:14], 256 MiB unit. -/
def lineOf (dpa : Nat) : Nat := dpa / 64
def sectorOf (dpa : Nat) : Nat := dpa / 256
def folioOf (dpa : Nat) : Nat := dpa / 16384
def unitOf (dpa : Nat) : Nat := dpa / (256 * mib)

/-- DPA of the first byte behind the decoders below decoder i: each takes its skip and its share of its size
(02 R39, as CXL 3.1 lays decoders out). -/
def dpaBase : List Decoder → Nat → Nat
  | [], _ => 0
  | _, 0 => 0
  | d :: r, i + 1 => (if d.committed then d.skip + d.size / d.ways else 0) + dpaBase r i

/-- The DPA that decoder d, with `start` bytes of DPA space below it, gives host address a. -/
def decodeBy (d : Decoder) (start a : Nat) : Option Nat :=
  if d.committed && decide (d.base ≤ a) && decide (a < d.base + d.size) then
    let chunk := (a - d.base) / d.gran
    if chunk % d.ways = d.pos then
      some (start + d.skip + chunk / d.ways * d.gran + (a - d.base) % d.gran)
    else none
  else none

/-- The DPA of host address a, by the first committed decoder that claims it (02 R39). -/
def decodeFrom (all : List Decoder) : List Decoder → Nat → Nat → Option Nat
  | [], _, _ => none
  | d :: r, i, a =>
    match decodeBy d (dpaBase all i) a with
    | some x => some x
    | none => decodeFrom all r (i + 1) a

def State.decodeHpa (s : State) (a : Nat) : Option Nat :=
  match decodeFrom s.link.decoders s.link.decoders 0 a with
  | some x => if x < s.capacity then some x else none
  | none => none

/-! ## Extents (08 R199) -/

def extHas (e : ExtentEntry) (unit : Nat) : Bool := decide (e.base ≤ unit) && decide (unit < e.base + e.units)

/-- Number of the extent that holds a unit. -/
def extentIx : List ExtentEntry → Nat → Nat → Option Nat
  | [], _, _ => none
  | e :: r, u, i => if extHas e u then some i else extentIx r u (i + 1)

def State.extentOf (s : State) (dpa : Nat) : Option Nat := extentIx s.key.extents (unitOf dpa) 0

/-- The attributes of a DPA that lies in no extent (08 R201): key 0, class 7, line mode, verify before
forward, not pinned, encrypted, viral off, scrub priority 0. -/
def noExtent : ExtentEntry :=
  { base := 0, units := 0, key := 0, cls := 7, epoch := false, speculative := false, pin := false, encrypt := true,
    viral := false, scrub := 0, tag := 0, reserved := false }

def State.extentAt (s : State) (dpa : Nat) : ExtentEntry :=
  match s.extentOf dpa with
  | some i => s.key.extents.getD i noExtent
  | none => noExtent

def State.classAt (s : State) (dpa : Nat) : Nat := (s.extentAt dpa).cls % 8

/-! ## Regions and modes -/

/-- Region r is fenced (01 R18). -/
def State.isFenced (s : State) (r : Nat) : Bool := s.fab.fenced.getLsbD r

/-- Region r is restarting (01 R15). -/
def State.restarting (s : State) (r : Nat) : Bool :=
  s.fab.restarts.any (fun x => x.region == r)

/-- A block of region r is in reset (01 Table 1-2, step 3). -/
def State.blockResetting (s : State) (r : Nat) : Bool :=
  s.fab.blocks.any (fun e => e.1 / 64 == r && e.2.resetEnd.isNone)

/-- What is in flight inside region r waits: its tracker contexts are held, and replayed once the region or the block is ready
(01 R13, R27; log entry 65: the manual numbers no blocks, so a block in reset holds all of its region's work). -/
def State.regionHolds (s : State) (r : Nat) : Bool := s.restarting r || s.blockResetting r

/-- The rails of the card are on and no power-down runs: rails 1 to 13 enabled with power-good (11 R303). -/
def State.railsOn (s : State) : Bool := (s.pwr.rails.drop 1).all (fun r => r.enabled && r.pg)

/-- Rails 1 to 3, on which region G runs, are enabled with power-good (11 R306). -/
def State.coreOn (s : State) : Bool := ((s.pwr.rails.drop 1).take 3).all (fun r => r.enabled && r.pg)

/-- Region G runs: the card has started its firmware, its rails are on and the region is neither restarting nor fenced. -/
def State.gRuns (s : State) : Bool :=
  s.coreOn && (s.boot.running || s.boot.complete || s.boot.hold || s.boot.recovery) && !s.restarting 1 && !s.isFenced 1

/-- A CXL or tally log can be written: the tally store has been mounted at boot step 0x04 (12 R350), G runs, and neither a
dump nor a power-down runs, whose events are logged after the next start (09 R267, 11 R322). -/
def State.canLog (s : State) : Bool :=
  decide (4 < s.boot.step) && s.gRuns && s.pfl.dump.isNone && s.pwr.sequence != 2

/-- The link runs a CXL protocol, or only PCIe (02 R34, R35). -/
def State.cxlUp (s : State) : Bool := decide (2 ≤ s.link.protocol)
def State.pcieOnly (s : State) : Bool := decide (s.link.protocol = 1)

/-- Failed-read-only (05 R135). -/
def State.fro (s : State) : Bool := !s.med.froCauses.isEmpty

/-- Media Status (02 Table 2-22): 0 Not Ready, 1 Ready, 2 Error, 3 Disabled, as CXL 3.1 codes them in the memory device
status register (0 Not Ready, 1 Ready, 2 Error, 3 Disabled). -/
def State.mediaStatus (s : State) : Nat :=
  if s.link.viral || s.fab.fatal then 2
  else if s.key.erasing.isSome then 3
  else if s.pcieOnly then 0
  else if s.link.memActive && !s.link.scanRunning then 1
  else 0

/-- Reset Needed (02 Table 2-22), as CXL 3.1 codes it: 0 none, 2 a warm reset. -/
def State.resetNeeded (s : State) : Nat := if s.link.viral || s.fab.fatal then 2 else 0

/-- CXL.mem requests are served: Memory_Active is 1 and Media Status is Ready (02 R57). -/
def State.memReady (s : State) : Bool := s.link.memActive && decide (s.mediaStatus = 1)

/-- The card's timestamp (02 Table 2-17; 0 until the first Set Timestamp). -/
def State.time (s : State) : BitVec 64 :=
  match s.link.timestamp with
  | some (v, at_) => v + BitVec.ofNat 64 (s.now - at_)
  | none => 0

/-- Opcodes that the card implements (Tables 2-12 and 2-14), with whether the command changes state, and whether it runs in the
background. -/
def commandTable : List (Nat × Bool × Bool) :=
  [(0x0100, false, false), (0x0101, true, false), (0x0102, false, false), (0x0103, true, false), (0x0200, false, false),
   (0x0201, true, false), (0x0202, true, false), (0x0300, false, false), (0x0301, true, false), (0x0400, false, false),
   (0x0401, false, false), (0x4000, false, false), (0x4102, false, false), (0x4103, true, false), (0x4200, false, false),
   (0x4201, false, false), (0x4202, true, false), (0x4203, false, false), (0x4204, true, false)] ++
  [(0x4300, false, false), (0x4301, true, false), (0x4302, true, false), (0x4303, false, false), (0x4304, true, true),
   (0x4305, false, false), (0x4400, true, true), (0x4401, true, false), (0xC000, false, false), (0xC001, false, false),
   (0xC002, true, false), (0xC003, true, false), (0xC010, true, false), (0xC011, false, false), (0xC012, true, false)] ++
  [(0xC020, true, true), (0xC021, false, false), (0xC030, true, false), (0xC031, true, true), (0xC032, true, false),
   (0xC033, false, false), (0xC040, true, false), (0xC041, false, false), (0xC050, false, false), (0xC051, true, false),
   (0xC060, false, false), (0xC070, true, true), (0xC080, false, false), (0xC090, true, false)]

/-- A row write runs, or a mailbox command's own row writes are not all done (13 R355, 02 R44). -/
def State.tallyBusy (s : State) : Bool := s.tly.running.isSome || s.link.wait.isSome

/-- Latency added by the link rate (02 R32): 10 ns at 16 GT/s, 25 ns at 8 GT/s. -/
def State.linkAdd (s : State) : Nat := if s.link.rate = 1 then 25 else if s.link.rate = 2 then 10 else 0

/-! ## Map, wear and spare (06 R152, R169 to R173) -/

/-- The folio holds data: it is neither never-written nor discarded. -/
def MapEntry.held (e : MapEntry) : Bool := e.loc.isSome && !e.discarded

def State.heldFolios (s : State) : Nat := (s.map.entries.filter (fun e => e.2.held)).length
def State.beadFolios (s : State) : Nat :=
  ((s.map.entries ++ s.map.integrity).filter (fun e => e.2.held && e.2.bead)).length

/-- U in whole GiB, rounded up. -/
def State.uGib (s : State) : Nat := divUp s.heldFolios 65536

/-- Default, lowest and spare figures of the bead floor, in GiB (06 Table 6-12). -/
def State.floorDefault (s : State) : Nat := match s.part with | .p8192 => 64 | .p4096 => 32
def State.floorLow (s : State) : Nat := match s.part with | .p8192 => 16 | .p4096 => 8
def State.spareGib (s : State) : Nat := match s.part with | .p8192 => 446 | .p4096 => 175

/-- The lowest value that losses lower the floor to: pinned extents hold it up (06 R172). -/
def State.floorLimit (s : State) : Nat := max s.floorLow (divUp s.map.pinned 4)

/-- Tenths of a MiB in one GiB: losses are counted in them. -/
abbrev tenthsGib : Nat := 10240

/-- The starting spare cover and what is left of it (06 R171, R172). -/
def State.coverInitial (s : State) : Nat := (s.spareGib + 4 * (s.floorDefault - s.floorLimit)) * tenthsGib
def State.coverLeft (s : State) : Nat := s.coverInitial - s.map.losses
def State.sparePct (s : State) : Nat := s.coverLeft * 100 / s.coverInitial

/-- Placeable capacity, in folios and in whole GiB (06 R173). -/
def State.placeable (s : State) : Nat :=
  s.folios - divUp ((s.map.losses - s.coverInitial) * 65536) tenthsGib
def State.placeableGib (s : State) : Nat := s.placeable / 65536

def State.bead1 (b : StripeBlock) : Nat := largest (b.homes.map (·.2))

/-- A member block of a die as a key. -/
def memberKey (die ix : Nat) : Nat := die * 2 ^ 20 + ix

/-- Wear of a member block in ppm (06 R169). -/
def wearOf (s : State) (die blk slotMax : Nat) : Nat :=
  match s.med.dies[die]? with
  | some d => (3 * Tab.findD d.cycles4 blk 0 + Tab.findD d.cycles1 blk 0 + slotMax) / 300
  | none => 0

/-- The wear of every member block that holds data. -/
def State.wears (s : State) : List Nat :=
  s.med.blocks.flatMap (fun e =>
    e.2.members.map (fun m => wearOf s (4 * m.1 + e.1 / 1048576) m.2 (if e.2.bead then State.bead1 e.2 else 0)))

def State.meanWear (s : State) : Nat := if s.wears.isEmpty then 0 else total s.wears / s.wears.length

/-- Wears of the free member blocks that have been used: those never used have none. -/
def State.freeWears (s : State) : List Nat :=
  s.med.dies.zipIdx.flatMap (fun d => d.1.freed.map (fun b => wearOf s d.2 b (Tab.findD s.med.slotMax (memberKey d.2 b) 0)))
def State.maxWear (s : State) : Nat := largest (s.wears ++ s.freeWears)

def State.retiredDies (s : State) : Nat := (s.med.dies.filter (fun d => d.retired)).length

/-- MED_DIE_STATE.state of die i (05 Table 5-18). -/
def State.dieState (s : State) (i : Nat) : Nat :=
  if !s.fitted i then 1
  else
    let d := s.med.dies.getD i Die.atReset
    if d.retired then (if d.rebuilt then 3 else 2)
    else if s.isFenced (mediaRegion (dieChannel i)) then 4
    else if s.med.gated.getLsbD (dieChannel i) then 5
    else 0

/-! ## Stripe blocks and the reads that wait on dies (05 "Stripes", R124; 06 R143) -/

def State.die (s : State) (i : Nat) : Die := s.med.dies.getD i Die.atReset
abbrev perGroup : Nat := 1048576
def blkKey (g b : Nat) : Nat := g * perGroup + b
def StripeBlock.blank : StripeBlock :=
  { bead := false, w := 16, members := [], toReset := [], sealedAt := none, isOpen := false, nextSlot := 0, homes := [], scrub := 0,
    cMax := 0, cBin := 0, cDie := 0, writeCal := 0, band := 0, margin := 5376, due := none, dueSeq := 0, oldStamp := false,
    integrity := false }
def State.block (s : State) (g b : Nat) : StripeBlock := Tab.findD s.med.blocks (blkKey g b) StripeBlock.blank
/-- Data sector n of a stripe block: its stripe position and the channel of its member (06 R143). -/
def sectorPlace (b : StripeBlock) (n : Nat) : Nat × Nat :=
  let w := b.members.length
  let k := n / (w - 1)
  let j := n % (w - 1)
  (k, (b.members.getD (if j < k % w then j else j + 1) (0, 0)).1)

/-- Die of sector DPA[13:8] of the folio at a location. -/
def State.dieAt (s : State) (l : Loc) (sector : Nat) : Nat :=
  4 * (sectorPlace (s.block l.group l.block) (64 * l.index + sector)).2 + l.group

/-- Where line 0 of the folio at a location is kept in `Media.store` / 256, and in `Media.secs` / 64. -/
def locKey (l : Loc) : Nat := blkKey l.group l.block * 1024 + l.index

/-- Where sector n of the folio at a location is kept in `Media.secs`: the data sectors of a stripe block in stripe order. -/
def sectorKey (l : Loc) (n : Nat) : Nat := locKey l * 64 + n
def State.sectorAt (s : State) (l : Loc) (n : Nat) : Option Sector := Tab.find s.med.secs (sectorKey l n)

/-- The die that a fill's sense waits on: its own die, also where a reconstruction races the wake of its channel (05 R137). -/
def State.fillDie (s : State) (f : Fill) : Option Nat :=
  if (f.src == .one || f.src == .four || f.raced) && f.phase == .issued then f.loc.map (fun l => s.dieAt l (f.l.toNat % 64)) else none

/-- Fills that wait on a die. -/
def State.queuedOn (s : State) (i : Nat) : Nat := (s.cch.fills.filter (fun f => s.fillDie f == some i)).length

/-- A folio's stripe block has a member on die i of group g (05 R133). -/
def State.onDie (s : State) (g i : Nat) (l : Loc) : Bool :=
  l.group == g && (s.block g l.block).members.any (fun m => 4 * m.1 + g == i)

/-- Folios with a copy in a stripe block of group g that has a member on die i. -/
def State.toRebuild (s : State) (g i : Nat) : List Nat :=
  (s.map.entries.filter (fun e => match e.2.loc with | some l => s.onDie g i l | none => false)).map (·.1) ++
    (s.ring.shadows.filter (fun e => s.onDie g i e.2.loc)).map (·.1)

/-- MED_DIE_STATE.op (05 Table 5-18). -/
def State.dieOp (s : State) (i : Nat) : Nat :=
  match (s.die i).op with
  | some o => if o.suspended then 5 else o.op
  | none => b2n (s.queuedOn i != 0)

/-! ## Firmware and image (12) -/

def State.runFw (s : State) : FwImage := (s.boot.fw.getD s.boot.fwSlot ⟨0, noFw⟩).img

/-- The boot header copy in use (12 R326): the valid one with the higher sequence, A where both are equal. -/
def Boot.header (b : Boot) : Option BootHeader :=
  match b.headers with
  | [x, y] =>
    if x.valid && y.valid then (if x.sequence < y.sequence then some y else some x)
    else if x.valid then some x
    else if y.valid then some y
    else none
  | _ => none

def Boot.fwNext (b : Boot) : Nat := match b.header with | some h => h.fwNext | none => 0
def Boot.fwGood (b : Boot) : Nat := match b.header with | some h => h.fwGood | none => 0
def Boot.cfgNext (b : Boot) : Nat := match b.header with | some h => h.cfgNext | none => 0
def Boot.pending (b : Boot) : Bool := match b.header with | some h => h.pending | none => false

/-- The slot not in use; under the fallback the slot that cfg_next does not name (12 R337). -/
def Boot.otherCfg (b : Boot) : Nat := if b.cfgSource < 2 then 1 - b.cfgSource else 1 - b.cfgNext

/-- Commands that the dies of one channel hold (13 R378). -/
def State.channelDepth (s : State) (c : Nat) : Nat :=
  (([0, 1, 2, 3].map (fun d => (s.med.dies.getD (4 * c + d) Die.atReset).op)).filter (·.isSome)).length

/-- TQ_CHQ of index k: channels 4k to 4k + 3, 16 bits each. -/
def State.queueDepth (s : State) (k : Nat) : Nat :=
  s.channelDepth (4 * k) + s.channelDepth (4 * k + 1) * 2 ^ 16 + s.channelDepth (4 * k + 2) * 2 ^ 32 +
    s.channelDepth (4 * k + 3) * 2 ^ 48

end Sys2Proof.Machine
end

