-- ==== Sys2Proof/Machine/Flags.lean ====
section
/-! DEFINITION. The computed conditions of the card: staged data, throttle levels, the deliverable envelope and its
causes, class latencies, health flags and the card state. -/

namespace Sys2Proof.Machine

/-! ## Staged data (03 R69, R70; 04) -/

/-- Line numbers DPA[42:6] of the dirty 64-byte lines of a cached copy. -/
def Copy.dirtyLines (c : Copy) : List Nat :=
  ([0, 1, 2, 3].filter (fun i => c.dirty.getLsbD i)).map (fun i => c.l.toNat * 4 + i)

/-- Every dirty line that the near cache, the board cache and the two eviction buffers hold, each once. -/
def State.dirtyLines (s : State) : List Nat :=
  (s.cch.near.flatMap (fun e => e.2.copy.dirtyLines) ++ s.cch.evict.flatMap (fun e => e.copy.dirtyLines) ++
    s.cch.board.flatMap (fun e => e.2.copy.dirtyLines) ++ s.cch.wb.flatMap (fun e => e.copy.dirtyLines)).eraseDups

/-- Total staged, in bytes. -/
def State.staged (s : State) : Nat := 64 * s.dirtyLines.length

/-- Bytes staged by class n. -/
def State.stagedOf (s : State) (n : Nat) : Nat := 64 * (s.dirtyLines.filter (fun k => s.classAt (k * 64) == n)).length

/-! ## Classes (03 R64 to R71) -/

def State.classEntry (s : State) (n : Nat) : ClassEntry := s.run.classes.getD n defaultClass

def ClsState.init : ClsState := ⟨0, 0, false, [], 0, none, 0⟩
def State.clsState (s : State) (n : Nat) : ClsState := s.qos.cls.getD n ClsState.init

def bestEffort (e : ClassEntry) : Bool := e.guarRead == 0 && e.guarWrite == 0 && e.floor == 0

/-- The staging floor of a class counts 0 while it is suspended (03 R70, R76). -/
def State.floorOf (s : State) (n : Nat) : Nat := if (s.clsState n).suspended then 0 else (s.classEntry n).floor

/-- Contexts that class n holds. -/
def State.outstanding (s : State) (n : Nat) : Nat := (s.qos.ctxs.filter (fun c => c.req.cls == n)).length

/-- Value at the 99th percentile of a list of latencies (nearest rank). -/
def rank99 (l : List Nat) : Nat :=
  let q := l.insertionSort (· ≤ ·)
  if q.isEmpty then 0 else q.getD (divUp (99 * q.length) 100 - 1) 0

/-- The p99 as the histogram gives it: its bins resolve 3 % or finer (03 R65), and where they lie is left open. -/
def p99Of (l : List Nat) : Nat := rank99 l + Config.binSlack (rank99 l) % (rank99 l * 3 / 100 + 1)

/-- Class window in ns. -/
def State.windowNs (s : State) (n : Nat) : Nat := (s.classEntry n).window * 100000

/-- The trailing p99 of class n: over the completions of the last class window. -/
def State.trailing (s : State) (n : Nat) : Nat :=
  p99Of (((s.clsState n).recent.filter (fun m => decide (s.now < m.at_ + s.windowNs n))).map (·.ns))

/-! ## Throttle levels (11 R314 to R317, 01 R22) -/

def State.kindLevel (s : State) (k : Nat) : KindLevel := s.thm.levels.getD k ⟨false, false, false, false⟩

/-- Throttle level 0 to 2 that kind k has entered (0 controller, 1 medium, 2 GDDR7, 3 store). -/
def KindLevel.throttle (l : KindLevel) : Nat := if l.t2 then 2 else if l.t1 then 1 else 0
def State.kindThrottle (s : State) (k : Nat) : Nat := (s.kindLevel k).throttle

def State.brakeOn (s : State) : Bool := s.pwr.brake.isSome

def State.asicThrottle (s : State) : Nat :=
  max (max (s.kindThrottle 0) (s.kindThrottle 2))
    (max (if s.fab.hot30.isEmpty then 0 else 1) (if s.brakeOn then 2 else 0))

def State.mediaThrottle (s : State) : Nat := max (s.kindThrottle 1) (if s.brakeOn then 2 else 0)

/-- What the ASIC throttle makes of the GDDR7 devices (11 Table 11-10): the refresh rate, doubled from level 1 on, and the bandwidth
that board-cache accesses may take in MB/s, of the peak of 04 R108 at the devices' rates. That single accesses keep within it is
timing, which the model leaves out (log entry 92). -/
def State.refreshFactor (s : State) : Nat := if s.asicThrottle = 0 then 1 else 2
def State.bufferMbps (s : State) : Nat :=
  let peak := total (s.cch.gddr.map (fun d => 4000 * d.rate))
  peak * (if s.asicThrottle = 0 then 100 else if s.asicThrottle = 1 then 80 else 50) / 100

/-- Share of any 1 ms that the media throttle leaves each die, in percent: writes, programs and resets, and senses (11 Table 11-10). -/
def State.opShare (s : State) : Nat := if s.mediaThrottle = 0 then 100 else if s.mediaThrottle = 1 then 75 else 40
def State.senseShare (s : State) : Nat := if s.mediaThrottle = 0 then 100 else if s.mediaThrottle = 1 then 85 else 60

/-! ## The deliverable envelope (03 R72, Tables 3-5 and 3-12) -/

/-- A dump slot is draining. -/
def State.draining (s : State) : Bool := s.pfl.slots.any (fun d => d.st == 3)

/-- Some media region is fenced. -/
def State.mediaFenced (s : State) : Bool := decide (s.fab.fenced.toNat / 32 ≠ 0)

def readPercents (s : State) : List Nat :=
  [if s.retiredDies = 0 then 100 else 90,
   if s.asicThrottle = 0 then 100 else if s.asicThrottle = 1 then 80 else 50,
   if s.mediaThrottle = 0 then 100 else if s.mediaThrottle = 1 then 85 else 60,
   if s.mediaFenced then 75 else 100]

def writePercents (s : State) : List Nat :=
  [if s.retiredDies = 0 then 100 else 90,
   if s.asicThrottle = 0 then 100 else if s.asicThrottle = 1 then 80 else 50,
   if s.mediaThrottle = 0 then 100 else if s.mediaThrottle = 1 then 75 else 40,
   if s.mediaFenced || s.fro then 0 else 100]

def product (l : List Nat) : Nat := l.foldl (· * ·) 1

/-- R_env in MB/s, 0 until Memory_Active; the product is rounded down (log entry 81). -/
def State.envRead (s : State) : Nat :=
  if !s.link.memActive then 0
  else
    let base := min s.link.cdat.readMbps (match s.part with | .p8192 => 112000 | .p4096 => 60000)
    base * product (readPercents s) / 100 ^ 4

/-- W_env in MB/s, rounded down. -/
def State.envWrite (s : State) : Nat :=
  if !s.link.memActive then 0
  else
    let base := min s.link.cdat.writeMbps (match s.part with | .p8192 => 12000 | .p4096 => 6000)
    let w := base * product (writePercents s) * min s.pfl.budget (4 * gib) / (100 ^ 4 * (4 * gib))
    if s.draining then w - 5000 else w

/-- QOS_ENV_CAUSE (03 Table 3-12). -/
def State.envCause (s : State) : Nat :=
  b2n (decide (0 < s.retiredDies)) + 2 * s.asicThrottle + 8 * s.mediaThrottle + 32 * b2n s.mediaFenced +
    64 * b2n (decide (s.pfl.budget < 4 * gib)) + 128 * b2n s.draining +
    256 * b2n (decide (s.link.cdat.readMbps < 112000)) + 512 * b2n s.fro + 65536 * s.retiredDies

/-- Sums of the guarantees of the classes in a list. -/
def State.sumRead (s : State) (l : List Nat) : Nat := total (l.map (fun n => (s.classEntry n).guarRead))
def State.sumWrite (s : State) (l : List Nat) : Nat := total (l.map (fun n => (s.classEntry n).guarWrite))

/-- The classes whose guarantees hold. -/
def State.unsuspended (s : State) : List Nat := (List.range 8).filter (fun n => !(s.clsState n).suspended)

def State.fits (s : State) (l : List Nat) (r w : Nat) : Bool :=
  decide (s.sumRead l ≤ r) && decide (s.sumWrite l ≤ w)

/-! ## Internal classes and GDDR7 (03 Table 3-8, 04 R97) -/

/-- Encryptions of a key at which its rotation begins: 2^36 before the limit of 2^40 (08 R207). -/
def rotationUses : Nat := 2 ^ 40 - 2 ^ 36

/-- A key is past its rotation threshold (08 R222): 2^40 - 2^36 uses. -/
def State.keyPast (s : State) : Bool := s.key.slots.any (fun e => decide (rotationUses ≤ e.2.uses) && e.2.st == 1)

/-- Rank of a class: its level above every suspended class. -/
def State.classRank (s : State) (n : Nat) : Nat := if (s.clsState n).suspended then 0 else (s.clsState n).level + 1

/-- Order in which the medium is granted (03 R68): host classes by level, a suspended one last (03 R76), then the internal
classes. -/
def State.grantRank (s : State) (cls : Nat) : Nat := if 8 ≤ cls then 0 else s.classRank cls + 1

/-- The retained journal has reached the size at which the unsealed checkpoint takes the reclaim floor's place (06 R167). -/
def State.ckptFirst (s : State) : Bool :=
  decide ((match s.part with | .p8192 => 1152 | .p4096 => 576) * mib ≤ s.map.retained)

/-- The floor of internal class m is in force (0 reclaim, 1 migration, 2 calibration, 3 scrub, 4 carry, 5 replay-home). -/
def State.floorActive (s : State) (m : Nat) : Bool :=
  match m with
  | 0 => s.map.floorOn != 0 && !s.ckptFirst
  | 1 => s.link.memActive
  | 4 => s.keyPast
  | 5 => s.draining
  | _ => false

/-- The page of a location is still open or programming. -/
def State.pageOpen (s : State) (l : Loc) : Bool :=
  let w := (s.block l.group l.block).members.length
  let p := l.index / (w - 1)
  !(s.block l.group l.block).bead &&
    ((Tab.find s.map.pages l.group).any (fun q => q.block == l.block && q.page == p) ||
      s.map.progs.any (fun q => q.group == l.group && q.block == l.block && q.page == p))

/-- Moves lose against a newer map change of their folio (06 R163, R158). -/
def isMove (kind : Nat) : Bool := [2, 3, 4, 6, 7, 8].contains kind

/-- Contexts of internal class m (03 Table 3-8). -/
def icLimit (m : Nat) : Nat := [256, 192, 64, 64, 192, 256].getD m 0

/-- The class of a folio's placement: 4 of a sweep's folio whose boundary save waits for it, 1 of a move, 5 of a folio of the overlay,
else 8, the host's. -/
def State.homeClass (s : State) (f : Nat) (h : Home) : Nat :=
  if (match s.key.sweep with
      | some w => w.units.contains (f / 16384) && decide (w.saved / 16384 ≤ f) && decide (f < w.boundary / 16384)
      | none => false) then 4
  else if isMove h.kind then 1
  else if s.pfl.overlay.any (fun o => o.1 / 256 == f) then 5
  else 8

/-- Folios that internal class m works on now, no more than its contexts: copies of reclaim that no complete page holds, placements
that are not committed, refreshes. Calibration and scrub hold a context within one command (log entry 33). -/
def State.iclsUse (s : State) (m : Nat) : Nat :=
  let homes := (s.map.homes.filter (fun e => !e.2.committed && s.homeClass e.1 e.2 == m)).length
  min (icLimit m) (match m with
    | 0 => (s.map.reclaim.flatMap (fun e => if e.2.phase = 0 then e.2.copies.filter (fun c => s.pageOpen c.2) else [])).length
    | 1 => homes + (s.med.updates.filter (fun u => (Tab.find s.map.homes u.folio).isNone)).length
    | 4 | 5 => homes
    | _ => 0)

/-- Internal class m has a free context. -/
def State.icFree (s : State) (m : Nat) : Bool := decide (s.iclsUse m < icLimit m)

/-- Bandwidth in MB/s that internal class m has moved over the last 1 ms, rounded down (03 R71, log entry 81). -/
def State.movedMbps (s : State) (m : Nat) : Nat :=
  total ((s.qos.moved.filter (fun e => e.1 == m && decide (s.now < e.2.1 + msec))).map (·.2.2)) / 1000

/-- Internal contexts in use. -/
def State.icInUse (s : State) : Nat := total ((List.range 6).map s.iclsUse)

/-- Log2 of the board slots per device: the smallest density decides (04 R97). -/
def State.slotsLog2 (s : State) : Nat :=
  let d := (s.cch.gddr.map (·.density)).foldl min 32
  if d ≤ 16 then 21 else if d ≤ 24 then 22 else 23

/-- Board-cache area of one device in MiB (04 Table 4-4). -/
def State.boardArea (s : State) : Nat := if s.slotsLog2 = 23 then 2816 else if s.slotsLog2 = 22 then 1792 else 768

/-- An entry of the near eviction buffer is still held: its clean offer has not been declined at an earlier time (04 Table 4-8). -/
def State.heldEvict (s : State) (e : EvictEntry) : Bool :=
  match e.declinedAt with | some t => decide (s.now ≤ t) | none => true

/-- Board index of a 256-byte line: the index takes bits from DPA[8] up (04 R97). -/
def State.boardIx (s : State) (l : Nat) : Nat := l % 2 ^ (s.slotsLog2 + 2)

/-- Near index of a 256-byte line, DPA[24:8] (04 R87). -/
def nearIx (l : Nat) : Nat := l % 2 ^ 17

/-! ## Health (13 R381, Table 13-12) and the card state (03 R84) -/

/-- A slot holds what no start has indexed yet: a dump, a log, or a draining slot whose index is lost. A start in PCIe-only
mode leaves it so (02 R35, 09 R255). -/
def State.replayDue (s : State) : Bool :=
  s.pfl.slots.zipIdx.any (fun e => e.1.st == 2 || (e.1.st == 4 && s.pfl.wt.isNone) || (e.1.st == 3 && s.pfl.overlaySlot != some e.2))

/-- The card runs in write-through mode (09 R260). -/
def State.writeThrough (s : State) : Bool := s.pfl.wt.isSome

def State.suspectAny (s : State) : Bool :=
  s.obs.any (fun e => decide (PFL_SUSPECT.suspect.key 0 ≤ e.1) && decide (e.1 ≤ PFL_SUSPECT.suspect.key 63) &&
    e.1 % 64 == 0 && e.2 != 0)

/-- The causes of the health flags as they stand now, bit by bit. -/
def State.healthBits (s : State) : List Bool :=
  [decide (s.sparePct < 25), decide (s.sparePct < 10), decide (s.placeable < s.folios),
   s.thm.levels.any (fun l => l.warning || l.t1 || l.t2 || l.shutdown),
   decide (0 < s.asicThrottle) || decide (0 < s.mediaThrottle), s.pfl.health == 1, s.pfl.health == 2, s.writeThrough,
   s.cal.overLimit, s.pfl.dirtyLast, s.suspectAny, s.map.overflow.isSome, s.fro, decide (0 < s.retiredDies),
   s.med.rebuild.isSome, s.fab.fenced != 0, s.boot.alternates, s.boot.cfgSource == 2 && decide (3 < s.boot.step),
   s.cal.provisional, decide (s.tly.spare < 64), s.recd.full, s.thm.sensors.any (fun x => x.broken), s.ring.pending,
   s.ring.cardLocal]

def State.healthFlags (s : State) : BitVec 24 :=
  BitVec.ofNat 24 ((s.healthBits.zipIdx.map (fun p => b2n p.1 * 2 ^ p.2)).foldl (· + ·) 0)

/-- Get Card Status Summary byte 2 (03 Table 3-10). Where several states hold, the one that stops the most service is
given. -/
def State.cardState (s : State) : Nat :=
  if s.link.viral || s.fab.fatal then 6
  else if s.key.erasing.isSome then 4
  else if s.pcieOnly then 5
  else if !s.link.memActive then 0
  else if s.fro then 3
  else if s.writeThrough then 2
  else 1

end Sys2Proof.Machine
end

