-- ==== Sys2Proof/Machine/Age.lean ====
section
/-! DEFINITION. Computed conditions that registers show and several families use: thermal age and age bins (07 R178 to
R186), sensors and regions (11 Table 11-8, 01 Tables 1-3 and 1-4), the store's energy (09 R237), the sweep's progress. -/

namespace Sys2Proof.Machine

/-! ## Thermal age (07 R178 to R180) -/

/-- 2^(r / 10) in 1/65536, r from 0 to 9, rounded down (log entry 10). -/
def ageSteps : List Nat := [65536, 70239, 75281, 80684, 86475, 92681, 99334, 106463, 114104, 122294]

/-- Equivalent seconds that one second at t °C adds, in 1/65536: 2^((t - 40) / 10). -/
def ageRate (t : Int) : Nat :=
  let d := (t - 40) / 10
  let r := ((t - 40) % 10).toNat
  let f := ageSteps.getD r 0
  if 0 ≤ d then f * 2 ^ d.toNat else f / 2 ^ (-d).toNat

/-- The drift ledger as points (calendar, accumulator), oldest first. -/
def Die.ledger (d : Die) : List (Nat × Nat) :=
  d.daily.map (fun e => (e.1 * 86400, e.2 * 64)) ++ d.hourly.map (fun e => (e.1 * 3600, e.2 * 64))

/-- Linear interpolation at calendar w between ledger points; past the last point its value, before the first 0. -/
def interpolate : List (Nat × Nat) → Nat → Nat
  | [], _ => 0
  | [p], w => if w < p.1 then 0 else p.2
  | p :: q :: r, w =>
    if w < p.1 then 0
    else if w < q.1 then p.2 + (q.2 - p.2) * (w - p.1) / (q.1 - p.1)
    else interpolate (q :: r) w

/-- Accumulator of a die in whole equivalent seconds. -/
def Die.acc (d : Die) : Nat := d.age / 65536

/-- Thermal age of what was written on a die at calendar w. -/
def Die.ageOf (d : Die) (w : Nat) : Nat := d.acc - interpolate d.ledger w

/-- A write time before the ledger's first entry. -/
def Die.beforeLedger (d : Die) (w : Nat) : Bool :=
  match d.ledger with
  | [] => false
  | p :: _ => decide (w < p.1)

/-- Age bin: the number of lower edges 100 × 3^(b - 1) that the age has reached. -/
def binOf (age : Nat) : Nat := ((List.range 15).filter (fun b => decide (100 * 3 ^ b ≤ age))).length

/-- Write band of a temperature. -/
def bandOf (t : Int) : Nat := if t < 35 then 0 else if t < 60 then 1 else 2

/-! ## Threshold-table entries (07 R183, R184) -/

def ThrEntry.blank : ThrEntry :=
  { offsets := List.replicate 15 0, up := List.replicate 15 0, down := List.replicate 15 0, rate := 0, recent := [],
    clamped := List.replicate 15 0 }

/-- Key of a table entry: band 0 to 2 of the four-bead table, band 3 for the one-bead table. -/
def thrKey (die band bin : Nat) : Nat := 64 * die + 16 * band + bin

def State.thrEntry (s : State) (die band bin : Nat) : ThrEntry := Tab.findD s.cal.thr (thrKey die band bin) ThrEntry.blank

/-- Stripe blocks that the tables and margins count: sealed four-bead ones, and every one-bead one (log entry 31). -/
def StripeBlock.counted (b : StripeBlock) : Bool := b.bead || b.sealedAt.isSome

/-- Sectors that an entry has reported in the last 6 hours of power-on, of which `now` is the present second. -/
def ThrEntry.window (e : ThrEntry) (now : Nat) : Nat :=
  total ((e.recent.filter (fun x => decide (now < x.1 + 21600))).map (·.2))

/-- The sector of stripe block k that was written first: its stamps tell the block's age and band (log entry 31). -/
def State.oldest (s : State) (k : Nat) : Option Sector :=
  (s.med.secs.filter (fun e => e.1 / 65536 == k)).foldl (fun m e =>
    match m with
    | none => some e.2
    | some y => some (if e.2.writeTime < y.writeTime then e.2 else y)) none

/-- Write time of a stripe block, and its band as its table entries are numbered; of a block that holds no sector, those it was
taken or sealed with. -/
def State.blockTime (s : State) (k : Nat) (x : StripeBlock) : Nat :=
  match s.oldest k with | some y => y.writeTime | none => x.writeCal
def State.blockBand (s : State) (k : Nat) (x : StripeBlock) : Nat :=
  if x.bead then 3 else match s.oldest k with | some y => bandOf y.writeTemp | none => x.band

/-- The entry of stripe block k on die i. -/
def State.blockEntry (s : State) (k i : Nat) (x : StripeBlock) : Nat :=
  thrKey i (s.blockBand k x) (binOf ((s.die i).ageOf (s.blockTime k x)))

/-- The entry that a sense of sector n at a location uses: that of the sector's own age bin and write band (07 R183). -/
def State.sectorEntry (s : State) (l : Loc) (n : Nat) : Nat :=
  let i := s.dieAt l n
  let x := s.block l.group l.block
  match s.sectorAt l n with
  | some y => thrKey i (if x.bead then 3 else bandOf y.writeTemp) (binOf ((s.die i).ageOf y.writeTime))
  | none => s.blockEntry (blkKey l.group l.block) i x

/-- Die of a member of stripe block number k = group × 2^20 + block. -/
def memberDie (k : Nat) (m : Nat × Nat) : Nat := 4 * m.1 + k / 1048576

/-- Entries of die i that hold data. -/
def State.heldEntries (s : State) (i : Nat) : List Nat :=
  ((s.med.blocks.filter (fun e => e.2.counted && e.2.members.any (fun m => memberDie e.1 m == i))).map (fun e =>
    s.blockEntry e.1 i e.2)).eraseDups

/-- Thin entries of die i: they hold data and have reported fewer than 2,048 sectors in the window. -/
def State.thinOf (s : State) (i : Nat) : Nat :=
  if s.fitted i then
    ((s.heldEntries i).filter (fun k => decide ((Tab.findD s.cal.thr k ThrEntry.blank).window s.cal.powerOnS < 2048))).length
  else 0

/-- Stripe blocks with margin below 10 that have a member on die i. -/
def State.lowMargin (s : State) (i : Nat) : Nat :=
  (s.med.blocks.filter (fun e => e.2.counted && decide (e.2.margin < 2560) &&
    e.2.members.any (fun m => memberDie e.1 m == i))).length

/-! ## Sensors and regions -/

/-- Kind of a sensor: 0 controller, 1 medium, 2 GDDR7, 3 store, 4 none. -/
def sensorKind (i : Nat) : Nat := if i < 24 then 0 else if i < 56 then 1 else if i < 60 then 2 else if i < 62 then 3 else 4

/-- The sensor is fitted. -/
def State.sensorFitted (s : State) (i : Nat) : Bool := !(sensorKind i == 1 && i % 2 == 1 && decide (s.groups = 2))

/-- Sensors of a region index. -/
def regionSensors (r : Nat) : List Nat :=
  [[0], [1, 2], [3, 4, 5, 6], [7, 8, 9], [10, 11, 12, 13, 14, 15], [16, 17], [18, 19], [20, 21], [22, 23]].getD r []

def State.sensor (s : State) (i : Nat) : Sensor := s.thm.sensors.getD i Sensor.atReset

/-- Value of a sensor for warning and throttle levels. -/
def State.usedOf (s : State) (i : Nat) : Int := (s.sensor i).used

def State.limit (s : State) (k : Nat) : LimitEntry := s.thm.limits.getD k ⟨0, 0, 0, 0, 0⟩

def absLimit (e : LimitEntry) : Nat := e.shutdown + 8

def maxInt (l : List Int) : Option Int :=
  l.foldl (fun m x => match m with | none => some x | some y => some (if y < x then x else y)) none

/-- A region's temperature: the highest used value among its sensors. -/
def State.regionTemp (s : State) (r : Nat) : Option Int :=
  maxInt (((regionSensors r).filter (fun i => (s.sensor i).sampled)).map s.usedOf)

/-- Sensor of a die (11 R310). -/
def dieSensor (i : Nat) : Nat := 24 + 2 * (i / 4) + i % 4 / 2

/-- Highest pace code that the ASIC throttle level allows (11 Table 11-10). -/
def State.paceCap (s : State) : Nat := if s.asicThrottle = 0 then 35 else if s.asicThrottle = 1 then 25 else 15

/-! ## The store's energy (09 R237, R242) -/

/-- Floor voltage in mV, of an ESR in 0.1 mΩ: 12.0 V + 5.1 A × ESR. -/
def floorMv (esr : Nat) : Nat := 12000 + 51 * esr / 100

/-- Usable energy in mJ between mv and the floor, of a capacitance in 0.1 mF. -/
def storeEnergy (cap esr mv : Nat) : Nat := cap * (mv * mv - floorMv esr * floorMv esr) / 20000000

/-- d(T) in percent. -/
def derate (t : Int) : Nat := if 15 ≤ t then 100 else if 5 ≤ t then 90 else 80

/-! ## Card power (14 R392, R398, R399), in 0.1 W -/

/-- Power that a current in 0.1 A draws at a voltage in mV. -/
def drawn (mv tenths : Nat) : Nat := mv * tenths / 1000

/-- The most the card draws from its inputs: 45 W from 2 ms after the brake, 95 W else. -/
def State.powerCap (s : State) : Nat :=
  match s.pwr.brake with
  | some t => if t + 2 * msec ≤ s.now then 450 else 950
  | none => 950

/-- The most that the card draws beside its charger: 70 W until Memory_Active. -/
def State.loadCap (s : State) : Nat := if s.link.memActive then s.powerCap else min 700 s.powerCap

/-- A power-down whose rails have all done their part lasts until its latest off_delay plus pg_timeout (11 R304). -/
def State.downEnd (s : State) : Nat :=
  s.pwr.common + 10000 * largest ((s.pwr.table.drop 1).map (fun e => e.off + e.pg))
def State.downRuns (s : State) : Bool :=
  s.pwr.sequence == 0 && (s.pwr.rails.drop 1).any (fun r => decide (s.pwr.common ≤ r.disabledAt) && decide (0 < r.disabledAt)) &&
    decide (s.now < s.downEnd) && !(s.pwr.rails.drop 1).any (·.enabled)

/-- The store's charge voltage in mV: lower at its throttle level (09 R238). -/
def State.chargeVoltage (s : State) : Nat := if (s.thm.levels.getD 3 ⟨false, false, false, false⟩).t1 then 22000 else 24000

/-- What the slot and the auxiliary input give, and the charger's part of the latter. Each stays within Table 14-9; a dump draws
nothing from the inputs (11 R307); the charger, of 25 W, or 5 W under the brake, yields first,
and gives nothing to a store above its charge voltage. -/
def State.slotPower (s : State) : Nat :=
  if s.pfl.dump.isSome then 0
  else min (min s.loadCap (drawn s.pwr.inputs.slot12 55 + drawn s.pwr.inputs.v33 30)) (Config.measure 0 s.now)
def State.auxLoad (s : State) : Nat :=
  if s.pfl.dump.isSome then 0
  else min (min (s.loadCap - s.slotPower) (drawn s.pwr.inputs.aux12 70)) (Config.measure 1 s.now)
def State.chargerPower (s : State) : Nat :=
  if s.pfl.charging && s.pfl.dump.isNone && decide (s.pfl.vstore ≤ s.chargeVoltage) then
    min (min (if s.pwr.brake.isSome then 50 else 250) (Config.measure 2 s.now))
      (min (s.powerCap - s.slotPower - s.auxLoad) (drawn s.pwr.inputs.aux12 70 - s.auxLoad))
  else 0

/-! ## The carry sweep (08 R221) -/

/-- Folios of the covered units, and those that the boundary has not passed. -/
def Sweep.folios (w : Sweep) : Nat := w.units.length * 16384
def Sweep.left (w : Sweep) : Nat := total (w.units.map (fun u => min 16384 ((u + 1) * 16384 - w.boundary / 16384)))

/-- Milliseconds as registers and events show them: all ones for infinite. -/
def msOf (t : Option Nat) : Nat := match t with | some n => n | none => 65535

end Sys2Proof.Machine
end

