-- ==== Sys2Proof/Machine/Live.lean ====
section
/-! DEFINITION. The register fields that mirror state held elsewhere: what each reads, block by block. A field that no
list here names is held in `State.obs`. -/

namespace Sys2Proof.Machine

/-- The value that the list gives for field f. -/
def pick (f : Fld) : List (Fld × Nat) → Option Nat
  | [] => none
  | (g, v) :: r => if g.off = f.off ∧ g.lo = f.lo then some v else pick f r

/-- ID block (02 Tables 2-8 to 2-11). -/
def liveId (s : State) : List (Fld × Nat) :=
  [(ID_PRODUCT.capacity_gib, s.capGib), (ID_PRODUCT.dies_per_channel, s.groups),
   (ID_FIRMWARE.fw_version, if s.boot.step = 0 then 0 else s.runFw.version),
   (ID_FIRMWARE.rollback_count, s.boot.rollback), (ID_FIRMWARE.config_slot, s.boot.cfgSource % 2),
   (ID_FIRMWARE.fw_slot, s.boot.fwSlot), (ID_LINK.protocol, s.link.protocol), (ID_LINK.rate, s.link.rate),
   (ID_LINK.width, s.link.width), (ID_LINK.flit256, b2n s.link.flit256),
   (ID_LINK.ide_active, b2n (s.link.ideMem.isSome && !s.link.ideInsecureMem)), (ID_LINK.degraded, b2n s.link.degraded),
   (ID_SERIAL.serial, s.serial.toNat)]

/-- MED registers (05 R140). -/
def liveMed (s : State) (i : Nat) : List (Fld × Nat) :=
  let d := s.med.dies.getD i Die.atReset
  let present := s.fitted i
  [(MED_GEOMETRY.dies_per_channel, s.groups), (MED_GEOMETRY.groups, s.groups),
   (MED_STATE.rebuilding, match s.med.rebuild with | some r => 2 ^ r.group | none => 0),
   (MED_STATE.second_loss, s.med.secondLoss.toNat), (MED_STATE.retired_dies, s.retiredDies),
   (MED_STATE.fenced, s.fab.fenced.toNat / 32), (MED_STATE.failed_read_only, b2n s.fro),
   (MED_ALLOW.g0, s.med.allow.getD 0 0), (MED_ALLOW.g1, s.med.allow.getD 1 0),
   (MED_ALLOW.g2, if s.groups < 4 then 0 else s.med.allow.getD 2 0),
   (MED_ALLOW.g3, if s.groups < 4 then 0 else s.med.allow.getD 3 0),
   (MED_REBUILD.folios_remaining, match s.med.rebuild with | some r => (s.toRebuild r.group r.die).length | none => 0),
   (MED_REBUILD.die, match s.med.rebuild with | some r => r.die | none => 0),
   (MED_REBUILD.group, match s.med.rebuild with | some r => r.group | none => 0),
   (MED_REBUILD.active, b2n s.med.rebuild.isSome), (MED_GATE.gated, s.med.gated.toNat),
   (MED_DIE_STATE.retired_blocks, if present then d.retiredBlocks else 0),
   (MED_DIE_STATE.op, s.dieOp i),
   (MED_DIE_STATE.op_suspends, match d.op with | some o => o.suspends | none => 0),
   (MED_DIE_STATE.state, s.dieState i)]

/-- Free four-bead stripe blocks of group g as MAP_FREE shows them: 0 until the map is rebuilt at boot step 0x08. -/
def State.freeShown (s : State) (g : Nat) : Nat :=
  if g < s.groups && (s.boot.complete || (s.boot.running && decide (9 ≤ s.boot.step))) then s.med.free.getD g 0 else 0

/-- MAP registers (06 R175). -/
def liveMap (s : State) : List (Fld × Nat) :=
  [(MAP_CFG.bead_floor_gib, s.run.policy.beadFloor), (MAP_CFG.folios, s.folios),
   (MAP_FILL.placeable_gib, s.placeableGib), (MAP_FILL.bead_limit_gib, s.map.beadLimit / 65536),
   (MAP_FILL.bead_used_gib, divUp s.beadFolios 65536), (MAP_FILL.host_data_gib, s.uGib),
   (MAP_FREE_LO.lower, s.freeShown 0), (MAP_FREE_LO.upper, s.freeShown 1),
   (MAP_FREE_HI.lower, s.freeShown 2), (MAP_FREE_HI.upper, s.freeShown 3),
   (MAP_JOURNAL.retained_mib, s.map.retained / mib), (MAP_JOURNAL.committed_seq, s.map.committed),
   (MAP_CKPT.newest_start_seq, s.map.ckptStart), (MAP_CKPT.writing, b2n s.map.ckptWriting.isSome),
   (MAP_CKPT.newest_slot, s.map.ckptSlot), (MAP_WEAR.max_wear_ppm, s.maxWear), (MAP_WEAR.mean_wear_ppm, s.meanWear),
   (MAP_SPARE.cover_initial_gib, s.coverInitial / tenthsGib), (MAP_SPARE.cover_left_gib, s.coverLeft / tenthsGib),
   (MAP_SPARE.spare_left_pct, s.sparePct),
   (MAP_DISCARD.folios_remaining, match s.map.discard with | some d => d.left | none => 0),
   (MAP_DISCARD.active, b2n s.map.discard.isSome)]

/-- Duration in ms, and code, of the longest step of the newest attempt (12 Table 12-20). -/
def State.longest (s : State) : Nat × Nat :=
  match s.boot.ledger with
  | a :: _ => ((a.steps.zipIdx.map (fun e => (e.1.duration, e.2 + 1))).foldl
      (fun m e => if m.1 < e.1 then e else m) (0, 0))
  | [] => (0, 0)

/-- BOOT registers (12 R351). -/
def liveBoot (s : State) : List (Fld × Nat) :=
  let o := 1 - s.boot.fwSlot
  let other := s.boot.fw.getD o ⟨0, noFw⟩
  [(BOOT_STATUS.attempt, s.boot.attempt), (BOOT_STATUS.step, s.boot.step), (BOOT_STATUS.cause, s.boot.cause),
   (BOOT_STATUS.cfg_source, s.boot.cfgSource), (BOOT_STATUS.fw_slot, s.boot.fwSlot),
   (BOOT_STATUS.hold, b2n s.boot.hold), (BOOT_STATUS.migrated, b2n s.boot.migrated),
   (BOOT_STATUS.alternates, b2n s.boot.alternates), (BOOT_STATUS.complete, b2n s.boot.complete),
   (BOOT_METHODS.methods, (s.boot.methods.zipIdx.map (fun e => e.1 * 4 ^ e.2)).foldl (· + ·) 0),
   (BOOT_TIME.active_ms, s.boot.activeMs), (BOOT_TIME.longest_ms, s.longest.1), (BOOT_TIME.longest_step, s.longest.2),
   (BOOT_FW.other_version, if other.st = 0 then 0 else other.img.version),
   (BOOT_FW.other_rollback, if other.st = 0 then 0 else other.img.rollback), (BOOT_FW.other_state, other.st),
   (BOOT_FW.fw_good, s.boot.fwGood), (BOOT_FW.pending, b2n s.boot.pending), (BOOT_FW.fw_next, s.boot.fwNext),
   (BOOT_CFG.sequence, if s.boot.cfgSource = 2 then 0 else s.boot.cfgSequence),
   (BOOT_CFG.other_state, (s.boot.cfg.getD s.boot.otherCfg ⟨0, emptyImage⟩).st),
   (BOOT_CFG.stored_format, s.boot.cfgFormat), (BOOT_CFG.key_enrolled, b2n s.boot.enrolled.isSome),
   (BOOT_CFG.cfg_next, s.boot.cfgNext)]

/-- TLY and REC registers (13 R384). -/
def liveTly (s : State) : List (Fld × Nat) :=
  [(TLY_STATUS.spare_rows, s.tly.spare), (TLY_STATUS.hours_since_lap, s.tly.lapHours),
   (TLY_STATUS.locked_out, b2n (!s.tly.locked.isEmpty)), (TLY_STATUS.deferred, b2n s.tly.deferred),
   (TLY_STATUS.busy, b2n s.tly.running.isSome), (TLY_LIFETIME.power_cycles, s.tly.powerCycles),
   (TLY_LIFETIME.power_on_s, s.cal.powerOnS), (TLY_BYTES_RD.bytes, s.tly.bytesRd), (TLY_BYTES_WR.bytes, s.tly.bytesWr),
   (TLY_HEALTH.flags, s.evt.health.toNat), (REC_STATUS.next_seq, s.recd.nextSeq),
   (REC_STATUS.stored, s.recd.staging.length + s.recd.stored.length), (REC_STATUS.staged, s.recd.staging.length),
   (REC_STATUS.full, b2n s.recd.full), (REC_BASE.base, s.recd.base)]

/-- The event select c names an event of 13 Table 13-7, and (request, level only) of it. -/
def selectKind (c : Nat) : Option (Bool × Bool) :=
  if c ≤ 3 ∨ (0x10 ≤ c ∧ c ≤ 0x17) ∨ c = 0x20 then some (true, false)
  else if 0x1000 ≤ c ∧ c < 0x1060 ∧ c % 16 ≤ 3 then some (true, false)
  else if 0x2000 ≤ c ∧ c ≤ 0x2005 then some (false, true)
  else if 0x3000 ≤ c ∧ c ≤ 0x3005 then some (false, false)
  else if 0x4000 ≤ c ∧ c ≤ 0x4007 then some (false, false)
  else if 0x5000 ≤ c ∧ c < 0x5600 then some (false, false)
  else none

/-- The select of a counter is not defined, or not allowed in its mode (13 R370). -/
def cfgError (select tp2 level : Nat) : Bool :=
  match selectKind select with
  | none => true
  | some (request, levelOnly) => (tp2 == 1 && !request) || (levelOnly && level == 0)

/-- PMU registers (13 R385). -/
def livePmu (s : State) (i : Nat) : List (Fld × Nat) :=
  [(PMU_CFG.cfg_error,
    b2n (cfgError (s.reg PMU_CFG.select i) (s.reg PMU_CFG.tp2_mode i) (s.reg PMU_CFG.level i)))]

/-- TQ registers (13 R386). -/
def liveTq (s : State) (i : Nat) : List (Fld × Nat) :=
  [(TQ_HEAD.next_seq, s.tq.seq), (TQ_HEAD.head, s.tq.head), (TQ_TAIL.tail, s.tq.tail),
   (TQ_TIMEOUT.timeout_us, if s.reg TQ_TIMEOUT.timeout_us = 0 then s.run.policy.tqTimeout
      else s.reg TQ_TIMEOUT.timeout_us),
   (TQ_STATUS.open_bytes, 8 * s.tq.openWords.length), (TQ_CHQ.depth, s.queueDepth i),
   (TQ_INGRESS.rwd_held, (s.qos.ingress.filter (fun r => r.write)).length),
   (TQ_INGRESS.req_held, (s.qos.ingress.filter (fun r => !r.write)).length)]

/-- ECC and EVT registers whose home is elsewhere (13 R387, R388). -/
def liveEcc (s : State) : List (Fld × Nat) := [(ECC_FLIP_CTRL.arm, b2n s.flip.armed.isSome)]
def liveEvt (s : State) : List (Fld × Nat) := [(EVT_PENDING.pending, s.evt.pending.toNat / 32)]

/-- QOS registers (03 R85). -/
def liveQos (s : State) (i : Nat) : List (Fld × Nat) :=
  let e := s.classEntry i
  let c := s.clsState i
  [(QOS_ENVELOPE.write_env_mbps, s.qos.wEnv), (QOS_ENVELOPE.read_env_mbps, s.qos.rEnv),
   (QOS_ENV_CAUSE.retired_dies, bits s.qos.cause 23 16), (QOS_ENV_CAUSE.failed_read_only, bits s.qos.cause 9 9),
   (QOS_ENV_CAUSE.link_below_full, bits s.qos.cause 8 8), (QOS_ENV_CAUSE.replay_draining, bits s.qos.cause 7 7),
   (QOS_ENV_CAUSE.small_budget, bits s.qos.cause 6 6), (QOS_ENV_CAUSE.region_fenced, bits s.qos.cause 5 5),
   (QOS_ENV_CAUSE.media_throttle, bits s.qos.cause 4 3), (QOS_ENV_CAUSE.asic_throttle, bits s.qos.cause 2 1),
   (QOS_ENV_CAUSE.dies_retired, bits s.qos.cause 0 0),
   (QOS_SUSPEND.suspended,
    ((List.range 8).map (fun n => b2n (s.clsState n).suspended * 2 ^ n)).foldl (· + ·) 0),
   (QOS_TRACKER.internal_in_use, s.icInUse), (QOS_TRACKER.host_in_use, s.qos.ctxs.length),
   (QOS_CLASS_CFG.latency_target_ns, e.target), (QOS_CLASS_CFG.outstanding_limit, e.limit),
   (QOS_CLASS_CFG.window_100us, e.window), (QOS_CLASS_GUAR.guar_write_mbps, e.guarWrite),
   (QOS_CLASS_GUAR.guar_read_mbps, e.guarRead), (QOS_CLASS_STAGE.staged_mib, divUp (s.stagedOf i) mib),
   (QOS_CLASS_STAGE.staging_ceiling, e.ceiling), (QOS_CLASS_STAGE.staging_floor, e.floor),
   (QOS_CLASS_STATE.p99_ns, c.p99), (QOS_CLASS_STATE.outstanding, s.outstanding i),
   (QOS_CLASS_STATE.best_effort, b2n (bestEffort e)), (QOS_CLASS_STATE.suspended, b2n c.suspended),
   (QOS_CLASS_STATE.level, c.level), (QOS_ICLASS_STATE.active, b2n (decide (0 < s.iclsUse i))),
   (QOS_ICLASS_STATE.floor_active, b2n (s.floorActive i)), (QOS_ICLASS_STATE.win_mbps, s.movedMbps i)]

/-- CCH registers (04 R110). -/
def liveCch (s : State) (i : Nat) : List (Fld × Nat) :=
  let d := s.cch.gddr.getD i ⟨0, 0, 0, 0, 0, 0⟩
  [(CCH_NEAR_CFG.dirty_age_limit_us, s.run.policy.dirtyAge),
   (CCH_NEAR_STATE.dirty_lines, (s.cch.near.filter (fun e => e.2.copy.dirty != 0)).length),
   (CCH_NEAR_STATE.evict_in_use, (s.cch.evict.filter s.heldEvict).length),
   (CCH_NEAR_STATE.oldest_dirty_us, largest (s.cch.near.map (fun e => match e.2.dirtySince with
      | some t => min 255 ((s.now - t) / usec)
      | none => 0))),
   (CCH_BOARD_CFG.slots_log2, s.slotsLog2), (CCH_BOARD_CFG.region_mib, 4 * s.boardArea),
   (CCH_BOARD_CFG.data_mib, 4 * 256 * 2 ^ s.slotsLog2 / mib),
   (CCH_BOARD_STATE.dirty_slots, (s.cch.board.filter (fun e => e.2.copy.dirty != 0)).length),
   (CCH_BOARD_STATE.wb_in_use, s.cch.wb.length), (CCH_GDDR_ID.manufacturer, d.manufacturer),
   (CCH_GDDR_ID.density_gbit, d.density), (CCH_GDDR_ID.grade_gbps, d.grade), (CCH_GDDR_ID.rate_gbps, d.rate),
   (CCH_GDDR_ID.cap_gbps, s.run.caps.getD i 32), (CCH_GDDR_ID.training, d.training),
   (CCH_GDDR_ERR.temperature_c, d.tempC.toNat)]

/-- CAL registers (07 R198). -/
def liveCal (s : State) (i : Nat) : List (Fld × Nat) :=
  let d := s.med.dies.getD i Die.atReset
  let here := s.fitted i
  let on := fun (n : Nat) => if here then n else 0
  [(CAL_CALENDAR.slewing, b2n s.cal.slew.isSome), (CAL_CALENDAR.provisional, b2n s.cal.provisional),
   (CAL_CALENDAR.calendar_s, s.cal.calendar), (CAL_SYNC.vaux_continuous, b2n s.cal.vauxContinuous),
   (CAL_UNPOWERED.added_s, s.cal.driftAdd), (CAL_UNPOWERED.median_delta_a, min s.cal.medianA (2 ^ 32 - 1)),
   (CAL_SCRUB_CFG.idle_threshold_us, s.run.policy.scrubIdle), (CAL_SCRUB.last_lap_min, s.cal.lastLap),
   (CAL_SCRUB.elapsed_min, if s.cal.lapActive then s.cal.lapElapsed / 60 else 0),
   (CAL_SCRUB.progress_pct, if s.cal.lapActive then s.cal.lapProgress else 0),
   (CAL_SCRUB.over_limit, b2n s.cal.overLimit), (CAL_SCRUB.active, b2n s.cal.lapActive),
   (CAL_MARGIN.thin_entries, total ((List.range 64).map s.thinOf)), (CAL_POISON.overflow, b2n s.map.overflow.isSome),
   (CAL_POISON.records, s.map.poison.length), (CAL_DIE_AGE.accumulator, on d.acc),
   (CAL_DIE_STATE.low_margin, on (s.lowMargin i)), (CAL_DIE_STATE.thin_entries, s.thinOf i),
   (CAL_DIE_STATE.substituted, on (b2n (s.sensor (dieSensor i)).broken)),
   (CAL_DIE_STATE.temp, on (d.tempC + 40).toNat),
   (CAL_DIE_REF.ref_calendar_s, on ((d.refs.map (·.1)).headD 0)), (CAL_DIE_REF.delta_a, on (min d.deltaA (2 ^ 32 - 1)))]

/-- KEY registers (08 R233). -/
def liveKey (s : State) (i : Nat) : List (Fld × Nat) :=
  let filled := (s.key.slots.filter (fun e => e.2.st != 0)).length
  let x := Tab.findD s.key.slots i ⟨0, 0, 0, 0⟩
  let held := (s.key.slots.filter (fun e => e.2.st == 3)).map (·.1)
  let w := s.key.sweep.getD ⟨1, 0, [], 0, 0, false, false, 0, 0, 0, 0⟩
  let auto := w.kind == 2
  [(KEY_SLOTS.filled, filled), (KEY_SLOTS.empty, 4096 - filled), (KEY_SWEEP.new_key, w.newKey),
   (KEY_SWEEP.old_key, w.oldKey), (KEY_SWEEP.extent, if auto then 0 else w.extent), (KEY_SWEEP.automatic, b2n auto),
   (KEY_SWEEP.kind, w.kind - 1), (KEY_SWEEP.progress_pct, if w.folios = 0 then 0 else (w.folios - w.left) * 100 / w.folios),
   (KEY_SWEEP.active, b2n s.key.sweep.isSome), (KEY_BOUNDARY.dpa, w.boundary), (KEY_TOP.sequence, s.key.topSeq),
   (KEY_TOP.source, s.key.topSource), (KEY_HOLD.first_held, held.headD 0), (KEY_HOLD.held, held.length),
   (KEY_SLOT_STATE.state, x.st), (KEY_SLOT_STATE.generation, x.gen.toNat), (KEY_SLOT_STATE.use_count, x.uses)]

/-- Overlay or log lines of dump slot i that are not home. -/
def State.slotLeft (s : State) (i : Nat) : Nat :=
  let d := s.pfl.slots.getD i DumpSlot.atReset
  if d.st = 3 then (if s.pfl.overlaySlot = some i then s.pfl.overlay.length else 0)
  else if d.st = 4 then (d.lines.map (·.line)).eraseDups.length
  else 0

/-- PFL registers (09 R268). -/
def livePfl (s : State) : List (Fld × Nat) :=
  let a := s.pfl.slots.getD 0 DumpSlot.atReset
  let b := s.pfl.slots.getD 1 DumpSlot.atReset
  [(PFL_STATE.clean_marked, b2n s.pfl.clean), (PFL_STATE.test_running, b2n s.pfl.test.isSome),
   (PFL_STATE.gpf_seen, b2n s.pfl.gpf), (PFL_STATE.flush_running, b2n s.pfl.flush.isSome), (PFL_STATE.slot_b, b.st),
   (PFL_STATE.slot_a, a.st), (PFL_STATE.mode, match s.pfl.wt with | some (c, _) => c + 1 | none => 0),
   (PFL_BUDGET.b_energy_mib, s.pfl.bEnergy), (PFL_BUDGET.b_charge_mib, s.pfl.bCharge),
   (PFL_BUDGET.budget_mib, s.pfl.budget / mib), (PFL_BUDGET.staged_mib, divUp s.staged mib),
   (PFL_STORE.energy_mj, s.pfl.energy), (PFL_STORE.capacitance, s.pfl.cap), (PFL_STORE.esr, s.pfl.esr),
   (PFL_STORE.health, s.pfl.health), (PFL_STORE.last_result, s.pfl.lastResult), (PFL_STORE_NOW.vstore_mv, s.pfl.vstore),
   (PFL_STORE_NOW.energy_now_mj, storeEnergy s.pfl.cap s.pfl.esr s.pfl.vstore),
   (PFL_STORE_NOW.temp, (s.pfl.tempC + 40).toNat), (PFL_STORE_NOW.derate_pct, derate s.pfl.tempC),
   (PFL_TEST.last_calendar_s, s.pfl.lastCal), (PFL_TEST.hours_since, (s.cal.powerOnS - s.pfl.lastPowerS) / 3600),
   (PFL_TEST.tests, s.pfl.tests), (PFL_SLOT_A.lines_remaining, s.slotLeft 0), (PFL_SLOT_A.sequence, a.seq),
   (PFL_SLOT_A.state, a.st), (PFL_SLOT_B.lines_remaining, s.slotLeft 1), (PFL_SLOT_B.sequence, b.seq),
   (PFL_SLOT_B.state, b.st), (PFL_COUNTS.dirty_shutdowns, s.pfl.dirtyShutdowns),
   (PFL_WT.log_used_mib, total (s.pfl.slots.map (fun d => if d.st = 4 then d.logUsed / mib else 0)))]

/-- RING registers (10 R296). -/
def liveRing (s : State) (i : Nat) : List (Fld × Nat) :=
  let r := s.ring
  let m := r.members.getD i Member.atReset
  let own := i == r.own && decide (i < r.members.length)
  let mask := fun (p : Member → Bool) => total (r.members.mapIdx (fun j x => if p x then 2 ^ j else 0))
  [(RING_CFG.ring_id, r.ringId), (RING_CFG.members, r.members.length), (RING_CFG.master, r.masterIx),
   (RING_CFG.own_index, r.own), (RING_CFG.wait_ms, r.waitMs), (RING_STATUS.wait_used_ms, r.waitUsed),
   (RING_STATUS.version, r.version), (RING_STATUS.present, mask (·.present)),
   (RING_STATUS.missing, mask (fun x => !x.present)), (RING_STATUS.position, r.position.getD 0),
   (RING_STATUS.state, r.st), (RING_STATUS.is_master, b2n (r.own == r.masterIx)),
   (RING_STATUS.bypass_closed, b2n r.bypass), (RING_STATUS.out_cable, b2n r.outCable),
   (RING_STATUS.in_sync, b2n r.inSync), (RING_EPOCH.committed, r.committed), (RING_EPOCH.card_local, b2n r.cardLocal),
   (RING_EPOCH.pending, b2n r.pending), (RING_EPOCH.holds_commit, b2n r.holds), (RING_EPOCH.prepared, b2n r.prepared),
   (RING_CLOSE.last_close_ns, r.lastCloseNs), (RING_CLOSE.refusal, r.refusal),
   (RING_CLOSE.phase, match r.close with
      | some c => (if c.stalled then 4 else c.phase)
      | none => r.lastPhase),
   (RING_FLUSH.done_mask, r.flushMask), (RING_FLUSH.sequence, if r.flushShown then r.flushSeq else 0), (RING_FLUSH.running, b2n r.flushFrom.isSome),
   (RING_FLUSH.start, b2n r.flushFrom.isSome), (RING_SHADOW.in_use, r.shadows.length),
   (RING_SHADOW.settle_pending, (r.shadows.filter (fun e => decide (e.2.epoch ≤ r.committed))).length),
   (RING_MEMBER_SERIAL.serial, m.serial),
   (RING_MEMBER_STATE.committed, if own then r.committed else m.committed),
   (RING_MEMBER_STATE.position, if own then r.position.getD 255 else if m.present then m.position else 255),
   (RING_MEMBER_STATE.version, if m.present then m.version else 0), (RING_MEMBER_STATE.state_lost, b2n (if own then r.lost else m.lost)),
   (RING_MEMBER_STATE.prepared, b2n (if own then r.prepared else m.prepared)),
   (RING_MEMBER_STATE.present, b2n m.present),
   (RING_MEMBER_STATE.master, b2n (i == r.masterIx && decide (i < r.members.length)))]

/-- Gated domains (11 Table 11-7; 12 Table 12-13): D04 with a narrow or absent link, D03 and D05 with the link down after fatal
handling or in PERST_N, D10 to D13 with their GDDR7 device in self-refresh, D14 to D29 with their channel. -/
def State.gatedDomains (s : State) : Nat :=
  let stopped := s.boot.perst || (s.fab.fatal && decide (s.link.protocol = 0))
  (if s.link.width ≤ 8 then 2 ^ 4 else 0) + (if stopped then 2 ^ 3 + 2 ^ 5 else 0) +
    (s.pwr.gated.toNat / 2 ^ 10 % 16) * 2 ^ 10 + s.med.gated.toNat * 2 ^ 14

/-- Bits of the rails that p picks. -/
def State.railBits (s : State) (p : Rail → Bool) : Nat := total (s.pwr.rails.mapIdx (fun i r => if p r then 2 ^ i else 0))

/-- PWR registers (11 R323, 14 R392). -/
def livePwr (s : State) (i : Nat) : List (Fld × Nat) :=
  let e := s.pwr.table.getD i ⟨0, 0, 0⟩
  let r := s.pwr.rails.getD i Rail.atReset
  let code := s.fab.pace.getD i 0
  [(PWR_INPUTS.slot_12v_mv, s.pwr.inputs.slot12), (PWR_INPUTS.aux_12v_mv, s.pwr.inputs.aux12),
   (PWR_INPUTS.slot_3v3_mv, s.pwr.inputs.v33), (PWR_INPUTS.vaux_mv, s.pwr.inputs.vaux),
   (PWR_RAILS.pg, s.railBits (·.pg)), (PWR_RAILS.enabled, s.railBits (·.enabled)),
   (PWR_RAILS.image_table, b2n s.pwr.imageTable), (PWR_RAILS.sequence, if s.downRuns then 2 else s.pwr.sequence),
   (PWR_CARD.slot_dw, s.slotPower), (PWR_CARD.aux_dw, s.auxLoad + s.chargerPower),
   (PWR_CARD.charger_dw, s.chargerPower), (PWR_DOMAINS.gated, s.gatedDomains), (PWR_RAIL_CFG.on_delay, e.on),
   (PWR_RAIL_CFG.off_delay, e.off), (PWR_RAIL_CFG.pg_timeout, e.pg), (PWR_RAIL_CNT.late_pg, r.latePg),
   (PWR_RAIL_CNT.pg_lost, r.pgLost), (PWR_RAIL_CNT.timeouts, r.timeouts), (PWR_RAIL_CNT.reg_ot, r.regOt),
   (PWR_PACE.replica_mhz, s.fab.replica.getD i 0), (PWR_PACE.temp, ((s.regionTemp i).getD (-40) + 40).toNat),
   (PWR_PACE.capped, b2n (decide (s.paceCap < 35) && i != 0 && decide (s.paceCap ≤ code))), (PWR_PACE.pace_code, code),
   (PWR_BRAKE.active, b2n s.pwr.brake.isSome)]

/-- Level code of a kind (11 Table 11-22). -/
def State.levelCode (s : State) (k : Nat) : Nat :=
  let l := s.kindLevel k
  if l.shutdown then 4 else if l.t2 then 3 else if l.t1 then 2 else if l.warning then 1 else 0

def State.sensorBits (s : State) (p : Sensor → Bool) : Nat := total (s.thm.sensors.mapIdx (fun i x => if p x then 2 ^ i else 0))

/-- A temperature as registers show it. -/
def plus40 (t : Int) : Nat := (t + 40).toNat

/-- THM registers (11 R324). -/
def liveThm (s : State) (i : Nat) : List (Fld × Nat) :=
  let e := s.limit i
  let x := s.sensor i
  let q := s.thm.stop.getD ⟨0, -40, 0, some 0, 0, 0, 0⟩
  [(THM_LEVELS.neighbour_rule, b2n (!s.fab.hot30.isEmpty)), (THM_LEVELS.media_throttle, s.mediaThrottle),
   (THM_LEVELS.asic_throttle, s.asicThrottle), (THM_LEVELS.store, s.levelCode 3), (THM_LEVELS.gddr7, s.levelCode 2),
   (THM_LEVELS.medium, s.levelCode 1), (THM_LEVELS.controller, s.levelCode 0), (THM_BROKEN.broken, s.sensorBits (·.broken)),
   (THM_FAST.fast, s.sensorBits (·.fast)), (THM_STOP.sensor, q.sensor), (THM_STOP.temp, plus40 q.temp),
   (THM_STOP.slope, (q.slope % 65536).toNat), (THM_STOP.t_left_ms, msOf q.tLeft), (THM_STOP.path, q.path),
   (THM_STOP.holds, q.holds), (THM_AIR.outlet, plus40 (s.usedOf 63)), (THM_AIR.inlet, plus40 (s.usedOf 62)),
   (THM_LIMITS.hysteresis, e.hyst), (THM_LIMITS.absolute, absLimit e), (THM_LIMITS.shutdown, e.shutdown),
   (THM_LIMITS.throttle2, e.t2), (THM_LIMITS.throttle1, e.t1), (THM_LIMITS.warning, e.warning),
   (THM_SENSOR.neighbours, ofBytes ((s.thm.neighbours.getD i []).map (fun n => BitVec.ofNat 8 n))),
   (THM_SENSOR.used, plus40 x.used), (THM_SENSOR.reading, plus40 x.reading), (THM_SENSOR.absent, b2n (!s.sensorFitted i)),
   (THM_SENSOR.deviating, b2n x.deviating), (THM_SENSOR.broken, b2n x.broken), (THM_SENSOR.fast, b2n x.fast)]

/-- The live value of field f of copy i; none for a field that `State.obs` holds. -/
def live (s : State) (f : Fld) (i : Nat) : Option Nat :=
  match f.off / 0x10000 with
  | 0 => pick f (liveId s)
  | 1 => pick f (liveQos s i)
  | 2 => pick f (liveCch s i)
  | 3 => if f.off < 0x38000 then pick f (liveMap s) else pick f (liveMed s i)
  | 4 => pick f (liveCal s i)
  | 5 => pick f (liveKey s i)
  | 6 => pick f (livePfl s)
  | 7 => pick f (liveRing s i)
  | 8 => pick f (livePwr s i)
  | 9 => pick f (liveThm s i)
  | 10 => pick f (liveBoot s)
  | 11 => pick f (liveTly s)
  | 12 => pick f (livePmu s i)
  | 13 => pick f (liveTq s i)
  | 14 => pick f (liveEcc s)
  | 15 => pick f (liveEvt s)
  | _ => none

end Sys2Proof.Machine
end

