-- ==== Sys2Proof/Machine/Ops.lean ====
section
/-! DEFINITION. The operations that the meanings share: time, register access, events with all that follows from them
(counter selects, recorder triggers, logs, interrupts), mailbox replies and the mailbox gate, tally row writes. -/

namespace Sys2Proof.Machine

/-! ## Time and registers -/

/-- The card time moves to t; it never goes back (log entry 3). -/
def State.tick (s : State) (t : Nat) : State := { s with now := max s.now t }

/-- The row of the register table, and the copy, at BAR2 offset `off`. -/
def regAtIn : List RegRow → Nat → Option (RegRow × Nat)
  | [], _ => none
  | r :: rest, off =>
    if r.off ≤ off ∧ (if r.stride = 0 then off = r.off else (off - r.off) % r.stride = 0 ∧
        (off - r.off) / r.stride < r.count) then some (r, if r.stride = 0 then 0 else (off - r.off) / r.stride)
    else regAtIn rest off

def regAt (off : Nat) : Option (RegRow × Nat) := regAtIn regTable off

/-- What field f of copy i reads: its live value where it mirrors other state, else the stored value. A write-only field
reads 0 (00_scope Table 0-7). -/
def State.readFld (s : State) (f : Fld) (i : Nat) : Nat :=
  if f.acc = .wo then 0 else ((live s f i).getD (s.reg f i)) % f.size

/-- The whole register at an offset; 0 where no register lies (02 R40), reserved bits 0 (00_scope R5). -/
def State.readWord (s : State) (off : Nat) : Nat :=
  match regAt off with
  | some (r, i) => total (r.flds.map (fun f => s.readFld f i * 2 ^ f.lo))
  | none => 0

/-- Clear the RC fields of a register that lie wholly in bits lo to hi (00_scope R6). -/
def State.clearRc (s : State) (off lo hi : Nat) : State :=
  match regAt off with
  | some (r, i) =>
    r.flds.foldl (fun s f => if f.acc = .rc ∧ lo ≤ f.lo ∧ f.hi ≤ hi then s.setReg f 0 i else s) s
  | none => s

/-- An OBS read of `size` bytes (00_scope R6, R7): its value, and the state after its RC fields have cleared. -/
def State.busRead (s : State) (off size : Nat) : State × Word64 :=
  if size = 8 ∧ off % 8 = 0 then (s.clearRc off 0 63, BitVec.ofNat 64 (s.readWord off))
  else if size = 4 ∧ off % 8 = 0 then (s.clearRc off 0 31, BitVec.ofNat 64 (s.readWord off % 2 ^ 32))
  else if size = 4 ∧ off % 8 = 4 then
    (s.clearRc (off - 4) 32 63, BitVec.ofNat 64 (s.readWord (off - 4) / 2 ^ 32))
  else (s, 0)

/-- A write of `v` to the bits of field f that lie in bits lo to hi of the register (00_scope Table 0-7, R6). `v` holds
the written bits at their places in the register. -/
def State.writeFld (s : State) (f : Fld) (i lo hi v : Nat) : State :=
  let m := 2 ^ (min (f.hi + 1) (hi + 1) - max f.lo lo) - 1
  let sh := max f.lo lo - f.lo
  let w := (v >>> max f.lo lo) &&& m
  if min f.hi hi < max f.lo lo then s
  else
    let old := s.reg f i
    match f.acc with
    | .rw => s.setReg f ((old - (old &&& (m <<< sh))) + (w <<< sh)) i
    | .w1c => s.setReg f (old - (old &&& (w <<< sh))) i
    | .w1s => s.setReg f (old ||| (w <<< sh)) i
    | _ => s

/-- Bits that a write of `size` bytes at `off` reaches, the register's offset and the value at its place in the register;
none for the accesses that R7 discards. -/
def writeSpan (off size : Nat) (v : Word64) : Option (Nat × Nat × Nat × Nat) :=
  if size = 8 ∧ off % 8 = 0 then some (off, 0, 63, v.toNat)
  else if size = 4 ∧ off % 8 = 0 then some (off, 0, 31, v.toNat % 2 ^ 32)
  else if size = 4 ∧ off % 8 = 4 then some (off - 4, 32, 63, (v.toNat % 2 ^ 32) * 2 ^ 32)
  else none

/-- A write to every field that `ok` admits of the register it reaches. -/
def State.busWrite (s : State) (off size : Nat) (v : Word64) (ok : Fld → Bool) : State :=
  match writeSpan off size v with
  | none => s
  | some (o, lo, hi, w) =>
    match regAt o with
    | none => s
    | some (r, i) => r.flds.foldl (fun s f => if ok f then s.writeFld f i lo hi w else s) s

/-! ## Interrupts (01 R25, R26; 02 R46; 13 R388) -/

/-- Latency bound of the flit-layer crossing in ns, rounded up (01 Table 1-8). -/
def State.flitBound (s : State) : Nat :=
  if s.link.rate = 4 then 3 else if s.link.rate = 3 then 3 else if s.link.rate = 2 then 4 else 6

/-- An MSI-X request for vector v: it starts a crossing, or merges into the one under way (01 R25). -/
def State.sendMsix (s : State) (v : Nat) : State :=
  if s.link.protocol = 0 then s
  else if s.now < Tab.findD s.fab.crossing v 0 then s
  else { s with sent := s.sent ++ [.msix v],
                fab := { s.fab with crossing := Tab.put s.fab.crossing v (s.now + s.flitBound) } }

/-- Vector v is masked in EVT_VEC_MASK; vectors 0 to 4 are not masked there. -/
def State.vecMasked (s : State) (v : Nat) : Bool := decide (5 ≤ v) && (s.reg EVT_VEC_MASK.mask).testBit (v - 5)

/-- An interrupt on vector v, kept pending while the vector is masked. -/
def State.interrupt (s : State) (v : Nat) : State :=
  if s.vecMasked v then { s with evt := { s.evt with pending := s.evt.pending ||| BitVec.twoPow 32 v } }
  else s.sendMsix v

/-- The default vector of a source (02 Table 2-18). -/
def defaultVector (src : Nat) : Nat :=
  if 0x200 ≤ src ∧ src < 0x300 then 15 + (src - 0x200) / 16
  else if src < 0x080 then 5
  else if src < 0x100 then 6
  else if src < 0x180 then 7
  else if src < 0x200 then 8
  else if src < 0x380 then 9
  else if src < 0x400 then 10
  else if src < 0x480 then 11
  else if src < 0x500 then 12
  else if src < 0x580 then 13
  else 14

/-- Enable and vector of a source in the image's routing section (12 Table 12-7). -/
def State.route (s : State) (src : Nat) : Bool × Nat :=
  let e := if s.run.routingAll then (true, 0) else Tab.findD s.run.routing src (false, 0)
  (e.1, if e.2 = 0 then defaultVector src else e.2)

/-- The source is masked at run time or disabled by the image (02 R45, 13 R388). -/
def State.srcMasked (s : State) (src : Nat) : Bool :=
  !(s.route src).1 || (s.reg EVT_SRC_MASK.mask (src / 64)).testBit (src % 64)

/-! ## Counters (13 R370 to R372) -/

/-- An occurrence of an event source. -/
structure Ev where
  src : Nat
  sev : Nat
  region : Nat
  data : List Nat
deriving DecidableEq, Repr

/-- What TP2-compatible filters see of a request event: whether it is internal, its DPA where it has one, and its bit in
the class mask (host class 0 to 7, internal class 8 to 13). -/
structure PmuReq where
  internal : Bool
  dpa : Option Nat
  cls : Nat
deriving DecidableEq, Repr

/-- A request passes every filter of counter n (13 R371). -/
def State.pmuPass (s : State) (n : Nat) (q : PmuReq) : Bool :=
  let agent := s.reg PMU_CFG.agent n
  let range := s.reg PMU_CFG.range n
  let mask := s.reg PMU_CFG.class_mask n
  (agent == 0 || (agent == 1 && !q.internal) || (agent == 2 && q.internal)) &&
  (range == 0 || decide (4 < range) ||
    (match q.dpa with
     | some a => decide (s.reg PMU_RANGE_BASE.dpa (range - 1) ≤ a / 64) &&
         decide (a / 64 ≤ s.reg PMU_RANGE_LIMIT.dpa (range - 1))
     | none => false)) &&
  (mask == 0 || mask.testBit q.cls) &&
  (s.reg PMU_CFG.ld_filter n == 0 || s.reg PMU_CFG.ld n == 0)

/-- Counter n counts event `code` of request q (none: not a request event). -/
def State.pmuHits (s : State) (n code : Nat) (q : Option PmuReq) : Bool :=
  s.reg PMU_CFG.enable n == 1 && s.reg PMU_CFG.select n == code &&
  !cfgError code (s.reg PMU_CFG.tp2_mode n) (s.reg PMU_CFG.level n) &&
  (s.reg PMU_CFG.tp2_mode n == 0 ||
    (match q with
     | some r => s.pmuPass n r
     | none => false))

def State.pmuOn (s : State) : Bool := s.reg PMU_CTRL.enable == 1 && s.reg PMU_CTRL.freeze == 0

/-- Add k to counter n; a wrap sets its bit in PMU_OVF and raises event 0x5AA where enabled (13 R372). -/
def State.pmuAdd (s : State) (n k : Nat) : State × List Ev :=
  let v := s.reg PMU_CNT.count n + k
  let s1 := s.setReg PMU_CNT.count v n
  if v < 2 ^ 48 then (s1, [])
  else
    (s1.setReg PMU_OVF.overflow (s1.reg PMU_OVF.overflow ||| 2 ^ n),
     if s.reg PMU_CFG.ovf_irq n == 1 then [⟨0x5AA, 0, 255, [n]⟩] else [])

/-- One counter meets k occurrences of an event: an edge counter adds them, a level counter notes them. -/
def pmuMeet (code k : Nat) (q : Option PmuReq) (a : State × List Ev) (n : Nat) : State × List Ev :=
  if a.1.pmuHits n code q then
    if a.1.reg PMU_CFG.level n == 1 then
      ({ a.1 with tq := { a.1.tq with levelSeen := a.1.tq.levelSeen ||| BitVec.twoPow 64 n } }, a.2)
    else
      let r := a.1.pmuAdd n k
      (r.1, a.2 ++ r.2)
  else a

/-- k occurrences of event `code`, and the overflow events they cause. -/
def State.pmuEdge (s : State) (code k : Nat) (q : Option PmuReq) : State × List Ev :=
  if s.pmuOn then (List.range 64).foldl (pmuMeet code k q) (s, []) else (s, [])

/-! ## The event recorder (13 R364 to R367) -/

/-- The trigger's snapshots, read without changing any register. -/
def State.snapshot (s : State) (t : Trigger) : List Word64 :=
  (t.snaps.take t.count).map (fun off => BitVec.ofNat 64 (s.readWord off))

/-- The trigger fires on the source: enabled, and its condition holds where it has one. -/
def State.triggers (s : State) (t : Trigger) (src : Nat) : Bool :=
  t.enable && t.source == src &&
    (!t.condOn || (BitVec.ofNat 64 (s.readWord t.condReg) &&& t.condMask) == t.condValue)

/-- The next recorder sequence: it counts across the card's life and skips 0. -/
def nextSeqOf (n : Nat) : Nat := if (n + 1) % 2 ^ 32 = 0 then 1 else (n + 1) % 2 ^ 32

def bumpRepeat (r : Rec) : Rec := { r with repeats := r.repeats + 1 }

/-- The firing repeats the newest record (13 R366, Repeat). -/
def State.repeats (s : State) (id : Nat) (snaps : List Word64) : Bool :=
  match s.recd.newest with
  | some r => r.trigger == id && r.snaps == snaps && decide (r.repeats < 65535)
  | none => false

/-- Count a repeat: in staging while the record lies there, else held on chip. -/
def Recorder.countRepeat (r : Recorder) : Recorder :=
  match r.newest with
  | none => r
  | some n =>
    let n' := bumpRepeat n
    if r.staging.any (fun x => x.seq == n.seq) then
      { r with newest := some n', staging := r.staging.map (fun x => if x.seq == n.seq then n' else x) }
    else { r with newest := some n', heldRepeats := r.heldRepeats + 1 }

/-- Place a new record in staging. -/
def Recorder.add (r : Recorder) (id : Nat) (snaps : List Word64) (e : Ev) : Recorder :=
  let x : Rec := { trigger := id, lostBefore := r.lostFlag, repeats := 0, seq := r.nextSeq, snaps := snaps,
                   source := e.src, severity := e.sev, region := e.region }
  { r with staging := r.staging ++ [x], newest := some x, nextSeq := nextSeqOf r.nextSeq, lostFlag := false,
           full := decide (4096 ≤ r.staging.length + r.stored.length + 1) }

/-- One trigger meets an occurrence. The second component is the sequence of the record of the occurrence, 0 of none. -/
def fireOne (e : Ev) (a : State × Nat) (it : Nat × Trigger) : State × Nat :=
  let s := a.1
  if !s.triggers it.2 e.src then a
  else if !s.gRuns then a
  else if s.reg REC_CTRL.freeze == 1 then (s.bump REC_LOST.not_recorded_frozen, a.2)
  else
    let snaps := s.snapshot it.2
    let s1 :=
      if s.repeats it.1 snaps then { s with recd := s.recd.countRepeat }
      else if s.recd.full then s.bump REC_LOST.not_recorded_full
      else if 64 ≤ s.recd.staging.length then
        let b := s.bump REC_LOST.staging_overflow
        { b with recd := { b.recd with lostFlag := true } }
      else { s with recd := s.recd.add it.1 snaps e }
    let seq := if s.repeats it.1 snaps || s1.recd.nextSeq != s.recd.nextSeq then
        (match s1.recd.newest with | some r => r.seq | none => 0) else a.2
    let recorded := s.repeats it.1 snaps || s1.recd.nextSeq != s.recd.nextSeq
    if it.2.freeze && recorded then
      ((s1.setReg REC_CTRL.freeze 1).setReg REC_CTRL.frozen_by_trigger 1, seq)
    else (s1, seq)

/-- Every trigger that names the source fires, in order of trigger ID. -/
def State.fireAll (s : State) (e : Ev) : State × Nat :=
  (s.run.triggers.zipIdx.map (fun p => (p.2, p.1))).foldl (fireOne e) (s, 0)

/-! ## Event logs (02 R45, R46) -/

/-- Sources whose record is a Memory Module Event Record (02 Table 2-16). -/
def healthSource (src : Nat) : Bool :=
  [0x185, 0x30B, 0x30C, 0x30E, 0x388, 0x389, 0x483, 0x487, 0x489, 0x48A, 0x48B].contains src ||
    (decide (0x520 ≤ src) && decide (src ≤ 0x527))

/-- Kind of a source's record: 0 General Media, 1 Memory Module, 2 vendor-specific. A lost sector of host data carries
its DPA first (05 Table 5-9); all ones is no DPA. -/
def recordKind (src : Nat) (data : List Nat) : Nat :=
  if src = 0x181 then (if data.headD (2 ^ 64 - 1) = 2 ^ 64 - 1 then 2 else 0)
  else if healthSource src then 1
  else 2

/-- Records that each log holds (02 Table 2-13). -/
def logSize (sev : Nat) : Nat := [1024, 512, 256, 64].getD sev 0

/-- Enter a record of the given kind in its log, or count it where the log is full; the log's interrupt follows. -/
def State.logRecord (s : State) (kind src sev region seq : Nat) (data : List Nat) : State :=
  if logSize sev ≤ (s.evt.logs.getD sev []).length then
    let b := s.bump EVT_STATUS.log_full
    { b with evt := { b.evt with
      overflow := setAt b.evt.overflow sev (b.evt.overflow.getD sev 0 + 1),
      overflowAt := setAt b.evt.overflowAt sev
        (if b.evt.overflow.getD sev 0 = 0 then s.time else (b.evt.overflowAt.getD sev (0, 0)).1, s.time) } }
  else
    let r : EventRec := { handle := s.evt.nextHandle, source := src, severity := sev, region := region,
                          recorder := seq, data := data, kind := kind, time := s.time }
    let b := s.setReg EVT_STATUS.last_source src
    let c := { b with evt := { b.evt with
      logs := setAt b.evt.logs sev (b.evt.logs.getD sev [] ++ [r]),
      nextHandle := if b.evt.nextHandle = 65535 then 1 else b.evt.nextHandle + 1 } }
    if (c.evt.policy.getD sev 0).toNat % 4 = 1 then c.sendMsix sev else c

/-- The record of an occurrence and its vendor-group interrupt; held while no log can be written. -/
def State.record (s : State) (e : Ev) (seq : Nat) : State :=
  if s.srcMasked e.src then s.bump EVT_STATUS.masked
  else if !s.canLog then
    { s with evt := { s.evt with deferred := s.evt.deferred ++ [(e.src, e.sev, e.region, seq, e.data)] } }
  else (s.logRecord (recordKind e.src e.data) e.src e.sev e.region seq e.data).interrupt (s.route e.src).2

/-- Log the events held so far (12 R350). -/
def State.logDeferred (s : State) : State :=
  s.evt.deferred.foldl (fun s d =>
    (s.logRecord (recordKind d.1 d.2.2.2.2) d.1 d.2.1 d.2.2.1 d.2.2.2.1 d.2.2.2.2).interrupt (s.route d.1).2)
    { s with evt := { s.evt with deferred := [] } }

/-! ## Raising an event -/

/-- One occurrence: its counter select, its triggers, its record; and the occurrences that follow from it (a counter
overflow 13 R372, a recorder that fills 13 R366). -/
def raiseOne (s : State) (e : Ev) : State × List Ev :=
  let p := s.pmuEdge (0x5000 + e.src) 1 none
  let f := p.1.fireAll e
  let q := f.1.record e f.2
  let r := if healthSource e.src then { q with evt := { q.evt with healthBy := q.evt.healthBy ++ [e.src] } } else q
  (r, p.2 ++ (if r.recd.full && !s.recd.full then
    [⟨0x5A7, 1, 255, [r.recd.base, match r.recd.newest with | some n => n.seq | none => 0]⟩] else []))

/-- Occurrences in order, each with those that follow from it. -/
def raiseAll : Nat → List Ev → State → State
  | 0, _, s => s
  | _ + 1, [], s => s
  | n + 1, e :: r, s => raiseAll n (r ++ (raiseOne s e).2) (raiseOne s e).1

/-- What raising events may change: stored register fields, the logs, the recorder, the output, the interrupt crossings,
the level counters' notes and the count of free values. -/
def State.onlyEvents (s r : State) : State :=
  { s with obs := r.obs, evt := r.evt, recd := r.recd, sent := r.sent, fresh := r.fresh,
           fab := { s.fab with crossing := r.fab.crossing }, tq := { s.tq with levelSeen := r.tq.levelSeen } }

/-- Raise event `src` of severity `sev` (0 Informational, 1 Warning, 2 Failure, 3 Fatal). Each counter wraps at most once,
so 130 occurrences are enough. -/
def ev (src sev : Nat) (data : List Nat := []) (region : Nat := 255) (s : State) : State :=
  s.onlyEvents (raiseAll 130 [⟨src, sev, region, data⟩] s)

/-- Count k occurrences of event `code` of a request, with the events that follow. -/
def count (code k : Nat) (q : Option PmuReq) (s : State) : State :=
  let p := s.pmuEdge code k q
  s.onlyEvents (raiseAll 130 p.2 p.1)

/-- A Memory Module Event Record that the health engine makes itself (13 R381): Informational, of no source. -/
def healthRecord (data : List Nat) (s : State) : State :=
  s.onlyEvents (if s.canLog then s.logRecord 1 0x600 0 255 0 data else s)

/-! ## Outputs -/

def State.out (s : State) (o : Out) : State := { s with sent := s.sent ++ [o] }
def State.reply (s : State) (p : Path) (op : Nat) (rc : Rc) (b : Bytes := []) : State := s.out (.reply p op rc b)

/-! ## AER and the CXL RAS capability (02 R54) -/

/-- Register (true: uncorrectable) and bit of each RAS condition of `Out.ras`; the places are those of CXL 3.1 (log entry 84). -/
def rasPlace (bit : Nat) : Bool × Nat :=
  match bit with
  | 0 => (false, 2)
  | 1 => (false, 5)
  | 2 => (true, 16)
  | 3 => (true, 14)
  | _ => (false, 3)

/-- A condition is recorded in the RAS capability. -/
def State.reportRas (s : State) (bit : Nat) : State :=
  let p := rasPlace bit
  let l := if p.1 then { s.link with rasUnc := s.link.rasUnc ||| BitVec.twoPow 32 p.2 }
    else { s.link with rasCor := s.link.rasCor ||| BitVec.twoPow 32 p.2 }
  { s with link := l }.out (.ras bit)

/-- AER reports an uncorrectable internal error (bit 22), with the severity that the host has set for it. -/
def State.reportUnc (s : State) (region cause : Nat) : State :=
  let l := { s.link with aerUnc := s.link.aerUnc ||| BitVec.twoPow 32 22, rasHeader := (region, cause) }
  { s with link := l }.out (.aer (if s.link.aerSeverity.getLsbD 22 then .fatal else .nonFatal) region cause)

/-- AER reports a correctable error of the bit given. -/
def State.reportCor (s : State) (bit : Nat) : State :=
  { s with link := { s.link with aerCor := s.link.aerCor ||| BitVec.twoPow 32 bit } }.out (.aer .correctable 255 0)

/-! ## Tally row writes (13 R354 to R358) -/

/-- Position of the next write to start: the lowest rank, the earliest of that rank. -/
def nextRank (q : List RowWrite) : Nat := q.foldl (fun m w => min m w.rank) 6

/-- Take the first write of a rank out of the queue. -/
def takeRank (k : Nat) : List RowWrite → Option (RowWrite × List RowWrite)
  | [] => none
  | w :: r =>
    if w.rank = k then some (w, r)
    else match takeRank k r with
      | some (x, r') => some (x, w :: r')
      | none => none

/-- Start the next write when none runs: the supply is checked first (13 R356), and a write that may not start is deferred
and counted once. -/
def State.tallyKick (s : State) : State :=
  if s.tly.running.isSome || s.tly.queue.isEmpty then s
  else if s.tly.rail0 && s.tly.holdUp then
    match takeRank (nextRank s.tly.queue) s.tly.queue with
    | some (w, r) => { s with tly := { s.tly with running := some w, queue := r, deferred := false, deferEvent := false } }
    | none => s
  else if s.tly.deferred then s
  else
    let b := s.bump TLY_STATUS.deferrals
    { b with tly := { b.tly with deferred := true, deferredAt := b.now, deferEvent := false } }

/-- Ask for a row write. -/
def State.writeRow (s : State) (w : RowWrite) : State :=
  State.tallyKick { s with tly := { s.tly with queue := s.tly.queue ++ [w] } }

/-- A row write of the card's own. Ranks are those of 13 R355. -/
def State.ownRow (s : State) (rank part row : Nat) (data : Bytes) : State :=
  s.writeRow ⟨rank, part, row, data, 0, 0⟩

/-- A mailbox command holds its reply until its row writes complete (02 R44). -/
def State.replyAfter (s : State) (p : Path) (op : Nat) (out : Bytes) (args : List Nat) (ws : List RowWrite) : State :=
  ws.foldl State.writeRow { s with link := { s.link with wait := some ⟨p, op, out, ws.length, args⟩ } }

/-- The waiting mailbox command is abandoned: its writes that have not started are dropped with it; one that runs completes
(13 R358). -/
def State.dropWait (s : State) : State :=
  let own := match s.tly.running with | some w => w.owner == 1 | none => false
  let t := match s.link.wait with
    | some w => if own then some (w.opcode, w.args) else s.tly.orphan
    | none => s.tly.orphan
  let q := (s.tly.queue.filter (fun w => w.owner != 1 || w.rank != 4)).map (fun w => if w.owner = 1 then { w with owner := 0 } else w)
  { s with link := { s.link with wait := none }, tly := { s.tly with orphan := t, queue := q } }

/-- The record of a row as its two copies give it (13 Table 13-3): data, sequence, copy used (0 A, 1 B, 255 lost) and
whether the copies disagree. A row not listed holds its manufacture content, as a rule 0, copy A with sequence 1. -/
def TallyRow.atReset : TallyRow := ⟨⟨true, 1, []⟩, ⟨true, 0, []⟩, false⟩

/-- Partition 1, row 1 of manufacture: the factory store test (09 R239). -/
def factoryTestRow : TallyRow :=
  let p := Persist.atReset
  let d := le 4 p.cap ++ le 4 p.esr ++ le 4 p.energy ++ le 4 p.lastCal ++ le 1 p.lastResult ++ le 2 p.tests
  ⟨⟨true, 1, d⟩, ⟨true, 0, d⟩, false⟩

/-- A row as manufacture leaves it (13 R354). -/
def madeRow (part row : Nat) : TallyRow := if part = 1 ∧ row = 1 then factoryTestRow else TallyRow.atReset

def TallyRow.pick (r : TallyRow) : Nat :=
  if r.a.valid && r.b.valid then (if r.a.seq < r.b.seq then 1 else 0)
  else if r.a.valid then 0
  else if r.b.valid then 1
  else 255

def TallyRow.clash (r : TallyRow) : Bool :=
  r.a.valid && r.b.valid && r.a.seq == r.b.seq && r.a.data != r.b.data

def TallyRow.copy (r : TallyRow) : TallyCopy :=
  if r.pick = 0 then r.a else if r.pick = 1 then r.b else ⟨false, 0, []⟩

/-- The row after a write of `data`: the copy not in use takes the sequence one higher; a lost record is written in both
copies (13 R354, Table 13-4). `bad` spoils the copy written (the flip mask, 13 R379). -/
def TallyRow.write (r : TallyRow) (data : Bytes) (bad : Bool) : TallyRow :=
  if r.pick = 0 then ⟨r.a, ⟨!bad, r.a.seq + 1, data⟩, false⟩
  else if r.pick = 1 then ⟨⟨!bad, r.b.seq + 1, data⟩, r.b, false⟩
  else ⟨⟨true, 1, data⟩, ⟨!bad, 2, data⟩, false⟩

def rowKey (part row : Nat) : Nat := part * 4096 + row
def State.row (s : State) (part row : Nat) : TallyRow := Tab.findD s.tly.rows (rowKey part row) (madeRow part row)

/-- Raise events 0x5A0 and 0x5A1 at the first read that finds their condition (13 R354). -/
def State.noteRow (s : State) (part row : Nat) : State :=
  let r := s.row part row
  let mark := { s with tly := { s.tly with rows := Tab.put s.tly.rows (rowKey part row) { r with reported := true } } }
  if r.reported then s
  else if r.clash then ev 0x5A0 1 [part, row] 255 mark
  else if r.pick = 255 then ev 0x5A1 2 [part, row] 255 mark
  else s

/-- Records of each partition (13 Table 13-1). -/
def partRows (p : Nat) : Nat := [128, 256, 2048, 256, 1024, 3072, 512, 512].getD p 0

/-! ## The mailbox gate (02 R35, R43, R44, R53, R57; 12 R330, R331) -/

/-- What the gate says of a command: it is no command now (nothing answers), it is refused, it waits, or it runs. -/
inductive Gate where
  | silent
  | refuse (rc : Rc)
  | hold
  | pass
deriving DecidableEq, Repr

/-- A foreground command runs: it waits for its rows, its frame or its line. -/
def State.mbRuns (s : State) : Bool := s.link.wait.isSome || s.link.resolve.isSome || !s.link.maint.isEmpty

/-- `tally`: the command reads or writes the tally store. `medium`: it touches memory contents. The one mailbox engine runs one
foreground command at a time: another, on either path, waits and runs next (02 R44; log entry 15). A tally request made while region G
restarts is answered after ready (01 R17). -/
def State.gate (s : State) (p : Path) (op : Nat) (tally medium : Bool) : Gate :=
  if s.boot.recovery then
    (if p = .mctp ∧ op ∈ [0x0200, 0x0201, 0x0202, 0xC060] then .pass else .silent)
  else if p = .primary && !s.link.mboxReady then .silent
  else if p = .mctp && decide (s.pwr.inputs.vaux = 0) then .silent
  else if !s.gRuns then (if tally && s.restarting 1 then .hold else .refuse .retryRequired)
  else if s.key.erasing = some 0x4400 ∧ op ∉ [0x4000, 0x4200, 0xC000] then .refuse .busy
  else if tally && s.tallyBusy then .refuse .busy
  else if medium && (s.pcieOnly || s.boot.hold) then .refuse .mediaDisabled
  else if medium && !s.link.memActive then .refuse .busy
  else if s.mbRuns || !s.link.held.isEmpty then .hold
  else .pass

/-- Mailbox command c: the gate, then its own effect. -/
def State.mailbox (s : State) (c : Instr) (p : Path) (op : Nat) (tally medium : Bool) (run : State → State) : State :=
  match s.gate p op tally medium with
  | .silent => s
  | .refuse rc => s.reply p op rc
  | .hold => { s with link := { s.link with held := s.link.held ++ [c] } }
  | .pass => run s

/-- Start a background command (02 R43): Busy while one runs. -/
def State.startBackground (s : State) (p : Path) (op target : Nat) : State :=
  { s with link := { s.link with background := some ⟨op, target, p⟩ } }.reply p op .backgroundStarted

/-- The end of a background command: its return code and vector 4. -/
def State.endBackground (s : State) (rc : Rc) : State :=
  match s.link.background with
  | none => s
  | some b =>
    ({ s with link := { s.link with background := none, backgroundRc := rc } }.out
      (.backgroundDone b.opcode rc)).sendMsix 4

end Sys2Proof.Machine
end

