-- ==== Sys2Proof/Machine/MapOps.lean ====
section
/-! DEFINITION. The map and what hangs on it: change records, the bead limit, the poison list, free stripe blocks and the
reclaim floor, spare cover and placeable capacity, failed-read-only (05 R131 to R135, 06 R141 to R173, 07 R190, R191). -/

namespace Sys2Proof.Machine

/-! ## Folio map entries and change records (06 R141, R145, R164, R165) -/

/-- Entry of a folio; one that is not listed is never-written. -/
def MapEntry.blank : MapEntry := ⟨none, false, false, false, false, false⟩
def State.entry (s : State) (f : Nat) : MapEntry := Tab.findD s.map.entries f MapEntry.blank

/-- Journal sequence of the tail sector that is open. -/
def State.openSeq (s : State) : Nat := s.map.committed + 1

/-- Bead limit in folios: the floor plus a sixteenth of the free space, in whole one-bead stripe blocks (06 R152). -/
def State.newLimit (s : State) : Nat := (s.map.beadFloor * 65536 + (s.folios - s.heldFolios) / 16) / 240 * 240

/-- Recompute the bead limit; event 0x309 when its fall leaves the bead area above it. -/
def State.recalcLimit (s : State) : State :=
  let n := s.newLimit
  let s1 := { s with map := { s.map with beadLimit := n, limitAtU := s.heldFolios } }
  if n < s.map.beadLimit ∧ n < s.beadFolios then ev 0x309 0 [divUp s.beadFolios 65536, n / 65536] 4 s1 else s1

/-- Recompute the limit when U has changed by 1 GiB. -/
def State.afterU (s : State) : State :=
  let u := s.heldFolios
  if 65536 ≤ (u - s.map.limitAtU) + (s.map.limitAtU - u) then s.recalcLimit else s

/-- Records of an integrity folio are those of folio 2^31 + n (log entry 44). -/
abbrev integMark : Nat := 2147483648

/-- A map with the entry that a change record leaves. -/
def applyChange (m : Tab MapEntry) (c : Change) : Tab MapEntry :=
  match c.entry with
  | some e => Tab.put m c.folio e
  | none => Tab.del m c.folio

/-- The map, or the integrity map, with a change record's entry. -/
def Map.change (m : Map) (c : Change) : Map :=
  if c.folio < integMark then { m with entries := applyChange m.entries c }
  else { m with integrity := applyChange m.integrity { c with folio := c.folio - integMark } }

/-- A change takes effect: the entry (none: never-written) and its record in the journal tail (06 R145). -/
def State.journalled (s : State) (c : Change) : State :=
  State.afterU { s with map := { s.map.change c with tail := s.map.tail ++ [c], tailSince := some (s.map.tailSince.getD s.now) } }

/-- The journal tail holds 64 KiB of records (06 R165). -/
abbrev tailMax : Nat := 4096

/-- New map changes wait: the journal is full (06 R167), or its tail is. -/
def State.changesWait (s : State) : Bool := s.map.waiting || !s.map.held.isEmpty || decide (tailMax ≤ s.map.tail.length)

/-- One map change; it waits its turn while changes wait. -/
def State.mapChange (s : State) (f : Nat) (e : Option MapEntry) (kind : Nat) : State :=
  if s.changesWait then { s with map := { s.map with held := s.map.held ++ [⟨f, e, kind⟩] } }
  else s.journalled ⟨f, e, kind⟩

/-! ## The medium journal (06 R164 to R167) -/

/-- Journal size and checkpoint threshold in sectors of 256 bytes (06 Table 6-10). -/
def State.journalSize (s : State) : Nat := (match s.part with | .p8192 => 1536 | .p4096 => 768) * 4096
def State.ckptThreshold (s : State) : Nat := (match s.part with | .p8192 => 384 | .p4096 => 192) * 4096

/-- Journal retained: back to the start of the older sealed checkpoint. -/
def Map.retain (m : Map) : Map :=
  { m with retained := (m.committed + 1 - m.ckptOlder) * 256, journal := m.journal.filter (fun x => decide (m.ckptOlder ≤ x.seq)) }

/-- The records of a journal sector that replay: those of a reclaim commit only once it is durable (06 R165). -/
def JSector.records (x : JSector) : List Change := x.changes.filter (fun c => x.settled || c.kind != 4)

/-- A checkpoint's map with the journal from its start replayed (06 R168). -/
def Map.replay (m : Map) (slot : Nat) : Tab MapEntry :=
  let c := m.ckpts.getD slot ⟨false, 0, 0, [], []⟩
  ((m.journal.filter (fun x => decide (c.start ≤ x.seq))).flatMap JSector.records).foldl applyChange c.entries

/-- The map and the integrity map of a replayed one. -/
def Map.load (m : Map) (t : Tab MapEntry) : Map :=
  { m with entries := t.filter (fun e => e.1 < integMark),
           integrity := (t.filter (fun e => integMark ≤ e.1)).map (fun e => (e.1 - integMark, e.2)) }

/-- A checkpoint begins when the journal since the newest sealed start passes the threshold. -/
def State.judgeCkpt (s : State) : State :=
  if s.map.ckptWriting.isNone && decide (s.ckptThreshold < s.map.committed + 1 - s.map.ckptStart) then
    { s with map := { s.map with ckptWriting := some (1 - s.map.ckptSlot, s.openSeq) } }
  else s

/-- Map changes wait while the journal is full (R167). -/
def State.judgeJournal (s : State) : State :=
  let full := decide (s.journalSize * 256 ≤ s.map.retained)
  if full && !s.map.waiting then
    ev 0x302 1 [s.map.retained / mib, Config.free s.fresh] 4
      { s with fresh := s.fresh + 1, map := { s.map with waiting := true } }
  else { s with map := { s.map with waiting := full } }

/-- Up to 15 records of the tail go to the medium journal in one sector, while it has room. -/
def State.flushSector (s : State) : State :=
  if s.map.tail.isEmpty || s.map.waiting then s
  else
    let rest := s.map.tail.drop 15
    let now := s.map.tail.take 15
    let m := { s.map with journal := s.map.journal ++ [JSector.mk s.openSeq now (!now.any (fun c => c.kind == 4))], tail := rest,
                          tailSince := if rest.isEmpty then none else some s.now, committed := s.map.committed + 1 }
    (State.judgeCkpt { s with map := m.retain }).judgeJournal

/-- The whole tail goes to the medium journal. -/
def flushSectors : Nat → State → State
  | 0, s => s
  | n + 1, s => flushSectors n s.flushSector

def State.flushTail (s : State) : State := flushSectors (divUp s.map.tail.length 15) s

/-! ## The poison list (07 R190, R191; 06 R148) -/

def PoisonRec.has (r : PoisonRec) (k : Nat) : Bool := decide (r.line ≤ k) && decide (k < r.line + r.length)
def State.listed (s : State) (k : Nat) : Bool := s.map.poison.any (fun r => r.has k)

/-- Rows of partition 2 hold 16 records each. -/
def PoisonRec.bytes (r : PoisonRec) : Bytes := le 8 (r.line * 64) ++ le 4 r.length ++ le 1 r.source ++ zeros 3

def State.poisonRow (s : State) (row : Nat) : Bytes :=
  ((s.map.poison.drop (16 * row)).take 16).flatMap PoisonRec.bytes

/-- Position of the record that an addition of line k extends: it ends just below k in the same sector, same source. -/
def extends? (k src : Nat) (r : PoisonRec) : Bool :=
  r.line + r.length == k && k % 4 != 0 && r.line / 4 == k / 4 && r.source == src

/-- The list cannot take a record: its overflow is noted once, with event 0x389 (R191). -/
def State.listFull (s : State) : State :=
  if s.map.overflow.isSome then s
  else ev 0x389 1 [8192, s.time.toNat] 4 { s with map := { s.map with overflow := some s.time.toNat } }

/-- Add line k (source 0 Internal, 1 External, 2 Injected) to the list, and the row that then changes; a line listed already
is not listed again, a full list overflows. -/
def State.addListed (s : State) (k src : Nat) : State × Option Nat :=
  if s.listed k then (s, none)
  else
    match s.map.poison.findIdx? (extends? k src) with
    | some i =>
      let l := s.map.poison.mapIdx (fun j r => if j = i then { r with length := r.length + 1 } else r)
      ({ s with map := { s.map with poison := l } }, some (i / 16))
    | none =>
      if 8192 ≤ s.map.poison.length then (s.listFull, none)
      else
        (State.bump { s with map := { s.map with poison := s.map.poison ++ [PoisonRec.mk k 1 src] } } CAL_POISON.additions,
          some (s.map.poison.length / 16))

/-- Add line k, and write its row. -/
def State.listLine (s : State) (k src : Nat) : State :=
  match s.addListed k src with
  | (s1, some i) => s1.ownRow 3 2 i (s1.poisonRow i)
  | (s1, none) => s1

/-- Injected poison persists (02 Table 2-13): a line listed as Injected reads as poison. -/
def State.injected (s : State) (k : Nat) : Bool := s.map.poison.any (fun r => r.source == 2 && r.has k)

/-- A record without line k: nothing, or the parts on both sides. -/
def PoisonRec.without (r : PoisonRec) (k : Nat) : List PoisonRec :=
  if r.has k then
    (if r.line < k then [⟨r.line, k - r.line, r.source⟩] else []) ++
      (if k + 1 < r.line + r.length then [⟨k + 1, r.line + r.length - k - 1, r.source⟩] else [])
  else [r]

/-- The folio has a listed line. -/
def State.folioListed (s : State) (f : Nat) : Bool :=
  s.map.poison.any (fun r => decide (r.line < (f + 1) * 256) && decide (f * 256 < r.line + r.length))

/-- Clear poisoned_range once no line of the folio is listed. -/
def State.settleFlag (s : State) (f : Nat) : State :=
  let e := s.entry f
  if e.poisonedRange && !s.folioListed f then s.mapChange f (some { e with poisonedRange := false }) 0 else s

/-- Remove line k from the list. The part after it becomes a record of its own, where the list of 8,192 records can take one
(log entry 36). -/
def State.unlist (s : State) (k : Nat) : State :=
  if s.listed k then
    let i := (s.map.poison.findIdx? (fun r => r.has k)).getD 0
    let l := s.map.poison.flatMap (fun r => PoisonRec.without r k)
    let s1 := if l.length ≤ 8192 then { s with map := { s.map with poison := l } }
      else State.listFull { s with map := { s.map with poison := s.map.poison.flatMap (fun r => (PoisonRec.without r k).take 1) } }
    State.settleFlag (s1.ownRow 3 2 (i / 16) (s1.poisonRow (i / 16))) (k / 256)
  else s

/-- Remove every line of a folio (06 R150). -/
def State.unlistFolio (s : State) (f : Nat) : State :=
  if s.folioListed f then
    let s1 := { s with map := { s.map with poison := s.map.poison.filter (fun r => decide (r.line / 256 ≠ f)) } }
    s1.ownRow 3 2 0 (s1.poisonRow 0)
  else s

/-- A line that reads as poison with no stored copy marked so is listed, and its folio's flag is set (06 R148). -/
def State.losePoison (s : State) (k : Nat) : State :=
  let s1 := s.listLine k 0
  let e := s1.entry (k / 256)
  if e.poisonedRange then s1 else s1.mapChange (k / 256) (some { e with poisonedRange := true }) 0

/-! ## Failed-read-only (05 R135, 06 R173) -/

/-- Enter failed-read-only with a cause (0 to 8 a region, 16 + g a group, 255 the placeable capacity). -/
def State.enterFro (s : State) (cause : Nat) : State :=
  if s.med.froCauses.contains cause then s
  else
    let s1 := { s with med := { s.med with froCauses := s.med.froCauses ++ [cause] } }
    if s.fro then s1 else ev 0x185 2 [if 16 ≤ cause ∧ cause < 32 then cause - 16 else cause] 4 s1

/-- The placeable capacity stops being a cause when U has fallen 1 GiB below it. -/
def State.leaveFro (s : State) : State :=
  if s.med.froCauses = [255] ∧ s.heldFolios + 65536 ≤ s.placeable then
    { s with med := { s.med with froCauses := [] } }
  else s

/-! ## Stripe blocks (05 R120, R131; 06 R160, R162, R169, R170) -/

def State.setBlock (s : State) (g b : Nat) (x : StripeBlock) : State :=
  { s with med := { s.med with blocks := Tab.put s.med.blocks (blkKey g b) x } }
def State.setDie (s : State) (i : Nat) (d : Die) : State := { s with med := { s.med with dies := setAt s.med.dies i d } }

/-- Folio slots of a stripe block (06 Table 6-3). -/
def slotsOf (bead : Bool) (w : Nat) : Nat := if bead then 16 * (w - 1) else 64 * (w - 1)

/-- Channels whose die of group g is not retired. -/
def State.groupChannels (s : State) (g : Nat) : List Nat := (List.range 16).filter (fun c => !(s.die (4 * c + g)).retired)

/-- The number that group g's next stripe block takes: one never used while any is left, else one that is free again. -/
def State.pickBlock (s : State) (g : Nat) : Option Nat :=
  if s.med.free.getD g 0 = 0 then none
  else
    let n := s.med.nextBlock.getD g 0
    if n < 152882 then some n else (s.med.freed.find? (fun k => k / perGroup == g)).map (· % perGroup)

/-- Wear of a free member block of die i. -/
def State.freeWear (s : State) (i ix : Nat) : Nat := wearOf s i ix (Tab.findD s.med.slotMax (memberKey i ix) 0)

/-- The free member block of die i that a new stripe block takes (06 R170): of least wear, which one never used has; with `most`
of most wear. -/
def State.pickMember (s : State) (i : Nat) (most : Bool) : Option Nat :=
  let d := s.die i
  let used := d.freed.foldl (fun m b =>
    match m with
    | none => some b
    | some a =>
      if (if most then decide (s.freeWear i a < s.freeWear i b) else decide (s.freeWear i b < s.freeWear i a)) then some b
      else some a) none
  let new := if d.nextIx < 157286 then some d.nextIx else none
  if most then used.or new else new.or used

/-- Take member block ix of die i: its reset in the mode of its next use counts its cycle, or the wear that its one-bead use left
(06 R169). -/
def State.takeMember (s : State) (i ix : Nat) (bead : Bool) : State :=
  let d := s.die i
  let up := fun (t : Tab Nat) (n : Nat) => if n = 0 then t else Tab.put t ix (Tab.findD t ix 0 + n)
  let s1 := s.setDie i { d with freed := d.freed.filter (fun b => b != ix), nextIx := max d.nextIx (ix + 1),
                                cycles4 := up d.cycles4 (b2n (!bead)),
                                cycles1 := up d.cycles1 (Tab.findD s.med.slotMax (memberKey i ix) 0) }
  { s1 with med := { s1.med with slotMax := Tab.del s1.med.slotMax (memberKey i ix) } }

/-- Members that a new stripe block of group g takes, one on each die that is not retired. -/
def takeMembers (g : Nat) (bead most : Bool) (s : State) : List Nat → State × List (Nat × Nat)
  | [] => (s, [])
  | c :: cs =>
    match s.pickMember (4 * c + g) most with
    | none => takeMembers g bead most s cs
    | some ix =>
      let r := takeMembers g bead most (s.takeMember (4 * c + g) ix bead) cs
      (r.1, (c, ix) :: r.2)

/-- Free stripe blocks of group g change by one; the reclaim floor comes into force below 1,024 and is released at 1,280
(06 R160). -/
def State.setFree (s : State) (g n : Nat) : State :=
  let s1 := { s with med := { s.med with free := setAt s.med.free g n } }
  let on := s.map.floorOn.getLsbD g
  if n < 1024 ∧ !on then
    ev 0x305 0 [g, n] 4 { s1 with map := { s1.map with floorOn := s1.map.floorOn ||| BitVec.twoPow 4 g } }
  else if 1280 ≤ n ∧ on then
    ev 0x306 0 [g, n] 4 { s1 with map := { s1.map with floorOn := s1.map.floorOn &&& ~~~(BitVec.twoPow 4 g) } }
  else s1

/-! ## The dies' operations (05 R115, R124) -/

/-- Nothing that die i does comes through: its media region restarts, has a block in reset, or is fenced (01 R27). -/
def State.dieHeld (s : State) (i : Nat) : Bool :=
  s.regionHolds (mediaRegion (dieChannel i)) || s.isFenced (mediaRegion (dieChannel i))

/-- Die of the parity sector at position k of the stripe block of a location (05 R120). -/
def State.parityDie (s : State) (l : Loc) (k : Nat) : Nat :=
  let m := (s.block l.group l.block).members
  4 * (m.getD (k % m.length) (0, 0)).1 + l.group

/-- An update is to write on die i: its data sectors first, then its parity sectors (05 R122). -/
def State.wants (s : State) (u : Update) (i : Nat) : Bool :=
  if u.data.isEmpty then u.parity.any (fun k => s.parityDie u.loc k == i) else u.data.any (fun n => s.dieAt u.loc n == i)

/-- Block number that stands for a die's reference area (05 R112). -/
abbrev refArea : Nat := 2 ^ 20

/-- No operation starts: the card is failed-read-only, and no rebuild goes on after a second loss (05 R134, R135). -/
def State.opsStop (s : State) : Bool :=
  s.fro && !(match s.med.rebuild with | some r => s.med.secondLoss.getLsbD r.group | none => false)

/-- Time of an operation in ns (05 Table 5-2). -/
def opTime (op : Nat) : Nat := if op = 2 then 1200 else if op = 3 then 40 * usec else if op = 4 then 300 * usec else 500

/-- An operation that waits for a die: its class, 0 to 5 an internal one (03 Table 3-8) and 8 the host's, the rank of the host class
whose data it writes, and whether the class's floor covers it. -/
structure Waiting where
  op : DieOp
  cls : Nat
  host : Nat
  floored : Bool

/-- The class of an update: that of its folio's placement, else a refresh; the migration floor is for margin-driven work. -/
def State.updateWaiting (s : State) (u : Update) : Waiting :=
  let o : DieOp := ⟨2, u.loc.group, u.loc.block, 0, false, 0, 0, s.now + 1200⟩
  match Tab.find s.map.homes u.folio with
  | some h => ⟨o, s.homeClass u.folio h, s.classRank (s.classAt (u.folio * 16384)), !isMove h.kind || h.kind == 8⟩
  | none => ⟨o, 1, 0, true⟩

/-- A copy of a reclaim job lies in a page of stripe block b of group g, or in the one page that `page` gives. -/
def State.reclaims (s : State) (g b : Nat) (page : Option Nat) : Bool :=
  let w := (s.block g b).members.length
  s.map.reclaim.any (fun e => e.2.copies.any (fun c => c.2.group == g && c.2.block == b && page.all (· == c.2.index / (w - 1))))

/-- The class of a page program: reclaim where it holds a copy of reclaim, the host's where it holds a write home, else that of a
folio in it. -/
def State.progWaiting (s : State) (p : PageProg) : Waiting :=
  let o : DieOp := ⟨3, p.group, p.block, 0, false, 0, 0, s.now + 40 * usec⟩
  let homes := p.folios.filterMap (fun f => f.bind (fun f => (Tab.find s.map.homes f).map (fun h => (f, h))))
  if s.reclaims p.group p.block (some p.page) then ⟨o, 0, 0, true⟩
  else match homes.find? (fun e => s.homeClass e.1 e.2 == 8), homes with
    | some e, _ => ⟨o, 8, s.classRank (s.classAt (e.1 * 16384)), false⟩
    | none, e :: _ => ⟨o, s.homeClass e.1 e.2, 0, e.2.kind == 8 || !isMove e.2.kind⟩
    | none, [] => ⟨o, 8, 0, false⟩

/-- The operations that wait for die i: a ledger entry; in-place writes; page programs, in page order within a stripe block; the resets
that set a block's mode, which come before that member's first write or program (05 R114). -/
def State.waitingOn (s : State) (i : Nat) : List Waiting :=
  let g := dieGroup i
  let c := dieChannel i
  let ready := fun b => !(s.block g b).toReset.contains c
  let us := s.med.updates.filter (fun u => u.loc.group == g && s.wants u i && ready u.loc.block)
  let ps := s.map.progs.filter (fun p => p.group == g && !p.reported.contains c && ready p.block &&
    (s.block g p.block).members.any (fun m => m.1 == c))
  let first := us.filter (fun u => us.find? (fun v => v.loc.block == u.loc.block) == some u)
  let pages := ps.filter (fun p => ps.find? (fun q => q.block == p.block) == some p)
  let resets := s.med.blocks.filter (fun e => e.1 / perGroup == g && e.2.toReset.contains c)
  (if 0 < (s.die i).refWrite then [⟨⟨2, g, refArea, 0, false, 0, 0, s.now + 1200⟩, 8, 0, false⟩] else []) ++
    (if s.opsStop then [] else
      first.map s.updateWaiting ++ pages.map s.progWaiting ++ resets.map (fun e =>
        let r := !e.2.bead && s.reclaims g (e.1 % perGroup) none
        ⟨⟨4, g, e.1 % perGroup, 0, false, 0, 0, s.now + 300 * usec⟩, if r then 0 else 8, 0, r⟩))

/-- The floor of a waiting operation's class is in force on its group's channels (03 Table 3-8, 06 R160). -/
def State.floorHere (s : State) (w : Waiting) : Bool :=
  w.floored && (if w.cls = 0 then s.map.floorOn.getLsbD w.op.group && !s.ckptFirst else s.floorActive w.cls)

/-- Rank of an operation that waits for a die (03 R68): within its class's floor, the host's, above the floor; none above the
class's ceiling. -/
def State.opRank (s : State) (i : Nat) (w : Waiting) : Option Nat :=
  let d := s.die i
  if s.floorHere w && decide (Tab.findD d.floorAt w.cls 0 ≤ s.now) then some 100
  else if w.cls = 8 then some (10 + w.host)
  else if s.now < Tab.findD d.ceilAt w.cls 0 then none
  else some 1

/-- The operation that die i takes next, with its rank; between equals the order of `waitingOn` (log entry 77). -/
def State.nextOp (s : State) (i : Nat) : Option (Waiting × Nat) :=
  (s.waitingOn i).foldl (fun m w =>
    match s.opRank i w, m with
    | some r, none => some (w, r)
    | some r, some x => if x.2 < r then some (w, r) else m
    | none, _ => m) none

/-- Die i can start an operation: it is idle, and within the media throttle's limit. -/
def State.dieFree (s : State) (i : Nat) : Bool :=
  (s.die i).op.isNone && decide ((s.die i).opAt ≤ s.now) && !(s.die i).retired && s.fitted i && !s.dieHeld i

/-- The operation that die i starts: no read is queued on it (05 R124), or a floor comes first (03 R68, R80). -/
def State.startsOn (s : State) (i : Nat) : Option Waiting :=
  if !s.dieFree i then none
  else match s.nextOp i with
    | some (w, r) => if s.queuedOn i = 0 || 100 ≤ r then some w else none
    | none => none

/-- How long after an operation of class m the next one lies within a share of pct percent of the die's time; the floor of
replay-home is 5,000 MB/s over all dies (log entry 80). -/
def State.sharePace (s : State) (m op pct : Nat) : Nat :=
  if m = 5 then (if op = 3 then 16384 else 256) * (16 * s.groups) / 5 else opTime op * 100 / pct

/-- Die i starts an operation. -/
def State.started (s : State) (d : Die) (w : Waiting) : Die :=
  let pct := [60, 5, 100, 100, 2, 100].getD w.cls 100
  let ceil := if w.cls = 1 then 20 else if w.cls = 4 then 10 else 100
  { d with op := some w.op, lastAt := s.now, opAt := if s.opShare = 100 then 0 else s.now + opTime w.op.op * 100 / s.opShare,
           floorAt := if w.cls = 8 then d.floorAt else Tab.put d.floorAt w.cls (s.now + s.sharePace w.cls w.op.op pct),
           ceilAt := if w.cls = 8 then d.ceilAt else Tab.put d.ceilAt w.cls (s.now + opTime w.op.op * 100 / ceil) }

/-- A command reaches channel c; one that is gated is woken (05 R137). -/
def State.reach (s : State) (c : Nat) : State :=
  { s with med := { s.med with
      usedAt := setAt s.med.usedAt c s.now,
      waking := if s.med.gated.getLsbD c then s.med.waking ||| BitVec.twoPow 16 c else s.med.waking } }

/-- A command is queued for die i. -/
def State.touch (s : State) (i : Nat) : State := (s.reach (dieChannel i)).setDie i { s.die i with lastAt := s.now }

/-- Idle dies take the operations that wait for them; one that waits for a gated channel wakes it (05 R137). -/
def State.kick (s : State) : State :=
  if !s.railsOn then s
  else
    let due := (List.range 64).filterMap (fun i => (s.startsOn i).map (fun w => (i, w)))
    let run := due.filter (fun e => !s.med.gated.getLsbD (dieChannel e.1))
    { s with med := { s.med with
        dies := run.foldl (fun ds e => setAt ds e.1 (s.started (s.die e.1) e.2)) s.med.dies,
        usedAt := run.foldl (fun l e => setAt l (dieChannel e.1) s.now) s.med.usedAt,
        waking := due.foldl (fun w e => if s.med.gated.getLsbD (dieChannel e.1) then w ||| BitVec.twoPow 16 (dieChannel e.1) else w)
          s.med.waking } }

/-- What the cells of stripe block k held is gone with its reset. -/
def Media.wiped (m : Media) (k : Nat) : Media :=
  { m with store := Tab.keep m.store (fun e _ => e / 262144 != k), secs := Tab.keep m.secs (fun e _ => e / 65536 != k),
           tornParity := m.tornParity.filter (fun e => e / 4096 != k) }

/-- Take free stripe block number b of group g, and reset its members in the mode of its use; with `most` it takes the free
member blocks of most wear (06 R170). -/
def State.takeNumber (s : State) (g b : Nat) (bead integrity most : Bool) : State :=
  let r := takeMembers g bead most s (s.groupChannels g)
  let s1 := r.1
  let x := { StripeBlock.blank with bead := bead, w := r.2.length, members := r.2, toReset := r.2.map (·.1), isOpen := true,
                                    integrity := integrity, writeCal := s.cal.calendar }
  let s2 := { s1 with med := { s1.med.wiped (blkKey g b) with
    freed := s1.med.freed.filter (fun k => k != blkKey g b),
    nextBlock := if s1.med.nextBlock.getD g 0 = b then setAt s1.med.nextBlock g (b + 1) else s1.med.nextBlock } }
  ((s2.setBlock g b x).setFree g (s2.med.free.getD g 0 - 1)).kick

/-- Take the free stripe block of group g that is next; none when none is free. -/
def State.takeBlock (s : State) (g : Nat) (bead integrity : Bool) : State × Option Nat :=
  match s.pickBlock g with
  | none => (s, none)
  | some b => (s.takeNumber g b bead integrity false, some b)

/-- A member block of a freed stripe block is free, unless it is retired; its reset will count the largest slot count of its
one-bead use (06 R169). -/
def freeMember (g wear : Nat) (s : State) (m : Nat × Nat) : State :=
  let i := 4 * m.1 + g
  let d := s.die i
  if d.bad.contains m.2 then s
  else
    let s1 := s.setDie i { d with freed := d.freed ++ [m.2] }
    if wear = 0 then s1
    else { s1 with med := { s1.med with slotMax := Tab.put s1.med.slotMax (memberKey i m.2) wear } }

/-- A stripe block with no referenced slot joins the free ones. -/
def State.freeBlock (s : State) (g b : Nat) : State :=
  let x := s.block g b
  let s1 := x.members.foldl (freeMember g (if x.bead then State.bead1 x else 0)) s
  let s2 := { s1 with med := { s1.med with blocks := Tab.del s1.med.blocks (blkKey g b),
                                           freed := s1.med.freed ++ [blkKey g b] } }
  s2.setFree g (s2.med.free.getD g 0 + 1)

/-! ## Spare (06 R172, R173) -/

/-- The bead floor that the losses drawn so far leave, in GiB. -/
def State.loweredFloor (s : State) : Nat :=
  let own := (s.spareGib + 4 * (s.floorDefault - s.run.policy.beadFloor)) * tenthsGib
  max s.floorLimit (s.run.policy.beadFloor - divUp (s.map.losses - own) (4 * tenthsGib))

/-- Lower the floor in steps of 1 GiB, each with event 0x30D. -/
def lowerFloor : Nat → Nat → State → State
  | 0, _, s => s
  | n + 1, goal, s =>
    if goal < s.map.beadFloor then
      lowerFloor n goal (ev 0x30D 1 [s.map.beadFloor - 1] 4
        (State.recalcLimit { s with map := { s.map with beadFloor := s.map.beadFloor - 1 } }))
    else s

/-- A loss draws on the spare cover: `tenths` of a MiB. -/
def State.drawSpare (s : State) (tenths : Nat) : State :=
  let s1 := { s with map := { s.map with losses := s.map.losses + tenths } }
  let s2 := lowerFloor 64 s1.loweredFloor s1
  let p := s.sparePct
  let q := s2.sparePct
  let s3 := if 25 ≤ p ∧ q < 25 then ev 0x30B 1 [q, s2.coverLeft / tenthsGib] 4 s2 else s2
  let s4 := if 10 ≤ p ∧ q < 10 then ev 0x30C 1 [q, s3.coverLeft / tenthsGib] 4 s3 else s3
  if s.placeable = s.folios ∧ s4.placeable < s4.folios then ev 0x30E 1 [s4.placeableGib, s4.uGib] 4 s4 else s4

/-! ## Memory_Active (02 R56, 05 R127, 03 R65, 09 R243) -/

/-- Setting Memory_Active: allowances start at 960, class windows begin afresh, B is the value last reported. -/
def State.setMemActive (s : State) : State :=
  { s with
    link := { s.link with memActive := true },
    med := { s.med with allow := (List.range 4).map (fun g => if g < s.groups then 960 else 0),
                        allowReads := [0, 0, 0, 0] },
    qos := { s.qos with cls := s.qos.cls.map (fun c => { c with winStart := s.now, recent := [] }) },
    pfl := { s.pfl with reported := s.pfl.budget } }

end Sys2Proof.Machine
end

