-- ==== Sys2Proof/Machine/Calib.lean ====
section
/-! DEFINITION. What a decoded sector reports: rates and counts of the threshold tables, margins of stripe blocks, and the
rewrites that they make due (07 R180, R184 to R187). -/

namespace Sys2Proof.Machine

/-- The entry with a rate moved 1/256 of the way towards a corrected count, and its reports counted, at power-on second `now`. -/
def ThrEntry.report (e : ThrEntry) (now corrected : Nat) (reports : List (Nat × Bool)) : ThrEntry :=
  let rate := (e.rate : Int) + Int.tdiv ((256 * corrected : Int) - e.rate) 256
  let add := fun (l : List Nat) (up : Bool) =>
    reports.foldl (fun l r => if r.2 = up then setAt l r.1 (l.getD r.1 0 + 1) else l) l
  { e with rate := rate.toNat, recent := Tab.put (Tab.keep e.recent (fun k _ => decide (now < k + 21600))) now (Tab.findD e.recent now 0 + 1),
           up := add e.up true, down := add e.down false }

def State.report (s : State) (key corrected : Nat) (reports : List (Nat × Bool)) : State :=
  { s with cal := { s.cal with
      thr := Tab.put s.cal.thr key ((Tab.findD s.cal.thr key ThrEntry.blank).report s.cal.powerOnS corrected reports) } }

/-- Counters of a sector decoded with correction. -/
def State.countCorrected (s : State) (corrected : Nat) : State :=
  if corrected = 0 then s
  else count 0x3005 1 none ((s.bump CAL_DECODE.corrected).bump ECC_TOTALS.corrected_persistent)

/-- Mark stripe block k due for rewrite, with the cause of event 0x384. -/
def State.setDue (s : State) (k cause : Nat) : State :=
  match Tab.find s.med.blocks k with
  | none => s
  | some x =>
    if x.due.isSome then s
    else
      { s with med := { s.med with blocks := Tab.put s.med.blocks k { x with due := some cause, dueSeq := s.cal.dueCount } },
               cal := { s.cal with dueCount := s.cal.dueCount + 1 } }

/-- Event 0x38A, once per stripe block: a sector of it was written at calendar w, before die i's ledger begins (R180). -/
def State.noteOld (s : State) (k i w : Nat) : State :=
  match Tab.find s.med.blocks k with
  | none => s
  | some x =>
    if (s.die i).beforeLedger w && !x.oldStamp then
      ev 0x38A 0 [i, k % 1048576, w] 4
        { s with med := { s.med with blocks := Tab.put s.med.blocks k { x with oldStamp := true } } }
    else s

/-- Projected count of stripe block x in 1/256: c_max by the ratio of the rates at the horizon's bin and at the bin where it was
seen. The manual states none where that rate is 0 (a free value). -/
def State.projected (s : State) (k : Nat) (x : StripeBlock) : Nat :=
  let d := s.die x.cDie
  let horizon := d.ageOf (s.blockTime k x) + 14 * 86400 * ageRate d.tempC / 65536
  let rh := (s.thrEntry x.cDie (s.blockBand k x) (binOf horizon)).rate
  let rs := (s.thrEntry x.cDie (s.blockBand k x) x.cBin).rate
  if x.cMax = 0 then 0 else if rs = 0 then Config.free s.fresh else x.cMax * 256 * rh / rs

/-- Stripe block x with margin m, due for rewrite with the cause of event 0x384 where `cause` gives one. -/
def State.setMargin (s : State) (k : Nat) (x : StripeBlock) (m : Int) (cause : Option Nat) : State :=
  let due := cause.isSome && x.due.isNone
  { s with
    fresh := s.fresh + 1,
    med := { s.med with blocks := Tab.put s.med.blocks k { x with
      margin := m, due := if due then cause else x.due, dueSeq := if due then s.cal.dueCount else x.dueSeq } },
    cal := { s.cal with dueCount := s.cal.dueCount + b2n due } }

/-- Evaluate the margin of stripe block k; below 7 it is due. -/
def State.evalMargin (s : State) (k : Nat) : State :=
  match Tab.find s.med.blocks k with
  | none => s
  | some x =>
    if !x.counted then s
    else
      let m : Int := 5376 - s.projected k x
      x.members.foldl (fun s e => s.noteOld k (memberDie k e) (s.blockTime k x)) (s.setMargin k x m (if m < 1792 then some 0 else none))

/-- A hard decode on die i found `corrected` errors in a sector of stripe block k in age bin `bin`: a new c_max has its margin
evaluated (R186), and 16 errors or more make the block due (R187). -/
def State.noteCount (s : State) (k i bin corrected : Nat) : State :=
  match Tab.find s.med.blocks k with
  | none => s
  | some x =>
    let new := decide (x.cMax < corrected) || decide (x.cBin < bin)
    let y := { x with cMax := if new then corrected else x.cMax, cBin := if new then bin else x.cBin, cDie := if new then i else x.cDie }
    let m : Int := if new && x.counted then 5376 - s.projected k y else x.margin
    s.setMargin k y m (if new && x.counted && decide (m < 1792) then some 0 else if 16 ≤ corrected then some 1 else none)

/-- A sector of stripe block k, written at calendar w, is decoded by a hard decode on die i, sensed with entry `key`. -/
def State.decoded (s : State) (k i key w corrected : Nat) (reports : List (Nat × Bool)) : State :=
  (((s.report key corrected reports).countCorrected corrected).noteCount k i (key % 16) corrected).noteOld k i w

/-- Write time of sector n at a location, for a decode of it. -/
def State.sectorTime (s : State) (l : Loc) (n : Nat) : Nat :=
  match s.sectorAt l n with
  | some y => y.writeTime
  | none => s.blockTime (blkKey l.group l.block) (s.block l.group l.block)

/-- Sector n at a location is decoded by a hard decode. -/
def State.decodedAt (s : State) (l : Loc) (n corrected : Nat) (reports : List (Nat × Bool)) : State :=
  s.decoded (blkKey l.group l.block) (s.dieAt l n) (s.sectorEntry l n) (s.sectorTime l n) corrected reports

/-- A sector read of the card's own is decoded: its errors beyond those of the flip mask are free values (R184). -/
def State.selfDecoded (s : State) (l : Loc) (n flips : Nat) : State :=
  { s with fresh := s.fresh + 1 }.decodedAt l n (flips + Config.free s.fresh % (22 - flips)) (Config.freeReports s.fresh)

end Sys2Proof.Machine
end

