-- ==== Sys2Proof/Machine/Tally.lean ====
section
/-! DEFINITION. The tally store: the supply checks, the refresh lap, the lifetime counts, the
passwords and the tally commands (13 R352 to R362). -/

namespace Sys2Proof.Machine

/-! ## Flip mask (13 R379) -/

/-- A fired mask: it disarms, the last firing is shown, event 0x5AC is raised. `place` is the partition and row, or the
line. -/
def State.flipFired (s : State) (partition row line : Nat) : State :=
  match s.flip.armed with
  | none => s
  | some m =>
    let s1 := { s with flip := ⟨none⟩ }
    let s2 := ((((s1.setReg ECC_FLIP_LAST.target m.target).setReg ECC_FLIP_LAST.valid 1).setReg
      ECC_FLIP_LAST.partition partition).setReg ECC_FLIP_LAST.row row).setReg ECC_FLIP_LAST.dpa line
    ev 0x5AC 0 (if m.target = 4 then [4, partition, row, m.mask.toNat] else [m.target, line * 64, m.mask.toNat]) 1 s2

/-- The armed mask spoils the copy that a write to this partition makes. -/
def State.flipsRow (s : State) (partition : Nat) : Bool :=
  match s.flip.armed with
  | some m => m.target == 4 && m.partition == partition
  | none => false

/-! ## Supply checks (13 R356) -/

/-- TALLY_SUPPLY_RECHECK, every 1 ms while a write is deferred. -/
def execTallySupplyRecheck (t : Nat) (rail0Good holdUp : Bool) (s : State) : Res :=
  let s := s.tick t
  .next (State.tallyKick { s with tly := { s.tly with rail0 := rail0Good, holdUp := holdUp } })

/-- The write that would start next. -/
def State.nextRow (s : State) : Option RowWrite :=
  match takeRank (nextRank s.tly.queue) s.tly.queue with
  | some (w, _) => some w
  | none => none

/-- TALLY_DEFERRAL_LIMIT: after 100 ms of deferral event 0x5A2 is raised once, and a mailbox command whose write waits
returns Retry Required and writes nothing. -/
def execTallyDeferralLimit (t : Nat) (vauxMv : Nat) (s : State) : Res :=
  let s := s.tick t
  if !s.tly.deferred || s.tly.deferEvent || decide (s.now < s.tly.deferredAt + 100 * msec) then .next s
  else
    match s.nextRow with
    | none => .next s
    | some w =>
      let s1 := ev 0x5A2 1 [w.part, w.row, vauxMv] 1 { s with tly := { s.tly with deferEvent := true } }
      match s1.link.wait with
      | none => .next s1
      | some c =>
        .next (s1.dropWait.reply c.path c.opcode .retryRequired)

/-! ## Refresh lap (13 R357) -/

/-- Rewrite both copies of a record: the older with sequence + 1, the other with sequence + 2. -/
def TallyRow.refresh (r : TallyRow) : TallyRow :=
  let d := r.copy.data
  if r.pick = 0 then ⟨⟨true, r.a.seq + 2, d⟩, ⟨true, r.a.seq + 1, d⟩, r.reported⟩
  else if r.pick = 1 then ⟨⟨true, r.b.seq + 1, d⟩, ⟨true, r.b.seq + 2, d⟩, r.reported⟩
  else r

/-- TALLY_REFRESH_LAP: after 720 power-on hours, the records with a weak copy are rewritten; a copy that fails its
read-back moves to a spare row. `weak` lists (partition, row), `replaced` (partition, row, copy). -/
def execTallyRefreshLap (t : Nat) (weak : List (Nat × Nat)) (replaced : List (Nat × Nat × Nat)) (s : State) : Res :=
  let s := s.tick t
  if s.tly.lapHours < 720 ∨ s.tly.running.isSome then .next s
  else
    let rows := weak.foldl (fun m w => Tab.put m (rowKey w.1 w.2)
      (Tab.findD m (rowKey w.1 w.2) (madeRow w.1 w.2)).refresh) s.tly.rows
    let s1 := { s with tly := { s.tly with rows := rows, lapHours := 0, spare := s.tly.spare - replaced.length } }
    let s2 := replaced.foldl (fun s r => ev 0x5A4 0 [r.1, r.2.1, r.2.2] 1 s) s1
    let s3 := if s.tly.spare ≥ 64 ∧ s2.tly.spare < 64 then ev 0x5A5 1 [s2.tly.spare] 1 s2 else s2
    .next (ev 0x5A3 0 [weak.length, replaced.length] 1 s3)

/-! ## Lifetime counts (13 R353) -/

/-- Partition 1 row 0. -/
def State.lifetimeRow (s : State) : Bytes :=
  le 8 s.cal.powerOnS ++ le 4 s.tly.powerCycles ++ le 4 s.pfl.dirtyShutdowns ++ le 8 s.tly.bytesRd ++
    le 8 s.tly.bytesWr ++ le 4 (s.reg PFL_COUNTS.dumps)

/-- Partition 3 rows 0 to 4: rail counters, then the histograms of the four kinds (11 R308). -/
def State.railRow (s : State) : Bytes :=
  s.pwr.rails.flatMap (fun r => le 2 r.latePg ++ le 2 r.pgLost ++ le 2 r.timeouts ++ le 2 r.regOt)

def State.histRow (s : State) (k : Nat) : Bytes :=
  (s.thm.hist.getD k []).flatMap (fun n => le 4 n) ++ le 1 (s.thm.highest.getD k 0 + 40).toNat

/-- Write partition 1 row 0. -/
def State.saveLifetime (s : State) : State := s.ownRow 6 1 0 s.lifetimeRow

/-- LIFETIME_COUNTER_SAVE, every 10 minutes of power-on: partition 1 row 0, and the rail counters and histograms. -/
def execLifetimeCounterSave (s : State) : Res :=
  .next (if s.canLog then
    [1, 2, 3, 4].foldl (fun x k => x.ownRow 6 3 k (s.histRow (k - 1)))
      (s.saveLifetime.ownRow 6 3 0 s.railRow)
  else s)

/-! ## Passwords (13 R359) -/

def bytes16 (v : BitVec 128) : Bytes := le 16 v.toNat

/-- The stored digest of a partition's password: partition 5, row 3000 + p (the row is the model's, log entry 21). -/
def State.passDigest (s : State) (p : Nat) : BitVec 256 :=
  match Tab.find s.tly.rows (rowKey 5 (3000 + p)) with
  | some r => BitVec.ofNat 256 (ofBytes (r.copy.data.take 32))
  | none => if p = 7 then Config.sha3 (zeros 16) else Config.serviceDigest

def State.passOk (s : State) (p : Nat) (w : BitVec 128) : Bool := Config.sha3 (bytes16 w) == s.passDigest p
def State.lockedOut (s : State) (p : Nat) : Bool := s.tly.locked.contains p

/-- A wrong password: the fifth locks the partition until PERST_N or cold power-on. -/
def State.wrongPass (s : State) (p : Nat) : State :=
  let n := Tab.findD s.tly.wrong p 0 + 1
  let s1 := { s with tly := { s.tly with wrong := Tab.put s.tly.wrong p n } }
  if n = 5 then ev 0x5A6 1 [p] 1 { s1 with tly := { s1.tly with locked := s1.tly.locked ++ [p] } } else s1

/-- A command for a partition with a password: Incorrect Passphrase while locked out or when it is wrong. -/
def State.withPass (s : State) (p : Nat) (w : BitVec 128) (path : Path) (op : Nat) (run : State → State) : State :=
  if s.lockedOut p then s.reply path op .incorrectPassphrase
  else if s.passOk p w then run s
  else (s.wrongPass p).reply path op .incorrectPassphrase

/-! ## Tally commands (13 R360 to R362) -/

/-- The 264 bytes of one row: data, sequence of the copy used, the copy, 3 bytes of 0. -/
def State.rowOut (s : State) (p row : Nat) : Bytes :=
  let r := s.row p row
  fit 256 r.copy.data ++ le 4 r.copy.seq ++ le 1 r.pick ++ zeros 3

/-- READ_TALLY_RECORDS. -/
def execReadTallyRecords (t : Nat) (path : Path) (partition row count : Nat) (password : BitVec 128) (s : State) :
    Res :=
  .next ((s.tick t).mailbox (.readTallyRecords t path partition row count password) path 0xC001 true false (fun s =>
    if 8 ≤ partition ∨ partition = 5 ∨ partRows partition ≤ row ∨ count = 0 ∨ 240 < count then
      s.reply path 0xC001 .invalidInput
    else
      let n := min count (partRows partition - row)
      let answer := fun (s : State) =>
        ((List.range n).foldl (fun s k => s.noteRow partition (row + k)) s).reply path 0xC001 .success
          (le 2 n ++ zeros 14 ++ (List.range n).flatMap (fun k => s.rowOut partition (row + k)))
      if partition = 6 ∨ partition = 7 then s.withPass partition password path 0xC001 answer else answer s))

/-- WRITE_CUSTOMER_TALLY: it returns when its row write completes. -/
def execWriteCustomerTally (t : Nat) (path : Path) (row : Nat) (password : BitVec 128) (data : Bytes) (s : State) :
    Res :=
  .next ((s.tick t).mailbox (.writeCustomerTally t path row password data) path 0xC002 true false (fun s =>
    if 511 < row ∨ data.length ≠ 256 then s.reply path 0xC002 .invalidInput
    else s.withPass 7 password path 0xC002 (fun s =>
      s.replyAfter path 0xC002 [] [] [⟨4, 7, row, data, 1, 0⟩])))

/-- SET_TALLY_PASSWORD: the digest goes to partition 5. -/
def execSetTallyPassword (t : Nat) (path : Path) (partition : Nat) (old new : BitVec 128) (s : State) : Res :=
  .next ((s.tick t).mailbox (.setTallyPassword t path partition old new) path 0xC003 true false (fun s =>
    if partition ≠ 6 ∧ partition ≠ 7 then s.reply path 0xC003 .invalidInput
    else s.withPass partition old path 0xC003 (fun s =>
      s.replyAfter path 0xC003 [] [] [⟨4, 5, 3000 + partition, le 32 (Config.sha3 (bytes16 new)).toNat, 1, 0⟩])))

end Sys2Proof.Machine
end

