-- ==== Sys2Proof/Machine/Store.lean ====
section
/-! DEFINITION. What the medium holds and how it is written and read: keys, counters and MACs (08 R202 to R219), stored
lines and their dies (05 R117 to R120, 06 R143), and placements of folios (06 R153, R154). -/

namespace Sys2Proof.Machine

/-! ## Lines of 64 bytes within wider words -/

/-- 64-byte line i of a 256-byte line, and the 256-byte line with it replaced. -/
def part (d : BitVec 2048) (i : Nat) : Line := (d >>> (512 * i)).setWidth 512
def setPart (d : BitVec 2048) (i : Nat) (x : Line) : BitVec 2048 :=
  (d &&& ~~~((BitVec.allOnes 512).setWidth 2048 <<< (512 * i))) ||| (x.setWidth 2048 <<< (512 * i))

/-- Bit mask with every enabled byte's 8 bits set. -/
def expand (e : Enables) : Line :=
  (List.range 64).foldl (fun m i => if e.getLsbD i then m ||| (BitVec.ofNat 512 255 <<< (8 * i)) else m) 0

/-- The enabled bytes of b over a. -/
def mergeLine (a b : Line) (e : Enables) : Line := (a &&& ~~~(expand e)) ||| (b &&& expand e)

/-! ## Units and key slots (08 R202 to R207) -/

/-- A unit's entry; an unbound unit takes the key of its extent, phase 0 (R202). -/
def State.unitKey (s : State) (u : Nat) : UnitKey :=
  let free : UnitKey := ⟨(s.extentAt (u * (256 * mib))).key, 0, false, false, false, false, false, false⟩
  match Tab.find s.key.units u with
  | some e => if e.bound then e else { e with key := free.key, phase := false }
  | none => free

def State.slot (s : State) (n : Nat) : KeySlot := Tab.findD s.key.slots n ⟨0, 0, 0, 0⟩
def State.setSlot (s : State) (n : Nat) (x : KeySlot) : State :=
  { s with key := { s.key with slots := Tab.put s.key.slots n x } }
def State.setUnit (s : State) (u : Nat) (x : UnitKey) : State :=
  { s with key := { s.key with units := Tab.put s.key.units u x } }

/-- Unit of a line number DPA[42:6]. -/
def unitOfLine (k : Nat) : Nat := k / 4194304

/-- Slot whose key a line of this phase is under. -/
def State.slotFor (s : State) (k : Nat) (phase : Bool) : Nat :=
  let u := s.unitKey (unitOfLine k)
  if phase = u.phase then u.key else u.prev

/-- The unit is locked: its slot is empty (R203). -/
def State.lockedUnit (s : State) (u : Nat) : Bool := (s.slot (s.unitKey u).key).st == 0

/-- The use count of a slot rises by n (R207). -/
def State.use (s : State) (slot n : Nat) : State :=
  let x := s.slot slot
  s.setSlot slot { x with uses := x.uses + n }

/-- Draw fresh key numbers (R204: the DRBG's keys are numbered as they are drawn). -/
def State.drawKey (s : State) : State × Nat := ({ s with fresh := s.fresh + 1 }, s.fresh + 2)

/-- Fill a slot with new keys: generation + 1, use count 0, Active (R205). -/
def State.fillSlot (s : State) (n : Nat) : State :=
  let d := s.drawKey
  d.1.setSlot n ⟨1, (s.slot n).gen + 1, 0, d.2⟩

/-! ## Sectors (05 R118, R120, R130) -/

/-- Where line ix of the folio at a location is kept in `Media.store`. -/
def storeKey (l : Loc) (ix : Nat) : Nat := locKey l * 256 + ix

def State.storedAt (s : State) (l : Loc) (ix : Nat) : Option Stored := Tab.find s.med.store (storeKey l ix)

/-- Write sector n of the folio at a location: its metadata word is written with it. A write in place keeps the placement
sequence (05 Table 5-4). -/
def State.stampSector (s : State) (f : Nat) (l : Loc) (kind flips : Nat) (n : Nat) : State :=
  let seq := match s.sectorAt l n with
    | some x => if x.folio = f then x.seq else s.openSeq
    | none => s.openSeq
  let x : Sector := ⟨f, s.cal.calendar, (s.die (s.dieAt l n)).tempC, seq, kind, false, false, flips⟩
  { s with med := { s.med with secs := Tab.put s.med.secs (sectorKey l n) x } }

/-- The slot at a location is taken for a new placement: what an earlier folio left in it is no longer there. -/
def State.clearSlot (s : State) (l : Loc) : State :=
  { s with med := { s.med with secs := Tab.keep s.med.secs (fun k _ => k / 64 != locKey l),
                               store := Tab.keep s.med.store (fun k _ => k / 256 != locKey l) } }

/-- A sector read that die i completes, other than for a reconstruction: it counts towards its group's allowance, 1 for every 19
(05 R127), and in MED_DIE_READS. -/
def State.sensed (s : State) (i : Nat) : State :=
  let g := dieGroup i
  let n := s.med.allowReads.getD g 0 + 1
  let a := s.med.allow.getD g 0
  let s2 := s.bump MED_DIE_READS.sectors 1 i
  { s2 with med := { s2.med with
    usedAt := setAt s2.med.usedAt (dieChannel i) s2.now,
    allowReads := setAt s2.med.allowReads g (if 19 ≤ n then 0 else n),
    allow := setAt s2.med.allow g (if 19 ≤ n then min 960 (a + 1) else a) } }

/-- A sector read of the card's own on die i. -/
def State.sense (s : State) (i : Nat) : State := (s.touch i).sensed i

/-- The sector cannot be decoded by a decode that corrects up to `limit` errors. -/
def Sector.bad (x : Sector) (limit : Nat) : Bool := x.lost || x.torn || decide (limit < x.flips)

/-- Stripe position of sector n of the folio at a location. -/
def State.stripeOf (s : State) (l : Loc) (n : Nat) : Nat := (sectorPlace (s.block l.group l.block) (64 * l.index + n)).1

/-- The stripe's other sectors, parity included, can be decoded as they are stored (05 R128). -/
def State.peersDecode (s : State) (l : Loc) (n limit : Nat) : Bool :=
  let w := (s.block l.group l.block).members.length
  let k := s.stripeOf l n
  !s.med.tornParity.contains (blkKey l.group l.block * 4096 + k) &&
    (List.range (w - 1)).all (fun j => k * (w - 1) + j == 64 * l.index + n ||
      (match Tab.find s.med.secs (blkKey l.group l.block * 65536 + k * (w - 1) + j) with
       | some x => !x.bad limit
       | none => true))

/-- Reconstruction of sector n of the folio at a location is possible (05 R128): every other die of the stripe answers, and its
sector decodes. -/
def State.stripeReady (s : State) (l : Loc) (n limit : Nat) : Bool :=
  let d := s.dieAt l n
  s.peersDecode l n limit && (s.block l.group l.block).members.all (fun m =>
    let i := 4 * m.1 + l.group
    i == d || (!(s.die i).retired && !s.dieHeld i && !s.med.gated.getLsbD m.1))

/-- A sector is lost (05 R130): its lines read as poison, enter the poison list, and event 0x181 is raised. `peers` is the mask of
the peer dies that were undecodable too. -/
def State.loseSector (s : State) (l : Loc) (n peers : Nat) : State :=
  match s.sectorAt l n with
  | none => s
  | some x =>
    if x.lost then s
    else
      let s1 := { s with med := { s.med with secs := Tab.put s.med.secs (sectorKey l n) { x with lost := true } } }
      let k := x.folio * 256 + 4 * n
      let s2 := if x.kind = 0 then [0, 1, 2, 3].foldl (fun s i => s.losePoison (k + i)) s1 else s1
      ev 0x181 2 [if x.kind = 0 then k * 64 else 2 ^ 64 - 1, x.kind, s.dieAt l n, l.block, s.stripeOf l n, peers] 4 s2

/-- Data sectors at position k of the stripe block of a location, as locations and sectors within their folios. -/
def State.stripeData (s : State) (l : Loc) (k : Nat) : List (Loc × Nat) :=
  let w := (s.block l.group l.block).members.length
  (List.range (w - 1)).map (fun j => (⟨l.group, l.block, (k * (w - 1) + j) / 64⟩, (k * (w - 1) + j) % 64))

/-- The peers of sector n at a location, which a reconstruction reads, report to their own dies' tables where they decode; the parity
sector too (07 Table 7-4). -/
def State.peersReport (s : State) (l : Loc) (n : Nat) (bad : List Nat) : State :=
  let k := s.stripeOf l n
  let b := blkKey l.group l.block
  let p := s.parityDie l k
  let good := (s.stripeData l k).filter (fun q => s.dieAt q.1 q.2 != s.dieAt l n && !bad.contains (s.dieAt q.1 q.2))
  let s1 := good.foldl (fun s q => match s.sectorAt q.1 q.2 with
    | some y => if y.bad 21 then s else s.selfDecoded q.1 q.2 y.flips
    | none => s) s
  let y := s1.block l.group l.block
  if bad.contains p then s1
  else { s1 with fresh := s1.fresh + 1 }.decoded b p (s1.blockEntry b p y) (s1.blockTime b y) (Config.free s1.fresh % 22)
    (Config.freeReports s1.fresh)

/-- An internal read of sector n at a location: one that does not decode is recovered by 05 R130, or lost. The sectors of a retired
die come from their peers. -/
def State.readSource (l : Loc) (s : State) (n : Nat) : State :=
  let i := s.dieAt l n
  let peers := fun (s : State) => ((s.block l.group l.block).members.foldl (fun s m =>
    if 4 * m.1 + l.group = i then s else (s.touch (4 * m.1 + l.group)).bump MED_DIE_READS.sectors 1 (4 * m.1 + l.group)) s).peersReport l n []
  match s.sectorAt l n with
  | none => s
  | some x =>
    if x.lost then s
    else if (s.die i).retired then
      if s.stripeReady l n 27 then (peers s).bump MED_DIE_ERR.reconstructed 1 i else s.loseSector l n 0
    else
      let s1 := s.sense i
      if !x.bad 21 then s1.selfDecoded l n x.flips
      else if !x.bad 27 then s1.bump CAL_DECODE.soft_ok
      else
        let s2 := s1.bump CAL_DECODE.soft_failed
        if s2.stripeReady l n 27 then ((peers s2).bump MED_RECON.recovered).bump MED_DIE_ERR.reconstructed 1 i
        else s2.loseSector l n 0

/-! ## Open stripe pages and bead slots (06 R153, R154) -/

def bwd (g n : Nat) : Nat := (g + n) % 4

/-- The groups in turn, from group n. -/
def State.turn (s : State) (n : Nat) : List Nat :=
  ([0, 1, 2, 3].map (bwd n)).filter (fun g => decide (g < s.groups))

/-- Group g can take a folio: it has an open page, or a free stripe block. -/
def State.groupOpen (s : State) (g : Nat) : Bool :=
  (Tab.find s.map.pages g).isSome || (s.pickBlock g).isSome

/-- Start programming a full page: every member's die takes its page program, independently (05 R121). -/
def State.startPage (s : State) (g : Nat) (p : OpenPage) : State :=
  let next := if p.page < 63 then Tab.put s.map.pages g ⟨p.block, p.page + 1, [], none⟩ else Tab.del s.map.pages g
  State.kick { s with map := { s.map with pages := next, progs := s.map.progs ++ [⟨g, p.block, p.page, p.folios, []⟩] } }

/-- Give folio f (none: padding) the next slot of group g's open page. -/
def State.fillPage (s : State) (g : Nat) (f : Option Nat) : State × Option Loc :=
  let a : State × Option OpenPage := match Tab.find s.map.pages g with
    | some p => (s, some p)
    | none =>
      match s.takeBlock g false false with
      | (s1, some b) => (s1, some ⟨b, 0, [], none⟩)
      | (s1, none) => (s1, none)
  match a.2 with
  | none => (a.1, none)
  | some p =>
    let w := (a.1.block g p.block).members.length
    let q := { p with folios := p.folios ++ [f], since := some (p.since.getD s.now) }
    let l : Loc := ⟨g, p.block, p.page * (w - 1) + p.folios.length⟩
    let s1 := { a.1 with map := { a.1.map with pages := Tab.put a.1.map.pages g q } }
    (if q.folios.length = w - 1 then s1.startPage g q else s1, some l)

/-- Place a folio in the open stripe page of the next group in turn. -/
def State.pageSlot (s : State) (f : Nat) : State × Option Loc :=
  match (s.turn s.map.nextGroup).filter s.groupOpen with
  | [] => (s, none)
  | g :: _ => State.fillPage { s with map := { s.map with nextGroup := (g + 1) % s.groups } } g (some f)

/-- Slots of block b of group g that an entry, a shadow, an uncommitted placement or a waiting map change references. -/
def State.usedSlots (s : State) (g b : Nat) : List Nat :=
  let at_ := fun (l : Loc) => l.group == g && l.block == b
  (s.map.entries.filterMap (fun e => e.2.loc) ++ s.map.integrity.filterMap (fun e => e.2.loc) ++
    s.ring.shadows.map (fun e => e.2.loc) ++ s.map.homes.map (fun e => e.2.loc) ++
    s.map.held.filterMap (fun c => c.entry.bind (·.loc))).filter at_ |>.map (·.index)

/-- A free slot of an open bead block (other than `avoid`). -/
def State.beadFree (s : State) (integrity : Bool) (avoid : Option Nat) : Option Loc :=
  s.med.blocks.findSome? (fun e =>
    if e.2.bead && e.2.isOpen && e.2.integrity == integrity && avoid != some e.1 then
      let g := e.1 / perGroup
      let b := e.1 % perGroup
      let u := s.usedSlots g b
      ((List.range (slotsOf true e.2.members.length)).find? (fun i => !u.contains i)).map (fun i => ⟨g, b, i⟩)
    else none)

/-- Take a free bead slot, in a new bead block where no open one has any. -/
def State.beadSlot (s : State) (integrity : Bool) (avoid : Option Nat) : State × Option Loc :=
  match s.beadFree integrity avoid with
  | some l => (s, some l)
  | none =>
    match (s.turn s.map.nextBead).filter (fun g => (s.pickBlock g).isSome) with
    | [] => (s, none)
    | g :: _ =>
      match State.takeBlock { s with map := { s.map with nextBead := (g + 1) % s.groups } } g true integrity with
      | (s1, some b) => (s1, some ⟨g, b, 0⟩)
      | (s1, none) => (s1, none)

/-! ## Freeing what a map change leaves (06 R162) -/

/-- A stripe block's slot is referenced by the map, a shadow or an uncommitted placement. -/
def State.blockUsed (s : State) (g b : Nat) : Bool :=
  !(s.usedSlots g b).isEmpty || (s.map.reclaim.any (fun e => e.2.copies.any (fun c => c.2.group == g && c.2.block == b)))

/-- A stripe block that holds no referenced slot is free: a four-bead one once it is not open, a bead block at once. -/
def State.freeIfEmpty (s : State) (l : Loc) : State :=
  let x := s.block l.group l.block
  if (!x.bead && x.isOpen) || x.members.isEmpty || s.blockUsed l.group l.block ||
      (s.map.reclaim.any (fun e => e.1 == l.group && e.2.source == l.block)) then s
  else s.freeBlock l.group l.block

/-! ## Integrity folios (08 R213) -/

/-- First integrity folio of a level's nodes: 256 nodes of one level to a folio, levels in order. -/
def State.integBase (s : State) (lvl : Nat) : Nat :=
  let n := s.capGib * 1024
  match lvl with
  | 0 => 0
  | 1 => n
  | 2 => n + n / 64
  | _ => n + n / 64 + n / 4096

/-- One map change of integrity folio n. -/
def State.integChange (s : State) (n : Nat) (e : MapEntry) (kind : Nat) : State := s.mapChange (integMark + n) (some e) kind

/-- Sectors that hold counter blocks and nodes are of kind 3 (05 Table 5-4). -/
def State.stampInteg (s : State) (n : Nat) (l : Loc) : State :=
  (List.range 64).foldl (State.stampSector · (integMark + n) l 3 0) (s.clearSlot l)

/-- Place integrity folio n anew: in a bead slot while the bead limit has room, at once; else in an open stripe page, whose
completion commits it as it does a host folio's (05 R121). A copy that is assembled already takes what is newer. -/
def State.integPlace (s : State) (n : Nat) (old : Option Loc) : State :=
  if (Tab.find s.map.homes (integMark + n)).isSome then s
  else if s.beadFolios < s.map.beadLimit then
    match s.beadSlot true none with
    | (s1, none) => s1
    | (s1, some l) =>
      let s2 := (s1.stampInteg n l).integChange n ⟨some l, true, false, false, false, false⟩ 1
      match old with
      | some o => s2.freeIfEmpty o
      | none => s2
  else
    match s.pageSlot (integMark + n) with
    | (s1, none) => s1
    | (s1, some l) =>
      let s2 := s1.stampInteg n l
      { s2 with map := { s2.map with homes := Tab.put s2.map.homes (integMark + n) ⟨10, l, false, [], 0, 0, false, false, false, old⟩ } }

/-- A node of a level is written home: its integrity folio is updated in place in a bead slot, else placed anew. -/
def State.integHome (s : State) (lvl ix : Nat) : State :=
  let n := s.integBase lvl + ix / 256
  match Tab.find s.map.integrity n with
  | none => s.integPlace n none
  | some e =>
    match e.loc, e.bead with
    | some l, true =>
      let x := s.block l.group l.block
      (s.setBlock l.group l.block { x with homes := Tab.put x.homes l.index (Tab.findD x.homes l.index 0 + 1) }).stampSector
        (integMark + n) l 3 0 (ix % 256 / 4)
    | o, _ => s.integPlace n o

/-! ## Counters (08 R210 to R212) -/

def Counter.zero : Counter := ⟨0, []⟩
def Counter.minor (c : Counter) (i : Nat) : Nat := Tab.findD c.minors i 0
def Counter.set (c : Counter) (i v : Nat) : Counter := { c with minors := putObs c.minors i 0 v }
def State.ctr (s : State) (p : Nat) : Counter := Tab.findD s.key.ctrs p Counter.zero

/-- Node of level 1 to 6 (the root is level 6). -/
def nodeKey (lvl ix : Nat) : Nat := lvl * 2 ^ 32 + ix

/-- The minor of a node's child rises; past 127 the major does (R211, R212). -/
def State.raiseMinor (s : State) (lvl ix child : Nat) : State :=
  let c := Tab.findD s.key.nodes (nodeKey lvl ix) Counter.zero
  if c.minor child < 127 then
    { s with key := { s.key with nodes := Tab.put s.key.nodes (nodeKey lvl ix) (c.set child (c.minor child + 1)) } }
  else
    let s1 := s.bump KEY_OVERFLOW.node_overflows
    { s1 with key := { s1.key with
      nodes := Tab.put s1.key.nodes (nodeKey lvl ix) ⟨c.major + 1, []⟩,
      highMajor := setAt s1.key.highMajor lvl (max (s1.key.highMajor.getD lvl 0) (c.major + 1)) } }

/-- Set of the node cache that a node lies in: its index among the 4,096 sets (log entry 34). -/
def nodeSet (k : Nat) : Nat := k % 2 ^ 32 % 4096

/-- The node cache with node k as the newest of its set, and what the set's eight ways displace (R214). -/
def cacheNode (c : Tab (List Nat)) (k : Nat) : Tab (List Nat) × Option Nat :=
  let l := k :: (Tab.findD c (nodeSet k) []).filter (fun x => x != k)
  (Tab.put c (nodeSet k) (l.take 8), (l.drop 8).head?)

/-- Keep node k in the node cache, or on chip from level 4 up; `dirty` marks it. A dirty node that it displaces is written
home, which raises its parent's minor and keeps the parent. -/
def keepNode : Nat → Nat → Bool → State → State
  | 0, _, _, s => s
  | n + 1, k, dirty, s =>
    if 4 * 2 ^ 32 ≤ k then s
    else
      let c := cacheNode s.key.nodeCache k
      let left := s.key.dirtyNodes.filter (fun x => x != k)
      let s1 := { s with key := { s.key with nodeCache := c.1,
                                             dirtyNodes := if dirty then left ++ [k] else s.key.dirtyNodes } }
      match c.2 with
      | none => s1
      | some v =>
        if s1.key.dirtyNodes.contains v then
          let lvl := v / 2 ^ 32
          let ix := v % 2 ^ 32
          let s2 := { s1 with key := { s1.key with
            dirtyNodes := s1.key.dirtyNodes.filter (fun x => x != v),
            nodesHome := Tab.put s1.key.nodesHome v (Tab.findD s1.key.nodes v Counter.zero) } }
          keepNode n (nodeKey (lvl + 1) (ix / 64)) true
            ((s2.integHome lvl ix).raiseMinor (lvl + 1) (ix / 64) (ix % 64))
        else s1

/-- A child of a node has been written home. -/
def State.bumpNode (s : State) (lvl ix child : Nat) : State := keepNode 4 (nodeKey lvl ix) true (s.raiseMinor lvl ix child)

/-- Write a dirty node home. -/
def State.nodeHome (s : State) (v : Nat) : State :=
  let lvl := v / 2 ^ 32
  let ix := v % 2 ^ 32
  let s1 := { s with key := { s.key with
    dirtyNodes := s.key.dirtyNodes.filter (fun x => x != v),
    nodesHome := Tab.put s.key.nodesHome v (Tab.findD s.key.nodes v Counter.zero) } }
  (s1.integHome lvl ix).bumpNode (lvl + 1) (ix / 64) (ix % 64)

/-- Every dirty node goes home, level by level. -/
def State.nodesToHome (s : State) : State :=
  [1, 2, 3].foldl (fun s lvl => (s.key.dirtyNodes.filter (fun v => v / 2 ^ 32 == lvl)).foldl State.nodeHome s) s

/-- Write a dirty counter block home. -/
def State.ctrHome (s : State) (p : Nat) : State :=
  let s1 := { s with key := { s.key with ctrsHome := Tab.put s.key.ctrsHome p (s.ctr p),
                                         dirtyCtrs := s.key.dirtyCtrs.filter (fun q => q != p),
                                         ctrMirror := Tab.del s.key.ctrMirror (p % 2 ^ 22) } }
  (s1.integHome 0 p).bumpNode 1 (p / 64) (p % 64)

/-- Counter blocks that may be dirty: 64 MiB (09 R236). -/
abbrev dirtyMax : Nat := 1048576

/-- Bring page p into the counter cache; what it displaces goes home if it is dirty. -/
def State.ctrFetch (s : State) (p : Nat) : State :=
  let put := fun (s : State) => { s with key := { s.key with ctrCache := Tab.put s.key.ctrCache (p % 2 ^ 22) p } }
  match Tab.find s.key.ctrCache (p % 2 ^ 22) with
  | some q => if q = p then s else if s.key.dirtyCtrs.contains q then put (s.ctrHome q) else put s
  | none => put s

/-- Set a counter block, dirty in the counter cache and written to its mirror slot too (04 R103); the oldest
dirty one goes home first when there is no room. -/
def State.setCtr (s : State) (p : Nat) (c : Counter) : State :=
  let s1 := s.ctrFetch p
  if s1.key.dirtyCtrs.contains p then { s1 with key := { s1.key with ctrs := Tab.put s1.key.ctrs p c } }
  else
    let s2 := if dirtyMax ≤ s1.key.dirtyCtrs.length then s1.ctrHome (s1.key.dirtyCtrs.headD 0) else s1
    { s2 with key := { s2.key with ctrs := Tab.put s2.key.ctrs p c, dirtyCtrs := (s2.key.dirtyCtrs ++ [p]),
                                                      ctrMirror := Tab.put s2.key.ctrMirror (p % 2 ^ 22) p } }

/-! ## Cipher and MAC (08 R208, R209, Table 8-4) -/

/-- The counter value of Table 8-4. -/
def ctrValue (gen k major minor j sel : Nat) : BitVec 128 :=
  BitVec.ofNat 128 (gen * 2 ^ 112 + k * 2 ^ 75 + major * 2 ^ 11 + minor * 2 ^ 4 + j * 4 + sel)

/-- The keystream of a line: block j in bits [128j+127:128j]. -/
def keystream (x : KeySlot) (k major minor : Nat) : Line :=
  (List.range 4).foldl (fun m j =>
    m ||| ((Config.aes (2 * x.key) (ctrValue x.gen.toNat k major minor j 0)).setWidth 512 <<< (128 * j))) 0

/-- The MAC of stored bytes: the top 48 bits of AES of V, XOR GHASH. -/
def lineMac (x : KeySlot) (k major minor : Nat) (stored : Line) : BitVec 48 :=
  let m := 2 * x.key + 1
  ((Config.aes m (ctrValue x.gen.toNat k major minor 0 1) ^^^ Config.ghash (Config.aes m 0) stored k) >>> 80).setWidth 48

/-- The MAC of a counter block or tree node, given its 64 bytes: under the tree key, with the parent's counters
for that child, over its contents, level and index (R212; V and GHASH take the level and index where a line's take DPA[42:6], log
entry 89). -/
def State.nodeMac (s : State) (lvl ix : Nat) (contents : Line) : BitVec 48 :=
  let parent := Tab.findD s.key.nodes (nodeKey (lvl + 1) (ix / 64)) Counter.zero
  lineMac ⟨1, 0, 0, s.key.treeKey⟩ (nodeKey lvl ix) parent.major (parent.minor (ix % 64)) contents

/-- Stored form of a line under slot x and a counter. -/
def sealLine (s : State) (x : KeySlot) (k major minor : Nat) (data : Line) : Line × BitVec 48 :=
  let c := if (s.extentAt (k * 64)).encrypt then data ^^^ keystream x k major minor else data
  (c, lineMac x k major minor c)

/-- Read a stored line with an error pattern in its bytes: the data, and whether its MAC holds. A line under a key that
crypto-erase destroyed reads as zeros with integrity valid (R225). -/
def State.openLine (s : State) (k : Nat) (st : Stored) (residue : Line) : Line × Bool :=
  let u := s.unitKey (unitOfLine k)
  if u.erasePending && st.keyGen != u.phase then (0, true)
  else
    let x := s.slot (s.slotFor k st.keyGen)
    let b := s.ctr (k / 64)
    let c := st.ctr.getD (b.major, b.minor (k % 64))
    let bytes := st.cipher ^^^ residue
    (if (s.extentAt (k * 64)).encrypt then bytes ^^^ keystream x k c.1 c.2 else bytes, lineMac x k c.1 c.2 bytes == st.mac)

/-- Line k lies under a counter block or node that is lost and not yet rewritten (08 R218). -/
def State.inLost (s : State) (k : Nat) : Bool := s.key.lost.any (fun e => k / 64 / 64 ^ e.1 == e.2)

/-! ## Stored lines -/

/-- Location that reads of a folio use: the shadow when it exists and is not kept aside (10 R284, R290, R404). -/
def State.readLoc (s : State) (f : Nat) : Option Loc :=
  let e := s.entry f
  match Tab.find s.ring.shadows f with
  | some x => if (s.ring.pending || s.ring.provisional) && decide (s.ring.committed < x.epoch) then e.loc else some x.loc
  | none => e.loc

/-- The sector of 256-byte line l that reads use is lost. -/
def State.sectorLost (s : State) (l : Nat) (peers : Nat := 0) : State :=
  match s.readLoc (l / 64) with
  | some x => s.loseSector x (l % 64) peers
  | none => s

/-- The stored copy that a read of line k takes. -/
def State.storedLine (s : State) (k : Nat) : Option Stored :=
  match s.readLoc (k / 256) with
  | some l => s.storedAt l (k % 256)
  | none => none

/-- The folio reads as zeros: never-written or discarded, with no shadow (06 R147). -/
def State.noData (s : State) (f : Nat) : Bool := !(s.entry f).held && (Tab.find s.ring.shadows f).isNone

def State.keepStored (s : State) (l : Loc) (ix : Nat) (st : Stored) : State :=
  { s with med := { s.med with store := Tab.put s.med.store (storeKey l ix) st } }

/-- Lines stored at a location. -/
def State.linesAt (s : State) (l : Loc) : List (Nat × Stored) :=
  (s.med.store.filter (fun e => decide (storeKey l 0 ≤ e.1) && decide (e.1 < storeKey l 256))).map
    (fun e => (e.1 - storeKey l 0, e.2))

/-- Copy a folio as it is stored to a new location, with new metadata; lines of a lost sector are stored marked poisoned
(05 R130, 06 R163). -/
def State.copyFolio (s : State) (old new : Loc) : State :=
  let s1 := (List.range 64).foldl (State.readSource old) s
  let lost := fun n => match s1.sectorAt old n with | some x => x.lost | none => false
  let s2 := (s1.linesAt old).foldl (fun s e =>
    s.keepStored new e.1 { e.2 with poison := e.2.poison || lost (e.1 / 4) }) (s1.clearSlot new)
  (List.range 64).foldl (fun s n => match s1.sectorAt old n with | some x => s.stampSector x.folio new x.kind 0 n | none => s) s2

/-- A line stored marked poisoned after a MAC failure: event 0x402 with its cause (08 R211, R217, R221). -/
def State.macPoison (s : State) (k cause : Nat) : State :=
  ev 0x402 1 [k * 64, cause] 3 ((s.bump KEY_MAC.stored_poisoned).listLine k 0)

/-- Re-encrypt one other line of an overflowing page under the new major, minor 0 (08 R211). -/
def State.reseal (s : State) (old : State) (l : Loc) (major : Nat) (s1 : State) (e : Nat × Stored) (k : Nat) : State :=
  let n := s.slotFor k e.2.keyGen
  let o := old.openLine k e.2 0
  let x := sealLine s (s.slot n) k major 0 o.1
  let s2 := (s1.keepStored l e.1 { e.2 with cipher := x.1, mac := x.2, poison := e.2.poison || !o.2, ctr := none }).use n 1
  if e.2.poison || o.2 then s2 else s2.macPoison k 1

/-- Advance the counter of line k, stored at l: the minor rises; from 127 the page's major rises, every minor is 0 and the
other lines are re-encrypted (08 R210, R211). -/
def State.nextCounter (s : State) (l : Loc) (k : Nat) : State :=
  let p := k / 64
  let m := k % 64
  let c := s.ctr p
  if c.minor m < 127 then s.setCtr p (c.set m (c.minor m + 1))
  else
    let major := c.major + 1
    let s1 := (s.setCtr p ⟨major, []⟩).bump KEY_OVERFLOW.page_overflows
    let s2 := { s1 with key := { s1.key with highMajor := setAt s1.key.highMajor 0 (max (s1.key.highMajor.getD 0 0) major) } }
    let others := (s.linesAt l).filter (fun e => e.1 / 64 == (k % 256) / 64 && e.1 != k % 256 && e.2.ctr.isNone)
    let s3 := others.foldl (fun t e => s.reseal s l major t e (k / 256 * 256 + e.1)) s2
    ev 0x406 0 [p] 3 ((others.map (·.1 / 4)).eraseDups.foldl (State.stampSector · (k / 256) l 0 0) s3)

/-- Line k as stored at b keeps the counter it is under. -/
def State.freezeLine (b : Loc) (s : State) (k : Nat) : State :=
  match s.storedAt b (k % 256) with
  | some st =>
    if st.ctr.isSome then s
    else s.keepStored b (k % 256) { st with ctr := some ((s.ctr (k / 64)).major, (s.ctr (k / 64)).minor (k % 64)) }
  | none => s

/-- Before line k takes the next counter at l, its other stored version (the base, the shadow, the copy that a placement
replaces) keeps the counter it is under; on an overflow of the page, so do the page's other lines there. -/
def State.freezeOthers (s : State) (l : Loc) (k : Nat) : State :=
  let f := k / 256
  let lines := if (s.ctr (k / 64)).minor (k % 64) < 127 then [k] else (List.range 64).map (fun i => k / 64 * 64 + i)
  let at_ := fun (s : State) (b : Option Loc) =>
    match b with
    | some b => if b = l then s else lines.foldl (State.freezeLine b) s
    | none => s
  at_ (at_ s (s.entry f).loc) ((Tab.find s.ring.shadows f).map (·.loc))

/-- Flip mask target 3 fires on the sector write that carries line k. -/
def State.flipsLine (s : State) (target k : Nat) : Bool :=
  match s.flip.armed with
  | some m => m.target == target && (!m.matchDpa || m.dpa / 64 == k)
  | none => false

/-- Encrypt line k under the phase's key with the next counter and store it at l (08 R208 to R211). -/
def State.putLine (s : State) (l : Loc) (k : Nat) (data : Line) (poison phase : Bool) : State :=
  let s1 := (s.freezeOthers l k).nextCounter l k
  let n := s1.slotFor k phase
  let c := s1.ctr (k / 64)
  let x := sealLine s1 (s1.slot n) k c.major (c.minor (k % 64)) data
  (s1.use n 1).keepStored l (k % 256) ⟨x.1, x.2, phase, poison, none⟩

/-- Finish the write of sector n of folio f, of which the lines `ls` are new: other lines of a sector that was lost are stored marked
poisoned from now on, and flip mask target 3 strikes the codeword (13 R379). -/
def State.sealSector (s : State) (f : Nat) (l : Loc) (ls : List Nat) (n : Nat) : State :=
  let gone := match s.sectorAt l n with | some x => x.lost | none => false
  let rest := [0, 1, 2, 3].filter (fun i => gone && !ls.contains (4 * n + i))
  let s1 := rest.foldl (fun s i =>
    match s.storedAt l (4 * n + i) with
    | some x => s.keepStored l (4 * n + i) { x with poison := true }
    | none => s) s
  match [0, 1, 2, 3].find? (fun i => ls.contains (4 * n + i) && s.flipsLine 3 (f * 256 + 4 * n + i)), s.flip.armed with
  | some i, some m => (s1.stampSector f l 0 m.count n).flipFired 0 0 (f * 256 + 4 * n + i)
  | _, _ => s1.stampSector f l 0 0 n

/-! ## The extent's placement rules -/

def State.pinned (s : State) (f : Nat) : Bool := (s.extentAt (f * 16384)).pin
def State.epochMode (s : State) (f : Nat) : Bool := (s.extentAt (f * 16384)).epoch

/-- Coldest bead folio that may be demoted: clock 0, oldest write home, unpinned, no shadow, no epoch open
(06 R155, R156, R158). -/
def State.mayDemote (s : State) (f : Nat) : Bool :=
  !s.pinned f && !(s.entry f).epochOpen && !(s.entry f).shadow && (Tab.find s.map.homes f).isNone

def State.coldest (s : State) : Option Nat :=
  ((s.map.beads.filter (fun e => e.2.clock == 0 && s.mayDemote e.1)).foldl (fun (m : Option (Nat × Nat)) e =>
    match m with
    | none => some (e.1, e.2.lastHome)
    | some x => if e.2.lastHome < x.2 then some (e.1, e.2.lastHome) else m) none).map (·.1)

/-- Every clock falls by 1 (06 R155). -/
def State.sweepClocks (s : State) : State :=
  { s with map := { s.map with beads := Tab.mapV s.map.beads (fun _ b => { b with clock := b.clock - 1 }) } }

def State.setHome (s : State) (f : Nat) (h : Home) : State :=
  { s with map := { s.map with homes := Tab.put s.map.homes f h } }
def State.dropHome (s : State) (f : Nat) : State := { s with map := { s.map with homes := Tab.del s.map.homes f } }

/-- Begin a move of folio f to an open stripe page (2 demotion, 6 rebuild, 7 wear-levelling, 8 migration). -/
def State.moveToPage (s : State) (f kind : Nat) : State :=
  match (s.entry f).loc with
  | none => s
  | some old =>
    match s.pageSlot f with
    | (s1, some l) => (s1.copyFolio old l).setHome f ⟨kind, l, false, [], 0, 0, s.epochMode f, false, false, some old⟩
    | (s1, none) => s1

/-- An update of the stripe of line l is between its first write and its parity write (Table 5-6). -/
def State.stripeMoving (s : State) (l : Nat) : Bool :=
  match s.readLoc (l / 64) with
  | some x => s.med.updates.any (fun u => u.loc.group == x.group && u.loc.block == x.block && u.parity.contains (s.stripeOf x (l % 64)))
  | none => false

end Sys2Proof.Machine
end

