-- ==== Sys2Proof/Machine/Place.lean ====
section
/-! DEFINITION. Placements of folios: which lines a write home takes, the rule of 06 Table 6-5 and of the shadows
(10 R284) that places them, and their commit (06 R153 to R158, 05 R121). -/

namespace Sys2Proof.Machine

/-! ## Open pages -/

/-- The page of a location is programming (06 R158). -/
def State.pageBusy (s : State) (l : Loc) : Bool :=
  let w := (s.block l.group l.block).members.length
  let p := l.index / (w - 1)
  !(s.block l.group l.block).bead &&
    s.map.progs.any (fun q => q.group == l.group && q.block == l.block && q.page == p)

/-! ## Bead directory (06 R155, R157, R169) -/

/-- A write home of a bead folio: clock 3, one more write home of it and of its slot. -/
def State.beadHome (s : State) (f : Nat) (l : Loc) : State :=
  let b := Tab.findD s.map.beads f ⟨0, 0, 0⟩
  let x := s.block l.group l.block
  let s1 := s.setBlock l.group l.block { x with homes := Tab.put x.homes l.index (Tab.findD x.homes l.index 0 + 1) }
  { s1 with map := { s1.map with homeSeq := s1.map.homeSeq + 1,
                                 beads := Tab.put s1.map.beads f ⟨3, b.homes + 1, s1.map.homeSeq + 1⟩ } }

/-! ## Commit -/

/-- The counter of the register that a placement's kind raises. -/
def State.countPlaced (s : State) (kind : Nat) : State :=
  match kind with
  | 1 => s.bump MAP_PROMOTE.promotions
  | 10 => s.bump MAP_PROMOTE.out_of_place
  | 2 => s.bump MAP_DEMOTE.demotions
  | 3 => s.bump MAP_DEMOTE.rotations
  | _ => s

/-- The map entry of a folio placed at l. -/
def MapEntry.placed (e : MapEntry) (l : Loc) (bead : Bool) : MapEntry :=
  { e with loc := some l, bead := bead, discarded := false }

/-- A shadow's table entry and the two flags of its folio (10 R284). -/
def State.setShadow (s : State) (f : Nat) (x : Shadow) : State :=
  let e := s.entry f
  State.mapChange { s with ring := { s.ring with shadows := Tab.put s.ring.shadows f x } } f
    (some { e with shadow := true, epochOpen := decide (s.ring.committed < x.epoch) }) 9

/-- The unit of a folio holds data from its first placement on (08 Table 8-2). -/
def State.noteData (s : State) (f : Nat) : State :=
  let u := f / 16384
  match Tab.find s.key.units u with
  | some e => if e.holdsData then s else s.setUnit u { e with holdsData := true }
  | none => s

/-- Every listed line of the folio is stored marked poisoned: its flag clears (06 R148). -/
def State.settleMarked (s : State) (f : Nat) : State :=
  let e := s.entry f
  let marked := (List.range 256).all (fun i => !s.listed (f * 256 + i) ||
    (match s.storedLine (f * 256 + i) with | some st => st.poison | none => false))
  if e.poisonedRange && marked then s.mapChange f (some { e with poisonedRange := false }) 0 else s

/-- The bead directory after folio f has been placed at l by a placement of a kind: a move keeps the clock and the order, and the
count of the new slot begins at 0; a write home sets the clock (06 R155, R157). -/
def State.beadPlaced (s : State) (f kind : Nat) (l : Loc) (bead : Bool) : State :=
  let b : Bead := { (Tab.findD s.map.beads f ⟨3, 0, 0⟩) with homes := 0 }
  if !bead then { s with map := { s.map with beads := Tab.del s.map.beads f } }
  else if isMove kind then { s with map := { s.map with beads := Tab.put s.map.beads f b } }
  else s.beadHome f l

/-- Commit integrity folio f's placement. -/
def State.commitInteg (s : State) (f : Nat) (h : Home) : State :=
  let s1 := (s.dropHome f).integChange (f - integMark) ⟨some h.loc, h.bead, false, false, false, false⟩ 0
  match h.startLoc with
  | some o => s1.freeIfEmpty o
  | none => s1

/-- Commit folio f's placement, whose data is complete on the medium: the map change is made, or the copy is dropped. It waits while
map changes wait (06 R167). -/
def State.commitHome (s : State) (f : Nat) : State :=
  match Tab.find s.map.homes f with
  | none => s
  | some h =>
    let e := s.entry f
    if h.committed then s
    else if h.dropped || (isMove h.kind && e.loc != h.startLoc && h.kind != 9) then (s.dropHome f).freeIfEmpty h.loc
    else if s.changesWait && h.kind != 0 && h.kind != 11 then s
    else if integMark ≤ f then s.commitInteg f h
    else
      let s1 := (s.setHome f { h with committed := true }).countPlaced h.kind
      let s2 := if h.kind = 9 then s1.setShadow f ⟨h.loc, h.bead, h.epoch⟩
        else if h.kind = 0 ∨ h.kind = 11 then s1
        else s1.mapChange f (some (e.placed h.loc h.bead)) (if h.kind = 10 then 0 else h.kind)
      let s3 := if h.kind = 9 then s2 else s2.beadPlaced f h.kind h.loc h.bead
      let s4 := (s3.noteData f).settleMarked f
      let left := if h.kind = 9 then (Tab.find s.ring.shadows f).map (·.loc) else e.loc
      let s5 := match left with
        | some old => if old = h.loc then s4 else s4.freeIfEmpty old
        | none => s4
      let moved := match s5.med.rebuild with
        | some r => if (h.kind == 6 || (h.kind == 9 && (Tab.find s.ring.shadows f).map (·.loc) == h.startLoc)) &&
              s.onDie r.group r.die (h.startLoc.getD h.loc) then
            { s5 with med := { s5.med with rebuild := some { r with moved := r.moved + 1 } } } else s5
        | none => s5
      if isMove h.kind then moved.dropHome f else moved

/-- Map changes that waited take effect while there is room (06 R167). -/
def releaseHeld : Nat → State → State
  | 0, s => s
  | n + 1, s =>
    match s.map.held with
    | [] => s
    | c :: cs =>
      if s.map.waiting || decide (tailMax ≤ s.map.tail.length) then s
      else
        let old := if c.folio < integMark then (s.entry c.folio).loc else (Tab.find s.map.integrity (c.folio - integMark)).bind (·.loc)
        let s1 := State.journalled { s with map := { s.map with held := cs } } c
        releaseHeld n (match old with
          | some o => if c.entry.bind (·.loc) = some o then s1 else s1.freeIfEmpty o
          | none => s1)

/-- What waited for map changes goes on: the changes themselves, then placements whose pages are complete. -/
def State.changesGo (s : State) : State :=
  let s1 := releaseHeld s.map.held.length s
  ((s1.map.homes.filter (fun e => !e.2.committed && !e.2.bead && !s1.pageOpen e.2.loc)).map (·.1)).foldl State.commitHome s1

/-- Folio f's placement lies in page p. -/
def State.homeInPage (s : State) (p : PageProg) (f : Nat) : Bool :=
  match Tab.find s.map.homes f with
  | some h => !h.bead && h.loc.group == p.group && h.loc.block == p.block &&
      h.loc.index / ((s.block p.group p.block).members.length - 1) == p.page
  | none => false

/-- A four-bead stripe block is sealed: it takes its write time and its band from its first member (07 R186). -/
def State.sealBlock (s : State) (g b : Nat) : State :=
  let x := s.block g b
  let t := (s.die (4 * (x.members.headD (0, 0)).1 + g)).tempC
  s.setBlock g b { x with isOpen := false, sealedAt := some s.cal.calendar, writeCal := s.cal.calendar, band := bandOf t }

/-- Every member of a programming page has reported success: its placements commit; after page 63 the block is sealed with
the highest scrub priority of its folios (05 R121, 08 R200). -/
def State.pageDone (s : State) (p : PageProg) : State :=
  let s1 := { s with map := { s.map with progs := s.map.progs.filter (fun q => q != p) } }
  let s2 := p.folios.foldl (fun s f => match f with | some f => if s.homeInPage p f then s.commitHome f else s | none => s) s1
  let s3 := if p.page = 63 then
      let x := s2.block p.group p.block
      let here := fun (l : Option Loc) => match l with | some l => l.group == p.group && l.block == p.block | none => false
      let top := largest ((s2.map.entries.filter (fun e => here e.2.loc)).map (fun e => (s2.extentAt (e.1 * 16384)).scrub))
      (s2.setBlock p.group p.block { x with scrub := top }).sealBlock p.group p.block
    else s2
  if p.page = 63 then s3.freeIfEmpty ⟨p.group, p.block, 0⟩ else s3

/-- Place the folios of a page again in another stripe block: its block has been closed (05 R121, 06 R163). -/
def State.replace (s : State) (from_ : Loc → Bool) (fs : List (Option Nat)) : State :=
  fs.foldl (fun s f =>
    match f with
    | none => s
    | some f =>
      match Tab.find s.map.homes f with
      | none => s
      | some h =>
        if h.committed || !from_ h.loc then s
        else match s.pageSlot f with
          | (s1, some l) => (s1.copyFolio h.loc l).setHome f { h with loc := l }
          | (s1, none) => s1.dropHome f) s

/-- Close stripe block b of group g at its last complete page and place again what its open or programming page held. -/
def State.closeBlock (s : State) (g b : Nat) : State :=
  let open_ := match Tab.find s.map.pages g with
    | some p => if p.block = b then p.folios else []
    | none => []
  let busy := (s.map.progs.filter (fun p => p.group == g && p.block == b)).flatMap (·.folios)
  let s1 := s.sealBlock g b
  let pages := if (match Tab.find s1.map.pages g with | some p => p.block == b | none => false)
    then Tab.del s1.map.pages g else s1.map.pages
  let progs := s1.map.progs.filter (fun p => !(p.group == g && p.block == b))
  let s2 := { s1 with map := { s1.map with pages := pages, progs := progs } }
  s2.replace (fun l => l.group == g && l.block == b) (busy ++ open_)

/-! ## Where a write home goes -/

/-- Write lines of folio f at location l, under each line's own phase. -/
def State.putLines (s : State) (f : Nat) (l : Loc) (ls : List (HomeLine × Bool)) : State :=
  let s1 := ls.foldl (fun s x => s.putLine l (f * 256 + x.1.ix) x.1.data x.1.poison x.2) s
  (ls.map (·.1.ix / 4)).eraseDups.foldl (State.sealSector · f l (ls.map (·.1.ix))) s1

/-- The version of folio f that a placement starts from: the shadow, where there is one, of a shadow's placement; else the
base. -/
def State.versionOf (s : State) (f : Nat) (shadow : Bool) : Option Loc :=
  let base := if (s.entry f).held then (s.entry f).loc else none
  if shadow then (match Tab.find s.ring.shadows f with | some x => some x.loc | none => base) else base

/-- Fill a new location with the version's data: its stored lines as they are, or zeros (06 R147); then the lines. -/
def State.fillFolio (s : State) (f : Nat) (l : Loc) (shadow : Bool) (ls : List (HomeLine × Bool)) : State :=
  match s.versionOf f shadow with
  | some old => (s.copyFolio old l).putLines f l ls
  | none =>
    let phase := (s.unitKey (f / 16384)).phase
    let z := ((List.range 256).filter (fun i => !ls.any (fun x => x.1.ix == i))).map
      (fun i => ((⟨i, 0, false⟩ : HomeLine), phase))
    (s.clearSlot l).putLines f l (z ++ ls)

def homeOf (kind : Nat) (l : Loc) (bead : Bool) (ls : List (HomeLine × Bool)) (epoch : Nat) (tag : BitVec 2)
    (mode : Bool) (done : Bool) (start : Option Loc) : Home :=
  ⟨kind, l, bead, ls.map (·.1), epoch, tag, mode, done, false, start⟩

/-- The placeable capacity is reached: failed-read-only with events 0x30F and 0x185 (06 R173). -/
def State.capacityReached (s : State) : State :=
  if s.med.froCauses.contains 255 then s else (ev 0x30F 2 [s.placeableGib] 4 s).enterFro 255

/-- Place folio f anew: promote it to a bead slot, or rewrite it out of place (06 Table 6-5). `kinds` gives the kinds of
the two (1 and 10; 9 for a shadow). The Bool says whether it was placed; it waits otherwise. -/
def State.placeNew (s : State) (f : Nat) (ls : List (HomeLine × Bool)) (kBead kPage epoch : Nat) (tag : BitVec 2) :
    State × Bool :=
  let mode := s.epochMode f
  let start := (s.entry f).loc
  let pin := s.pinned f
  let room := decide (s.beadFolios < s.map.beadLimit)
  if pin && !room then
    (if s.map.homes.any (fun e => e.2.kind == 2 && !e.2.committed) then s
     else match s.coldest with
     | some c => s.moveToPage c 2
     | none => s.sweepClocks, false)
  else if pin || room then
    match s.beadSlot false none with
    | (s1, some l) =>
      ((s1.fillFolio f l (kBead == 9) ls).setHome f (homeOf kBead l true ls epoch tag mode false start), true)
    | (s1, none) => (s1, false)
  else
    match s.pageSlot f with
    | (s1, some l) =>
      ((s1.fillFolio f l (kBead == 9) ls).setHome f (homeOf kPage l false ls epoch tag mode false start), true)
    | (s1, none) => (s1, false)

/-- Update folio f at a location it has, as Table 6-5 updates a folio there: in place in a bead slot, else anew. -/
def State.placeAt (s : State) (f : Nat) (l : Loc) (bead : Bool) (ls : List (HomeLine × Bool)) (kind kBead kPage epoch : Nat)
    (tag : BitVec 2) : State × Bool :=
  if bead then
    ((((s.putLines f l ls).settleMarked f).beadHome f l).setHome f (homeOf kind l true ls epoch tag (s.epochMode f) true (some l)), true)
  else s.placeNew f ls kBead kPage epoch tag

/-- The shadow of folio f becomes its base: one map change (10 R284). -/
def State.settle (s : State) (f : Nat) : State :=
  match Tab.find s.ring.shadows f with
  | none => s
  | some x =>
    let e := s.entry f
    let s1 := { s with ring := { s.ring with shadows := Tab.del s.ring.shadows f } }
    let s2 := s1.mapChange f (some { (e.placed x.loc x.bead) with shadow := false, epochOpen := false }) 9
    let beads := if x.bead then Tab.put s2.map.beads f { (Tab.findD s2.map.beads f ⟨3, 0, s2.map.homeSeq⟩) with homes := 0 }
      else Tab.del s2.map.beads f
    let s3 := { s2 with map := { s2.map with beads := beads } }
    match e.loc with
    | some old => s3.freeIfEmpty old
    | none => s3

/-- Entries of the shadow table (10 R284). -/
abbrev shadowMax : Nat := 1048576

/-- A held-for-epoch entry of the folio is not yet written home. -/
def State.heldEntry (s : State) (f : Nat) : Bool :=
  s.cch.wb.any (fun w => w.heldForEpoch && w.copy.l.toNat / 64 == f)

/-- A write home of lines with tag epoch E of an epoch-mode folio (10 R284). -/
def State.placeEpoch (s : State) (f : Nat) (ls : List (HomeLine × Bool)) (epoch : Nat) (tag : BitVec 2) : State × Bool :=
  let s1 := match Tab.find s.ring.shadows f with
    | some x => if x.epoch ≤ s.ring.committed && decide (x.epoch < epoch) && !s.heldEntry f then s.settle f else s
    | none => s
  match Tab.find s1.ring.shadows f with
  | none =>
    if shadowMax ≤ s1.ring.shadows.length then (ev 0x4AC 1 [] 1 s1, false)
    else s1.placeNew f ls 9 9 epoch tag
  | some x =>
    if x.epoch = epoch then
      if x.bead then s1.placeAt f x.loc true ls 0 9 9 epoch tag else s1.placeNew f ls 9 9 epoch tag
    else if epoch < x.epoch then
      match (s1.entry f).loc with
      | some l => s1.placeAt f l (s1.entry f).bead ls 11 1 10 epoch tag
      | none => s1.placeNew f ls 1 10 epoch tag
    else (s1, false)

/-- Place lines of folio f by the first rule that applies. A folio that the placeable capacity does not take is not placed
(06 R173). -/
def State.placeLines (s : State) (f : Nat) (ls : List (HomeLine × Bool)) (epoch : Nat) (tag : BitVec 2) : State × Bool :=
  let e := s.entry f
  if !e.held && decide (s.placeable ≤ s.heldFolios) then (s.capacityReached, false)
  else if s.epochMode f then s.placeEpoch f ls epoch tag
  else
    match e.loc with
    | some l => if e.held then s.placeAt f l e.bead ls 0 1 10 epoch tag else s.placeNew f ls 1 10 epoch tag
    | none => s.placeNew f ls 1 10 epoch tag

/-! ## Before a write home: the unit's binding (08 R202), a Held key (R207) -/

def unitRow (u : Nat) : Nat := u / 64

def UnitKey.word (e : UnitKey) : Nat :=
  e.key + e.prev * 2 ^ 12 + b2n e.phase * 2 ^ 24 + b2n e.sweeping * 2 ^ 25 + b2n e.bound * 2 ^ 26 +
    b2n e.holdsData * 2 ^ 27 + b2n e.erasePending * 2 ^ 28

/-- Row of partition 5 that holds the entries of 64 units. -/
def State.unitBytes (s : State) (row : Nat) : Bytes :=
  (List.range 64).flatMap (fun i => le 4 (Tab.findD s.key.units (64 * row + i) ⟨0, 0, false, false, false, false, false, false⟩).word)

/-- The unit of folio f is bound; otherwise its row write is asked for once and the write home waits. -/
def State.bindUnit (s : State) (f : Nat) : State × Bool :=
  let u := f / 16384
  let e := s.unitKey u
  if e.bound then (s, true)
  else if e.binding then (s, false)
  else
    let s1 := s.setUnit u { e with binding := true }
    let row := le 4 ({ e with bound := true, holdsData := true } : UnitKey).word
    (s1.writeRow ⟨1, 5, unitRow u, fit 256 ((s1.unitBytes (unitRow u)).take (4 * (u % 64)) ++ row ++
      (s1.unitBytes (unitRow u)).drop (4 * (u % 64) + 4)), 2, u⟩, false)

/-- The key of a line's phase is Held: its write home waits. -/
def State.heldKey (s : State) (k : Nat) (phase : Bool) : Bool := (s.slot (s.slotFor k phase)).st == 3

end Sys2Proof.Machine
end

