-- ==== Sys2Proof/Machine/Cache.lean ====
section
/-! DEFINITION. Where a line is found: the near cache, the two eviction buffers, the board cache, the dump overlay and the
medium, in the order of 04 Table 4-2 with 09 R257. -/

namespace Sys2Proof.Machine

/-! ## Copies -/

def Copy.line (c : Copy) (i : Nat) : Line := part c.data i
def Copy.isDirty (c : Copy) (i : Nat) : Bool := c.dirty.getLsbD i
def Copy.isPoison (c : Copy) (i : Nat) : Bool := c.poison.getLsbD i

def setBit4 (b : BitVec 4) (i : Nat) (v : Bool) : BitVec 4 :=
  if v then b ||| BitVec.twoPow 4 i else b &&& ~~~(BitVec.twoPow 4 i)

/-- Bits of all 256 bytes set in a byte mask. -/
def expand256 (m : BitVec 256) : BitVec 2048 :=
  (List.range 256).foldl (fun x i => if m.getLsbD i then x ||| (BitVec.ofNat 2048 255 <<< (8 * i)) else x) 0

/-- Byte mask of the enabled bytes of 64-byte line i. -/
def maskOf (i : Nat) (e : Enables) : BitVec 256 := e.setWidth 256 <<< (64 * i)

/-- Write the enabled bytes of 64-byte line i into a copy: dirty, and a full line clears its poison (04 R106). `bad` is
poison that the data carries. -/
def Copy.write (c : Copy) (i : Nat) (data : Line) (e : Enables) (bad : Bool) : Copy :=
  { c with data := setPart c.data i (mergeLine (c.line i) data e),
           dirty := setBit4 c.dirty i true,
           poison := setBit4 c.poison i (bad || (c.isPoison i && decide (e ≠ BitVec.allOnes 64))) }

/-! ## Look-up -/

def State.nearAt (s : State) (l : Nat) : Option NearSlot :=
  match Tab.find s.cch.near (nearIx l) with
  | some x => if x.copy.l.toNat = l then some x else none
  | none => none

def State.evictAt (s : State) (l : Nat) : Option EvictEntry :=
  s.cch.evict.find? (fun e => e.copy.l.toNat == l && s.heldEvict e)

def State.boardAt (s : State) (l : Nat) : Option BoardSlot :=
  match Tab.find s.cch.board (s.boardIx l) with
  | some x => if x.copy.l.toNat = l then some x else none
  | none => none

def State.wbAt (s : State) (l : Nat) : Option WbEntry :=
  s.cch.wb.find? (fun e => e.copy.l.toNat == l && !e.superseded)

def State.fillAt (s : State) (l : Nat) : Option Fill := s.cch.fills.find? (fun f => f.l.toNat == l)

def State.setNear (s : State) (l : Nat) (x : NearSlot) : State :=
  { s with cch := { s.cch with near := Tab.put s.cch.near (nearIx l) x } }
def State.dropNear (s : State) (l : Nat) : State := { s with cch := { s.cch with near := Tab.del s.cch.near (nearIx l) } }
def State.setBoard (s : State) (l : Nat) (x : BoardSlot) : State :=
  { s with cch := { s.cch with board := Tab.put s.cch.board (s.boardIx l) x } }
def State.dropBoard (s : State) (l : Nat) : State :=
  { s with cch := { s.cch with board := Tab.del s.cch.board (s.boardIx l) } }
def State.setEvict (s : State) (x : EvictEntry) : State :=
  { s with cch := { s.cch with evict := s.cch.evict.map (fun e => if e.copy.l = x.copy.l && s.heldEvict e then x else e) } }
def State.setWb (s : State) (x : WbEntry) : State :=
  { s with cch := { s.cch with wb := s.cch.wb.map (fun e => if e.copy.l = x.copy.l && !e.superseded then x else e) } }
def State.setFill (s : State) (x : Fill) : State :=
  { s with cch := { s.cch with fills := s.cch.fills.map (fun f => if f.l = x.l then x else f) } }
def State.dropFill (s : State) (l : Nat) : State :=
  { s with cch := { s.cch with fills := s.cch.fills.filter (fun f => f.l.toNat != l) } }

/-- Epoch C + 1 is closing or prepared on this card: C + 2 is open (10 R281, R286). A held close has opened nothing yet. -/
def State.closing (s : State) : Bool :=
  s.ring.prepared ||
    match s.ring.close with
    | some c => !c.held && c.n == s.ring.committed + 1
    | none => false

/-- The epoch that writes now belong to. -/
def State.openEpoch (s : State) : Nat := s.ring.committed + (if s.closing then 2 else 1)

/-- The tag is that of an epoch after c, up to the open one (R281). -/
def State.laterTag (s : State) (c : Nat) (tag : BitVec 2) : Bool :=
  (List.range (s.openEpoch - c)).any (fun i => tag == BitVec.ofNat 2 (c + 1 + i))

/-- A dumped line is kept aside: an epoch is pending or provisional, and the line is a later one's (10 R290, R404). -/
def State.aside (s : State) (d : DumpLine) : Bool :=
  d.epochMode && (s.ring.pending || s.ring.provisional) && s.laterTag s.ring.committed d.tag

/-- The dumped line that reads of line k take from the overlay. While an epoch is pending or provisional, the dumped lines
of later epochs are kept aside, and a held entry of the line stands in for one (10 R283, R290, R404). -/
def State.overlayAt (s : State) (k : Nat) : Option DumpLine :=
  match Tab.find s.pfl.overlay k with
  | none => Tab.find s.pfl.overlayHeld k
  | some d => if s.aside d then Tab.find s.pfl.overlayHeld k else some d

/-- Some line of the 256-byte line lies in the overlay of a draining slot. -/
def State.inOverlay (s : State) (l : Nat) : Bool := [0, 1, 2, 3].any (fun i => (s.overlayAt (4 * l + i)).isSome)

/-- The folio's dies, or the line itself, cannot be read: it lies on a fenced region (05 R135). -/
def State.fencedSector (s : State) (l : Nat) : Bool :=
  match s.readLoc (l / 64) with
  | some x => s.isFenced (mediaRegion (dieChannel (s.dieAt x (l % 64))))
  | none => false

/-! ## Contents below the near cache -/

/-- The sector of line l has been found lost (05 R130): no read of it decodes. -/
def State.sectorGone (s : State) (l : Nat) : Bool :=
  match s.readLoc (l / 64) with
  | some x => (match s.sectorAt x (l % 64) with | some y => y.lost | none => false)
  | none => false

/-- Line k is listed and its folio's poisoned_range is set (06 R148). -/
def State.poisonedLine (s : State) (k : Nat) : Bool := (s.entry (k / 256)).poisonedRange && s.listed k

/-- What the medium's copy of line k reads as: its data, with its poison mark, its poison list entry and its MAC. -/
def State.mediumLine (s : State) (k : Nat) : Line × Bool :=
  match s.storedLine k with
  | some st =>
    let o := s.openLine k st 0
    (o.1, st.poison || s.sectorGone (k / 4) || !o.2 || s.inLost k || s.injected k || s.poisonedLine k || s.fencedSector (k / 4))
  | none => (0, true)

/-- What line k reads as from a source below the board cache that is not the medium: the overlay, or zeros. -/
def State.aboveMedium (s : State) (k : Nat) : Option (Line × Bool) :=
  match s.overlayAt k with
  | some d => some (d.data, d.poison)
  | none => if s.noData (k / 256) then some (0, s.injected k || s.poisonedLine k) else none

/-- 64-byte line i of l in the board cache, its write-back buffer, the overlay, or of a folio that reads as zeros; none
where the medium holds it. -/
def State.lowerAt (s : State) (l i : Nat) : Option (Line × Bool) :=
  match s.boardAt l with
  | some b => if b.gone.getLsbD i then s.aboveMedium (4 * l + i) else some (b.copy.line i, b.copy.isPoison i)
  | none => match s.wbAt l with
    | some w => if w.gone.getLsbD i then s.aboveMedium (4 * l + i) else some (w.copy.line i, w.copy.isPoison i)
    | none => s.aboveMedium (4 * l + i)

/-- What 64-byte line i of l reads as beneath the near cache. -/
def State.lowerLine (s : State) (l i : Nat) : Line × Bool := (s.lowerAt l i).getD (s.mediumLine (4 * l + i))

/-- The four lines together. -/
def State.lowerData (s : State) (l : Nat) : BitVec 2048 × BitVec 4 :=
  (List.range 4).foldl (fun a i =>
    (setPart a.1 i (s.lowerLine l i).1, setBit4 a.2 i (s.lowerLine l i).2)) (0, 0)

/-- The bead mode of a folio's stored copy. -/
def State.beadAt (s : State) (f : Nat) : Bool :=
  match Tab.find s.ring.shadows f with
  | some x => x.bead
  | none => (s.entry f).bead

/-- The source that a fill of l takes, wanted for its line i (04 Table 4-2, 09 R257). -/
def State.lowerSource (s : State) (l i : Nat) : Src :=
  match s.boardAt l with
  | some b =>
    if !b.gone.getLsbD i then .board
    else if s.inOverlay l then .overlay else if s.noData (l / 64) then .zeros
    else if s.beadAt (l / 64) then .one else .four
  | none =>
    if (match s.wbAt l with | some w => !w.gone.getLsbD i | none => false) then .writeback
    else if s.inOverlay l then .overlay
    else if s.noData (l / 64) then .zeros
    else if s.beadAt (l / 64) then .one else .four

/-! ## Merging a fill under the write mask (04 R91) -/

/-- The near line with a fill's data under its mask. A line that a partial write touched keeps the fill's poison. -/
def NearSlot.merge (x : NearSlot) (data : BitVec 2048) (poison : BitVec 4) : NearSlot :=
  let m := expand256 x.mask
  let full := fun i => decide (part m i = BitVec.allOnes 512)
  let p := (List.range 4).foldl (fun b i =>
    setBit4 b i (x.copy.isPoison i || (poison.getLsbD i && !full i))) (0 : BitVec 4)
  { x with copy := { x.copy with data := (data &&& ~~~m) ||| (x.copy.data &&& m), poison := p },
           filling := false, mask := 0 }

/-- Finish every fill at once: writes accepted have merged (09 Table 9-8, t0 + 5 µs). -/
def State.mergeFills (s : State) : State :=
  { s with cch := { s.cch with
      near := Tab.mapV s.cch.near (fun _ x =>
        if x.filling then x.merge (s.lowerData x.copy.l.toNat).1 (s.lowerData x.copy.l.toNat).2 else x),
      fills := [] } }

end Sys2Proof.Machine
end

