-- ==== Sys2Proof/Machine/Fatal.lean ====
section
/-! DEFINITION. The start of a dump, fatal handling and fencing (01 R18, 02 R54, 09 R249, R263, 11 R307). -/

namespace Sys2Proof.Machine

/-- Host requests are given up with no completion (03 R63). -/
def State.freeContexts (s : State) : State :=
  { s with qos := { s.qos with ctxs := [], ingress := [], pause := none, epochWaiters := [] } }

/-- The link goes down; it carries nothing until it trains again. -/
def State.linkDown (s : State) : State :=
  if s.link.protocol = 0 then s
  else { s with link := { s.link with protocol := 0, rate := 0, width := 0, flit256 := false, l1 := false } }.out (.link false)

/-- A mailbox command and a background command that a reset or a power failure abandons: neither completes (02 R44), and
rank 4 writes that wait for it are dropped (13 R358). What Sanitize or Secure Erase has left to do is the medium reset, which
the card goes on with (R226). -/
def State.abandonCommands (s0 : State) : State :=
  let s := s0.dropWait
  { s with link := { s.link with background := none, transfer := none, cfgTransfer := none, scan := none, maint := [], resolve := none, held := [] },
           key := { s.key with erasing := none, resetPending := s.key.resetPending || s.key.erasing.isSome } }

/-- A power failure or fatal handling that the next start judges (09 R253). Before Memory_Active nothing has been accepted, and
there is nothing to judge (R259). -/
def State.powerFailed (s : State) (served : Bool) (cause : Nat) : State :=
  if served then { s with pfl := { s.pfl with failedPower := true, failCause := cause } } else s

/-- The update that die i is writing for. -/
def State.updateOn (s : State) (i : Nat) : Option Update :=
  match (s.die i).op with
  | some o => if o.op = 2 then s.med.updates.find? (fun u => u.loc.group == o.group && u.loc.block == o.block && s.wants u i) else none
  | none => none

/-- What a die that loses power in the middle of an in-place write leaves half-written: one data sector, or one parity sector, of its
update (05 R122, R136). -/
def tearDie (s : State) (i : Nat) : State :=
  match s.updateOn i with
  | none => s
  | some u =>
    match u.data.find? (fun n => s.dieAt u.loc n == i), u.parity.find? (fun k => s.parityDie u.loc k == i) with
    | some n, _ =>
      (match s.sectorAt u.loc n with
       | some x => { s with med := { s.med with secs := Tab.put s.med.secs (sectorKey u.loc n) { x with torn := true } } }
       | none => s)
    | none, some k => { s with med := { s.med with tornParity := (blkKey u.loc.group u.loc.block * 4096 + k) :: s.med.tornParity } }
    | none, none => s

/-- A four-bead stripe block that is open is closed; it counts as sealed then (06 R161). -/
def StripeBlock.close (x : StripeBlock) (now : Nat) : StripeBlock :=
  if x.bead || !x.isOpen then x else { x with isOpen := false, sealedAt := some now }

/-- Reclaim jobs whose copies are complete and whose commit is not durable: how many, and how many copies (06 R163). -/
def State.orphaned (s : State) : Nat × Nat :=
  let l := s.map.reclaim.filter (fun e => decide (e.2.phase ≤ 1) && !e.2.copies.isEmpty && !e.2.copies.any (fun c => s.pageOpen c.2))
  (l.length, total (l.map (fun e => e.2.copies.length)))

/-- Operations in flight are abandoned, with the placements they carried; the blocks that were being programmed
are closed (09 Table 9-8, R252; 06 R154). -/
def State.abandonPrograms (s0 : State) : State :=
  let s := (List.range 64).foldl tearDie s0
  let dies := s.med.dies.map (fun d => { d with op := none })
  let homes := s.map.homes.filter (fun e => e.2.committed)
  let o := s.orphaned
  { s with med := { s.med with dies := dies, blocks := Tab.mapV s.med.blocks (fun _ b => b.close s.cal.calendar), updates := [] },
           map := { s.map with homes := homes, pages := [], progs := [], reclaim := [],
                               orphans := (s.map.orphans.1 + o.1, s.map.orphans.2 + o.2) } }

/-- The Armed slot with the lower dump sequence (09 R245). In the Log state there is nothing to dump (R263). -/
def State.dumpSlot (s : State) : Option Nat :=
  match s.pfl.slots with
  | [a, b] =>
    if a.st = 4 ∨ b.st = 4 then none
    else if a.st = 1 ∧ b.st = 1 then (if b.seq < a.seq then some 1 else some 0)
    else if a.st = 1 then some 0 else if b.st = 1 then some 1 else none
  | _ => none

def State.setSlotD (s : State) (i : Nat) (x : DumpSlot) : State := { s with pfl := { s.pfl with slots := setAt s.pfl.slots i x } }
def State.slotD (s : State) (i : Nat) : DumpSlot := s.pfl.slots.getD i DumpSlot.atReset

/-- Disable a rail at once. -/
def Rail.off (r : Rail) (t : Nat) : Rail := { r with enabled := false, pg := false, disabledAt := t }

/-- A store test is abandoned: the previous figures stay, it counts as a test, last_result reads 5 (09 R266). -/
def Persist.dropTest (p : Persist) : Persist :=
  if p.test.isSome then { p with test := none, tests := min 65535 (p.tests + 1), lastResult := 5 } else p

/-- What stops before a dump: admission, the link, held requests, host commands, programs and resets in flight, the
charger, rails 4 and 5 (09 Table 9-8, 11 R307). -/
def State.quiesce (s : State) : State :=
  let s1 := s.mergeFills.freeContexts.linkDown.abandonCommands.abandonPrograms
  let rails := s1.pwr.rails.mapIdx (fun i r => if i = 4 ∨ i = 5 then r.off s1.now else r)
  { s1 with pwr := { s1.pwr with rails := rails, sequence := 3 },
            pfl := { s1.pfl.dropTest with charging := false, flush := none },
            thm := { s1.thm with stopping := none } }

/-- Power down with no dump: a new common start for every rail but rail 0 (11 R304). -/
def State.beginPowerDown (s : State) : State :=
  let on := (s.pwr.rails.mapIdx (fun i r => (i, r.enabled))).foldl
    (fun (m : BitVec 14) e => if e.2 && e.1 != 0 then m ||| BitVec.twoPow 14 e.1 else m) 0
  { s with pwr := { s.pwr with sequence := 2, common := s.now, covered := on } }

/-- Begin a dump with its cause (0 input failed, 1 fatal handling, 2 orderly-stop fallback). In the Log state there is
nothing to dump (09 R263). A start before Memory_Active dumps nothing (R259). After fatal handling and the fallback of an
orderly stop the rails stay off until PERST_N is asserted and deasserted (12 R343, 11 R319). -/
def State.beginDump (s : State) (cause : Nat) : State :=
  if s.pfl.dump.isSome then s
  else
    let z := s.quiesce.powerFailed (s.boot.complete || s.pfl.flush.isSome) cause
    let q := { z with pwr := { z.pwr with needPerst := z.pwr.needPerst || cause != 0 } }
    match s.dumpSlot with
    | some i =>
      if !s.boot.complete && s.pfl.flush.isNone then q.beginPowerDown
      else ev 0x480 1 [cause, s.pfl.budget, s.staged] 1
        { q with pfl := { q.pfl with dump := some ⟨i, cause, s.now, 0, s.staged, none⟩ } }
    | none => q.beginPowerDown

/-- Fatal handling begins (01 R18, 02 Table 2-21): it is reported, the link is held down, the ring bypass closes
(10 R271). -/
def State.markFatal (s : State) (region cause : Nat) : State :=
  let s1 := { s with fab := { s.fab with fatal := true },
                     link := { s.link with heldDown := true, viral := s.link.viral || s.link.viralEnabled },
                     ring := { s.ring with bypass := true } }
  (s1.reportUnc region cause).reportRas 3

/-- Fatal handling, with its dump. -/
def State.fatalHandling (s : State) (region cause : Nat) : State :=
  if s.fab.fatal then s else (s.markFatal region cause).beginDump 1

/-- Fatal handling without a dump (11 Table 11-6, action 3). -/
def State.fatalNoDump (s : State) (region cause : Nat) : State :=
  if s.fab.fatal then s
  else
    let z := (s.markFatal region cause).quiesce.powerFailed (s.boot.complete || s.pfl.flush.isSome) 1
    State.beginPowerDown { z with pwr := { z.pwr with needPerst := true } }

/-- Fence a region (01 R18, Table 1-7): event 0x570 + r with its cause. Which GDDR7 controllers region C leaves to the dump is a
free value. -/
def State.fence (s : State) (r cause : Nat) : State :=
  if s.isFenced r then s
  else
    let s1 := { s with fab := { s.fab with fenced := s.fab.fenced ||| BitVec.twoPow 9 r } }
    if r < 5 then
      let s2 := if r = 4 then { s1 with fab := { s1.fab with lostCtrl := BitVec.ofNat 4 (Config.free s1.fresh) }, fresh := s1.fresh + 1 } else s1
      (ev (0x570 + r) 3 [r, cause] r s2).fatalHandling r cause
    else
      let lost := fun (f : Fill) => (f.src == .one || f.src == .four || f.src == .soft) && f.phase != .judged &&
        s1.fencedSector f.l.toNat && r == (match s1.readLoc (f.l.toNat / 64) with
          | some x => mediaRegion (dieChannel (s1.dieAt x (f.l.toNat % 64)))
          | none => 9)
      let gone := (s1.cch.fills.filter lost).map (fun f => f.l.toNat)
      let fills := s1.cch.fills.map (fun f => if lost f then { f with phase := .judged, poison := 15 } else f)
      let s2 := (ev (0x570 + r) 2 [r, cause] r { s1 with cch := { s1.cch with fills := fills } }).enterFro r
      (gone.flatMap (fun l => [4 * l, 4 * l + 1, 4 * l + 2, 4 * l + 3])).foldl State.losePoison s2

end Sys2Proof.Machine
end

