-- ==== Sys2Proof/Machine/Lines.lean ====
section
/-! DEFINITION. Cached lines in motion: parity and SECDED outcomes, allocation and eviction, offers and pushes, the
write-back buffer, epoch tags, fills and poison (04 R87 to R106, 10 R281 to R283, 13 R379). -/

namespace Sys2Proof.Machine

/-! ## Stored words and their errors -/

/-- The failing words of 64-byte line i, as numbers 0 to 7, lowest first. -/
def badIn (b : BitVec 32) (i : Nat) : List Nat := (List.range 8).filter (fun w => b.getLsbD (8 * i + w))
def clearBad (b : BitVec 32) (i : Nat) : BitVec 32 := b &&& ~~~((BitVec.ofNat 32 255) <<< (8 * i))
def wholeLine (i : Nat) : BitVec 256 := maskOf i (BitVec.allOnes 64)

/-- First byte that an enable mask writes, and its word. -/
def firstByte (e : Enables) : Nat := ((List.range 64).find? (fun i => e.getLsbD i)).getD 0

/-- Number of bits set in the low n bits. -/
def popIn (v : Nat) (n : Nat) : Nat := ((List.range n).filter (fun i => v.testBit i)).length

/-- A flip mask leaves an odd number of flips in some byte and its parity bit: parity finds it (04 R88). -/
def parityFinds (m : BitVec 72) : Bool :=
  (List.range 8).any (fun b => (popIn (m.toNat >>> (8 * b)) 8 + b2n (m.getLsbD (64 + b))) % 2 == 1)

/-- XOR the data bits of a mask into word w of line i of a copy. -/
def Copy.flip (c : Copy) (i w : Nat) (m : BitVec 72) : Copy :=
  { c with data := c.data ^^^ (((m.setWidth 64).setWidth 2048) <<< (512 * i + 64 * w)) }

/-- CCH_LAST_UNC (04 Table 4-22). -/
def State.lastUnc (s : State) (level : Nat) (dirty : Bool) (line : Nat) : State :=
  ((s.setReg CCH_LAST_UNC.level level).setReg CCH_LAST_UNC.dirty (b2n dirty)).setReg CCH_LAST_UNC.line line

/-! ## Near-cache parity outcomes (04 R94) -/

/-- A near line with a clean 64-byte line to be fetched again: the fill leaves every other byte alone. -/
def NearSlot.refetch (x : NearSlot) (i : Nat) : NearSlot :=
  { x with filling := true, mask := (if x.filling then x.mask else BitVec.allOnes 256) &&& ~~~(wholeLine i),
           badData := clearBad x.badData i }

def State.countRefetch (s : State) (ix i : Nat) : State :=
  ev 0x100 0 [ix, i] 4 ((s.bump CCH_NEAR_PARITY.clean_refetches).setReg CCH_NEAR_PARITY.last_index ix)

/-- Errors strike the words of near slot ix. -/
def State.upsetNear (s : State) (ix : Nat) (u : NearUpset) : State :=
  match Tab.find s.cch.near ix with
  | none => s
  | some x =>
    if u.data = 0 ∧ u.tags = 0 then s
    else
      let y := { x with badData := x.badData ||| u.data, badTags := x.badTags ||| u.tags, readTag := u.readTag }
      { s with cch := { s.cch with near := Tab.put s.cch.near ix y } }

/-- A tag error of near slot ix is found. With both copies bad over dirty data the slot's lines go under the tag that the better
copy gives, all poisoned. -/
def State.nearTags (s : State) (ix : Nat) : State :=
  match Tab.find s.cch.near ix with
  | none => s
  | some x =>
    let put := fun (s : State) (y : NearSlot) => { s with cch := { s.cch with near := Tab.put s.cch.near ix y } }
    if x.badTags = 0 then s
    else if x.badTags ≠ 3 then
      ev 0x101 0 [ix, if x.badTags = 1 then 0 else 1] 4
        (((put s { x with badTags := 0 }).bump CCH_NEAR_PARITY.tag_repairs).setReg CCH_NEAR_PARITY.last_index ix)
    else if x.copy.dirty = 0 then
      { s with cch := { s.cch with near := Tab.del s.cch.near ix } }.countRefetch ix 0
    else
      let c := { x.copy with l := BitVec.ofNat 35 (x.readTag.toNat * 2 ^ 17 + ix), poison := 15, dirty := 15 }
      let s1 := put s { x with copy := c, badTags := 0 }
      (ev 0x102 3 [ix, x.copy.dirty.toNat, 32] 4
        ((s1.lastUnc 1 true (c.l.toNat * 4)).setReg CCH_NEAR_PARITY.last_index ix)).fatalHandling 4 0x102

/-- A data error of 64-byte line i of near line l is found. -/
def State.nearData (s : State) (l i : Nat) : State :=
  match s.nearAt l with
  | none => s
  | some x =>
    match badIn x.badData i with
    | [] => s
    | w :: _ =>
      if x.copy.isDirty i then
        let y := { x with badData := clearBad x.badData i, copy := { x.copy with poison := setBit4 x.copy.poison i true } }
        (ev 0x102 3 [nearIx l, x.copy.dirty.toNat, 8 * i + w] 4
          (((s.setNear l y).lastUnc 1 true (4 * l + i)).setReg CCH_NEAR_PARITY.last_index (nearIx l))).fatalHandling 4 0x102
      else ((s.setNear l (x.refetch i)).lastUnc 1 false (4 * l + i)).countRefetch (nearIx l) i

/-! ## Board-cache outcomes (04 R102) -/

/-- Put or remove the slot of a board index. -/
def State.putSlot (s : State) (ix : Nat) (b : BoardSlot) : State :=
  { s with cch := { s.cch with board := Tab.put s.cch.board ix b } }
def State.delSlot (s : State) (ix : Nat) : State := { s with cch := { s.cch with board := Tab.del s.cch.board ix } }

/-- The slot of a board index is to be rewritten with corrected data. -/
def State.toRewrite (s : State) (ix : Nat) : State :=
  if s.cch.rewrite.contains ix then s else { s with cch := { s.cch with rewrite := s.cch.rewrite ++ [ix] } }

/-- Count a correction on device k; the 1,001st in a second raises event 0x103. -/
def State.countCorrection (s : State) (k : Nat) : State :=
  let c := s.cch.corrections.getD k (0, 0)
  let n := if s.now < c.1 + sec ∧ c.2 ≠ 0 then (c.1, c.2 + 1) else (s.now, 1)
  let s0 := (s.bump CCH_BOARD_ECC.corrected).bump ECC_TOTALS.corrected_volatile
  let s1 := { s0 with cch := { s0.cch with corrections := setAt s0.cch.corrections k n } }
  if n.2 = 1001 then ev 0x103 1 [k, n.2] 4 s1 else s1

/-- An uncorrectable word of line i of the slot at index ix is found. -/
def boardWord (ix : Nat) (s : State) (i : Nat) : State :=
  match Tab.find s.cch.board ix with
  | none => s
  | some b =>
    if badIn b.badData i = [] then s
    else
      let k := b.copy.l.toNat * 4 + i
      if b.copy.isDirty i then
        let y := { b with badData := clearBad b.badData i, copy := { b.copy with poison := setBit4 b.copy.poison i true } }
        (ev 0x105 2 [k * 64, ix % 4, ix / 4] 4
          (((s.putSlot ix y).bump CCH_BOARD_ECC.unc_dirty).lastUnc 2 true k)).listLine k 0
      else
        let y := { b with badData := clearBad b.badData i, gone := setBit4 b.gone i true }
        ev 0x104 0 [k * 64, ix % 4, ix / 4] 4 (((s.putSlot ix y).bump CCH_BOARD_ECC.unc_clean).lastUnc 2 false k)

/-- CCH_GDDR_ERR of device k counts on-die ECC reports; an uncorrectable one raises event 0x114 + k with its device address
and the count (R102, R109). -/
def State.onDieReport (s : State) (ix : Nat) (u : BoardUpset) : State :=
  let k := ix % 4
  let s1 := if u.onDieCorrected = 0 then s else s.bump CCH_GDDR_ERR.device_corrected u.onDieCorrected k
  if u.onDie then
    let s2 := s1.bump CCH_GDDR_ERR.device_unc 1 k
    ev (0x114 + k) 1 [ix / 4 * 352, s2.reg CCH_GDDR_ERR.device_unc k] 4 s2
  else s1

/-- Errors strike the words of the slot at index ix; an uncorrectable on-die ECC result is one of every word of the access. -/
def State.upsetBoard (s : State) (ix : Nat) (u : BoardUpset) : State :=
  let s1 := s.onDieReport ix u
  match Tab.find s1.cch.board ix with
  | none => s1
  | some b =>
    if u.onDie then s1.putSlot ix { b with badData := BitVec.allOnes 32, badTags := 3, badIndex := b.badIndex ||| u.index, badRest := true }
    else if !u.corrected && u.data == 0 && u.tags == 0 && u.index == 0 && !u.rest then s1
    else s1.putSlot ix { b with corrected := b.corrected || u.corrected, badData := b.badData ||| u.data,
                                badTags := b.badTags ||| u.tags, badIndex := b.badIndex ||| u.index,
                                badRest := b.badRest || u.rest }

/-- Read the slot at index ix: corrections are counted, tag errors are resolved from the dirty index, then each data word is
judged. With both tag and both index copies bad nothing can be told of the slot: its lines are given up. An uncorrectable
reserved word holds no data, and the slot is rewritten (log entry 71). -/
def State.boardRead (s : State) (ix : Nat) : State :=
  match Tab.find s.cch.board ix with
  | none => s
  | some b =>
    let s1 := if b.corrected then ((s.putSlot ix { b with corrected := false }).countCorrection (ix % 4)).toRewrite ix else s
    let s0 := if b.badRest then s1.toRewrite ix else s1
    let b1 := { b with corrected := false, badRest := false }
    let s2 :=
      if b.badTags = 0 then (if b.badRest then s0.putSlot ix b1 else s0)
      else if b.badTags ≠ 3 then (s0.putSlot ix { b1 with badTags := 0 }).toRewrite ix
      else if b.badIndex = 3 then (s0.delSlot ix).fatalHandling 4 0x106
      else if b.copy.dirty = 0 then s0.delSlot ix
      else ev 0x106 1 [ix % 4, ix / 4, b.copy.l.toNat >>> (s.slotsLog2 + 2)] 4 (s0.putSlot ix { b1 with badTags := 0 })
    [0, 1, 2, 3].foldl (boardWord ix) s2

/-- BOARD_SLOT_REWRITE: within 10 µs the slot holds corrected data. -/
def execBoardSlotRewrite (index : BitVec 25) (s : State) : Res :=
  let ix := index.toNat
  let s1 := { s with cch := { s.cch with rewrite := s.cch.rewrite.filter (fun k => k != ix) } }
  .next (if s.cch.rewrite.contains ix then
    (match Tab.find s1.cch.board ix with
     | some b => s1.putSlot ix { b with corrected := false }
     | none => s1)
  else s)

/-! ## The board write-back buffer (04 R99) -/

/-- Entries of device k's write-back buffer, and whether it has room. -/
def State.wbRoom (s : State) (ix : Nat) : Bool :=
  decide ((s.cch.wb.filter (fun w => s.boardIx w.copy.l.toNat % 4 == ix % 4)).length < 16384)

/-- A dirty resident moves to the write-back buffer; it was read for that, so its words have been judged. `gone` marks the
lines that were invalidated in its slot. -/
def State.toWb (s : State) (c : Copy) (held : Bool) (gone : BitVec 4) : State :=
  { s with cch := { s.cch with wb := s.cch.wb ++ [⟨c, held, held, false, false, gone⟩] } }

/-- Mark an older copy of l in the write-back buffer superseded. -/
def State.supersede (s : State) (l : Nat) : State :=
  { s with cch := { s.cch with wb := s.cch.wb.map (fun w => if w.copy.l.toNat = l then { w with superseded := true } else w) } }

/-! ## Offers (04 R98) -/

/-- The dirty lines of an offered copy replace the slot's. -/
def BoardSlot.take (b : BoardSlot) (c : Copy) : BoardSlot :=
  let m := (List.range 4).foldl (fun (x : BoardSlot) i =>
    if c.isDirty i then
      { x with badData := clearBad x.badData i, gone := setBit4 x.gone i false,
               copy := { x.copy with data := setPart x.copy.data i (c.line i),
                                     poison := setBit4 x.copy.poison i (c.isPoison i) } }
    else x) b
  { m with copy := { m.copy with dirty := b.copy.dirty ||| c.dirty, reuse := max b.copy.reuse c.reuse,
                                 epochMode := c.epochMode, epochTag := c.epochTag, keyGen := c.keyGen } }

def boardOf (c : Copy) (gone : BitVec 4) : BoardSlot := ⟨c, false, 0, gone, 0, 0, false⟩

/-- The flip mask fires on a write of lines `is` into the slot of a board index: one flipped bit is corrected under SECDED,
two are uncorrectable, and of more the manual does not say what SECDED makes (a free value). -/
def State.flipBoard (s : State) (ix : Nat) (l : Nat) (is : List Nat) : State :=
  match is.find? (fun i => s.flipsLine 2 (4 * l + i)), s.flip.armed, Tab.find s.cch.board ix with
  | some i, some m, some b =>
    let n := popIn m.mask.toNat 72
    let draw := Config.free s.fresh % 2
    let bad := { b with badData := b.badData ||| (BitVec.twoPow 32 (8 * i)) }
    let y := if n = 1 then { b with corrected := true }
      else if n = 2 ∨ draw = 0 then bad
      else { b with copy := b.copy.flip i 0 m.mask }
    (State.putSlot { s with fresh := s.fresh + 1 } ix y).flipFired 0 0 (4 * l + i)
  | _, _, _ => s

/-- Write an accepted offer. -/
def State.acceptOffer (s : State) (ix : Nat) (b : BoardSlot) (c : Copy) : State :=
  let s1 := if c.dirty = 0 then s else s.supersede c.l.toNat
  let is := if c.dirty = 0 then [0, 1, 2, 3] else [0, 1, 2, 3].filter (fun i => c.isDirty i)
  count 0x4004 1 none (((s1.putSlot ix b).bump CCH_BOARD_OFFER.accepted).flipBoard ix c.l.toNat is)

def State.declineOffer (s : State) : State := count 0x4005 1 none (s.bump CCH_BOARD_OFFER.declined)

/-- How an offer ends: accepted, declined, or not decided, while the write-back buffer that it needs is full (R99). -/
inductive OfferEnd where
  | accepted | declined | waits
deriving DecidableEq, Repr

/-- Offer a copy to its board slot: the first row of Table 4-6 that applies. `gone` marks clean lines that the copy cannot
give. -/
def State.offer (s0 : State) (c : Copy) (gone : BitVec 4) : State × OfferEnd :=
  let ix := s0.boardIx c.l.toNat
  let s := s0.boardRead ix
  match Tab.find s.cch.board ix with
  | none => (s.acceptOffer ix (boardOf c gone) c, .accepted)
  | some b =>
    if b.copy.l = c.l then
      if c.dirty = 0 then (s.declineOffer, .declined) else (s.acceptOffer ix (b.take c) c, .accepted)
    else if b.copy.dirty = 0 then (s.acceptOffer ix (boardOf c gone) c, .accepted)
    else if c.dirty = 0 && decide (c.reuse < b.copy.reuse) then
      ((s.putSlot ix { b with copy := { b.copy with reuse := b.copy.reuse / 2 } }).declineOffer, .declined)
    else if s.wbRoom ix then ((s.toWb b.copy false b.gone).acceptOffer ix (boardOf c gone) c, .accepted)
    else (s, .waits)

/-- BOARD_OFFER: an entry of the near eviction buffer whose refetch is done. Offers wait while region C restarts. A declined
entry can take a write until it is released (Table 4-8). -/
def execBoardOffer (t : Nat) (x : Offered) (s : State) : Res :=
  let s := s.tick t
  match s.evictAt x.l.toNat with
  | none => .next s
  | some e =>
    if e.refetch != 0 || e.declinedAt.isSome || s.regionHolds 4 then .next s
    else
      let r := (s.upsetBoard (s.boardIx x.l.toNat) x.board).offer e.copy 0
      .next (match r.2 with
        | .accepted => { r.1 with cch := { r.1.cch with evict := r.1.cch.evict.filter (fun y => y.copy.l != e.copy.l) } }
        | .declined => r.1.setEvict { e with declinedAt := some s.now }
        | .waits => r.1)

/-- A dirty copy of an epoch-mode line carries the tag that epoch C + 2 will take, which is still that of C − 2: it goes home ahead of
every other dirty line (10 R281). -/
def State.oldTag (s : State) (c : Copy) : Bool :=
  c.epochMode && c.dirty != 0 && !s.closing && c.epochTag == BitVec.ofNat 2 (s.ring.committed + 2)

/-- Dirty lines of the copy go home without waiting for their age: in flush-home, in a coordinated flush, in a close that is held for
their tag, or as the oldest tag (09 R254; 10 R280, R281). -/
def State.hurries (s : State) (c : Copy) : Bool :=
  s.pfl.flush.isSome || c.dirtyLines.any (fun k => s.ring.flushLines.contains k) || s.oldTag c ||
    (match s.ring.close with | some x => x.held && c.epochMode && c.epochTag == BitVec.ofNat 2 (x.n + 1) | none => false)

/-- DIRTY_AGE_PUSH of a near index: the limit is reached or a rule sends the lines home, no fill is in flight (04 R93). An accepted push into an empty slot, or
one of another DPA, writes the slot whole: the manual says only what becomes of the dirty lines, and the model copies the clean
ones too, but for those that fail their parity (DESIGN CHOICE, log entry 72). -/
def execDirtyAgePush (t : Nat) (p : Pushed) (s0 : State) : Res :=
  let ix := p.index.toNat
  let s := ((s0.tick t).upsetNear ix p.near).nearTags ix
  match Tab.find s.cch.near ix with
  | none => .next s
  | some x =>
    match x.dirtySince with
    | none => .next s
    | some d =>
      let limit := s.run.policy.dirtyAge * usec
      if (s.now < d + limit && !s.hurries x.copy) || x.filling || s.regionHolds 4 then .next s
      else
        let l := x.copy.l.toNat
        let s1 := [0, 1, 2, 3].foldl (fun s i => if x.copy.isDirty i then s.nearData l i else s) s
        if s1.fab.fatal then .next s1
        else
          let gone := (List.range 4).foldl (fun g i => setBit4 g i (!x.copy.isDirty i && badIn x.badData i != [])) (0 : BitVec 4)
          let r := (s1.upsetBoard (s1.boardIx l) p.board).offer x.copy gone
          if r.2 = .waits then .next r.1
          else
            let y := { x with copy := { x.copy with dirty := 0 }, dirtySince := none }
            let s2 := count 0x4006 1 none { r.1 with cch := { r.1.cch with near := Tab.put r.1.cch.near ix y } }
            .next (if d + 2 * limit < s.now then ev 0x109 0 [ix, (s.now - d) / usec] 4 s2 else s2)

/-! ## Allocation and eviction (04 R92, R94) -/

/-- Start the fill of l, unless one is in flight. A medium read goes to its die's queue, with the class and the deadline of its
request; one without a request is of the internal classes, with H = 1 ms (05 R124, R126). -/
def State.startFill (s : State) (l : Nat) (src : Src) (cls : Nat := 8) (deadline : Nat := 0) (raced : Bool := false) : State :=
  if (s.fillAt l).isSome then s
  else
    let loc := s.readLoc (l / 64)
    let key := match loc with | some x => s.sectorEntry x (l % 64) | none => 0
    let f : Fill := { l := BitVec.ofNat 35 l, cls := cls, deadline := if deadline = 0 then s.now + msec else deadline,
                      issuedAt := s.now, loc := loc, entry := key, offsets := (Tab.findD s.cal.thr key ThrEntry.blank).offsets,
                      raced := raced, src := src, phase := .issued, spent := src == .recon,
                      tried := false, group := (match loc with | some x => x.group | none => 0), data := 0, poison := 0,
                      macBad := 0, sent := 0, after := [] }
    { s with cch := { s.cch with fills := s.cch.fills ++ [f] } }

/-- The victim of an allocation moves to the near eviction buffer. A clean line with a parity error is dropped where the
victim holds no dirty line, else fetched again before the offer. -/
def State.evictNear (s0 : State) (ix : Nat) : State :=
  let s := s0.nearTags ix
  match Tab.find s.cch.near ix with
  | none => s
  | some x =>
    let l := x.copy.l.toNat
    let bad := [0, 1, 2, 3].filter (fun i => badIn x.badData i != [])
    let badDirty := bad.filter (fun i => x.copy.isDirty i)
    let clean := bad.filter (fun i => !x.copy.isDirty i)
    let s1 := { s with cch := { s.cch with near := Tab.del s.cch.near ix, evict := s.cch.evict.filter s.heldEvict } }
    let c := { x.copy with poison := badDirty.foldl (fun p i => setBit4 p i true) x.copy.poison }
    let s2 := clean.foldl (fun s i => (s.lastUnc 1 false (4 * l + i)).countRefetch ix i) s1
    if x.copy.dirty = 0 && !clean.isEmpty then s2
    else
      let s4 := { s2 with cch := { s2.cch with
        evict := s2.cch.evict ++ [⟨c, clean.foldl (fun p i => setBit4 p i true) 0, 0, none⟩] } }
      let s3 := match clean with
        | i :: _ => s4.startFill l (s4.lowerSource l i)
        | [] => s4
      match badDirty with
      | [] => s3
      | i :: _ =>
        (ev 0x102 3 [ix, x.copy.dirty.toNat, 8 * i + (badIn x.badData i).headD 0] 4 (s3.lastUnc 1 true (4 * l + i))).fatalHandling
          4 0x102

/-- Line l can have its near slot: it is empty, it is l's, or its line can leave for the eviction buffer. -/
def State.canAlloc (s : State) (l : Nat) : Bool :=
  match Tab.find s.cch.near (nearIx l) with
  | none => true
  | some x => x.copy.l.toNat == l || (!x.filling && decide ((s.cch.evict.filter s.heldEvict).length < 128))

/-- Key phase of new writes to a line, its extent's epoch mode. -/
def State.phaseOf (s : State) (l : Nat) : Bool := (s.unitKey (unitOfLine (4 * l))).phase
def State.lineEpochMode (s : State) (l : Nat) : Bool := s.epochMode (l / 64)

/-- An empty copy of line l. -/
def State.blankCopy (s : State) (l reuse : Nat) : Copy :=
  { l := BitVec.ofNat 35 l, dirty := 0, poison := 0, reuse := reuse, epochMode := s.lineEpochMode l, epochTag := 0,
    keyGen := s.phaseOf l, data := 0 }

/-- Allocate the near slot of l with a copy. -/
def State.alloc (s : State) (l : Nat) (c : Copy) (filling : Bool) : State :=
  let s1 := if (s.nearAt l).isSome then s else s.evictNear (nearIx l)
  s1.setNear l ⟨c, none, filling, 0, 0, 0, 0⟩

/-! ## Epoch tags (10 R281 to R283) -/

def State.openTag (s : State) : BitVec 2 := BitVec.ofNat 2 s.openEpoch

/-- The tag is the closing or prepared epoch's. -/
def State.tagPrepared (s : State) (tag : BitVec 2) : Bool := s.closing && tag == BitVec.ofNat 2 (s.ring.committed + 1)

/-- The epoch whose writes a copy with this tag holds. -/
def State.tagEpoch (s : State) (tag : BitVec 2) : Nat :=
  if tag = s.openTag then s.openEpoch
  else if s.tagPrepared tag then s.ring.committed + 1
  else s.ring.committed - (s.ring.committed + 4 - tag.toNat) % 4

/-- Dirty copies of l, in the order of Table 4-2. -/
def State.dirtyCopies (s : State) (l : Nat) : List Copy :=
  ((match s.nearAt l with | some x => [x.copy] | none => []) ++ (match s.evictAt l with | some x => [x.copy] | none => []) ++
    (match s.boardAt l with | some x => [x.copy] | none => []) ++
    (match s.wbAt l with | some x => [x.copy] | none => [])).filter (fun c => c.dirty != 0 && c.epochMode)

/-- A write to l waits for the prepared epoch (R282). -/
def State.waitsEpoch (s : State) (l : Nat) : Bool :=
  (s.dirtyCopies l).any (fun c => s.tagPrepared c.epochTag)

/-- A write to l meets a dirty copy of a committed epoch (R283). -/
def State.meetsCommitted (s : State) (l : Nat) : Bool := (s.dirtyCopies l).any (fun c => c.epochTag != s.openTag)

/-- The newest dirty lines of the copies laid over one another: the committed copy of l. -/
def overlayCopies : List Copy → Option Copy
  | [] => none
  | c :: r =>
    match overlayCopies r with
    | none => some c
    | some d =>
      let m := (List.range 4).foldl (fun (x : Copy) i =>
        if c.isDirty i then { x with data := setPart x.data i (c.line i), poison := setBit4 x.poison i (c.isPoison i) } else x) d
      some { m with dirty := c.dirty ||| d.dirty, epochTag := c.epochTag, keyGen := c.keyGen }

/-- Move the committed copy of l to the write-back buffer as an entry held for epoch; the newer copy stays in the near
cache, with the same bytes. -/
def State.holdCommitted (s : State) (l : Nat) : State :=
  match overlayCopies (s.dirtyCopies l) with
  | none => s
  | some c =>
    let newer := { c with epochTag := s.openTag, keyGen := s.phaseOf l }
    let s1 := { s with cch := { s.cch with wb := s.cch.wb.filter (fun w => w.copy.l.toNat != l || w.superseded) } }
    let s2 := if (s1.boardAt l).isSome then s1.dropBoard l else s1
    let s3 := s2.toWb c true 0
    match s3.nearAt l with
    | some x =>
      let seen := (List.range 4).foldl (fun m i => if c.isDirty i then m ||| wholeLine i else m) x.mask
      let y := (List.range 4).foldl (fun (y : Copy) i =>
        if c.isDirty i then { y with data := setPart y.data i (c.line i), poison := setBit4 y.poison i (c.isPoison i) } else y) x.copy
      s3.setNear l { x with mask := if x.filling then seen else x.mask,
                            copy := { y with dirty := c.dirty, epochTag := s.openTag, keyGen := s.phaseOf l },
                            dirtySince := some (x.dirtySince.getD s.now) }
    | none =>
      let s4 := { s3 with cch := { s3.cch with evict := s3.cch.evict.filter (fun e => e.copy.l.toNat != l) } }
      let s5 := s4.alloc l { newer with reuse := 0 } false
      match s5.nearAt l with
      | some x => s5.setNear l { x with dirtySince := some s.now }
      | none => s5

/-! ## Fills -/

/-- What lands for line i of a fill: the newest source above the medium, or what the medium gave. -/
def State.landLine (s : State) (f : Fill) (i : Nat) : Line × Bool :=
  (s.lowerAt f.l.toNat i).getD (Sys2Proof.Machine.part f.data i, f.poison.getLsbD i)

def State.landData (s : State) (f : Fill) : BitVec 2048 × BitVec 4 :=
  (List.range 4).foldl (fun a i => (setPart a.1 i (s.landLine f i).1, setBit4 a.2 i (s.landLine f i).2)) (0, 0)

/-- A fill needs the medium for some line. -/
def State.needsMedium (s : State) (l : Nat) : Bool := [0, 1, 2, 3].any (fun i => (s.lowerAt l i).isNone)

/-! ## Writes into a cached copy (03 R61, 04 R91, R106; 08 R219; 13 R379) -/

/-- The overlay keeps a later epoch's dumped line aside. -/
def State.keptAside (s : State) (k : Nat) : Bool :=
  match Tab.find s.pfl.overlay k with
  | some d => s.aside d
  | none => false

/-- A line that is written whole loses its poison, on the list too (07 R190). Once a write has merged, the card drops the
line from the overlay (09 R257). -/
def State.merged (s : State) (k : Nat) (e : Enables) (poison : Bool) : State :=
  let s1 := if e = BitVec.allOnes 64 ∧ !poison then s.unlist k else s
  let s2 := if poison then s1.listLine k 1 else s1
  if (Tab.find s2.pfl.overlay k).isSome && !s2.keptAside k then
    { s2 with pfl := { s2.pfl with overlay := Tab.del s2.pfl.overlay k } }
  else s2

/-- A full line in the copy's mode: its epoch tag is the open epoch's, its key phase the unit's. -/
def State.writeCopy (s : State) (c : Copy) (i : Nat) (data : Line) (e : Enables) (poison : Bool) : Copy :=
  { (c.write i data e poison) with epochTag := if c.epochMode then s.openTag else c.epochTag, keyGen := s.phaseOf c.l.toNat }

/-- Merge a write into an entry of the near eviction buffer; a declined one is offered again (04 Table 4-8), and what is fetched
again for the entry leaves the written bytes alone. -/
def State.writeEvict (s : State) (e : EvictEntry) (i : Nat) (data : Line) (en : Enables) (poison : Bool) : EvictEntry :=
  { copy := s.writeCopy e.copy i data en poison, declinedAt := none,
    refetch := if en = BitVec.allOnes 64 then setBit4 e.refetch i false else e.refetch,
    mask := if e.refetch.getLsbD i then e.mask ||| maskOf i en else e.mask }

/-- Merge a write into the near line of l. -/
def State.writeNear (s : State) (l i : Nat) (data : Line) (e : Enables) (poison : Bool) : State :=
  match s.nearAt l with
  | none => s
  | some x =>
    let full := e = BitVec.allOnes 64
    let y : NearSlot := { x with
      copy := s.writeCopy x.copy i data e poison, dirtySince := some (x.dirtySince.getD s.now),
      mask := if x.filling then x.mask ||| maskOf i e else x.mask,
      badData := if full then clearBad x.badData i else x.badData }
    let k := 4 * l + i
    match s.flipsLine 1 k, s.flip.armed with
    | true, some m =>
      let w := firstByte e / 8
      let z : NearSlot := { y with
        copy := y.copy.flip i w m.mask,
        badData := if parityFinds m.mask then y.badData ||| BitVec.twoPow 32 (8 * i + w) else y.badData }
      (s.setNear l z).flipFired 0 0 k
    | _, _ => s.setNear l y

end Sys2Proof.Machine
end

