-- ==== Sys2Proof/Machine/Observe.lean ====
section
/-! DEFINITION. The event recorder, performance counters, telemetry queue, flip mask, health engine and the OBS accesses
(00_scope R4 to R8, 13 R363 to R388). -/

namespace Sys2Proof.Machine

/-! ## Recorder (13 R365 to R369) -/

/-- The 64 bytes of a record (13 Table 13-6). -/
def Rec.bytes (r : Rec) : Bytes :=
  let b := le 1 r.trigger ++ le 1 (r.snaps.length + 8 * b2n r.lostBefore) ++ le 2 r.repeats ++ le 4 r.seq ++
    fit 48 (r.snaps.flatMap (fun w => le 8 w.toNat)) ++ le 2 r.source ++ le 1 r.severity ++ le 1 r.region
  b ++ le 4 (crc32c b)

/-- Row of partition 4 that holds the record of sequence q. -/
def Recorder.rowOf (r : Recorder) (q : Nat) : Nat := ((q + 2 ^ 32 - r.base) % 4096) / 4

/-- Data of a row of partition 4: its records, each at its place. -/
def Recorder.rowData (r : Recorder) (row : Nat) : Bytes :=
  (List.range 4).flatMap (fun k =>
    match r.stored.find? (fun x => (x.seq + 2 ^ 32 - r.base) % 4096 == 4 * row + k) with
    | some x => x.bytes
    | none => zeros 64)

/-- Write the held repeats of the newest record into its stored copy. -/
def Recorder.settle (r : Recorder) : Recorder :=
  match r.newest with
  | some n => { r with stored := r.stored.map (fun x => if x.seq == n.seq then n else x), heldRepeats := 0 }
  | none => r

/-- The staged records that lie in the first one's row go to partition 4; held repeats of that row go with them. -/
def State.drainRow (s : State) : State :=
  match s.recd.staging with
  | [] => s
  | x :: _ =>
    let row := s.recd.rowOf x.seq
    let batch := s.recd.staging.filter (fun r => s.recd.rowOf r.seq == row)
    let r0 := match s.recd.newest with
      | some n => if s.recd.rowOf n.seq = row then s.recd.settle else s.recd
      | none => s.recd
    let r1 := { r0 with staging := s.recd.staging.filter (fun r => s.recd.rowOf r.seq != row),
                        stored := r0.stored ++ batch }
    { s with recd := r1 }.ownRow 5 4 row (r1.rowData row)

/-- RECORDER_DRAIN. -/
def execRecorderDrain (s : State) : Res := .next (if s.canLog then s.drainRow else s)

/-- The recorder drains in parallel with a dump, and has finished before the trailer is written (13 R366). -/
def State.drainAll (s : State) : State := (List.range s.recd.staging.length).foldl (fun s _ => s.drainRow) s

/-- RECORDER_REPEAT_FLUSH: 10 minutes after the first held repeat, or at flush-home. -/
def State.flushRepeats (s : State) : State :=
  if s.recd.heldRepeats = 0 then s
  else match s.recd.newest with
    | some n =>
      let r := s.recd.settle
      { s with recd := r }.ownRow 5 4 (r.rowOf n.seq) (r.rowData (r.rowOf n.seq))
    | none => s

def execRecorderRepeatFlush (s : State) : Res := .next (if s.canLog then s.flushRepeats else s)

/-- READ_RECORDER. -/
def execReadRecorder (path : Path) (first : Nat) (count : Nat) (s : State) : Res :=
  .next (s.mailbox (.readRecorder path first count) path 0xC050 true false (fun s =>
    if count = 0 ∨ 1024 < count then s.reply path 0xC050 .invalidInput
    else
      let kept := s.recd.stored.filter (fun r => (s.row 4 (s.recd.rowOf r.seq)).pick != 255)
      let all := (kept ++ s.recd.staging).filter (fun r => decide (first ≤ r.seq) && decide (s.recd.base ≤ r.seq))
      s.reply path 0xC050 .success ((all.take count).flatMap Rec.bytes)))

/-- CLEAR_RECORDER: the new base goes to partition 1 row 3; the rest follows when that row is written. -/
def execClearRecorder (t : Nat) (path : Path) (s : State) : Res :=
  .next ((s.tick t).mailbox (.clearRecorder t path) path 0xC051 true false (fun s =>
    s.replyAfter path 0xC051 [] [s.recd.nextSeq] [⟨4, 1, 3, le 4 s.recd.nextSeq, 1, 0⟩]))

/-- What Clear Recorder does when its row is written. -/
def State.recorderCleared (s : State) (base : Nat) : State :=
  ev 0x5A9 0 [s.recd.base, base] 1
    { s with recd := { s.recd with base := base, staging := [], stored := [], heldRepeats := 0, newest := none,
                                   full := false } }

/-! ## Telemetry queue (13 R374 to R377) -/

abbrev tqLines : Nat := 1048576

/-- Close the open line. A line that is not full is a remainder line. -/
def State.closeLine (s : State) (flush timeout : Bool) : State :=
  if s.tq.openWords.isEmpty then s
  else
    let x : TqLine := { seq := s.tq.seq, valid := 8 * s.tq.openWords.length, lead := s.tq.openLead,
                        lost := s.tq.lostFlag, flush := flush, timeout := timeout, words := s.tq.openWords }
    let s1 := if s.tq.openWords.length < 7 then s.bump TQ_STATUS.remainders else s
    { s1 with tq := { s1.tq with lines := Tab.put s1.tq.lines s1.tq.head x, head := (s1.tq.head + 1) % tqLines,
                                 seq := (s1.tq.seq + 1) % 2 ^ 32, openWords := [], openLead := 0, openSince := none,
                                 lostFlag := false } }

/-- Write one word of a sample, of which `rest` words (this one counted) are still to come. -/
def State.tqWord (s : State) (w : Word64) (rest : Nat) : State :=
  let q := { s.tq with openWords := s.tq.openWords ++ [w],
                       openLead := (if s.tq.openWords.isEmpty ∧ rest < 3 then 8 * rest else s.tq.openLead),
                       openSince := some (s.tq.openSince.getD s.now) }
  let s1 := { s with tq := q }
  if q.openWords.length = 7 then s1.closeLine false false else s1

/-- Lines that may still be closed before TQ_TAIL. -/
def Telemetry.room (q : Telemetry) : Nat := (q.tail + tqLines - q.head - 1) % tqLines

/-- A sample that does not fit is dropped whole and counted; event 0x5AB once per second. -/
def State.dropSample (s : State) : State :=
  let s1 := s.bump TQ_STATUS.dropped
  let s2 := { s1 with tq := { s1.tq with lostFlag := true, drops := s1.tq.drops + 1 } }
  if (match s2.tq.dropsAt with | some t => decide (t + sec ≤ s2.now) | none => true) then
    ev 0x5AB 0 [s2.tq.drops] 4 { s2 with tq := { s2.tq with dropsAt := some s2.now, drops := 0 } }
  else s2

/-- Place the three words of a sample (13 R377). -/
def State.placeSample (s : State) (w0 w1 w2 : Word64) : State :=
  if (s.tq.openWords.length + 3) / 7 ≤ s.tq.room ∧ !s.restarting 4 then
    ((s.tqWord w0 3).tqWord w1 2).tqWord w2 1
  else s.dropSample

/-- TELEMETRY_TIMEOUT. -/
def execTelemetryTimeout (t : Nat) (s : State) : Res :=
  let s := s.tick t
  match s.tq.openSince with
  | none => .next s
  | some t0 => .next (if t0 + s.readFld TQ_TIMEOUT.timeout_us 0 * usec ≤ s.now then s.closeLine false true else s)

/-- TQ_FLUSH: close the open line at once. -/
def execTqFlush (s : State) : Res := .next (if s.link.protocol = 0 then s else s.closeLine true false)

/-- TQ_TAIL_WRITE: ignored outside the readable lines; the lines read are released. -/
def execTqTailWrite (tail : Nat) (s : State) : Res :=
  let n := (tail + tqLines - s.tq.tail) % tqLines
  .next (if s.link.protocol = 0 ∨ tqLines ≤ tail ∨ (s.tq.head + tqLines - s.tq.tail) % tqLines < n then s
    else { s with tq := { s.tq with
      tail := tail,
      lines := Tab.keep s.tq.lines (fun k _ => decide (n ≤ (k + tqLines - s.tq.tail) % tqLines)) } })

/-! ## Counters (13 R370 to R373) -/

/-- PMU_PORT_WINDOW_END: bytes per µs are MB/s; a new window length takes effect at this boundary. -/
def execPmuPortWindowEnd (t : Nat) (port : Fin 22) (inBytes outBytes : Nat) (s : State) : Res :=
  let s := s.tick t
  let w := max 1 (s.tq.windows.getD port.val 1000)
  let s1 := (s.setReg PMU_PORT.in_mbps (inBytes / w) port.val).setReg PMU_PORT.out_mbps (outBytes / w) port.val
  .next { s1 with tq := { s1.tq with windows := setAt s1.tq.windows port.val (s1.reg PMU_WINDOW.window_us) } }

/-- PMU_COUNTER_WRAP: the counter stands at 2^48 - 1 and counts one more. -/
def execPmuCounterWrap (t : Nat) (counter : Fin 64) (s : State) : Res :=
  let s := s.tick t
  let n := counter.val
  if s.pmuOn && s.reg PMU_CFG.enable n == 1 && s.reg PMU_CNT.count n == 2 ^ 48 - 1 &&
      !cfgError (s.reg PMU_CFG.select n) (s.reg PMU_CFG.tp2_mode n) (s.reg PMU_CFG.level n) then
    let p := s.pmuAdd n 1
    .next (s.onlyEvents (raiseAll 130 p.2 p.1))
  else .next s

/-- Value of a quantity of 13 Table 13-7. -/
def State.quantity (s : State) (code : Nat) : Option Nat :=
  match code with
  | 0x2000 => some s.qos.ctxs.length
  | 0x2001 => some (s.icInUse)
  | 0x2002 => some (s.staged / mib)
  | 0x2003 => some s.qos.ingress.length
  | 0x2004 => some (s.cch.near.filter (fun e => e.2.copy.dirty != 0)).length
  | 0x2005 => some s.cch.wb.length
  | _ => none

/-- One level counter at one sample. -/
def levelOne (a : State × List Ev) (n : Nat) : State × List Ev :=
  let s := a.1
  if s.reg PMU_CFG.enable n == 1 && s.reg PMU_CFG.level n == 1 &&
      !cfgError (s.reg PMU_CFG.select n) (s.reg PMU_CFG.tp2_mode n) 1 then
    let k := match s.quantity (s.reg PMU_CFG.select n) with
      | some v => v
      | none => b2n (s.tq.levelSeen.getLsbD n)
    let r := s.pmuAdd n k
    (r.1, a.2 ++ r.2)
  else a

/-- PMU_LEVEL_SAMPLE, every 10 ns of the management reference. -/
def execPmuLevelSample (s : State) : Res :=
  if s.pmuOn then
    let p := (List.range 64).foldl levelOne (s, [])
    .next (s.onlyEvents (raiseAll 130 p.2 { p.1 with tq := { p.1.tq with levelSeen := 0 } }))
  else .next { s with tq := { s.tq with levelSeen := 0 } }

/-! ## Health engine (13 R381) -/

/-- Sources of 02 Table 2-16 that set or clear health flag b. -/
def flagSources (b : Nat) : List Nat :=
  match b with
  | 0 => [0x30B]
  | 1 => [0x30C]
  | 2 => [0x30E]
  | 3 => [0x520, 0x521, 0x522, 0x523, 0x524, 0x525, 0x526, 0x527]
  | 4 => [0x520, 0x521, 0x522, 0x523, 0x524, 0x525, 0x526, 0x527]
  | 5 => [0x48B]
  | 6 => [0x487]
  | 7 => [0x489, 0x48A]
  | 8 => [0x388, 0x389]
  | 9 => [0x483]
  | 10 => [0x483]
  | 12 => [0x185]
  | _ => []

/-- One flag at an evaluation: a change in bits [12:0] that no source caused is recorded by the health engine. -/
def healthOne (new : BitVec 24) (s : State) (b : Nat) : State :=
  if new.getLsbD b != s.evt.health.getLsbD b && (flagSources b).all (fun x => !s.evt.healthBy.contains x) then
    healthRecord [b, b2n (new.getLsbD b)] s
  else s

/-- Life Used (Table 13-13): the larger of mean wear in percent and 100 less the spare left, at most 100. -/
def State.lifeUsed (s : State) : Nat := min 100 (max (divUp s.meanWear 10000) (100 - s.sparePct))

/-- Device Temperature: the highest used reading of the controller's sensors. -/
def State.deviceTemp (s : State) : Int :=
  (maxInt (((List.range 64).filter (fun i => sensorKind i == 0)).map s.usedOf)).getD 0

/-- The programmable warning alerts that stand: life used, over-temperature, under-temperature, corrected volatile errors,
corrected persistent errors (R382; the order is that of CXL 3.1). -/
def State.alertsNow (s : State) : List Bool :=
  let a := s.evt.alert
  let on := fun (i : Nat) (b : Bool) => a.enable.getLsbD i && b
  [on 0 (decide (a.lifeUsed ≤ s.lifeUsed)), on 1 (decide (a.overTemp ≤ s.deviceTemp)), on 2 (decide (s.deviceTemp ≤ a.underTemp)),
   on 3 (decide (a.volErrors ≤ s.reg ECC_TOTALS.corrected_volatile)),
   on 4 (decide (a.perErrors ≤ s.reg ECC_TOTALS.corrected_persistent))]

/-- An alert crossing is recorded as a health change is (R382). -/
def alertOne (new : List Bool) (s : State) (i : Nat) : State :=
  if new.getD i false != s.evt.alert.standing.getD i false then healthRecord [24 + i, b2n (new.getD i false)] s else s

/-- HEALTH_EVALUATE. -/
def execHealthEvaluate (t : Nat) (s : State) : Res :=
  let s := s.tick t
  let new := s.healthFlags
  let al := s.alertsNow
  let s1 := (List.range 5).foldl (alertOne al) ((List.range 13).foldl (healthOne new) s)
  let a := { s1.evt.alert with standing := al }
  .next { s1 with evt := { s1.evt with health := new, healthBy := [], alert := a } }

/-! ## Flip mask (13 R379) -/

/-- The checks of Set Check Flip Mask on an arming input. -/
def flipOk (s : State) (m : FlipIn) : Bool :=
  decide (1 ≤ m.target) && decide (m.target ≤ 4) && m.mask != 0 && decide (m.dpa < s.capacity) &&
    (m.target != 4 || [1, 2, 3, 4, 6, 7].contains m.partition) &&
    (m.target != 3 || (decide (m.offset ≤ 2555) && decide (1 ≤ m.count) && decide (m.count ≤ 64)))

/-- The control registers take the command's input. -/
def State.flipRegs (s : State) (m : FlipIn) : State :=
  (((((((s.setReg ECC_FLIP_CTRL.target m.target).setReg ECC_FLIP_CTRL.match_dpa (b2n m.matchDpa)).setReg
    ECC_FLIP_CTRL.partition m.partition).setReg ECC_FLIP_CTRL.offset m.offset).setReg ECC_FLIP_CTRL.count m.count).setReg
    ECC_FLIP_MASK_LO.mask_lo (m.mask.toNat % 2 ^ 64)).setReg ECC_FLIP_MASK_HI.mask_hi (m.mask.toNat / 2 ^ 64)).setReg
    ECC_FLIP_DPA.dpa (m.dpa / 64)

/-- SET_CHECK_FLIP_MASK. -/
def execSetCheckFlipMask (path : Path) (m : FlipIn) (s : State) : Res :=
  .next (s.mailbox (.setCheckFlipMask path m) path 0xC090 false false (fun s =>
    if m.target = 0 then ({ s with flip := ⟨none⟩ }.flipRegs m).reply path 0xC090 .success
    else if flipOk s m then ({ s with flip := ⟨some m⟩ }.flipRegs m).reply path 0xC090 .success
    else s.reply path 0xC090 .invalidInput))

/-- The mask that the control registers hold. -/
def State.flipFromRegs (s : State) : FlipIn :=
  { target := s.reg ECC_FLIP_CTRL.target, matchDpa := s.reg ECC_FLIP_CTRL.match_dpa == 1,
    partition := s.reg ECC_FLIP_CTRL.partition, offset := s.reg ECC_FLIP_CTRL.offset,
    count := s.reg ECC_FLIP_CTRL.count, dpa := s.reg ECC_FLIP_DPA.dpa * 64,
    mask := BitVec.ofNat 72 (s.reg ECC_FLIP_MASK_LO.mask_lo + 2 ^ 64 * s.reg ECC_FLIP_MASK_HI.mask_hi) }

/-- ECC_FLIP_ARM_WRITE: ignored when the checks fail. -/
def execEccFlipArmWrite (s : State) : Res :=
  .next (if s.link.protocol ≠ 0 ∧ flipOk s s.flipFromRegs then { s with flip := ⟨some s.flipFromRegs⟩ } else s)

/-- ECC_FLIP_DISARM_WRITE: target 0. -/
def execEccFlipDisarmWrite (s : State) : Res :=
  .next (if s.link.protocol = 0 then s
    else { (s.setReg ECC_FLIP_CTRL.target 0) with flip := ⟨none⟩ })

/-! ## OBS accesses (00_scope R4 to R8) -/

/-- Fields that a command of their own writes. -/
def ownWrite (f : Fld) : Bool :=
  [RING_DOORBELL.epoch.off, TQ_TAIL.tail.off, TQ_FLUSH.flush.off].contains f.off ||
    (f.off == RING_FLUSH.start.off && f.lo == RING_FLUSH.start.lo) ||
    (decide (PFL_SUSPECT.suspect.off ≤ f.off) && decide (f.off < PFL_SUSPECT.suspect.off + 512)) ||
    (f.off == ECC_FLIP_CTRL.arm.off && f.lo == ECC_FLIP_CTRL.arm.lo)

/-- Send the interrupts that wait on vectors no longer masked (13 R388). -/
def State.releasePending (s : State) : State :=
  (List.range 32).foldl (fun s v =>
    if s.evt.pending.getLsbD v && !s.vecMasked v then
      { s with evt := { s.evt with pending := s.evt.pending &&& ~~~(BitVec.twoPow 32 v) } }.sendMsix v
    else s) s

/-- What follows a write: the port window and the telemetry timeout are held to their ranges where the write reached them, a
cleared freeze is no longer the trigger's, target 0 disarms the flip mask, unmasked vectors send what they held. That the
timeout takes the nearest limit of its range is a DESIGN CHOICE (log entry 68: the manual gives the range alone). -/
def State.afterWrite (s : State) (off : Nat) : State :=
  let o := off / 8 * 8
  if off = PMU_WINDOW.window_us.off then
    s.setReg PMU_WINDOW.window_us (max 1 (min 1000000 (s.reg PMU_WINDOW.window_us)))
  else if off = TQ_TIMEOUT.timeout_us.off then
    s.setReg TQ_TIMEOUT.timeout_us (max 10 (min 10000 (s.reg TQ_TIMEOUT.timeout_us)))
  else if o = REC_CTRL.freeze.off then
    (if s.reg REC_CTRL.freeze = 0 then s.setReg REC_CTRL.frozen_by_trigger 0 else s)
  else if o = ECC_FLIP_CTRL.target.off then
    (if s.reg ECC_FLIP_CTRL.target = 0 then { s with flip := ⟨none⟩ } else s)
  else if o = EVT_VEC_MASK.mask.off then s.releasePending
  else s

/-! ## BAR4, and the registers of configuration space and BAR0 (02 R38, R40, R41, R54, R55, R57; 13 R375, R377) -/

/-- The 64 bytes of a telemetry line (13 Table 13-9). -/
def TqLine.bytes (x : TqLine) : Bytes :=
  le 1 (8 * b2n x.lost + 4 * b2n x.flush + 2 * b2n x.timeout + b2n (decide (x.valid < 56))) ++ zeros 1 ++ le 1 x.lead ++
    le 1 x.valid ++ le 4 x.seq ++ fit 56 (x.words.flatMap (fun w => le 8 w.toNat))

/-- A read of BAR4, of at most 8 bytes of one line. What a line that is not readable shows is a free value. -/
def State.apertureRead (s : State) (off size : Nat) (bad : Bool) : State :=
  match Tab.find s.tq.lines (off / 64) with
  | some x => s.out (.apertureData off (BitVec.ofNat 64 (ofBytes ((x.bytes.drop (off % 64)).take (min size 8)))) bad)
  | none => { s with fresh := s.fresh + 1 }.out (.apertureData off (BitVec.ofNat 64 (Config.free s.fresh)) bad)

/-- A standard opcode that the card does not implement (02 R41). -/
def State.unsupported (s : State) (p : Path) (op : Nat) : State :=
  if commandTable.any (fun c => c.1 == op) then s
  else match s.gate p op false false with
    | .silent => s
    | .refuse rc => s.reply p op rc
    | .hold | .pass => s.reply p op .unsupported

/-- The memory device status register: Media Status in bits [3:2], Mailbox Interface Ready in bit 4, Reset Needed in bits
[7:5] (CXL 3.1). -/
def State.memDevStatus (s : State) : Nat := 4 * s.mediaStatus + 16 * b2n s.link.mboxReady + 32 * s.resetNeeded

/-- What a register outside OBS reads (places and layouts of PCI Express and CXL 3.1, log entry 84). -/
def State.windowRead (s : State) (w : Window) (off : Nat) : Nat :=
  match w with
  | .aerUncStatus => s.link.aerUnc.toNat
  | .aerUncSeverity => s.link.aerSeverity.toNat
  | .aerCorStatus => s.link.aerCor.toNat
  | .rasUncStatus => s.link.rasUnc.toNat
  | .rasCorStatus => s.link.rasCor.toNat
  | .cxlControl => 2 ^ 14 * b2n s.link.viralEnabled
  | .memDevStatus => s.memDevStatus
  | .msixTable => Tab.findD s.link.msixTable (off / 8) 0
  | .msixPba => s.evt.pending.toNat
  | .mailbox => b2n (match s.link.wait with | some x => x.path == .primary | none => false)
  | .obs | .aperture _ => 0

/-- A write to a register outside OBS: status bits clear where a 1 is written, the severity, the viral enable and the MSI-X table
take what is written, read-only registers and BAR4 discard it, and the mailbox takes a command. -/
def State.windowWrite (s : State) (w : Window) (off : Nat) (v : Word64) : State :=
  let m := v.setWidth 32
  match w with
  | .aerUncStatus => { s with link := { s.link with aerUnc := s.link.aerUnc &&& ~~~m } }
  | .aerUncSeverity => { s with link := { s.link with aerSeverity := m } }
  | .aerCorStatus => { s with link := { s.link with aerCor := s.link.aerCor &&& ~~~m } }
  | .rasUncStatus => { s with link := { s.link with rasUnc := s.link.rasUnc &&& ~~~m } }
  | .rasCorStatus => { s with link := { s.link with rasCor := s.link.rasCor &&& ~~~m } }
  | .cxlControl => { s with link := { s.link with viralEnabled := v.getLsbD 14 } }
  | .msixTable => if off < 512 then { s with link := { s.link with msixTable := Tab.put s.link.msixTable (off / 8) v.toNat } } else s
  | .mailbox => s.unsupported .primary (v.toNat % 65536)
  | .obs | .aperture _ | .memDevStatus | .msixPba => s

/-- REGISTER_WRITE: by access code and alignment; discarded where R7 says so or no register lies (02 R40). -/
def execRegisterWrite (a : RegAddr) (size : Nat) (value : Word64) (s : State) : Res :=
  .next (if s.link.protocol = 0 then s
    else if a.w != .obs then s.windowWrite a.w a.offset value
    else if writeSpan a.offset size value = none then s
    else (s.busWrite a.offset size value (fun f => !ownWrite f)).afterWrite a.offset)

/-- RC_REGISTER_READ: the value goes to the host; its RC fields clear as R6 states. -/
def execRcRegisterRead (a : RegAddr) (size : Nat) (s : State) : Res :=
  .next (if s.link.protocol = 0 then s
    else match a.w with
    | .aperture bad => s.apertureRead a.offset size bad
    | .aerUncStatus | .aerUncSeverity | .aerCorStatus | .rasUncStatus | .rasCorStatus | .cxlControl | .memDevStatus | .msixTable
    | .msixPba | .mailbox => s.out (.obsData a.offset (BitVec.ofNat 64 (s.windowRead a.w a.offset)))
    | .obs => (s.busRead a.offset size).1.out (.obsData a.offset (s.busRead a.offset size).2))

/-- EVT_VEC_UNMASK: the write clears the vector's mask bit, and what it held is sent. -/
def execEvtVecUnmask (t : Nat) (vector : Fin 32) (s : State) : Res :=
  let s := s.tick t
  if s.link.protocol = 0 ∨ vector.val < 5 then .next s
  else
    let m := s.reg EVT_VEC_MASK.mask
    let b := 2 ^ (vector.val - 5)
    .next (s.setReg EVT_VEC_MASK.mask (m - (m &&& b))).releasePending

/-- Rows 4 and 5 of partition 1: the suspect flags (13 Table 13-2). -/
def State.suspectRow (s : State) (half : Nat) : Bytes :=
  (List.range 32).flatMap (fun k => le 8 (s.reg PFL_SUSPECT.suspect (32 * half + k)))

/-- PFL_SUSPECT_CLEAR: the bits written 1 clear here and in tally partition 1 (09 R254). -/
def execPflSuspectClear (word : Fin 64) (mask : Word64) (s : State) : Res :=
  if s.link.protocol = 0 then .next s
  else
    let v := s.reg PFL_SUSPECT.suspect word.val
    let s1 := s.setReg PFL_SUSPECT.suspect (v - (v &&& mask.toNat)) word.val
    .next (s1.ownRow 6 1 (4 + word.val / 32) (s1.suspectRow (word.val / 32)))

end Sys2Proof.Machine
end

