-- ==== Sys2Proof/Machine/Qos.lean ====
section
/-! DEFINITION. Classes and guarantees: escalation, class windows, the envelope with suspension and restoration
(03 R65 to R78), and Get Card Status Summary (03 R84). -/

namespace Sys2Proof.Machine

def State.setCls (s : State) (n : Nat) (c : ClsState) : State :=
  { s with qos := { s.qos with cls := setAt s.qos.cls n c } }

/-! ## Escalation (03 R66, R76) -/

/-- The level after one evaluation: at most one step, up past the rise threshold of the next level, down below the fall
threshold of the present one (03 Table 3-4). -/
def nextLevel (level p99 target : Nat) : Nat :=
  let rise := [50, 75, 90].getD level 1000000
  let fall := [0, 40, 65, 80].getD level 0
  if level < 3 ∧ rise * target < 100 * p99 then level + 1
  else if 0 < level ∧ 100 * p99 < fall * target then level - 1
  else level

/-- One class at one evaluation: its trailing p99, then its level; a suspended class is held at level 0. -/
def escalateOne (s : State) (n : Nat) : State :=
  let c := s.clsState n
  let p := s.trailing n
  s.setCls n { c with p99 := p, level := if c.suspended then 0 else nextLevel c.level p (s.classEntry n).target }

/-- ESCALATION_EVALUATION, every 1 µs; the scheduler grants what the levels and the floors then let start. -/
def execEscalationEvaluation (t : Nat) (s : State) : Res :=
  let s := s.tick t
  .next (if s.link.memActive then ((List.range 8).foldl escalateOne s).kick else s)

/-! ## Class windows (03 R65, R67, R71) -/

/-- Bandwidth in MB/s of n lines of 64 bytes in w ns, rounded down (log entry 81). -/
def lineMbps (n w : Nat) : Nat := if w = 0 then 0 else n * 64 * 1000 / w

/-- CLASS_WINDOW_CLOSE: the window that began at winStart has run its length. A window with fewer than 100 completions is
thin and is not judged; a judged one above the target is counted, and raises the event unless the class is suspended. -/
def execClassWindowClose (t : Nat) (cls : Fin 8) (s : State) : Res :=
  let s := s.tick t
  let n := cls.val
  let c := s.clsState n
  let w := s.windowNs n
  if !s.link.memActive || decide (s.now < c.winStart + w) then .next s
  else
    let inWin := c.recent.filter (fun m => decide (c.winStart ≤ m.at_) && decide (m.at_ < c.winStart + w))
    let p := p99Of (inWin.map (·.ns))
    let target := (s.classEntry n).target
    let s1 := ((s.setReg QOS_CLASS_WINBW.win_read_mbps (lineMbps (inWin.filter (fun m => !m.write)).length w) n).setReg
      QOS_CLASS_WINBW.win_write_mbps (lineMbps (inWin.filter (fun m => m.write)).length w) n)
    let c1 := { c with winStart := c.winStart + w,
                       recent := c.recent.filter (fun m => decide (c.winStart + w ≤ m.at_ + w)) }
    let s2 := s1.setCls n c1
    if inWin.length < 100 then .next (s2.bump QOS_CLASS_MISSED.thin_windows 1 n)
    else if p ≤ target then .next s2
    else
      let s3 := s2.bump QOS_CLASS_MISSED.missed_windows 1 n
      if c.suspended then .next s3
      else
        .next (ev (0x080 + n) 1 [p, target, inWin.length] 4
          ((s3.setReg QOS_SUSPEND.missed (s3.reg QOS_SUSPEND.missed ||| 2 ^ n)).setCls n
            { c1 with missedAt := some s.now }))

/-! ## The envelope (03 R72, R75, R77, Table 3-7) -/

/-- Suspend classes from class 7 down until the guarantees fit; best-effort and suspended classes are skipped. -/
def suspendFrom (r w : Nat) : List Nat → State → State
  | [], s => s
  | n :: rest, s =>
    if s.fits s.unsuspended r w then s
    else if bestEffort (s.classEntry n) || (s.clsState n).suspended then suspendFrom r w rest s
    else
      let s1 := s.setCls n { s.clsState n with suspended := true, level := 0 }
      suspendFrom r w rest
        (ev (0x088 + n) 1 [r, w, s1.sumRead s1.unsuspended, s1.sumWrite s1.unsuspended, s1.envCause] 4 s1)

/-- The lowest-numbered suspended class, and whether the sums with it added fit. -/
def State.candidate (s : State) : Option Nat := (List.range 8).find? (fun n => (s.clsState n).suspended)

def State.candidateFits (s : State) : Bool :=
  match s.candidate with
  | some n => s.fits (n :: s.unsuspended) s.qos.rEnv s.qos.wEnv
  | none => false

/-- Recompute the envelope: new values and causes, event 0x098 when a value changed, further suspensions; the restoration
hold starts, goes on, restarts (the envelope shrank) or ends. Until Memory_Active the envelope is 0 and no guarantee is suspended
(log entry 82). -/
def State.recompute (s : State) : State :=
  let r := s.envRead
  let w := s.envWrite
  let changed := r != s.qos.rEnv || w != s.qos.wEnv
  let shrank := decide (r < s.qos.rEnv) || decide (w < s.qos.wEnv)
  let s1 := { s with qos := { s.qos with rEnv := r, wEnv := w, cause := s.envCause,
                                         envChanged := if changed then s.now else s.qos.envChanged } }
  let s2 := if changed then ev 0x098 0 [s.qos.rEnv, r, s.qos.wEnv, w, s.envCause] 4 s1 else s1
  let s3 := if s.link.memActive then suspendFrom r w [7, 6, 5, 4, 3, 2, 1, 0] s2 else s2
  let hold := if !s3.candidateFits then none
    else if shrank || s3.unsuspended.length < s.unsuspended.length then some s.now
    else some (s3.qos.holdStart.getD s.now)
  { s3 with qos := { s3.qos with holdStart := hold } }

/-- ENVELOPE_RECOMPUTE, within 10 µs of a change. -/
def execEnvelopeRecompute (t : Nat) (s : State) : Res := .next ((s.tick t).recompute)

/-- Restore suspended classes from class 0 up for as long as each addition fits. -/
def restoreFrom (r w : Nat) : List Nat → State → State
  | [], s => s
  | n :: rest, s =>
    if !(s.clsState n).suspended then restoreFrom r w rest s
    else if s.fits (n :: s.unsuspended) r w then
      let s1 := s.setCls n { s.clsState n with suspended := false }
      restoreFrom r w rest (ev (0x090 + n) 0 [r, w, s1.sumRead s1.unsuspended, s1.sumWrite s1.unsuspended] 4 s1)
    else s

/-- RESTORATION_HOLD_EXPIRY: the sums with the lowest suspended class have fitted for 100 ms. -/
def execRestorationHoldExpiry (t : Nat) (s : State) : Res :=
  let s := s.tick t
  match s.qos.holdStart with
  | none => .next s
  | some h =>
    if s.now < h + 100 * msec ∨ !s.candidateFits then .next s
    else
      let s1 := restoreFrom s.qos.rEnv s.qos.wEnv (List.range 8) s
      .next { s1 with qos := { s1.qos with holdStart := if s1.candidateFits then some s1.now else none } }

/-! ## Get Card Status Summary (03 Table 3-10) -/

/-- Classes that raised a guarantee-missed event in the last second. -/
def State.missedMask (s : State) : Nat :=
  ((List.range 8).map (fun n => match (s.clsState n).missedAt with
    | some t => b2n (decide (s.now < t + sec)) * 2 ^ n
    | none => 0)).foldl (· + ·) 0

def State.suspendedMask (s : State) : Nat :=
  ((List.range 8).map (fun n => b2n (s.clsState n).suspended * 2 ^ n)).foldl (· + ·) 0

/-- The 256 bytes of the summary. -/
def State.summary (s : State) : Bytes :=
  le 2 1 ++ le 1 s.cardState ++ le 1 0 ++ le 4 s.qos.rEnv ++ le 4 s.qos.wEnv ++ le 1 s.suspendedMask ++
  le 1 s.missedMask ++ le 1 s.asicThrottle ++ le 1 s.mediaThrottle ++ le 8 s.pfl.budget ++ le 8 s.staged ++
  le 2 s.fab.fenced.toNat ++ le 2 s.retiredDies ++ le 1 s.ring.version ++
  le 1 (s.ring.members.filter (fun m => m.present)).length ++ le 2 0 ++ le 8 s.ring.committed ++
  le 8 s.evt.health.toNat ++ le 4 s.pfl.energy ++ le 4 0 ++
  (List.range 8).flatMap (fun n => le 4 (s.clsState n).p99) ++
  (List.range 8).flatMap (fun n => le 1 (s.clsState n).level) ++ zeros 152

/-- GET_CARD_STATUS_SUMMARY, answered also while Sanitize runs. -/
def execGetCardStatusSummary (t : Nat) (path : Path) (s : State) : Res :=
  .next ((s.tick t).mailbox (.getCardStatusSummary t path) path 0xC000 false false (fun s => s.reply path 0xC000 .success s.summary))

end Sys2Proof.Machine
end

