-- ==== Sys2Proof/Machine/Serve.lean ====
section
/-! DEFINITION. How an admitted host request is served, measured and answered (03 R58 to R71, R81; 04 R90 to R92; 05 R126
to R128; 09 R257, R260; 13 R374). -/

namespace Sys2Proof.Machine

/-! ## Latency (03 Table 3-1, 02 R32, R50, 04 R108, 08 R216) -/

/-- IDE adds 4 ns in skid mode; in containment mode 40 ns at 64 GT/s and 80 ns at 32 GT/s. -/
def State.ideAdd (s : State) : Nat :=
  if s.link.ideMem.isSome && !s.link.ideInsecureMem then
    (if s.link.ideContained then (if s.link.rate = 4 then 40 else 80) else 4)
  else 0

/-- What the ASIC throttle adds to a source's latency (11 Table 11-11): by level, for the sources it lists; the others take
the increase of a near-cache hit. -/
def State.throttleAdd (s : State) (src : Src) : Nat :=
  let a := match src with
    | .board | .writeback => (20, 65)
    | .one => (40, 120)
    | .four | .soft => (50, 150)
    | .recon => (200, 600)
    | _ => (10, 35)
  if s.asicThrottle = 0 then 0 else if s.asicThrottle = 1 then a.1 else a.2

/-- A board-cache hit by the rate of its device; the exit from self-refresh adds 2 µs (12 R345). -/
def State.boardNs (s : State) (l : Nat) : Nat :=
  let r := (s.cch.gddr.getD (s.boardIx l % 4) ⟨0, 0, 0, 32, 0, 0⟩).rate
  120 + (if 32 ≤ r then 0 else if 28 ≤ r then 1 else 2) + (if s.link.selfRefresh then 2 * usec + Config.gddrExit else 0)

/-- The figure of a source for line k; a medium figure is 30 ns longer where the line is verified before it is sent. -/
def State.figure (s : State) (k : Nat) (src : Src) (mapHit : Bool) : Nat :=
  let vbf := if (s.extentAt (k * 64)).speculative then 0 else 30
  s.throttleAdd src + match src with
  | .near | .evict => 45
  | .board | .writeback => s.boardNs (k / 4)
  | .zeros => if mapHit then 40 else s.boardNs (k / 4)
  | .one => 380 + vbf
  | .four => 650 + vbf
  | .overlay => 410
  | .recon => 1010 + vbf
  | .soft => 650 + vbf
  | .none => 45

/-- Path code of 13 Table 13-8. -/
def pathCode (src : Src) : Nat :=
  match src with
  | .near | .evict | .none => 0
  | .board | .writeback => 1
  | .one => 2
  | .four => 3
  | .recon => 4
  | .soft => 5
  | .zeros => 6
  | .overlay => 7

/-! ## Completion: measurement, counters, samples -/

def Req.pmu (r : Req) : PmuReq := ⟨false, some r.dpa.toNat, r.cls⟩

/-- Words of a telemetry sample (13 Table 13-8). -/
def State.sampleWords (s : State) (r : Req) (src : Src) (ns media : Nat) : List Word64 :=
  let pace := fun (i : Nat) => s.fab.pace.getD i 0 % 64
  [BitVec.ofNat 64 (r.id % 4096 * 2 ^ 52 + r.cls * 2 ^ 49 + b2n r.write * 2 ^ 48 +
      (if r.write then 0 else pathCode src) * 2 ^ 45 + r.dpa.toNat / 64 * 64),
   BitVec.ofNat 64 (ns % 2 ^ 32 * 2 ^ 32 + s.tq.samples % 2 ^ 32),
   BitVec.ofNat 64 ((s.clsState r.cls).level * 2 ^ 30 + s.mediaThrottle * 2 ^ 28 + s.asicThrottle * 2 ^ 26 +
      media * 2 ^ 24 + pace (5 + media) * 2 ^ 18 + pace 4 * 2 ^ 12 + pace 3 * 2 ^ 6 + pace 2)]

/-- Sample one request in N of the enabled directions and classes (13 R374). -/
def State.sampleReq (s : State) (r : Req) (src : Src) (ns : Nat) : State :=
  let n := s.reg TQ_CFG.interval
  let on := (if r.write then s.reg TQ_CFG.writes else s.reg TQ_CFG.reads) == 1 && (s.reg TQ_CFG.class_mask).testBit r.cls
  if n = 0 || !on then s
  else if s.tq.countdown + 1 < n then { s with tq := { s.tq with countdown := s.tq.countdown + 1 } }
  else
    let medium := [Src.one, Src.four, Src.recon, Src.soft].contains src
    let media := match medium, s.readLoc (r.dpa.toNat / 16384) with
      | true, some l => dieChannel (s.dieAt l (r.dpa.toNat / 256 % 64)) / 4
      | _, _ => Config.free s.fresh % 4
    let w := s.sampleWords r src ns media
    State.placeSample { s with fresh := s.fresh + 1, tq := { s.tq with countdown := 0, samples := s.tq.samples + 1 } }
      (w.getD 0 0) (w.getD 1 0) (w.getD 2 0)

/-- A request completes after ns: its class is measured, its bytes are counted, its context is free (03 R63, R65, R71). -/
def State.complete (s : State) (r : Req) (src : Src) (ns : Nat) : State :=
  let c := s.clsState r.cls
  let s1 := s.setCls r.cls { c with recent := c.recent ++ [⟨max s.now (r.t0 + ns), ns, r.write⟩] }
  let s2 := { s1 with qos := { s1.qos with ctxs := s1.qos.ctxs.filter (fun x => x.req.id != r.id) } }
  let s3 :=
    if r.write then
      let w := s2.bump QOS_CLASS_WRBYTES.bytes 64 r.cls
      count 3 64 (some r.pmu) { w with tly := { w.tly with bytesWr := w.tly.bytesWr + 64 } }
    else
      let w := s2.bump QOS_CLASS_RDBYTES.bytes 64 r.cls
      count (0x10 + pathCode src) 1 (some r.pmu) (count 2 64 (some r.pmu)
        { w with tly := { w.tly with bytesRd := w.tly.bytesRd + 64 } })
  s3.sampleReq r src ns

/-- The DevLoad field of every S2M response: Light Load, never varied (R82). -/
def devLoad : DevLoad := .lightLoad

/-- A read's response, of a source whose figure is `fig`. In viral every read completes with poison (02 R55). -/
def State.answer (s : State) (r : Req) (data : Line) (poison : Bool) (src : Src) (fig : Nat) : State :=
  let ns := max (fig + s.linkAdd + s.ideAdd) (s.now - r.t0)
  (s.complete r src ns).out (.readData r.id data (poison || s.link.viral) src ns devLoad)

/-- A write that a rule discards by design completes without being stored; with poison where it targets data on a fenced media
region (01 Table 1-10). -/
def State.discard (s : State) (r : Req) (poison : Bool := false) : State :=
  (s.complete r .none (max (85 + s.linkAdd + s.ideAdd) (s.now - r.t0))).out (.writeDone r.id false poison devLoad)

/-- n operations of internal class m (03 Table 3-8) on the medium: 0 sector reads, 1 sector writes, 2 page programs, 3 block
resets (13 Table 13-7), with the user bytes that they move. -/
def internalOp (m o n : Nat) (dpa : Option Nat) (s : State) : State :=
  if n = 0 then s
  else
    let b := (if o = 2 then 16384 else if o = 3 then 0 else 256) * n
    let s1 := (s.bump QOS_ICLASS_BYTES.bytes b m).high QOS_TRACKER.internal_high (s.icInUse + b2n (m == 2 || m == 3))
    count (0x1000 + 16 * m + o) n (some ⟨true, dpa, 8 + m⟩)
      { s1 with qos := { s1.qos with moved := s1.qos.moved.filter (fun e => decide (s.now < e.2.1 + msec)) ++ [(m, s.now, b)] } }

/-! ## Once-a-second counts -/

def State.secondOver (s : State) (t : Option Nat) : Bool :=
  match t with
  | none => true
  | some x => decide (x + sec ≤ s.now)

/-- Event 0x010 or 0x011 with the requests since it was last raised (02 R47). -/
def State.noteUnclaimed (s : State) (hpa : Nat) (write : Bool) : State :=
  let n := s.link.unclaimed + 1
  if s.secondOver s.link.unclaimedAt then
    ev 0x010 1 [hpa, b2n write, n] 2 { s with link := { s.link with unclaimed := 0, unclaimedAt := some s.now } }
  else { s with link := { s.link with unclaimed := n } }

def State.noteEarly (s : State) : State :=
  let n := s.link.early + 1
  if s.secondOver s.link.earlyAt then
    ev 0x011 1 [s.mediaStatus, n] 2 { s with link := { s.link with early := 0, earlyAt := some s.now } }
  else { s with link := { s.link with early := n } }

/-- A write to a locked unit (08 R203). -/
def State.noteLocked (s : State) (u : Nat) : State :=
  let n := s.key.lockedDrops + 1
  if s.secondOver s.key.lockedAt then
    ev 0x40F 1 [u, (s.unitKey u).key, n] 3 { s with key := { s.key with lockedDrops := 0, lockedAt := some s.now } }
  else { s with key := { s.key with lockedDrops := n } }

/-- A write in failed-read-only (05 R135). -/
def State.noteFro (s : State) : State :=
  let n := s.med.froDrops + 1
  let s1 := s.bump MED_FRO_DROPS.writes
  if s1.secondOver s1.med.froAt then
    ev 0x186 1 [n] 4 { s1 with med := { s1.med with froDrops := 0, froAt := some s1.now } }
  else { s1 with med := { s1.med with froDrops := n } }

/-- A write to an extent held by a pending or provisional epoch (10 R290, R404). -/
def State.notePending (s : State) : State :=
  let n := s.ring.pendingDrops + 1
  let s1 := s.bump RING_HOLD.pending_drops
  if s1.secondOver s1.ring.pendingAt then
    ev 0x4AA 1 [n] 4 { s1 with ring := { s1.ring with pendingDrops := 0, pendingAt := some s1.now } }
  else { s1 with ring := { s1.ring with pendingDrops := n } }

/-! ## The on-chip map cache and the node cache (06 R145, 08 R214) -/

/-- Look a folio's entry up: 4,096 sets of 16, the least recently used replaced. -/
def State.mapLookup (s : State) (f : Nat) : State × Bool :=
  let set := f % 4096
  let l := Tab.findD s.map.onChip set []
  let s1 := { s with map := { s.map with
    onChip := Tab.put s.map.onChip set ((f :: l.filter (fun g => g != f)).take 16) } }
  if l.contains f then (s1.bump MAP_CACHE.hits, true) else (count 0x4007 1 none (s1.bump MAP_CACHE.misses), false)

/-- One ancestor of a counter block is looked up in the node cache. -/
def lookupNode (s : State) (k : Nat) : State :=
  let hit := (Tab.findD s.key.nodeCache (nodeSet k) []).contains k
  keepNode 4 k false (if hit then s.bump KEY_NODE_CACHE.hits else s.bump KEY_NODE_CACHE.misses)

/-- A medium read of page p: where its counter block misses the counter cache, it is fetched with every uncached ancestor
(08 R214). -/
def State.nodeLookup (s : State) (p : Nat) : State :=
  if Tab.find s.key.ctrCache (p % 2 ^ 22) = some p then s
  else [nodeKey 1 (p / 64), nodeKey 2 (p / 4096), nodeKey 3 (p / 262144)].foldl lookupNode (s.ctrFetch p)

/-! ## Reads of the medium (05 R125 to R128, R133, R137) -/

/-- Stripe reconstruction of the sector of line l is possible (R128). -/
def State.canReconstruct (s : State) (l : Nat) : Bool :=
  match s.readLoc (l / 64) with
  | none => false
  | some x => s.stripeReady x (l % 64) 21

/-- Suspend entry in ns, resume time in ns and largest number of suspends of an operation (05 Table 5-2, R125). -/
def suspendEntry (op : Nat) : Nat := if op = 2 then 150 else if op = 3 then 250 else 350
def resumeTime (op : Nat) : Nat := if op = 2 then 100 else if op = 3 then 500 else 1000
def suspendMax (op : Nat) : Nat := if op = 2 then 4 else if op = 3 then 16 else 48

/-- Fill a is granted before fill b: by rank, within a rank by deadline (03 R68, 05 R124). -/
def State.before (s : State) (a b : Fill) : Bool :=
  decide (s.grantRank b.cls < s.grantRank a.cls) || (s.grantRank a.cls == s.grantRank b.cls && decide (a.deadline < b.deadline))

/-- Die i's read of fill f is the next that it serves. -/
def State.servesNext (s : State) (i : Nat) (f : Fill) : Bool :=
  s.cch.fills.all (fun g => s.fillDie g != some i || !s.before g f)

/-- The peers' dies of a reconstruction of the sector of line l. -/
def State.peerDies (s : State) (l : Nat) : List Nat :=
  match s.readLoc (l / 64) with
  | some x => ((s.block x.group x.block).members.map (fun m => 4 * m.1 + x.group)).filter (fun d => d != s.dieAt x (l % 64))
  | none => []

/-- Reads that wait on die i and when they were issued: its own, and those of reconstructions (R125, R128). -/
def State.readsOn (s : State) (i : Nat) : List Nat :=
  (s.cch.fills.filter (fun f => s.fillDie f == some i ||
    (((f.src == .recon && f.phase == .issued) || f.phase == .rebuild) && (s.peerDies f.l.toNat).contains i))).map (·.issuedAt)

/-- When a read of line l with a deadline would end its sense on its own die: after the suspend entry, what is left of an operation
that can be suspended no more, or the wake of its channel, and the reads ahead of it (R126). -/
def State.diePath (s : State) (l d cls deadline : Nat) : Nat :=
  let sense := if s.beadAt (l / 64) then 250 else 500
  let wait := match (s.die d).op with
    | none => 0
    | some o => if o.suspended then 0 else if o.suspends < suspendMax o.op then suspendEntry o.op else o.endAt - s.now
  let wake := if s.med.gated.getLsbD (dieChannel d) then 25 * usec else 0
  let ahead := (s.cch.fills.filter (fun f => s.fillDie f == some d && (decide (s.grantRank cls < s.grantRank f.cls) ||
    (s.grantRank f.cls == s.grantRank cls && decide (f.deadline ≤ deadline))))).length
  s.now + wake + wait + (ahead + 1) * sense

def State.spendAllow (s : State) (g : Nat) : State :=
  let a := s.med.allow.getD g 0 - 15
  { s with med := { s.med with allow := setAt s.med.allow g a } }

/-- Reads that wait on dies of group g. -/
def State.groupReads (s : State) (g : Nat) : Nat :=
  (s.cch.fills.filter (fun f => match s.fillDie f with | some d => dieGroup d == g | none => false)).length

/-- Event 0x180, once per second: a group's allowance is below 15 with reads waiting (R127). -/
def State.judgeAllow (s : State) (g : Nat) : State :=
  let n := s.groupReads g
  if s.link.memActive && decide (s.med.allow.getD g 0 < 15) && decide (0 < n) && s.secondOver (s.med.allowEventAt.getD g none) then
    ev 0x180 0 [g, n] 4 { s with med := { s.med with allowEventAt := setAt s.med.allowEventAt g (some s.now) } }
  else s

/-- A reconstruction that needs no allowance (05 R127). -/
def State.startRecon (s : State) (l cls deadline : Nat) : State :=
  let s1 := s.startFill l .recon cls deadline
  { s1 with cch := { s1.cch with fills := s1.cch.fills.map (fun f => if f.l.toNat = l then { f with spent := false } else f) } }

/-- Issue the medium read of a fill for l with the class and the times of a request: on its die, or by reconstruction where that die
is busy or gated too long (R126). -/
def State.startMedium (s0 : State) (l t0 target cls : Nat) : State :=
  let s := s0.nodeLookup (l / 16)
  let due := t0 + target
  match s.readLoc (l / 64) with
  | none => s.startFill l .four cls due
  | some x =>
    let d := s.dieAt x (l % 64)
    let mode := if s.beadAt (l / 64) then Src.one else Src.four
    let s1 := match (s.die d).op with
      | some o => if suspendMax o.op ≤ o.suspends then s.bump MED_SUSPEND.limit_hits else s
      | none => s
    if (s.die d).retired then s1.startRecon l cls due
    else
      let s2 := s1.touch d
      let gated := s2.med.gated.getLsbD (dieChannel d)
      let late := ((s2.die d).op.isSome || gated) && decide (t0 + max 1100 (target / 2) < s2.diePath l d cls due)
      let rebuilding := match s2.med.rebuild with | some r => r.group == x.group | none => false
      if late && s2.canReconstruct l && !rebuilding then
        (if 15 ≤ s2.med.allow.getD x.group 0 then
          (count 0x3001 1 none ((s2.spendAllow x.group).bump MED_RECON.reconstructions) |>.startFill l .recon cls due gated)
         else (s2.bump MED_RECON.exhausted).startFill l mode cls due).judgeAllow x.group
      else (s2.startFill l mode cls due).judgeAllow x.group

/-! ## Admission (03 R69, R70, R81; 04 R92; 10 R282) -/

/-- Bytes of user data in a dump slot (09 R244), and the room that the write-through log leaves free (R261). -/
abbrev slotBytes : Nat := 12 * gib

/-- The log has come within 1 GiB of the slot's size. -/
def State.logFull (s : State) : Bool :=
  s.writeThrough && s.pfl.slots.any (fun d => d.st == 4 && decide (slotBytes ≤ d.logUsed + gib))

/-- The staging test of 03 R70. With more staged than B no write is admitted, not even within its class's own floor. -/
def State.stagingOk (s : State) (n : Nat) : Bool :=
  let b := s.pfl.budget
  let floor := fun (k : Nat) => s.floorOf k * b / 1024
  let reserve := total (((List.range 8).filter (fun k => k != n)).map (fun k => floor k - s.stagedOf k))
  let own := s.stagedOf n + 64
  decide (s.staged ≤ b) && decide (own ≤ (s.classEntry n).ceiling * b / 1024) &&
    (decide (own ≤ floor n) || decide (s.staged + 64 + reserve ≤ b))

/-- A write would be completed without being stored. -/
def State.writeDiscarded (s : State) (dpa : Nat) : Bool :=
  s.lockedUnit (unitOf dpa) || s.fro || ((s.extentAt dpa).epoch && (s.ring.pending || s.ring.provisional))

/-- The near slot that a request to line k needs can be had, and what it meets does not make it wait. -/
def State.slotReady (s : State) (k : Nat) : Bool :=
  let l := k / 4
  match s.nearAt l, s.evictAt l with
  | some _, _ | none, some _ => true
  | none, none => s.lowerSource l (k % 4) == .writeback || s.canAlloc l

/-- Write-through mode with no log to write to (09 R260). -/
def State.logReady (s : State) : Bool := !s.writeThrough || s.pfl.slots.any (fun d => d.st == 4)

/-- A request can be admitted now, apart from the order of held ones. In write-through mode the log is the limit, and not
R70. -/
def State.admissible (s : State) (r : Req) : Bool :=
  let k := r.dpa.toNat / 64
  let l := k / 4
  decide (s.outstanding r.cls < (s.classEntry r.cls).limit) && !s.regionHolds 2 && !s.regionHolds 4 &&
    s.slotReady k && !s.map.rebuilding.contains (r.dpa.toNat / 16384) && !s.link.maint.any (fun m => m.line == k) &&
    (!r.write || s.writeDiscarded r.dpa.toNat ||
      ((if s.writeThrough then s.logReady && !s.logFull else s.stagingOk r.cls) &&
        (!s.lineEpochMode l || (!s.waitsEpoch l && (!s.meetsCommitted l || (s.canAlloc l && s.wbRoom (s.boardIx l)))))))

/-! ## Serving a read (03 R58, R59, R62; 04 R90) -/

/-- Start the fill of line l from the source of its line i. Lines that neither the board cache nor the overlay gives come from
the medium, in one fill with the rest. -/
def State.fillFrom (s : State) (l : Nat) (src : Src) (t0 target cls : Nat) : State :=
  match src with
  | .board | .overlay | .zeros => if s.needsMedium l then s.startMedium l t0 target cls else s.startFill l src cls (t0 + target)
  | _ => s.startMedium l t0 target cls

/-- The read waits for the fill of its line, with the bytes as they stand. -/
def State.waitFill (s : State) (r : Req) (src : Src) (snap : Line) (mask : Enables) : State :=
  { s with qos := { s.qos with ctxs := s.qos.ctxs ++ [⟨r, none, src, snap, mask, false⟩] } }

def maskPart (m : BitVec 256) (i : Nat) : Enables := (m >>> (64 * i)).setWidth 64

/-- A host request hits, or misses, the near cache or the board cache. -/
def State.nearHit (s : State) : State := count 0x4000 1 none (s.bump CCH_NEAR_HITS.count)
def State.nearMiss (s : State) : State := count 0x4001 1 none (s.bump CCH_NEAR_MISSES.count)
def State.boardHit (s : State) : State := count 0x4002 1 none (s.bump CCH_BOARD_HITS.count)
def State.boardMiss (s : State) : State := count 0x4003 1 none (s.bump CCH_BOARD_MISSES.count)

/-- A host hit raises a near line's reuse, or a board slot's. -/
def State.raiseNear (s : State) (l : Nat) : State :=
  match s.nearAt l with
  | some x => s.setNear l { x with copy := { x.copy with reuse := min 7 (x.copy.reuse + 1) } }
  | none => s

def State.raiseBoard (s : State) (l : Nat) : State :=
  match s.boardAt l with
  | some x => s.setBoard l { x with copy := { x.copy with reuse := min 7 (x.copy.reuse + 1) } }
  | none => s

/-- Both caches and the near eviction buffer miss, or the board holds the line: the rest of Table 4-2. -/
def State.readBelow (s0 : State) (r : Req) (k : Nat) (mapHit : Bool) : State :=
  let l := k / 4
  let i := k % 4
  let s := s0.boardRead (s0.boardIx l)
  let src := s.lowerSource l i
  let t := (s.classEntry r.cls).target
  match src with
  | .board =>
    let s1 := ((s.boardHit.raiseBoard l).alloc l (s.blankCopy l 1) true).fillFrom l .board r.t0 t r.cls
    if s.needsMedium l then s1.answer r (s.lowerLine l i).1 (s.lowerLine l i).2 .board (s.figure k .board mapHit)
    else s1.waitFill r .board 0 0
  | .writeback => s.boardHit.answer r (s.lowerLine l i).1 (s.lowerLine l i).2 .writeback (s.figure k .writeback mapHit)
  | .zeros => s.boardMiss.answer r 0 (s.injected k) .zeros (s.figure k .zeros mapHit)
  | .overlay =>
    let s1 := (s.boardMiss.alloc l (s.blankCopy l 1) true).fillFrom l .overlay r.t0 t r.cls
    if s.needsMedium l then s1.answer r (s.lowerLine l i).1 (s.lowerLine l i).2 .overlay (s.figure k .overlay mapHit)
    else s1.waitFill r .overlay 0 0
  | _ =>
    if s.fencedSector l then
      let z := s.boardMiss.losePoison k
      State.answer { z with fresh := z.fresh + 1 } r (Config.freeLine z.fresh) true .none (s.figure k src mapHit)
    else
      let s1 := (s.boardMiss.alloc l (s.blankCopy l 1) true).startMedium l r.t0 t r.cls
      s1.waitFill r (match s1.fillAt l with | some f => f.src | none => src) 0 0

/-- Serve an admitted read. A cached line whose home lies on a fenced media region is served by the cache, as 05 R135 says; Table 1-10
calls it poison (log entry 74). -/
def State.serveRead (s0 : State) (r : Req) : State :=
  let k := r.dpa.toNat / 64
  let l := k / 4
  let i := k % 4
  let m := s0.mapLookup (k / 256)
  if m.1.lockedUnit (unitOfLine k) then m.1.answer r 0 false .zeros (m.1.figure k .zeros m.2)
  else if m.1.inLost k then
    { m.1 with fresh := m.1.fresh + 1 }.answer r (Config.freeLine m.1.fresh) true .none (m.1.figure k .none m.2)
  else
    let s := (m.1.nearTags (nearIx l)).nearData l i
    if s.fab.fatal then s
    else
      match s.nearAt l, s.evictAt l with
      | some x, _ =>
        let mine := maskPart x.mask i
        let gone := match s.fillAt l with | some f => f.after.contains 3 | none => false
        if !x.filling || gone || mine = BitVec.allOnes 64 then
          (s.nearHit.raiseNear l).answer r (x.copy.line i) (x.copy.isPoison i) .near (s.figure k .near m.2)
        else
          let s1 := if (s.fillAt l).isSome then s else s.fillFrom l (s.lowerSource l i) r.t0 (s.classEntry r.cls).target r.cls
          (s1.nearHit.raiseNear l).waitFill r (match s1.fillAt l with | some f => f.src | none => .near) (x.copy.line i) mine
      | none, some e =>
        if e.refetch.getLsbD i then s.nearHit.waitFill r .evict (e.copy.line i) (maskPart e.mask i)
        else s.nearHit.answer r (e.copy.line i) (e.copy.isPoison i) .evict (s.figure k .evict m.2)
      | none, none => s.nearMiss.readBelow r k m.2

/-! ## Serving a write (03 R60, R61; 04 R91; 09 R254, R260; 10 R281 to R283) -/

/-- Background write-back starts above a quarter of B, and stops at an eighth or below or with no dirty board line left
(04 R100). -/
def State.judgeWriteback (s : State) : State :=
  let n := s.staged
  let w := if s.cch.board.all (fun e => e.2.copy.dirty == 0) then false
    else if s.pfl.budget < 4 * n then true
    else if 8 * n ≤ s.pfl.budget then false else s.cch.writeback
  { s with cch := { s.cch with writeback := w } }

/-- Row 2 of partition 1: the host's shutdown state and the clean mark. -/
def State.shutdownRow (s : State) : Bytes := le 4 s.link.shutdownState.toNat ++ le 1 (b2n s.pfl.clean)

/-- The first accepted write of a start clears the clean mark (09 R254). -/
def State.unclean (s : State) : State :=
  if s.pfl.clean then
    let s1 := { s with pfl := { s.pfl with clean := false } }
    s1.ownRow 6 1 2 s1.shutdownRow
  else s

/-- Merge a write where Table 4-2 finds its line. Table 4-15 speaks of requests and names only reads of the buffers; a write that
merges into a buffer counts as a hit of that cache too (DESIGN CHOICE, log entry 73). -/
def State.mergeWrite (s0 : State) (r : Req) (k : Nat) : State :=
  let l := k / 4
  let i := k % 4
  let s := if s0.lineEpochMode l && s0.meetsCommitted l then s0.holdCommitted l else s0
  let put := fun (s : State) => s.writeNear l i r.data r.enables r.poison
  match s.nearAt l, s.evictAt l with
  | some _, _ => put (s.nearHit.raiseNear l)
  | none, some e => s.nearHit.setEvict (s.writeEvict e i r.data r.enables r.poison)
  | none, none =>
    let s1 := s.nearMiss.boardRead (s.boardIx l)
    let t := (s1.classEntry r.cls).target
    match s1.lowerSource l i with
    | .board => put (((s1.boardHit.raiseBoard l).alloc l (s1.blankCopy l 0) true).fillFrom l .board r.t0 t r.cls)
    | .writeback =>
      match s1.wbAt l with
      | some w => s1.boardHit.setWb { w with copy := s1.writeCopy w.copy i r.data r.enables r.poison, again := w.issued || w.again }
      | none => s1
    | .zeros => put (s1.boardMiss.alloc l (s1.blankCopy l 0) false)
    | src => put ((s1.boardMiss.alloc l (s1.blankCopy l 0) true).fillFrom l src r.t0 t r.cls)

/-- Serve an admitted write: discard it by design, or accept it at t0 + 15 ns. -/
def State.serveWrite (s0 : State) (r : Req) : State :=
  let k := r.dpa.toNat / 64
  let s := (s0.mapLookup (k / 256)).1.nearTags (nearIx (k / 4))
  if s.fab.fatal then s
  else if s.lockedUnit (unitOfLine k) then (s.noteLocked (unitOfLine k)).discard r
  else if s.fro then s.noteFro.discard r (s.fencedSector (k / 4))
  else if s.lineEpochMode (k / 4) && (s.ring.pending || s.ring.provisional) then s.notePending.discard r
  else
    let s1 := (s.unclean.mergeWrite r k).merged k r.enables r.poison
    let s2 := if r.poison then s1.reportRas 1 else s1
    let c : Ctx := ⟨r, some (max s2.now (r.t0 + 15)), .none, 0, 0, s2.writeThrough⟩
    let left := s2.qos.epochWaiters.filter (fun n => n != r.id)
    let q := { s2.qos with ctxs := s2.qos.ctxs ++ [c], epochWaiters := left }
    State.judgeWriteback { s2 with qos := q }

/-- Admit a request (it has left the ingress buffer). -/
def State.takeIn (s : State) (r : Req) : State :=
  let s1 := count (b2n r.write) 1 (some r.pmu) (s.high QOS_TRACKER.host_high (s.qos.ctxs.length + 1))
  if r.write then s1.serveWrite r else s1.serveRead r

/-! ## The ingress buffer (03 R81) -/

/-- Entries of a request's kind that are held, and how many the buffer has. -/
def State.heldKind (s : State) (write : Bool) : Nat := (s.qos.ingress.filter (fun r => r.write == write)).length
def ingressSize (write : Bool) : Nat := if write then 512 else 1024

def State.heldPerClass (s : State) : List Nat := (List.range 8).map (fun n => (s.qos.ingress.filter (fun r => r.cls == n)).length)

/-- A request that is not admitted keeps its entry; credit return pauses when the last entry of its kind is taken. -/
def State.hold (s : State) (r : Req) : State :=
  let s1 := count 0x20 1 (some r.pmu) { s with qos := { s.qos with ingress := s.qos.ingress ++ [r] } }
  let waits := r.write && s1.lineEpochMode (r.dpa.toNat / 256) && s1.waitsEpoch (r.dpa.toNat / 256)
  let q := { s1.qos with epochWaiters := s1.qos.epochWaiters ++ [r.id] }
  let s2 := if waits then { (s1.bump RING_HOLD.held_writes) with qos := q } else s1
  if ingressSize r.write ≤ s2.heldKind r.write && s2.qos.pause.isNone then
    { s2 with qos := { s2.qos with pause := some (s2.now, s2.heldPerClass) } }
  else s2

/-- Credit return resumes once an entry of every kind is free; a pause of 10 µs or more is reported. -/
def State.judgePause (s : State) : State :=
  match s.qos.pause with
  | none => s
  | some (t, l) =>
    if ingressSize false ≤ s.heldKind false || ingressSize true ≤ s.heldKind true then s
    else
      let s1 := { s with qos := { s.qos with pause := none } }
      if s.now < t + 10 * usec then s1
      else ev 0x099 1 ((s.now - t) / usec :: l) 2
        ((s1.bump QOS_LINK_HOLD.pauses).high QOS_LINK_HOLD.longest_pause_us ((s.now - t) / usec))

/-- The GDDR7 devices leave self-refresh at the first access (12 R345). -/
def State.wakeGddr (s : State) : State :=
  if s.link.selfRefresh then
    { s with link := { s.link with selfRefresh := false }, pwr := { s.pwr with gated := s.pwr.gated &&& ~~~0x3C00#30 } }
  else s

end Sys2Proof.Machine
end

