-- ==== Sys2Proof/Machine/Epoch.lean ====
section
/-! DEFINITION. Epochs on this card: tag counts, commit, roll back and adoption, suspect extents, the frames that the card
sends, and the recovery decisions (09 R253; 10 R281 to R292, R404). -/

namespace Sys2Proof.Machine

/-! ## Tag counts (R281) -/

/-- Dirty 64-byte lines of epoch-mode copies that carry a tag, held entries too. -/
def Copy.tagged (c : Copy) (tag : BitVec 2) : Nat := if c.epochMode && c.epochTag == tag then c.dirtyLines.length else 0

def State.tagCount (s : State) (tag : BitVec 2) : Nat :=
  total (s.cch.near.map (fun e => e.2.copy.tagged tag)) + total (s.cch.evict.map (fun e => e.copy.tagged tag)) +
    total (s.cch.board.map (fun e => e.2.copy.tagged tag)) + total (s.cch.wb.map (fun e => e.copy.tagged tag))

/-- The count of the tag that a close of epoch n would open is not 0. -/
def State.tagBusy (s : State) (n : Nat) : Bool := s.tagCount (BitVec.ofNat 2 (n + 1)) != 0

/-! ## Suspect extents (09 R253) -/

/-- Set the suspect flags of the extents that p picks, and write them to partition 1. -/
def State.markSuspect (s : State) (p : ExtentEntry → Bool) : State :=
  let n := s.key.extents.length
  let s1 := (List.range n).foldl (fun s i =>
    if p (s.key.extents.getD i noExtent) then
      s.setReg PFL_SUSPECT.suspect (s.reg PFL_SUSPECT.suspect (i / 64) ||| 2 ^ (i % 64)) (i / 64)
    else s) s
  if n = 0 then s1 else (s1.ownRow 6 1 4 (s1.suspectRow 0)).ownRow 6 1 5 (s1.suspectRow 1)

/-! ## Commit and roll back (R286, R288) -/

/-- Shadows of epochs up to n are committed: their folios' epoch_open clears (R284). Commit moves no data. -/
def State.closeShadows (s : State) (n : Nat) : State :=
  { s with map := { s.map with entries := Tab.mapV s.map.entries (fun f e =>
      match Tab.find s.ring.shadows f with
      | some x => { e with epochOpen := decide (n < x.epoch) }
      | none => e) } }

/-- Epoch n is committed on this card. -/
def State.commitEpoch (s : State) (n : Nat) : State :=
  { s with ring := { s.ring with committed := n, prepared := false } }.closeShadows n

/-- Drop the shadow of a folio by a change record of kind 9. -/
def State.dropShadow (s : State) (f : Nat) : State :=
  match Tab.find s.ring.shadows f with
  | none => s
  | some x =>
    let e := s.entry f
    let s1 := { s with ring := { s.ring with shadows := Tab.del s.ring.shadows f } }
    let e1 : MapEntry := { e with shadow := false, epochOpen := false }
    (s1.mapChange f (if e1.loc.isNone && !e1.discarded && !e1.poisonedRange then none else some e1) 9).freeIfEmpty x.loc

/-- A roll back to n, of a card whose tags up to now stand as in `s`, drops the copy. -/
def State.rollsBack (s : State) (n : Nat) (c : Copy) : Bool := c.epochMode && c.dirty != 0 && s.laterTag n c.epochTag

/-- Cached lines that `gone` picks are dropped; entries held for epoch become the newest copies again (R283). -/
def State.dropCached (s : State) (gone : Copy → Bool) : State :=
  { s with cch := { s.cch with
      near := Tab.keep s.cch.near (fun _ x => !gone x.copy),
      evict := s.cch.evict.filter (fun x => !gone x.copy),
      board := Tab.keep s.cch.board (fun _ x => !gone x.copy),
      wb := (s.cch.wb.filter (fun x => !gone x.copy)).map (fun x =>
        if x.heldForEpoch then { x with superseded := false, heldForEpoch := false } else x) } }

/-- Dumped lines of epoch-mode extents whose tag `late` picks are dropped; a held entry takes the place of its line's. -/
def State.dropDumped (s : State) (late : BitVec 2 → Bool) : State :=
  let kept := Tab.keep s.pfl.overlay (fun _ d => !(d.epochMode && late d.tag))
  { s with pfl := { s.pfl with
      overlay := s.pfl.overlayHeld.foldl (fun m e => if (Tab.find m e.1).isSome then m else Tab.put m e.1 e.2) kept,
      overlayHeld := [] } }

/-- Lines that a roll back to c drops: dirty cached ones and dumped ones. -/
def State.lostLines (s : State) (c : Nat) : Nat :=
  total (([0, 1, 2, 3].filter (s.laterTag c)).map s.tagCount) +
    (s.pfl.overlay.filter (fun e => e.2.epochMode && s.laterTag c e.2.tag)).length

/-- The card takes c as its last committed epoch and discards every later one (R288); with it, its record is whole again. -/
def State.takeEpoch (s : State) (c : Nat) : State :=
  let late := (s.ring.shadows.filter (fun e => decide (c < e.2.epoch))).map (·.1)
  let s1 := { s with ring := { s.ring with committed := c, prepared := false, holds := false, close := none,
                                           pending := false, provisional := false, lost := false } }
  let s2 := late.foldl State.dropShadow s1
  let homes := s2.map.homes.filter (fun e => !(e.2.epochMode && decide (c < e.2.epoch) && !e.2.committed))
  let s3 := { s2 with map := { s2.map with homes := homes } }
  ((s3.dropCached (s.rollsBack c)).dropDumped (s.laterTag c)).closeShadows c

/-- Own record against the decision c (R289): a difference raises event 0x4AB and flags the epoch-mode extents suspect. A card whose
record is lost has nothing to differ. -/
def State.judgeOwn (s : State) (c : Nat) : State :=
  let own := s.ring.committed
  if s.ring.lost then s else
  let back := decide (c < own) || (s.ring.holds && decide (c < own + 1))
  let ahead := decide (own + (if s.ring.prepared then 1 else 0) < c)
  if back || ahead then
    (ev 0x4AB 1 [s.serial.toNat, own, c] 1 s).markSuspect (fun e => e.epoch)
  else s

/-- End of epoch-pending: MSI-X vector 31 (R295). -/
def State.endPending (s : State) (was : Bool) : State := if was then s.interrupt 31 else s

/-- Recovery commits or rolls back epoch n (R288). -/
def State.recoverCommit (s : State) (n : Nat) : State :=
  let was := s.ring.pending
  (ev 0x4A5 0 [n] 1 ((s.judgeOwn n).takeEpoch n)).endPending was

def State.recoverBack (s : State) (n : Nat) : State :=
  let was := s.ring.pending
  let shadows := (s.ring.shadows.filter (fun e => decide (n - 1 < e.2.epoch))).length
  let lines := s.lostLines (n - 1)
  (ev 0x4A6 1 [n, shadows, lines] 1 ((s.judgeOwn (n - 1)).takeEpoch (n - 1))).endPending was

/-! ## Frames (R272, R273) -/

def State.ringPos (s : State) : Nat := s.ring.position.getD 0
def State.isMaster (s : State) : Bool := s.ring.own == s.ring.masterIx

/-- Members present, this card among them, and the mask of their positions. -/
def State.presentCount (s : State) : Nat := (s.ring.members.filter (·.present)).length
def State.allMask (s : State) : Nat := 2 ^ s.presentCount - 1

/-- The card is a member of a ring of more cards and takes part: its bypass is open and it is in sync. -/
def State.onRing (s : State) : Bool := !s.ring.bypass && s.ring.inSync && !s.restarting 1

def State.ownHead (s : State) : FrameHead :=
  { version := 2, hops := 0, origin := s.ringPos, resolve := false, recovery := false, retrans := false, lap2 := false,
    ringId := s.ring.ringId, crcOk := true }

/-- Send a frame of this card's own. -/
def State.send (s : State) (head : FrameHead) (type : FrameType) (payload mask : Nat) : State :=
  if s.onRing then
    let f : Frame := ⟨head, type, payload, mask⟩
    { s with ring := { s.ring with lastFrame := match type with
        | .prepare | .commit => some f
        | _ => s.ring.lastFrame } }.out (.frame f)
  else s

/-- Forward a frame: one more hop, and the mask as it stands now. -/
def State.forward (s : State) (h : FrameHead) (type : FrameType) (payload mask : Nat) : State :=
  s.out (.frame ⟨{ h with hops := h.hops + 1 }, type, payload, mask⟩)

/-- A frame arrives: with a bad CRC it is counted and forwarded still bad, and nothing else follows; so is one of a foreign card,
uncounted (R276), but for a DISCOVER, which tells it is foreign; else `run`. -/
def State.receive (s : State) (h : FrameHead) (type : FrameType) (payload mask : Nat) (run : State → State) : State :=
  if !s.onRing then s
  else if !h.crcOk then (s.bump RING_ERR.crc_errors).forward h type payload mask
  else if h.ringId ≠ s.ring.ringId && type != .discover then s.forward h type payload mask
  else run s

/-- The frame is one of this card's, back from its lap. -/
def State.mine (s : State) (h : FrameHead) : Bool := s.ring.position.isSome && h.origin == s.ringPos

/-! ## Opening the next epoch (R281, R286) -/

/-- A close of epoch n begins on this card; while lines of the tag to be opened are dirty it is held. -/
def State.beginClose (s : State) (n : Nat) : State :=
  { s with ring := { s.ring with close := some ⟨n, 1, s.now, s.now, false, false, false, 0, 0, s.now, s.tagBusy n, false⟩ } }

/-- Lap 1 of PREPARE leaves the master. -/
def State.sendLap1 (s : State) (n : Nat) : State := s.send s.ownHead .prepare n 0

/-- The dirty count of the next epoch's tag has reached 0: a held close proceeds; the master sends lap 1. -/
def State.epochDrained (s : State) : State :=
  match s.ring.close with
  | none => s
  | some c =>
    if c.held && !s.tagBusy c.n then
      let s1 := { s with ring := { s.ring with close := some { c with held := false, lap1Sent := s.now, lastSent := s.now } } }
      if s.isMaster && s.ring.version = 2 then s1.sendLap1 c.n else s1
    else s

/-! ## Recovery decisions (R287, Table 10-7; R289, R404) -/

/-- What this card reports of itself. -/
def State.ownMember (s : State) : Member :=
  { serial := s.serial.toNat, present := true, version := 2, position := s.ringPos, committed := s.ring.committed,
    prepared := s.ring.prepared, holds := s.ring.holds, lost := s.ring.lost, master := s.isMaster, foreign := false }

/-- Present cards with a valid record. -/
def State.reporters (s : State) : List Member :=
  ((s.ring.members.mapIdx (fun i m => if i = s.ring.own then s.ownMember else m)).filter (fun m => m.present && !m.lost))

inductive Decision where
  | take (c : Nat)
  | commit (n : Nat)
  | back (n : Nat)
  | wait (n : Nat)
deriving DecidableEq, Repr

/-- The first row of Table 10-7 that holds among the cards given. -/
def decideEpoch (r : List Member) : Decision :=
  let prep := r.filter (·.prepared)
  if prep.isEmpty then .take (largest (r.map (·.committed)))
  else
    let n := largest (prep.map (fun m => m.committed + 1))
    if r.any (fun m => (m.holds && m.committed + 1 == n) || m.committed == n) then .commit n
    else if r.any (·.master) then .back n
    else if r.any (fun m => m.committed + 1 == n && !m.prepared) then .back n
    else .wait n

/-- The present card at the lowest position; a card whose record is lost counts as absent (R287). -/
def State.lowest (s : State) : Bool :=
  !s.ring.lost && s.ring.members.zipIdx.all (fun e => e.2 == s.ring.own || !e.1.present || e.1.lost || decide (s.ringPos ≤ e.1.position))

/-- Epoch-pending begins on n: event 0x4A7 and MSI-X vector 31. -/
def State.enterPending (s : State) (n : Nat) : State :=
  if s.ring.pending then s
  else
    let mask := total ((s.reporters.filter (·.prepared)).map (fun m => 2 ^ m.position))
    (ev 0x4A7 2 [n, mask] 1 { s with ring := { s.ring with pending := true, provisional := false } }).interrupt 31

/-- Apply Table 10-7 once the STATE of every present card is known. The lowest present position sends the decision; a card
whose record is lost and that no valid record answers applies the table to itself with its provisional C. -/
def State.judgeEpoch (s : State) : State :=
  let r := s.reporters
  if r.isEmpty then s.takeEpoch s.ring.committed
  else
    match decideEpoch r with
    | .take c => (s.judgeOwn c).takeEpoch c
    | .commit n =>
      if s.lowest || s.ring.version ≠ 2 then (s.send { s.ownHead with recovery := true } .commit n (2 ^ s.ringPos)).recoverCommit n
      else s
    | .back n =>
      if s.lowest || s.ring.version ≠ 2 then (s.send { s.ownHead with recovery := true } .rollback n (2 ^ s.ringPos)).recoverBack n
      else s
    | .wait n => s.enterPending n

/-- Every present member's STATE has been seen. -/
def State.allSeen (s : State) : Bool :=
  s.ring.members.zipIdx.all (fun e => e.2 == s.ring.own || !e.1.present || s.ring.stateSeen.contains e.2)

end Sys2Proof.Machine
end

