-- ==== Sys2Proof/Machine/Home.lean ====
section
/-! DEFINITION. Write homes: from the board cache and its write-back buffer, and from the overlay; their
acknowledgements; shadows that settle (04 R99, R100; 05 R122, R136; 06 R153, R158; 09 R258, R261; 10 R281 to R284). -/

namespace Sys2Proof.Machine

/-! ## What a write home takes -/

/-- Copies of a folio that are to go home now: superseded entries first and alone, then the other entries and the board's
dirty lines; of an epoch-mode folio the earliest epoch alone (R99, R283, R284). -/
def State.homeCopies (s : State) (f : Nat) : List Copy :=
  let wb := s.cch.wb.filter (fun w => w.copy.l.toNat / 64 == f && !w.issued)
  let old := wb.filter (·.superseded)
  let all := if !old.isEmpty then old.map (·.copy)
    else wb.map (·.copy) ++ ((s.cch.board.filter (fun e => e.2.copy.l.toNat / 64 == f && e.2.copy.dirty != 0)).map (·.2.copy))
  if s.epochMode f then
    match all.map (fun c => s.tagEpoch c.epochTag) with
    | [] => []
    | e :: r => all.filter (fun c => s.tagEpoch c.epochTag == r.foldl min e)
  else all

/-- The dirty lines of a copy, as a write home of its folio carries them, with their key phase. -/
def Copy.homeLines (c : Copy) : List (HomeLine × Bool) :=
  ([0, 1, 2, 3].filter (fun i => c.isDirty i)).map (fun i => (⟨c.l.toNat % 64 * 4 + i, c.line i, c.isPoison i⟩, c.keyGen))

/-- Board slots of a folio are read for its write home. -/
def State.readSlots (s : State) (f : Nat) : State :=
  ((s.cch.board.filter (fun e => e.2.copy.l.toNat / 64 == f)).map (·.1)).foldl State.boardRead s

/-- Mark the entries that a write home takes. -/
def State.issueWb (s : State) (cs : List Copy) : State :=
  { s with cch := { s.cch with wb := s.cch.wb.map (fun w => if cs.contains w.copy then { w with issued := true } else w) } }

/-! ## Updates of one-bead stripes (05 R122, R403, R136) -/

/-- Stripe positions of sectors of the folio at a location. -/
def State.stripesOf (s : State) (l : Loc) (ns : List Nat) : List Nat := (ns.map (s.stripeOf l)).eraseDups

/-- The sector is stored and a hard decode of it fails. -/
def State.undecodable (s : State) (p : Loc × Nat) : Bool :=
  match s.sectorAt p.1 p.2 with | some x => !x.lost && x.bad 21 | none => false

/-- A sector that a power failure left half-written reads as its recovered contents again (R136). -/
def State.mendSector (s : State) (p : Loc × Nat) : State :=
  match s.sectorAt p.1 p.2 with
  | some x => { s with med := { s.med with secs := Tab.put s.med.secs (sectorKey p.1 p.2) { x with torn := false, flips := 0 } } }
  | none => s

/-- The first update after a power failure of a stripe that held a dumped line: every sector is read, and what is half-written is
mended before the new data is merged (Table 5-8). With two or more undecodable each goes through R130. -/
def State.mendStripe (l : Loc) (s : State) (k : Nat) : State :=
  let key := blkKey l.group l.block * 4096 + k
  if !s.med.recheck.contains key then s
  else
    let all := s.stripeData l k
    let bad := all.filter s.undecodable
    let torn := s.med.tornParity.contains key
    let s1 := all.foldl (fun s p => if (s.die (s.dieAt p.1 p.2)).retired then s else s.sense (s.dieAt p.1 p.2))
      { s with med := { s.med with recheck := s.med.recheck.filter (fun x => x != key) } }
    let fixed := fun (s : State) => { s with med := { s.med with tornParity := s.med.tornParity.filter (fun x => x != key) } }
    match bad, torn with
    | [], false => s1
    | [], true => ev 0x187 0 [s.parityDie l k, l.block, k] 4 (fixed s1)
    | [p], false => ev 0x187 0 [s.dieAt p.1 p.2, l.block, k] 4 (s1.mendSector p)
    | _, _ => fixed (bad.foldl (fun s p => s.readSource p.1 p.2) s1)

/-- Before a write home in place of lines of folio f: the stripes that it touches are mended. -/
def State.mend (s : State) (f : Nat) (ls : List (HomeLine × Bool)) : State :=
  match s.readLoc f with
  | some l => if s.beadAt f then (s.stripesOf l (ls.map (·.1.ix / 4))).foldl (State.mendStripe l) s else s
  | none => s

/-- What an update of sectors `ns` reads at stripe position k (R122, R403): nothing where all the stripe's data sectors are in hand;
the survivors where a member lies on a retired die; the old data and parity sectors otherwise. Sectors of `again` are read in any
case: their lines are re-encrypted (08 R211). -/
def State.readStripe (l : Loc) (ns again : List Nat) (s : State) (k : Nat) : State :=
  let all := s.stripeData l k
  let mine := fun (p : Loc × Nat) => p.1 == l && ns.contains p.2
  let dead := (s.block l.group l.block).members.any (fun m => (s.die (4 * m.1 + l.group)).retired)
  let resealed := (all.filter (fun p => p.1 == l && again.contains p.2)).map (fun p => s.dieAt p.1 p.2)
  let dies := if all.all mine then resealed
    else if dead then (all.filter (fun p => !mine p)).map (fun p => s.dieAt p.1 p.2) ++ resealed ++ [s.parityDie l k]
    else (all.filter mine).map (fun p => s.dieAt p.1 p.2) ++ [s.parityDie l k]
  dies.foldl (fun s d => if (s.die d).retired then s else s.sense d) s

/-- Updates with nothing left to write are over; a move that such an update carried commits. -/
def State.endUpdates (s : State) : State :=
  let ended := s.med.updates.filter (fun u => u.data.isEmpty && u.parity.isEmpty)
  ended.foldl (fun s u => match Tab.find s.map.homes u.folio with
      | some h => if isMove h.kind then s.commitHome u.folio else s
      | none => s)
    { s with med := { s.med with updates := s.med.updates.filter (fun u => !(u.data.isEmpty && u.parity.isEmpty)) } }

/-- Sector n of the folio at a location is still to be written by an update, with what the folio holds by then: a write home that
meets a refresh merges into it (07 Table 7-4). -/
def State.stillToWrite (s : State) (l : Loc) (n : Nat) : Bool :=
  (s.die (s.dieAt l n)).op.isNone && s.med.updates.any (fun u => u.loc == l && u.data.contains n)

/-- An update is still to write the parity at position k of the stripe block of a location, after data. -/
def State.parityWaits (s : State) (l : Loc) (k : Nat) : Bool :=
  s.med.updates.any (fun u => u.loc.group == l.group && u.loc.block == l.block && !u.data.isEmpty && u.parity.contains k)

/-- Begin the update that writes sectors `all` of the folio at a location: data sectors first, then the parity of their stripes; none
is written on a retired die, and none that an update is still to write. -/
def State.startUpdate (s : State) (f : Nat) (l : Loc) (all : List Nat) (again : List Nat := []) : State :=
  let ns := all.filter (fun n => !s.stillToWrite l n)
  let ks := (s.stripesOf l ns).filter (fun k => !s.parityWaits l k)
  let s1 := ks.foldl (State.readStripe l ns again) s
  let u : Update := ⟨f, l, ns.filter (fun n => !(s.die (s.dieAt l n)).retired), ks.filter (fun k => !(s.die (s.parityDie l k)).retired)⟩
  State.kick (State.endUpdates { s1 with med := { s1.med with updates := s1.med.updates ++ [u] } })

/-- Die i has written a ledger entry of its own (07 R179). -/
def State.wroteLedger (s : State) (i : Nat) : State := s.setDie i { s.die i with refWrite := (s.die i).refWrite - 1 }

/-- The update that die i was writing for has one sector less to write; parity that is written is whole. -/
def State.wroteSector (s : State) (i : Nat) : State :=
  match s.updateOn i with
  | none => s
  | some u =>
    let n := u.data.find? (fun n => s.dieAt u.loc n == i)
    let k := u.parity.find? (fun k => s.parityDie u.loc k == i)
    let v := match n, k with
      | some n, _ => { u with data := u.data.filter (fun x => x != n) }
      | none, some k => { u with parity := u.parity.filter (fun x => x != k) }
      | none, none => u
    let torn := match n, k with
      | none, some k => s.med.tornParity.filter (fun x => x != blkKey u.loc.group u.loc.block * 4096 + k)
      | _, _ => s.med.tornParity
    State.endUpdates { s with med := { s.med with tornParity := torn, updates := s.med.updates.map (fun x => if x = u then v else x) } }

/-- Folio f is being written in place. -/
def State.updating (s : State) (f : Nat) : Bool := s.med.updates.any (fun u => u.folio == f)

/-- A copy of a folio to a new bead slot, committed when it is written. -/
def State.moveBead (s : State) (f kind : Nat) (old l : Loc) : State :=
  ((s.copyFolio old l).setHome f ⟨kind, l, true, [], 0, 0, s.epochMode f, false, false, some old⟩).startUpdate f l (List.range 64)

/-! ## Issuing a write home -/

/-- What holds a write home back: failed-read-only, map changes that wait, a map entry that is being rebuilt, a page that programs, a
write home not yet acknowledged or dropped by a discard, a Held key, an uncommitted epoch beneath it. -/
def State.homeWaits (s : State) (f : Nat) (ls : List (HomeLine × Bool)) : Bool :=
  s.fro || s.changesWait || s.regionHolds 4 || s.map.rebuilding.contains f ||
    ls.any (fun x => s.heldKey (f * 256 + x.1.ix) x.2) ||
    (match Tab.find s.map.homes f with
     | some h => h.committed || h.dropped || (!isMove h.kind && s.pageBusy h.loc)
     | none => false)

/-- A move of the folio that has not committed gives way to a write home (R158, R163). -/
def State.abandonMove (s : State) (f : Nat) : State :=
  match Tab.find s.map.homes f with
  | some h =>
    if isMove h.kind && !h.committed then
      let s1 := { s with med := { s.med with updates := s.med.updates.filter (fun u => u.folio != f) } }
      ((if h.kind = 4 then s1.bump MAP_RECLAIM.moves_dropped else s1).dropHome f).freeIfEmpty h.loc
    else s
  | none => s

/-- New lines join a copy of the folio that is assembled and whose page is not yet programmed (R158). -/
def State.joinHome (s : State) (f : Nat) (h : Home) (ls : List (HomeLine × Bool)) : State :=
  let s1 := s.putLines f h.loc ls
  s1.setHome f { h with lines := (h.lines.filter (fun x => !ls.any (fun y => y.1.ix == x.ix))) ++ ls.map (·.1) }

/-- Sectors of the pages that a write home of lines of folio f overflows: all 16 of each page are read, re-encrypted and written
(08 R211). -/
def State.overflowing (s : State) (f : Nat) (ls : List (HomeLine × Bool)) : List Nat :=
  let wide := ls.filter (fun x => (s.ctr (f * 4 + x.1.ix / 64)).minor (x.1.ix % 64) == 127)
  ((wide.map (·.1.ix / 64)).eraseDups).flatMap (fun p => (List.range 16).map (fun n => 16 * p + n))

/-- A placement in a bead slot is written: in place the sectors of the lines and of overflowing pages, in a slot that it takes all of
them. -/
def State.writePlaced (s : State) (f : Nat) (ls : List (HomeLine × Bool)) (wide : List Nat) : State :=
  match Tab.find s.map.homes f with
  | some h =>
    if !h.bead then s
    else if h.committed then s.startUpdate f h.loc ((ls.map (fun (x : HomeLine × Bool) => x.1.ix / 4) ++ wide).eraseDups) wide
    else s.startUpdate f h.loc (List.range 64)
  | none => s

/-- Send lines of folio f home. The Bool says whether they are on their way. -/
def State.sendHome (s : State) (f : Nat) (ls : List (HomeLine × Bool)) (epoch : Nat) (tag : BitVec 2) : State × Bool :=
  if ls.isEmpty || s.homeWaits f ls then (s, false)
  else
    let b := s.bindUnit f
    if !b.2 then (b.1, false)
    else
      let s1 := (b.1.abandonMove f).mend f ls
      match Tab.find s1.map.homes f with
      | some h =>
        if h.epochMode && h.epoch != epoch then (s1, false) else (s1.joinHome f h ls, true)
      | none =>
        let r := s1.placeLines f ls epoch tag
        (if r.2 then r.1.writePlaced f ls (s1.overflowing f ls) else r.1, r.2)

/-- A rule that writes home at full rate is at work, whatever the staging (04 R100): flush-home, a coordinated flush, a store test
that waits for staged data, write-through mode, a close that waits for lines of the next tag. -/
def State.fullRate (s : State) : Bool :=
  s.pfl.flush.isSome || !s.ring.flushLines.isEmpty || s.pfl.wt.isSome ||
    (match s.pfl.test with | some x => x.phase == 0 | none => false) ||
    (match s.ring.close with | some c => c.held | none => false)

/-- Reuse counts of dirty board slots, and of those of folio f. -/
def State.dirtyReuse (s : State) : List Nat := (s.cch.board.filter (fun e => e.2.copy.dirty != 0)).map (fun e => e.2.copy.reuse)
def State.folioReuse (s : State) (f : Nat) : List Nat :=
  (s.cch.board.filter (fun e => e.2.copy.dirty != 0 && e.2.copy.l.toNat / 64 == f)).map (fun e => e.2.copy.reuse)

/-- Folios with lines of the oldest tag on the board or in the write-back buffers, which go ahead of every other (10 R281); but one
that its own write home holds back keeps none waiting. -/
def State.oldFolios (s : State) : List Nat :=
  ((s.cch.board.map (·.2.copy) ++ (s.cch.wb.filter (fun w => !w.issued)).map (·.copy)).filter s.oldTag |>.map
    (fun c => c.l.toNat / 64)).filter (fun f => !s.homeWaits f [])

/-- Lines of folio f are to go home: it holds lines of the oldest tag; or no other does, and a full-rate rule is at work, its write-back
buffers hold some, or the eviction-policy engines run and none of another folio has a lower reuse (04 R99, R100). -/
def State.homeDue (s : State) (f : Nat) : Bool :=
  if !s.oldFolios.isEmpty then s.oldFolios.contains f else
  s.fullRate || s.cch.wb.any (fun w => w.copy.l.toNat / 64 == f) ||
    (s.cch.writeback && (s.folioReuse f).any (fun n => s.dirtyReuse.all (fun m => decide (n ≤ m))))

/-- WRITE_HOME of a folio. -/
def execWriteHome (t : Nat) (folio : BitVec 29) (s0 : State) : Res :=
  let f := folio.toNat
  let s := if (s0.tick t).homeDue f then (s0.tick t).readSlots f else s0.tick t
  let cs := if s.homeDue f then s.homeCopies f else []
  match cs with
  | [] => .next s
  | c :: _ =>
    let r := s.sendHome f (cs.flatMap Copy.homeLines) (s.tagEpoch c.epochTag) c.epochTag
    .next (if r.2 then (r.1.issueWb cs).judgeWriteback else r.1)

/-! ## Acknowledgement (R27, R99, R100, R258, R281) -/

/-- A board line whose data went home is clean, unless it has been written since. -/
def BoardSlot.clean (b : BoardSlot) (ls : List HomeLine) : BoardSlot :=
  let d := (List.range 4).foldl (fun d i =>
    match ls.find? (fun x => x.ix == b.copy.l.toNat % 64 * 4 + i) with
    | some x => if x.data = b.copy.line i ∧ x.poison = b.copy.isPoison i then setBit4 d i false else d
    | none => d) b.copy.dirty
  { b with copy := { b.copy with dirty := d } }

/-- A log line is released: a write home carried its data, or newer data that the log holds too (R261). -/
def logReleased (f : Nat) (ls : List HomeLine) (all : List DumpLine) (d : DumpLine) : Bool :=
  ls.any (fun x => f * 256 + x.ix == d.line &&
    all.any (fun e => e.line == d.line && decide (d.part ≤ e.part) && e.data == x.data && e.poison == x.poison))

/-- The log without what a write home of folio f carried; a sector is free once all its lines are released. -/
def DumpSlot.trim (d : DumpSlot) (f : Nat) (ls : List HomeLine) : DumpSlot :=
  if d.st = 4 then
    let left := d.lines.filter (fun e => !logReleased f ls d.lines e)
    { d with lines := left, logUsed := 256 * (left.map (·.part)).eraseDups.length }
  else d

/-- In write-through mode a write home is acknowledged after its journal sector, its counter blocks and their nodes are on
the medium (R261). -/
def State.wtDurable (s : State) (f : Nat) (ls : List HomeLine) : State :=
  if s.writeThrough then
    (ls.map (fun x => (f * 256 + x.ix) / 64)).eraseDups.foldl (fun s p =>
      if s.key.dirtyCtrs.contains p then s.ctrHome p else s) s |>.nodesToHome |>.flushTail
  else s

/-- Release what a write home of folio f carried. An entry merged into since is issued again. -/
def State.release (s : State) (f : Nat) (ls : List HomeLine) : State :=
  let mine := fun (w : WbEntry) => w.copy.l.toNat / 64 == f && w.issued
  let wb := (s.cch.wb.filter (fun w => !mine w || w.again)).map (fun w => if mine w then { w with issued := false, again := false } else w)
  let board := if s.cch.wb.any (fun w => mine w && w.superseded) then s.cch.board
    else Tab.mapV s.cch.board (fun _ b => if b.copy.l.toNat / 64 == f then b.clean ls else b)
  let overlay := Tab.keep s.pfl.overlay (fun k d => !ls.any (fun x => f * 256 + x.ix == k && x.data == d.data && x.poison == d.poison))
  { s with cch := { s.cch with wb := wb, board := board },
           pfl := { s.pfl with overlay := overlay, slots := s.pfl.slots.map (fun d => d.trim f ls) } }

/-- The last overlay line is home: the slot is reset and armed again, event 0x485 (09 R258). -/
def State.slotDrained (s : State) : State :=
  match s.pfl.overlaySlot with
  | none => s
  | some i =>
    let d := s.slotD i
    if d.st = 3 ∧ s.pfl.overlay.isEmpty then
      let s1 := s.setSlotD i { d with st := 0, lines := [], tail := [], headSealed := false, trailer := false }
      ev 0x485 0 [i, (s.now - d.drainStart) / msec] 1
        { s1 with pfl := { s1.pfl with overlaySlot := none, overlayHeld := [] } }
    else s

/-- WRITE_HOME_ACK: the medium has the write home of a folio. A page's folios have been committed by its programs. -/
def execWriteHomeAck (t : Nat) (folio : BitVec 29) (s0 : State) : Res :=
  let f := folio.toNat
  let s := s0.tick t
  match Tab.find s.map.homes f with
  | none => .next s
  | some h =>
    if isMove h.kind || (!h.bead && !h.committed) || s.updating f then .next s
    else
      let s1 := s.commitHome f
      match Tab.find s1.map.homes f with
      | none => .next ((s1.release f []).judgeWriteback)
      | some g =>
        if !g.committed then .next s1 else
        let s2 := ((s1.dropHome f).wtDurable f g.lines).release f g.lines
        .next ((s2.slotDrained).epochDrained).judgeWriteback

/-! ## Replay-home (09 R258, R259; 05 R136) -/

/-- Sectors of a dump or log that no step of 05 R130 recovers, `per` lines of the slot in each (R248, R260): one event for each; where
in the slot it lies is open (log entry 100). -/
def State.loseSlotSectors (s : State) (per : Nat) (ls : List DumpLine) (bad : DumpLine → Bool) : State :=
  (((ls.zipIdx.filter (fun e => bad e.1)).map (fun e => e.2 / per)).eraseDups).foldl (fun s _ =>
    ev 0x181 2 ([2 ^ 64 - 1, 2] ++ [0, 1, 2, 3].map (fun i => Config.free (s.fresh + i))) 4 { s with fresh := s.fresh + 4 }) s

/-- Lines of an overlay whose sectors stay lost when the slot is read again: poisoned and listed (R255, R259). -/
def State.loseOverlay (s : State) (lost : DumpLine → Bool) (ov : List (Nat × DumpLine)) : State × List (Nat × DumpLine) :=
  if ov.all (fun e => !lost e.2) then (s, ov)
  else
    let d := s.slotD (s.pfl.overlaySlot.getD 0)
    let s1 := (ov.filter (fun e => lost e.2)).foldl (fun s e => s.losePoison e.1) { s with fresh := s.fresh + 1 }
    (s1.loseSlotSectors (if d.logUsed = 0 then 4 else 3) d.lines (fun x => lost x && ov.any (fun e => e.1 == x.line)),
      ov.map (fun e => if lost e.2 then (e.1, { e.2 with poison := true, data := Config.freeLine s.fresh }) else e))

/-- The overlay folio to go home next: of the oldest part. -/
def State.nextOverlay (s : State) : Option Nat :=
  (s.pfl.overlay.foldl (fun (m : Option (Nat × Nat)) e =>
    if (Tab.find s.map.homes (e.1 / 256)).isSome || s.keptAside e.1 then m
    else match m with
      | none => some (e.1 / 256, e.2.part)
      | some x => if e.2.part < x.2 then some (e.1 / 256, e.2.part) else m) none).map (·.1)

/-- The overlay lines of a folio, those of one epoch. -/
def State.overlayLines (s : State) (f : Nat) : List (Nat × DumpLine) :=
  let all := s.pfl.overlay.filter (fun e => e.1 / 256 == f && !s.keptAside e.1)
  match all with
  | [] => []
  | e :: _ => all.filter (fun x => x.2.tag == e.2.tag)

/-- So many sectors of a slot decoded with correction (R257; 07 R193, 13 Table 13-23). -/
def State.slotCorrected (s : State) (n : Nat) : State :=
  if n = 0 then s else count 0x3005 n none ((s.bump CAL_DECODE.corrected n).bump ECC_TOTALS.corrected_persistent n)

/-- REPLAY_HOME_WRITE: the slot's sectors of the folio are read and verified as they go home: so many decode with correction, and these
lines of the folio stay lost. -/
def execReplayHomeWrite (t corrected : Nat) (lost : BitVec 256) (s0 : State) : Res :=
  let s := s0.tick t
  if !s.draining || !s.link.memActive || !s.icFree 5 then .next s
  else match s.nextOverlay with
  | none => .next s.slotDrained
  | some f =>
    let r0 := s.loseOverlay (fun x => lost.getLsbD (x.line % 256)) (s.overlayLines f)
    let ov := r0.2
    let ls := ov.map (fun e => ((⟨e.1 % 256, e.2.data, e.2.poison⟩ : HomeLine), e.2.keyGen))
    let tag := match ov with | e :: _ => e.2.tag | [] => 0
    let r := (r0.1.slotCorrected corrected).sendHome f ls (s.tagEpoch tag) tag
    .next (if r.2 then internalOp 5 1 (ls.map (fun x => x.1.ix / 4)).eraseDups.length (some (f * 16384)) r.1 else r.1)

/-! ## Shadows (10 R284) -/

/-- SHADOW_SETTLE: a shadow of a committed epoch becomes the base. -/
def execShadowSettle (t : Nat) (folio : BitVec 29) (s0 : State) : Res :=
  let f := folio.toNat
  let s := s0.tick t
  match Tab.find s.ring.shadows f with
  | none => .next s
  | some x =>
    .next (if x.epoch ≤ s.ring.committed && !s.changesWait && !s.heldEntry f && (Tab.find s.map.homes f).isNone && !s.ring.pending &&
      !s.ring.provisional then s.settle f else s)

end Sys2Proof.Machine
end

