-- ==== Sys2Proof/Machine/Drift.lean ====
section
/-! DEFINITION. Drift, live calibration and scrubbing: the card calendar, thermal age, threshold tables, margins, migration
and refresh, the scrubber, Get Wear and Drift Report (07 R176 to R197). -/

namespace Sys2Proof.Machine

/-! ## The calendar (R177, R182) -/

/-- Seconds of a host time after 2000-01-01. -/
def hostSeconds (ns : BitVec 64) : Int := (ns.toNat / sec : Nat) - (946684800 : Int)

/-- An Int as event data and registers hold it. -/
def word64 (n : Int) : Nat := (n % 2 ^ 64).toNat

/-- A host time that the calendar accepts. The first one after a provisional start clears the mark, and event 0x382 tells when
the addition it gives differs from the drift estimate by more than half. -/
def State.acceptHost (s : State) (h : Int) : State :=
  let s1 := s.setReg CAL_SYNC.last_host_s (word64 h)
  if s.cal.provisional then
    let host := h - (s.cal.calendar - s.cal.provAdd : Int)
    let far := decide ((s.cal.provAdd : Int) < 2 * (host - s.cal.provAdd).natAbs)
    let s2 := { s1 with cal := { s1.cal with provisional := false } }
    if far then ev 0x382 1 [s.cal.provAdd, word64 host] 255 s2 else s2
  else s1

/-- The calendar's largest value, which it keeps: it never runs backwards (log entry 79). -/
abbrev calendarMax : Nat := 2 ^ 32 - 1

/-- Judge a host time by Table 7-1. A slew that runs ends. -/
def State.judgeHost (s : State) (h : Int) : State :=
  let c := s.cal
  if !c.restored then { s with cal := { c with pendingHost := some h } }
  else if (c.calendar : Int) ≤ h then
    let a := s.acceptHost h
    { a with cal := { a.cal with calendar := min calendarMax h.toNat, slew := none, slewHalf := false } }
  else if (c.calendar : Int) ≤ h + 60 then
    let a := s.acceptHost h
    { a with cal := { a.cal with slew := some h.toNat, slewHalf := false } }
  else
    ev 0x380 1 [c.calendar, word64 h, (c.calendar - h).toNat] 255
      (State.bump { s with cal := { c with slew := none, slewHalf := false } } CAL_SYNC.refused)

/-- The calendar after one second of the always-on timer, and whether it advanced: at half rate while it slews towards the host
time, which goes on. -/
def Cal.tick (c : Cal) : Cal × Bool :=
  match c.slew with
  | none => ({ c with calendar := min calendarMax (c.calendar + 1) }, true)
  | some h =>
    let n := min calendarMax (c.calendar + b2n c.slewHalf)
    ({ c with calendar := n, slew := if n ≤ h + 1 then none else some (h + 1), slewHalf := !c.slewHalf && decide (h + 1 < n) },
      c.slewHalf)

/-- Every die in use gains its age of one second (R178). -/
def State.ageDies (s : State) : State :=
  { s with med := { s.med with dies := s.med.dies.mapIdx (fun i d =>
      if s.fitted i && !d.retired then { d with age := d.age + ageRate d.tempC } else d) } }

/-- One power-on second: power-on time, the lap, the tally lap's hours, the sensors' histograms (11 R308), the mirror of the
threshold tables (R183). -/
def State.powerSecond (s : State) : State :=
  let n := s.cal.powerOnS + 1
  let hist := (List.range 4).map (fun k =>
    let l := s.thm.hist.getD k []
    match maxInt ((List.range 64).filter (fun i => sensorKind i == k && (s.sensor i).sampled) |>.map s.usedOf) with
    | some t => let b := min 15 (t / 8).toNat
                setAt l b (l.getD b 0 + 1)
    | none => l)
  { s with
    cal := { s.cal with powerOnS := n, thrMirror := s.cal.thr,
                        lapElapsed := if s.cal.lapActive then s.cal.lapElapsed + 1 else s.cal.lapElapsed },
    tly := { s.tly with lapHours := if n % 3600 = 0 then s.tly.lapHours + 1 else s.tly.lapHours },
    thm := { s.thm with hist := hist } }

/-- CALENDAR_TICK: one second of the always-on timer while region A has power. -/
def execCalendarTick (t : Nat) (s0 : State) : Res :=
  let s := s0.tick t
  if s.pwr.inputs.vaux = 0 then .next s
  else
    let c := s.cal.tick
    let s1 := { s with cal := c.1 }
    if s1.pwr.inputs.slot12 = 0 then .next s1
    else
      let s2 := s1.powerSecond
      .next (if c.2 then s2.ageDies else s2)

/-! ## Ledger and reference groups (R179, R181) -/

/-- A ledger entry of a die: the calendar hour and the accumulator at its start. Entries older than 14 days fold into daily ones,
kept 16 years. -/
def Die.ledgerHour (d : Die) (hour acc : Nat) : Die :=
  let all := if d.hourly.any (fun e => e.1 == hour) then d.hourly else d.hourly ++ [(hour, acc / 64)]
  let old := all.filter (fun e => decide (e.1 + 336 < hour))
  let days := old.foldl (fun m e => if m.any (fun x => x.1 == e.1 / 24) then m else m ++ [(e.1 / 24, e.2)]) d.daily
  { d with hourly := all.filter (fun e => decide (hour ≤ e.1 + 336)),
           daily := days.filter (fun e => decide (hour / 24 ≤ e.1 + 5844)) }

/-- Change every fitted die that is not retired. -/
def State.eachDie (s : State) (f : Die → Die) : State :=
  { s with med := { s.med with dies := s.med.dies.mapIdx (fun i d => if s.fitted i && !d.retired then f d else d) } }

/-- The hour that has run on a die closes: its entry is written with one one-bead sector write, and calendar hour h begins (R179). -/
def Die.closeHour (d : Die) (h : Nat) : Die :=
  if d.hourAt.1 = h then d
  else { d.ledgerHour d.hourAt.1 d.hourAt.2 with hourAt := (h, d.acc), refWrite := d.refWrite + 1 }

/-- DRIFT_LEDGER_HOURLY. -/
def execDriftLedgerHourly (s : State) : Res :=
  .next (if s.railsOn then
    let s1 := s.eachDie (fun d => d.closeHour (s.cal.calendar / 3600))
    State.kick { s1 with cal := { s1.cal with saved := s.cal.calendar } }
  else s)

/-- A fresh reference group on every die; each die holds 64 in rotation. -/
def State.writeRefs (s : State) : State :=
  let s1 := s.eachDie (fun d => { d with refs := ((s.cal.calendar, d.acc) :: d.refs).take 64 })
  { s1 with cal := { s1.cal with saved := s.cal.calendar } }

/-- REFERENCE_GROUP_WRITE. -/
def execReferenceGroupWrite (s : State) : Res := .next (if s.railsOn then s.writeRefs else s)

/-! ## Threshold tables (R183 to R185) -/

/-- An offset after an evaluation of its counts, before the clamp. -/
def moved (o : Int) (up down : Nat) : Int :=
  if 5 * down < 4 * up then o + 1 else if 5 * up < 4 * down then o - 1 else o

def clamp60 (o : Int) : Int := max (-60) (min 60 o)

/-- Keep threshold j's offsets non-decreasing with bin about the moved entry. -/
def monotone (die band bin j : Nat) (o : Int) (m : Tab ThrEntry) (b : Nat) : Tab ThrEntry :=
  let k := thrKey die band b
  let e := Tab.findD m k ThrEntry.blank
  let x := e.offsets.getD j 0
  let y := if bin < b then max x o else if b < bin then min x o else x
  if x = y then m else Tab.put m k { e with offsets := setAt e.offsets j y }

/-- THRESHOLD_COUNT_EVALUATION: the counts of a threshold have reached 256. -/
def execThresholdCountEvaluation (t : Nat) (die : Fin 64) (bin : Fin 16) (band : Fin 4) (thr : Fin 15) (s0 : State) : Res :=
  let s := s0.tick t
  if !s.fitted die then .fault .noSuchUnit
  else
    let k := thrKey die band bin
    let e := s.thrEntry die band bin
    let u := e.up.getD thr 0
    let d := e.down.getD thr 0
    if u + d < 256 then .next s
    else
      let raw := moved (e.offsets.getD thr 0) u d
      let o := clamp60 raw
      let held := if o = 60 ∨ o = -60 then e.clamped.getD thr 0 + 1 else 0
      let e1 := { e with offsets := setAt e.offsets thr o, up := setAt e.up thr (u / 2), down := setAt e.down thr (d / 2),
                         clamped := setAt e.clamped thr held }
      let m := (List.range 16).foldl (monotone die band bin thr o) (Tab.put s.cal.thr k e1)
      let s1 := { s with cal := { s.cal with thr := m } }
      let s2 := if raw = o then s1 else s1.bump CAL_DIE_STATE.limit_hits 1 die
      .next (if held = 1024 then ev 0x383 1 [die, bin, band, thr] 4 s2 else s2)

/-- CALIBRATION_WINDOW_END: event 0x38B for each die with thin entries. -/
def execCalibrationWindowEnd (t : Nat) (s0 : State) : Res :=
  let s := s0.tick t
  .next ((List.range 64).foldl (fun x i => if s.thinOf i = 0 then x else ev 0x38B 0 [i, s.thinOf i] 4 x) s)

/-! ## Margins, migration, refresh (R186, R187, Table 7-4) -/

/-- MARGIN_EVALUATION of a stripe block. -/
def execMarginEvaluation (t : Nat) (group : Fin 4) (block : BitVec 20) (s : State) : Res :=
  .next ((s.tick t).evalMargin (blkKey group.val block.toNat))

def State.rebuildingGroup (s : State) (g : Nat) : Bool := match s.med.rebuild with | some r => r.group == g | none => false

/-- Stripe block k is the next to rewrite of its mode: due, of the highest scrub priority, then the longest due. Rewrites stop
in failed-read-only and in a group that rebuilds. -/
def State.nextDue (s : State) (k : Nat) : Bool :=
  match Tab.find s.med.blocks k with
  | none => false
  | some x =>
    x.due.isSome && !s.fro && !s.rebuildingGroup (k / perGroup) && !s.changesWait && x.counted &&
      s.med.blocks.all (fun e => e.2.bead != x.bead || e.2.due.isNone || decide (e.2.scrub < x.scrub) ||
        (e.2.scrub == x.scrub && decide (x.dueSeq ≤ e.2.dueSeq)))

/-- Folios whose base lies in a stripe block; shadows there; integrity folios there. -/
def inBlock (g b : Nat) (l : Option Loc) : Bool := match l with | some l => l.group == g && l.block == b | none => false
def State.foliosIn (s : State) (g b : Nat) : List Nat := (s.map.entries.filter (fun e => inBlock g b e.2.loc)).map (·.1)
def State.shadowsIn (s : State) (g b : Nat) : List Nat := (s.ring.shadows.filter (fun e => inBlock g b (some e.2.loc))).map (·.1)
def State.integIn (s : State) (g b : Nat) : List Nat := (s.map.integrity.filter (fun e => inBlock g b e.2.loc)).map (·.1)

/-- Settle the shadows of committed epochs that lie in a stripe block. -/
def State.settleIn (s : State) (g b : Nat) : State :=
  (s.shadowsIn g b).foldl (fun s f =>
    match Tab.find s.ring.shadows f with
    | some x => if x.epoch ≤ s.ring.committed && !s.heldEntry f && (Tab.find s.map.homes f).isNone && !s.ring.pending &&
        !s.ring.provisional then s.settle f else s
    | none => s) s

/-- Move every folio of a stripe block to open stripe pages, with change records of a kind; a folio with a placement under way is
left to it. -/
def State.moveBlock (s : State) (g b kind : Nat) : State :=
  let s1 := (s.foliosIn g b).foldl (fun s f => if (Tab.find s.map.homes f).isNone then s.moveToPage f kind else s) s
  (s1.integIn g b).foldl (fun s n => s.integPlace n ((Tab.find s.map.integrity n).bind (·.loc))) s1

/-- Copy a shadow to an open stripe page; its table entry follows when the copy commits. -/
def State.moveShadow (s : State) (f : Nat) : State :=
  match Tab.find s.ring.shadows f, Tab.find s.map.homes f with
  | some x, none =>
    match s.pageSlot f with
    | (s1, some l) =>
      (s1.copyFolio x.loc l).setHome f ⟨9, l, false, [], x.epoch, BitVec.ofNat 2 x.epoch, true, false, false, some x.loc⟩
    | (s1, none) => s1
  | _, _ => s

/-- STRIPE_BLOCK_MIGRATE: a four-bead stripe block. -/
def execStripeBlockMigrate (t : Nat) (group : Fin 4) (block : BitVec 20) (s0 : State) : Res :=
  let g := group.val
  let b := block.toNat
  let k := blkKey g b
  let s := s0.tick t
  match Tab.find s.med.blocks k with
  | none => .next s
  | some x =>
    if x.bead || !s.nextDue k || !s.icFree 1 then .next s
    else
      let s1 := s.settleIn g b
      let s2 := (s1.setBlock g b { (s1.block g b) with due := none }).moveBlock g b 8
      let s3 := internalOp 1 0 (64 * (s1.foliosIn g b).length) none ((s1.shadowsIn g b).foldl State.moveShadow s2)
      .next ((ev 0x384 0 [g, b, word64 (x.margin / 256), x.due.getD 0] 4 (s3.bump CAL_MIGRATE.migrated)).freeIfEmpty ⟨g, b, 0⟩)

/-- Write sector n of the folio at a location again as it reads. -/
def State.rewriteSector (l : Loc) (s0 : State) (n : Nat) : State :=
  let s := s0.readSource l n
  match s.sectorAt l n with
  | some x =>
    let s1 := if x.lost then [0, 1, 2, 3].foldl (fun s i => match s.storedAt l (4 * n + i) with
        | some y => s.keepStored l (4 * n + i) { y with poison := true }
        | none => s) s else s
    s1.stampSector x.folio l x.kind 0 n
  | none => s

/-- Write every sector of a stripe block in use again in place, with new stamps. -/
def State.restamp (s : State) (g b : Nat) : State :=
  let x := s.block g b
  let used := s.usedSlots g b
  let s1 := used.foldl (fun s i =>
    let l : Loc := ⟨g, b, i⟩
    let f := match s.sectorAt l 0 with | some y => y.folio | none => 0
    ((List.range 64).foldl (State.rewriteSector l) s).startUpdate f l (List.range 64)) s
  s1.setBlock g b { x with writeCal := s.cal.calendar, cMax := 0, cBin := 0, margin := 5376, due := none, oldStamp := false,
                           homes := used.foldl (fun h i => Tab.put h i (Tab.findD h i 0 + 1)) x.homes }

/-- STRIPE_BLOCK_REFRESH: a one-bead stripe block. The map does not change. -/
def execStripeBlockRefresh (t : Nat) (group : Fin 4) (block : BitVec 20) (s0 : State) : Res :=
  let g := group.val
  let b := block.toNat
  let s := s0.tick t
  match Tab.find s.med.blocks (blkKey g b) with
  | none => .next s
  | some x =>
    if !x.bead || !s.nextDue (blkKey g b) || !s.icFree 1 then .next s
    else
      .next (ev 0x385 0 [g, b, word64 (x.margin / 256), x.due.getD 0] 4
        ((internalOp 1 1 (64 * (s.usedSlots g b).length) none (s.restamp g b)).bump CAL_MIGRATE.refreshed))

/-! ## The scrubber (R192 to R194) -/

/-- Retention-safe limit of a lap, and the time after which it wakes gated channels, in s. -/
abbrev lapLimit : Nat := 14 * 86400
abbrev lapWake : Nat := 7 * 86400

/-- SCRUB_LAP_START. -/
def execScrubLapStart (t : Nat) (s0 : State) : Res :=
  let s := s0.tick t
  .next (if s.cal.lapActive || !s.link.memActive || decide (s.cal.powerOnS < s.cal.lapStart + 86400) then s
    else { s with cal := { s.cal with lapActive := true, lapStart := s.cal.powerOnS, lapElapsed := 0, lapProgress := 0,
                                      lapReads := 0, lapLost := 0, savedPosition := (0, 0), lapAt := [0, 0, 0, 0],
                                      savedAt := [0, 0, 0, 0] } })

/-- The die is idle for the scrubber: nothing has been queued for it for the scrub idle threshold; the scrubber itself reads it once
per 20 µs (R193). -/
def State.idleDie (s : State) (i : Nat) : Bool :=
  let d := s.die i
  d.op.isNone && !d.retired && !s.med.gated.getLsbD (dieChannel i) && s.queuedOn i == 0 && !s.dieHeld i &&
    decide (d.lastAt + s.run.policy.scrubIdle * usec ≤ s.now) &&
    (match d.scrubAt with | some t => decide (t + 20 * usec ≤ s.now) | none => true)

/-- Progress of a lap that has reached the stripe blocks `at_`: the percentage of stripe blocks that it has passed (log entry 88). -/
def State.lapPercent (s : State) (at_ : List Nat) : Nat :=
  100 * (s.med.blocks.filter (fun e => decide (e.1 % perGroup < at_.getD (e.1 / perGroup) 0))).length / max 1 s.med.blocks.length

/-- The scrubber has read a sector of stripe block b of group g on die i. It walks each group in stripe-block order (R192). -/
def State.scrubbed (s : State) (i g b : Nat) : State :=
  let s1 := s.setDie i { s.die i with scrubAt := some s.now }
  let at_ := setAt s1.cal.lapAt g b
  { s1 with cal := { s1.cal with lapReads := s1.cal.lapReads + 1, lapAt := at_, lapProgress := s1.lapPercent at_ } }

/-- Bit errors that a stored sector holds (13 R379); one half-written, or lost, has more than any decode takes. -/
def State.flipsIn (s : State) (l : Nat) : Nat :=
  match s.readLoc (l / 64) with
  | some x => (match s.sectorAt x (l % 64) with | some y => if y.lost || y.torn then 2556 else y.flips | none => 0)
  | none => 0

/-- A sector that no step of 05 R130 recovers; one that holds no host data has no DPA. -/
def State.scrubLost (s : State) (i b : Nat) (l : Option (BitVec 35)) : State :=
  let s1 := { s with cal := { s.cal with lapLost := s.cal.lapLost + 1 } }
  match l with
  | some l => s1.sectorLost l.toNat
  | none => ev 0x181 2 [2 ^ 64 - 1, 3, i, b, Config.free s1.fresh, 0] 4 { s1 with fresh := s1.fresh + 1 }

/-- The sector of line l lies in stripe block k, on die i. -/
def State.liesOn (s : State) (l k i : Nat) : Bool :=
  match s.readLoc (l / 64) with
  | some x => blkKey x.group x.block == k && s.dieAt x (l % 64) == i
  | none => false

/-- How a read of the card's own of a sector of stripe block k, sensed on die i with entry `key`, ends: n bits are wrong, and `how`
says what recovers a sector that no hard decode gives (R187, R189; 05 R130). -/
def State.ownRead (s : State) (l : Option Nat) (k i key w n : Nat) (reports : List (Nat × Bool)) (how : ReadEnd)
    (lose : State → State) : State :=
  let a := match l with | some l => l * 256 | none => 2 ^ 64 - 1
  let soft := fun (s : State) => (ev 0x386 0 [a, i, key % 16] 4 (count 0x3002 1 none (s.bump CAL_DECODE.soft_ok))).setDue k 2
  let recon := fun (s : State) =>
    let s1 := match l.bind (fun l => (s.readLoc (l / 64)).map (fun x => (x, l % 64))) with
      | some (x, m) => s.peersReport x m []
      | none => s
    ((s1.bump MED_RECON.recovered).bump MED_DIE_ERR.reconstructed 1 i).setDue k 3
  match how with
  | .hard => if n ≤ 21 then s.decoded k i key w n reports else if n ≤ 27 then soft s else recon (s.bump CAL_DECODE.soft_failed)
  | .soft => if n ≤ 27 then soft s else recon (s.bump CAL_DECODE.soft_failed)
  | .recon => recon (s.bump CAL_DECODE.soft_failed)
  | .lost => lose (s.bump CAL_DECODE.soft_failed)

/-- The calibration class has read time left on channel c: its margin reads take 1 % of it (log entry 80). -/
def State.marginTime (s : State) (c ns : Nat) : Bool :=
  match s.cal.marginAt.getD c none with
  | some t => decide (t + 100 * ns ≤ s.now)
  | none => true

/-- MARGIN_READ of the sector of line l, which lies in a thin entry (R185): sensed and decoded like any read, it returns no data. -/
def execMarginRead (t : Nat) (die : Fin 64) (l : BitVec 35) (corrected : Nat) (reports : List (Nat × Bool)) (how : ReadEnd)
    (s0 : State) : Res :=
  let s := s0.tick t
  let i := die.val
  let c := dieChannel i
  if !s.fitted i then .fault .noSuchUnit
  else match s.readLoc (l.toNat / 64) with
  | none => .next s
  | some x =>
    let k := blkKey x.group x.block
    let key := s.sectorEntry x (l.toNat % 64)
    let thin := decide ((Tab.findD s.cal.thr key ThrEntry.blank).window s.cal.powerOnS < 2048) && (s.heldEntries i).contains key
    let ns := if s.beadAt (l.toNat / 64) then 250 else 500
    if !thin || !s.liesOn l.toNat k i || !s.link.memActive || (s.die i).retired || s.dieHeld i || s.med.gated.getLsbD c ||
        s.sectorGone l.toNat || !s.marginTime c ns then .next s
    else
      let w := s.sectorTime x (l.toNat % 64)
      let s1 := count 0x3003 1 none ((s.sense i).bump CAL_MARGIN.margin_reads)
      let s2 := { s1 with cal := { s1.cal with marginAt := setAt s1.cal.marginAt c (some s.now) } }
      .next ((internalOp 2 0 1 (some (l.toNat * 256)) s2).ownRead (some l.toNat) k i key w (corrected + s.flipsIn l.toNat) reports how
        (State.sectorLost · l.toNat))

/-- SCRUB_READ of a sector of the next stripe block of a group, on an idle die; a sector whose stripe is being updated waits for the
parity write (Table 5-6). -/
def execScrubRead (t : Nat) (die : Fin 64) (group : Fin 4) (block : BitVec 20) (l : Option (BitVec 35)) (corrected : Nat)
    (up : List Nat) (down : List Nat) (how : ReadEnd) (s0 : State) : Res :=
  let s := s0.tick t
  let i := die.val
  let reports := up.map (fun n => (n, true)) ++ down.map (fun n => (n, false))
  let k := blkKey group.val block.toNat
  if !s.fitted i then .fault .noSuchUnit
  else
    let x := s.block group.val block.toNat
    let mine := x.members.any (fun m => memberDie k m == i) && l.all (fun l => s.liesOn l.toNat k i)
    let passed := decide (block.toNat < s.cal.lapAt.getD group.val 0)
    if !s.cal.lapActive || !s.link.memActive || !mine || passed || !s.idleDie i || l.any (fun l => s.stripeMoving l.toNat) then .next s
    else
      let s1 := (internalOp 3 0 1 (l.map (fun l => l.toNat * 256)) (s.sensed i)).scrubbed i group.val block.toNat
      let at_ := l.bind (fun l => (s.readLoc (l.toNat / 64)).map (fun x => (x, l.toNat % 64)))
      if l.any (fun l => s.sectorGone l.toNat) then
        .next { s1 with cal := { s1.cal with lapLost := s1.cal.lapLost + 1 } }
      else
        .next (s1.ownRead (l.map (·.toNat)) k i
          (match at_ with | some (y, m) => s.sectorEntry y m | none => s.blockEntry k i x)
          (match at_ with | some (y, m) => s.sectorTime y m | none => s.blockTime k x)
          (corrected + (match l with | some l => s.flipsIn l.toNat | none => 0)) reports how (State.scrubLost · i block.toNat l))

/-- SCRUB_LAP_COMPLETE. -/
def execScrubLapComplete (t : Nat) (s0 : State) : Res :=
  let s := s0.tick t
  if !s.cal.lapActive then .next s
  else
    let c := s.cal
    .next (ev 0x387 0 [c.lapElapsed / 60, c.lapReads, c.lapLost] 4
      { s with cal := { c with lapActive := false, lastLap := c.lapElapsed / 60, lapProgress := 0, wakeChannel := none,
                               overLimit := c.overLimit && decide (lapLimit < c.lapElapsed) } })

/-- SCRUB_LAP_LIMIT. -/
def execScrubLapLimit (t : Nat) (s0 : State) : Res :=
  let s := s0.tick t
  .next (if s.cal.lapActive && !s.cal.overLimit && decide (lapLimit < s.cal.lapElapsed) then
    ev 0x388 1 [s.cal.lapElapsed / 60, s.cal.lapProgress] 4 { s with cal := { s.cal with overLimit := true } }
  else s)

/-- SCRUB_GATED_WAKE: gated channels are woken one at a time, each for up to 10 s. -/
def execScrubGatedWake (t : Nat) (channel : Fin 16) (s0 : State) : Res :=
  let s := s0.tick t
  let c := channel.val
  let busy := match s.cal.wakeChannel with | some (_, t0) => decide (s.now < t0 + 10 * sec) | none => false
  .next (if s.cal.lapActive && decide (lapWake < s.cal.lapElapsed) && s.med.gated.getLsbD c && !busy &&
      !s.restarting (mediaRegion c) then
    { s with med := { s.med with waking := s.med.waking ||| BitVec.twoPow 16 c },
             cal := { s.cal with wakeChannel := some (c, s.now) } }
  else s)

/-- Save the scrub position: row 576 of partition 2 (log entry 21). -/
def State.savePosition (s : State) : State :=
  State.ownRow { s with cal := { s.cal with savedPosition := (s.cal.lapProgress, s.cal.lapElapsed), savedAt := s.cal.lapAt } } 6 2 576
    (le 1 s.cal.lapProgress ++ le 4 s.cal.lapElapsed ++ le 1 (b2n s.cal.lapActive) ++ s.cal.lapAt.flatMap (le 4))

/-- SCRUB_POSITION_SAVE. -/
def execScrubPositionSave (s : State) : Res := .next (if s.canLog then s.savePosition else s)

/-! ## Get Wear and Drift Report (R197) -/

/-- Wears of die i's member blocks that hold data. -/
def State.dieWears (s : State) (i : Nat) : List Nat :=
  s.med.blocks.flatMap (fun e => (e.2.members.filter (fun m => memberDie e.1 m == i)).map (fun m =>
    wearOf s i m.2 (if e.2.bead then State.bead1 e.2 else 0)))

def signed8 (n : Int) : Byte := BitVec.ofInt 8 n

/-- The record of one die (Table 7-6). -/
def State.dieRecord (s : State) (i : Nat) : Bytes :=
  let d := s.die i
  let w := s.dieWears i
  let all := (List.range 3).flatMap (fun band => (List.range 16).map (fun bin => s.thrEntry i band bin))
  le 1 i ++ le 1 (s.dieState i) ++ le 2 d.retiredBlocks ++ le 4 (if w.isEmpty then 0 else total w / w.length) ++
  le 4 (largest w) ++ le 8 d.acc ++ le 4 (min d.deltaA (2 ^ 32 - 1)) ++ le 4 ((d.refs.map (·.1)).headD 0) ++
  le 1 (plus40 d.tempC) ++ le 1 (s.thinOf i) ++ le 2 (s.lowMargin i) ++
  all.flatMap (fun e => le 2 e.rate) ++
  all.flatMap (fun e => [signed8 (e.offsets.getD 7 0), signed8 (e.offsets.getD 14 0)]) ++
  (List.range 16).map (fun bin => signed8 ((s.thrEntry i 3 bin).offsets.getD 0 0)) ++ zeros 16

def State.fittedDies (s : State) : List Nat := (List.range 64).filter s.fitted

/-- GET_WEAR_AND_DRIFT_REPORT. -/
def execGetWearAndDriftReport (path : Path) (die : Nat) (restZero : Bool) (s : State) : Res :=
  .next (s.mailbox (.getWearAndDriftReport path die restZero) path 0xC080 false false (fun s =>
    if !restZero || (die != 255 && !s.fitted die) then s.reply path 0xC080 .invalidInput
    else
      let l := if die = 255 then s.fittedDies else [die]
      s.reply path 0xC080 .success (le 2 1 ++ le 2 l.length ++ le 4 s.cal.calendar ++ zeros 8 ++ l.flatMap s.dieRecord)))

/-- The live tables go to the reference areas, and each die's wear and drift summary to partition 2 (row 512 + i, log entry 21). -/
def State.saveTables (s : State) : State :=
  let s1 := { s with cal := { s.cal with thrSaved := s.cal.thr } }
  if s1.canLog then s1.fittedDies.foldl (fun x i => x.ownRow 6 2 (512 + i) (s1.dieRecord i)) s1 else s1

/-- THRESHOLD_TABLE_SAVE. -/
def execThresholdTableSave (s : State) : Res := .next (if s.railsOn then s.saveTables else s)

end Sys2Proof.Machine
end

