-- ==== Sys2Proof/Machine/Resets.lean ====
section
/-! DEFINITION. What resets and the loss of the rails take away: the registers of a survival class, the state of the
function, volatile contents; the resets of the host and of management (00_scope R9; 12 R343, R344, R346; 09 R235; 11 R304). -/

namespace Sys2Proof.Machine

/-! ## Registers by survival class (00_scope Table 0-8) -/

/-- A reset of rank r resets the classes up to r: 1 function, 2 conventional, 3 power. -/
def Survival.rank (c : Survival) : Nat :=
  match c with
  | .region => 0
  | .function => 1
  | .conventional => 2
  | .power => 3
  | .persistent => 4

/-- The stored field at a key of `State.obs` goes back to a reset value on a reset of rank r. A written control whose reset value
is the image's is no longer stored, and reads the image's value again. -/
def resetsKey (r k : Nat) : Bool :=
  match regAt (k / 64) with
  | some (row, _) =>
    decide (row.cls.rank ≤ r) && (row.flds.filter (fun f => f.lo == k % 64)).all (fun f =>
      match f.rst with
      | .val _ => true
      | .keep => f.acc == .rw)
  | none => false

def State.resetRegs (s : State) (r : Nat) : State := { s with obs := Tab.keep s.obs (fun k _ => !resetsKey r k) }

/-! ## Function state (12 Tables 12-11, 12-12) -/

/-- Every telemetry register of survival class Function is at its reset value: the queue is empty, and
its line sequence continues (13 R386, Table 13-10). -/
def State.clearTelemetry (s : State) : State :=
  { s with tq := { Telemetry.atReset with samples := s.tq.samples, seq := s.tq.seq } }

/-- HDM decoder commits, IDE keys and SPDM sessions are lost, and the host's controls of the function. A failed stream stays refused
until its new key is there (02 R51). AER and RAS status are sticky (log entry 84). -/
def Link.functionReset (l : Link) : Link :=
  { l with decoders := Link.atReset.decoders, ideIo := none, ideMem := none, ideInsecureIo := false,
           ideInsecureMem := false, ideContained := false, spdmSessions := 0, d3hot := false, memActive := false, viralEnabled := false,
           msixTable := [] }

/-- The QOS registers of survival class Function are at their reset values (03 R85): envelope and cause 0, every class at level 0
and not suspended. Which classes raised an event in the last second is no register. -/
def Qos.functionReset (q : Qos) : Qos :=
  { q with rEnv := 0, wEnv := 0, cause := 0, holdStart := none, moved := [],
           cls := q.cls.map (fun c => { c with level := 0, p99 := 0, suspended := false, recent := [] }) }

/-- The RING registers of survival class Function that are history are at their reset values (10 R296). A coordinated flush that
runs goes on. -/
def Ring.functionReset (r : Ring) : Ring :=
  if r.flushFrom.isSome then { r with lastCloseNs := 0, refusal := 0, lastPhase := 0 }
  else { r with lastCloseNs := 0, refusal := 0, lastPhase := 0, flushMask := 0, flushShown := false }

/-- Function-class state goes back to reset, host contexts are freed with no completion, region restarts are abandoned
(01 Table 1-6). Accepted writes stay. -/
def State.functionReset (s : State) : State :=
  let s1 := s.freeContexts.clearTelemetry.resetRegs 1
  { s1 with link := s1.link.functionReset, flip := ⟨none⟩, evt := { s1.evt with pending := 0 },
            fab := { s1.fab with restarts := [], queue := [], crossing := [] },
            qos := s1.qos.functionReset, ring := s1.ring.functionReset, pfl := { s1.pfl with gpf := false } }

/-- A hot reset's or a CXL Reset's effect: `mailbox` when commands in progress are abandoned; the link goes down with it or
(CXL Reset) stays, and then Memory_Active is set again. -/
def State.hostReset (s : State) (code : Nat) (f : Fld) (down : Bool) : State :=
  let s1 := if down then s.functionReset.abandonCommands.linkDown else s.functionReset
  let s2 := ev 0x58F 0 [code] 1 (s1.bump f)
  if !down && s2.boot.complete && s2.cxlUp && !s2.replayDue then s2.setMemActive else s2

/-- HOT_RESET, from the port or as a link down on the host side. A dump ignores it (R346). -/
def execHotReset (t : Nat) (s : State) : Res :=
  let s := s.tick t
  .next (if s.link.protocol = 0 || s.pfl.dump.isSome then s else s.hostReset 0 BOOT_RESETS.hot true)

/-- CXL_RESET. -/
def execCxlReset (t : Nat) (s : State) : Res :=
  let s := s.tick t
  .next (if !s.cxlUp || s.pfl.dump.isSome then s else s.hostReset 1 BOOT_RESETS.cxl false)

/-- MANAGEMENT_RESET: answered (kind 14), then acts as a hot reset and takes its own link down. Until region G runs the
answer is Retry Required (02 R53). -/
def execManagementReset (t : Nat) (s : State) : Res :=
  let s := s.tick t
  .next (if s.pwr.inputs.vaux = 0 || s.boot.recovery then s
    else if !s.gRuns then s.out (.answer 0 [])
    else if s.pfl.dump.isSome then s
    else (s.out (.answer 14 [])).hostReset 2 BOOT_RESETS.management true)

/-! ## The end of an attempt (12 R329, Table 12-16) -/

def Boot.setNewest (b : Boot) (g : Attempt → Attempt) : Boot :=
  { b with ledger := match b.ledger with | a :: r => g a :: r | [] => [] }

/-- An attempt is in progress: it runs, is held for heat, or has ended in recovery. -/
def Boot.inProgress (b : Boot) : Bool :=
  match b.ledger with
  | a :: _ => a.outcome == 0
  | [] => false

/-- The attempt in progress ends without a failure counted: PERST_N or loss of input. A hold for heat is part of its step 0x01
(11 R320). -/
def State.endAttempt (s : State) : State :=
  if s.boot.inProgress && s.thm.heldAt.isNone then
    let b := s.boot.setNewest (fun a => { a with outcome := 4 })
    { s with boot := { b with running := false, ended := some (s.boot.step, 1) } }
  else s

/-! ## Volatile contents -/

/-- What a power loss leaves of the key tables: counters as the medium holds them, no binding under way. -/
def Keys.volatileLost (k : Keys) : Keys :=
  { k with ctrs := k.ctrsHome, ctrCache := [], ctrMirror := [], dirtyCtrs := [], lost := [],
           nodes := k.nodesHome.filter (fun e => e.1 < 4 * 2 ^ 32) ++ k.nodes.filter (fun e => 4 * 2 ^ 32 ≤ e.1), nodeCache := [],
           dirtyNodes := [],
           units := Tab.mapV k.units (fun _ u => { u with binding := false }) }

/-- What the GDDR7 devices and the chip held of the map is gone; the checkpoints and the journal are on the medium. -/
def Map.volatileLost (m : Map) : Map :=
  { m with entries := [], integrity := [], held := [], rebuilding := [], tail := [], tailSince := none, onChip := [], homes := [],
           pages := [], progs := [], ckptWriting := none, reclaim := [], discard := none, waiting := false }

/-- The overlay index is lost: a draining slot keeps the lines that were not yet home. Before Memory_Active (`served` false)
the slot is found again as it was (09 R259). -/
def Persist.volatileLost (p : Persist) (served : Bool) : Persist :=
  let left := p.overlay.map (·.2) ++ p.overlayHeld.map (·.2)
  let found := fun (d : DumpSlot) => if d.headSealed || d.trailer then { d with st := 2 } else { d with st := 4 }
  let slots := match p.overlaySlot with
    | some i => p.slots.mapIdx (fun j d => if j = i ∧ d.st = 3 then (if served then { d with lines := left } else found d) else d)
    | none => p.slots
  { p with slots := slots, overlay := [], overlayHeld := [], overlaySlot := none, wt := none, wtPre := false, gpf := false,
           dump := none, test := none, flush := none, charging := false, discharging := true, dueSince := none, deferredAt := none }

/-- Link and mailbox state; the SMBus address and the endpoint ID are region A's. -/
def Link.volatileLost (l : Link) : Link :=
  { Link.atReset with smbusAddress := l.smbusAddress, eid := l.eid, lsa := l.lsa, shutdownState := l.shutdownState,
                      heldDown := l.heldDown, viral := l.viral, timestamp := l.timestamp, scanResults := l.scanResults }

/-- The ring's volatile state; the epoch state record is kept (10 R287). -/
def Ring.volatileLost (r : Ring) : Ring :=
  { r with bypass := true, inSync := false, st := 0, joined := false, close := none, pending := false, provisional := false,
           position := none, flushFrom := none, flushLines := [], flushSeen := none, lastFrame := none, resolving := false,
           stateSeen := [] }

/-- Rails 1 to 13 are off: volatile contents are gone. What the energy store carried to the medium is in the dump slots. -/
def State.loseVolatile (s0 : State) : State :=
  let s := s0.endAttempt
  let dies := s.med.dies.map (fun d => { d with op := none, refWrite := 0 })
  { s with
    cch := { Caches.atReset with gddr := s.cch.gddr }, qos := { Qos.atReset with nextId := s.qos.nextId },
    key := s.key.volatileLost, map := s.map.volatileLost, pfl := s.pfl.volatileLost s.boot.complete, link := s.link.volatileLost,
    ring := s.ring.volatileLost, tq := Telemetry.atReset,
    recd := { s.recd with staging := [], heldRepeats := 0, newest := none }, tly := { s.tly with stale := true },
    cal := { s.cal with thr := [], thrMirror := [], lapProgress := s.cal.savedPosition.1, lapElapsed := s.cal.savedPosition.2, lapAt := s.cal.savedAt },
    med := { s.med with dies := dies, gated := 0, waking := 0, allow := [0, 0, 0, 0] },
    fab := { s.fab with restarts := [], queue := [], blocks := [], expiries := [], crossing := [],
                        pace := Fabric.atReset.pace, replica := Fabric.atReset.replica },
    thm := { s.thm with levels := Thermal.atReset.levels, stopping := none },
    boot := { s.boot with complete := false, hold := false, recovery := false }, flip := ⟨none⟩ }

/-! ## Power sequences (11 R303, R304) -/

/-- The inputs qualify (11 R297). -/
def State.inputsOk (s : State) : Bool :=
  let i := s.pwr.inputs
  decide (11000 < i.slot12) && decide (11000 < i.aux12) && decide (3000 < i.v33) && i.vaux != 0

/-- Every rail but rail 0 is off. -/
def State.railsOff (s : State) : Bool := (s.pwr.rails.drop 1).all (fun r => !r.enabled)

/-- A power-up from the common start now. -/
def State.beginPowerUp (s : State) (attempt : Nat) : State :=
  let p := { s.pwr with sequence := 1, common := s.now, covered := 0, attempts := attempt, onHeld := false, offUntil := none }
  { s with pwr := p, thm := { s.thm with heldAt := none } }

/-- The power-down is complete: contents are lost, a held on request waits for the minimum off time. A loss of the 12 V or
3.3 V inputs takes the Power class too (D3cold). -/
def State.powerDownDone (s : State) : State :=
  let off := if s.pwr.onHeld then some (max s.now s.downEnd + 50 * msec) else none
  let p := { s.pwr with sequence := 0, covered := 0, offUntil := off }
  let s1 := { s.loseVolatile with pwr := p }
  if s1.inputsOk && s1.pwr.qualified then s1 else s1.resetRegs 3

/-- The card stops serving at once, with no dump. -/
def State.stopServing (s : State) : State :=
  let s1 := s.freeContexts.linkDown.abandonCommands.abandonPrograms
  { s1 with pfl := { s1.pfl.dropTest with flush := none, charging := false }, thm := { s1.thm with stopping := none } }

/-- Disable every rail but rail 0 at once. -/
def State.dropRails (s : State) : State :=
  let rails := s.pwr.rails.mapIdx (fun i r => if i = 0 then r else r.off s.now)
  let s1 := s.stopServing
  State.powerDownDone { s1 with pwr := { s1.pwr with rails := rails } }

end Sys2Proof.Machine
end

