-- ==== Sys2Proof/Machine/Budget.lean ====
section
/-! DEFINITION. The energy store, its test, the dirty budget, and write-through mode as it is entered and left (09 R237 to
R243, R260 to R263, R266). -/

namespace Sys2Proof.Machine

/-! ## Energy (R237, R242) -/

/-- k in mJ per GiB. -/
def State.coef (s : State) : Nat := match s.part with | .p8192 => 1600 | .p4096 => 1900

/-- (0.5 × E × d − 2.5 J) / k in MiB, 0 if negative. -/
def budgetMib (k e d : Nat) : Nat := (e * d - 500000) * 1024 / (200 * k)

/-- B_energy and B_charge in MiB; while a test runs B_charge is its value at 21.0 V (R240). -/
def State.energyMib (s : State) : Nat := budgetMib s.coef s.pfl.energy (derate s.pfl.tempC)
def State.chargeMv (s : State) : Nat := if s.pfl.test.isSome then 21000 else s.pfl.vstore
def State.chargeMib (s : State) : Nat := budgetMib s.coef (storeEnergy s.pfl.cap s.pfl.esr s.chargeMv) 100

def State.slotArmed (s : State) : Bool := s.pfl.slots.any (fun d => d.st == 1)

/-- B in bytes: the least of 10 GiB, B_energy and B_charge, rounded down to 16 MiB; 0 while no slot is Armed (R260). -/
def State.newBudget (s : State) : Nat :=
  if s.slotArmed then min 10240 (min s.energyMib s.chargeMib) / 16 * 16 * mib else 0

/-- Event 0x488: B crosses 4 GiB, or differs by 1 GiB from the value last reported (R243). -/
def State.reportBudget (s : State) (old : Nat) : State :=
  let b := s.pfl.budget
  let far := (b - s.pfl.reported) + (s.pfl.reported - b)
  if s.boot.complete && (decide (old < 4 * gib) != decide (b < 4 * gib) || decide (gib ≤ far)) then
    ev 0x488 0 [old, b, Config.free s.fresh] 1
      { s with fresh := s.fresh + 1, pfl := { s.pfl with reported := b } }
  else s

/-- Compute B afresh. -/
def State.setBudget (s : State) : State :=
  let p := { s.pfl with bEnergy := s.energyMib, bCharge := s.chargeMib, budget := s.newBudget }
  State.reportBudget { s with pfl := p } s.pfl.budget

/-! ## Dump slots (R244, R245) -/

/-- The sequence that the next arming gives. -/
def State.nextDumpSeq (s : State) : Nat := largest (s.pfl.slots.map (·.seq)) + 1

/-- Row of partition 5 that holds a slot's key and sequence (the row is the model's). -/
def slotRow (i : Nat) : Nat := 2000 + i

/-- A slot takes a new dump key and sequence and the state `st`. -/
def State.armSlot (s : State) (i st : Nat) : State :=
  let x := { DumpSlot.atReset with st := st, seq := s.nextDumpSeq, key := s.fresh, drainStart := s.now }
  State.ownRow ({ s with fresh := s.fresh + 1 }.setSlotD i x) 1 5 (slotRow i) (le 8 s.fresh ++ le 8 x.seq)

/-! ## Write-through mode (R243, R260 to R263) -/

/-- Enter write-through mode with a cause: 0 B below 256 MiB, 1 a failed store, 2 no Armed slot. Data staged before entry
goes home first. In the mode already, a failed store becomes its cause. -/
def State.enterWt (s : State) (cause : Nat) : State :=
  match s.pfl.wt with
  | some (_, t) => if cause = 1 then { s with pfl := { s.pfl with wt := some (1, t) } } else s
  | none =>
    let staged := decide (0 < s.staged)
    let s1 := s.bump PFL_COUNTS.write_through
    let w := staged || s.cch.writeback
    let s2 := { s1 with pfl := { s1.pfl with wt := some (cause, s.now), wtPre := staged },
                        cch := { s1.cch with writeback := w } }
    ev 0x489 1 [cause] 1 s2

/-- The slot that takes the log: the Armed slot; with none, the slot that is arming. -/
def State.logSlot (s : State) : Option Nat :=
  match s.dumpSlot with
  | some i => some i
  | none => s.pfl.slots.findIdx? (fun d => d.st == 0)

/-- The slot takes the Log state once data staged before entry is home. -/
def State.startLog (s : State) : State :=
  if s.pfl.wt.isNone || s.pfl.slots.any (fun d => d.st == 4) || (s.pfl.wtPre && s.staged != 0) then s
  else match s.logSlot with
  | none => s
  | some i =>
    let s1 := { s with pfl := { s.pfl with wtPre := false } }
    if (s.slotD i).st = 1 then s1.setSlotD i { (s.slotD i) with st := 4, lines := [], logUsed := 0, topSeq := none }
    else s1.armSlot i 4

/-- The overlay index of a list of lines: the line of the earlier part wins (R256); a log's later line wins. -/
def indexLines (later : Bool) (ls : List DumpLine) : Tab DumpLine :=
  ls.foldl (fun m d =>
    match Tab.find m d.line with
    | none => Tab.put m d.line d
    | some e => if (if later then decide (e.part ≤ d.part) else decide (d.part < e.part)) then Tab.put m d.line d else m) []

/-- A slot's lines become the overlay. -/
def State.drainSlot (s : State) (i : Nat) (ls : List DumpLine) (later : Bool) : State :=
  let s1 := s.setSlotD i { (s.slotD i) with st := 3, drainStart := s.now }
  { s1 with pfl := { s1.pfl with overlay := indexLines later (ls.filter (fun d => !d.held)),
                                 overlayHeld := indexLines later (ls.filter (fun d => d.held)), overlaySlot := some i } }

/-- Leave the mode: the log drains (R262). -/
def State.leaveWt (s : State) : State :=
  match s.pfl.wt with
  | none => s
  | some (_, t) =>
    let s1 := ev 0x48A 0 [(s.now - t) / sec] 1 { s with pfl := { s.pfl with wt := none, wtPre := false } }
    match s1.pfl.slots.findIdx? (fun d => d.st == 4) with
    | none => s1
    | some i =>
      let d := s1.slotD i
      if d.lines.isEmpty then s1.setSlotD i { d with st := 0 } else s1.drainSlot i d.lines true

/-- The cause of the mode no longer holds, and its log can drain. -/
def State.wtOver (s : State) : Bool :=
  s.pfl.overlaySlot.isNone &&
  match s.pfl.wt with
  | none => false
  | some (0, _) => decide (256 * mib ≤ s.pfl.budget)
  | some (1, _) => s.pfl.health != 2
  | some (_, _) => s.slotArmed

/-- Judge the mode after B has been computed. Before Memory_Active nothing is accepted, so nothing is judged. -/
def State.judgeWt (s : State) : State :=
  if !s.boot.complete || s.pfl.dump.isSome then s
  else match s.pfl.wt with
  | some _ => if s.wtOver then s.leaveWt else s.startLog
  | none =>
    if 256 * mib ≤ s.pfl.budget then s
    else if s.slotArmed then (s.enterWt 0).startLog
    else if s.staged = 0 then (s.enterWt 2).startLog
    else s

/-- BUDGET_COMPUTE, every 1 ms: VSTORE and the store temperature as measured. -/
def execBudgetCompute (t : Nat) (r : StoreRead) (s : State) : Res :=
  let s := s.tick t
  let s1 := { s with pfl := { s.pfl with vstore := r.mv, tempC := r.tempC } }
  .next (if s1.pfl.dump.isSome then s1 else s1.setBudget.judgeWt)

/-! ## The store test (R239 to R241, Tables 9-2 and 9-3) -/

/-- Row 1 of partition 1. -/
def State.testRow (s : State) : Bytes :=
  le 4 s.pfl.cap ++ le 4 s.pfl.esr ++ le 4 s.pfl.energy ++ le 4 s.pfl.lastCal ++ le 1 s.pfl.lastResult ++ le 2 s.pfl.tests

/-- The store has failed: write-through mode with cause 1. -/
def State.storeFailed (s : State) : Bool :=
  match s.pfl.wt with
  | some (c, _) => c == 1
  | none => false

/-- The store's kind is at its warning level. -/
def State.storeWarm (s : State) : Bool := (s.kindLevel 3).warning

/-- Table 9-2: a test that falls due is deferred. -/
def State.testDefers (s : State) : Bool :=
  s.draining || (s.pfl.slots.any (fun d => d.st == 4) && !s.storeFailed) || s.storeWarm

/-- When a test falls due, in power-on seconds: 168 hours after the last one; 24 hours after one that failed; at once with none
recorded. -/
def State.testDueAt (s : State) : Nat :=
  if s.pfl.lastResult = 0 then s.pfl.dueSince.getD s.cal.powerOnS
  else s.pfl.lastPowerS + (if s.storeFailed then 24 else 168) * 3600

/-- A test is due, and an hour has passed since it was deferred. -/
def State.testIsDue (s : State) : Bool :=
  decide (s.testDueAt ≤ s.cal.powerOnS) &&
    (match s.pfl.deferredAt with | some a => decide (a + 3600 ≤ s.cal.powerOnS) | none => true)

/-- Start a test: B_charge takes its value at 21.0 V and staged data goes home at full rate. -/
def State.beginTest (s : State) (cause : Nat) : State :=
  let x : StoreTest := ⟨0, cause, s.now, 0, 0, 0, 0⟩
  State.setBudget { s with pfl := { s.pfl with test := some x, dueSince := none, deferredAt := none, deferEvent := false },
                           cch := { s.cch with writeback := true } }

/-- STORE_TEST_DUE. -/
def execStoreTestDue (t : Nat) (s : State) : Res :=
  let s := s.tick t
  if !s.boot.complete || s.pfl.dump.isSome || s.pfl.test.isSome || !s.testIsDue then .next s
  else if !s.testDefers then .next (s.beginTest (if s.storeFailed then 2 else 0))
  else
    let due := s.testDueAt
    let s1 := { s with pfl := { s.pfl with dueSince := some due, deferredAt := some s.cal.powerOnS } }
    .next (if due + 86400 ≤ s.cal.powerOnS && !s.pfl.deferEvent then
      ev 0x48C 0 [Config.free s.fresh] 1
        { s1 with fresh := s1.fresh + 1, pfl := { s1.pfl with deferEvent := true } }
    else s1)

/-- Change the running test. -/
def State.setTest (s : State) (x : StoreTest) : State := { s with pfl := { s.pfl with test := some x } }

/-- STORE_TEST_LOAD_APPLIED. -/
def execStoreTestLoadApplied (t : Nat) (mv : Nat) (s : State) : Res :=
  let s := s.tick t
  match s.pfl.test with
  | none => .next s
  | some x =>
    if x.phase ≠ 0 ∨ s.pfl.budget < s.staged ∨ mv < 24000 then .next s
    else
      let s1 := { s with pfl := { s.pfl with vstore := mv, charging := false } }
      .next (s1.setTest { x with phase := 1, loadAt := s.now, before := mv })

/-- STORE_TEST_ESR_MEASURE: ESR = (V before load − V now) / 2.0 A, kept in 0.1 mΩ. -/
def execStoreTestEsrMeasure (t : Nat) (mv : Nat) (s : State) : Res :=
  let s := s.tick t
  match s.pfl.test with
  | none => .next s
  | some x =>
    if x.phase ≠ 1 ∨ s.now < x.loadAt + msec then .next s
    else
      let s1 := { s with pfl := { s.pfl with vstore := mv } }
      .next (s1.setTest { x with phase := 2, esr := (x.before - mv) * 5 })

/-- STORE_TEST_DISCHARGE_END at 21.0 V: C = 2.0 A × time / 3.0 V, kept in 0.1 mF. -/
def execStoreTestDischargeEnd (t : Nat) (s : State) : Res :=
  let s := s.tick t
  match s.pfl.test with
  | none => .next s
  | some x =>
    if x.phase ≠ 2 then .next s
    else
      let s1 := { s with pfl := { s.pfl with vstore := 21000, charging := true } }
      .next (s1.setTest { x with phase := 3, cap := 2 * (s.now - x.loadAt) / 300000, loadAt := s.now })

/-- The end of a test: its result is stored and the host's command completes with Success (R266). -/
def State.finishTest (s : State) (x : StoreTest) (result : Nat) : State :=
  let p := { s.pfl with test := none, charging := true, lastResult := result, lastCal := s.cal.calendar,
                        lastPowerS := s.cal.powerOnS, tests := min 65535 (s.pfl.tests + 1) }
  let s1 := { s with pfl := p }
  let s2 := s1.ownRow 6 1 1 s1.testRow
  if x.cause = 1 then s2.endBackground .success else s2

/-- A failed test, by criterion 2 energy, 3 ESR, 4 recharge. -/
def State.failTest (s : State) (x : StoreTest) (e criterion : Nat) : State :=
  let s1 := (s.finishTest x criterion)
  let s2 := { s1 with pfl := { s1.pfl with health := 2 } }
  ev 0x487 2 [s2.pfl.cap, s2.pfl.esr, e, criterion] 1 ((s2.enterWt 1).setBudget)

/-- Event 0x48B for a measured energy below 30 J. -/
def State.noteAging (s : State) (e : Nat) : State := if e < 30000 then ev 0x48B 1 [e] 1 s else s

/-- STORE_TEST_RECHARGE_END at 24.0 V: E by R237, and the judgement of R241. -/
def execStoreTestRechargeEnd (t : Nat) (mv : Nat) (s : State) : Res :=
  let s := s.tick t
  match s.pfl.test with
  | none => .next s
  | some x =>
    if x.phase ≠ 3 ∨ mv < 24000 then .next s
    else
      let e := storeEnergy x.cap x.esr 24000
      let s1 := { s with pfl := { s.pfl with vstore := mv, cap := x.cap, esr := x.esr } }
      let b := budgetMib s.coef e (derate s.pfl.tempC)
      if b < 256 then .next ((s1.failTest x e 2).noteAging e)
      else if 3000 < x.esr then .next ((s1.failTest x e 3).noteAging e)
      else
        let s2 := { s1 with pfl := { s1.pfl with energy := e, health := if e < 30000 then 1 else 0 } }
        let s3 := (s2.finishTest x 1).setBudget
        .next ((ev 0x486 0 [x.cap, x.esr, e, s3.pfl.bEnergy] 1 s3).noteAging e).judgeWt

/-- STORE_TEST_TIMEOUT: 30 s without the charge voltage, before the load or after it. -/
def execStoreTestTimeout (t : Nat) (s : State) : Res :=
  let s := s.tick t
  match s.pfl.test with
  | none => .next s
  | some x =>
    if x.phase = 0 ∧ x.t0 + 30 * sec ≤ s.now then .next (s.failTest x s.pfl.energy 4)
    else if x.phase = 3 ∧ x.loadAt + 30 * sec ≤ s.now then
      .next (State.failTest { s with pfl := { s.pfl with cap := x.cap, esr := x.esr } } x (storeEnergy x.cap x.esr 24000) 4)
    else .next s

/-- A running test is abandoned at the store's warning level: the store recharges, a host's command is Aborted
(Table 9-2, R266). -/
def State.abandonTest (s : State) : State :=
  match s.pfl.test with
  | none => s
  | some x =>
    let s1 := { s with pfl := { s.pfl.dropTest with charging := true } }
    let s2 := s1.ownRow 6 1 1 s1.testRow
    if x.cause = 1 then s2.endBackground .aborted else s2

/-- START_ENERGY_STORE_TEST. -/
def execStartEnergyStoreTest (t : Nat) (path : Path) (s : State) : Res :=
  .next ((s.tick t).mailbox (.startEnergyStoreTest t path) path 0xC070 false false (fun s =>
    if s.link.background.isSome || s.pfl.test.isSome || s.draining ||
        (s.pfl.slots.any (fun d => d.st == 4) && !s.storeFailed) then s.reply path 0xC070 .busy
    else (s.startBackground path 0xC070 0).beginTest 1))

end Sys2Proof.Machine
end

