-- ==== Sys2Proof/Machine/Maint.lean ====
section
/-! DEFINITION. Maintenance by address on cached lines: Inject Poison and Clear Poison (04 R105, R106; 07 R190; 09 R259). -/

namespace Sys2Proof.Machine

/-- Lines that are listed as Injected (02 Table 2-13: 256 at most). -/
def State.injectedLines (s : State) : Nat := total ((s.map.poison.filter (fun r => r.source == 2)).map (·.length))

def Copy.setPoison (c : Copy) (i : Nat) : Copy := { c with poison := setBit4 c.poison i true }

/-- Some cache or buffer of Table 4-2 holds line k. -/
def State.cached (s : State) (k : Nat) : Bool :=
  (s.nearAt (k / 4)).isSome || (s.evictAt (k / 4)).isSome || (s.wbAt (k / 4)).isSome ||
    match s.boardAt (k / 4) with
    | some b => !b.gone.getLsbD (k % 4)
    | none => false

/-- Set the poison bit of line k in every copy that a cache or buffer holds. -/
def State.poisonCopies (s : State) (k : Nat) : State :=
  let l := k / 4
  let i := k % 4
  let s1 := match s.nearAt l with | some x => s.setNear l { x with copy := x.copy.setPoison i } | none => s
  let s2 := match s1.evictAt l with | some e => s1.setEvict { e with copy := e.copy.setPoison i } | none => s1
  let s3 := match s2.boardAt l with | some b => s2.setBoard l { b with copy := b.copy.setPoison i } | none => s2
  match s3.wbAt l with | some w => s3.setWb { w with copy := w.copy.setPoison i } | none => s3

/-- Write all of line k where Table 4-2 finds it, as a host write would merge; it is no host request. -/
def State.putWhole (s0 : State) (k : Nat) (data : Line) (poison : Bool) : State :=
  let l := k / 4
  let i := k % 4
  let full : Enables := BitVec.allOnes 64
  let s := if s0.lineEpochMode l && s0.meetsCommitted l then s0.holdCommitted l else s0
  let put := fun (s : State) => s.writeNear l i data full poison
  match s.nearAt l, s.evictAt l with
  | some _, _ => put s
  | none, some e => s.setEvict (s.writeEvict e i data full poison)
  | none, none =>
    let s1 := s.boardRead (s.boardIx l)
    match s1.lowerSource l i with
    | .writeback =>
      match s1.wbAt l with
      | some w => s1.setWb { w with copy := s1.writeCopy w.copy i data full poison, again := w.issued || w.again }
      | none => s1
    | .zeros => put (s1.alloc l (s1.blankCopy l 0) false)
    | src => put ((s1.alloc l (s1.blankCopy l 0) true).fillFrom l src s.now (2 * msec) 8)

/-- The command stores no line: a write to the line is discarded by design (05 R135; 08 R225; 10 R288), or, for Inject Poison,
a cache or buffer holds the line. -/
def State.storesNothing (s : State) (m : Maint) : Bool :=
  s.writeDiscarded (m.line * 64) || (m.opcode == 0x4301 && s.cached m.line)

/-- The command can act now: no fill of its line is in flight, and what it stores has its place and its budget. -/
def State.maintReady (s : State) (m : Maint) : Bool :=
  let k := m.line
  let l := k / 4
  !m.merged && (s.fillAt l).isNone && !s.regionHolds 2 && !s.regionHolds 4 &&
    (s.storesNothing m ||
      (s.slotReady k && (if s.writeThrough then s.logReady && !s.logFull else s.stagingOk (s.classAt (k * 64))) &&
        (!s.lineEpochMode l || (!s.waitsEpoch l && (!s.meetsCommitted l || (s.canAlloc l && s.wbRoom (s.boardIx l)))))))

/-- Inject Poison lists its line; it returns when the list's row is written (02 R44). -/
def State.maintReply (s : State) (m : Maint) : State :=
  if m.opcode = 0x4301 then
    match s.addListed m.line 2 with
    | (s1, some i) =>
      if s1.link.wait.isSome then (s1.ownRow 3 2 i (s1.poisonRow i)).reply m.path m.opcode .success
      else s1.replyAfter m.path m.opcode [] [] [⟨3, 2, i, s1.poisonRow i, 1, 0⟩]
    | (s1, none) => s1.reply m.path m.opcode .success
  else s.reply m.path m.opcode .success

/-- Take the command's effect. In write-through mode the line that it stores goes to the log before it returns (09 R260). -/
def State.maintain (s0 : State) (m : Maint) : State :=
  let s := { s0 with link := { s0.link with maint := s0.link.maint.filter (fun x => x != m) } }
  let k := m.line
  let full : Enables := BitVec.allOnes 64
  if s.storesNothing m then
    (if m.opcode = 0x4301 then s.poisonCopies k else s).maintReply m
  else
    let inject := m.opcode == 0x4301
    let s1 := s.unclean.putWhole k m.data inject
    let s2 := if inject then { s1 with pfl := { s1.pfl with overlay := if s1.keptAside k then s1.pfl.overlay else Tab.del s1.pfl.overlay k } }
      else s1.merged k full false
    if s2.writeThrough then { s2 with link := { s2.link with maint := s2.link.maint ++ [{ m with merged := true }] } }
    else s2.judgeWriteback.maintReply m

/-- A new command: its effect now, or it waits (R105). -/
def State.startMaint (s : State) (m : Maint) : State :=
  if s.maintReady m && !s.link.maint.any (fun x => x.line == m.line) then s.maintain m
  else { s with link := { s.link with maint := s.link.maint ++ [m] } }

/-- The first waiting command of those that `p` accepts that can act, acts. -/
def State.retryMaint (s : State) (p : Maint → Bool) : State :=
  match s.link.maint.find? (fun m => p m && s.maintReady m) with
  | some m => s.maintain m
  | none => s

/-- The lines of these commands have reached the log: the commands return. -/
def State.maintLogged (s : State) (lines : List Nat) : State :=
  let done := s.link.maint.filter (fun m => m.merged && lines.contains m.line)
  done.foldl State.maintReply { s with link := { s.link with maint := s.link.maint.filter (fun m => !(m.merged && lines.contains m.line)) } }

end Sys2Proof.Machine
end

