-- ==== Sys2Proof/Machine/Request.lean ====
section
/-! DEFINITION. The host's memory requests: arrival, admission of held requests, write completions, and fills that land
(02 R39, R51, R57; 03 R58 to R62, R69; 04 R91, R105). -/

namespace Sys2Proof.Machine

/-! ## Arrival -/

/-- A request that no context serves: a read completes with poison, a write is discarded (02 R39, R57). Neither the data nor
the time is stated. -/
def State.turnAway (s : State) (id : Nat) (write : Bool) : State :=
  if write then s.out (.writeDone id false false devLoad)
  else { s with fresh := s.fresh + 1 }.out (.readData id (Config.freeLine s.fresh) true .none (Config.free s.fresh) devLoad)

/-- A CXL.mem request arrives: it takes an entry of the ingress buffer, and is admitted at once where nothing holds it. With
every entry of its kind taken there is no credit and nothing arrives; after an IDE failure none is accepted (02 R51). -/
def State.arrive (s0 : State) (hpa : Nat) (write : Bool) (data : Line) (e : Enables) (poison : Bool) : State :=
  if !s0.cxlUp || s0.link.ideBlocked || decide (ingressSize write ≤ s0.heldKind write) then s0
  else
    let id := s0.qos.nextId
    let s := { s0 with qos := { s0.qos with nextId := id + 1, lastReqAt := s0.now } }
    if s.thm.stopping.isSome then (if write then s else s.turnAway id false)
    else
    if !s.memReady then s.noteEarly.turnAway id write
    else
      match s.decodeHpa hpa with
      | none => (s.noteUnclaimed hpa write).turnAway id write
      | some a =>
        let d := a / 64 * 64
        let r : Req := ⟨id, s.now, write, s.classAt d, BitVec.ofNat 43 d, data, e, poison⟩
        if !s.qos.ingress.any (fun q => q.cls == r.cls) && s.admissible r then (s.takeIn r).wakeGddr else s.hold r

/-- CXL_MEM_READ. -/
def execCxlMemRead (t : Nat) (hpa : BitVec 64) (s : State) : Res := .next ((s.tick t).arrive hpa.toNat false 0 0 false)

/-- CXL_MEM_WRITE. -/
def execCxlMemWrite (t : Nat) (hpa : BitVec 64) (data : Line) (enables : Enables) (poison : Bool) (s : State) : Res :=
  .next ((s.tick t).arrive hpa.toNat true data enables poison)

/-! ## Write completions (03 R60) -/

/-- When an accepted write's completion is due: 70 ns after acceptance, plus what the link adds. -/
def State.dueAt (s : State) (accepted : Nat) : Nat := accepted + 70 + s.linkAdd + s.ideAdd

/-- WRITE_COMPLETION of context id `ctx`. In write-through mode the log sector comes first (09 R260). -/
def execWriteCompletion (t : Nat) (ctx : Nat) (s : State) : Res :=
  let s := s.tick t
  match s.qos.ctxs.find? (fun c => c.req.id == ctx && c.req.write) with
  | none => .next s
  | some c =>
    match c.acceptedAt with
    | none => .next s
    | some a =>
      if s.now < s.dueAt a || c.logWait then .next s
      else .next ((s.complete c.req .none (s.now - c.req.t0)).out (.writeDone ctx true false devLoad))

/-! ## Admitting held requests (03 R69, R76, R82) -/

/-- The first held request of each class that can be admitted, in order of arrival. -/
def firstPerClass : List Req → List Nat → List Req
  | [], _ => []
  | r :: l, seen => if seen.contains r.cls then firstPerClass l seen else r :: firstPerClass l (r.cls :: seen)

/-- The held request to take in: of the class of highest rank, between classes of one rank the oldest. -/
def State.nextHeld (s : State) : Option Req :=
  ((firstPerClass s.qos.ingress []).filter (fun r => s.admissible r)).foldl (fun m r =>
    match m with
    | none => some r
    | some x => if s.classRank x.cls < s.classRank r.cls then some r else m) none

/-- In viral a held request completes as any does: a read with poison, a write discarded (02 R55). -/
def State.turnAwayHeld (s : State) : State :=
  match s.qos.ingress with
  | [] => s
  | r :: rest => State.judgePause ({ s with qos := { s.qos with ingress := rest } }.turnAway r.id r.write)

/-- ADMIT_HELD_REQUEST. A maintenance command that waited acts first: requests to its line wait behind it (04 R105). -/
def execAdmitHeldRequest (t : Nat) (s0 : State) : Res :=
  let s := (s0.tick t).retryMaint (fun _ => true)
  if s.link.viral then .next s.turnAwayHeld
  else if !s.memReady then .next s
  else match s.nextHeld with
  | none => .next s
  | some r =>
    let s1 := { s with qos := { s.qos with ingress := s.qos.ingress.filter (fun q => q.id != r.id) } }
    .next (s1.judgePause.takeIn r).wakeGddr

/-! ## Fills that land (04 R89 to R91, R105; 08 R217) -/

/-- What waited for the fill (04 Table 4-10, 08 R225): 3 discard, 4 the new key phase. A discarded line goes unless a write has
been accepted since. -/
def State.afterFill (s : State) (l : Nat) (a : Nat) : State :=
  match s.nearAt l with
  | none => s
  | some x =>
    if a = 3 then (if x.copy.dirty = 0 then s.dropNear l else s)
    else s.setNear l { x with copy := { x.copy with keyGen := s.phaseOf l } }

/-- A line that is to be stored marked poisoned is dirty and poisoned in the near cache, unless a write covers it whole; a
partial write over a failed MAC raises event 0x402 (08 R217). -/
def State.keepBad (s : State) (l : Nat) (mask : BitVec 256) (i : Nat) : State :=
  match s.nearAt l with
  | none => s
  | some x =>
    let m := maskPart mask i
    if m = BitVec.allOnes 64 then s
    else
      let c := { x.copy with dirty := setBit4 x.copy.dirty i true, poison := setBit4 x.copy.poison i true }
      let s1 := (s.setNear l { x with copy := c, dirtySince := some (x.dirtySince.getD s.now) }).listLine (4 * l + i) 0
      if m = 0 then s1 else ev 0x402 1 [(4 * l + i) * 64, 0] 3 (s1.bump KEY_MAC.stored_poisoned)

/-- A read that waited for the fill completes with the line as it stood when the read arrived (03 R62). -/
def answerWaiter (f : Fill) (data : BitVec 2048) (poison : BitVec 4) (s : State) (c : Ctx) : State :=
  let k := c.req.dpa.toNat / 64
  let i := k % 4
  let line := mergeLine (part data i) c.snap c.snapMask
  let src := if f.src = .evict then .near else f.src
  s.answer c.req line (poison.getLsbD i && c.snapMask != BitVec.allOnes 64) src (s.figure k src true)

/-- The reads that wait for line l. -/
def State.waiters (s : State) (l : Nat) : List Ctx := s.qos.ctxs.filter (fun c => !c.req.write && c.req.dpa.toNat / 256 == l)

/-- A refetched clean line of an eviction-buffer entry. -/
def EvictEntry.land (e : EvictEntry) (data : BitVec 2048) (poison : BitVec 4) : EvictEntry :=
  let c := (List.range 4).foldl (fun (c : Copy) i =>
    if e.refetch.getLsbD i then
      { c with data := setPart c.data i (mergeLine (part data i) (c.line i) (maskPart e.mask i)),
               poison := setBit4 c.poison i (c.isPoison i || poison.getLsbD i) }
    else c) e.copy
  ⟨c, 0, 0, none⟩

/-- A fill that merges into a near line reads the words that writes have touched (04 R88). -/
def State.mergeReads (s : State) (l : Nat) : State :=
  match s.nearAt l with
  | none => s
  | some x => (List.range 4).foldl (fun s i =>
      if x.filling && maskPart x.mask i != 0 && x.copy.isDirty i then s.nearData l i else s) (s.nearTags (nearIx l))

/-- The fill's data is there: from the board, its write-back buffer or the overlay; or judged, from the medium. -/
def Fill.landable (f : Fill) : Bool :=
  match f.src with
  | .board | .writeback | .overlay | .zeros => true
  | _ => f.phase == .judged

/-- Merge the fill, answer its waiters, apply what waited. -/
def State.land (s : State) (f : Fill) : State :=
  let l := f.l.toNat
  let d := s.landData f
  let p := d.2
  let gone := f.after.contains 3
  let mask := match s.nearAt l with | some x => x.mask | none => 0
  let s1 := match s.nearAt l with
    | some x => if !x.filling then s else s.setNear l (if gone then x.merge 0 0 else x.merge d.1 p)
    | none => s
  let s2 := match s1.evictAt l with
    | some e => if e.refetch != 0 then s1.setEvict (e.land d.1 p) else s1
    | none => s1
  let s3 := (s2.waiters l).foldl (answerWaiter f d.1 p) s2
  let s4 := (s3.dropFill l)
  let s5 := [0, 1, 2, 3].foldl (fun s i => if f.macBad.getLsbD i && !gone then s.keepBad l mask i else s) s4
  (f.after.foldl (fun s a => s.afterFill l a) s5).retryMaint (fun m => m.line / 4 == l)

/-- The board slot of a fill is read as its words land: where a line of it turns out to be lost, the fill goes on from the medium
(04 Table 4-7). -/
def State.landBoard (s0 : State) (f : Fill) (u : BoardUpset) : State :=
  let l := f.l.toNat
  let s := (s0.upsetBoard (s0.boardIx l) u).boardRead (s0.boardIx l)
  if s.fab.fatal then s
  else if s.needsMedium l then
    match s.waiters l with
    | c :: _ => (s.dropFill l).startMedium l c.req.t0 (s.classEntry c.req.cls).target c.req.cls
    | [] => (s.dropFill l).startMedium l s.now (2 * msec) 8
  else s.land f

/-- LINE_FILL_LANDED. `near` strikes the words of the near slot that it lands in, `board` those of the board slot that it comes
from. -/
def execLineFillLanded (t : Nat) (x : Landing) (s : State) : Res :=
  let s := s.tick t
  let l := x.l.toNat
  match s.fillAt l with
  | none => .next s
  | some f =>
    if !f.landable || s.regionHolds 4 then .next s
    else
      let s1 := (s.upsetNear (nearIx l) x.near).mergeReads l
      .next (if s1.fab.fatal then s1 else if f.src = .board then s1.landBoard f x.board else s1.land f)

end Sys2Proof.Machine
end

