-- ==== Sys2Proof/Machine/Persist.lean ====
section
/-! DEFINITION. Persistence: the write-through log, arming, the dump, flush-home, and GPF (09 R244 to R264). -/

namespace Sys2Proof.Machine

/-! ## The write-through log (R260, R261) -/

/-- The newest cached copy of line k as a write-through log or a dump records it: the near cache once its bytes are all
there, then the buffers and the board cache. -/
def State.mergedLine (s : State) (k part : Nat) : Option DumpLine :=
  let l := k / 4
  let i := k % 4
  let of := fun (c : Copy) (bad : Bool) =>
    (⟨k, c.line i, c.isPoison i || bad, c.keyGen, c.epochMode, c.epochTag, part, false⟩ : DumpLine)
  match s.nearAt l, s.evictAt l, s.boardAt l, s.wbAt l with
  | some x, _, _, _ =>
    if x.filling && maskPart x.mask i != BitVec.allOnes 64 then none else some (of x.copy (badIn x.badData i != []))
  | none, some e, _, _ => some (of e.copy false)
  | none, none, some b, _ => some (of b.copy (badIn b.badData i != []))
  | none, none, none, some w => some (of w.copy false)
  | none, none, none, none => none

/-- Writes that wait for a log sector with line k. -/
def State.logWaiters (s : State) (k : Nat) : List Ctx :=
  s.qos.ctxs.filter (fun c => c.req.write && c.logWait && c.req.dpa.toNat / 64 == k)

/-- Append line k to the log in sector `n` and let its writes complete. -/
def State.logLine (s : State) (slot n k : Nat) : State :=
  match s.mergedLine k n with
  | none => s
  | some d =>
    let w := s.logWaiters k
    if w.isEmpty && !s.link.maint.any (fun m => m.merged && m.line == k) then s
    else
      let x := s.slotD slot
      let ctxs := s.qos.ctxs.map (fun c => if c.req.write && c.req.dpa.toNat / 64 == k then { c with logWait := false } else c)
      State.bump { s.setSlotD slot { x with lines := x.lines ++ [d] } with qos := { s.qos with ctxs := ctxs } }
        PFL_WT.log_writes w.length

/-- Send the completions that are due of the writes in a list. -/
def State.completeDue (s : State) (w : List Ctx) : State :=
  w.foldl (fun s c =>
    match s.qos.ctxs.find? (fun x => x.req.id == c.req.id && !x.logWait), c.acceptedAt with
    | some x, some a =>
      if s.now < s.dueAt a then s else (s.complete x.req .none (s.now - x.req.t0)).out (.writeDone x.req.id true false devLoad)
    | _, _ => s) s

/-- LOG_SECTOR_WRITTEN: a sector holds up to three lines. -/
def execLogSectorWritten (t : Nat) (lines : List (BitVec 37)) (s : State) : Res :=
  let s := s.tick t
  match s.pfl.slots.findIdx? (fun d => d.st == 4) with
  | none => .next s
  | some i =>
    if !s.writeThrough || s.pfl.dump.isSome || decide (3 < lines.length) then .next s
    else
      let w := lines.flatMap (fun k => s.logWaiters k.toNat)
      let n := largest ((s.slotD i).lines.map (·.part)) + 1
      let s1 := lines.foldl (fun s k => s.logLine i n k.toNat) s
      if (s1.slotD i).lines.length = (s.slotD i).lines.length then .next s
      else
        let s2 := s1.setSlotD i { (s1.slotD i) with logUsed := (s.slotD i).logUsed + 256 }
        .next ((s2.completeDue w).maintLogged (lines.map (·.toNat)))

/-- TREE_TOP_LOG_RECORD: the tree top with its next sequence goes into the log. -/
def execTreeTopLogRecord (t : Nat) (s : State) : Res :=
  let s := s.tick t
  match s.pfl.slots.findIdx? (fun d => d.st == 4) with
  | none => .next s
  | some i =>
    if s.writeThrough then
      let n := s.key.topSeq + 1
      let s1 := s.setSlotD i { (s.slotD i) with topSeq := some n }
      .next { s1 with key := { s1.key with topSeq := n } }
    else .next s

/-- SLOT_ARMED: a slot whose blocks are reset. -/
def execSlotArmed (t : Nat) (slot : Fin 2) (s : State) : Res :=
  let s := s.tick t
  .next (if (s.slotD slot.val).st = 0 ∧ (s.boot.running ∨ s.boot.complete) ∧ s.railsOn ∧ s.pfl.dump.isNone then
    s.armSlot slot.val 1 else s)

/-! ## The dump (R246 to R252, 01 R17, 11 R304) -/

/-- The last slot that the power-up has reached, in 10 µs. -/
def State.lastSlot (s : State) : Nat :=
  largest (((s.pwr.table.drop 1).map (·.on)).filter (fun n => decide (s.pwr.common + 10000 * n ≤ s.now)))

/-- An off request during a power-up: event 0x514, and the rails go down with no dump. The manual does not number the
causes. -/
def State.offRequest (s : State) : State :=
  let s1 := ev 0x514 1 [s.lastSlot, Config.free s.fresh] 255 { s with fresh := s.fresh + 1 }
  s1.beginPowerDown

/-- POWER_FAILURE. A region that restarts delays the dump until it is ready or its deadline passes. -/
def execPowerFailure (t : Nat) (s0 : State) : Res :=
  let s := s0.tick t
  let s1 := { s with pwr := { s.pwr with qualified := false, okSince := none } }
  if s1.pfl.dump.isSome || s1.pwr.sequence == 2 || s1.railsOff then .next s1
  else if s1.pwr.sequence = 1 then .next (s1.offRequest)
  else match s1.fab.restarts with
  | [] => .next (s1.beginDump 0)
  | r => .next { s1 with fab := { s1.fab with restarts := r.map (fun x => { x with dumpWaits := true }), queue := [] } }

def dumpStage (p : DumpPart) : Nat :=
  match p with
  | .header => 0
  | .headDirectory => 1
  | .nearLines => 2
  | .boardLines => 3
  | .journalTail => 4
  | .epochState => 5
  | .integrity => 6
  | .tailDirectory => 7

/-- The dirty lines of a copy in part p of the directory (Table 9-7); `bad` gives the lines with an error found as they are
read (Tables 4-3, 4-7). -/
def Copy.dumpLines (c : Copy) (bad : Nat → Bool) (p : Nat) (held : Bool) : List DumpLine :=
  ([0, 1, 2, 3].filter (fun i => c.isDirty i)).map (fun i =>
    ⟨c.l.toNat * 4 + i, c.line i, c.isPoison i || bad i, c.keyGen, c.epochMode, c.epochTag, p, held⟩)

/-- The dump reaches the board slot, and the write-back buffer, of a board index (01 Table 1-7). -/
def State.dumpReaches (s : State) (ix : Nat) : Bool := !s.fab.lostCtrl.getLsbD (ix % 4)

/-- Every line that the directory lists, in its order. A superseded entry is not listed, an entry held for epoch is. -/
def State.dumpList (s : State) : List DumpLine :=
  s.cch.near.flatMap (fun e => e.2.copy.dumpLines (fun i => badIn e.2.badData i != []) 0 false) ++
  s.cch.evict.flatMap (fun e => e.copy.dumpLines (fun _ => false) 1 false) ++
  (s.cch.board.filter (fun e => s.dumpReaches e.1)).flatMap (fun e => e.2.copy.dumpLines (fun i => badIn e.2.badData i != []) 2 false) ++
  (s.cch.wb.filter (fun w => (!w.superseded || w.heldForEpoch) && s.dumpReaches (s.boardIx w.copy.l.toNat))).flatMap (fun w => w.copy.dumpLines (fun _ => false) 3 w.heldForEpoch)

/-- What the slot holds after a part of the dump is written. -/
def State.dumpPart (s : State) (d : Dump) (x : DumpSlot) (p : DumpPart) : DumpSlot :=
  match p with
  | .header => { DumpSlot.atReset with st := 2, seq := x.seq, key := x.key, cause := d.cause,
                                         calendar := s.cal.calendar, budget := s.pfl.budget, staged := d.staged }
  | .headDirectory => { x with headSealed := true, lines := s.dumpList, tail := s.map.tail,
                               epoch := some (s.ring.committed, s.ring.prepared, s.ring.holds) }
  | .nearLines => { x with dataParts := 1 }
  | .boardLines => { x with dataParts := 2 }
  | .journalTail => { x with tail := s.map.tail }
  | .epochState => x
  | .integrity => { x with topSeq := some (s.key.topSeq + 1),
                           ctrs := s.key.dirtyNodes.foldl (fun m k => Tab.put m k (Tab.findD s.key.nodes k Counter.zero))
                             (s.key.dirtyCtrs.foldl (fun m p => Tab.put m p (s.ctr p)) []) }
  | .tailDirectory => x

/-- What the dump finds as it reads the near cache's dirty lines (04 R88, Table 4-3): tag errors with the directory, data errors
with the lines themselves. An error in a clean line changes nothing. -/
def State.dumpReads (s : State) (p : DumpPart) : State :=
  let dirty := s.cch.near.filter (fun e => e.2.copy.dirty != 0)
  match p with
  | .headDirectory => dirty.foldl (fun s e => s.nearTags e.1) s
  | .nearLines => dirty.foldl (fun s e => [0, 1, 2, 3].foldl (fun s i =>
      if e.2.copy.isDirty i then s.nearData e.2.copy.l.toNat i else s) s) s
  | _ => s

/-- DUMP_PART_WRITTEN: the parts follow one another in the order of Table 9-8. -/
def execDumpPartWritten (t : Nat) (p : DumpPart) (s : State) : Res :=
  let s := s.tick t
  match s.pfl.dump with
  | none => .next s
  | some d =>
    if d.stage = dumpStage p then
      let r := s.dumpReads p
      let s1 := r.setSlotD d.slot (r.dumpPart d (r.slotD d.slot) p)
      .next { s1 with pfl := { s1.pfl with dump := some { d with stage := d.stage + 1 } } }
    else .next s

/-- DUMP_TRAILER_WRITTEN: the slot is Holding, the rails but rail 0 go off, and VSTORE is discharged. With the input back the
next start waits for the minimum off time. -/
def execDumpTrailerWritten (t : Nat) (energy : Nat) (s : State) : Res :=
  let s := s.tick t
  match s.pfl.dump with
  | none => .next s
  | some d =>
    if d.stage ≠ 8 then .next s
    else
      let x := s.slotD d.slot
      let s1 := s.drainAll.setSlotD d.slot { x with st := 2, trailer := true }
      let s2 := ((((s1.setReg PFL_LAST_DUMP.lines x.lines.length).setReg PFL_LAST_DUMP.duration_ms
        ((s.now - d.t0) / msec)).setReg PFL_LAST_DUMP.energy energy).setReg PFL_LAST_DUMP.outcome 1).bump PFL_COUNTS.dumps
      let p := { s2.pfl with dump := none, discharging := true }
      let back := d.inputBack.isSome || (!s.boot.perst && s.inputsOk && !s.pwr.needPerst)
      let w := { s2.pwr with onHeld := back }
      .next (State.beginPowerDown { s2 with pfl := p, pwr := w })

/-- INPUT_RETURN_DURING_DUMP. -/
def execInputReturnDuringDump (t : Nat) (s : State) : Res :=
  let s := s.tick t
  match s.pfl.dump with
  | none => .next s
  | some d =>
    if d.cause ≠ 0 ∨ d.inputBack.isSome then .next s
    else
      let p := { s.pfl with dump := some { d with inputBack := some s.now } }
      .next (ev 0x48E 0 [(s.now - d.t0) / msec] 1 { s with pfl := p, pwr := { s.pwr with okSince := some s.now } })

/-! ## Flush-home (R254; 08 R215, R222) -/

/-- Rows of partition 5 that hold the tree top, the carry boundary and the epoch state copy (the rows are the model's). -/
abbrev topRow : Nat := 2002
abbrev boundaryRow : Nat := 2003
abbrev epochRow : Nat := 2005

/-- Begin flush-home: every dirty line goes home. -/
def State.beginFlush (s : State) : State :=
  if s.pfl.flush.isSome then s
  else
    { s with pfl := { s.pfl with flush := some s.now, flushStart := s.now, flushBytes := s.staged },
             cch := { s.cch with writeback := true } }

/-- Nothing dirty is left, and no write home is on its way. -/
def State.flushed (s : State) : Bool :=
  decide (s.staged = 0) && s.cch.wb.isEmpty && s.map.homes.all (fun e => isMove e.2.kind)

/-- Dirty counter blocks and nodes go home, then the journal tail (R254). -/
def State.metadataHome (s : State) : State := ((s.key.dirtyCtrs.foldl State.ctrHome s).nodesToHome).flushTail

/-- The carry boundary as tally partition 5 holds it (08 R222). -/
def State.saveBoundary (s : State) : State :=
  match s.key.sweep with
  | none => s
  | some w =>
    State.ownRow { s with key := { s.key with sweep := some { w with saved := w.boundary } } } 1 5 boundaryRow (le 8 w.boundary)

/-- FLUSH_HOME_COMPLETE: the tree top goes to partition 5, the clean mark and the lifetime counts to partition 1 (13 R353); reference
groups, threshold tables and the scrub position are written (07 R181, R183, R194). -/
def execFlushHomeComplete (t : Nat) (s0 : State) : Res :=
  let s := s0.tick t
  match s.pfl.flush with
  | none => .next s
  | some f =>
    if !s.flushed then .next s
    else
      let s1 := s.metadataHome.saveBoundary.flushRepeats.writeRefs.saveTables.savePosition
      let n := s1.key.topSeq + 1
      let s2 := State.ownRow { s1 with key := { s1.key with topSeq := n, tallyTop := some n } } 1 5 topRow (le 8 n)
      let c := s2.ring.committed
      let s3 := State.ownRow { s2 with pfl := { s2.pfl with flush := none, flushStart := s.now, clean := true },
                                       cch := { s2.cch with writeback := false },
                                       ring := { s2.ring with tallyEpoch := some c } } 1 5 epochRow (le 8 c)
      .next (ev 0x48D 0 [s.pfl.flushBytes, (s.now - f) / msec] 1 (s3.ownRow 6 1 2 s3.shutdownRow).saveLifetime)

/-! ## GPF (R264) -/

/-- GPF_PHASE1: acknowledged at once (answer kind 12). -/
def execGpfPhase1 (s : State) : Res := .next (if s.cxlUp then s.out (.answer 12 []) else s)

/-- GPF_PHASE2: completed with nothing written (answer kind 13). -/
def execGpfPhase2 (s : State) : Res :=
  .next (if s.cxlUp then { s with pfl := { s.pfl with gpf := true } }.out (.answer 13 []) else s)

end Sys2Proof.Machine
end

