-- ==== Sys2Proof/Machine/Power.lean ====
section
/-! DEFINITION. Supplies and the rail sequencer: input levels, power-up, power-down, rails lost, the power brake
(11 R297 to R307, 14 R392). -/

namespace Sys2Proof.Machine

def State.rail (s : State) (r : Nat) : Rail := s.pwr.rails.getD r Rail.atReset
def State.setRail (s : State) (r : Nat) (x : Rail) : State := { s with pwr := { s.pwr with rails := setAt s.pwr.rails r x } }
def State.slotOf (s : State) (r : Nat) : SlotEntry := s.pwr.table.getD r ⟨0, 0, 0⟩

/-- The counters of R308 saturate. -/
def sat16 (n : Nat) : Nat := min 65535 (n + 1)

/-! ## Power-up (R303) -/

/-- Nothing holds a power-up back: no latched stop, no minimum off time, no thermal hold, no sequence. -/
def State.mayPowerUp (s : State) : Bool :=
  !s.pwr.latchedOff && !s.pwr.needPerst && s.pwr.offUntil.isNone && s.thm.heldAt.isNone && s.pwr.sequence == 0 && s.railsOff &&
    s.pfl.dump.isNone

/-- An on request: a power-up begins, or it is held until the power-down that runs has been complete for 50 ms (Table
11-5). -/
def State.onRequest (s : State) : State :=
  if s.pwr.sequence = 2 then
    (if s.pwr.onHeld then s else ev 0x515 0 [50] 255 { s with pwr := { s.pwr with onHeld := true } })
  else if s.downRuns then
    (if s.pwr.onHeld then s
     else ev 0x515 0 [50] 255 { s with pwr := { s.pwr with onHeld := true, offUntil := some (s.downEnd + 50 * msec) } })
  else if s.mayPowerUp then s.beginPowerUp 1 else s

/-- INPUT_QUALIFIED: the levels have held for 5 ms. -/
def execInputQualified (t : Nat) (s : State) : Res :=
  let s := s.tick t
  let held := match s.pwr.okSince with | some a => decide (a + 5 * msec ≤ s.now) | none => false
  .next (if s.inputsOk && held && !s.pwr.qualified then State.onRequest { s with pwr := { s.pwr with qualified := true } } else s)

/-- RAIL_ENABLE_SLOT. Rail 0 is never switched. -/
def execRailEnableSlot (t : Nat) (rail : Fin 14) (s : State) : Res :=
  let s := s.tick t
  let r := rail.val
  let x := s.rail r
  .next (if r ≠ 0 ∧ s.pwr.sequence = 1 ∧ !x.enabled ∧ s.pwr.common + 10000 * (s.slotOf r).on ≤ s.now then
    s.setRail r { x with enabled := true, pg := false, enabledAt := s.now } else s)

/-- RAIL_POWER_GOOD: later than half its timeout it counts late. The last one ends the power-up; with rail 13 the charger
runs. -/
def execRailPowerGood (t : Nat) (rail : Fin 14) (s : State) : Res :=
  let s := s.tick t
  let r := rail.val
  let x := s.rail r
  let limit := 10000 * (s.slotOf r).pg
  if r = 0 ∨ s.pwr.sequence ≠ 1 ∨ !x.enabled ∨ x.pg ∨ x.enabledAt + limit < s.now then .next s
  else
    let late := decide (limit < 2 * (s.now - x.enabledAt))
    let s1 := s.setRail r { x with pg := true, latePg := if late then sat16 x.latePg else x.latePg }
    let s2 := if late then ev 0x510 0 [r, (s.now - x.enabledAt) / usec] 255 s1 else s1
    let s3 := if r = 13 then { s2 with pfl := { s2.pfl with charging := true, discharging := false } } else s2
    .next (if s3.railsOn then { s3 with pwr := { s3.pwr with sequence := 0, attempts := 0 } } else s3)

/-! ## Power-down (R304, R305) -/

/-- Rail r has done its part of the power-down; the last one completes it. -/
def State.railDone (s : State) (r : Nat) : State :=
  let c := s.pwr.covered &&& ~~~(BitVec.twoPow 14 r)
  let s1 := { s with pwr := { s.pwr with covered := c } }
  if c = 0 then s1.powerDownDone else s1

def State.covers (s : State) (r : Nat) : Bool := s.pwr.sequence == 2 && s.pwr.covered.getLsbD r

/-- RAIL_DISABLE_SLOT. With rail 13 the charger stops and VSTORE is discharged. -/
def execRailDisableSlot (t : Nat) (rail : Fin 14) (s : State) : Res :=
  let s := s.tick t
  let r := rail.val
  let x := s.rail r
  if !s.covers r || !x.enabled || decide (s.now < s.pwr.common + 10000 * (s.slotOf r).off) then .next s
  else
    let s1 := s.setRail r { x with enabled := false, disabledAt := s.now }
    let s2 := if r = 13 then { s1 with pfl := { s1.pfl with charging := false, discharging := true } } else s1
    .next (if x.pg then s2 else s2.railDone r)

/-- RAIL_PG_DEASSERT: expected after its disable; before its off slot an early loss, which is skipped. -/
def execRailPgDeassert (t : Nat) (rail : Fin 14) (s : State) : Res :=
  let s := s.tick t
  let r := rail.val
  let x := s.rail r
  if !x.pg then .next s
  else if s.covers r then
    (if x.enabled then .next (ev 0x50F 1 [r, 0] 255 (s.setRail r { x with pg := false, pgLost := sat16 x.pgLost }))
     else .next ((s.setRail r { x with pg := false }).railDone r))
  else if s.pwr.sequence = 1 then .next (s.setRail r { x with pg := false })
  else .next s

/-- RAIL_PG_TIMEOUT: a first failed power-up is tried again after the minimum off time, a second leaves the rails off. In a
power-down the rail is skipped. -/
def execRailPgTimeout (t : Nat) (rail : Fin 14) (s : State) : Res :=
  let s := s.tick t
  let r := rail.val
  let x := s.rail r
  let limit := 10000 * (s.slotOf r).pg
  if s.pwr.sequence = 1 ∧ x.enabled ∧ !x.pg ∧ x.enabledAt + limit ≤ s.now then
    let s1 := ev 0x50E 2 [r, s.pwr.attempts] 255 (s.setRail r { x with timeouts := sat16 x.timeouts })
    let first := decide (s1.pwr.attempts = 1)
    .next (State.offRequest { s1 with pwr := { s1.pwr with onHeld := first, latchedOff := !first } })
  else if s.covers r ∧ !x.enabled ∧ x.pg ∧ x.disabledAt + limit ≤ s.now then
    .next ((ev 0x50F 1 [r, 1] 255 (s.setRail r { x with timeouts := sat16 x.timeouts })).railDone r)
  else .next s

/-- MINIMUM_OFF_TIME_END. A power-up that follows a failed one is the second attempt. -/
def execMinimumOffTimeEnd (t : Nat) (s : State) : Res :=
  let s := s.tick t
  match s.pwr.offUntil with
  | none => .next s
  | some u =>
    if s.now < u then .next s
    else
      let s1 := { s with pwr := { s.pwr with offUntil := none, onHeld := false } }
      .next (if s1.inputsOk && s1.mayPowerUp then s1.beginPowerUp (s1.pwr.attempts + 1) else s1)

/-! ## Rails lost while serving (R306) -/

/-- Region A stops: rail 0 is lost, and every other rail with it (R306, 12 R343). What region A held is gone. -/
def State.vauxGone (s : State) : State :=
  let s1 := (s.powerFailed (s.boot.complete || s.pfl.flush.isSome) 0).loseVolatile.resetRegs 3
  let rails := s1.pwr.rails.map (fun r => r.off s.now)
  let i := { s.pwr.inputs with vaux := 0 }
  let p : Power := { Power.atReset with inputs := i, rails := rails }
  { s1 with pwr := p, tly := { s1.tly with queue := [], deferred := false, rail0 := false, holdUp := false },
            evt := { s1.evt with deferred := [] },
            cal := { s1.cal with vauxContinuous := false, restored := false }, ring := { s1.ring with bypass := true },
            thm := { s1.thm with sensors := Thermal.atReset.sensors, levels := Thermal.atReset.levels, stopping := none,
                                 heldAt := none },
            link := { s1.link with heldDown := false, viral := false, timestamp := none } }

/-- Action code of a rail (Table 11-6). -/
def railAction (r : Nat) : Nat := if r ≤ 3 then 1 else if r ≤ 5 then 2 else if r ≤ 12 then 3 else 4

/-- What the card does on the loss of a rail. -/
def State.railLost (s : State) (r : Nat) : State :=
  match railAction r with
  | 1 => (s.stopServing.powerFailed (s.boot.complete || s.pfl.flush.isSome) 0).beginPowerDown
  | 2 => s.fatalHandling 255 (0x500 + r)
  | 3 => s.fatalNoDump 255 (0x500 + r)
  | _ => State.startLog (State.enterWt { s with pfl := { s.pfl with health := 2, charging := false } } 1)

/-- RAIL_PG_LOST. A regulator's over-temperature shutdown is counted too; in a power-down the rail is skipped (R305);
in a power-up and in the dump rail set the card does nothing about it. -/
def execRailPgLost (t : Nat) (rail : Fin 14) (overTemp : Bool) (s : State) : Res :=
  let s := s.tick t
  let r := rail.val
  let x := s.rail r
  if r = 0 then .next (if s.pwr.inputs.vaux = 0 then s else s.vauxGone)
  else if !x.enabled || !x.pg then .next s
  else
    let y := { x with pg := false, pgLost := sat16 x.pgLost, regOt := if overTemp then sat16 x.regOt else x.regOt }
    if s.pwr.sequence = 0 then
      let s1 := ev (0x500 + r) (if r = 13 then 2 else 3) [r, railAction r] 255 (s.setRail r y)
      let s2 := if overTemp then ev 0x511 1 [r] 255 s1 else s1
      .next (s2.railLost r)
    else if s.covers r then .next (ev 0x50F 1 [r, if overTemp then 2 else 0] 255 (s.setRail r y))
    else .next (s.setRail r { y with pgLost := x.pgLost })

/-! ## Input levels (R297, R304, 14 R393) -/

/-- Power is there but for the auxiliary connector. -/
def auxAbsent (i : Inputs) : Bool := decide (11000 < i.slot12) && decide (3000 < i.v33) && i.aux12 == 0

/-- INPUT_LEVEL_CHANGE: levels as measured, 3.3 Vaux staying present. With the rails off already, the loss of the inputs is the
entry to D3cold, which takes the Power class (00_scope R9). -/
def execInputLevelChange (t : Nat) (i : Inputs) (s : State) : Res :=
  let s := s.tick t
  if s.pwr.inputs.vaux = 0 then .next s
  else
    let j := { i with vaux := if i.vaux = 0 then s.pwr.inputs.vaux else i.vaux }
    let s1 := { s with pwr := { s.pwr with inputs := j } }
    let lost := s.inputsOk && !s1.inputsOk
    let s2 := { s1 with pwr := { s1.pwr with qualified := s.pwr.qualified && s1.inputsOk,
                                             okSince := if s1.inputsOk then some (s.pwr.okSince.getD s.now) else none,
                                             latchedOff := s.pwr.latchedOff && !lost,
                                             needPerst := s.pwr.needPerst && !(lost && s.railsOff) } }
    let s3 := if auxAbsent j && !auxAbsent s.pwr.inputs && s.railsOff then
        ev 0x512 1 [j.slot12, j.aux12, j.v33, j.vaux] 255 s2
      else if lost && s.thm.heldAt.isSome then
        State.endAttempt { s2 with thm := { s2.thm with heldAt := none } }
      else s2
    if s3.railsOff || s3.pfl.dump.isSome then .next (if lost && s3.railsOff then s3.resetRegs 3 else s3)
    else if s3.pwr.sequence = 2 then .next (if j.slot12 = 0 ∧ j.aux12 = 0 then s3.dropRails else s3)
    else if j.v33 ≤ 3000 then .next (if s3.pwr.sequence = 1 then s3.offRequest else s3.stopServing.beginPowerDown)
    else .next s3

/-! ## The power brake (14 R392) -/

/-- POWER_BRAKE_APPLY: ignored by a dump and an orderly stop. -/
def execPowerBrakeApply (t : Nat) (s : State) : Res :=
  let s := s.tick t
  .next (if s.pwr.brake.isSome || s.pfl.dump.isSome || s.thm.stopping.isSome || s.railsOff then s
    else
      let s1 := s.bump PWR_BRAKE.assertions
      let last := s1.reg PWR_BRAKE.last_ms
      ev 0x531 0 [1, last] 255 { s1 with pwr := { s1.pwr with brake := some s.now } })

/-- POWER_BRAKE_RELEASE. -/
def execPowerBrakeRelease (t : Nat) (s : State) : Res :=
  let s := s.tick t
  match s.pwr.brake with
  | none => .next s
  | some b =>
    let ms := (s.now - b) / msec
    let s1 := { s with pwr := { s.pwr with brake := none } }
    .next (ev 0x531 0 [0, ms] 255 (s1.setReg PWR_BRAKE.last_ms (min 65535 ms)))

end Sys2Proof.Machine
end

