-- ==== Sys2Proof/Machine/Thermal.lean ====
section
/-! DEFINITION. Sensors, thermal levels and throttles, thermal shutdown and the orderly stop, the neighbours' temperature
rule, the bracket LEDs (01 R22; 11 R310 to R321; 14 R396). -/

namespace Sys2Proof.Machine

/-! ## Sensors and regions (11 Table 11-8, 01 Tables 1-3 and 1-4) -/

/-- Neighbours of a region index, in ascending order. -/
def regionNeighbours (r : Nat) : List Nat :=
  [[1], [0, 2, 3, 4], [1, 4], [1, 4], [1, 2, 3, 5, 6, 7, 8], [4, 6], [4, 5, 7], [4, 6, 8], [4, 7]].getD r []

/-- The pairs of paced neighbours. -/
def pacedPairs : List (Nat × Nat) :=
  [(1, 2), (1, 3), (1, 4), (2, 4), (3, 4), (4, 5), (4, 6), (4, 7), (4, 8), (5, 6), (6, 7), (7, 8)]

def State.setSensor (s : State) (i : Nat) (x : Sensor) : State :=
  { s with thm := { s.thm with sensors := setAt s.thm.sensors i x } }

/-- The default neighbour table of the image (11 R311). -/
def defaultNeighbours : List (List Nat) :=
  (List.range 64).map (fun i =>
    let l :=
      if i < 24 then
        let r := ((List.range 9).find? (fun r => (regionSensors r).contains i)).getD 0
        (regionSensors r).filter (fun j => j != i) ++ (regionNeighbours r).flatMap regionSensors
      else if i < 56 then
        let c := (i - 24) / 2
        let h := (i - 24) % 2
        (if c = 0 then [] else [24 + 2 * (c - 1) + h]) ++ (if c = 15 then [] else [24 + 2 * (c + 1) + h])
      else if i < 60 then [56, 57, 58, 59].filter (fun j => j != i)
      else if i < 62 then [121 - i]
      else []
    (l ++ [255, 255, 255, 255]).take 4)

/-! ## Cross-check (R312) -/

/-- Readings of a sensor's usable neighbours: fitted, sampled, not broken. -/
def State.usable (s : State) (i : Nat) : List Int :=
  ((s.thm.neighbours.getD i []).filter (fun j => decide (j < 64) && s.sensorFitted j && (s.sensor j).sampled &&
    !(s.sensor j).broken)).map (fun j => (s.sensor j).reading)

/-- Twice the median of a list of readings: the mean of the middle two of an even number. -/
def median2 (l : List Int) : Int :=
  let q := l.insertionSort (· ≤ ·)
  let n := q.length
  q.getD ((n - 1) / 2) 0 + q.getD (n / 2) 0

/-- A reading is more than 12 °C from the median of two or more usable neighbours. -/
def deviates (t : Int) (l : List Int) : Bool :=
  decide (2 ≤ l.length) && (decide (24 < 2 * t - median2 l) || decide (24 < median2 l - 2 * t))

/-- The sensors of a kind that have given a reading. -/
def State.ofKind (s : State) (k : Nat) : List Nat :=
  (List.range 64).filter (fun i => sensorKind i == k && s.sensorFitted i && (s.sensor i).sampled)

/-- What replaces a broken sensor: its usable neighbours' highest reading, else the highest of its kind. -/
def State.stands (s : State) (i : Nat) : Int :=
  match maxInt (s.usable i) with
  | some x => x
  | none => (maxInt (((s.ofKind (sensorKind i)).filter (fun j => j != i && !(s.sensor j).broken)).map
      (fun j => (s.sensor j).reading))).getD (s.sensor i).reading

/-- Value of a sensor for shutdown. -/
def State.stopOf (s : State) (i : Nat) : Int :=
  let x := s.sensor i
  if x.deviating && !x.broken then (maxInt (s.usable i)).getD x.used else x.used

/-! ## Levels (R313 to R317) -/

/-- A level of temperature n with hysteresis h, given whether it was entered and the readings of its kind. -/
def levelOf (was : Bool) (n h : Nat) (l : List Int) : Bool :=
  l.any (fun t => decide ((n : Int) ≤ t)) || (was && !l.all (fun t => decide (t < (n : Int) - h)))

/-- The levels of kind k as they stand by the present readings. The store has no throttle level 2. -/
def State.judged (s : State) (k : Nat) : KindLevel :=
  let e := s.limit k
  let was := s.kindLevel k
  let used := (s.ofKind k).map s.usedOf
  let stop := (s.ofKind k).map s.stopOf
  { warning := levelOf was.warning e.warning e.hyst used, t1 := levelOf was.t1 e.t1 e.hyst used,
    t2 := k != 3 && levelOf was.t2 e.t2 e.hyst used, shutdown := levelOf was.shutdown e.shutdown e.hyst stop }

/-- A used reading is near a throttle or shutdown level, or rises faster than 2 °C/s (R313). -/
def State.hot (s : State) (i : Nat) (slope : Int) : Bool :=
  let e := s.limit (sensorKind i)
  let t := s.usedOf i
  let near := fun (n : Nat) => decide (n ≠ 0) && decide ((n : Int) - 6 ≤ t) && decide (t ≤ (n : Int) + 6)
  decide (20 < slope) || (decide (sensorKind i < 4) && (near e.t1 || near e.t2 || near e.shutdown))

/-! ## The neighbours' temperature rule (01 R22) -/

def State.pairDiff (s : State) (p : Nat × Nat) : Nat :=
  match s.regionTemp p.1, s.regionTemp p.2 with
  | some a, some b => (a - b).natAbs
  | _, _ => 0

/-- A list of pairs with one put in or taken out. -/
def mark (l : List (Nat × Nat)) (p : Nat × Nat) (on off : Bool) : List (Nat × Nat) :=
  if off then l.filter (fun q => q != p) else if on && !l.contains p then l ++ [p] else l

def heatOne (s : State) (p : Nat × Nat) : State :=
  let d := s.pairDiff p
  let f := { s.fab with heatHold := mark s.fab.heatHold p (decide (26 ≤ d)) (decide (d ≤ 24)),
                        hot30 := mark s.fab.hot30 p (decide (30 ≤ d)) (decide (d ≤ 24)) }
  if 30 ≤ d ∧ !s.fab.hot30.contains p then ev 0x569 1 [p.1, p.2, d] 255 { s with fab := f } else { s with fab := f }

/-! ## Shutdown (R318, R319) -/

/-- Projection in ms; none is infinite. The slope is in 0.1 °C/s. -/
def tLeft (limit : Nat) (t slope : Int) : Option Nat :=
  if slope ≤ 0 then none else some ((((limit : Int) - t) * 10000 / slope).toNat)

/-- The orderly stop begins: admission stops, held reads complete with poison, flush-home runs. -/
def State.beginStop (s : State) : State :=
  let held := s.qos.ingress
  let s1 := { s with thm := { s.thm with stopping := some s.now },
                     qos := { s.qos with ingress := [], pause := none, epochWaiters := [] } }
  (held.foldl (fun s r => if r.write then s else s.turnAway r.id false) s1).beginFlush

/-- Kind k enters shutdown at sensor i: event 0x528 + k, then the path of R318. -/
def State.enterShutdown (s : State) (i k : Nat) (slope : Int) : State :=
  let e := s.limit k
  let t := s.stopOf i
  let left := tLeft (absLimit e) t slope
  let past := decide ((absLimit e : Int) ≤ s.usedOf i)
  let short := match left with | some n => decide (n < 400) | none => false
  let path := if past then 4 else if short then 3 else 1
  let data := [i, (t + 40).toNat, (slope % 65536).toNat, msOf left, path]
  if s.thm.stopping.isSome then ev (0x528 + k) 3 data 255 s
  else
    let x : ThermalStop := ⟨i, t, slope, left, path, 0, k⟩
    let s1 := ev (0x528 + k) 3 data 255 { s with thm := { s.thm with stop := some x, recheck := true } }
    if past then s1 else if short then s1.beginDump 2 else s1.beginStop

/-- The orderly stop falls back to the dump when under 0.3 s is left before flush-home has ended. -/
def State.judgeStop (s : State) (i : Nat) (slope : Int) : State :=
  let k := sensorKind i
  match s.thm.stopping, tLeft (absLimit (s.limit k)) (s.usedOf i) slope with
  | some t0, some n =>
    if n < 300 && s.pfl.flush.isSome && (s.kindLevel k).shutdown then
      let stop := s.thm.stop.map (fun x => { x with path := 2 })
      ev 0x52F 2 [(s.now - t0) / msec, n] 255 (State.beginDump { s with thm := { s.thm with stop := stop } } 2)
    else s
  | _, _ => s

/-- The absolute limit: every rail but rail 0 goes off at once, even during a dump. -/
def State.judgeAbsolute (s : State) (i : Nat) (slope : Int) : State :=
  let k := sensorKind i
  let lim := absLimit (s.limit k)
  if k < 4 ∧ (lim : Int) ≤ s.usedOf i ∧ !s.railsOff then
    let x := match s.thm.stop with
      | some x => if s.thm.recheck then { x with path := 4 } else ⟨i, s.usedOf i, slope, tLeft lim (s.usedOf i) slope, 4, 0, k⟩
      | none => ⟨i, s.usedOf i, slope, tLeft lim (s.usedOf i) slope, 4, 0, k⟩
    let z := s.powerFailed (s.boot.complete || s.pfl.flush.isSome) (if s.pfl.dump.isSome then s.pfl.failCause else 1)
    State.dropRails { z with thm := { s.thm with stop := some x, recheck := true },
                             pwr := { s.pwr with needPerst := true }, pfl := { z.pfl with discharging := true } }
  else s

/-! ## SENSOR_SAMPLE -/

/-- The sample is taken and cross-checked; the third deviating sample in a row breaks the sensor. -/
def State.takeSample (s : State) (i : Nat) (t slope : Int) : State :=
  let x := s.sensor i
  let l := s.usable i
  let dev := deviates t l
  let run := if dev then x.devRun + 1 else 0
  let broken := x.broken || decide (3 ≤ run)
  let y := { x with reading := t, used := t, sampled := true, deviating := dev, devRun := run, broken := broken, slope := slope }
  let s1 := s.setSensor i y
  let s2 := if broken then s1.setSensor i { y with used := s1.stands i } else s1
  if broken && !x.broken then ev 0x52C 1 [i, (t + 40).toNat, (median2 l / 2 + 40).toNat] 255 s2 else s2

/-- Fast sampling begins with a hot sample and ends after 100 that are not. -/
def State.pacedSampling (s : State) (i : Nat) (slope : Int) : State :=
  let x := s.sensor i
  if s.hot i slope then s.setSensor i { x with fast := true, calm := 0 }
  else s.setSensor i { x with fast := x.fast && decide (x.calm + 1 < 100), calm := x.calm + 1 }

/-- What the sensor tells the dies and GDDR7 devices that it stands for, and the highest reading of its kind (R308). -/
def State.spread (s : State) (i : Nat) : State :=
  let k := sensorKind i
  let t := s.usedOf i
  let s1 := if k < 4 then
      { s with thm := { s.thm with highest := setAt s.thm.highest k (max (s.thm.highest.getD k (-40)) t) } } else s
  if k = 1 then
    let c := (i - 24) / 2
    let h := (i - 24) % 2
    let put := fun (ds : List Die) (p : Nat) => setAt ds (4 * c + p) { ds.getD (4 * c + p) Die.atReset with tempC := t }
    { s1 with med := { s1.med with dies := put (put s1.med.dies (2 * h)) (2 * h + 1) } }
  else if k = 2 then
    { s1 with cch := { s1.cch with gddr := s1.cch.gddr.mapIdx (fun j d => if 56 + j = i then { d with tempC := t } else d) } }
  else s1

/-- The levels of the sensor's kind are judged, with their events and actions. -/
def State.judgeKind (s : State) (i : Nat) (slope : Int) : State :=
  let k := sensorKind i
  let was := s.kindLevel k
  let now := s.judged k
  let t := (s.usedOf i + 40).toNat
  let s1 := { s with thm := { s.thm with levels := setAt s.thm.levels k now } }
  let s2 := if now.warning && !was.warning then
      (let a := ev (0x520 + k) 1 [i, t] 255 s1
       if k = 3 then a.abandonTest else a)
    else s1
  let s3 := if now.throttle ≠ was.throttle then ev (0x524 + k) 1 [was.throttle, now.throttle, i, t] 255 s2 else s2
  let s4 := if k = 3 then
      { s3 with pfl := { s3.pfl with charging := if now.shutdown then false
          else s3.pfl.charging || (was.shutdown && (s3.rail 13).pg && (s3.rail 13).enabled) } }
    else s3
  if now.shutdown && !was.shutdown then s4.enterShutdown i k slope else s4

/-- The inlet's event, at most once a minute (R317). -/
def State.judgeInlet (s : State) : State :=
  let t := s.usedOf 62
  let due := match s.thm.inletAt with | some a => decide (a + 60 * sec ≤ s.now) | none => true
  if decide (45 < t) && due then
    ev 0x52D 1 [(t + 40).toNat, (s.usedOf 63 + 40).toNat] 255 { s with thm := { s.thm with inletAt := some s.now } }
  else s

/-- SENSOR_SAMPLE: a reading, and the slope of the used reading over the last 100 ms in 0.1 °C/s. -/
def execSensorSample (t : Nat) (sensor : Fin 64) (tempC : Int) (slopeTenths : Int) (s0 : State) : Res :=
  let s := s0.tick t
  let i := sensor.val
  if s.pwr.inputs.vaux = 0 || !s.sensorFitted i then .next s
  else
    let s1 := ((s.takeSample i tempC slopeTenths).pacedSampling i slopeTenths).spread i
    let s2 := if i = 62 then s1.judgeInlet else s1
    let s3 := if sensorKind i = 0 then pacedPairs.foldl heatOne s2 else s2
    let s4 := if s3.pfl.dump.isSome || 4 ≤ sensorKind i || s3.railsOff then s3
      else (s3.judgeKind i slopeTenths).judgeStop i slopeTenths
    .next (s4.judgeAbsolute i slopeTenths)

/-! ## The end of an orderly stop, and holds (R319, R320) -/

/-- ORDERLY_STOP_LINK_DOWN: 1 ms after the clean mark; the power-down follows at once. -/
def execOrderlyStopLinkDown (t : Nat) (s : State) : Res :=
  let s := s.tick t
  match s.thm.stopping with
  | none => .next s
  | some t0 =>
    if s.pfl.flush.isSome || !s.pfl.clean || decide (s.now < s.pfl.flushStart + msec) then .next s
    else
      let s1 := s.stopServing
      let s2 := { s1 with pwr := { s1.pwr with needPerst := true } }
      .next (ev 0x52E 0 [(s.now - t0) / msec] 255 s2.beginPowerDown)

/-- THERMAL_HOLD_RETRY: 10 s after a hold, while PERST_N stays deasserted and the inputs qualified. -/
def execThermalHoldRetry (t : Nat) (s : State) : Res :=
  let s := s.tick t
  match s.thm.heldAt with
  | none => .next s
  | some h =>
    if s.now < h + 10 * sec || s.boot.perst || !s.inputsOk || !s.pwr.qualified || s.pwr.sequence != 0 || !s.railsOff then .next s
    else .next (State.beginPowerUp { s with thm := { s.thm with heldAt := none } } 1)

/-! ## Bracket LEDs (14 R396, Table 14-7) -/

inductive Colour where
  | off
  | amber
  | amberBlink
  | green
  | greenBlink
deriving DecidableEq, Repr

def State.ledPower (s : State) : Colour :=
  if s.pwr.inputs.vaux = 0 ∨ s.pfl.dump.isSome then .off
  else if s.boot.hold || s.boot.recovery || s.thm.heldAt.isSome || s.fab.fatal then .amberBlink
  else if !s.railsOn then .amber
  else if s.boot.running then .greenBlink
  else if s.link.memActive then .green
  else .off

def State.ledActivity (s : State) : Colour :=
  if s.pwr.inputs.vaux = 0 ∨ s.pfl.dump.isSome then .off
  else if s.link.protocol = 0 then .amber
  else if s.pcieOnly then .amberBlink
  else if s.link.memActive && decide (s.now < s.qos.lastReqAt + 50 * msec) && decide (0 < s.qos.nextId) then .greenBlink
  else .green

def State.ledPersistence (s : State) : Colour :=
  if s.pfl.dump.isSome || s.thm.stopping.isSome then .amberBlink
  else if s.writeThrough || s.fro then .amber
  else if !s.link.memActive then .off
  else if s.pfl.budget < 10 * gib || s.draining then .greenBlink
  else if s.pfl.slots.all (fun d => d.st == 1) then .green
  else .off

end Sys2Proof.Machine
end

