-- ==== Sys2Proof/Machine/Fabric.lean ====
section
/-! DEFINITION. The self-timed fabric: handshake stalls and their escalation, region restarts and fencing, engine watchdogs,
and the pace controller (01 R11 to R29). -/

namespace Sys2Proof.Machine

/-! ## Region restarts (R15 to R18, Table 1-6) -/

/-- Failed restarts of a region in the last 60 minutes. -/
def State.failures (s : State) (r : Nat) : Nat :=
  (s.fab.failed.filter (fun e => e.1 == r && decide (s.now < e.2 + 3600 * sec))).length

/-- Row of partition 5 that keeps the failed-restart history (the row is the model's). -/
abbrev failRow : Nat := 2010

/-- A restart of region r has failed: the history goes to the tally store. -/
def State.noteFailed (s : State) (r : Nat) : State :=
  let l := (s.fab.failed.filter (fun e => decide (s.now < e.2 + 3600 * sec))) ++ [(r, s.now)]
  let s1 := { s with fab := { s.fab with failed := l } }
  ev 0x56D 2 [r, s1.failures r] r (s1.ownRow 1 5 failRow (fit 256 (l.flatMap (fun e => le 1 e.1 ++ le 8 e.2))))

def State.startRestart (s : State) (r : Nat) : State :=
  { s with fab := { s.fab with restarts := s.fab.restarts ++ [⟨r, false, s.now⟩] } }

/-- A restart of region r is declared. `cause`, which event 0x570 + r gives and the manual does not number, is the source number
of the event that led there (DESIGN CHOICE, log entry 69). A fault of region A goes to the chip error manager. While a dump runs, or waits for a
restart, the region counts as fenced (log entry 66). A region that needs a restart within 1 s of reporting ready has failed one;
of two neighbours the second waits. -/
def State.beginRestart (s : State) (r cause : Nat) : State :=
  if r = 0 then s.fatalHandling 0 cause
  else if s.isFenced r || s.restarting r || s.fab.queue.contains r || !s.coreOn && s.pfl.dump.isNone then s
  else if s.pfl.dump.isSome || s.fab.restarts.any (fun x => x.dumpWaits) then
    { s with fab := { s.fab with fenced := s.fab.fenced ||| BitVec.twoPow 9 r } }
  else
    let again := match Tab.find s.fab.ready r with
      | some t => decide (s.now < t + sec)
      | none => false
    let s1 := if again then s.noteFailed r else s
    if again && decide (2 ≤ s1.failures r) then s1.fence r cause
    else if s1.fab.restarts.any (fun x => (regionNeighbours r).contains x.region) then
      { s1 with fab := { s1.fab with queue := (s1.fab.queue ++ [r]).insertionSort (· ≤ ·) } }
    else s1.startRestart r

/-- Queued restarts whose neighbours are no longer restarting begin, lower index first. -/
def State.startQueued (s : State) : State :=
  s.fab.queue.foldl (fun s r =>
    if s.fab.restarts.any (fun x => (regionNeighbours r).contains x.region) then s
    else State.startRestart { s with fab := { s.fab with queue := s.fab.queue.filter (fun q => q != r) } } r) s

def State.endRestart (s : State) (r : Nat) : State :=
  { s with fab := { s.fab with restarts := s.fab.restarts.filter (fun x => x.region != r) } }

/-- A read that waits has its work inside region r. -/
def State.workIn (s : State) (r : Nat) (c : Ctx) : Bool :=
  match s.fillAt (c.req.dpa.toNat / 256) with
  | none => false
  | some f =>
    match f.phase, f.src with
    | .arrived, _ | .judged, _ => r == 3
    | _, .board | _, .writeback | _, .evict | _, .near => r == 4
    | _, _ => match s.readLoc (f.l.toNat / 64) with
      | some x => mediaRegion (dieChannel (s.dieAt x (f.l.toNat % 64))) == r
      | none => false

/-- Internal contexts with a step in flight inside region r (01 Table 1-10): write-backs that the dies of a media region write or
program, and its resets; issued entries of the board write-back buffers; the carry sweep in region K. -/
def State.internalIn (s : State) (r : Nat) : Nat :=
  if r = 3 then b2n s.key.sweep.isSome
  else if r = 4 then (s.cch.wb.filter (fun w => w.issued)).length
  else if 5 ≤ r then ((List.range 64).filter (fun i => mediaRegion (dieChannel i) == r &&
    (s.med.dies.getD i Die.atReset).op.isSome)).length
  else 0

/-- Contexts replayed, and requests that waited at the crossings. -/
def State.replayed (s : State) (x : Restart) : Nat :=
  (s.qos.ctxs.filter (fun c => s.workIn x.region c && decide (c.req.t0 ≤ x.t0))).length + s.internalIn x.region

def State.waited (s : State) (x : Restart) : Nat :=
  (s.qos.ctxs.filter (fun c => s.workIn x.region c && decide (x.t0 < c.req.t0))).length +
    (if x.region = 2 ∨ x.region = 4 then s.qos.ingress.length else 0)

/-- Region G is ready: a mailbox command and a background command end with Retry Required, and what could not be logged is
logged. -/
def State.managementBack (s : State) : State :=
  let s1 := match s.link.wait with
    | some c =>
      s.dropWait.reply c.path c.opcode .retryRequired
    | none => s
  let s3 := match s1.link.resolve with | some p => s1.reply p 0xC040 .retryRequired | none => s1
  let s4 := s3.link.maint.foldl (fun s m => s.reply m.path m.opcode .retryRequired) s3
  let s2 := { s4 with map := { s4.map with discard := none },
                      link := { s4.link with resolve := none, scan := none, maint := [], transfer := none, cfgTransfer := none } }
  (s2.endBackground .retryRequired).logDeferred

/-- Operations that were in flight on a die of media region r are issued again (01 Table 1-10). -/
def State.reissueOps (s : State) (r : Nat) : State :=
  { s with med := { s.med with dies := s.med.dies.mapIdx (fun i d =>
      if mediaRegion (dieChannel i) = r then { d with op := d.op.map (fun o =>
        { o with suspended := false, reads := 0, endAt := s.now + opTime o.op }) } else d) } }

/-- Region H is ready: the MSI-X requests whose crossings the restart discarded are made again from the states behind them
(01 R28). -/
def State.hostBack (s : State) (x : Restart) : State :=
  let lost := s.fab.crossing.filter (fun e => decide (x.t0 < e.2))
  lost.foldl (fun s e => s.sendMsix e.1)
    { s with fab := { s.fab with crossing := Tab.keep s.fab.crossing (fun _ u => decide (u ≤ x.t0)) } }

/-- The dies of media region r take their threshold tables from the GDDR7 mirror (07 Table 7-4). -/
def State.mirrorTables (s : State) (r : Nat) : State :=
  let mine := fun (k : Nat) => mediaRegion (dieChannel (k / 64)) == r
  let old := s.cal.thrMirror.filter (fun e => mine e.1)
  { s with cal := { s.cal with thr := old.foldl (fun t e => Tab.put t e.1 e.2) (Tab.keep s.cal.thr (fun k _ => !mine k)) } }

/-- What region r takes up again when it is ready after restart x. -/
def State.regionBack (s : State) (r : Nat) (x : Restart) : State :=
  if r = 1 then s.managementBack
  else if r = 2 then s.hostBack x
  else if 5 ≤ r then (s.mirrorTables r).reissueOps r
  else s

/-- REGION_RESTART_READY. A dump that waited begins. -/
def execRegionRestartReady (t : Nat) (region : Fin 9) (s0 : State) : Res :=
  let s := s0.tick t
  let r := region.val
  match s.fab.restarts.find? (fun x => x.region == r) with
  | none => .next s
  | some x =>
    if x.t0 + 200 * usec < s.now then .next s
    else
      let a := s.endRestart r
      let s1 := { a with fab := { a.fab with ready := Tab.put a.fab.ready r s.now } }
      let s3 := ev (0x560 + r) 1 [(s.now - x.t0) / usec, s.replayed x, s.waited x] r (s1.regionBack r x)
      .next (if x.dumpWaits && s3.fab.restarts.isEmpty then s3.beginDump 0 else s3.startQueued)

/-- REGION_RESTART_DEADLINE: the restart has failed. A second follows at once, or the region is fenced, with the source of the
restart's own event as cause (log entry 69). -/
def execRegionRestartDeadline (t : Nat) (region : Fin 9) (s0 : State) : Res :=
  let s := s0.tick t
  let r := region.val
  match s.fab.restarts.find? (fun x => x.region == r) with
  | none => .next s
  | some x =>
    if s.now < x.t0 + 200 * usec then .next s
    else
      let s1 := (s.endRestart r).noteFailed r
      if x.dumpWaits then
        .next ((if s1.fab.restarts.isEmpty then s1.beginDump 0 else s1).fence r (0x560 + r))
      else if 2 ≤ s1.failures r then .next ((s1.fence r (0x560 + r)).startQueued)
      else .next (s1.startRestart r)

/-! ## Error escalation (R11 to R13, Table 1-2) -/

def blockKey (r b : Nat) : Nat := 64 * r + b

/-- A stall, or a double-bit error, is counted (R10, R11). -/
def State.noteFault (s : State) (double : Bool) : State :=
  if double then s.bump ECC_FABRIC.double else s.bump ECC_FABRIC.stalls

/-- The block has faulted again within 1 ms of the end of its last reset. -/
def State.faultsAgain (s : State) (r b : Nat) : Bool :=
  match Tab.find s.fab.blocks (blockKey r b) with
  | some e => (match e.resetEnd with | some d => decide (s.now < d + msec) | none => false)
  | none => false

def State.clearBlock (s : State) (r b : Nat) : State :=
  { s with fab := { s.fab with blocks := Tab.del s.fab.blocks (blockKey r b) } }

/-- Step 3: the block is reset; event 0x56C gives the source that led there as its cause (log entry 69). -/
def State.resetBlock (s : State) (r b : Nat) : State :=
  ev 0x56C 1 [b, 0x56B] r { s with fab := { s.fab with blocks := Tab.put s.fab.blocks (blockKey r b) ⟨3, s.now, none⟩ } }

/-- HANDSHAKE_STALL, of a stall or a double-bit error, of which step 1 retries, step 2 reissues, step 3 resets the block, or,
where it faults again within 1 ms of its last reset, its region restarts (step 4); or of a single-bit error, which is corrected
and counted. A fault that needs D02 or D09 reset goes to the chip error manager (R16). -/
def execHandshakeStall (t : Nat) (region : Fin 9) (block : Nat) (k : StallKind) (s0 : State) : Res :=
  let s := s0.tick t
  let r := region.val
  if !s.coreOn || 64 ≤ block || s.isFenced r || s.restarting r then .next s
  else match k with
    | .corrected => .next (s.bump ECC_FABRIC.corrected)
    | .retrySucceeds d => .next (s.noteFault d)
    | .reissueSucceeds d =>
      let s1 := s.noteFault d
      .next (if s1.faultsAgain r block then ((ev 0x56B 0 [block, 4] r s1).clearBlock r block).beginRestart r 0x56B
        else ev 0x56B 0 [block, 2] r s1)
    | .blockReset d =>
      let s1 := s.noteFault d
      .next (if s1.faultsAgain r block then ((ev 0x56B 0 [block, 4] r s1).clearBlock r block).beginRestart r 0x56B
        else (ev 0x56B 0 [block, 3] r s1).resetBlock r block)
    | .domainReset d => .next ((ev 0x56B 0 [block, 6] r (s.noteFault d)).fatalHandling r 0x56B)

/-- BLOCK_RESET_COMPLETE: the block is ready again within 20 µs of its reset, or its region restarts. -/
def execBlockResetComplete (t : Nat) (region : Fin 9) (block : Nat) (ready : Bool) (s0 : State) : Res :=
  let s := s0.tick t
  let r := region.val
  match Tab.find s.fab.blocks (blockKey r block) with
  | none => .next s
  | some e =>
    if e.resetEnd.isSome then .next s
    else if ready && decide (s.now ≤ e.began + 20 * usec) then
      .next { s with fab := { s.fab with blocks := Tab.put s.fab.blocks (blockKey r block) ⟨3, e.began, some s.now⟩ } }
    else .next ((s.clearBlock r block).beginRestart r 0x56C)

/-! ## Engine watchdogs (R29, Table 1-11) -/

/-- Region of an engine. -/
def engineRegion (e : Nat) : Nat := if e < 48 then mediaRegion (e % 16) else if e < 54 then 3 else 1

/-- ENGINE_WATCHDOG_EXPIRY: the engine is reset; the third expiry within 1 s restarts its region; the standby coordinator
takes over from the active one. -/
def execEngineWatchdogExpiry (t : Nat) (engine : Fin 64) (s0 : State) : Res :=
  let s := s0.tick t
  let e := engine.val
  let r := engineRegion e
  if !s.coreOn || s.isFenced r || s.restarting r then .next s
  else
    let l := (s.fab.expiries.filter (fun x => decide (s.now < x.2 + sec))) ++ [(e, s.now)]
    let n := (l.filter (fun x => x.1 == e)).length
    let c := if e = s.fab.coordinator then 125 - e else s.fab.coordinator
    let s1 := ev 0x56A 1 [e, n] r { s with fab := { s.fab with expiries := l, coordinator := c } }
    if 3 ≤ n then
      .next (State.beginRestart { s1 with fab := { s1.fab with expiries := l.filter (fun x => x.1 != e) } } r 0x56A)
    else .next s1

/-! ## Pace control (R19 to R22; 11 Table 11-10) -/

def codeOf (l : List Nat) (r : Nat) : Nat := l.getD r 0

/-- Paced neighbours of a region. -/
def pacedNeighbours (r : Nat) : List Nat := (regionNeighbours r).filter (fun n => n != 0)

/-- Region r is the hotter one of a pair whose temperatures hold it back. -/
def State.heatHeld (s : State) (r : Nat) : Bool :=
  s.fab.heatHold.any (fun p =>
    (p.1 == r && decide ((s.regionTemp p.2).getD 0 < (s.regionTemp p.1).getD 0)) ||
      (p.2 == r && decide ((s.regionTemp p.1).getD 0 < (s.regionTemp p.2).getD 0)))

/-- Codes with region r at v or above, and every neighbour pulled up to within 20 of it. Pulls reach across the chain of
regions in at most 9 steps. -/
def pullUp : Nat → Nat → Nat → List Nat → List Nat
  | 0, _, _, l => l
  | n + 1, r, v, l =>
    if v ≤ codeOf l r then l
    else (pacedNeighbours r).foldl (fun l q => pullUp n q (v - 20) l) (setAt l r v)

/-- Region r rises by one step from its code in `old`, unless a region that the raise would move is held back by heat. -/
def State.raise (s : State) (old : List Nat) (l : List Nat) (r : Nat) : List Nat :=
  let v := codeOf old r + 1
  let m := pullUp 9 r v l
  if s.paceCap < v || (List.range 9).any (fun q => s.heatHeld q && codeOf m q != codeOf l q) then l else m

/-- Region r may fall by one step: no more than 20 below its highest neighbour, not below its minimum. -/
def mayFall (old : List Nat) (minCode : List Nat) (r : Nat) : Bool :=
  decide (0 < codeOf old r) && decide (codeOf minCode r < codeOf old r) &&
    (pacedNeighbours r).all (fun q => decide (codeOf old q + 1 ≤ codeOf old r + 20))

def fall (l : List Nat) (r : Nat) : List Nat := setAt l r (codeOf l r - 1)

/-- A host class with requests held in region r has passed the first escalation threshold (R20): requests in the ingress buffer
wait in region H, reads below the near cache where their work is. -/
def State.hostDemand (s : State) (r : Nat) : Bool :=
  (List.range 8).any (fun n => decide (1 ≤ (s.clsState n).level) &&
    ((r == 2 && s.qos.ingress.any (fun q => q.cls == n)) || s.qos.ctxs.any (fun c => c.req.cls == n && s.workIn r c)))

/-- A raise of region r is due: a host class asks for it, or an internal class is served below its floor there. -/
def State.paceDemand (s : State) (p : PaceIn) (r : Nat) : Bool := s.hostDemand r || p.shortOfFloor.getLsbD r

/-- Every host class is below 40 % of its target (R20; log entry 67: every class counts as served through every region). -/
def State.paceRelaxed (s : State) : Bool :=
  (List.range 8).all (fun n => decide (100 * s.trailing n < 40 * (s.classEntry n).target))

/-- PACE_EVALUATION: raises under demand and below the minimum code, within the throttle's cap; a region above the cap falls. -/
def execPaceEvaluation (t : Nat) (p : PaceIn) (s : State) : Res :=
  let s := s.tick t
  if !s.coreOn then .next s
  else
    let old := s.fab.pace
    let up := fun (l : List Nat) (r : Nat) =>
      if s.paceDemand p r || decide (codeOf old r < codeOf p.minCode r) then s.raise old l r
      else if s.paceCap < codeOf old r ∧ mayFall old p.minCode r ∧ codeOf l r = codeOf old r then fall l r else l
    .next { s with fab := { s.fab with pace := [1, 2, 3, 4, 5, 6, 7, 8].foldl up old, replica := p.replica } }

/-- PACE_LOWER_INTERVAL: one step down without demand, or under the neighbours' temperature rule. -/
def execPaceLowerInterval (t : Nat) (p : PaceIn) (s : State) : Res :=
  let s := s.tick t
  if !s.coreOn then .next s
  else
    let old := s.fab.pace
    let down := fun (l : List Nat) (r : Nat) =>
      if (s.heatHeld r || (!s.paceDemand p r && s.paceRelaxed)) && mayFall old p.minCode r then fall l r else l
    .next { s with fab := { s.fab with pace := [1, 2, 3, 4, 5, 6, 7, 8].foldl down old } }

end Sys2Proof.Machine
end

