-- ==== Sys2Proof/Machine/Medium.lean ====
section
/-! DEFINITION. The medium at work: reads decoded, soft-decoded, reconstructed and checked by their MACs; writes, programs and
resets that complete or fail; blocks and dies taken out of service; rebuilds; power gating (05 R115 to R138; 06 R154; 07 R189;
08 R216 to R218). -/

namespace Sys2Proof.Machine

/-! ## Reading a sector -/

/-- What a sector read with an error pattern gives: data, the lines that read as poison, and those that fail their MAC. -/
def State.readSector (s : State) (l : Nat) (residue : BitVec 2048) : BitVec 2048 × BitVec 4 × BitVec 4 :=
  (List.range 4).foldl (fun a i =>
    let k := 4 * l + i
    match s.storedLine k with
    | some st =>
      let o := s.openLine k st (Sys2Proof.Machine.part residue i)
      let p := st.poison || s.sectorGone l || s.inLost k || s.injected k || s.poisonedLine k
      (setPart a.1 i o.1, setBit4 a.2.1 i p, setBit4 a.2.2 i (!o.2 && !p))
    | none => (a.1, setBit4 a.2.1 i true, a.2.2)) (0, 0, 0)

/-- Die, location and stripe-block key of the sector of line l. -/
def State.sectorDie (s : State) (l : Nat) : Nat := match s.readLoc (l / 64) with | some x => s.dieAt x (l % 64) | none => 0
def State.sectorBlock (s : State) (l : Nat) : Nat := match s.readLoc (l / 64) with | some x => blkKey x.group x.block | none => 0

/-- The fill takes data that the medium gave; a speculative extent's reads are answered now, before the MAC check (08 R216). -/
def State.arriveFill (s : State) (f : Fill) (src : Src) (residue : BitVec 2048) : State :=
  let l := f.l.toNat
  let r := s.readSector l residue
  let g := { f with src := src, phase := .arrived, data := r.1, poison := r.2.1, macBad := r.2.2 }
  if (s.extentAt (l * 256)).speculative then
    let d := s.landData g
    let w := s.waiters l
    let sent := w.foldl (fun m c => setBit4 m (c.req.dpa.toNat / 64 % 4) true) g.sent
    w.foldl (answerWaiter g d.1 d.2) (s.setFill { g with sent := sent })
  else s.setFill g

/-- A fill whose sector stays lost ends in poison (05 R130 step 3). -/
def State.loseFill (s : State) (f : Fill) (peers : Nat) : State :=
  let s1 := s.setFill { f with phase := .judged, poison := 15, macBad := 0 }
  if s.sectorGone f.l.toNat then s1 else s1.sectorLost f.l.toNat peers

/-- Recovery from the stripe is possible (05 R130 step 2): a peer whose hard decode fails may still be read by soft decode. -/
def State.canRecover (s : State) (l : Nat) : Bool :=
  match s.readLoc (l / 64) with
  | some x => s.stripeReady x (l % 64) 27
  | none => false

/-- After the hard decode and soft decode have failed: reconstruction without regard to the allowance, or the sector is lost. -/
def State.rebuildOrLose (s : State) (f : Fill) : State :=
  if s.canRecover f.l.toNat && !s.sectorGone f.l.toNat && !f.tried then s.setFill { f with phase := .rebuild, tried := true }
  else s.loseFill f 0

/-! ## Programs and resets (R121, R131) -/

def State.endOp (s : State) (i : Nat) : State := s.setDie i { s.die i with op := none }

/-- The page of group g and block b that the member on channel c is programming. -/
def State.progOf (s : State) (g b c : Nat) : Option PageProg :=
  s.map.progs.find? (fun p => p.group == g && p.block == b && !p.reported.contains c)

/-- A member has programmed its page; with the last one the stripe page is complete. -/
def State.pageReported (s : State) (g b c : Nat) : State :=
  match s.progOf g b c with
  | none => s
  | some p =>
    let q := { p with reported := p.reported ++ [c] }
    let s1 := { s with map := { s.map with progs := s.map.progs.map (fun x => if x = p then q else x) } }
    if (s.block g b).members.all (fun m => q.reported.contains m.1 || (s.die (4 * m.1 + g)).retired) then s1.pageDone q else s1

/-- Copies of a reclaim job that lay in pages of stripe block b not complete are made again (06 Table 6-8). -/
def redoCopies (g b : Nat) (s : State) (e : Nat × List (Nat × Loc)) : State :=
  match Tab.find s.map.reclaim e.1 with
  | none => s
  | some r =>
    if e.2.isEmpty then s
    else
      let a := r.copies.foldl (fun (a : State × List (Nat × Loc)) c =>
        if e.2.contains c then
          (match a.1.pageSlot (c.1 % 2 ^ 29) with
           | (s1, some l) => (s1.copyFolio c.2 l, a.2 ++ [(c.1, l)])
           | (s1, none) => (s1, a.2))
        else (a.1, a.2 ++ [c])) (s, [])
      ev 0x307 0 [g, b, e.2.length] 4 (State.bump { a.1 with map := { a.1.map with
        reclaim := Tab.put a.1.map.reclaim e.1 { r with copies := a.2 } } } MAP_RECLAIM.dest_failures)

/-- Close stripe block b at its last complete page; what its open and programming pages held is placed again. -/
def State.failBlock (s : State) (g b : Nat) : State :=
  if (s.block g b).members.isEmpty then s
  else
    let bad := s.map.reclaim.map (fun e =>
      (e.1, e.2.copies.filter (fun c => c.2.group == g && c.2.block == b && s.pageOpen c.2)))
    (bad.foldl (redoCopies g b) (s.closeBlock g b)).freeIfEmpty ⟨g, b, 0⟩

/-! ## Blocks and dies out of service (R131 to R134) -/

/-- Retired dies and their causes, as the card keeps them in partition 5 (row 2020 is the model's, log entry 21). -/
def State.retiredRow (s : State) : Bytes := s.med.dies.map (fun d => BitVec.ofNat 8 (if d.retired then 1 + d.cause else 0))

/-- Integrity folios in stripe blocks of group g with a member on die i, and their placement anew. -/
def State.integOn (s : State) (g i : Nat) : List Nat :=
  (s.map.integrity.filter (fun e => match e.2.loc with | some l => s.onDie g i l | none => false)).map (·.1)
def State.moveInteg (s : State) (ns : List Nat) : State :=
  ns.foldl (fun s n => s.integPlace n ((Tab.find s.map.integrity n).bind (·.loc))) s

/-- A rebuild of group g begins, or waits for the one that runs. -/
def State.startRebuild (s : State) (g i : Nat) : State :=
  if s.med.rebuild.isSome then { s with med := { s.med with rebuildQueue := s.med.rebuildQueue ++ [(g, i)] } }
  else
    let s1 := ev 0x182 1 [g, i, (s.toRebuild g i).length] 4 { s with med := { s.med with rebuild := some ⟨g, i, 0, s.now⟩ } }
    s1.moveInteg (s1.integOn g i)

/-- Sectors of folio f, stored in a block that has members on dies i and j, that lie on one of the two. -/
def State.sectorsOn (s : State) (f i j : Nat) : List Nat :=
  match s.readLoc f with
  | none => []
  | some l =>
    if s.onDie l.group i l && s.onDie l.group j l then
      ((List.range 64).filter (fun n => s.dieAt l n == i || s.dieAt l n == j)).map (fun n => f * 64 + n)
    else []

/-- A second die of group g is lost (Table 5-7): the lines of stripes not yet rebuilt that lay on the two dies are poisoned. -/
def State.secondDie (s : State) (g i j : Nat) : State :=
  let l := (s.toRebuild g j).eraseDups.flatMap (fun f => s.sectorsOn f i j)
  let mark := fun (s : State) (x : Nat) =>
    match s.readLoc (x / 64) with
    | some y => (match s.sectorAt y (x % 64) with
      | some z => { s with med := { s.med with secs := Tab.put s.med.secs (sectorKey y (x % 64)) { z with lost := true } } }
      | none => s)
    | none => s
  let s1 := (l.flatMap (fun x => [4 * x, 4 * x + 1, 4 * x + 2, 4 * x + 3])).foldl State.losePoison (l.foldl mark s)
  let s2 := { s1 with med := { s1.med with secondLoss := s1.med.secondLoss ||| BitVec.twoPow 4 g } }
  (ev 0x184 2 [g, i, j, 4 * l.length] 4 s2).enterFro (16 + g)

/-- Stripe blocks of group g with a member on die i take no new folio; those being programmed are closed. -/
def State.closeOnDie (s : State) (g i : Nat) : State :=
  let s1 := match Tab.find s.map.pages g with
    | some p => s.failBlock g p.block
    | none => s
  { s1 with med := { s1.med with blocks := Tab.mapV s1.med.blocks (fun k b =>
      if k / perGroup = g ∧ b.members.any (fun m => 4 * m.1 + g == i) then { b with isOpen := false } else b) } }

/-- A die is retired: 0 census, 1 timeouts, 2 retired blocks. It is never read or written again. -/
def State.retireDie (s : State) (i cause : Nat) : State :=
  if (s.die i).retired then s
  else
    let g := dieGroup i
    let before := (List.range 16).find? (fun c => (s.die (4 * c + g)).retired)
    let s1 := s.setDie i { s.die i with retired := true, cause := cause, op := none }
    let own := fun (t : Tab ThrEntry) => Tab.keep t (fun k _ => k / 64 != i)
    let s2 := { s1 with cal := { s1.cal with thr := own s1.cal.thr, thrSaved := own s1.cal.thrSaved } }
    let fills := s2.cch.fills.map (fun f =>
      if s2.fillDie f == some i then { f with src := .recon, spent := f.raced && f.spent, raced := false } else f)
    let left := fun (u : Update) => { u with data := u.data.filter (fun n => s2.dieAt u.loc n != i),
                                             parity := u.parity.filter (fun k => s2.parityDie u.loc k != i) }
    let s3 := State.endUpdates { s2 with
      cch := { s2.cch with fills := fills },
      med := { s2.med with updates := s2.med.updates.map left,
                           blocks := Tab.mapV s2.med.blocks (fun k b => if k / perGroup = g then
                             { b with toReset := b.toReset.filter (fun c => c != dieChannel i) } else b) } }
    let s4 := (ev (0x203 + 4 * i) 1 [i, cause] (mediaRegion (dieChannel i)) (s3.ownRow 1 5 2020 s3.retiredRow)).closeOnDie g i
    match before with
    | some c => s4.secondDie g (4 * c + g) i
    | none => s4.startRebuild g i

/-- A member block whose program or reset failed is retired (R131). -/
def State.retireBlock (s : State) (i g b op : Nat) : State :=
  let x := s.block g b
  let ix := ((x.members.find? (fun m => 4 * m.1 + g == i)).getD (0, b)).2
  let d := s.die i
  let n := d.retiredBlocks + 1
  let s1 := s.setDie i { d with bad := d.bad ++ [ix], retiredBlocks := n, warned := d.warned || decide (1572 < n) }
  let s2 := (ev (0x200 + 4 * i) 0 [i, ix, g, b, op] (mediaRegion (dieChannel i)) s1).drawSpare 10
  let s3 := if 1572 < n && !d.warned then ev (0x202 + 4 * i) 1 [i, n] (mediaRegion (dieChannel i)) s2 else s2
  if 3146 < n then s3.retireDie i 2 else s3

/-! ## DIE_OPERATION_COMPLETE (R115, R119, R121, R131) -/

/-- A sense of line l's sector on die i for a fill. Reports of a threshold whose offset has moved since the sense was issued do not
count (07 Table 7-4). -/
def State.senseDone (s : State) (i : Nat) (f : Fill) (errors : Nat) (residue : BitVec 2048) (reports : List (Nat × Bool)) :
    State :=
  let l := f.l.toNat
  let d := s.die i
  let after := s.now + (if s.beadAt (l / 64) then 250 else 500) * (100 - s.senseShare) / s.senseShare
  let s1 := (s.setDie i { d with senseAt := if s.senseShare = 100 then 0 else after, op := d.op.map (fun o => if o.suspended then { o with reads := o.reads + 1 } else o) }).sensed i
  let n := errors + s.flipsIn l
  let w := match f.loc with | some x => s.sectorTime x (l % 64) | none => 0
  let now := (Tab.findD s.cal.thr f.entry ThrEntry.blank).offsets
  let due := reports.filter (fun r => now.getD r.1 0 == f.offsets.getD r.1 0)
  let done := fun (s : State) (c : Nat) => s.decoded (s.sectorBlock l) i f.entry w c due
  if s.sectorGone l then s1.setFill { f with phase := .soft }
  else if n ≤ 21 then (done s1 n).arriveFill f f.src 0
  else if 24 < n && residue != 0 then
    (done { s1 with fresh := s1.fresh + 1 } (Config.free s1.fresh % 22)).arriveFill f f.src residue
  else s1.setFill { f with phase := .soft }

/-- The member on channel c of stripe block b has taken its reset. -/
def State.resetDone (s : State) (g b c : Nat) : State :=
  let x := s.block g b
  if x.members.isEmpty then s else s.setBlock g b { x with toReset := x.toReset.filter (fun y => y != c) }

/-- The member on die i failed its reset: another free member block of the die stands in, and is reset. -/
def State.newMember (s : State) (i g b : Nat) : State :=
  let x := s.block g b
  match s.pickMember i false with
  | some ix =>
    if (s.die i).retired || x.members.isEmpty then s
    else
      let s1 := s.takeMember i ix x.bead
      s1.setBlock g b { x with members := x.members.map (fun m => if 4 * m.1 + g = i then (m.1, ix) else m) }
  | none => s

/-- What die i's result r does: a sense serves the read that is next, of a die that is idle or, for up to 8 reads and 4 µs, suspended
(R125); a write, program or reset ends the operation that runs. -/
def State.finishOp (s : State) (i : Nat) (r : DieResult) : State :=
  let g := dieGroup i
  let c := dieChannel i
  match r, (s.die i).op with
  | .sense l errors residue reports, op =>   -- a throttled die begins no sense ahead of its share (log entry 80)
    (match s.fillAt l.toNat with
     | none => s
     | some f =>
       let free := match op with
         | none => true
         | some o => o.suspended && decide (o.reads < 8) && decide (s.now ≤ o.suspendedAt + 4 * usec)
       let sense := if s.beadAt (l.toNat / 64) then 250 else 500
       let paced := s.senseShare = 100 ∨ (s.die i).senseAt + sense ≤ s.now
       if s.fillDie f == some i && free && paced && s.servesNext i f && !s.med.gated.getLsbD c then
         s.senseDone i { f with src := if f.src == .recon then (if s.beadAt (l.toNat / 64) then .one else .four) else f.src } errors
           residue reports
       else s)
  | _, none => s
  | .write _ b, some o =>
    if o.op ≠ 2 ∨ o.block ≠ b ∨ o.suspended then s
    else (if b = refArea then s.wroteLedger i else s.wroteSector i).endOp i
  | .program ok b, some o =>
    if o.op ≠ 3 ∨ o.block ≠ b ∨ o.suspended then s
    else if ok then (s.endOp i).pageReported g b c
    else (((s.endOp i).bump MED_DIE_ERR.program_fail 1 i).retireBlock i g b 3).failBlock g b
  | .reset ok b, some o =>
    if o.op ≠ 4 ∨ o.block ≠ b ∨ o.suspended then s
    else if ok then (s.endOp i).resetDone g b c
    else (((s.endOp i).bump MED_DIE_ERR.reset_fail 1 i).retireBlock i g b 4).newMember i g b

/-- DIE_OPERATION_COMPLETE. What was in flight when its region restarts is made again once the region is ready. An idle die takes
what waits for it. -/
def execDieOperationComplete (t : Nat) (die : Fin 64) (r : DieResult) (s0 : State) : Res :=
  let s := s0.tick t
  let i := die.val
  if !s.fitted i then .fault .noSuchUnit
  else if (s.die i).retired || !s.railsOn || s.dieHeld i then .next s
  else .next ((s.finishOp i r).judgeAllow (dieGroup i)).kick

/-! ## Suspension and timeouts (R125, R132) -/

/-- OPERATION_SUSPENDED, the suspend entry time after a read came to wait. -/
def execOperationSuspended (t : Nat) (die : Fin 64) (s0 : State) : Res :=
  let s := s0.tick t
  let i := die.val
  if !s.fitted i then .fault .noSuchUnit
  else match (s.die i).op with
  | none => .next s
  | some o =>
    let waits := (s.readsOn i).any (fun a => decide (a + suspendEntry o.op ≤ s.now))
    if o.suspended || suspendMax o.op ≤ o.suspends || !waits then .next s
    else
      let p := { o with suspended := true, suspendedAt := s.now, suspends := o.suspends + 1, reads := 0 }
      .next (count 0x3000 1 none ((s.setDie i { s.die i with op := some p }).bump MED_SUSPEND.suspends))

/-- OPERATION_RESUME: after 8 reads, 4 µs, or with no read waiting. -/
def execOperationResume (t : Nat) (die : Fin 64) (s0 : State) : Res :=
  let s := s0.tick t
  let i := die.val
  if !s.fitted i then .fault .noSuchUnit
  else match (s.die i).op with
  | none => .next s
  | some o =>
    if o.suspended && (decide (8 ≤ o.reads) || decide (o.suspendedAt + 4 * usec ≤ s.now) || (s.readsOn i).isEmpty) then
      let p := { o with suspended := false, endAt := o.endAt + (s.now - o.suspendedAt) + resumeTime o.op }
      .next (s.setDie i { s.die i with op := some p })
    else .next s

/-- DIE_COMMAND_TIMEOUT: the command is reissued; three within 1 s retire the die. -/
def execDieCommandTimeout (t : Nat) (die : Fin 64) (s0 : State) : Res :=
  let s := s0.tick t
  let i := die.val
  if !s.fitted i then .fault .noSuchUnit
  else
    let d := s.die i
    let busy := match d.op with | some o => if o.suspended then none else some o | none => none
    let sense := s.cch.fills.find? (fun f => s.fillDie f == some i && s.servesNext i f)
    let late := match busy, sense with
      | some o, _ => decide (o.endAt + 20 * usec ≤ s.now)
      | none, some f => decide (f.issuedAt + (if s.beadAt (f.l.toNat / 64) then 250 else 500) + 20 * usec ≤ s.now)
      | none, none => false
    if d.retired || !late then .next s
    else
      let op := match busy with | some o => o.op | none => 1
      let l := s.now :: d.timeouts.filter (fun x => decide (s.now < x + sec))
      let s1 := s.setDie i { d with timeouts := l, op := match busy with
        | some o => some { o with endAt := s.now + opTime o.op }
        | none => d.op }
      let s1 := match busy, sense with
        | none, some f => s1.setFill { f with issuedAt := s.now }
        | _, _ => s1
      let s2 := ev (0x201 + 4 * i) 1 [i, op, l.length] (mediaRegion (dieChannel i)) (s1.bump MED_DIE_ERR.timeouts 1 i)
      .next (if 3 ≤ l.length then s2.retireDie i 1 else s2)

/-! ## Reconstruction and soft decode (R128 to R130, 07 R189) -/

/-- The folio whose base or shadow lies at a location. -/
def State.folioAt (s : State) (l : Loc) : Option Nat :=
  match s.map.entries.find? (fun e => e.2.loc == some l) with
  | some e => some e.1
  | none => (s.ring.shadows.find? (fun e => e.2.loc == l)).map (·.1)

/-- Line of the data sector at the same stripe position as line l's on another die; none for the parity member. -/
def State.peerLine (s : State) (l i : Nat) : Option Nat :=
  match s.readLoc (l / 64) with
  | none => none
  | some x =>
    let b := s.block x.group x.block
    let w := b.members.length
    let k := (sectorPlace b (64 * x.index + l % 64)).1
    match (List.range (w - 1)).find? (fun j => 4 * (b.members.getD (if j < k % w then j else j + 1) (0, 0)).1 + x.group == i) with
    | none => none
    | some j =>
      let n := k * (w - 1) + j
      (s.folioAt ⟨x.group, x.block, n / 64⟩).map (fun f => f * 64 + n % 64)

/-- The peers of a reconstruction have been read: on a suspended die each read counts (R125). -/
def State.peersRead (s : State) (ps : List Nat) : State :=
  ps.foldl (fun s d =>
    (s.setDie d { s.die d with op := (s.die d).op.map (fun o => if o.suspended then { o with reads := o.reads + 1 } else o) }).bump
      MED_DIE_READS.sectors 1 d) s

/-- The peers of line l that decode report (07 Table 7-4). -/
def State.linePeers (s : State) (l : Nat) (bad : List Nat) : State :=
  match s.readLoc (l / 64) with
  | some x => s.peersReport x (l % 64) bad
  | none => s

/-- RECONSTRUCTION_COMPLETE. `badPeers` are the dies whose sector fails its hard decode, and whether soft decode reads it. A peer
that fails ends a busy-die reconstruction; the read is served from its die. In the recovery order each such peer is recovered in
turn, by soft decode or not at all (R130): then the target is lost, and the peer sector too. -/
def execReconstructionComplete (t : Nat) (l : BitVec 35) (badPeers : List (Fin 64 × Bool)) (s0 : State) : Res :=
  let s := s0.tick t
  match s.fillAt l.toNat with
  | none => .next s
  | some f =>
    let i := s.sectorDie l.toNat
    let g := dieGroup i
    let busy := f.src == .recon && f.phase == .issued
    if (!busy && f.phase != .rebuild) || s.stripeMoving l.toNat then .next s
    else
      let s1 := (s.peersRead (s.peerDies l.toNat)).linePeers l.toNat (badPeers.map (·.1.val))
      let dead := (badPeers.filter (fun p => !p.2)).map (·.1)
      let mask := total (dead.eraseDups.map (fun p => 2 ^ p.val))
      let ok := if busy && !(s.die i).retired then badPeers.isEmpty && s.canReconstruct l.toNat else dead.isEmpty && s.canRecover l.toNat
      if !ok || s.sectorGone l.toNat then
        if busy && !(s.die i).retired then
          let s2 := if f.spent then
              { s1 with med := { s1.med with allow := setAt s1.med.allow g (min 960 (s1.med.allow.getD g 0 + 15)) } }
            else s1
          .next (s2.setFill { f with src := (if s.beadAt (l.toNat / 64) then .one else .four), spent := false, tried := true,
                                     raced := false })
        else
          .next (dead.foldl (fun x p => match s.peerLine l.toNat p.val with
            | some q => if x.sectorGone q then x else x.sectorLost q (2 ^ i)
            | none => x) (s1.loseFill f mask))
      else
        let s2 := (s1.bump MED_DIE_ERR.reconstructed 1 i).bump CAL_DECODE.soft_ok badPeers.length
        let k := s.sectorBlock l.toNat
        let s3 := if busy then s2 else (s2.bump MED_RECON.recovered).setDue k 3
        let now := (s.readSector l.toNat 0).2.2
        let fixed := ([0, 1, 2, 3].filter (fun j => f.macBad.getLsbD j && !now.getLsbD j)).length
        .next ((if fixed = 0 then s3 else s3.bump KEY_MAC.recovered fixed).arriveFill { f with tried := true } .recon 0)

/-- SOFT_DECODE_COMPLETE: success when at most 27 bits are wrong and at most 21 of them lie outside the six least reliable. -/
def execSoftDecodeComplete (t : Nat) (l : BitVec 35) (errors : Nat) (outside : Nat) (s0 : State) : Res :=
  let s := s0.tick t
  match s.fillAt l.toNat with
  | none => .next s
  | some f =>
    let i := s.sectorDie l.toNat
    if f.phase != .soft then .next s
    else if errors + s.flipsIn l.toNat ≤ 27 && outside ≤ 21 && !s.sectorGone l.toNat then
      let k := s.sectorBlock l.toNat
      let s1 := ev 0x386 0 [l.toNat * 256, i, f.entry % 16] 4 (count 0x3002 1 none (s.bump CAL_DECODE.soft_ok))
      .next ((s1.setDue k 2).arriveFill f .soft 0)
    else .next ((count 0x3002 1 none (s.bump CAL_DECODE.soft_failed)).rebuildOrLose f)

/-! ## MAC checks and lost counters (08 R216 to R218) -/

/-- Folios that hold data under a node, and their lines under it. -/
def State.underNode (s : State) (lvl ix : Nat) : List Nat :=
  let n := 64 * 64 ^ lvl
  (s.map.entries.filter (fun e => e.2.held && decide (e.1 * 256 < (ix + 1) * n) && decide (ix * n < (e.1 + 1) * 256))).flatMap
    (fun e => (List.range 256).filterMap (fun j =>
      if (e.1 * 256 + j) / n = ix then some (e.1 * 256 + j) else none))

/-- The fresh counter of a lost block or node. -/
def State.freshNode (s : State) (lvl ix : Nat) : State :=
  let m := s.key.highMajor.getD lvl 0 + 1
  let high := setAt s.key.highMajor lvl m
  let s1 := { s with key := { s.key with highMajor := high } }
  let s2 := if lvl = 0 then s1.setCtr ix ⟨m, []⟩
    else { s1 with key := { s1.key with nodes := Tab.put s1.key.nodes (nodeKey lvl ix) ⟨m, []⟩ } }
  s2.bumpNode (lvl + 1) (ix / 64) (ix % 64)

/-- Registers of a lost node of n lines. -/
def State.countNode (s : State) (lvl ix n : Nat) : State :=
  (((if lvl = 0 then s.bump KEY_TREE.blocks_lost else s.bump KEY_TREE.nodes_lost).bump
    KEY_TREE.lines_poisoned n).setReg KEY_LAST_FAIL.kind 3).setReg KEY_LAST_FAIL.line (ix * 64 ^ lvl)

/-- Event 0x403 for a counter block, 0x404 for a node of n lines. -/
def nodeEvent (lvl ix n : Nat) (s : State) : State :=
  if lvl = 0 then ev 0x403 2 [ix] 3 s else ev 0x404 2 [lvl, ix, ix * n * 64, (ix + 1) * n * 64 - 1] 3 s

/-- A counter block or node is lost (R218): a fresh one stands in, its lines are listed and held as poisoned until they are
rewritten. -/
def State.loseNode (s : State) (lvl ix : Nat) : State :=
  if s.key.lost.contains (lvl, ix) then s
  else
    let s1 := s.freshNode lvl ix
    let s2 := (s.underNode lvl ix).foldl State.losePoison { s1 with key := { s1.key with lost := s1.key.lost ++ [(lvl, ix)] } }
    nodeEvent lvl ix (64 * 64 ^ lvl) (s2.countNode lvl ix (64 * 64 ^ lvl))

/-- A clean counter block has no mirror copy: with an uncorrectable word it is fetched again from the medium (04 R103). -/
def State.refetchCtr (s : State) (p : Nat) : State :=
  if Tab.find s.key.ctrCache (p % 2 ^ 22) = some p then
    let s1 := s.lastUnc 3 false p
    State.nodeLookup { s1 with key := { s1.key with ctrCache := Tab.del s1.key.ctrCache (p % 2 ^ 22) } } p
  else s

/-- What the counter path of a read met (04 R103; 08 Table 8-7). A dirty block that its mirror, or its primary, still gives is
written to both again. -/
def State.nodeFail (s : State) (x : NodeFail) : State :=
  match x with
  | .corrected p => if Tab.find s.key.ctrCache (p % 2 ^ 22) = some p then s.bump CCH_CTR_ECC.corrected else s
  | .mirror p =>
    if s.key.dirtyCtrs.contains p then ev 0x107 1 [p, p % 4] 4 ((s.bump CCH_CTR_ECC.mirror_reads).lastUnc 3 true p)
    else s.refetchCtr p
  | .bothCopies p =>
    if s.key.dirtyCtrs.contains p then
      (ev 0x108 2 [p] 4 ((s.bump CCH_CTR_ECC.lost_blocks).lastUnc 3 true p)).loseNode 0 p
    else s.refetchCtr p
  | .node lvl ix true =>
    let n := s.integBase lvl.val + ix / 256
    match Tab.find s.map.integrity n with
    | some e => s.integPlace n e.loc
    | none => s
  | .node lvl ix false => s.loseNode lvl.val ix

/-- A MAC failure of line k that no reconstruction mends (Table 8-7). -/
def State.macFailed (s : State) (k : Nat) (sent : Bool) : State :=
  let e := (s.extentOf (k * 64)).getD 0xFFFF
  let u := s.unitKey (unitOfLine k)
  if sent then
    let s1 := (((s.bump KEY_MAC.late_alarms).setReg KEY_LAST_FAIL.kind 1).setReg KEY_LAST_FAIL.line k)
    let s2 := ev 0x400 2 [k * 64, e, u.key] 3 s1
    if (s.extentAt (k * 64)).viral then { s2 with link := { s2.link with viral := true } } else s2
  else
    ev 0x401 1 [k * 64, e] 3 (((s.bump KEY_MAC.poisoned).setReg KEY_LAST_FAIL.kind 2).setReg KEY_LAST_FAIL.line k)

/-- MAC_CHECK_COMPLETE of a fill's four lines. -/
def execMacCheckComplete (t : Nat) (l : BitVec 35) (fail : Option NodeFail) (s0 : State) : Res :=
  let s1 := s0.tick t
  match s1.fillAt l.toNat with
  | none => .next s1
  | some f =>
    if f.phase != .arrived || s1.regionHolds 3 then .next s1
    else
      let s := match fail with | some x => s1.nodeFail x | none => s1
      let lost := (List.range 4).foldl (fun m i => setBit4 m i (s.inLost (4 * l.toNat + i))) (0 : BitVec 4)
      let bad := f.macBad &&& ~~~lost
      let unsent := bad &&& ~~~f.sent
      if unsent != 0 && !f.tried && s.canReconstruct l.toNat then
        .next (s.setFill { f with phase := .rebuild, tried := true, poison := f.poison ||| lost })
      else
        let s2 := ([0, 1, 2, 3].filter (fun i => bad.getLsbD i)).foldl
          (fun s i => s.macFailed (4 * l.toNat + i) (f.sent.getLsbD i)) s
        .next (s2.setFill { f with phase := .judged, poison := f.poison ||| bad ||| lost, macBad := bad })

/-- Store a line under a lost node again as it is stored, marked poisoned, under the fresh counters. -/
def State.restorePoisoned (s : State) (k : Nat) : State :=
  match s.readLoc (k / 256), s.storedLine k with
  | some l, some st =>
    if s.listed k || s.map.overflow.isSome then
      let n := s.slotFor k st.keyGen
      let c := s.ctr (k / 64)
      ((s.keepStored l (k % 256) { st with poison := true, ctr := none,
                                           mac := lineMac (s.slot n) k c.major (c.minor (k % 64)) st.cipher }).use n 1).sealSector
        (k / 256) l [k % 256] (k % 256 / 4)
    else s
  | _, _ => s

/-- LOST_NODE_REWRITE_COMPLETE. -/
def execLostNodeRewriteComplete (t : Nat) (level : Fin 4) (node : Nat) (s0 : State) : Res :=
  let s := s0.tick t
  if !s.key.lost.contains (level.val, node) then .next s
  else
    let lines := s.underNode level.val node
    let s1 := lines.foldl State.restorePoisoned s
    let s2 := { s1 with key := { s1.key with lost := s1.key.lost.filter (fun e => e != (level.val, node)) } }
    .next ((lines.map (· / 256)).eraseDups.foldl State.settleMarked s2)

/-! ## Rebuild (R133) -/

/-- The members of a stripe block that are not retired can be read: none lies in a region that restarts, or is gated (06 R163). -/
def State.membersReady (s : State) (g : Nat) (b : StripeBlock) : Bool :=
  b.members.all (fun m => (s.die (4 * m.1 + g)).retired || (!s.dieHeld (4 * m.1 + g) && !s.med.gated.getLsbD m.1))

/-- REBUILD_MOVE of the next valid folio. -/
def execRebuildMove (t : Nat) (group : Fin 4) (folio : BitVec 29) (s0 : State) : Res :=
  let s := s0.tick t
  let f := folio.toNat
  match s.med.rebuild with
  | none => .next s
  | some r =>
    if r.group != group.val || !(s.toRebuild r.group r.die).contains f || (Tab.find s.map.homes f).isSome ||
        s.opsStop || s.changesWait || !s.railsOn || !s.icFree 1 ||
        !(match s.readLoc f with | some l => s.membersReady l.group (s.block l.group l.block) | none => true) then .next s
    else
      let e := s.entry f
      let base := match e.loc with | some l => s.onDie r.group r.die l | none => false
      let s1 := match base, e.loc, e.bead with
        | true, some l, true =>
          (match s.beadSlot false (some (blkKey l.group l.block)) with
           | (s1, some n) => s1.moveBead f 6 l n
           | (s1, none) => s1)
        | true, _, _ => s.moveToPage f 6
        | false, _, _ => s.moveShadow f
      .next (internalOp 1 0 64 (some (f * 16384)) s1)

/-- REBUILD_COMPLETE. -/
def execRebuildComplete (t : Nat) (group : Fin 4) (s0 : State) : Res :=
  let s := s0.tick t
  match s.med.rebuild with
  | none => .next s
  | some r =>
    if r.group != group.val || !(s.toRebuild r.group r.die).isEmpty then .next s
    else if !(s.integOn r.group r.die).isEmpty then .next (s.moveInteg (s.integOn r.group r.die))
    else
      let blocks := (s.med.blocks.filter (fun e => e.1 / perGroup == r.group &&
        e.2.members.any (fun m => 4 * m.1 + r.group == r.die))).map (fun e => e.1 % perGroup)
      let s1 := blocks.foldl (fun x b => x.freeIfEmpty ⟨r.group, b, 0⟩) s
      let d := s1.die r.die
      let s2 := s1.setDie r.die { d with rebuilt := true }
      let s3 := { s2 with med := { s2.med with rebuild := none, rebuiltGroups := s2.med.rebuiltGroups ++ [r.group] } }
      let s4 := (ev 0x183 0 [r.group, (s.now - r.startAt) / sec, r.moved] 4 s3).drawSpare 1572864
      .next (match s4.med.rebuildQueue with
        | [] => s4
        | q :: rest => State.startRebuild { s4 with med := { s4.med with rebuildQueue := rest } } q.1 q.2)

/-! ## Power gating (R137) -/

/-- CHANNEL_GATE: no command has reached the channel for 100 ms. -/
def execChannelGate (x : ChannelAt) (s0 : State) : Res :=
  let s := s0.tick x.t
  let c := x.channel.val
  let busy := (List.range 4).any (fun p => (s.die (4 * c + p)).op.isSome || !(s.readsOn (4 * c + p)).isEmpty)
  .next (if busy || decide (s.now < s.med.usedAt.getD c 0 + 100 * msec) || !s.railsOn || s.med.waking.getLsbD c || s.restarting (mediaRegion c) then s
    else { s with med := { s.med with gated := s.med.gated ||| BitVec.twoPow 16 c } })

/-- CHANNEL_WAKE_COMPLETE. -/
def execChannelWakeComplete (t : Nat) (channel : Fin 16) (us : Nat) (hostRead : Bool) (s0 : State) : Res :=
  let s := s0.tick t
  let c := channel.val
  if !s.med.gated.getLsbD c || s.restarting (mediaRegion c) then .next s
  else
    let s1 := { s with med := { s.med with gated := s.med.gated &&& ~~~(BitVec.twoPow 16 c),
                                           waking := s.med.waking &&& ~~~(BitVec.twoPow 16 c) } }
    let s2 := (count 0x3004 1 none ((s1.bump MED_GATE.wakes).reach c)).kick
    .next (if hostRead then ev 0x188 0 [c, us] (mediaRegion c) s2 else s2)

end Sys2Proof.Machine
end

