-- ==== Sys2Proof/Machine/Reclaim.lean ====
section
/-! DEFINITION. The map's journal and checkpoints, demotion and rotation, reclaim, wear levelling, Discard Range
(06 R146 to R173). -/

namespace Sys2Proof.Machine

/-! ## Journal and checkpoints (R164 to R167) -/

/-- JOURNAL_TAIL_FLUSH: with 15 records, 50 µs after the oldest, or at the call of a reclaim commit or the end of Discard
Range. -/
def execJournalTailFlush (t : Nat) (s0 : State) : Res :=
  let s := s0.tick t
  let old := match s.map.tailSince with | some a => decide (a + 50 * usec ≤ s.now) | none => false
  let called := s.map.tail.any (fun c => c.kind == 4) ||
    (match s.map.discard with | some d => d.left == 0 | none => false)
  .next (if s.railsOn && s.pfl.dump.isNone && (decide (15 ≤ s.map.tail.length) || old || called) then s.flushSector.changesGo else s)

/-- CHECKPOINT_SEALED: its trailer is written; `ms` is how long it took. Its map is the one that the journal gives so far; a reclaim
commit that is not yet durable, in a sector before its start, holds it back. -/
def execCheckpointSealed (t : Nat) (ms : Nat) (s0 : State) : Res :=
  let s := s0.tick t
  match s.map.ckptWriting with
  | none => .next s
  | some (slot, start) =>
    if s.map.journal.any (fun x => !x.settled && decide (x.seq < start)) then .next s
    else
      let c : Ckpt := ⟨true, start, s.map.committed, s.map.replay s.map.ckptSlot, s.map.beads⟩
      let m := { s.map with ckptOlder := s.map.ckptStart, ckptStart := start, ckptSlot := slot, ckptWriting := none,
                            ckpts := setAt s.map.ckpts slot c }
      .next (State.judgeJournal (ev 0x303 0 [slot, start, s.map.committed, ms] 4 { s with map := m.retain })).judgeCkpt.changesGo

/-- CHECKPOINT_WRITE_FAILED: it is begun again. -/
def execCheckpointWriteFailed (t : Nat) (die : Fin 64) (s0 : State) : Res :=
  let s := s0.tick t
  if !s.fitted die then .fault .noSuchUnit
  else match s.map.ckptWriting with
  | none => .next s
  | some (slot, _) =>
    .next (ev 0x304 1 [slot, die] 4 { s with map := { s.map with ckptWriting := some (slot, s.openSeq) } })

/-- An entry that no sealed checkpoint gives: all 256 lines of the folio are poisoned. -/
def State.entryLost (s : State) (f : Nat) : State :=
  ev 0x301 2 [f] 4 ((List.range 256).foldl (fun s i => s.losePoison (f * 256 + i)) s)

/-- Folios whose entries share the 8-byte data word `word` of a device's folio-map area (R144). -/
def State.wordFolios (s : State) (device word : Nat) : List Nat :=
  let a := 8 * word / 6
  let b := (8 * word + 7) / 6
  ((List.range (b - a + 1)).map (fun j => 4 * (a + j) + device)).filter (fun f => decide (f < s.folios))

/-- MAP_WORD_REBUILD_COMPLETE. A word is found uncorrectable (`r` none): requests for its folios wait. Then its entries are rebuilt,
in `ms`, or no sealed checkpoint gives them (log entry 78). -/
def execMapWordRebuildComplete (t : Nat) (device : Fin 4) (word : Nat) (r : Option (Bool × Nat)) (s0 : State) : Res :=
  let s := s0.tick t
  let fs := s.wordFolios device.val word
  match r with
  | none => .next { s with map := { s.map with rebuilding := s.map.rebuilding ++ fs.filter (fun f => !s.map.rebuilding.contains f) } }
  | some (ok, ms) =>
    if !fs.any (fun f => s.map.rebuilding.contains f) then .next s
    else
      let s1 := { s with map := { s.map with rebuilding := s.map.rebuilding.filter (fun f => !fs.contains f) } }
      .next (if ok then ev 0x300 1 (fs ++ [ms]) 4 s1 else fs.foldl State.entryLost s1)

/-! ## Demotion and rotation (R155 to R158) -/

/-- DEMOTION_SWEEP. -/
def execDemotionSweep (s : State) : Res := .next s.sweepClocks

/-- Moves stop in failed-read-only and while map changes wait. -/
def State.movesStop (s : State) : Bool := s.fro || s.changesWait || !s.railsOn || s.pfl.dump.isSome

/-- The bead area holds more than 99 % of its limit. -/
def State.beadFull (s : State) : Bool := decide (99 * s.map.beadLimit < 100 * s.beadFolios)

/-- DEMOTION of the coldest bead folio; with no clock at 0 a sweep runs at once. -/
def execDemotion (t : Nat) (folio : BitVec 29) (s0 : State) : Res :=
  let s := s0.tick t
  if s.movesStop || !s.beadFull || !s.icFree 1 then .next s
  else match s.coldest with
  | none => .next s.sweepClocks
  | some f => .next (if f = folio.toNat then internalOp 1 0 64 (some (f * 16384)) (s.moveToPage f 2) else s)

/-- Write homes that a bead folio takes in one slot before it is rotated. -/
abbrev rotateAt : Nat := 1048576

/-- BEAD_ROTATION to a free slot of another bead block. -/
def execBeadRotation (t : Nat) (folio : BitVec 29) (s0 : State) : Res :=
  let s := s0.tick t
  let f := folio.toNat
  let e := s.entry f
  match Tab.find s.map.beads f, e.loc with
  | some b, some old =>
    if s.movesStop || !s.icFree 1 || !e.bead || b.homes < rotateAt || (Tab.find s.map.homes f).isSome then .next s
    else match s.beadSlot false (some (blkKey old.group old.block)) with
    | (s1, some l) => .next ((internalOp 1 1 64 (some (f * 16384)) s1).moveBead f 3 old l)
    | (s1, none) => .next s1
  | _, _ => .next s

/-! ## Reclaim (R160 to R163) -/

/-- Valid folios of a stripe block: those that an entry or a shadow references. -/
def State.validIn (s : State) (g b : Nat) : Nat :=
  (s.foliosIn g b).length + (s.shadowsIn g b).length + (s.integIn g b).length

/-- A rebuild reads stripe block k: it has a member on the retired die. -/
def State.rebuildReads (s : State) (g : Nat) (b : StripeBlock) : Bool :=
  match s.med.rebuild with
  | some r => r.group == g && b.members.any (fun m => 4 * m.1 + g == r.die)
  | none => false

/-- The source: the sealed four-bead stripe block of group g with the fewest valid folios, of equals the one sealed earliest; never
an open one, or one that a rebuild reads. One whose members are not available waits. -/
def State.source (s : State) (g : Nat) : Option Nat :=
  ((s.med.blocks.filter (fun e => e.1 / perGroup == g && !e.2.bead && !e.2.isOpen && e.2.sealedAt.isSome &&
    !s.rebuildReads g e.2 && s.membersReady g e.2)).foldl (fun (m : Option (Nat × Nat × Nat)) e =>
      let n := s.validIn g (e.1 % perGroup)
      let a := e.2.sealedAt.getD 0
      match m with
      | none => some (e.1 % perGroup, n, a)
      | some x => if n < x.2.1 || (n == x.2.1 && decide (a < x.2.2)) then some (e.1 % perGroup, n, a) else m) none).map (·.1)

/-- Copy one version of a folio for a reclaim job; a base by its folio number, a shadow by that plus 2^29. -/
def reclaimCopy (a : State × List (Nat × Loc)) (x : Nat × Loc) : State × List (Nat × Loc) :=
  match a.1.pageSlot (x.1 % 2 ^ 29) with
  | (s1, some l) => (s1.copyFolio x.2 l, a.2 ++ [(x.1, l)])
  | (s1, none) => (s1, a.2)

/-- What reclaim copies from a source. -/
def State.versionsIn (s : State) (g b : Nat) : List (Nat × Loc) :=
  (s.foliosIn g b).filterMap (fun f => (s.entry f).loc.map (fun l => (f, l))) ++
    (s.ring.shadows.filter (fun e => inBlock g b (some e.2.loc))).map (fun e => (e.1 + 2 ^ 29, e.2.loc))

/-- Versions of a reclaim job's source that are not copied yet. -/
def State.toCopy (s : State) (g : Nat) (r : Reclaim) : List (Nat × Loc) :=
  if r.phase ≠ 0 then [] else (s.versionsIn g r.source).filter (fun v => !r.copies.any (fun c => c.1 == v.1))

/-- Reclaim of group g copies the versions `v`; integrity folios are placed by their own rule. -/
def State.reclaimCopies (s : State) (g : Nat) (r : Reclaim) (v : List (Nat × Loc)) : State :=
  let a := v.foldl reclaimCopy (s, r.copies)
  let s1 := a.1.moveInteg (a.1.integIn g r.source)
  internalOp 0 0 (64 * (a.2.length - r.copies.length)) none
    { s1 with map := { s1.map with reclaim := Tab.put s1.map.reclaim g { r with copies := a.2 } } }

/-- The card is idle for reclaim (R160): no request is held or served. -/
def State.idleNow (s : State) : Bool := s.qos.ctxs.isEmpty && s.qos.ingress.isEmpty

/-- RECLAIM_SOURCE_CHOSEN: its versions are placed in open stripe pages; what no page can take follows when the command comes again.
Above reserve reclaim runs in idle time only. -/
def execReclaimSourceChosen (t : Nat) (group : Fin 4) (s0 : State) : Res :=
  let s := s0.tick t
  let g := group.val
  if s.movesStop || !s.icFree 0 || (!s.map.floorOn.getLsbD g && !s.idleNow) then .next s
  else match Tab.find s.map.reclaim g, s.source g with
  | some r, _ => .next (if (s.toCopy g r).isEmpty then s else s.reclaimCopies g r (s.toCopy g r))
  | none, some b => .next (s.reclaimCopies g ⟨b, 0, []⟩ (s.versionsIn g b))
  | none, none => .next s

/-- Commit one copy: the entry, or the shadow, that still holds the source follows it; else the copy is dropped. -/
def commitCopy (g b : Nat) (s : State) (c : Nat × Loc) : State :=
  let f := c.1 % 2 ^ 29
  let e := s.entry f
  if c.1 < 2 ^ 29 then
    if inBlock g b e.loc then s.mapChange f (some { e with loc := some c.2 }) 4 else s.bump MAP_RECLAIM.moves_dropped
  else
    match Tab.find s.ring.shadows f with
    | some x =>
      if inBlock g b (some x.loc) then
        State.mapChange { s with ring := { s.ring with shadows := Tab.put s.ring.shadows f { x with loc := c.2 } } } f (some e) 4
      else s.bump MAP_RECLAIM.moves_dropped
    | none => s.bump MAP_RECLAIM.moves_dropped

/-- RECLAIM_COPY_COMPLETE: every copy lies in a complete stripe page. -/
def execReclaimCopyComplete (t : Nat) (group : Fin 4) (s0 : State) : Res :=
  let s := s0.tick t
  let g := group.val
  match Tab.find s.map.reclaim g with
  | none => .next s
  | some r =>
    let room := decide (s.map.tail.length + r.copies.length ≤ tailMax)
    if r.phase ≠ 0 || s.movesStop || !room || !(s.toCopy g r).isEmpty || r.copies.any (fun c => s.pageOpen c.2) then .next s
    else
      let s1 := r.copies.foldl (commitCopy g r.source) s
      let s2 := s1.bump MAP_COPIED.folios r.copies.length
      .next { s2 with map := { s2.map with reclaim := Tab.put s2.map.reclaim g { r with phase := 1 } } }

/-- RECLAIM_COMMIT_DURABLE: the commit's records are on the medium. -/
def execReclaimCommitDurable (t : Nat) (group : Fin 4) (s0 : State) : Res :=
  let s := s0.tick t
  match Tab.find s.map.reclaim group.val with
  | none => .next s
  | some r =>
    .next (if r.phase = 1 && !s.map.tail.any (fun c => c.kind == 4) then
      { s with map := { s.map with reclaim := Tab.put s.map.reclaim group.val { r with phase := 2 },
                                   journal := s.map.journal.map (fun x => { x with settled := true }) } }
    else s)

/-- RECLAIM_DRAIN_COMPLETE: no read under an old location is in flight; the source is free. -/
def execReclaimDrainComplete (t : Nat) (group : Fin 4) (s0 : State) : Res :=
  let s := s0.tick t
  match Tab.find s.map.reclaim group.val with
  | none => .next s
  | some r =>
    let reads := s.cch.fills.any (fun f => f.phase != .judged && inBlock group.val r.source f.loc)
    if r.phase ≠ 2 || reads || !(s.integIn group.val r.source).isEmpty then .next s
    else
      let s1 := { s with map := { s.map with reclaim := Tab.del s.map.reclaim group.val } }
      .next ((s1.bump MAP_RECLAIM.blocks_reclaimed).freeIfEmpty ⟨group.val, r.source, 0⟩)

/-! ## Stripe pages (06 R154, R155) -/

/-- The next copy of a reclaim job that waits for a page. -/
def State.waitingCopy (s : State) : Option (Nat × Reclaim × (Nat × Loc)) :=
  s.map.reclaim.findSome? (fun e => ((s.toCopy e.1 e.2).head?).map (fun v => (e.1, e.2, v)))

/-- One more slot of group g's open page: a demotion while the bead area is full, then a reclaim move that waits, else padding. -/
def fillSlotOf : Nat → Nat → State → State
  | 0, _, s => s
  | n + 1, g, s =>
    match Tab.find s.map.pages g with
    | none => s
    | some p =>
      if p.folios.isEmpty then s
      else
        let s1 := match (if s.beadFull then s.coldest else none) with
          | some f =>
            (match (s.entry f).loc, s.fillPage g (some f) with
             | some old, (s1, some l) => (s1.copyFolio old l).setHome f ⟨2, l, false, [], 0, 0, s.epochMode f, false, false, some old⟩
             | _, r => r.1)
          | none =>
            (match s.waitingCopy with
             | some (j, r, v) =>
               (match s.fillPage g (some (v.1 % 2 ^ 29)) with
                | (s1, some l) =>
                  let s2 := s1.copyFolio v.2 l
                  { s2 with map := { s2.map with reclaim := Tab.put s2.map.reclaim j { r with copies := r.copies ++ [(v.1, l)] } } }
                | (s1, none) => s1)
             | none => (s.fillPage g none).1)
        fillSlotOf n g s1

/-- STRIPE_PAGE_FILL_TIMEOUT: 2 ms after its first folio the page is filled up. -/
def execStripePageFillTimeout (t : Nat) (group : Fin 4) (s0 : State) : Res :=
  let s := s0.tick t
  match Tab.find s.map.pages group.val with
  | none => .next s
  | some p =>
    match p.since with
    | none => .next s
    | some a =>
      if s.now < a + 2 * msec || s.opsStop then .next s
      else .next (fillSlotOf ((s.block group.val p.block).members.length - 1 - p.folios.length) group.val s)

/-! ## Wear levelling (R170) -/

/-- Stripe blocks with a member on die i, with the wear of that member. -/
def State.wearOn (s : State) (i : Nat) : List (Nat × Nat) :=
  s.med.blocks.flatMap (fun e => (e.2.members.filter (fun m => memberDie e.1 m == i)).map (fun m =>
    (e.1, wearOf s i m.2 (if e.2.bead then State.bead1 e.2 else 0))))

/-- When a sector of stripe block k was last written. -/
def State.lastWritten (s : State) (k : Nat) : Nat :=
  largest ((s.med.secs.filter (fun e => e.1 / 65536 == k)).map (·.2.writeTime))

/-- The least-worn stripe block on die i whose data was written 7 days ago or more, with that wear. -/
def State.coldOn (s : State) (i : Nat) : Option (Nat × Nat) :=
  (s.wearOn i).foldl (fun (m : Option (Nat × Nat)) x =>
    let b := Tab.findD s.med.blocks x.1 StripeBlock.blank
    if b.counted && (b.bead || !b.isOpen) && decide (s.lastWritten x.1 + 7 * 86400 ≤ s.cal.calendar) then
      (match m with
       | none => some x
       | some y => if x.2 < y.2 then some x else m)
    else m) none

/-- A list cut into pieces of n. -/
def pieces {α : Type} : Nat → Nat → List α → List (List α)
  | 0, _, _ => []
  | k + 1, n, l => if l.isEmpty then [] else l.take n :: pieces k n (l.drop n)

/-- What a wear-levelling move takes from stripe block b of group g: folios with no placement under way, by their base or by their
shadow, and integrity folios. -/
def State.movable (s : State) (g b : Nat) : List Nat :=
  ((s.foliosIn g b ++ s.shadowsIn g b).eraseDups ++ (s.integIn g b).map (integMark + ·)).filter (fun f => (Tab.find s.map.homes f).isNone)

/-- Copy folio f from stripe block b to location l, with change records of kind 7 for its base. -/
def State.moveTo (s : State) (g b f : Nat) (l : Loc) (bead : Bool) : State :=
  if integMark ≤ f then
    let old := (Tab.find s.map.integrity (f - integMark)).bind (·.loc)
    (s.stampInteg (f - integMark) l).setHome f ⟨10, l, bead, [], 0, 0, false, false, false, old⟩
  else if inBlock g b (s.entry f).loc then
    match (s.entry f).loc with
    | some old =>
      if bead then s.moveBead f 7 old l
      else (s.copyFolio old l).setHome f ⟨7, l, false, [], 0, 0, s.epochMode f, false, false, some old⟩
    | none => s
  else
    match Tab.find s.ring.shadows f with
    | some x => (s.copyFolio x.loc l).setHome f ⟨9, l, bead, [], x.epoch, BitVec.ofNat 2 x.epoch, true, false, false, some x.loc⟩
    | none => s

/-- Move what a stripe block holds into stripe block d, newly taken: page by page, or slot by slot of a one-bead one. -/
def State.moveInto (s : State) (g b d : Nat) : State :=
  let x := s.block g b
  let s1 := s.takeNumber g d x.bead x.integrity true
  let w := (s1.block g d).members.length - 1
  let fs := s.movable g b
  if x.bead then
    fs.zipIdx.foldl (fun s e =>
      let t := s.moveTo g b e.1 ⟨g, d, e.2⟩ true
      if integMark ≤ e.1 then t.commitHome e.1
      else if inBlock g b (s.entry e.1).loc then t else t.startUpdate e.1 ⟨g, d, e.2⟩ (List.range 64)) s1
  else
    let ps := (pieces 64 w fs).zipIdx
    let s2 := ps.foldl (fun s p => (p.1.zipIdx).foldl (fun s e => s.moveTo g b e.1 ⟨g, d, p.2 * w + e.2⟩ false) s) s1
    let progs := ps.map (fun p => (⟨g, d, p.2, (p.1.map some) ++ List.replicate (w - p.1.length) none, []⟩ : PageProg))
    State.kick ({ s2 with map := { s2.map with progs := s2.map.progs ++ progs } }.sealBlock g d)

/-- WEAR_LEVEL_CHECK of one die, once per 24 hours of power-on: a spread of more than 20,000 ppm moves the coldest stripe block of
least wear into the free blocks of most wear. -/
def execWearLevelCheck (t : Nat) (die : Fin 64) (s0 : State) : Res :=
  let s := s0.tick t
  let i := die.val
  let g := dieGroup i
  if !s.fitted i then .fault .noSuchUnit
  else if s.movesStop || !s.icFree 1 || s.rebuildingGroup g || decide (s.cal.powerOnS < (s.die i).wearCheckAt + 86400) then .next s
  else
    let s1 := s.setDie i { s.die i with wearCheckAt := s.cal.powerOnS }
    match s1.coldOn i, s1.pickBlock g with
    | some (k, cold), some d =>
      let spread := largest ((s1.wearOn i).map (·.2)) - cold
      let b := k % perGroup
      if spread ≤ 20000 then .next s1
      else .next (ev 0x310 0 [i, b, d, spread] 4 (internalOp 1 0 (64 * (s1.movable g b).length) none (s1.moveInto g b d)))
    | _, _ => .next s1

/-! ## Discard Range (R149 to R151; 04 R105) -/

/-- DISCARD_RANGE. -/
def execDiscardRange (t : Nat) (path : Path) (dpa length : Nat) (restZero : Bool) (s0 : State) : Res :=
  .next ((s0.tick t).mailbox (.discardRange t path dpa length restZero) path 0xC020 false true (fun s =>
    let epoch := s.key.extents.any (fun e => e.epoch && decide (e.base * (256 * mib) < dpa + length) &&
      decide (dpa < (e.base + e.units) * (256 * mib)))
    if s.fro && s.med.froCauses != [255] then s.reply path 0xC020 .mediaDisabled
    else if s.link.background.isSome then s.reply path 0xC020 .busy
    else if !restZero || dpa % 16384 != 0 || length % 16384 != 0 || length == 0 || decide (s.capacity < dpa + length) || epoch then
      s.reply path 0xC020 .invalidInput
    else
      let s1 := s.startBackground path 0xC020 0
      { s1 with map := { s1.map with discard := some ⟨dpa, length, dpa / 16384, length / 16384, 0⟩ } }))

/-- A near line with a fill in flight as a discard leaves it: what writes have put into it is gone, and later ones survive. -/
def NearSlot.emptied (x : NearSlot) : NearSlot :=
  { x with copy := { x.copy with data := 0, dirty := 0, poison := 0 }, dirtySince := none, mask := 0, badData := 0 }

/-- Invalidate the lines of the folios that p accepts in both caches and both buffers, dirty data included; a line with a fill in
flight is invalidated when the fill lands. -/
def State.dropLines (s : State) (p : Nat → Bool) : State :=
  let mine := fun (l : BitVec 35) => p (l.toNat / 64)
  let fills := s.cch.fills.map (fun x => if mine x.l then { x with after := x.after ++ [3] } else x)
  let overlay := Tab.keep s.pfl.overlay (fun k _ => !p (k / 256))
  { s with
    cch := { s.cch with near := Tab.mapV (Tab.keep s.cch.near (fun _ x => !mine x.copy.l || x.filling))
                          (fun _ x => if mine x.copy.l then x.emptied else x),
                        evict := s.cch.evict.filter (fun e => !mine e.copy.l),
                        board := Tab.keep s.cch.board (fun _ b => !mine b.copy.l),
                        wb := s.cch.wb.filter (fun w => !mine w.copy.l), fills := fills },
    pfl := { s.pfl with overlay := overlay, overlayHeld := Tab.keep s.pfl.overlayHeld (fun k _ => !p (k / 256)) },
    map := { s.map with homes := Tab.mapV s.map.homes (fun k h => if p k then { h with dropped := true } else h) } }

/-- Discard one folio: one map change. -/
def State.discardFolio (s : State) (f : Nat) : State :=
  let e := s.entry f
  let s1 := (s.dropLines (· == f)).unlistFolio f
  let s2 := s1.mapChange f (some ⟨none, false, e.shadow, true, false, e.epochOpen⟩) 5
  let s3 := { s2 with map := { s2.map with beads := Tab.del s2.map.beads f } }
  let s4 := match e.loc with
    | some l => s3.freeIfEmpty l
    | none => s3
  s4.leaveFro

/-- DISCARD_RANGE_FOLIO. -/
def execDiscardRangeFolio (t : Nat) (s0 : State) : Res :=
  let s := s0.tick t
  match s.map.discard with
  | none => .next s
  | some d =>
    if d.left = 0 || s.changesWait || s.restarting 4 then .next s
    else
      let s1 := s.discardFolio d.next
      .next { s1 with map := { s1.map with discard := some { d with next := d.next + 1, left := d.left - 1, marked := d.marked + 1 } } }

/-- DISCARD_RANGE_COMPLETE: every change record is on the medium. -/
def execDiscardRangeComplete (t : Nat) (s0 : State) : Res :=
  let s := s0.tick t
  match s.map.discard with
  | none => .next s
  | some d =>
    if d.left ≠ 0 || s.map.tail.any (fun c => c.kind == 5) then .next s
    else .next ((ev 0x311 0 [d.dpa, d.length, d.marked] 4 { s with map := { s.map with discard := none } }).endBackground .success)

end Sys2Proof.Machine
end

