-- ==== Sys2Proof/Machine/Keys.lean ====
section
/-! DEFINITION. Key slots, the carry sweep, crypto-erase, Sanitize and Secure Erase, and their commands (08 R203 to R231). -/

namespace Sys2Proof.Machine

/-! ## Units and the slots that they name (R202 to R206) -/

/-- Bound units, as entries of the unit key table. -/
def State.boundUnits (s : State) : List (Nat × UnitKey) := s.key.units.filter (fun e => e.2.bound)

/-- A bound unit names slot k, as its key or, while swept, as its previous key. -/
def State.boundNames (s : State) (k : Nat) : Bool :=
  s.boundUnits.any (fun e => e.2.key == k || (e.2.sweeping && e.2.prev == k))

/-- Number of units whose current key is slot k: bound ones, and unbound ones whose extent (or default) gives it. -/
def State.unitsNaming (s : State) (k : Nat) : Nat :=
  let b := s.boundUnits
  let bound := (b.filter (fun e => e.2.key == k)).length
  let inExt := fun (x : ExtentEntry) => x.units - (b.filter (fun e => extHas x e.1)).length
  let listed := total ((s.key.extents.filter (fun x => x.key == k)).map inExt)
  let rest := s.unitCount - total (s.key.extents.map (·.units)) -
    (b.filter (fun e => !s.key.extents.any (fun x => extHas x e.1))).length
  bound + listed + (if k = 0 then rest else 0)

/-- A sweep that runs or waits names slot k. -/
def State.sweepNames (s : State) (k : Nat) : Bool :=
  (match s.key.sweep with
   | some w => w.newKey == k || w.oldKey == k
   | none => false) || s.key.sweepQueue.any (fun q => q.1 == k || q.2 == k)

/-- Slot k is named by a unit, an extent of the running image or a sweep (R206). -/
def State.slotNamed (s : State) (k : Nat) : Bool :=
  s.boundNames k || s.key.extents.any (fun x => x.key == k) || s.sweepNames k

def State.emptySlots (s : State) : Nat := 4096 - (s.key.slots.filter (fun e => e.2.st != 0)).length

/-- Row of partition 5 that holds three slots' wrapped keys and states (the row is the model's). -/
def slotKeyRow (k : Nat) : Nat := 512 + k / 3
def State.slotKeyBytes (s : State) (k : Nat) : Bytes :=
  (List.range 3).flatMap (fun i =>
    let x := s.slot (k / 3 * 3 + i)
    le 1 x.st ++ le 2 x.gen.toNat ++ le 8 x.uses ++ fit 72 (if x.st = 0 then [] else Config.wrapKeys x.key))

/-- Zeroise slot k: Empty, its generation kept (R206). -/
def State.emptySlot (s : State) (k : Nat) : State := s.setSlot k { (s.slot k) with st := 0, uses := 0, key := 0 }

/-- The background rotation that runs works in key slot k (02 Table 2-15). -/
def State.keyRotates (s : State) (k : Nat) : Bool :=
  (match s.link.background with | some b => b.opcode == 0xC031 | none => false) &&
    match s.key.sweep with
    | some w => w.newKey == k || w.units.any (fun u => (s.unitKey u).prev == k || (s.unitKey u).key == k)
    | none => false

/-- GENERATE_KEY: the slot is filled when its row is written. -/
def execGenerateKey (path : Path) (key : Nat) (s0 : State) : Res :=
  .next (s0.mailbox (.generateKey path key) path 0xC030 true false (fun s =>
    let target := match s.key.sweep with
      | some w => w.newKey == key
      | none => false
    if s.keyRotates key then s.reply path 0xC030 .busy
    else if key = 0 || decide (4095 < key) || s.boundNames key || target || s.key.sweepQueue.any (fun q => q.2 == key) then
      s.reply path 0xC030 .invalidInput
    else if (s.slot key).st = 0 ∧ s.emptySlots ≤ 16 then s.reply path 0xC030 .resourcesExhausted
    else s.replyAfter path 0xC030 (le 2 ((s.slot key).gen + 1).toNat) [key]
      [⟨4, 5, slotKeyRow key, (s.fillSlot key).slotKeyBytes key, 1, 0⟩]))

/-- RETIRE_KEY_ID: the slot is Empty when its row is written. -/
def execRetireKeyId (t : Nat) (path : Path) (key : Nat) (s0 : State) : Res :=
  .next ((s0.tick t).mailbox (.retireKeyId t path key) path 0xC032 true false (fun s =>
    if s.keyRotates key then s.reply path 0xC032 .busy
    else if key = 0 || decide (4095 < key) || (s.slot key).st == 0 || s.slotNamed key then s.reply path 0xC032 .invalidInput
    else s.replyAfter path 0xC032 [] [key] [⟨4, 5, slotKeyRow key, (s.emptySlot key).slotKeyBytes key, 1, 0⟩]))

/-- The end of Retire Key ID: event 0x40C with the slot's generation. -/
def State.retireKey (s : State) (k : Nat) : State := ev 0x40C 0 [k, (s.slot k).gen.toNat] 3 (s.emptySlot k)

/-- Header of Get Key Status (Table 8-9). -/
def State.keyHeader (s : State) (n : Nat) : Bytes :=
  let w : Sweep := s.key.sweep.getD ⟨0, 0, [], 0, 0, false, false, 0, 0, 0, 0⟩
  le 2 n ++ le 2 s.emptySlots ++ le 1 w.kind ++ zeros 1 ++ le 2 (if w.kind = 2 then 0xFFFF else w.extent) ++
    le 2 w.oldKey ++ le 2 w.newKey ++ zeros 4 ++ le 8 w.boundary ++ le 8 w.left

def State.keyBytes (s : State) (k : Nat) : Bytes :=
  let x := s.slot k
  le 2 k ++ le 1 x.st ++ le 1 (min 255 (s.unitsNaming k)) ++ le 2 x.gen.toNat ++ zeros 2 ++ le 8 x.uses

/-- GET_KEY_STATUS. -/
def execGetKeyStatus (path : Path) (first count : Nat) (s0 : State) : Res :=
  .next (s0.mailbox (.getKeyStatus path first count) path 0xC033 false false (fun s =>
    if 4095 < first ∨ count = 0 ∨ 4094 < count then s.reply path 0xC033 .invalidInput
    else
      let n := min count (4096 - first)
      s.reply path 0xC033 .success (s.keyHeader n ++ (List.range n).flatMap (fun i => s.keyBytes (first + i)))))

/-- Bytes of an extent entry with its live state (R228). -/
def State.extentBytes (s : State) (e : ExtentEntry) : Bytes :=
  let us := (List.range e.units).map (fun i => s.unitKey (e.base + i))
  let k0 := (s.unitKey e.base).key
  let flags := b2n e.epoch * 8 + b2n e.speculative * 16 + b2n e.pin * 32 + b2n e.encrypt * 64 + b2n e.viral * 128
  let live := b2n (us.all (fun u => u.key == k0)) + 2 * b2n (us.any (fun u => u.sweeping)) +
    4 * b2n ((List.range e.units).any (fun i => s.lockedUnit (e.base + i))) + 8 * b2n (us.any (fun u => u.erasePending))
  le 2 e.base ++ le 2 e.units ++ le 2 e.key ++ le 1 (e.cls % 8 + flags) ++ le 1 e.scrub ++ le 16 e.tag.toNat ++
    le 2 k0 ++ le 1 live ++ zeros 5

/-- GET_EXTENT_TABLE. -/
def execGetExtentTable (path : Path) (first count : Nat) (s0 : State) : Res :=
  .next (s0.mailbox (.getExtentTable path first count) path 0xC021 false false (fun s =>
    let n := s.key.extents.length
    if n ≤ first ∨ count = 0 ∨ 2047 < count then s.reply path 0xC021 .invalidInput
    else
      let es := (s.key.extents.drop first).take count
      s.reply path 0xC021 .success (le 2 n ++ le 2 es.length ++ zeros 12 ++ es.flatMap s.extentBytes)))

/-! ## Starting a sweep (R207, R220, R225, R230) -/

/-- Row of partition 5 that holds the sweep record (the row is the model's). -/
abbrev sweepRow : Nat := 2004
def Sweep.bytes (w : Sweep) : Bytes :=
  le 1 w.kind ++ le 2 w.extent ++ le 2 w.oldKey ++ le 2 w.newKey ++ le 2 (w.units.headD 0) ++ le 2 w.units.length

/-- A sweep of a list of units begins: the sweep record is asked for. -/
def State.beginSweep (s : State) (kind extent : Nat) (units : List Nat) (newKey : Nat) : State :=
  let u0 := units.headD 0
  let b := u0 * (256 * mib)
  let w : Sweep := ⟨kind, extent, units, (s.unitKey u0).key, newKey, false, false, b, b, 0, s.now⟩
  State.writeRow { s with key := { s.key with sweep := some w } } ⟨1, 5, sweepRow, w.bytes, 3, 0⟩

/-- Old keys of a sweep's units, each once; the new key is none of them. -/
def State.oldKeys (s : State) (w : Sweep) : List Nat :=
  ((w.units.map (fun u => (s.unitKey u).key)).eraseDups).filter (fun k => k != w.newKey)

/-- A unit's entry as the start of the sweep writes it. -/
def UnitKey.swept (e : UnitKey) (w : Sweep) : UnitKey :=
  ⟨w.newKey, e.key, !e.phase, true, true, e.holdsData, w.kind == 3, false⟩

def State.sweptUnits (s : State) (w : Sweep) : Tab UnitKey :=
  w.units.foldl (fun m u => Tab.put m u ((s.unitKey u).swept w)) s.key.units

/-- Ask for the rows that hold a list of units' entries. -/
def State.writeUnits (s : State) (units : List Nat) (owner : Nat) (m : Tab UnitKey) : State :=
  let t := { s with key := { s.key with units := m } }
  ((units.map unitRow).eraseDups).foldl (fun s r => s.writeRow ⟨1, 5, r, t.unitBytes r, owner, 1⟩) s

/-- The sweep record is written: a crypto-erase zeroises the old keys, slot 0 by a regeneration; then the unit rows follow. -/
def State.sweepRecorded (s : State) : State :=
  match s.key.sweep with
  | none => s
  | some w =>
    let s1 := { s with key := { s.key with sweep := some { w with recorded := true } } }
    let m := s.sweptUnits w
    let zero := fun (s : State) k => if k = 0 then s.fillSlot 0 else s.emptySlot k
    let s2 := if w.kind = 3 then (s.oldKeys w).foldl zero s1 else s1
    s2.writeUnits w.units 3 m

/-- A unit row of a sweep waits or is being written. -/
def State.sweepRowsLeft (s : State) : Bool :=
  s.tly.queue.any (fun w => w.owner == 3) || (match s.tly.running with | some w => w.owner == 3 | none => false)

/-- The new phase on every cached, buffered and overlaid copy of the folios that p accepts; a fill in flight takes it when it
lands (R221 step 3, Table 8-8). -/
def State.newPhase (s : State) (p : Nat → Bool) : State :=
  let ph := fun (l : Nat) => (s.unitKey (l / 64 / 16384)).phase
  let set := fun (c : Copy) => if p (c.l.toNat / 64) then { c with keyGen := ph c.l.toNat } else c
  let near := Tab.mapV s.cch.near (fun _ x => { x with copy := set x.copy })
  let board := Tab.mapV s.cch.board (fun _ x => { x with copy := set x.copy })
  let evict := s.cch.evict.map (fun x => { x with copy := set x.copy })
  let wb := s.cch.wb.map (fun x => { x with copy := set x.copy })
  let fills := s.cch.fills.map (fun x => if p (x.l.toNat / 64) then { x with after := x.after ++ [4] } else x)
  let line := fun (k : Nat) (d : DumpLine) => if p (k / 256) then { d with keyGen := ph (k / 4) } else d
  { s with cch := { s.cch with near := near, board := board, evict := evict, wb := wb, fills := fills },
           pfl := { s.pfl with overlay := Tab.mapV s.pfl.overlay line, overlayHeld := Tab.mapV s.pfl.overlayHeld line } }

/-- State of an old slot once the sweep has started: Old while no unit's current key; a Held one that is still named becomes
Active with its automatic sweep. -/
def State.oldSlot (s : State) (kind k : Nat) : State :=
  let x := s.slot k
  if x.st = 0 then s
  else if s.unitsNaming k = 0 then s.setSlot k { x with st := 2 }
  else if kind = 2 then s.setSlot k { x with st := 1 }
  else s

/-- The last unit row of sweep w is written: the units are under the new key. -/
def State.sweepStarted (s : State) (w : Sweep) : State :=
  let olds := s.oldKeys w
  let held := olds.any (fun k => (s.slot k).st == 3)
  let s1 := { s with key := { s.key with units := s.sweptUnits w, sweep := some { w with rowsDone := true, startAt := s.now } } }
  let s2 := olds.foldl (fun s k => s.oldSlot w.kind k) s1
  let mine := fun (f : Nat) => w.units.contains (f / 16384)
  let s3 := if w.kind = 3 then s2.dropLines mine else if held then s2.newPhase mine else s2
  ev 0x40A 0 [w.kind, w.extent, w.oldKey, w.newKey] 3 s3

/-- SWEEP_UNIT_ROWS_WRITTEN. -/
def execSweepUnitRowsWritten (t : Nat) (s0 : State) : Res :=
  let s := s0.tick t
  match s.key.sweep with
  | none => .next s
  | some w => .next (if !w.recorded || w.rowsDone || s.sweepRowsLeft then s else s.sweepStarted w)

/-- The lowest-numbered empty slot. -/
def State.lowestEmpty (s : State) : Option Nat := ((List.range 4096).drop 1).find? (fun k => (s.slot k).st == 0)

/-- Units whose current key is slot k. -/
def State.unitsUnder (s : State) (k : Nat) : List Nat := (List.range s.unitCount).filter (fun u => (s.unitKey u).key == k)

/-- Start the oldest automatic sweep that has its new key. -/
def State.nextSweep (s : State) : State :=
  if s.key.sweep.isSome then s
  else match s.key.sweepQueue.find? (fun q => q.2 != 0) with
  | none => s
  | some q =>
    State.beginSweep { s with key := { s.key with sweepQueue := s.key.sweepQueue.filter (fun x => x.1 != q.1) } }
      2 0 (s.unitsUnder q.1) q.2

/-- The key is being swept from, or waits for its sweep with a new key. -/
def State.sweepsFrom (s : State) (k : Nat) : Bool :=
  (match s.key.sweep with
   | some w => w.oldKey == k && w.kind == 2
   | none => false) || s.key.sweepQueue.any (fun q => q.1 == k && q.2 != 0)

/-- KEY_ROTATION_THRESHOLD: the new key is generated in the lowest empty slot, and the sweep of every unit under the key starts, or
waits for the running one. With no empty slot, event 0x408 comes once. -/
def execKeyRotationThreshold (t : Nat) (key : BitVec 12) (s0 : State) : Res :=
  let s := s0.tick t
  let k := key.toNat
  let x := s.slot k
  if (x.st ≠ 1 ∧ x.st ≠ 3) ∨ x.uses < rotationUses ∨ s.sweepsFrom k then .next s
  else match s.lowestEmpty with
  | none =>
    .next (if s.key.sweepQueue.any (fun q => q.1 == k) then s
      else ev 0x408 1 [k, x.uses] 3 { s with key := { s.key with sweepQueue := s.key.sweepQueue ++ [(k, 0)] } })
  | some n =>
    let s1 := s.fillSlot n
    let s2 := s1.ownRow 1 5 (slotKeyRow n) (s1.slotKeyBytes n)
    let q := s2.key.sweepQueue.filter (fun x => x.1 != k) ++ [(k, n)]
    .next (ev 0x407 0 [k, n] 3 { s2 with key := { s2.key with sweepQueue := q } }).nextSweep

/-- KEY_HELD. -/
def execKeyHeld (t : Nat) (key : BitVec 12) (s0 : State) : Res :=
  let s := s0.tick t
  let k := key.toNat
  let x := s.slot k
  .next (if x.st = 1 ∧ 2 ^ 40 ≤ x.uses then ev 0x409 2 [k] 3 (s.setSlot k { x with st := 3 }) else s)

/-- A crypto-erase is refused: the extent is epoch mode, or a unit outside it, bound or not, names one of its old keys (R225). -/
def State.eraseRefused (s : State) (x : ExtentEntry) (w : Sweep) : Bool :=
  x.epoch || (s.oldKeys w).any (fun k =>
    decide ((w.units.filter (fun u => (s.unitKey u).key == k)).length < s.unitsNaming k) ||
      s.boundUnits.any (fun e => !extHas x e.1 && e.2.sweeping && e.2.prev == k))

/-- START_KEY_ROTATION. -/
def execStartKeyRotation (t : Nat) (path : Path) (extent key : Nat) (erase : Bool) (s0 : State) : Res :=
  .next ((s0.tick t).mailbox (.startKeyRotation t path extent key erase) path 0xC031 false true (fun s =>
    if s.fro then s.reply path 0xC031 .mediaDisabled
    else if s.tallyBusy || s.link.background.isSome || s.key.sweep.isSome then s.reply path 0xC031 .busy
    else match s.key.extents[extent]? with
    | none => s.reply path 0xC031 .invalidInput
    | some x =>
      let us := (List.range x.units).map (fun i => x.base + i)
      let kind := if erase then 3 else 1
      let w : Sweep := ⟨kind, extent, us, 0, key, false, false, 0, 0, 0, 0⟩
      if (s.slot key).st ≠ 1 || us.all (fun u => (s.unitKey u).key == key) || (erase && s.eraseRefused x w) then
        s.reply path 0xC031 .invalidInput
      else (s.startBackground path 0xC031 extent).beginSweep kind extent us key))

/-! ## The carry engines (R221 to R225) -/

/-- The boundary past the folio it stands at. -/
def Sweep.next (w : Sweep) : Nat :=
  let b := w.boundary + 16384
  if w.units.contains (b / (256 * mib)) then b
  else match w.units.find? (fun u => decide (b / (256 * mib) < u)) with
    | some u => u * (256 * mib)
    | none => b

/-- Stored lines of a version of folio f that are under the old phase. -/
def State.oldLines (s : State) (f : Nat) (l : Option Loc) : List (Nat × Stored) :=
  match l with
  | some l =>
    let lost := fun n => match s.sectorAt l n with | some x => x.lost | none => false
    ((s.linesAt l).filter (fun e => e.2.keyGen != (s.unitKey (f / 16384)).phase)).map (fun e =>
      (e.1, { e.2 with poison := e.2.poison || lost (e.1 / 4) }))
  | none => []

/-- A line of folio f is in the new phase: cached, buffered, in the overlay, or stored. -/
def State.anyNew (s : State) (f : Nat) : Bool :=
  let ph := (s.unitKey (f / 16384)).phase
  let isNew := fun (c : Copy) => c.l.toNat / 64 == f && c.keyGen == ph
  s.cch.near.any (fun e => isNew e.2.copy) || s.cch.evict.any (fun e => s.heldEvict e && isNew e.copy) ||
    s.cch.board.any (fun e => isNew e.2.copy) || s.cch.wb.any (fun e => isNew e.copy) ||
    s.pfl.overlay.any (fun e => e.1 / 256 == f && e.2.keyGen == ph) ||
    (match (s.entry f).loc with
     | some l => (s.linesAt l).any (fun e => e.2.keyGen == ph)
     | none => false)

/-- Old-phase lines as they are written again: decrypted, and poisoned where the MAC fails; as zeros in a crypto-erase. -/
def State.carryLines (s : State) (f : Nat) (es : List (Nat × Stored)) (fails : BitVec 256) (erase : Bool) :
    List (HomeLine × Bool) :=
  es.map (fun e =>
    let o := s.openLine (f * 256 + e.1) e.2 0
    let ph := (s.unitKey (f / 16384)).phase
    if erase then (⟨e.1, 0, false⟩, ph)
    else (⟨e.1, o.1, e.2.poison || fails.getLsbD e.1 || !o.2⟩, ph))

/-- Event 0x402 for each line that failed its MAC. -/
def State.carryFails (s : State) (f : Nat) (es : List (Nat × Stored)) (fails : BitVec 256) (erase : Bool) (r : State) : State :=
  es.foldl (fun r e =>
    if !erase && !e.2.poison && (fails.getLsbD e.1 || !(s.openLine (f * 256 + e.1) e.2 0).2) then
      r.macPoison (f * 256 + e.1) 2
    else r) r

/-- The sweep passes the folio at the boundary. -/
def State.passFolio (s : State) (w : Sweep) (discarded : Nat) : State :=
  { s with key := { s.key with sweep := some { w with boundary := w.next, discarded := w.discarded + discarded } } }

/-- CARRY_SWEEP_FOLIO. A folio with a base and a shadow under the old phase takes two of them. The boundary holds while region K
restarts, in failed-read-only, and at an epoch-mode folio while an epoch is pending or provisional (10 Table 10-8). -/
def execCarrySweepFolio (t : Nat) (macFails : BitVec 256) (s0 : State) : Res :=
  let s := s0.tick t
  match s.key.sweep with
  | none => .next s
  | some w =>
    let f := w.boundary / 16384
    if !w.rowsDone || w.left == 0 || s.movesStop || !s.icFree 4 || s.regionHolds 3 || (Tab.find s.map.homes f).isSome || !s.boot.complete ||
        (s.epochMode f && (s.ring.pending || s.ring.provisional)) then
      .next s
    else
      let e := s.entry f
      let erase := w.kind == 3
      if erase && e.held && !s.anyNew f then .next (s.discardFolio f |>.passFolio w 1)
      else
        let s1 := if erase then s else s.newPhase (· == f)
        let whole := (List.range 64).map (fun n => ((⟨4 * n, 0, false⟩ : HomeLine), false))
        let s1 := s1.mend f whole
        let base := s1.oldLines f (if e.held then e.loc else none)
        let sh := Tab.find s1.ring.shadows f
        let top := s1.oldLines f (sh.map (·.loc))
        if base.isEmpty && top.isEmpty then .next (s1.passFolio w 0)
        else
          let es := if base.isEmpty then top else base
          let ls := s1.carryLines f es macFails erase
          let tag := BitVec.ofNat 2 s1.ring.committed
          let r := match base.isEmpty, sh, e.loc with
            | true, some x, _ =>
              if x.bead then s1.placeAt f x.loc true ls 0 9 9 x.epoch (BitVec.ofNat 2 x.epoch)
              else s1.placeNew f ls 9 9 x.epoch (BitVec.ofNat 2 x.epoch)
            | _, _, some l => s1.placeAt f l e.bead ls (if sh.isSome then 11 else 0) 1 10 s1.ring.committed tag
            | _, _, none => (s1, false)
          if r.2 then
            let n := (es.map (fun x => x.1 / 4)).eraseDups.length
            let s2 := internalOp 4 1 n (some (f * 16384)) (internalOp 4 0 n (some (f * 16384)) (r.1.writePlaced f ls (s1.overflowing f ls)))
            let s3 := s1.carryFails f es macFails erase s2
            .next (if base.isEmpty || top.isEmpty then s3.passFolio w 0 else s3)
          else .next r.1

/-- A placement of a folio of the sweep's units, between two DPAs, is not yet on the medium. -/
def State.carryBusy (s : State) (w : Sweep) (a b : Nat) : Bool :=
  s.map.homes.any (fun e => !e.2.committed && w.units.contains (e.1 / 16384) && decide (a / 16384 ≤ e.1) && decide (e.1 < b / 16384))

/-- CARRY_BOUNDARY_SAVE after every 1 GiB. What lies below the saved boundary is on the medium. -/
def execCarryBoundarySave (s : State) : Res :=
  .next (match s.key.sweep with
    | none => s
    | some w => if w.saved + gib ≤ w.boundary && !s.carryBusy w w.saved w.boundary then s.saveBoundary else s)

/-- A unit's entry once its sweep is complete. -/
def UnitKey.settled (e : UnitKey) (erase : Bool) : UnitKey :=
  { e with prev := 0, sweeping := false, erasePending := false, holdsData := e.holdsData && !erase }

/-- A previous key that nothing names any longer is retired; slot 0 is regenerated (R223). -/
def State.retirePrev (s : State) (k : Nat) : State :=
  if k = 0 then
    (if s.boundNames 0 || s.sweepNames 0 then s
     else
       let s1 := s.fillSlot 0
       ev 0x40C 0 [0, (s1.slot 0).gen.toNat] 3 (s1.ownRow 1 5 (slotKeyRow 0) (s1.slotKeyBytes 0)))
  else if (s.slot k).st = 0 then s
  else if s.slotNamed k then s.setSlot k { (s.slot k) with st := if (s.slot k).st = 2 then 1 else (s.slot k).st }
  else
    let s1 := s.retireKey k
    s1.ownRow 1 5 (slotKeyRow k) (s1.slotKeyBytes k)

/-- CARRY_SWEEP_COMPLETE. -/
def execCarrySweepComplete (t : Nat) (s0 : State) : Res :=
  let s := s0.tick t
  match s.key.sweep with
  | none => .next s
  | some w =>
    if !w.rowsDone || w.left != 0 || s.carryBusy w 0 s.capacity then .next s
    else
      let erase := w.kind == 3
      let prevs := (w.units.map (fun u => (s.unitKey u).prev)).eraseDups.filter (fun k => k != w.newKey)
      let m := w.units.foldl (fun m u => Tab.upd m u (fun e => e.settled erase)) s.key.units
      let s0 := { s with key := { s.key with units := m, sweep := none } }
      let s1 := s0.writeUnits w.units 0 m
      let s2 := s1.ownRow 1 5 sweepRow []
      let s3 := ev 0x40B 0 [w.extent, (s.now - w.startAt) / sec, w.folios] 3 s2
      let s4 := if erase then ev 0x40D 0 [w.extent, w.discarded] 3 s3 else s3
      let s5 := prevs.foldl State.retirePrev s4
      .next (if w.kind = 2 then s5 else s5.endBackground .success).nextSweep

/-! ## Sanitize and Secure Erase (R226; 02 R44; 09 Table 9-9) -/

/-- New keys in every filled slot, every unit unbound, caches and overlay empty, the tree fresh, every map entry never-written,
every stripe block free. -/
def State.eraseAll (s : State) : State :=
  let filled := (s.key.slots.filter (fun e => e.2.st != 0)).map (·.1)
  let s1 := filled.foldl State.fillSlot (s.dropLines (fun _ => true))
  let k := { s1.key with units := [], ctrs := [], ctrsHome := [], ctrCache := [], ctrMirror := [], nodes := [], nodesHome := [], nodeCache := [],
                         dirtyNodes := [], dirtyCtrs := [], lost := [], sweep := none, sweepQueue := [] }
  let m := { s1.map with entries := [], journal := [], ckpts := s1.map.ckpts.map (fun c => { c with entries := [], beads := [] }),
                         held := [], rebuilding := [], integrity := [], onChip := [], beads := [], homes := [], pages := [],
                         progs := [], tail := [], tailSince := none, reclaim := [], poison := [], overflow := none }
  let s2 := { s1 with key := k, map := m, ring := { s1.ring with shadows := [] }, link := { s1.link with lsa := [] } }
  let s3 := s2.med.blocks.foldl (fun s e => s.freeBlock (e.1 / perGroup) (e.1 % perGroup)) s2
  let dies := s3.med.dies.map (fun d => { d with op := none })
  let s4 := { s3 with med := { s3.med with store := [], secs := [], tornParity := [], recheck := [], updates := [], dies := dies }, pfl := { s3.pfl with overlay := [], overlayHeld := [] } }
  let s5 := match s4.pfl.overlaySlot with
    | some i => State.armSlot { s4 with pfl := { s4.pfl with overlaySlot := none } } i 1
    | none => s4
  s5.recalcLimit.leaveFro

/-- Rows that hold the new keys and the cleared unit entries. -/
def State.eraseRows (s old : State) (owner : Nat) : List RowWrite :=
  let ks := ((old.key.slots.filter (fun e => e.2.st != 0)).map (·.1 / 3)).eraseDups
  let us := (old.key.units.map (fun e => unitRow e.1)).eraseDups
  ks.map (fun r => ⟨4, 5, slotKeyRow (3 * r), s.slotKeyBytes (3 * r), owner, 0⟩) ++
    us.map (fun r => ⟨4, 5, r, s.unitBytes r, owner, 0⟩)

/-- SANITIZE. -/
def execSanitize (t : Nat) (path : Path) (s0 : State) : Res :=
  .next ((s0.tick t).mailbox (.sanitize t path) path 0x4400 true true (fun s =>
    if s.link.background.isSome then s.reply path 0x4400 .busy
    else
      let s1 := (s.startBackground path 0x4400 0).eraseAll
      (s1.eraseRows s 0).foldl State.writeRow { s1 with key := { s1.key with erasing := some 0x4400 } }))

/-- SANITIZE_COMPLETE: the medium is reset. -/
def execSanitizeComplete (t : Nat) (s0 : State) : Res :=
  let s := s0.tick t
  .next (if s.key.erasing = some 0x4400 then { s with key := { s.key with erasing := none } }.endBackground .success else s)

/-- SECURE_ERASE: refused Busy while a background command works in extents or keys (02 Table 2-15). -/
def execSecureErase (t : Nat) (path : Path) (s0 : State) : Res :=
  .next ((s0.tick t).mailbox (.secureErase t path) path 0x4401 true true (fun s =>
    let busy := match s.link.background with
      | some b => b.opcode != 0xC070
      | none => false
    if busy then s.reply path 0x4401 .busy
    else
      let s1 := s.eraseAll
      State.replyAfter { s1 with key := { s1.key with erasing := some 0x4401 } } path 0x4401 [] [] (s1.eraseRows s 1)))

/-- MEDIUM_RESET_COMPLETE. -/
def execMediumResetComplete (t : Nat) (s0 : State) : Res :=
  let s := s0.tick t
  .next { s with key := { s.key with resetPending := false } }

end Sys2Proof.Machine
end

