-- ==== Sys2Proof/Machine/Image.lean ====
section
/-! DEFINITION. The configuration flash: the boot header, the checks of configuration and firmware images, how an image comes into
force, and the commands that transfer, select and report them (12 R325, R326, R333 to R342; 11 R301, R311; 08 R200; 03 R74;
06 R156; 10 R274; 13 R363). -/

namespace Sys2Proof.Machine

/-! ## The boot header (R326) -/

/-- Write the record: the copy not used first, then the other, both with sequence + 1. -/
def Boot.putHeader (b : Boot) (g : BootHeader → BootHeader) : Boot :=
  let h := match b.header with
    | some h => h
    | none => ⟨true, 0, 0, 0, 0, false⟩
  let x := { (g h) with valid := true, sequence := h.sequence + 1 }
  { b with headers := [x, x] }

def State.putHeader (s : State) (g : BootHeader → BootHeader) : State := { s with boot := s.boot.putHeader g }

/-- The copies are valid with equal sequence and different content. -/
def Boot.headersClash (b : Boot) : Bool :=
  match b.headers with
  | [x, y] => x.valid && y.valid && x.sequence == y.sequence && x != y
  | _ => false

/-! ## Firmware images (R340, R342) -/

/-- Silicon step of the card (02: ID_PRODUCT.silicon_step). -/
def siliconStep : Nat := ID_PRODUCT.silicon_step.dflt

/-- Why an image's header does not fit the card, as event 0x581 codes it. -/
def State.fwMisfit (s : State) (i : FwImage) : Option Nat :=
  if !i.formatOk || decide (siliconStep < i.minStep) then some 0
  else if !i.keyInFuses || !i.signatureOk then some 1
  else if i.rollback < s.boot.rollback then some 3
  else if i.layoutHigh < s.boot.layout then some 4
  else none

/-- Why step 0x02 refuses a slot. -/
def State.fwRefused (s : State) (x : FwSlot) : Option Nat :=
  if x.st = 0 ∨ x.st = 3 then some 0
  else match s.fwMisfit x.img with
  | some c => some c
  | none => if x.img.digestOk then none else some 2

/-! ## Configuration images: format 2 (R336) -/

/-- Limit entry of a format 2 image: its throttle level is level 1; the store has no level 2. -/
def convertLimit (k : Nat) (e : LimitEntry) : LimitEntry := { e with t2 := if k = 3 then 0 else e.t1 + (e.shutdown - e.t1) / 2 }

def convertImage (i : Image) : Image :=
  if i.format = 2 then
    { i with thermal := i.thermal.map (fun t => { t with limits := t.limits.mapIdx convertLimit }),
             ring := i.ring.map (fun r => { r with waitMs := 2000 }),
             caps := i.caps.map (fun l => List.replicate 4 (l.headD 0)) }
  else i

/-! ## The checks of R335 -/

/-- Why an image is refused: the cause of event 0x583, the event source of the check, and the owning chapter's event data. -/
structure Refused where
  cause : Nat
  src : Nat
  data : List Nat
deriving DecidableEq, Repr

/-- Rails that must come up in order (11 Table 11-3). -/
def railPairs : List (Nat × Nat) :=
  [(1, 2), (2, 3), (3, 4), (3, 8), (3, 9), (3, 11), (4, 5), (8, 6), (6, 7), (11, 10), (10, 12)] ++
    (List.range 12).map (fun r => (r + 1, 13))

/-- The slot table's first broken rule, with its rail: 300 the ranges, 301 a pair. -/
def slotTableBad (l : List SlotEntry) : Option (Nat × Nat) :=
  let e := fun (r : Nat) => l.getD r ⟨0, 0, 0⟩
  if l.length ≠ 14 ∨ e 0 ≠ ⟨0, 0, 0⟩ then some (300, 0)
  else match ((List.range 14).drop 1).find? (fun r => decide (65535 < (e r).on) || decide (65535 < (e r).off) ||
      (e r).pg == 0 || decide (5000 < (e r).pg)) with
  | some r => some (300, r)
  | none =>
    (railPairs.find? (fun p => decide ((e p.2).on < (e p.1).on + (e p.1).pg) ||
      decide ((e p.1).off < (e p.2).off + (e p.2).pg))).map (fun p => (301, p.2))

/-- The limits of one kind keep R311: at or below Table 11-9, strictly rising, hysteresis 2 to 10. -/
def limitOk (k : Nat) (e : LimitEntry) : Bool :=
  let m := defaultLimits.getD k ⟨0, 0, 0, 0, 0⟩
  decide (e.warning ≤ m.warning) && decide (e.t1 ≤ m.t1) && decide (e.t2 ≤ m.t2) && decide (e.shutdown ≤ m.shutdown) &&
    decide (e.warning < e.t1) && (if k = 3 then e.t2 == 0 && decide (e.t1 < e.shutdown)
      else decide (e.t1 < e.t2) && decide (e.t2 < e.shutdown)) && decide (2 ≤ e.hyst) && decide (e.hyst ≤ 10)

/-- The thermal section's first broken rule, with its sensor (the first of its kind). -/
def thermalBad (t : ThermalSec) : Option (Nat × Nat) :=
  if t.limits.length ≠ 4 ∨ t.neighbours.length ≠ 64 then some (311, 0)
  else match (List.range 4).find? (fun k => !limitOk k (t.limits.getD k ⟨0, 0, 0, 0, 0⟩)) with
  | some k => some (311, [0, 24, 56, 60].getD k 0)
  | none =>
    ((List.range 64).find? (fun i =>
      let l := t.neighbours.getD i []
      l.length != 4 || l.any (fun n => n != 255 && (decide (63 < n) || n == i || sensorKind n != sensorKind i)))).map
        (fun i => (311, i))

/-- The extent table's first failing check, in the order of R200 (1 overlap, 2 capacity, 3 range, 4 reserved), with its extent. -/
def extentsBad (units : Nat) (l : List ExtentEntry) : Option (Nat × Nat) :=
  let n := l.zipIdx
  let bad := fun (c : Nat) (p : ExtentEntry × Nat → Bool) => (n.find? p).map (fun e => (e.2, c))
  (bad 1 (fun e => n.any (fun x => decide (x.2 < e.2) && decide (x.1.base < e.1.base + e.1.units) &&
      decide (e.1.base < x.1.base + x.1.units)))).orElse (fun _ =>
  (bad 2 (fun e => decide (units < e.1.base + e.1.units))).orElse (fun _ =>
  (bad 3 (fun e => e.1.units == 0 || decide (32768 < e.1.units) || decide (4095 < e.1.key) || decide (7 < e.1.cls) ||
      decide (3 < e.1.scrub) || decide (4096 ≤ e.2))).orElse (fun _ =>
  bad 4 (fun e => e.1.reserved))))

/-- An entry of the class table lies in its ranges (03 Table 3-3). -/
def classOk (e : ClassEntry) : Bool :=
  decide (1000 ≤ e.target) && decide (e.target ≤ 1000000) && decide (1 ≤ e.limit) && decide (e.limit ≤ 4096) &&
    decide (e.floor ≤ e.ceiling) && decide (e.ceiling ≤ 1024) && decide (1 ≤ e.window) && decide (e.window ≤ 10000) &&
    decide (e.guarRead ≤ 112000) && decide (e.guarWrite ≤ 104000) && e.reserved == 0

/-- The admission envelope (03 Table 3-6). -/
def State.admRead (s : State) : Nat := match s.part with | .p8192 => 68544 | .p4096 => 36720
def State.admWrite (s : State) : Nat := match s.part with | .p8192 => 6480 | .p4096 => 3240

/-- The class table's first failing check of 03 R74, with the sum found and its limit. -/
def State.classesBad (s : State) (l : List ClassEntry) : Option (List Nat) :=
  let sum := fun (g : ClassEntry → Nat) => total (l.map g)
  if l.length ≠ 8 ∨ !l.all classOk then some [1, 0, 0]
  else if 4096 < sum (·.limit) then some [2, sum (·.limit), 4096]
  else if 1024 < sum (·.floor) then some [3, sum (·.floor), 1024]
  else if s.admRead < sum (·.guarRead) then some [4, sum (·.guarRead), s.admRead]
  else if s.admWrite < sum (·.guarWrite) then some [5, sum (·.guarWrite), s.admWrite]
  else none

/-- Units of pinned extents. -/
def pinnedUnits (l : List ExtentEntry) : Nat := total ((l.filter (·.pin)).map (·.units))

def State.ringOk (s : State) (r : RingSec) : Bool :=
  decide (1 ≤ r.ringId) && decide (r.ringId ≤ 65535) && decide (1 ≤ r.members) && decide (r.members ≤ 16) &&
    decide (r.master < r.members) && decide (100 ≤ r.waitMs) && decide (r.waitMs ≤ 2500) &&
    (r.serials.take r.members).contains s.serial.toNat

/-- A trigger definition keeps 13 R363: BAR2 is 1 MiB. -/
def triggerOk (t : Trigger) : Bool :=
  let offOk := fun (n : Nat) => decide (n < 1048576) && n % 8 == 0
  decide (t.source ≤ 0x5FF) && decide (t.count ≤ 6) && (t.snaps.take t.count).all offOk && (!t.condOn || offOk t.condReg)

def State.defaultPolicy (s : State) : Policy := ⟨20, s.floorDefault, 20, 100⟩

/-- Check 9: routing, triggers, rate caps, link options and policy against their ranges. -/
def State.restOk (s : State) (i : Image) : Bool :=
  (i.routing.getD []).all (fun e => e.2 == 0 || (decide (5 ≤ e.2) && decide (e.2 ≤ 31))) &&
    decide ((i.routing.getD []).length ≤ 1536) && (i.triggers.getD []).all triggerOk && decide ((i.triggers.getD []).length ≤ 128) &&
    (i.caps.getD []).all (fun n => [24, 28, 32].contains n) &&
    (match i.link with
     | some l => decide (1 ≤ l.rate) && decide (l.rate ≤ 4) && [4, 8, 16].contains l.width
     | none => true) &&
    (match i.policy with
     | some p => decide (5 ≤ p.dirtyAge) && decide (p.dirtyAge ≤ 200) && decide (s.floorLow ≤ p.beadFloor) &&
         decide (p.beadFloor ≤ s.floorDefault) && decide (2 ≤ p.scrubIdle) && decide (p.scrubIdle ≤ 1000)
     | none => true)

/-- Check 1: header and directory. -/
def State.headerBad (s : State) (i : Image) : Bool :=
  !i.headerOk || !(i.format == 2 || i.format == 3) || !(i.subsystem == 0 || i.subsystem == s.capGib) ||
    decide (i.length < 4096) || decide (2097152 < i.length)

/-- Check 2: authentication (R334). -/
def State.authBad (s : State) (i : Image) : Bool :=
  let signedOk := i.keySection == some i.keyDigest && i.signatureOk
  match s.boot.enrolled with
  | some k => !(i.signed && i.keyDigest == k && signedOk)
  | none => (i.enrol && !i.signed) || (i.signed && !signedOk)

/-- Checks 2 to 9 of R335: the first that fails. -/
def State.bodyRefused (s : State) (stored : Image) : Option Refused :=
  let i : Image := convertImage stored
  if s.authBad stored then some ⟨1, 0x583, []⟩
  else if !i.digestOk then some ⟨2, 0x583, []⟩
  else match i.slotTable.bind slotTableBad, i.thermal.bind thermalBad, i.extents.bind (extentsBad s.unitCount),
      i.classes.bind s.classesBad with
  | some b, _, _, _ => some ⟨3, 0x513, [b.1, b.2]⟩
  | none, some b, _, _ => some ⟨3, 0x513, [b.1, b.2]⟩
  | none, none, some b, _ => some ⟨3, 0x410, [b.1, b.2]⟩
  | none, none, none, some l => some ⟨3, 0x09A, l⟩
  | none, none, none, none =>
    let floor := (i.policy.getD s.defaultPolicy).beadFloor
    let pins := pinnedUnits (i.extents.getD [])
    if floor * 4 < pins then some ⟨3, 0x30A, [divUp pins 4, floor]⟩
    else if (match i.ring with | some r => !s.ringOk r | none => false) || !s.restOk i then some ⟨3, 0x583, []⟩
    else none

/-- Every check of R335. -/
def State.imageRefused (s : State) (i : Image) : Option Refused :=
  if s.headerBad i then some ⟨0, 0x583, []⟩ else s.bodyRefused i

/-- The events of a refused image: the owning chapter's, and event 0x583 with the slot, the cause and the check's source. -/
def State.refuseImage (s : State) (slot : Nat) (r : Refused) : State :=
  let region := if r.src = 0x410 then 3 else if r.src = 0x30A then 4 else 1
  let s1 := if r.src = 0x583 then s else ev r.src 2 r.data region s
  ev 0x583 2 [slot, r.cause, r.src] 1 s1

/-! ## An image comes into force (R335; 08 R202) -/

/-- Event 0x40E once per extent with a bound unit whose key is not the image's. -/
def State.noteBound (s : State) : State :=
  s.key.extents.zipIdx.foldl (fun s e =>
    match s.boundUnits.find? (fun u => extHas e.1 u.1 && u.2.key != e.1.key) with
    | some u => ev 0x40E 0 [e.2, u.2.key, e.1.key] 3 s
    | none => s) s

/-- The ring as a member list gives it: the other members are absent until their DISCOVERs come. -/
def State.takeRing (s : State) (r : Option RingSec) : State :=
  let me := s.serial.toNat
  let none_ : Member := { Member.atReset with serial := me, present := true, version := 2 }
  match r with
  | none => { s with ring := { s.ring with ringId := 0, waitMs := 2000, members := [none_], own := 0, masterIx := 0 } }
  | some x =>
    let ms := (x.serials.take x.members).map (fun n => { Member.atReset with serial := n, present := n == me,
                                                                                version := if n = me then 2 else 0 })
    let own := ((x.serials.take x.members).findIdx? (fun n => n == me)).getD 0
    { s with ring := { s.ring with ringId := x.ringId, waitMs := x.waitMs, members := ms, own := own, masterIx := x.master } }

/-- The sections of an image, or what stands for an absent one (Table 12-7). -/
def State.takeSections (s : State) (i : Image) : State :=
  let p := i.policy.getD s.defaultPolicy
  let route := (i.routing.getD []).zipIdx.foldl (fun m e => Tab.put m e.2 e.1) ([] : Tab (Bool × Nat))
  let run : Running := ⟨i.classes.getD (List.replicate 8 defaultClass), route, i.routing.isNone, i.triggers.getD [],
    i.caps.getD [32, 32, 32, 32], i.link.getD ⟨4, 16, true, true⟩, p⟩
  let t := i.thermal.getD ⟨defaultLimits, defaultNeighbours⟩
  let exts := i.extents.getD []
  let s1 := { s with run := run, thm := { s.thm with limits := t.limits, neighbours := t.neighbours },
                     key := { s.key with extents := exts },
                     pwr := { s.pwr with table := i.slotTable.getD bootSlotTable, imageTable := true } }
  let s2 := { s1 with map := { s1.map with pinned := pinnedUnits exts } }
  (State.recalcLimit { s2 with map := { s2.map with beadFloor := s2.loweredFloor } }).noteBound

/-- First 8 bytes of a digest. -/
def digestHead (d : Nat) : Nat := d % 2 ^ 64

/-- Row of partition 5 that holds the enrolled key, the anti-rollback counter and the tally layout (the row is the model's). -/
abbrev enrolRow : Nat := 2006
def Boot.enrolBytes (b : Boot) : Bytes := le 32 (b.enrolled.getD 0) ++ le 2 b.rollback ++ le 1 b.layout

/-- Enrol the key of an image with both flags set, while none is enrolled (R334). -/
def State.enrol (s : State) (i : Image) : State :=
  if i.enrol && i.signed && s.boot.enrolled.isNone then
    let s1 := { s with boot := { s.boot with enrolled := some i.keyDigest } }
    ev 0x58D 0 [digestHead i.keyDigest] 1 (s1.ownRow 1 5 enrolRow s1.boot.enrolBytes)
  else s

/-- Take the image of a slot at step 0x03. -/
def State.takeImage (s : State) (slot : Nat) (i : Image) : State :=
  let c := convertImage i
  let first := i.format == 2 && !s.boot.converted.contains i.sequence
  let b := { s.boot with cfgSource := slot, cfgSequence := i.sequence, cfgFormat := i.format, cfgDigest := i.bodyDigest,
                         lastSequence := i.sequence, migrated := s.boot.migrated || i.format == 2,
                         converted := if first then s.boot.converted ++ [i.sequence] else s.boot.converted,
                         saveExtents := s.boot.savedExtents != some (c.extents.getD []) }
  let s1 := ({ s with boot := b }.takeSections c).takeRing c.ring
  let s2 := if first then ev 0x586 0 [slot, i.sequence] 1 s1 else s1
  s2.enrol i

/-- Take the fallback: the saved extent table, every other section absent; the other ring members count as absent. -/
def State.takeFallback (s : State) : State :=
  let b := { s.boot with cfgSource := 2, cfgSequence := 0, cfgFormat := 3, saveExtents := false }
  let i := { emptyImage with extents := s.boot.savedExtents }
  let ms := s.ring.members.mapIdx (fun j m => if j = s.ring.own then { m with present := true } else { m with present := false })
  let s1 := { s with boot := b }.takeSections i
  ev 0x584 2 [b2n s.boot.savedExtents.isSome] 1 { s1 with ring := { s1.ring with members := ms } }

/-! ## Transfers (R337, R341; 02 R44) -/

/-- A transfer in progress: one whose last part came 30 s ago or more is abandoned. -/
def State.liveTransfer (s : State) (x : Option Transfer) : Option Transfer :=
  match x with
  | some t => if t.lastAt + 30 * sec ≤ s.now then none else some t
  | none => none

/-- What the mailbox answers to a part before its contents are looked at: none when the part stands where it must. -/
def partRefused (p : Path) (x : Option Transfer) (a : XferAction) (offset length lenMax : Nat) : Option Rc :=
  match x with
  | some t =>
    if t.path ≠ p then some .fwTransferInProgress
    else match a with
    | .full | .initiate => if offset ≠ 0 then some .fwTransferOutOfOrder
        else if length < 4096 || decide (lenMax < length) then some .invalidInput else none
    | .continue | .finish => if offset ≠ t.next then some .fwTransferOutOfOrder
        else if lenMax < length || offset % 128 != 0 then some .invalidInput else none
    | .abort => none
  | none =>
    match a with
    | .full | .initiate => if offset ≠ 0 then some .fwTransferOutOfOrder
        else if length < 4096 || decide (lenMax < length) then some .invalidInput else none
    | .continue | .finish => some .fwTransferOutOfOrder
    | .abort => some .invalidInput

/-- Event 0x58B: a transfer refused at its header. A cause that the manual does not number is a free value. -/
def State.refuseHeader (s : State) (kind : Nat) (cause : Option Nat) : State :=
  match cause with
  | some c => ev 0x58B 1 [kind, c] 1 s
  | none => ev 0x58B 1 [kind, Config.free s.fresh] 1 { s with fresh := s.fresh + 1 }

/-- Why the header of a configuration image is refused: some none where the manual numbers no cause. -/
def State.cfgHeaderRefused (s : State) (i : Image) : Option (Option Nat) :=
  if s.headerBad i then some (some 0)
  else if i.sequence ≤ s.boot.lastSequence then some none
  else match s.boot.enrolled with
  | some k => if i.keyDigest = k then none else some (some 1)
  | none => none

def State.setCfg (s : State) (slot : Nat) (x : CfgSlot) : State := { s with boot := { s.boot with cfg := setAt s.boot.cfg slot x } }
def State.setFw (s : State) (slot : Nat) (x : FwSlot) : State := { s with boot := { s.boot with fw := setAt s.boot.fw slot x } }
def State.setCfgXfer (s : State) (x : Option Transfer) : State := { s with link := { s.link with cfgTransfer := x } }
def State.setFwXfer (s : State) (x : Option Transfer) : State := { s with link := { s.link with transfer := x } }

/-- The end action of a configuration transfer that has received `n` bytes. -/
def State.endCfg (s : State) (p : Path) (slot n : Nat) (img : Image) : State :=
  let s1 := s.setCfgXfer none
  let r := if n = img.length then s.bodyRefused img else some ⟨0, 0x583, []⟩
  match r with
  | none => (s1.setCfg slot ⟨1, img⟩).reply p 0xC010 .success
  | some r => ((s1.setCfg slot ⟨2, img⟩).refuseImage slot r).reply p 0xC010 .fwVerificationFailed

/-- TRANSFER_CONFIGURATION_IMAGE: a part of the target slot's image. -/
def execTransferConfigurationImage (t : Nat) (path : Path) (a : XferAction) (offset length : Nat) (img : Image) (s0 : State) :
    Res :=
  .next ((s0.tick t).mailbox (.transferConfigurationImage t path a offset length img) path 0xC010 false false (fun s =>
    let x := s.liveTransfer s.link.cfgTransfer
    let slot := match x with | some t => t.slot | none => s.boot.otherCfg
    match partRefused path x a offset length 65408 with
    | some rc => s.reply path 0xC010 rc
    | none =>
      match a with
      | .abort => ((s.setCfgXfer none).setCfg slot ⟨0, emptyImage⟩).reply path 0xC010 .success
      | .continue => (s.setCfgXfer (some ⟨path, slot, offset + length, s.now⟩)).reply path 0xC010 .success
      | .finish => s.endCfg path slot (offset + length) img
      | _ =>
        let slot := s.boot.otherCfg
        match s.cfgHeaderRefused img with
        | some c => (s.refuseHeader 1 c).reply path 0xC010 .fwVerificationFailed
        | none =>
          let s1 := s.setCfg slot ⟨3, img⟩
          if a = .full then s1.endCfg path slot length img
          else (s1.setCfgXfer (some ⟨path, slot, length, s.now⟩)).reply path 0xC010 .success))

/-- 64 bytes of a slot in Get Configuration Image Info (R338). -/
def State.cfgInfo (s : State) (i : Nat) : Bytes :=
  let x := s.boot.cfg.getD i ⟨0, emptyImage⟩
  let signed := match s.boot.enrolled with | some k => x.img.signed && x.img.keyDigest == k | none => false
  let flags := b2n (s.boot.cfgSource == i) + 2 * b2n (s.boot.cfgNext == i) + 4 * b2n signed
  if x.st = 0 then le 1 0 ++ le 1 flags ++ zeros 62
  else le 1 x.st ++ le 1 flags ++ le 2 x.img.format ++ le 4 x.img.sequence ++ le 4 x.img.length ++ le 32 x.img.bodyDigest ++ zeros 20

/-- GET_CONFIGURATION_IMAGE_INFO. -/
def execGetConfigurationImageInfo (path : Path) (s0 : State) : Res :=
  .next (s0.mailbox (.getConfigurationImageInfo path) path 0xC011 false false (fun s =>
    s.reply path 0xC011 .success (le 32 (s.boot.enrolled.getD 0) ++ s.cfgInfo 0 ++ s.cfgInfo 1)))

/-- SELECT_CONFIGURATION_SLOT: cfg_next, and the failure memory of step 0x03 is cleared (R329). -/
def execSelectConfigurationSlot (path : Path) (slot : Nat) (restZero : Bool) (s0 : State) : Res :=
  .next (s0.mailbox (.selectConfigurationSlot path slot restZero) path 0xC012 false false (fun s =>
    if 1 < slot || !restZero || (s.boot.cfg.getD slot ⟨0, emptyImage⟩).st != 1 then s.reply path 0xC012 .invalidInput
    else
      let s1 := s.putHeader (fun h => { h with cfgNext := slot })
      { s1 with boot := { s1.boot with failure := Tab.del s1.boot.failure 3 } }.reply path 0xC012 .success))

/-- The slot that runs; none in recovery. -/
def State.runningFw (s : State) (slot : Nat) : Bool := !s.boot.recovery && s.boot.fwSlot == slot

/-- The end action of a firmware transfer. -/
def State.endFw (s : State) (p : Path) (slot : Nat) (img : FwImage) : State :=
  let s1 := (s.setFwXfer none).setFw slot ⟨if img.digestOk then 1 else 2, img⟩
  s1.reply p 0x0201 (if img.digestOk then .success else .fwVerificationFailed)

/-- TRANSFER_FW: slot 1 is A and 2 is B. -/
def execTransferFw (t : Nat) (path : Path) (a : XferAction) (slot : Nat) (offset length : Nat) (img : FwImage) (s0 : State) : Res :=
  .next ((s0.tick t).mailbox (.transferFw t path a slot offset length img) path 0x0201 false false (fun s =>
    let x := s.liveTransfer s.link.transfer
    let k := match x, a with
      | some t, .continue => t.slot
      | some t, .finish => t.slot
      | some t, .abort => t.slot
      | _, _ => slot - 1
    match partRefused path x a offset length 65536 with
    | some rc => s.reply path 0x0201 rc
    | none =>
      match a with
      | .abort => ((s.setFwXfer none).setFw k ⟨0, noFw⟩).reply path 0x0201 .success
      | .continue => (s.setFwXfer (some ⟨path, k, offset + length, s.now⟩)).reply path 0x0201 .success
      | .finish => s.endFw path k img
      | _ =>
        if slot = 0 || decide (2 < slot) || s.runningFw k then s.reply path 0x0201 .invalidSlot
        else match s.fwMisfit img with
        | some c => (s.refuseHeader 0 (some c)).reply path 0x0201 .fwVerificationFailed
        | none =>
          let s1 := s.setFw k ⟨3, img⟩
          if a = .full then s1.endFw path k img
          else (s1.setFwXfer (some ⟨path, k, length, s.now⟩)).reply path 0x0201 .success))

/-- ACTIVATE_FW, offline only. Activating the running slot cancels an activation. -/
def execActivateFw (t : Nat) (path : Path) (online : Bool) (slot : Nat) (s0 : State) : Res :=
  .next ((s0.tick t).mailbox (.activateFw t path online slot) path 0x0202 false false (fun s =>
    let k := slot - 1
    let x := s.boot.fw.getD k ⟨0, noFw⟩
    if online then s.reply path 0x0202 .unsupported
    else if slot = 0 ∨ 2 < slot ∨ x.st ≠ 1 then s.reply path 0x0202 .invalidSlot
    else if (s.fwMisfit x.img).isSome then s.reply path 0x0202 .fwVerificationFailed
    else
      let own := s.runningFw k
      let s1 := s.putHeader (fun h => { h with fwNext := k, pending := !own })
      let s2 := { s1 with boot := { s1.boot with failure := Tab.del s1.boot.failure 2 } }
      (if own then s2 else ev 0x58A 0 [k, x.img.version] 1 s2).reply path 0x0202 .success))

/-- ASCII digits of a number below 2^16. -/
def digits (n : Nat) : Bytes :=
  let ds := [n / 10000, n / 1000 % 10, n / 100 % 10, n / 10 % 10, n % 10]
  let rest := ds.dropWhile (fun d => d == 0)
  (if rest.isEmpty then [0] else rest).map (fun d => BitVec.ofNat 8 (48 + d))

/-- "major.minor.build" in a 16-byte field; a slot that is empty gives zeros. -/
def revision (x : FwSlot) : Bytes :=
  let v := x.img.version
  if x.st = 0 then zeros 16
  else fit 16 (digits (v / 2 ^ 24 % 256) ++ [46] ++ digits (v / 2 ^ 16 % 256) ++ [46] ++ digits (v % 2 ^ 16))

/-- GET_FW_INFO in the layout of CXL 3.1 (log entry 35): slots, active and staged slot, activation capabilities, revisions. -/
def execGetFwInfo (path : Path) (s0 : State) : Res :=
  .next (s0.mailbox (.getFwInfo path) path 0x0200 false false (fun s =>
    let active := if s.boot.recovery then 0 else s.boot.fwSlot + 1
    let staged := if s.boot.pending then s.boot.fwNext + 1 else 0
    s.reply path 0x0200 .success (le 1 2 ++ le 1 (active + 8 * staged) ++ zeros 14 ++
      (s.boot.fw.take 2).flatMap revision ++ zeros 32)))

end Sys2Proof.Machine
end

