-- ==== Sys2Proof/Machine/Ring.lean ====
section
/-! DEFINITION. The reckoning ring: cables and sync, joining, heartbeats, coordinated flush, the close of an epoch,
recovery, and the ring's commands (10 R269 to R295). -/

namespace Sys2Proof.Machine

/-! ## The ring's state (R275, R276, R291) -/

/-- The member list names only this card. -/
def State.alone (s : State) : Bool := decide (s.ring.members.length ≤ 1)

/-- The ring is broken: event 0x4A1 with its cause and port. -/
def State.breakRing (s : State) (cause port : Nat) : State :=
  if s.ring.st = 1 ∨ s.ring.st = 4 ∨ (cause = 2 ∧ s.ring.st ≠ 2) then
    ev 0x4A1 1 [cause, port] 1 { s with ring := { s.ring with st := 2 } }
  else s

/-- Judge the cable state (R275). -/
def State.judgeCables (s : State) : State :=
  let i := s.ring.inCable
  let o := s.ring.outCable
  if !i && !o then
    if s.alone then { s with ring := { s.ring with st := 3, version := 0, position := some 0, bypass := true } }
    else s.breakRing 2 0
  else if i != o then (ev 0x4AD 1 [0] 1 s).breakRing 2 (if i then 1 else 0)
  else s

/-- RING_CABLE_CHANGE. -/
def execRingCableChange (t : Nat) (inCable outCable : Bool) (s : State) : Res :=
  let s := s.tick t
  let s1 := { s with ring := { s.ring with inCable := inCable, outCable := outCable } }
  .next (if s1.boot.running || s1.boot.complete then s1.judgeCables else s1)

/-- The cards exchange DISCOVERs afresh (R291): each other member is to be heard again, within the wait of R289 from now. -/
def State.rejoin (s : State) : State :=
  let ms := s.ring.members.mapIdx (fun i m => if i = s.ring.own then m else { m with present := false })
  { s with ring := { s.ring with st := 0, members := ms, joinStart := if s.ring.joined then s.now else s.ring.joinStart } }

/-- RING_SYNC_ACQUIRED: a broken ring that is cabled joins again; its cards exchange DISCOVERs (R291). -/
def execRingSyncAcquired (t : Nat) (s : State) : Res :=
  let s := s.tick t
  let s1 := { s with ring := { s.ring with inSync := true } }
  .next (if s.ring.st = 2 ∧ s.ring.inCable ∧ s.ring.outCable then s1.rejoin else s1)

/-- RING_SYNC_LOST: `bypassLimit` when more bypassed cards than R271 allows keep the receiver out of sync. -/
def execRingSyncLost (t : Nat) (bypassLimit : Bool) (s : State) : Res :=
  let s := s.tick t
  let s1 := if s.ring.inSync then
      let r := s.bump RING_ERR.sync_losses
      { r with ring := { r.ring with inSync := false } }
    else s
  let s2 := s1.breakRing 0 0
  .next (if bypassLimit then ev 0x4AD 1 [1] 1 s2 else s2)

/-! ## Joining (R274, R276, R277, R289) -/

/-- This card's STATE frame. -/
def State.sendState (s : State) : State :=
  s.send s.ownHead .state s.ring.committed
    (b2n s.ring.prepared + 2 * b2n s.ring.holds + 4 * b2n s.ring.lost + 8 * b2n s.isMaster)

/-- Bit m for each member that p accepts. -/
def State.memberMask (s : State) (p : Member → Bool) : Nat :=
  total (s.ring.members.mapIdx (fun i m => if p m then 2 ^ i else 0))

/-- The member from whose DISCOVER positions are counted: on version 2 the master, or the present member first in the list;
on version 1 the card of lowest serial number. -/
def State.refMember (s : State) (version : Nat) : Nat :=
  let here := (s.ring.members.zipIdx.filter (fun e => e.1.present)).map (fun e => (e.2, e.1.serial))
  if version = 1 then
    (here.foldl (fun (m : Option (Nat × Nat)) e =>
      match m with
      | none => some e
      | some x => if e.2 < x.2 then some e else m) none).elim s.ring.own (·.1)
  else if (s.ring.members.getD s.ring.masterIx Member.atReset).present then s.ring.masterIx
  else match here with
    | e :: _ => e.1
    | [] => s.ring.own

/-- The ring is formed (every member present) or partial: version (a ring that has formed since the start keeps its own, R277), positions, the joins' events, this card's STATE. While a
member's DISCOVER is all that is known of it, `position` holds how far back it stands. -/
def State.formRing (s : State) : State :=
  let here := s.ring.members.filter (·.present)
  let n := here.length
  let kept := s.ring.joined && s.ring.version != 0
  let version := if kept then s.ring.version else (here.map (·.version)).foldl min 2
  let full := decide (n = s.ring.members.length)
  let ref := s.refMember version
  let pos := if ref = s.ring.own then 0 else (s.ring.members.getD ref Member.atReset).position
  let ms := s.ring.members.mapIdx (fun i m =>
    if i = s.ring.own then { m with position := pos }
    else if m.present then { m with position := (pos + n - m.position % n) % n } else m)
  let r := { s.ring with members := ms, version := version, position := some pos, st := if full then 1 else 4,
                         cardLocal := version == 1, lastBeat := s.now, stateSeen := [] }
  let s1 := { s with ring := r }
  let s2 := if full then ev 0x4A0 0 [version, s1.memberMask (·.present), pos] 1 s1 else s1
  let s3 := if version = 1 then
      (if kept then s2 else ev 0x4A3 1 ((here.filter (fun m => m.version == 1)).map (·.serial)) 1 s2)
    else s2.sendState
  match s3.ring.close, s3.ring.lastFrame with
  | some _, some f => if s3.isMaster then (s3.send { f.head with retrans := true } f.type f.payload f.mask).bump RING_ERR.retransmits else s3
  | _, _ => s3

/-- Every card that answers has answered: the table applies, and the card has joined. -/
def State.join (s : State) : State :=
  let s1 := s.judgeEpoch
  { s1 with ring := { s1.ring with joined := true, waitUsed := if s.ring.joined then s1.ring.waitUsed else (s.now - s.ring.joinStart) / msec } }

/-- Form the ring when the last member's DISCOVER is in. On a version 1 ring, epochs are card-local and no STATE is sent. -/
def State.tryForm (s : State) : State :=
  if s.ring.st = 0 ∧ s.ring.members.all (·.present) then
    let s1 := s.formRing
    if s1.ring.version = 1 && !s1.ring.joined then s1.join else s1
  else s

/-- DISCOVER_SEND, every 100 µs until every member present has been heard. -/
def execDiscoverSend (t : Nat) (s : State) : Res :=
  let s := s.tick t
  .next (if s.ring.st = 0 then s.send s.ownHead .discover s.serial.toNat 0 else s)

/-- DISCOVER. A member that a partial ring misses makes it exchange DISCOVERs again. -/
def execDiscover (t : Nat) (f : FrameHead) (serial : Nat) (s : State) : Res :=
  .next ((s.tick t).receive f .discover serial 0 (fun s =>
    if serial = s.serial.toNat then s
    else
      let s1 := s.forward f .discover serial 0
      match s1.ring.members.findIdx? (fun m => m.serial == serial), decide (f.ringId = s1.ring.ringId) with
      | some i, true =>
        let m := s1.ring.members.getD i Member.atReset
        if m.present then s1
        else
          let s2 := if s1.ring.st = 4 then s1.rejoin else s1
          let m1 := { m with present := true, version := f.version, position := f.hops + 1, foreign := false }
          State.tryForm { s2 with ring := { s2.ring with members := setAt s2.ring.members i m1 } }
      | some i, false =>
        let m := s1.ring.members.getD i Member.atReset
        ev 0x4A4 1 [serial, f.ringId] 1 { s1 with ring := { s1.ring with members := setAt s1.ring.members i { m with foreign := true } } }
      | none, _ => ev 0x4A4 1 [serial, f.ringId] 1 s1))

/-- Event 0x4A2 for the members that are missing. -/
def State.missing (s : State) : State :=
  ev 0x4A2 1 [s.memberMask (fun m => !m.present), (s.now - s.ring.joinStart) / msec] 1 s

/-- The end of the missing-member wait: wait_ms from the beginning of step 0x0B, and not past 3.9 s after PERST_N. -/
def State.waitEnd (s : State) : Nat := min (s.ring.joinStart + s.ring.waitMs * msec) (s.boot.perstAt + 3900 * msec)

/-- Members that are present and whose STATE has not come are taken for absent. -/
def State.dropSilent (s : State) : State :=
  { s with ring := { s.ring with members := s.ring.members.mapIdx (fun i m =>
      if i = s.ring.own || s.ring.stateSeen.contains i then m else { m with present := false }) } }

/-- MEMBER_WAIT_EXPIRY: the present cards go on among themselves (R289), once their STATEs are in; one whose STATE does not come either
is left out. A ring that exchanges DISCOVERs again after a break waits as long for its missing members (DESIGN CHOICE, log entry 91). -/
def execMemberWaitExpiry (t : Nat) (s : State) : Res :=
  let s := s.tick t
  if s.ring.joined then
    .next (if s.ring.st = 0 && s.ring.inSync && decide (s.ring.joinStart + s.ring.waitMs * msec ≤ s.now) then s.missing.formRing else s)
  else if s.boot.step ≠ 0x0B || decide (s.now < s.waitEnd) then .next s
  else if s.ring.st = 4 then .next s.dropSilent.join
  else
    let s2 := if s.ring.st = 0 then s.missing.formRing else s.missing
    .next (if s2.allSeen || s2.ring.version == 1 then s2.join else s2)

/-! ## Heartbeats (R279) -/

/-- HEARTBEAT_SEND, by position 0 every 100 µs. -/
def execHeartbeatSend (t : Nat) (s : State) : Res :=
  let s := s.tick t
  .next (if (s.ring.st = 1 ∨ s.ring.st = 4) ∧ s.ring.position = some 0 then
    s.send s.ownHead .heartbeat s.ring.committed 1 else s)

/-- The member at a position, changed. -/
def State.atPos (s : State) (p : Nat) (g : Member → Member) : State :=
  { s with ring := { s.ring with members := s.ring.members.mapIdx (fun i m =>
      if i ≠ s.ring.own ∧ m.present ∧ m.position = p then g m else m) } }

/-- HEARTBEAT: the card marks its position present. -/
def execHeartbeat (t : Nat) (f : FrameHead) (epoch : BitVec 48) (mask : BitVec 16) (s : State) : Res :=
  .next ((s.tick t).receive f .heartbeat epoch.toNat mask.toNat (fun s =>
    let s1 := { s with ring := { s.ring with lastBeat := s.now } }
    if s.mine f then s1
    else
      let s2 := s1.atPos f.origin (fun m => { m with committed := epoch.toNat })
      s2.forward f .heartbeat epoch.toNat (mask.toNat ||| (if s.ring.position.isSome then 2 ^ s.ringPos else 0))))

/-- HEARTBEAT_TIMEOUT: no good heartbeat for 300 µs. -/
def execHeartbeatTimeout (t : Nat) (s : State) : Res :=
  let s := s.tick t
  .next (if (s.ring.st = 1 ∨ s.ring.st = 4) ∧ s.ring.lastBeat + 300 * usec ≤ s.now then s.breakRing 1 0 else s)

/-! ## Coordinated flush (R280) -/

/-- Lines of a flush that are not home yet. -/
def State.flushLeft (s : State) : List Nat :=
  let d := s.dirtyLines
  s.ring.flushLines.filter (fun k => d.contains k)

/-- RING_FLUSH_START: ignored while a flush runs. -/
def execRingFlushStart (t : Nat) (s : State) : Res :=
  let s := s.tick t
  if s.link.protocol = 0 || s.ring.flushFrom.isSome then .next s
  else
    let r := { s.ring with flushSeq := s.ring.flushSeq + 1, flushShown := true, flushFrom := some s.now, flushLines := s.dirtyLines,
                           flushMask := if s.dirtyLines.isEmpty then 2 ^ s.ringPos else 0 }
    let s1 := { s with ring := r }
    .next (s1.send s1.ownHead .flush r.flushSeq r.flushMask)

/-- FLUSH: the card writes home what it accepted before the frame passed, and sets its bit in a later lap once that is home. -/
def execFlush (t : Nat) (f : FrameHead) (seq : BitVec 48) (mask : BitVec 16) (s : State) : Res :=
  .next ((s.tick t).receive f .flush seq.toNat mask.toNat (fun s =>
    if s.mine f then
      { s with ring := { s.ring with flushMask := if seq.toNat = s.ring.flushSeq then s.ring.flushMask ||| mask.toNat else s.ring.flushMask } }
    else
      let later := s.ring.flushSeen == some (f.origin * 2 ^ 48 + seq.toNat)
      let s1 := if later then s
        else { s with ring := { s.ring with flushSeen := some (f.origin * 2 ^ 48 + seq.toNat), flushLines := s.dirtyLines } }
      let left := s1.flushLeft
      let s2 := { s1 with ring := { s1.ring with flushLines := left } }
      s2.forward f .flush seq.toNat (mask.toNat ||| (if later && left.isEmpty then 2 ^ s.ringPos else 0))))

/-- FLUSH_RESEND, every 1 ms on the origin until every present position is done; then event 0x4AE. -/
def execFlushResend (t : Nat) (s : State) : Res :=
  let s := s.tick t
  match s.ring.flushFrom with
  | none => .next s
  | some t0 =>
    let left := s.flushLeft
    let m := s.ring.flushMask ||| (if left.isEmpty then 2 ^ s.ringPos else 0)
    let all := if s.ring.st = 3 then 1 else s.allMask
    let s1 := { s with ring := { s.ring with flushLines := left, flushMask := m } }
    if m &&& all = all then
      let s2 := s1.setReg RING_FLUSH.done 1
      .next (ev 0x4AE 0 [s.ring.flushSeq, (s.now - t0) / msec] 1 { s2 with ring := { s2.ring with flushFrom := none } })
    else .next (s1.send s1.ownHead .flush s1.ring.flushSeq m)

/-! ## Closing an epoch (R285, R286) -/

/-- This card closes its epochs by itself: a ring of one, or a version 1 ring. -/
def State.localClose (s : State) : Bool := s.ring.st == 3 || s.ring.cardLocal

/-- The reason to refuse the close of epoch n, 0 for none (10 Table 10-4). -/
def State.refusal (s : State) (v : Nat) : Nat :=
  if !s.ring.joined then 4
  else if !s.localClose && !s.isMaster then 1
  else if v ≠ s.openEpoch ∨ 2 ^ 48 ≤ v then 2
  else if s.ring.close.isSome then 3
  else if s.ring.st ≠ 1 ∧ s.ring.st ≠ 3 then 4
  else if s.ring.pending then 5
  else 0

/-- RING_DOORBELL_WRITE. -/
def execRingDoorbellWrite (t : Nat) (size : Nat) (value : Word64) (s : State) : Res :=
  let s := s.tick t
  if s.link.protocol = 0 then .next s
  else if size ≠ 8 then .next (s.bump RING_ERR.bad_doorbells)
  else
    let r := s.refusal value.toNat
    if r ≠ 0 then .next { s with ring := { s.ring with refusal := r } }
    else
      let s1 := s.beginClose value.toNat
      .next (match s1.ring.close with
        | some c => if c.held || s1.localClose then s1 else s1.sendLap1 c.n
        | none => s1)

/-- PREPARED_RECORD_WRITTEN: the record of the epoch being closed, once N + 1 is open. -/
def execPreparedRecordWritten (t : Nat) (s : State) : Res :=
  let s := s.tick t
  match s.ring.close with
  | none => .next s
  | some c =>
    .next (if c.held || c.recordDone || decide (c.n ≠ s.ring.committed + 1) then s
      else { s with ring := { s.ring with prepared := true, close := some { c with recordDone := true } } })

/-- The master may send lap 2: lap 1 is back, 3.5 µs have passed, its own record is written. -/
def Close.lap2Due (c : Close) (now : Nat) : Bool :=
  c.phase == 1 && !c.held && c.lap1Back && c.recordDone && !c.lap2Sent && decide (c.lap1Sent + 3500 ≤ now)

def State.sendLap2 (s : State) (c : Close) : State :=
  State.send { s with ring := { s.ring with close := some { c with lap2Sent := true, lastSent := s.now } } }
    { s.ownHead with lap2 := true } .prepare c.n (2 ^ s.ringPos)

/-- PREPARE_LAP_2_SEND. -/
def execPrepareLap2Send (t : Nat) (s : State) : Res :=
  let s := s.tick t
  match s.ring.close with
  | some c => .next (if s.isMaster && c.lap2Due s.now then s.sendLap2 c else s)
  | none => .next s

/-- PREPARE on the master: lap 1 or lap 2 is back. -/
def State.prepareBack (s : State) (f : FrameHead) (n mask : Nat) : State :=
  match s.ring.close with
  | none => s
  | some c =>
    if c.n ≠ n then s
    else if f.lap2 then
      { s with ring := { s.ring with close := some { c with mask := mask, phase := if mask &&& s.allMask = s.allMask ∧ c.phase = 1 then 2 else c.phase } } }
    else
      let c1 := { c with lap1Back := true }
      let s1 := { s with ring := { s.ring with close := some c1 } }
      if c1.lap2Due s.now then s1.sendLap2 c1 else s1

/-- PREPARE on another card: it opens N + 1 as lap 1 passes (held while lines of that tag are dirty), and sets its bit in a
later lap once its record is written. -/
def State.preparePass (s : State) (f : FrameHead) (n mask : Nat) : State :=
  let fresh := n == s.ring.committed + 1 && s.ring.close.isNone && !s.ring.prepared
  let s1 := if fresh then s.beginClose n else s
  let bit := f.lap2 && ((s1.ring.prepared && n == s1.ring.committed + 1) || decide (n ≤ s1.ring.committed))
  s1.forward f .prepare n (mask ||| (if bit then 2 ^ s.ringPos else 0))

/-- PREPARE. -/
def execPrepare (t : Nat) (f : FrameHead) (epoch : BitVec 48) (mask : BitVec 16) (s : State) : Res :=
  .next ((s.tick t).receive f .prepare epoch.toNat mask.toNat (fun s =>
    if s.ring.version ≠ 2 then s.forward f .prepare epoch.toNat mask.toNat
    else if s.mine f then s.prepareBack f epoch.toNat mask.toNat
    else s.preparePass f epoch.toNat mask.toNat))

/-- DECISION_RECORD_WRITTEN: N is committed here, and COMMIT is sent round. -/
def execDecisionRecordWritten (t : Nat) (s : State) : Res :=
  let s := s.tick t
  match s.ring.close with
  | none => .next s
  | some c =>
    let ready := c.n == s.ring.committed + 1 && (if s.localClose then c.recordDone else s.isMaster && c.phase == 2)
    if !ready then .next s
    else
      let s1 := s.commitEpoch c.n
      let d : Close := { c with phase := 3, lastSent := s1.now, applied := 2 ^ s1.ringPos }
      let r := { s1.ring with lastCloseNs := s1.now - c.t0, lastPhase := 3, holds := !s1.localClose,
                              close := if s1.localClose then none else some d }
      let s2 := { s1 with ring := r }
      .next ((if s1.localClose then s2 else s2.send s2.ownHead .commit c.n (2 ^ s2.ringPos)).interrupt 31)

/-- The end of a mailbox command that waits on the ring (R293). -/
def State.finishResolve (s : State) (n action mask : Nat) : State :=
  let r := { s.ring with resolving := false }
  match s.link.resolve with
  | some p =>
    let s1 := ev 0x4A8 0 [n, action, mask] 1 { s with link := { s.link with resolve := none }, ring := r }
    s1.reply p 0xC040 .success (le 8 s1.ring.committed ++ le 2 mask ++ zeros 6)
  | none => { s with ring := r }

/-- COMMIT. -/
def execCommit (t : Nat) (f : FrameHead) (epoch : BitVec 48) (mask : BitVec 16) (s : State) : Res :=
  let n := epoch.toNat
  .next ((s.tick t).receive f .commit n mask.toNat (fun s =>
    if s.ring.version ≠ 2 then s.forward f .commit n mask.toNat
    else if s.mine f then
      if f.resolve then
        (if s.ring.resolving then (s.recoverCommit n).finishResolve n 1 (mask.toNat ||| 2 ^ s.ringPos) else s)
      else if mask.toNat &&& s.allMask = s.allMask ∧ (s.ring.close.map (·.n)) = some n then
        { s with ring := { s.ring with close := none, holds := false, lastPhase := 3 } }
      else s
    else
      let s1 :=
        if n ≤ s.ring.committed then s
        else if f.recovery || f.resolve then State.join (s.recoverCommit n)
        else if n = s.ring.committed + 1 ∧ s.ring.prepared then
          let c := s.commitEpoch n
          { c with ring := { c.ring with close := none, lastPhase := 3 } }
        else s
      s1.forward f .commit n (mask.toNat ||| (if n ≤ s1.ring.committed then 2 ^ s.ringPos else 0))))

/-- ROLLBACK: epoch N is discarded, N − 1 becomes current. -/
def execRollback (t : Nat) (f : FrameHead) (epoch : BitVec 48) (mask : BitVec 16) (s : State) : Res :=
  let n := epoch.toNat
  .next ((s.tick t).receive f .rollback n mask.toNat (fun s =>
    if s.ring.version ≠ 2 then s.forward f .rollback n mask.toNat
    else if s.mine f then
      (if f.resolve && s.ring.resolving then (s.recoverBack n).finishResolve n 0 (mask.toNat ||| 2 ^ s.ringPos) else s)
    else
      let s1 := if (f.recovery || f.resolve) && (s.ring.prepared || s.ring.pending || decide (n ≤ s.ring.committed) || !s.ring.joined)
        then State.join (s.recoverBack n) else s
      s1.forward f .rollback n (mask.toNat ||| 2 ^ s.ringPos)))

/-- CLOSE_RESEND, 20 µs after a PREPARE or COMMIT that has not returned good and complete. -/
def execCloseResend (t : Nat) (s : State) : Res :=
  let s := s.tick t
  match s.ring.close with
  | none => .next s
  | some c =>
    if !s.isMaster || c.held || s.localClose || s.ring.st ≠ 1 || c.phase = 2 || decide (s.now < c.lastSent + 20 * usec) then .next s
    else if c.phase = 1 ∧ c.lap1Back ∧ !c.lap2Sent then .next s
    else
      let s0 := s.bump RING_ERR.retransmits
      let s1 := { s0 with ring := { s0.ring with close := some { c with lastSent := s.now } } }
      let h := { s.ownHead with retrans := true, lap2 := c.phase == 1 && c.lap2Sent }
      .next (if c.phase = 1 then s1.send h .prepare c.n (if c.lap2Sent then 2 ^ s.ringPos else 0)
        else s1.send h .commit c.n (2 ^ s.ringPos))

/-- CLOSE_STALL: 1 ms after the doorbell. -/
def execCloseStall (t : Nat) (s : State) : Res :=
  let s := s.tick t
  match s.ring.close with
  | none => .next s
  | some c =>
    .next (if c.stalled || decide (3 ≤ c.phase) || decide (s.now < c.t0 + msec) || !(s.isMaster || s.localClose) then s
      else ev 0x4A9 1 [c.n, s.allMask - (s.allMask &&& c.mask)] 1
        { s with ring := { s.ring with close := some { c with stalled := true } } })

/-! ## STATE and reserved frames (R273, R287, R289) -/

/-- A member that joins later with a valid record: the ring takes the highest C, or judges a pending epoch again. -/
def State.lateState (s : State) (c : Nat) (lost : Bool) : State :=
  if lost then s
  else if s.ring.pending then s.judgeEpoch
  else if s.ring.lost then s.takeEpoch c
  else if s.ring.committed < c ∧ s.ring.close.isNone then (s.judgeOwn c).takeEpoch c
  else s

/-- STATE. -/
def execState (t : Nat) (f : FrameHead) (epoch : BitVec 48) (bits : BitVec 4) (s : State) : Res :=
  .next ((s.tick t).receive f .state epoch.toNat bits.toNat (fun s =>
    if s.mine f then s
    else
      let s1 := (s.forward f .state epoch.toNat bits.toNat).atPos f.origin (fun m =>
        { m with committed := epoch.toNat, prepared := bits.getLsbD 0, holds := bits.getLsbD 1, lost := bits.getLsbD 2,
                 master := bits.getLsbD 3 })
      let ix := s1.ring.members.findIdx? (fun m => m.present && m.position == f.origin && m.serial != s.serial.toNat)
      let s2 := { s1 with ring := { s1.ring with stateSeen := match ix with
        | some i => if s1.ring.stateSeen.contains i then s1.ring.stateSeen else s1.ring.stateSeen ++ [i]
        | none => s1.ring.stateSeen } }
      if s2.ring.joined then s2.lateState epoch.toNat (bits.getLsbD 2)
      else if (s2.ring.st = 1 ∨ s2.ring.st = 4) ∧ s2.allSeen then s2.join else s2))

/-- RESERVED_TYPE_FRAME: forwarded unchanged but for its hop count, and counted. -/
def execReservedTypeFrame (t : Nat) (f : FrameHead) (type : Nat) (payload : BitVec 64) (s : State) : Res :=
  .next ((s.tick t).receive f (.reserved type) payload.toNat 0 (fun s =>
    (s.bump RING_ERR.reserved_types).forward f (.reserved type) payload.toNat 0))

/-! ## Mailbox commands (R293, R294) -/

/-- EPOCH_RESOLVE: Busy comes first; then the input checks; then the decision goes round the ring. -/
def execEpochResolve (t : Nat) (path : Path) (epoch : Nat) (action : Nat) (s : State) : Res :=
  .next ((s.tick t).mailbox (.epochResolve t path epoch action) path 0xC040 false false (fun s =>
    if s.boot.step = 0x0B ∧ !s.ring.joined then s.reply path 0xC040 .busy
    else if !s.ring.pending || s.ring.resolving || epoch ≠ s.ring.committed + 1 || decide (1 < action) then s.reply path 0xC040 .invalidInput
    else
      let s1 := { s with link := { s.link with resolve := some path },
                         ring := { s.ring with resolving := true } }
      if s1.presentCount ≤ 1 then
        (if action = 1 then s1.recoverCommit epoch else s1.recoverBack epoch).finishResolve epoch action (2 ^ s.ringPos)
      else
        let h := { s1.ownHead with resolve := true }
        if action = 1 then s1.send h .commit epoch (2 ^ s.ringPos) else s1.send h .rollback epoch (2 ^ s.ringPos)))

def State.memberBytes (s : State) (i : Nat) (m : Member) : Bytes :=
  let x := if i = s.ring.own then s.ownMember else m
  le 8 x.serial ++ le 1 (if x.present then x.position else 0xFF) ++ le 1 (if x.present then x.version else 0) ++
    le 1 (b2n x.present + 2 * b2n (i == s.ring.masterIx) + 4 * b2n x.foreign + 8 * b2n x.lost) ++ zeros 5 ++
    le 8 x.committed ++ zeros 8

/-- GET_RING_STATUS. -/
def execGetRingStatus (path : Path) (s : State) : Res :=
  .next (s.mailbox (.getRingStatus path) path 0xC041 false false (fun s =>
    s.reply path 0xC041 .success
      (le 1 s.ring.version ++ le 1 s.ring.st ++ le 1 s.ring.members.length ++ le 1 (s.ring.position.getD 0xFF) ++
       le 2 s.ring.ringId ++ le 2 s.ring.waitUsed ++ le 8 s.ring.committed ++
       le 8 (if s.ring.prepared then s.ring.committed + 1 else 0) ++
       le 1 (b2n s.ring.pending + 2 * b2n s.ring.cardLocal + 4 * b2n s.ring.close.isSome) ++ zeros 7 ++
       (s.ring.members.mapIdx (fun i m => s.memberBytes i m)).flatten)))

end Sys2Proof.Machine
end

