-- ==== Sys2Proof/Machine/Boot.lean ====
section
/-! DEFINITION. The start: 3.3 Vaux, PERST_N, attempts and the boot ledger, the thirteen boot steps, boot hold and recovery,
the chip watchdog, Get Boot Ledger (12 R326 to R332, R335, R342 to R346, R349; 02 R56; 01 R30; 04 R107; 05 R138; 06 R168;
07 R181; 08 R215, R220; 09 R253 to R259; 10 R276, R287, R289; 11 R320). -/

namespace Sys2Proof.Machine

/-! ## The boot ledger (R328, Table 12-16) -/

/-- Methods of each boot step (Table 12-3). -/
def stepMethods (n : Nat) : Nat := [1, 2, 3, 1, 1, 1, 2, 3, 1, 1, 1, 1, 1].getD (n - 1) 1

/-- The method that a step begins with: past the one that failed on the previous attempt (R329). Of the two firmware slots the
other one follows. -/
def Boot.firstMethod (b : Boot) (n : Nat) : Nat :=
  match Tab.find b.failure n with
  | some f => if n = 2 then (f + 1) % 2 else min (f + 1) (stepMethods n - 1)
  | none => 0

def LedgerStep.blank : LedgerStep := ⟨0, 0, 0, 0, 0⟩

def LedgerStep.bytes (x : LedgerStep) (code : Nat) : Bytes :=
  le 1 code ++ le 1 x.result ++ le 1 x.method ++ zeros 1 ++ le 4 x.start ++ le 4 x.duration ++ le 4 x.detail

def Attempt.bytes (a : Attempt) : Bytes :=
  le 4 a.number ++ le 1 a.cause ++ le 1 a.fwSlot ++ le 1 a.cfg ++ le 1 a.outcome ++ le 4 a.calendar ++ le 4 a.activeMs ++
    zeros 16 ++ (List.range 13).flatMap (fun i => (a.steps.getD i LedgerStep.blank).bytes (i + 1))

/-- Write the newest attempt's row in partition 0. -/
def State.ledgerRow (s : State) : State :=
  match s.boot.ledger with
  | a :: _ => s.ownRow 2 0 (a.number % 16) a.bytes
  | [] => s

def State.setStep (s : State) (n : Nat) (g : LedgerStep → LedgerStep) : State :=
  { s with boot := s.boot.setNewest (fun a => { a with steps := setAt a.steps (n - 1) (g (a.steps.getD (n - 1) LedgerStep.blank)) }) }

/-- The "begun" entry of step n, and its row. -/
def State.beginStep (s : State) (n : Nat) : State :=
  let s1 := { s with boot := { s.boot with step := n, stepStart := s.now } }
  State.ledgerRow (s1.setStep n (fun _ => ⟨4, s.boot.firstMethod n, (s.now - s.boot.startAt) / msec, 0, 0⟩))

/-- The end of the running step: result and method, with event 0x589 for an alternate. -/
def State.closeStep (s : State) (m result detail : Nat) : State :=
  let n := s.boot.step
  let alt := decide (result = 2)
  let s1 := s.setStep n (fun x => { x with result := result, method := m, duration := (s.now - s.boot.stepStart) / msec,
                                           detail := detail })
  let b := { s1.boot with methods := setAt s1.boot.methods (n - 1) m, alternates := s1.boot.alternates || alt }
  let s2 := { s1 with boot := b }
  (if alt then ev 0x589 1 [n, m] 1 s2 else s2).ledgerRow

/-! ## A new attempt (R329, R343, R344) -/

/-- Clean copies leave the caches; fills in flight are dropped. -/
def State.dropClean (s0 : State) : State :=
  let s := s0.mergeFills
  { s with cch := { s.cch with
      near := (s.cch.near.filter (fun e => e.2.copy.dirty != 0)).map (fun e => (e.1, { e.2 with filling := false })),
      evict := s.cch.evict.filter (fun e => e.copy.dirty != 0),
      board := s.cch.board.filter (fun e => e.2.copy.dirty != 0), fills := [], rewrite := [] } }

/-- What a start after a power-on or after PERST_N clears (Table 12-12). -/
def State.clearForStart (s0 : State) : State :=
  let s := (s0.dropClean.functionReset).resetRegs 2
  let sensors := s.thm.sensors.map (fun x => { x with broken := false, devRun := 0 })
  { s with
    evt := { Events.atReset with nextHandle := s.evt.nextHandle, deferred := s.evt.deferred, pending := s.evt.pending,
                                 alert := s.evt.alert, health := s.evt.health, healthBy := s.evt.healthBy },
    fab := { s.fab with fenced := 0, lostCtrl := 0, fatal := false, restarts := [], queue := [], blocks := [], expiries := [] },
    med := { s.med with froCauses := [] },
    thm := { s.thm with sensors := sensors },
    link := { s.link with viral := false, aerUnc := 0, aerSeverity := Link.atReset.aerSeverity, aerCor := 0, rasUnc := 0, rasCor := 0,
                          rasHeader := (0, 0), heldDown := false, infoValid := false, mboxReady := false, scanRunning := false },
    pfl := { s.pfl with wt := none, wtPre := false, gpf := false } }

/-- A new attempt with its cause: 0 cold power-on, 1 PERST_N, 2 internal watchdog reset. `failure` is what the previous
attempt's failure leaves for this one. -/
def State.newAttempt (s : State) (cause : Nat) (failure : Tab Nat) : State :=
  let old := s.boot.ended
  let n := s.boot.attempt + 1
  let a : Attempt := ⟨n, cause, s.boot.fwSlot, s.boot.cfgSource, 0, s.cal.calendar, 0, List.replicate 13 LedgerStep.blank⟩
  let b := { s.boot with
    startAt := s.now, running := true, complete := false, hold := false, recovery := false, alternates := false,
    migrated := false, methods := Boot.atReset.methods, attempt := n, cause := cause, failure := failure,
    ledger := (a :: s.boot.ledger).take 16, activeMs := 0, ended := none }
  let rows := Tab.mapV s.tly.rows (fun _ r => { r with reported := false })
  let s1 := State.beginStep { s with boot := b, tly := { s.tly with rows := rows }, cal := { s.cal with restored := false } } 1
  match old with
  | some (st, c) => ev 0x58E 1 [st, c] 1 s1
  | none => s1

/-- Begin a new attempt; after a power-on or PERST_N what these reset is cleared first. -/
def State.beginAttempt (s : State) (cause : Nat) (failure : Tab Nat) : State :=
  (if cause = 2 then s else s.clearForStart).newAttempt cause failure

/-- The attempt ends in boot hold (R330). -/
def State.bootHold (s : State) (m : Nat) : State :=
  let n := s.boot.step
  let s1 := s.setStep n (fun x => { x with result := 3, method := m, duration := (s.now - s.boot.stepStart) / msec, detail := 0x588 })
  let b := s1.boot.setNewest (fun a => { a with outcome := 2 })
  let s2 := { s1 with boot := { b with running := false, hold := true }, link := { s1.link with infoValid := true, mboxReady := true } }
  (ev 0x588 3 [n, m] 1 s2).ledgerRow

/-- What a step's end gives: it waits, the start stops there, or the step ends with a method, a result (1 passed, 2 passed by an
alternate, 3 failed and the start goes on) and the ledger's detail. -/
inductive StepEnd where
  | wait
  | stop (s : State)
  | pass (m result detail : Nat) (s : State)
deriving DecidableEq, Repr

def passBy (m : Nat) (s : State) : StepEnd := .pass m (if m = 0 then 1 else 2) 0 s

/-! ## Steps 0x01 to 0x05 -/

/-- Step 0x01: after a thermal shutdown the kind that shut down must be below its warning level less the hysteresis (11 R320);
else the start is held and region A runs a power-down. -/
def State.step1 (s : State) : StepEnd :=
  match s.thm.recheck, s.thm.stop with
  | true, some x =>
    let e := s.limit x.kind
    if (s.ofKind x.kind).any (fun i => decide ((e.warning : Int) - e.hyst ≤ s.usedOf i)) then
      let t := { s.thm with stop := some { x with holds := x.holds + 1 }, heldAt := some s.now }
      .stop (State.beginPowerDown { s with thm := t, boot := { s.boot with running := false } })
    else
      let s1 := { s with thm := { s.thm with recheck := false } }
      passBy 0 (if 0 < x.holds then ev 0x530 1 [x.sensor, plus40 x.temp, x.holds] 255 s1 else s1)
  | _, _ => passBy 0 s

/-- Step 0x02: slot fw_next, then the other; with neither, recovery (R331). -/
def State.step2 (s0 : State) (b : BootIn) : StepEnd :=
  let s := if s0.boot.headersClash then ev 0x585 1 [0] 1 s0 else s0
  let slot := fun (m : Nat) => if m = 0 then s.boot.fwNext else 1 - s.boot.fwNext
  let bad := fun (m : Nat) => (s.fwRefused (s.boot.fw.getD (slot m) ⟨0, noFw⟩)).orElse
    (fun _ => if b.methods.getLsbD m then none else some 2)
  let f := s.boot.firstMethod 2
  let take := fun (m : Nat) (s : State) =>
    passBy m { s with boot := { s.boot.setNewest (fun a => { a with fwSlot := slot m }) with fwSlot := slot m } }
  match bad f with
  | none => take f (if f = 1 then ev 0x581 1 [slot 0, 5] 1 s else s)
  | some c =>
    match bad (1 - f) with
    | none => take (1 - f) (ev 0x581 1 [slot f, c] 1 s)
    | some d =>
      let s1 := ev 0x582 3 (if slot f = 0 then [c, d] else [d, c]) 1 s
      let s2 := s1.setStep 2 (fun x => { x with result := 3, method := 1 - f, duration := (s.now - s.boot.stepStart) / msec,
                                                 detail := 0x582 })
      .stop (State.ledgerRow { s2 with boot := { s2.boot with running := false, recovery := true } })

/-- The configuration slots in the order that step 0x03 tries them, and whether two images of the same sequence differ. -/
def Boot.cfgOrder (b : Boot) : List Nat × Bool :=
  match b.header with
  | some h => ([h.cfgNext, 1 - h.cfgNext], false)
  | none =>
    let x := b.cfg.getD 0 ⟨0, emptyImage⟩
    let y := b.cfg.getD 1 ⟨0, emptyImage⟩
    if x.st = 1 ∧ y.st = 1 then
      (if x.img.sequence < y.img.sequence then ([1, 0], false) else ([0, 1], x.img.sequence == y.img.sequence && x.img != y.img))
    else if y.st = 1 then ([1, 0], false)
    else ([0, 1], false)

/-- Why a configuration slot is refused; a flash read that fails is cause 2 (Table 12-5). -/
def State.cfgRefusal (s : State) (i : Nat) (readOk : Bool) : Option Refused :=
  let x := s.boot.cfg.getD i ⟨0, emptyImage⟩
  if x.st = 0 ∨ x.st = 3 then some ⟨0, 0x583, []⟩
  else if !readOk then some ⟨2, 0x583, []⟩
  else (s.imageRefused x.img).orElse (fun _ => if x.st = 2 then some ⟨0, 0x583, []⟩ else none)

/-- Try the slots in turn, as (method, slot); then the fallback. -/
def tryImages (b : BootIn) : List (Nat × Nat) → State → State × Nat
  | [], s => (s.takeFallback, 2)
  | (m, i) :: r, s =>
    match s.cfgRefusal i (b.methods.getLsbD m) with
    | none => (s.takeImage i (s.boot.cfg.getD i ⟨0, emptyImage⟩).img, m)
    | some x => tryImages b r (s.refuseImage i x)

/-- Step 0x03 (R335). -/
def State.step3 (s : State) (b : BootIn) : StepEnd :=
  let o := s.boot.cfgOrder
  let s1 := if o.2 then ev 0x585 1 [1] 1 s else s
  let r := tryImages b (([0, 1].zip o.1).drop (s.boot.firstMethod 3)) s1
  passBy r.2 { r.1 with boot := r.1.boot.setNewest (fun a => { a with cfg := r.1.boot.cfgSource }) }

/-- Record `row` of a partition is lost in both copies. -/
def State.rowLost (s : State) (part row : Nat) : Bool := (s.row part row).pick == 255

/-- Suspect flags of half h (0 or 1) of the extents are 0. -/
def State.clearSuspects (s : State) (h : Nat) : State :=
  (List.range 32).foldl (fun s k => s.setReg PFL_SUSPECT.suspect 0 (32 * h + k)) s

/-- What the owners of partition 1 take for its lost records: 0 (13 R354); with row 1 gone no store test has passed (09 R239). -/
def State.defaults1 (s : State) : State :=
  let s1 := if s.rowLost 1 1 then
      { s with pfl := { s.pfl with cap := 0, esr := 0, energy := 0, lastCal := 0, lastResult := 0, tests := 0 } } else s
  let s2 := if s1.rowLost 1 2 then
      { s1 with link := { s1.link with shutdownState := 0 }, pfl := { s1.pfl with clean := false } } else s1
  let s3 := if s2.rowLost 1 3 then { s2 with recd := { s2.recd with base := 0 } } else s2
  [0, 1].foldl (fun s h => if s.rowLost 1 (4 + h) then s.clearSuspects h else s) s3

/-- The same of partitions 2 and 3: poison list, scrub position, rail counters, histograms. -/
def State.defaults23 (s : State) : State :=
  let poison := (s.map.poison.zipIdx.filter (fun e => !s.rowLost 2 (e.2 / 16))).map (·.1)
  let s1 := { s with map := { s.map with poison := poison } }
  let s2 := if s1.rowLost 2 576 then { s1 with cal := { s1.cal with savedPosition := (0, 0) } } else s1
  let zero := fun (r : Rail) => { r with latePg := 0, pgLost := 0, timeouts := 0, regOt := 0 }
  let s3 := if s2.rowLost 3 0 then { s2 with pwr := { s2.pwr with rails := s2.pwr.rails.map zero } } else s2
  [0, 1, 2, 3].foldl (fun s k => if s.rowLost 3 (k + 1) then
    { s with thm := { s.thm with hist := setAt s.thm.hist k (List.replicate 16 0), highest := setAt s.thm.highest k (-40) } }
    else s) s3

/-- Partitions 1 to 7 are mounted: every record is read, the owners take their defaults for lost ones, and after a loss of the rails
the live lifetime counts go on from the saved ones (13 R353, R354, R358). -/
def State.mountTally (s : State) : State :=
  let keys := (s.tly.rows.map (·.1)).filter (fun k => decide (4096 ≤ k))
  let s1 := (keys.foldl (fun s k => s.noteRow (k / 4096) (k % 4096)) s).defaults1.defaults23
  let b := (s1.row 1 0).copy.data
  if s1.tly.stale || s1.rowLost 1 0 then
    { s1 with tly := { s1.tly with stale := false, bytesRd := ofBytes ((b.drop 16).take 8), bytesWr := ofBytes ((b.drop 24).take 8) },
              cal := { s1.cal with powerOnS := ofBytes (b.take 8) } }
  else s1

/-- Step 0x04: the tally store is mounted, a lower layout is migrated (R342). -/
def State.step4 (s0 : State) (b : BootIn) : StepEnd :=
  let i := s0.runFw
  let old := s0.boot.layout
  if !b.methods.getLsbD 0 || decide (old < i.layoutLow) || decide (i.layoutHigh < old) then .stop (s0.bootHold 0)
  else
    let s := s0.mountTally
    let s1 := if old < i.layoutHigh then
        let z := { s with boot := { s.boot with layout := i.layoutHigh, migrated := true },
                          tly := { s.tly with rows := Tab.mapV s.tly.rows (fun _ r => r.refresh) } }
        ev 0x587 0 [old, i.layoutHigh] 1 (z.ownRow 1 5 enrolRow z.boot.enrolBytes)
      else s
    let s2 := if s1.boot.cold then { s1 with tly := { s1.tly with powerCycles := s1.tly.powerCycles + 1 } } else s1
    passBy 0 (s2.ownRow 6 3 0 s2.railRow).saveLifetime

/-- Rate and training code of a device: stored results, full training, 28 Gbps, 24 Gbps (04 R107). -/
def trainResult (g : GddrTrain) (cap : Nat) : Option (Nat × Nat) :=
  let want := min (min g.grade cap) 32
  if !([16, 24, 32].contains g.density) || decide (g.grade < 24) || decide (36 < g.grade) then none
  else if g.storedOk then some (want, 0)
  else if g.fullOk then some (want, 1)
  else if g.ok28 && decide (28 < want) then some (28, 2)
  else if g.ok24 then some (24, 3)
  else none

/-- A device takes its training result. -/
def trainOne (b : BootIn) (s : State) (i : Nat) : State :=
  let g := b.gddr.getD i ⟨0, 0, 0, false, false, false, false⟩
  let old := s.cch.gddr.getD i ⟨0, 0, 0, 0, 0, 0⟩
  match trainResult g (s.run.caps.getD i 32) with
  | some r =>
    let s1 := { s with cch := { s.cch with gddr := setAt s.cch.gddr i ⟨g.manufacturer, g.density, g.grade, r.1, r.2, old.tempC⟩ } }
    if r.1 < 32 ∨ r.2 ≠ 0 then ev (0x110 + i) 1 [r.1, r.2] 4 s1 else s1
  | none => { s with cch := { s.cch with gddr := setAt s.cch.gddr i ⟨g.manufacturer, g.density, g.grade, 0, 255, old.tempC⟩ } }

/-- Step 0x05. A failure ends the attempt, and the third in a row gives boot hold. -/
def State.step5 (s : State) (b : BootIn) : StepEnd :=
  let s1 := [0, 1, 2, 3].foldl (trainOne b) s
  if s1.cch.gddr.any (fun g => g.training == 255) then
    let s2 := { s1 with boot := { s1.boot with trainFails := s1.boot.trainFails + 1 } }
    if 3 ≤ s2.boot.trainFails then .stop (s2.bootHold 0)
    else
      let s3 := s2.setStep 5 (fun x => { x with result := 3, duration := (s.now - s.boot.stepStart) / msec })
      let o := Config.free s3.fresh
      let c := s3.boot.setNewest (fun a => { a with outcome := o })
      let s4 := State.ledgerRow { s3 with fresh := s3.fresh + 1, boot := { c with running := false, ended := some (5, 1) } }
      .stop (s4.newAttempt s4.boot.cause [])
  else
    let d := s1.cch.gddr.map (·.density)
    let s2 := { s1 with boot := { s1.boot with trainFails := 0 } }
    passBy 0 (if d.any (fun n => n != d.headD 0) then ev 0x118 1 (d ++ [2 ^ s2.slotsLog2]) 4 s2 else s2)

/-! ## Step 0x06: census, calendar, margins -/

/-- Integer square root of a number below 2^128. -/
def rootFrom : Nat → Nat → Nat → Nat
  | 0, _, r => r
  | k + 1, n, r => rootFrom k n (if (r + 2 ^ k) * (r + 2 ^ k) ≤ n then r + 2 ^ k else r)
def root (n : Nat) : Nat := rootFrom 64 n 0

/-- Median of a list; of an even number, the mean of the middle two rounded down. -/
def medianOf (l : List Nat) : Nat :=
  let q := l.insertionSort (· ≤ ·)
  (q.getD ((q.length - 1) / 2) 0 + q.getD (q.length / 2) 0) / 2

/-- ΔA of a die as it is reported: a gap below 3,600 equivalent seconds counts as 0 (07 R181). -/
def gapOf (b : BootIn) (i : Nat) : Nat := let n := b.deltaA.getD i 0; if n < 3600 then 0 else n

/-- The calendar and the accumulators are restored from the reference cells (07 R181). -/
def State.restoreCal (s : State) (b : BootIn) : State :=
  let dies := s.fittedDies.filter (fun i => !(s.die i).retired)
  let med := medianOf (dies.map (gapOf b))
  let add := if s.cal.vauxContinuous then 0 else root (8 * med * med)
  let now := min calendarMax (if s.cal.vauxContinuous then s.cal.calendar else s.cal.saved + add)
  let hour := now / 3600
  let grow := fun (i : Nat) (d : Die) =>
    let a := min (2 * med) (max (divUp med 2) (gapOf b i))
    let e := { d with age := d.age + a * 65536, deltaA := a }
    { e.ledgerHour hour e.acc with hourAt := (hour, e.acc), refWrite := e.refWrite + 1 }
  let s1 := { s with med := { s.med with dies := s.med.dies.mapIdx (fun i d => if dies.contains i then grow i d else d) } }
  let c := { s1.cal with calendar := now, driftAdd := add, medianA := med, restored := true,
                         provAdd := if s.cal.vauxContinuous then s1.cal.provAdd else add,
                         provisional := s1.cal.provisional || !s.cal.vauxContinuous }
  let s2 := { s1 with cal := c }
  let s3 := if s.cal.vauxContinuous then s2 else ev 0x381 0 [s.cal.saved, add, med] 255 s2
  match s3.cal.pendingHost with
  | some h => State.judgeHost { s3 with cal := { s3.cal with pendingHost := none } } h
  | none => s3

/-- Threshold tables that power loss took are read from the reference areas (07 R183). -/
def State.readTables (s : State) : State :=
  if s.cal.thr.isEmpty then { s with cal := { s.cal with thr := s.cal.thrSaved, thrMirror := s.cal.thrSaved } } else s

/-- Step 0x06. A group with two retired dies is failed-read-only again. -/
def State.step6 (s : State) (b : BootIn) : StepEnd :=
  let s1 := s.fittedDies.foldl (fun s i => if b.censusFails.getLsbD i then s.retireDie i 0 else s) s
  let s2 := (s1.readTables.restoreCal b).writeRefs.kick
  let s3 := (s2.med.blocks.map (·.1)).foldl State.evalMargin { s2 with cal := { s2.cal with vauxContinuous := true } }
  let s4 := (List.range s3.groups).foldl (fun s g =>
    if 2 ≤ ((List.range 16).filter (fun c => (s.die (4 * c + g)).retired)).length then s.enterFro (16 + g) else s) s3
  passBy 0 s4

/-! ## Steps 0x07 and 0x08: the map -/

/-- A sealed checkpoint is read into the GDDR7 map areas, with the bead directory (06 R166, R168). -/
def State.readCkpt (s : State) (slot : Nat) : State :=
  let c := s.map.ckpts.getD slot ⟨false, 0, 0, [], []⟩
  { s with map := { s.map.load c.entries with beads := c.beads } }

/-- Step 0x07: the newest sealed checkpoint, or the older one, is read; with neither, step 0x08 takes its last method. -/
def State.step7 (s : State) (b : BootIn) : StepEnd :=
  let f := s.boot.firstMethod 7
  let sealed := fun (n : Nat) => (s.map.ckpts.getD n ⟨false, 0, 0, [], []⟩).sealed
  if f = 0 ∧ b.methods.getLsbD 0 ∧ sealed s.map.ckptSlot then passBy 0 (s.readCkpt s.map.ckptSlot)
  else if b.methods.getLsbD 1 ∧ sealed (1 - s.map.ckptSlot) then passBy 1 (s.readCkpt (1 - s.map.ckptSlot))
  else .pass 1 3 0 s

/-- Result of a step of this attempt. -/
def Boot.result (b : Boot) (n : Nat) : Nat :=
  match b.ledger with
  | a :: _ => (a.steps.getD (n - 1) LedgerStep.blank).result
  | [] => 0

/-- The dump's journal tail is applied; a reclaim commit that was not on the medium is left out (06 R163, R165). -/
def State.applyTail (s : State) (i : Nat) (b : BootIn) : State :=
  let d := s.slotD i
  if d.st = 2 && ((d.headSealed && b.headSealOk) || (d.trailer && b.tailOk)) then
    let cs := d.tail.filter (fun c => c.kind != 4)
    let s1 := s.setSlotD i { d with tail := [] }
    State.flushTail { s1 with map := { cs.foldl Map.change s1.map with tail := s1.map.tail ++ cs } }
  else s

/-- The journal is replayed on checkpoint `slot`'s map, then what the card's own journal tail still holds. Records of a reclaim
commit that was not durable never count (06 R163, R165). -/
def State.replayJournal (s : State) (slot : Nat) : State :=
  let m := s.map.load (s.map.replay slot)
  let left := s.map.tail.filter (fun c => c.kind != 4)
  { s with map := { left.foldl Map.change m with
      tail := left, journal := s.map.journal.map (fun x => ⟨x.seq, x.records, true⟩) } }

/-- The placement sequence of the copy of a folio at a location, joined from the slices of its sectors 0 to 3 (05 Table 5-4). A copy
with one of them lost has none. -/
def State.copySeq (s : State) (l : Loc) : Option Nat :=
  let slice := fun (n : Nat) => match s.sectorAt l n with
    | some x => if x.lost then none else some (x.seq / 2 ^ (14 * n) % 2 ^ 14 * 2 ^ (14 * n))
    | none => none
  match slice 0, slice 1, slice 2, slice 3 with
  | some a, some b, some c, some d => some (a + b + c + d)
  | _, _, _, _ => none

/-- Copies of folios on the medium as the full metadata scan finds them: folio, placement sequence, location. -/
def State.copiesFound (s : State) : List (Nat × Nat × Loc) :=
  s.med.secs.filterMap (fun e =>
    let k := e.1 / 64
    let l : Loc := ⟨k / 1024 / perGroup, k / 1024 % perGroup, k % 1024⟩
    if e.1 % 64 = 0 && (e.2.kind == 0 || e.2.kind == 3) then (s.copySeq l).map (fun n => (e.2.folio, n, l)) else none)

/-- The last resort (06 Table 6-11): of each folio the copy with the latest placement sequence, no later than the last sequence found
in the journal. Sectors 0 to 3 that do not decode are recovered first. -/
def State.scanMap (s0 : State) : State :=
  let s := s0.med.secs.foldl (fun s e =>
    let k := e.1 / 64
    let l : Loc := ⟨k / 1024 / perGroup, k / 1024 % perGroup, k % 1024⟩
    if e.1 % 64 < 4 && e.2.bad 21 then s.readSource l (e.1 % 64) else s) s0
  let best := (s.copiesFound.filter (fun c => decide (c.2.1 ≤ s.map.committed))).foldl (fun (t : Tab (Nat × Loc)) c =>
    match Tab.find t c.1 with
    | some x => if x.1 ≤ c.2.1 then Tab.put t c.1 c.2 else t
    | none => Tab.put t c.1 c.2) []
  let entry := fun (f : Nat) (l : Loc) =>
    (⟨some l, (s.block l.group l.block).bead, false, false, decide (f < integMark) && s.folioListed f, false⟩ : MapEntry)
  let found := best.map (fun (e : Nat × Nat × Loc) => (e.1, entry e.1 e.2.2))
  let s1 := { s with map := { s.map.load found with beads := [] } }
  (s1.map.entries.map (·.1)).foldl State.settleMarked s1

/-- One-bead stripes that held a dumped line: their first update is made by 05 Table 5-8. -/
def State.recheckDumped (s : State) : State :=
  let lines := (s.pfl.slots.filter (fun d => d.st == 2 || d.st == 3 || d.st == 4)).flatMap (fun d => d.lines.map (·.line))
  let keys := lines.filterMap (fun k =>
    match s.readLoc (k / 256) with
    | some l => if s.beadAt (k / 256) then some (blkKey l.group l.block * 4096 + s.stripeOf l (k % 256 / 4)) else none
    | none => none)
  { s with med := { s.med with recheck := (s.med.recheck ++ keys).eraseDups } }

/-- The bead directory and the shadow table agree with the map again; a stripe block with no open page is closed, and one that
nothing references is free. -/
def State.settleMap (s : State) : State :=
  let beads := s.map.entries.filterMap (fun e =>
    if e.2.bead && e.2.loc.isSome then some (e.1, Tab.findD s.map.beads e.1 ⟨3, 0, s.map.homeSeq⟩) else none)
  let shadows := s.ring.shadows.filter (fun e => (s.entry e.1).shadow)
  let open_ := fun (k : Nat) => s.map.pages.any (fun p => blkKey p.1 p.2.block == k) ||
    s.map.progs.any (fun p => blkKey p.group p.block == k)
  let blocks := Tab.mapV s.med.blocks (fun k x => if open_ k then x else x.close s.cal.calendar)
  let s1 := { s with map := { s.map with beads := beads, onChip := [] }, ring := { s.ring with shadows := shadows },
                     med := { s.med with blocks := blocks } }
  (blocks.map (·.1)).foldl (fun s k => s.freeIfEmpty ⟨k / perGroup, k % perGroup, 0⟩) s1

/-- Folios flagged poisoned with no listed line are read again: lines that stay lost are relisted, else the flag clears
(07 R191). -/
def State.relist (s : State) (f : Nat) : State :=
  if !(s.entry f).poisonedRange || s.folioListed f then s
  else
    let lost := (List.range 256).filter (fun i => s.sectorGone ((f * 256 + i) / 4))
    let s1 := lost.foldl (fun s i => s.listLine (f * 256 + i) 0) s
    if lost.isEmpty then s1.settleFlag f else s1

/-- Step 0x08: replay from the checkpoint of step 0x07, from the older one, or the full metadata scan. -/
def State.step8 (s : State) (b : BootIn) : StepEnd :=
  let f := s.boot.firstMethod 8
  let m := if s.boot.result 7 = 3 then 2
    else if f = 0 ∧ b.methods.getLsbD 0 then 0
    else if f ≤ 1 ∧ b.methods.getLsbD 1 then 1
    else 2
  let slot := if s.boot.methods.getD 6 0 = 1 then 1 - s.map.ckptSlot else s.map.ckptSlot
  let s0 := if m = 2 then s.scanMap else s.replayJournal (if m = 0 then slot else 1 - slot)
  let s1 := (((s0.applyTail 0 b).applyTail 1 b).settleMap).recheckDumped
  let s2 := (s1.map.entries.map (·.1)).foldl State.relist s1
  let s3 := if m = 2 then { s2 with link := { s2.link with scanRunning := true, scanStart := s.boot.stepStart } } else s2
  let s4 := if s3.map.orphans = (0, 0) then s3
    else ev 0x308 0 [s3.map.orphans.1, s3.map.orphans.2] 4 { s3 with map := { s3.map with orphans := (0, 0) } }
  let s5 := s4.recalcLimit
  passBy m (if s5.placeable ≤ s5.heldFolios then s5.capacityReached else s5)

/-! ## Step 0x09: the dump -/

/-- Write lines of a folio home within the start: its unit is bound, and the placement commits. The Bool says whether the
folio was placed. -/
def State.homeNow (s0 : State) (f : Nat) (ls : List (HomeLine × Bool)) (epoch : Nat) (tag : BitVec 2) : State × Bool :=
  if s0.fro || s0.changesWait then (s0, false)
  else
  let s := s0.mend f ls
  let u := f / 16384
  let e := s.unitKey u
  let s1 := if e.bound then s else
    let z := s.setUnit u { e with bound := true, binding := false }
    z.ownRow 1 5 (unitRow u) (z.unitBytes (unitRow u))
  let r := s1.placeLines f ls epoch tag
  if r.2 then ((r.1.commitHome f).dropHome f, true) else r

/-- Write home the lines of an older slot, entries held for epoch first; the lines that could not be placed are left. -/
def State.olderHome (s : State) (ls : List DumpLine) : State × List DumpLine :=
  let q := ls.filter (·.held) ++ ls.filter (fun d => !d.held)
  let keys := (q.map (fun d => (d.held, d.line / 256, d.tag))).eraseDups
  keys.foldl (fun a k =>
    let mine := q.filter (fun d => d.held == k.1 && d.line / 256 == k.2.1 && d.tag == k.2.2)
    let home := (indexLines false mine).map (fun e => ((⟨e.1 % 256, e.2.data, e.2.poison⟩ : HomeLine), e.2.keyGen))
    let r := a.1.homeNow k.2.1 home (a.1.tagEpoch k.2.2) k.2.2
    if r.2 then (r.1, a.2) else (r.1, a.2 ++ mine)) (s, [])

/-- Lines that the slot lost are poisoned and listed; those of `lost` lie in sectors that 05 R130 did not recover, `per` to a
sector (R255, R263). -/
def State.spoil (s0 : State) (per : Nat) (lost bad : DumpLine → Bool) (ls : List DumpLine) : State × List DumpLine :=
  let s := s0.loseSlotSectors per ls lost
  let s1 := (ls.filter bad).foldl (fun s d => s.losePoison d.line) { s with fresh := s.fresh + 1 }
  (s1, ls.map (fun d => if bad d then { d with poison := true, data := Config.freeLine s.fresh } else d))

/-- The older of two slots whose lines are both to be replayed: the draining one, or of two Holding ones the lower sequence. -/
def State.olderSlot (s : State) : Option Nat :=
  let due := fun (i : Nat) => let d := s.slotD i
    d.st == 2 || d.st == 4 || (d.st == 3 && s.pfl.overlaySlot != some i)
  if due 0 && due 1 then
    (if (s.slotD 0).st = 3 then some 0 else if (s.slotD 1).st = 3 then some 1
     else if (s.slotD 0).seq < (s.slotD 1).seq then some 0 else some 1)
  else none

/-- R256: write home what the older slot holds, then release and re-arm it. Lines that could not be placed go with the newer
slot's, which win. -/
def State.clearOlder (s : State) : State × List DumpLine :=
  match s.olderSlot with
  | none => (s, [])
  | some i =>
    let ls := (s.slotD i).lines
    let r := s.olderHome ls
    let s1 := ev 0x48F 0 [i, ls.length, Config.free r.1.fresh] 1 { r.1 with fresh := r.1.fresh + 1 }
    (s1.armSlot i 1, r.2.map (fun d => { d with part := d.part + 8 }))

/-- The dump's epoch state record is the card's (10 R287). -/
def State.takeRecord (s : State) (d : DumpSlot) : State :=
  match d.epoch with
  | some (c, p, h) => { s with ring := { s.ring with committed := c, prepared := p, holds := h } }
  | none => s

/-- A dirty shutdown (R253; 10 R404). -/
def State.dirtyShutdown (s : State) (cause : Nat) : State :=
  let n := s.pfl.dirtyShutdowns + 1
  let s1 := { s with pfl := { s.pfl with dirtyShutdowns := n, dirtyLast := true },
                     ring := { s.ring with lost := true, prepared := false, holds := false, committed := s.ring.tallyEpoch.getD 0 } }
  let s2 := (s1.markSuspect (fun e => !e.epoch)).setReg PFL_LAST_DUMP.outcome 3
  ev 0x483 2 [n, cause] 1 (s2.ownRow 6 1 2 s2.shutdownRow).saveLifetime

/-- Lines of a log: a sector that does not verify ends the log where no later sector verifies, and is lost otherwise (R263). -/
def logLines (bad : DumpLine → Bool) (ls : List DumpLine) : List DumpLine :=
  ls.filter (fun d => !bad d || ls.any (fun e => !bad e && decide (d.part < e.part)))

/-- Index slot i with these lines; a slot that nothing is left in drains at once. -/
def State.indexSlot (s : State) (i : Nat) (ls : List DumpLine) (later : Bool) : State := (s.drainSlot i ls later).slotDrained

/-- Table 9-12 for slot i. -/
def State.indexDump (s : State) (i : Nat) (b : BootIn) (extra : List DumpLine) : StepEnd :=
  let d := s.slotD i
  let lost := fun (x : DumpLine) => b.badSlotLines.contains x.line
  let ms := s.reg PFL_LAST_DUMP.duration_ms
  let e := s.reg PFL_LAST_DUMP.energy
  let good := fun (s : State) => { s with pfl := { s.pfl with dirtyLast := false } }
  if d.st = 4 then
    let r := (good s).spoil 3 lost lost (logLines lost d.lines)
    let s1 := ev 0x481 0 [i, Config.free r.1.fresh, r.2.length, Config.free (r.1.fresh + 1)] 1 { r.1 with fresh := r.1.fresh + 2 }
    passBy 0 (s1.indexSlot i (extra ++ r.2) true)
  else if d.st = 3 then
    let r := s.spoil (if d.logUsed = 0 then 4 else 3) lost lost d.lines
    passBy 0 (r.1.indexSlot i (extra ++ r.2) false)
  else if d.trailer && (b.headSealOk && d.headSealed || b.tailOk) then
    let r := (good (s.takeRecord d)).spoil 4 lost lost d.lines
    let tail := !(b.headSealOk && d.headSealed)
    let s1 := if tail then ev 0x484 1 [i] 1 (r.1.setReg PFL_LAST_DUMP.outcome 4) else r.1
    passBy 0 ((ev 0x481 0 [i, ms, r.2.length, e] 1 s1).indexSlot i (extra ++ r.2) false)
  else if d.headSealed && b.headSealOk then
    let part := fun (x : DumpLine) => lost x || decide (d.dataParts < (if x.part ≤ 1 then 1 else 2))
    let r := (good (s.takeRecord d)).spoil 4 lost part d.lines
    let s1 := ev 0x482 2 [i, (d.lines.filter part).length] 1 (r.1.setReg PFL_LAST_DUMP.outcome 2)
    passBy 0 (s1.indexSlot i (extra ++ r.2) false)
  else if s.pfl.clean then passBy 0 (s.armSlot i 1)
  else .pass 0 3 0x483 ((s.dirtyShutdown d.cause).armSlot i 1)

/-- Step 0x09: it waits for flush-home (R254). In PCIe-only mode a dump stays in its slot (02 R35). -/
def State.step9 (s : State) (b : BootIn) : StepEnd :=
  if s.pfl.flush.isSome then .wait
  else if s.pcieOnly then passBy 0 s
  else
    let r := s.clearOlder
    let z := { r.1 with pfl := { r.1.pfl with failedPower := false } }
    let due := fun (i : Nat) => let d := z.slotD i
      d.st == 2 || d.st == 4 || (d.st == 3 && z.pfl.overlaySlot != some i)
    if due 0 then z.indexDump 0 b r.2
    else if due 1 then z.indexDump 1 b r.2
    else if s.pfl.failedPower && !s.pfl.clean then .pass 0 3 0x483 (z.dirtyShutdown s.pfl.failCause)
    else passBy 0 (if s.pfl.clean then { z with pfl := { z.pfl with dirtyLast := false } } else z)

/-! ## Steps 0x0A to 0x0C -/

/-- The tree top is chosen (Table 8-6): 0 tally, 1 dump, 2 the other copy, 3 re-anchored. -/
def State.chooseTop (s : State) (b : BootIn) : State :=
  let dump := (s.pfl.slots.filter (fun d => d.st == 3)).findSome? (·.topSeq)
  let tally := s.key.tallyTop
  let n := max (dump.getD 0) (tally.getD 0)
  let dOk := dump == some n && b.dumpTopOk
  let tOk := tally == some n && b.tallyTopOk
  let use := fun (src : Nat) (s : State) => { s with key := { s.key with topSeq := n, topSource := src } }
  if s.boot.result 9 = 3 then
    ev 0x405 2 [Config.free s.fresh, b.counterBlocks] 3
      { s with fresh := s.fresh + 1, key := { s.key with topSeq := n, topSource := 3 } }
  else if dump == some n && dOk then use 1 s
  else if dump == some n && tOk then ev 0x411 1 [1, n] 3 (use 2 s)
  else if dump != some n && tOk then use 0 s
  else
    ev 0x405 2 [Config.free s.fresh, b.counterBlocks] 3
      { s with fresh := s.fresh + 1, key := { s.key with topSeq := n, topSource := 3 } }

/-- The dumped counter blocks and nodes are loaded, dirty as they were. -/
def State.loadCounters (s : State) : State :=
  (s.pfl.slots.flatMap (fun d => if d.st = 3 ∨ d.st = 2 then d.ctrs else [])).foldl (fun s e =>
    if e.1 < 2 ^ 32 then s.setCtr e.1 e.2
    else keepNode 4 e.1 true { s with key := { s.key with nodes := Tab.put s.key.nodes e.1 e.2 } }) s

/-- An interrupted carry sweep: its unit rows are completed from a record that is written, and it goes on from the saved
boundary; one whose record is not written does not exist (08 R220, R222). -/
def State.resumeSweep (s : State) : State :=
  match s.key.sweep with
  | none => s
  | some w =>
    let asked := s.sweepRowsLeft
    if !w.recorded then (if asked then s else { s with key := { s.key with sweep := none } })
    else
      let s1 := { s with key := { s.key with sweep := some { w with boundary := w.saved } } }
      if w.rowsDone then s1
      else (if asked then s1 else s1.writeUnits w.units 3 (s1.sweptUnits w)).sweepStarted { w with boundary := w.saved }

def State.step10 (s : State) (b : BootIn) : StepEnd := passBy 0 ((s.loadCounters.chooseTop b).resumeSweep)

/-- A card whose epoch state was lost flags its epoch-mode extents suspect (10 R289). -/
def State.flagLost (s : State) : State := if s.ring.lost then s.markSuspect (fun e => e.epoch) else s

/-- Step 0x0B begins: the bypass opens, and the join starts afresh. A ring of one, and the card under the fallback, keep the
bypass closed and apply Table 10-7 to themselves (10 R275; R335). -/
def State.enterRing (s : State) : State :=
  let ms := s.ring.members.mapIdx (fun i m => if i = s.ring.own then { m with present := true } else { m with present := false })
  let fallback := decide (s.boot.cfgSource = 2)
  let r := { s.ring with joinStart := s.now, joined := false, st := 0, stateSeen := [], resolving := false, members := ms,
                         provisional := s.ring.lost, bypass := false, version := 0 }
  let s1 := State.flagLost { s with ring := r }
  if fallback then
    State.join { s1 with ring := { s1.ring with st := 3, bypass := true, version := 0, position := some 0 } }
  else
    let s2 : State := s1.judgeCables
    if s2.ring.st = 3 then s2.join
    else if s2.alone && decide (s2.ring.st = 0) then s2.formRing.join
    else s2

/-- Step 0x0B ends when the card has joined. -/
def State.step11 (s : State) : StepEnd := if s.ring.joined then passBy 0 s else .wait

/-- Step 0x0C: the last store test passed and rail 13's power-good is present; else write-through mode with cause 1. -/
def State.step12 (s : State) (b : BootIn) : StepEnd :=
  let ok := !([0, 2, 3, 4].contains s.pfl.lastResult) && (s.rail 13).pg && b.rail13Good
  if ok then passBy 0 (State.setBudget { s with pfl := { s.pfl with health := if s.pfl.energy < 30000 then 1 else 0 } })
  else .pass 0 3 0x489 (((State.enterWt { s with pfl := { s.pfl with health := 2 } } 1).startLog).setBudget)

/-! ## Step 0x0D (R342; 02 R56) -/

def State.raiseRollback (s : State) : State :=
  let n := s.runFw.rollback
  if s.boot.rollback < n then
    let z := { s with boot := { s.boot with rollback := n } }
    ev 0x58C 0 [s.boot.rollback, n] 1 (z.ownRow 1 5 enrolRow z.boot.enrolBytes)
  else s

/-- Memory_Active: the start is complete. -/
def State.finishStart (s : State) : State :=
  let ms := (s.now - s.boot.perstAt) / msec
  let b := s.boot.setNewest (fun a => { a with outcome := 1, activeMs := (s.now - s.boot.startAt) / msec })
  let h := (b.putHeader (fun h => { h with fwGood := b.fwSlot, pending := false }))
  let slots := s.pfl.slots.map (fun d => if d.st = 3 then { d with ctrs := [] } else d)
  let s1 := { s with boot := { h with running := false, complete := true, failure := [], trainFails := 0, cold := false, activeMs := ms },
                     pfl := { s.pfl with slots := slots } }
  let s2 := if s1.cxlUp && !s1.replayDue then s1.setMemActive else s1
  let w := total (s2.boot.methods.mapIdx (fun i m => m * 4 ^ i))
  (ev 0x580 0 [s2.boot.attempt, ms, w] 1 s2.raiseRollback).ledgerRow.judgeWt

/-! ## BOOT_STEP -/

/-- Step n begins, with what comes about at its beginning. -/
def State.enterStep (s : State) (n : Nat) : State :=
  let s1 := s.beginStep n
  if n = 5 then s1.logDeferred
  else if n = 6 then { s1 with link := { s1.link with infoValid := true, mboxReady := true } }
  else if n = 11 then s1.enterRing
  else s1

/-- The running step meets its end. -/
def State.runStep (s : State) (b : BootIn) : StepEnd :=
  match s.boot.step with
  | 1 => s.step1
  | 2 => s.step2 b
  | 3 => s.step3 b
  | 4 => s.step4 b
  | 5 => s.step5 b
  | 6 => s.step6 b
  | 7 => s.step7 b
  | 8 => s.step8 b
  | 9 => s.step9 b
  | 10 => s.step10 b
  | 11 => s.step11
  | 12 => s.step12 b
  | _ => passBy 0 s

def State.endStep (s : State) (b : BootIn) : State :=
  match s.runStep b with
  | .wait => s
  | .stop s1 => s1
  | .pass m result detail s1 =>
    let s2 := s1.closeStep m result detail
    if s.boot.step = 13 then s2.finishStart else s2.enterStep (s.boot.step + 1)

/-- No attempt runs, PERST_N is deasserted, and the rails are on. -/
def State.mayStart (s : State) : Bool :=
  !s.boot.running && !s.boot.complete && !s.boot.hold && !s.boot.recovery && !s.boot.perst && s.railsOn &&
    s.pwr.sequence == 0 && s.pfl.dump.isNone && s.thm.stopping.isNone

/-- An attempt begins, or one that was held for heat goes on at its step 0x01 (11 R320). -/
def State.startAttempt (s : State) : State :=
  if s.boot.inProgress && s.thm.recheck && decide (s.boot.step = 1) then { s with boot := { s.boot with running := true } }
  else s.beginAttempt (if s.boot.cold then 0 else 1) []

/-- BOOT_STEP. With the rails come on and no attempt running, it begins the attempt. -/
def execBootStep (t : Nat) (b : BootIn) (s0 : State) : Res :=
  let s := s0.tick t
  .next (if s.boot.running then s.endStep b else if s.mayStart then s.startAttempt else s)

/-! ## 3.3 Vaux and PERST_N (R343, R346, Table 12-5) -/

/-- VAUX_APPLIED: region A starts in a cold power-on. -/
def execVauxApplied (t : Nat) (s0 : State) : Res :=
  let s := s0.tick t
  if s.pwr.inputs.vaux ≠ 0 then .next s
  else
    let r0 : Rail := { (s.rail 0) with enabled := true, pg := true, enabledAt := s.now }
    let p := { s.pwr with inputs := { s.pwr.inputs with vaux := 3300 }, table := bootSlotTable, imageTable := false,
                          rails := setAt s.pwr.rails 0 r0 }
    let s1 := { s with pwr := p, boot := { s.boot with cold := true }, link := { s.link with smbusAddress := 0x62, eid := 0 },
                       tly := { s.tly with rail0 := true, holdUp := true, wrong := [], locked := [] } }
    .next (s1.resetRegs 3).tallyKick

/-- VAUX_REMOVED: region A stops and the ring bypass closes. -/
def execVauxRemoved (t : Nat) (s0 : State) : Res :=
  let s := s0.tick t
  if s.pwr.inputs.vaux = 0 then .next s
  else
    .next s.vauxGone

/-- PERST_N_ASSERT. A dump ignores all but the pin; an orderly stop goes on. With the rails on the card stops admitting, takes
the link down, closes the bypass and begins flush-home. -/
def execPerstNAssert (t : Nat) (s0 : State) : Res :=
  let s := s0.tick t
  if s.boot.perst then .next s
  else
    let s1 := { s with boot := { s.boot with perst := true } }
    if s1.pfl.dump.isSome then .next s1
    else
      let s2 := State.endAttempt { s1 with thm := { s1.thm with heldAt := none } }
      let served := s2.boot.complete
      let s3 := (s2.functionReset.abandonCommands).linkDown
      let s4 := { s3 with
        boot := { s3.boot with hold := false, recovery := false },
        link := { s3.link with memActive := false, infoValid := false, mboxReady := false },
        tly := { s3.tly with wrong := [], locked := [] },
        map := { s3.map with discard := none },
        ring := s3.ring.volatileLost }
      .next (if s4.railsOn && s4.pwr.sequence == 0 && (served || s4.staged != 0) then s4.beginFlush else s4)

/-- START: PERST_N is deasserted. With the rails on an attempt begins; with the rails off it is an on request (11 R303). -/
def execStart (t : Nat) (s0 : State) : Res :=
  let s := s0.tick t
  if !s.boot.perst then .next s
  else
    let s1 := { s with boot := { s.boot with perst := false, perstAt := s.now },
                       pwr := { s.pwr with needPerst := false, latchedOff := false } }
    if s1.pfl.dump.isSome || s1.thm.stopping.isSome then .next s1
    else
      let s2 := { s1 with boot := { s1.boot with complete := false } }
      .next (if s2.mayStart then s2.startAttempt
        else if s2.inputsOk && s2.pwr.qualified && (s2.railsOff || s2.pwr.sequence == 2) then s2.onRequest
        else s2)

/-! ## After the start -/

/-- LAST_RESORT_SCAN_END. -/
def execLastResortScanEnd (t : Nat) (s0 : State) : Res :=
  let s := s0.tick t
  .next (if s.link.scanRunning then
    let s1 := { s with link := { s.link with scanRunning := false } }
    if s.link.memActive then ev 0x598 0 [(s.now - s.link.scanStart) / sec] 1 s1 else s1
  else s)

/-- An extent entry as the image holds it (08 Table 8-1). -/
def extentRaw (e : ExtentEntry) : Bytes :=
  let flags := e.cls % 8 + b2n e.epoch * 8 + b2n e.speculative * 16 + b2n e.pin * 32 + b2n e.encrypt * 64 + b2n e.viral * 128
  le 2 e.base ++ le 2 e.units ++ le 2 e.key ++ le 1 flags ++ le 1 e.scrub ++ le 16 e.tag.toNat ++ zeros 8

/-- EXTENT_TABLE_SAVE: eight extents to a row of partition 5 from row 2100 (the rows are the model's). -/
def execExtentTableSave (s : State) : Res :=
  .next (if s.boot.complete && s.boot.saveExtents && s.gRuns then
    let s1 := { s with boot := { s.boot with savedExtents := some s.key.extents, saveExtents := false } }
    (pieces (divUp s.key.extents.length 8) 8 s.key.extents).zipIdx.foldl
      (fun s e => s.ownRow 1 5 (2100 + e.2) (e.1.flatMap extentRaw)) s1
  else s)

/-- What the failure of the running step leaves for the next attempt. Under a firmware slot other than fw_good it counts as a
failure of step 0x02 (R329). -/
def Boot.failureOf (b : Boot) : Tab Nat :=
  if 2 < b.step ∧ b.fwSlot ≠ b.fwGood then [(2, b.methods.getD 1 0)] else [(b.step, b.firstMethod b.step)]

/-- CHIP_WATCHDOG_EXPIRY: an internal watchdog reset. During a start a new attempt begins; a dump ignores it (R346). The
heartbeat is engine 54's during a start and 56's thereafter (01 Table 1-11). -/
def execChipWatchdogExpiry (t : Nat) (s0 : State) : Res :=
  let s := s0.tick t
  let b := s.boot
  if s.pfl.dump.isSome || !s.coreOn || s.pwr.sequence != 0 || !(b.running || b.complete || b.hold) then .next s
  else
    let s1 := ev 0x56E 2 [if b.running then 54 else 56, b.step] 0 (s.bump BOOT_RESETS.watchdog)
    let s2 := (s1.functionReset.abandonCommands).linkDown
    if b.running then
      let a := s2.boot.setNewest (fun a => { a with outcome := 3 })
      .next ((State.ledgerRow { s2 with boot := { a with running := false, ended := some (b.step, 0) } }).beginAttempt 2 b.failureOf)
    else .next s2

/-- GET_BOOT_LEDGER (R349). -/
def execGetBootLedger (path : Path) (index : Nat) (s : State) : Res :=
  .next (s.mailbox (.getBootLedger path index) path 0xC060 true false (fun s =>
    match s.boot.ledger.drop index with
    | a :: _ => if index < 16 then s.reply path 0xC060 .success a.bytes else s.reply path 0xC060 .invalidInput
    | [] => s.reply path 0xC060 .invalidInput))

end Sys2Proof.Machine
end

