-- ==== Sys2Proof/Machine/Link.lean ====
section
/-! DEFINITION. The link and its management paths: training, HDM decoders, IDE, SPDM and DOE, SMBus and MCTP, link errors
and the low-power states (02 R32 to R54, 12 R345 to R348). -/

namespace Sys2Proof.Machine

/-! ## Training (02 R34) -/

/-- The negotiation outcomes of 02 Table 2-2 that train the link: protocol as ID_LINK codes it, 256-byte flits, and
whether it is a degraded or PCIe-only outcome. Not in the table, and the model's own (log entry 85): degraded operation is coded 2
with a CXL 1.1 root port and 3 otherwise; flit256 is 0 in PCIe-only mode at every rate; 68-byte flits at 64 GT/s count as the second
row of the table. -/
def outcomeOf (o : LinkOffer) : Nat × Bool × Bool :=
  if o.mem && o.flit256 && decide (3 ≤ o.rate) && decide (4 ≤ o.width) then (4, true, false)
  else if o.mem && !o.flit256 && decide (3 ≤ o.rate) && decide (4 ≤ o.width) then
    (if o.root11 then 2 else 3, false, false)
  else if o.mem && decide (o.rate ≤ 2) && decide (4 ≤ o.width) then (if o.root11 then 2 else 3, false, true)
  else (1, false, true)

/-- Sustained payload at x16 in MB/s, read and write (02 Table 2-1). -/
def payload16 (protocol rate : Nat) (flit256 : Bool) : Nat × Nat :=
  if protocol ≤ 1 then (0, 0)
  else if rate = 4 then (112000, 104000)
  else if rate = 3 then (if flit256 then (56000, 52000) else (52000, 48000))
  else if rate = 2 then (26000, 24000)
  else (13000, 12000)

/-- The CDAT values for a trained link (02 R49): x8 carries half and x4 a quarter of the x16 payload. -/
def cdatOf (protocol rate width : Nat) (flit256 : Bool) : Cdat :=
  let add := if rate = 1 then 25 else if rate = 2 then 10 else 0
  let p := payload16 protocol rate flit256
  ⟨650 + add, 70 + add, p.1 * width / 16, p.2 * width / 16⟩

/-- The card may train its link: out of PERST_N, firmware and image taken, not held down, not in recovery,
its rails on and no sequence running. -/
def State.trains (s : State) : Bool :=
  !s.boot.perst && !s.link.heldDown && !s.boot.recovery && decide (4 ≤ s.boot.step) && decide (s.link.protocol = 0) &&
    s.railsOn && decide (s.pwr.sequence = 0)

/-- The link registers and CDAT after training. -/
def State.trained (s : State) (o : LinkOffer) : State :=
  let r := outcomeOf o
  let c := cdatOf r.1 o.rate o.width r.2.1
  { s with link := { s.link with protocol := r.1, rate := o.rate, width := o.width, flit256 := r.2.1,
                                 degraded := r.2.2, cdat := c, cdatChanged := s.link.cdat != c, l1 := false } }

/-- Events of 02 Table 2-23 that a training raises once. -/
def State.trainedEvents (s : State) (o : LinkOffer) : State :=
  let s1 := ev 0x000 0 [s.link.protocol, s.link.rate, s.link.width, b2n s.link.flit256] 2 s
  if s.link.protocol = 1 then
    ev 0x002 1 [s.link.rate, s.link.width, if o.mem then 1 else 0] 2 s1
  else if s.link.degraded then ev 0x001 1 [s.link.rate, s.link.width, o.bestRate, o.bestWidth] 2 s1
  else s1

/-- LINK_TRAINING_COMPLETE. After a reset that left the start complete, Memory_Active is set again (12 R343). -/
def execLinkTrainingComplete (t : Nat) (o : LinkOffer) (s : State) : Res :=
  let s := s.tick t
  if s.trains then
    let s1 := ((s.trained o).out (.link true)).trainedEvents o
    .next (if s1.boot.complete && s1.cxlUp && !s1.replayDue then s1.setMemActive else s1)
  else .next s

/-- LINK_TRAINING_RETRY (02 Table 2-2, last row): the link stays untrained and the card tries again. -/
def execLinkTrainingRetry (s : State) : Res := .next (if s.trains then s.out (.link false) else s)

/-! ## HDM decoders (02 R39) -/

/-- The interleave ways and granularities that the decoder capability offers, and the capacity check: the size in it is the decoder's
share of DPAs, its size by its ways (log entry 86). -/
def decoderOk (s : State) (size skip ways gran pos : Nat) : Bool :=
  [1, 2, 3, 4, 6, 8, 12, 16].contains ways && [256, 512, 1024, 2048, 4096, 8192, 16384].contains gran &&
    decide (pos < ways) && decide (skip + size / ways ≤ s.capacity)

/-- HDM_DECODER_COMMIT. Decoders do not commit in PCIe-only mode (02 R35) and in boot hold (12 R330). -/
def execHdmDecoderCommit (dec : Fin 4) (base size skip ways gran pos : Nat) (s : State) : Res :=
  let ok := decoderOk s size skip ways gran pos && s.cxlUp && !s.boot.hold
  let d : Decoder := ⟨base, size, skip, if ways = 0 then 1 else ways, if gran = 0 then 256 else gran, pos, ok, !ok⟩
  .next (if s.link.protocol = 0 then s
    else { s with link := { s.link with decoders := setAt s.link.decoders dec.val d } })

/-! ## IDE (02 R50, R51; 08 R227) -/

/-- IDE_INTEGRITY_FAILURE on a stream that is keyed and secure. -/
def execIdeIntegrityFailure (t : Nat) (cachemem : Bool) (s : State) : Res :=
  let s := s.tick t
  let live := if cachemem then s.link.ideMem.isSome && !s.link.ideInsecureMem
    else s.link.ideIo.isSome && !s.link.ideInsecureIo
  if live then
    let l := if cachemem then { s.link with ideInsecureMem := true, ideLostMem := true }
      else { s.link with ideInsecureIo := true, ideLostIo := true }
    .next (ev 0x003 3 [b2n cachemem] 2 (({ s with link := l }.reportRas 2).reportUnc 2 0x003))
  else .next s

/-- IDE_KEY_PROGRAM: a key is programmed, refreshed or (none) retired. Keys travel only in a secured SPDM session and
only while the link runs CXL 3.1 and the image permits IDE. A new key of a failed stream after the reset lifts its refusal
(02 R51). A CXL.cachemem stream takes its mode, skid or containment, with its first key. -/
def execIdeKeyProgram (cachemem : Bool) (key : Option IdeKey) (secured : Bool) (s : State) : Res :=
  if secured && decide (0 < s.link.spdmSessions) && decide (s.link.protocol = 4) && s.run.link.ide then
    let l := s.link
    .next { s with link :=
      if cachemem then
        { l with ideMem := key.map (·.key), ideContained := if l.ideMem.isSome then l.ideContained else key.any (·.contained),
                 ideLostMem := l.ideLostMem && (key.isNone || l.ideInsecureMem) }
      else { l with ideIo := key.map (·.key), ideLostIo := l.ideLostIo && (key.isNone || l.ideInsecureIo) } }
  else .next s

/-! ## SPDM, DOE, CDAT (02 R48, R49; 12 R347, R348) -/

/-- DOE answers once the link is trained and G runs; MCTP once 3.3 Vaux is present, with Retry Required (kind 0) until G
runs (02 R53). -/
def State.attest (s : State) (p : Path) (run : State → State) : State :=
  match p with
  | .primary => if s.link.protocol = 0 || !s.gRuns then s else run s
  | .mctp =>
    if s.pwr.inputs.vaux = 0 || s.boot.recovery then s
    else if !s.gRuns then s.out (.answer 0 []) else run s

/-- The largest data object of DOE (02 R48), and the parameter set of the extended asymmetric algorithm that the card offers,
ML-DSA-44. -/
abbrev doeLargest : Nat := 65536
abbrev mlDsaSet : Nat := 44

/-- SPDM_MESSAGE: certificate slot 0 holds the chain, slots 1 to 7 are empty, SET_CERTIFICATE is not supported (an error
answer is kind 15). -/
def execSpdmMessage (path : Path) (r : SpdmReq) (s : State) : Res :=
  .next (s.attest path (fun s =>
    match r with
    | .getVersion => s.out (.answer 1 [0x12, 0x13])
    | .getCertificate n => if n = 0 then s.out (.answer 2 (Config.standardReply 2 0)) else s.out (.answer 15 [])
    | .challenge => s.out (.answer 3 (Config.standardReply 3 s.sent.length))
    | .keyExchange =>
      { s with link := { s.link with spdmSessions := s.link.spdmSessions + 1 } }.out
        (.answer 4 (Config.standardReply 4 s.sent.length))
    | .endSession => { s with link := { s.link with spdmSessions := s.link.spdmSessions - 1 } }.out (.answer 5 [])
    | .setCertificate => s.out (.answer 15 [])
    | .getCapabilities => s.out (.answer 12 (le 4 doeLargest))
    | .negotiateAlgorithms => s.out (.answer 13 (le 1 1 ++ le 2 mlDsaSet))))

/-- The contents of measurement 1 to 6 (12 Table 12-15). -/
def State.measurement (s : State) (i : Nat) : Bytes :=
  let f := s.runFw
  match i with
  | 1 => le 32 (Config.sha3 (Config.imageBytes 2 [])).toNat
  | 2 => le 32 (Config.sha3 (Config.imageBytes 0 [f.version, f.rollback, f.layoutLow, f.layoutHigh, f.minStep])).toNat
  | 3 => le 4 f.version ++ le 2 s.boot.rollback
  | 4 => if s.boot.cfgSource = 2 then le 32 (Config.sha3 (Config.imageBytes 1 [])).toNat else le 32 s.boot.cfgDigest
  | 5 => le 32 (s.boot.enrolled.getD 0)
  | 6 => le 2 s.capGib ++ [2, 3]
  | _ => []

/-- GET_MEASUREMENTS: index 1 to 6, or 0xFF for all of them, signed on request. -/
def execGetMeasurements (path : Path) (index : Nat) (signed : Bool) (s : State) : Res :=
  .next (s.attest path (fun s =>
    if index = 0xFF ∨ (1 ≤ index ∧ index ≤ 6) then
      let b := if index = 0xFF then [1, 2, 3, 4, 5, 6].flatMap s.measurement else s.measurement index
      s.out (.answer 6 (b ++ if signed then Config.sign b else []))
    else s.out (.answer 15 [])))

/-- DOE_DISCOVERY: the data object protocols of 02 R48 by index (vendor ID, type, next index; the codes are those of PCI
Express and CXL). -/
def execDoeDiscovery (index : Nat) (s : State) : Res :=
  .next (s.attest .primary (fun s => s.out (.answer 7
    (match index with
     | 0 => le 2 0x0001 ++ [0, 1]
     | 1 => le 2 0x0001 ++ [1, 2]
     | 2 => le 2 0x0001 ++ [2, 3]
     | 3 => le 2 0x1E98 ++ [2, 0]
     | _ => le 2 0xFFFF ++ [0, 0]))))

/-- The fields of CDAT entry 0 DSMAS, 1 DSLBIS, 2 DSMSCIS, 3 DSEMTS (02 Table 2-19): type, then the values of the table. The last
byte of DSMSCIS is its associativity, 1 for direct mapped. -/
def State.cdatEntry (s : State) (i : Nat) : Bytes :=
  match i with
  | 0 => [0, 0, 1] ++ le 8 0 ++ le 8 s.capacity
  | 1 => [1, 0] ++ le 4 s.link.cdat.readNs ++ le 4 s.link.cdat.writeNs ++ le 4 s.link.cdat.readMbps ++
      le 4 s.link.cdat.writeMbps
  | 2 => [2, 0] ++ le 8 (11 * gib) ++ le 4 256 ++ [1]
  | 3 => [4, 0, 1]
  | _ => []

/-- CDAT_TABLE_ACCESS. -/
def execCdatTableAccess (entry : Nat) (s : State) : Res :=
  .next (s.attest .primary (fun s => s.out (.answer 8 (s.cdatEntry entry))))

/-! ## SMBus and MCTP (02 R52, R53) -/

/-- SMBUS_ARP: the assigned address stays until 3.3 Vaux is next removed. -/
def execSmbusArp (address : BitVec 7) (s : State) : Res :=
  .next (if s.pwr.inputs.vaux = 0 then s else { s with link := { s.link with smbusAddress := address } })

/-- SET_ENDPOINT_ID. -/
def execSetEndpointId (eid : Byte) (s : State) : Res :=
  .next (if s.pwr.inputs.vaux = 0 then s
    else { s with link := { s.link with eid := eid } }.out (.answer 9 [eid]))

/-- The messages of Table 2-20 that region G answers: SPDM, secured messages within a session, and a command of the component command
interface. A command that the card implements is a row of its own; any other opcode is Unsupported (R41). A type that the table does
not list is not answered (log entry 87). -/
def State.mctpAnswer (s : State) (m : MctpMsg) : State :=
  match m with
  | .control => s.out (.answer 10 [s.link.eid])
  | .spdm => s.out (.answer 11 (Config.standardReply 11 s.sent.length))
  | .secured =>
    if s.link.spdmSessions = 0 then s.out (.answer 15 []) else s.out (.answer 11 (Config.standardReply 11 s.sent.length))
  | .cci op => s.unsupported .mctp op
  | .other _ => s

/-- MCTP_CONTROL_MESSAGE: region A answers control messages alone; every other message gets Retry Required (kind 0) until
region G runs. In recovery only control messages are answered here. -/
def execMctpControlMessage (m : MctpMsg) (s : State) : Res :=
  .next (if s.pwr.inputs.vaux = 0 then s
    else match m with
      | .control => s.mctpAnswer m
      | .spdm | .secured | .cci _ | .other _ =>
        if s.boot.recovery then s else if s.gRuns then s.mctpAnswer m else s.out (.answer 0 []))

/-! ## Link errors (02 Table 2-21, 13 R387) -/

/-- LINK_ERROR: counted, reported through AER as correctable, and in the RAS capability when the threshold is reached. -/
def execLinkError (e : LinkErr) (s : State) : Res :=
  if s.link.protocol = 0 then .next s
  else
    let f := match e with
      | .crc => ECC_LINK.crc
      | .replay => ECC_LINK.replays
      | .receiver => ECC_LINK.receiver
    let bit := match e with
      | .crc => 6
      | .replay => 8
      | .receiver => 0
    let s1 := (s.bump f).reportCor bit
    .next (if e ≠ .receiver ∧ s1.reg f = Config.rasThreshold then s1.reportRas (if e = .crc then 0 else 4) else s1)

/-! ## Low-power states (12 R345) -/

/-- D3HOT_ENTRY: all state is kept, CXL.mem is served, and dirty lines are written home. -/
def execD3hotEntry (t : Nat) (s : State) : Res :=
  let s := s.tick t
  .next (if s.link.protocol = 0 then s
    else { s with link := { s.link with d3hot := true }, cch := { s.cch with writeback := true } })

/-- D0_ENTRY: No_Soft_Reset is 1, so nothing is reset; the GDDR7 devices leave self-refresh at the first access. -/
def execD0Entry (t : Nat) (s : State) : Res :=
  let s := s.tick t
  .next { s with link := { s.link with d3hot := false } }

/-- GDDR7_SELF_REFRESH_ENTRY: in D3hot with nothing staged and no request for 100 ms, D10 to D13 gated; or after flush-home
with PERST_N asserted. -/
def execGddr7SelfRefreshEntry (t : Nat) (s : State) : Res :=
  let s := s.tick t
  if s.link.d3hot && decide (s.staged = 0) && decide (s.qos.lastReqAt + 100 * msec ≤ s.now) then
    .next { s with link := { s.link with selfRefresh := true },
                   pwr := { s.pwr with gated := s.pwr.gated ||| 0x3C00#30 } }
  else if s.boot.perst && s.railsOn && s.pfl.flush.isNone then
    .next { s with link := { s.link with selfRefresh := true } }
  else .next s

/-- ASPM_L1_ENTRY: when the image advertises ASPM L1. All state is kept. -/
def execAspmL1Entry (s : State) : Res :=
  .next (if s.run.link.aspmL1 && s.link.protocol != 0 then { s with link := { s.link with l1 := true } } else s)

/-- ASPM_L1_EXIT. -/
def execAspmL1Exit (s : State) : Res := .next { s with link := { s.link with l1 := false } }

end Sys2Proof.Machine
end

