-- ==== Sys2Proof/Machine/Rows.lean ====
section
/-! DEFINITION. The end of a tally row write: the copy written, and what its owner does then (13 R354, R355, R358, R379). -/

namespace Sys2Proof.Machine

/-- The shutdown state takes effect; a queued write of the same record takes it too (09 R265). -/
def State.setShutdown (s0 : State) (v : Nat) : State :=
  let s := { s0 with link := { s0.link with shutdownState := BitVec.ofNat 32 v } }
  { s with tly := { s.tly with queue := s.tly.queue.map (fun w => if w.part = 1 ∧ w.row = 2 then { w with data := s.shutdownRow } else w) } }

/-- What a mailbox command does when its last row is written. -/
def State.finish (s : State) (opcode : Nat) (args : List Nat) : State :=
  match opcode, args with
  | 0xC051, [base] => s.recorderCleared base
  | 0x4204, [v] => s.setShutdown v
  | 0xC030, [k] => s.fillSlot k
  | 0xC032, [k] => s.retireKey k
  | 0x4401, _ => { s with key := { s.key with erasing := none, resetPending := true } }
  | _, _ => s

/-- One row of a mailbox command is written; with the last one the command returns. -/
def State.waitRow (s : State) : State :=
  match s.link.wait, s.tly.orphan with
  | some w, _ =>
    if 1 < w.left then { s with link := { s.link with wait := some { w with left := w.left - 1 } } }
    else
      let s1 := State.finish { s with link := { s.link with wait := none } } w.opcode w.args
      s1.reply w.path w.opcode .success w.out
  | none, some o => State.finish { s with tly := { s.tly with orphan := none } } o.1 o.2
  | none, none => s

/-- What the owner of a row write does at its end. -/
def State.rowOwner (s : State) (w : RowWrite) : State :=
  match w.owner with
  | 1 => s.waitRow
  | 2 =>
    let e := s.unitKey w.arg
    s.setUnit w.arg { e with bound := true, binding := false, holdsData := true }
  | 3 => if w.arg = 0 then s.sweepRecorded else s
  | _ => s

/-- The armed mask spoils the copy: its low 32 bits are XORed into the CRC. -/
def State.maskSpoils (s : State) (part : Nat) : Bool :=
  s.flipsRow part && (match s.flip.armed with | some m => m.mask.setWidth 32 != 0 | none => false)

/-- TALLY_ROW_WRITE_COMPLETE: the row holds the new record, its owner acts, the next write by rank begins. -/
def execTallyRowWriteComplete (t : Nat) (s0 : State) : Res :=
  let s := s0.tick t
  match s.tly.running with
  | none => .next s
  | some w =>
    let r := (s.row w.part w.row).write w.data (s.maskSpoils w.part)
    let s1 := { s with tly := { s.tly with running := none, rows := Tab.put s.tly.rows (rowKey w.part w.row) r } }
    let s2 := if s.flipsRow w.part then s1.flipFired w.part w.row 0 else s1
    .next (s2.rowOwner w).tallyKick

end Sys2Proof.Machine
end

