-- ==== Sys2Proof/Machine/Standard.lean ====
section
/-! DEFINITION. The standard mailbox commands for event logs, the timestamp, logs, identity, labels, health, alerts and the shutdown
state (02 R41 to R46; 07 R177; 09 R265; 13 R382). Payload layouts are those of CXL 3.1 (log entry 35). -/

namespace Sys2Proof.Machine

/-- The 16 bytes of a UUID as it is printed. -/
def uuid (n : Nat) : Bytes := (le 16 n).reverse

/-- Two's complement of a temperature in 16 bits. -/
def temp16 (n : Int) : Bytes := le 2 (n % 65536).toNat

/-! ## Event logs (R41, R45, R46) -/

/-- UUID of a record's kind: General Media, Memory Module, and the vendor's own (R45). -/
def kindUuid (kind : Nat) : Bytes :=
  match kind with
  | 0 => uuid 0xfbcd0a77c260417f85a9088b1621eba6
  | 1 => uuid 0xfe927475dd594339a58679bab113b774
  | _ => uuid 0x5b0e7c2194d34a6f8e12c07a39d4f6b8

/-- The 80 bytes after the common header; the vendor's are Table 2-17. -/
def EventRec.body (r : EventRec) : Bytes :=
  match r.kind with
  | 0 => fit 80 (le 8 (r.data.headD 0) ++ Config.recordData 0 r.handle)
  | 1 => fit 80 (Config.recordData 1 r.handle)
  | _ => le 2 (r.source % 2048) ++ le 1 r.severity ++ le 1 r.region ++ le 4 r.recorder ++ fit 64 (r.data.flatMap (le 8)) ++ zeros 8

def EventRec.bytes (r : EventRec) : Bytes :=
  kindUuid r.kind ++ le 1 128 ++ le 3 r.severity ++ le 2 r.handle ++ zeros 2 ++ le 8 r.time.toNat ++ zeros 16 ++ r.body

/-- Records that one payload of 64 KiB holds after its 32 bytes of header. -/
abbrev recordsPerPage : Nat := 511

/-- GET_EVENT_RECORDS: the oldest records of one log, at most `count`. -/
def execGetEventRecords (path : Path) (log count : Nat) (s0 : State) : Res :=
  .next (s0.mailbox (.getEventRecords path log count) path 0x0100 false false (fun s =>
    if 3 < log then s.reply path 0x0100 .invalidInput
    else
      let all := s.evt.logs.getD log []
      let out := all.take (min count recordsPerPage)
      let lost := s.evt.overflow.getD log 0
      let at_ := s.evt.overflowAt.getD log (0, 0)
      s.reply path 0x0100 .success (le 1 (b2n (decide (0 < lost)) + 2 * b2n (decide (out.length < all.length))) ++ zeros 1 ++
        le 2 (min lost 65535) ++ le 8 at_.1.toNat ++ le 8 at_.2.toNat ++ le 2 out.length ++ zeros 10 ++ out.flatMap EventRec.bytes)))

/-- The log is empty of the records cleared, and its overflow is told. -/
def State.clearLog (s : State) (log : Nat) (left : List EventRec) : State :=
  { s with evt := { s.evt with logs := setAt s.evt.logs log left, overflow := setAt s.evt.overflow log 0, overflowAt := setAt s.evt.overflowAt log (0, 0) } }

/-- CLEAR_EVENT_RECORDS: all of a log, or its oldest records by handle, in temporal order. -/
def execClearEventRecords (path : Path) (log : Nat) (handles : List Nat) (all : Bool) (s0 : State) : Res :=
  .next (s0.mailbox (.clearEventRecords path log handles all) path 0x0101 false false (fun s =>
    let recs := s.evt.logs.getD log []
    if 3 < log then s.reply path 0x0101 .invalidInput
    else if all then (s.clearLog log []).reply path 0x0101 .success
    else if handles.isEmpty then s.reply path 0x0101 .invalidInput
    else if (recs.map (·.handle)).take handles.length = handles then
      (s.clearLog log (recs.drop handles.length)).reply path 0x0101 .success
    else s.reply path 0x0101 .invalidHandle))

/-- GET_EVENT_INTERRUPT_POLICY: mode in bits [1:0], MSI-X vector in bits [7:4]. -/
def execGetEventInterruptPolicy (path : Path) (s0 : State) : Res :=
  .next (s0.mailbox (.getEventInterruptPolicy path) path 0x0102 false false (fun s =>
    s.reply path 0x0102 .success ((List.range 4).map (fun i =>
      BitVec.ofNat 8 ((s.evt.policy.getD i 0).toNat % 4 + 16 * i)))))

/-- SET_EVENT_INTERRUPT_POLICY: No Interrupts or MSI-X. -/
def execSetEventInterruptPolicy (path : Path) (settings : List (BitVec 8)) (s0 : State) : Res :=
  .next (s0.mailbox (.setEventInterruptPolicy path settings) path 0x0103 false false (fun s =>
    if settings.length ≠ 4 ∨ settings.any (fun b => decide (1 < b.toNat % 4)) then s.reply path 0x0103 .invalidInput
    else State.reply { s with evt := { s.evt with policy := settings.map (fun b => b &&& 3) } } path 0x0103 .success))

/-! ## The timestamp (R45, 07 R177) -/

/-- GET_TIMESTAMP. -/
def execGetTimestamp (path : Path) (s0 : State) : Res :=
  .next (s0.mailbox (.getTimestamp path) path 0x0300 false false (fun s => s.reply path 0x0300 .success (le 8 s.time.toNat)))

/-- SET_TIMESTAMP: the timestamp always; the calendar as Table 7-1 states. -/
def execSetTimestamp (t : Nat) (path : Path) (ns : BitVec 64) (s0 : State) : Res :=
  .next ((s0.tick t).mailbox (.setTimestamp t path ns) path 0x0301 false false (fun s =>
    let s1 := { s with link := { s.link with timestamp := some (ns, s.now) } }
    (s1.judgeHost (hostSeconds ns)).reply path 0x0301 .success))

/-! ## Logs and identity (R41, R42) -/

/-- The Command Effects Log: opcode and effects, 2 bytes each. -/
def effectsLog : Bytes :=
  commandTable.flatMap (fun c => le 2 c.1 ++ le 2 (if c.2.1 then (Config.celEffect c.1).toNat else 0))

abbrev celUuid : Nat := 0x0da9c0b5bf414b788f7996b1623b3f17

/-- GET_SUPPORTED_LOGS. -/
def execGetSupportedLogs (path : Path) (s0 : State) : Res :=
  .next (s0.mailbox (.getSupportedLogs path) path 0x0400 false false (fun s =>
    s.reply path 0x0400 .success (le 2 1 ++ zeros 6 ++ uuid celUuid ++ le 4 (4 * commandTable.length))))

/-- GET_LOG: the Command Effects Log, or no log of the card's. -/
def execGetLog (path : Path) (cel : Bool) (offset length : Nat) (s0 : State) : Res :=
  .next (s0.mailbox (.getLog path cel offset length) path 0x0401 false false (fun s =>
    if !cel || decide (4 * commandTable.length < offset + length) then s.reply path 0x0401 .invalidInput
    else s.reply path 0x0401 .success ((effectsLog.drop offset).take length)))

/-- What Identify Memory Device reports (Table 2-13). -/
def State.identity (s : State) : Bytes :=
  revision (s.boot.fw.getD s.boot.fwSlot ⟨0, noFw⟩) ++ le 8 (4 * s.capGib) ++ le 8 0 ++ le 8 (4 * s.capGib) ++ le 8 0 ++
    le 2 1024 ++ le 2 512 ++ le 2 256 ++ le 2 64 ++ le 4 0x80000 ++ le 3 8192 ++ le 2 256 ++ le 1 1 ++ le 1 0 ++ le 2 0

/-- IDENTIFY_MEMORY_DEVICE. -/
def execIdentifyMemoryDevice (path : Path) (s0 : State) : Res :=
  .next (s0.mailbox (.identifyMemoryDevice path) path 0x4000 false false (fun s => s.reply path 0x4000 .success s.identity))

/-! ## The label storage area (R41) -/

abbrev lsaSize : Nat := 0x80000

/-- GET_LSA. -/
def execGetLsa (path : Path) (offset length : Nat) (s0 : State) : Res :=
  .next (s0.mailbox (.getLsa path offset length) path 0x4102 false true (fun s =>
    if lsaSize < offset + length ∨ 65536 < length then s.reply path 0x4102 .invalidInput
    else s.reply path 0x4102 .success ((List.range length).map (fun i => Tab.findD s.link.lsa (offset + i) 0))))

/-- The area with bytes written from an offset on; a byte of 0 is not listed. -/
def putBytes (m : Tab Byte) (offset : Nat) : Bytes → Tab Byte
  | [] => m
  | b :: r => putBytes (if b = 0 then Tab.del m offset else Tab.put m offset b) (offset + 1) r

/-- SET_LSA: in failed-read-only the medium takes no write (05 R135). -/
def execSetLsa (path : Path) (offset : Nat) (data : Bytes) (s0 : State) : Res :=
  .next (s0.mailbox (.setLsa path offset data) path 0x4103 false true (fun s =>
    if lsaSize < offset + data.length then s.reply path 0x4103 .invalidInput
    else if s.fro then s.reply path 0x4103 .mediaDisabled
    else State.reply { s with link := { s.link with lsa := putBytes s.link.lsa offset data } } path 0x4103 .success))

/-! ## Health and alerts (13 R382) -/

/-- Any of the health flags listed is set. -/
def State.anyFlag (s : State) (l : List Nat) : Bool := l.any (fun b => s.evt.health.getLsbD b)

/-- Health Status (Table 13-13): bit 0 maintenance needed, 1 performance degraded, 2 hardware replacement needed. -/
def State.healthStatus (s : State) : Nat :=
  b2n (s.anyFlag [0, 3, 5, 8, 11, 18, 19, 21]) +
    2 * b2n (s.anyFlag [4, 7] || (List.range 8).any (fun n => (s.clsState n).suspended)) + 4 * b2n (s.anyFlag [1, 6, 12, 15])

/-- Media Status: 1 Not Ready during a start, 2 Write Persistency Lost in failed-read-only, 0 Normal otherwise. -/
def State.healthMedia (s : State) : Nat := if !s.boot.complete then 1 else if s.fro then 2 else 0

/-- Additional Status: each alert at 1 (warning), or 2 (critical) for life used and temperature. -/
def State.healthMore (s : State) : Nat :=
  let a := s.alertsNow
  let life := if (Config.alertCritical 0).toNat ≤ s.lifeUsed then 2 else b2n (a.getD 0 false)
  let hot := (Config.alertCritical 1).toInt ≤ s.deviceTemp ∨ s.deviceTemp ≤ (Config.alertCritical 2).toInt
  let temp := if hot then 2 else b2n (a.getD 1 false || a.getD 2 false)
  life + 4 * temp + 16 * b2n (a.getD 3 false) + 32 * b2n (a.getD 4 false)

/-- GET_HEALTH_INFO. -/
def execGetHealthInfo (path : Path) (s0 : State) : Res :=
  .next (s0.mailbox (.getHealthInfo path) path 0x4200 false false (fun s =>
    s.reply path 0x4200 .success (le 1 s.healthStatus ++ le 1 s.healthMedia ++ le 1 s.healthMore ++ le 1 s.lifeUsed ++
      temp16 s.deviceTemp ++ le 4 s.pfl.dirtyShutdowns ++ le 4 (s.reg ECC_TOTALS.corrected_volatile) ++
      le 4 (s.reg ECC_TOTALS.corrected_persistent))))

/-- GET_ALERT_CONFIGURATION. -/
def execGetAlertConfiguration (path : Path) (s0 : State) : Res :=
  .next (s0.mailbox (.getAlertConfiguration path) path 0x4201 false false (fun s =>
    let a := s.evt.alert
    s.reply path 0x4201 .success (le 1 a.enable.toNat ++ le 1 31 ++ le 1 (Config.alertCritical 0).toNat ++ le 1 a.lifeUsed ++
      le 2 (Config.alertCritical 1).toNat ++ le 2 (Config.alertCritical 2).toNat ++ temp16 a.overTemp ++ temp16 a.underTemp ++
      le 2 a.volErrors ++ le 2 a.perErrors)))

/-- The alert settings after a command with these valid and enable bits. -/
def Alert.set (a : Alert) (valid enable : BitVec 8) (lifeUsed : Nat) (overTemp underTemp : Int) (volErrors perErrors : Nat) : Alert :=
  let v := fun (i : Nat) => valid.getLsbD i
  { enable := (a.enable &&& ~~~valid) ||| (enable &&& valid &&& 31),
    lifeUsed := if v 0 then lifeUsed else a.lifeUsed, overTemp := if v 1 then overTemp else a.overTemp,
    underTemp := if v 2 then underTemp else a.underTemp, volErrors := if v 3 then volErrors else a.volErrors,
    perErrors := if v 4 then perErrors else a.perErrors, standing := a.standing }

/-- SET_ALERT_CONFIGURATION. -/
def execSetAlertConfiguration (path : Path) (valid enable : BitVec 8) (lifeUsed : Nat) (overTemp underTemp : Int)
    (volErrors perErrors : Nat) (s0 : State) : Res :=
  .next (s0.mailbox (.setAlertConfiguration path valid enable lifeUsed overTemp underTemp volErrors perErrors) path 0x4202 false false (fun s =>
    if 100 < lifeUsed then s.reply path 0x4202 .invalidInput
    else
      let a := s.evt.alert.set valid enable lifeUsed overTemp underTemp volErrors perErrors
      State.reply { s with evt := { s.evt with alert := a } } path 0x4202 .success))

/-! ## The shutdown state (09 R265) -/

/-- GET_SHUTDOWN_STATE: the value lies in the tally store. -/
def execGetShutdownState (path : Path) (s0 : State) : Res :=
  .next (s0.mailbox (.getShutdownState path) path 0x4203 true false (fun s => s.reply path 0x4203 .success (le 4 s.link.shutdownState.toNat)))

/-- SET_SHUTDOWN_STATE: it returns after the row write. -/
def execSetShutdownState (path : Path) (value : BitVec 32) (s0 : State) : Res :=
  .next (s0.mailbox (.setShutdownState path value) path 0x4204 true false (fun s =>
    let row := ({ s with link := { s.link with shutdownState := value } } : State).shutdownRow
    s.replyAfter path 0x4204 [] [value.toNat] [⟨4, 1, 2, row, 1, 0⟩]))

end Sys2Proof.Machine
end

