-- ==== Sys2Proof/Machine/Poison.lean ====
section
/-! DEFINITION. The mailbox commands on poison: the list, Inject and Clear Poison, and Scan Media (02 R41, Table 2-13; 04 R105;
07 R190, R191). Payload layouts are those of CXL 3.1 (log entry 35). -/

namespace Sys2Proof.Machine

/-- What is wrong with a range of 64-byte units. -/
def State.rangeBad (s : State) (dpa units : Nat) : Option Rc :=
  if dpa % 64 ≠ 0 ∨ units = 0 then some .invalidInput
  else if s.capacity < dpa + 64 * units then some .invalidPhysicalAddress
  else none

/-- A mailbox command on a range: what is wrong with it, or its effect. -/
def State.onRange (s : State) (path : Path) (opcode dpa units : Nat) (run : State → State) : State :=
  match s.rangeBad dpa units with
  | some rc => s.reply path opcode rc
  | none => run s

/-- A media error record: DPA with the source in its low bits (1 External, 2 Internal, 3 Injected), length in units. -/
def errorRecord (line length source : Nat) : Bytes := le 8 (64 * line + source) ++ le 4 length ++ zeros 4

/-- The source codes of CXL 3.1. -/
def sourceCode (source : Nat) : Nat := if source = 0 then 2 else if source = 1 then 1 else 3

/-- Media error records of one payload. -/
abbrev errorsPerPage : Nat := 4094

/-- GET_POISON_LIST: the records that lie in the range; more come at the next call for the same range. -/
def execGetPoisonList (path : Path) (dpa units : Nat) (s0 : State) : Res :=
  .next (s0.mailbox (.getPoisonList path dpa units) path 0x4300 false false (fun s =>
    s.onRange path 0x4300 dpa units (fun s =>
      let mine := s.map.poison.filter (fun r => decide (r.line < dpa / 64 + units) && decide (dpa / 64 < r.line + r.length))
      let skip := match s.link.poisonNext with
        | some (a, n, k) => if a = dpa ∧ n = units then k else 0
        | none => 0
      let out := (mine.drop skip).take errorsPerPage
      let more := decide (skip + out.length < mine.length)
      let flags := b2n more + 2 * b2n s.map.overflow.isSome + 4 * b2n s.link.scan.isSome
      let next := if more then some (dpa, units, skip + out.length) else none
      State.reply { s with link := { s.link with poisonNext := next } } path 0x4300 .success
        (le 1 flags ++ zeros 1 ++ le 8 (s.map.overflow.getD 0) ++ le 2 out.length ++ zeros 20 ++
          out.flatMap (fun r => errorRecord r.line r.length (sourceCode r.source))))))

/-- A background command works in the extent of a DPA (02 Table 2-15). -/
def State.extentBusy (s : State) (dpa : Nat) : Bool :=
  match s.link.background with
  | none => false
  | some b =>
    if b.opcode = 0xC031 then s.extentOf dpa == some b.target
    else if b.opcode = 0xC020 then
      (match s.map.discard with
       | some d => decide (unitOf d.dpa ≤ unitOf dpa) && decide (unitOf dpa ≤ unitOf (d.dpa + d.length - 1))
       | none => false)
    else if b.opcode = 0x4304 then
      (match s.link.scan with
       | some (k, n) => decide (unitOf (64 * k) ≤ unitOf dpa) && decide (unitOf dpa ≤ unitOf (64 * (k + n) - 1))
       | none => false)
    else false

/-- INJECT_POISON: at most 256 lines are listed as injected (02 Table 2-13). -/
def execInjectPoison (t : Nat) (path : Path) (dpa : Nat) (s0 : State) : Res :=
  .next ((s0.tick t).mailbox (.injectPoison t path dpa) path 0x4301 true true (fun s =>
    s.onRange path 0x4301 dpa 1 (fun s =>
      if s.extentBusy dpa then s.reply path 0x4301 .busy
      else if !s.listed (dpa / 64) && decide (256 ≤ s.injectedLines) then s.reply path 0x4301 .injectPoisonLimit
      else s.startMaint ⟨0x4301, path, dpa / 64, 0, false⟩)))

/-- CLEAR_POISON. -/
def execClearPoison (t : Nat) (path : Path) (dpa : Nat) (data : Line) (s0 : State) : Res :=
  .next ((s0.tick t).mailbox (.clearPoison t path dpa data) path 0x4302 true true (fun s =>
    s.onRange path 0x4302 dpa 1 (fun s =>
      if s.extentBusy dpa then s.reply path 0x4302 .busy
      else s.startMaint ⟨0x4302, path, dpa / 64, data, false⟩)))

/-! ## Scan Media -/

/-- GET_SCAN_MEDIA_CAPABILITIES: the estimated time of a scan, which the manual does not give. -/
def execGetScanMediaCapabilities (path : Path) (dpa units : Nat) (s0 : State) : Res :=
  .next (s0.mailbox (.getScanMediaCapabilities path dpa units) path 0x4303 false false (fun s =>
    s.onRange path 0x4303 dpa units (fun s =>
      State.reply { s with fresh := s.fresh + 1 } path 0x4303 .success (le 4 (Config.free s.fresh)))))

/-- SCAN_MEDIA. -/
def execScanMedia (t : Nat) (path : Path) (dpa units : Nat) (s0 : State) : Res :=
  .next ((s0.tick t).mailbox (.scanMedia t path dpa units) path 0x4304 false true (fun s =>
    if s.link.background.isSome then s.reply path 0x4304 .busy
    else s.onRange path 0x4304 dpa units (fun s =>
      let s1 := s.startBackground path 0x4304 0
      { s1 with link := { s1.link with scan := some (dpa / 64, units), scanResults := [] } })))

/-- The newest copy of line k is dirty in a cache or buffer: some copy above the medium is dirty. A cleaner copy above a dirty one
holds the same data. -/
def State.dirtyAbove (s : State) (k : Nat) : Bool :=
  let i := k % 4
  (match s.nearAt (k / 4) with | some x => x.copy.isDirty i | none => false) ||
    (match s.evictAt (k / 4) with | some e => e.copy.isDirty i | none => false) ||
    (match s.boardAt (k / 4) with | some b => b.copy.isDirty i | none => false) ||
    (match s.wbAt (k / 4) with | some w => w.copy.isDirty i | none => false)

/-- Lines of the range whose medium copy a scan reads as poison, lowest first. -/
def State.scanFinds (s : State) (k n : Nat) : List Nat :=
  (s.map.entries.filter (fun e => !s.noData e.1)).flatMap (fun e =>
    ((List.range 256).map (fun i => 256 * e.1 + i)).filter (fun q =>
      decide (k ≤ q) && decide (q < k + n) && !s.dirtyAbove q && (s.mediumLine q).2))

/-- Findings as records: consecutive lines of one sector together. -/
def groupLines : List Nat → List (Nat × Nat)
  | [] => []
  | k :: r =>
    match groupLines r with
    | (a, n) :: g => if k + 1 = a ∧ a % 4 ≠ 0 then (k, n + 1) :: g else (k, 1) :: (a, n) :: g
    | [] => [(k, 1)]

/-- List a line that a scan found: one stored marked poisoned is listed as it stands (07 R191). -/
def scanList (s : State) (k : Nat) : State :=
  match s.storedLine k with
  | some st => if st.poison then s.listLine k 0 else s.losePoison k
  | none => s.losePoison k

/-- SCAN_MEDIA_COMPLETE: what was found is listed; below 8,192 records the overflow flag clears. -/
def execScanMediaComplete (t : Nat) (s0 : State) : Res :=
  let s := s0.tick t
  match s.link.scan with
  | none => .next s
  | some (k, n) =>
    let found := s.scanFinds k n
    let s1 := found.foldl scanList { s with link := { s.link with scan := none, scanResults := groupLines found } }
    let m := { s1.map with overflow := if s1.map.poison.length < 8192 then none else s1.map.overflow }
    .next (State.endBackground { s1 with map := m } .success)

/-- GET_SCAN_MEDIA_RESULTS: what the last scan found; what is returned is not returned again. -/
def execGetScanMediaResults (path : Path) (s0 : State) : Res :=
  .next (s0.mailbox (.getScanMediaResults path) path 0x4305 false false (fun s =>
    let out := s.link.scanResults.take errorsPerPage
    let left := s.link.scanResults.drop errorsPerPage
    State.reply { s with link := { s.link with scanResults := left } } path 0x4305 .success
      (zeros 16 ++ le 1 (b2n !left.isEmpty) ++ zeros 1 ++ le 2 out.length ++ zeros 12 ++
        out.flatMap (fun r => errorRecord r.1 r.2 2))))

end Sys2Proof.Machine
end

