-- ==== Sys2Proof/Machine/Dispatch.lean ====
section
/-! DEFINITION. One arm per command: each calls that command's own meaning. -/

namespace Sys2Proof.Machine

/-- The effect of a command on everything but the queue. -/
def exec (i : Instr) (s : State) : Host.Outcome State Fault Refusal :=
  match i with
  | .linkTrainingComplete t o => Sys2Proof.Machine.execLinkTrainingComplete t o s
  | .linkTrainingRetry => Sys2Proof.Machine.execLinkTrainingRetry s
  | .vauxApplied t => Sys2Proof.Machine.execVauxApplied t s
  | .vauxRemoved t => Sys2Proof.Machine.execVauxRemoved t s
  | .perstNAssert t => Sys2Proof.Machine.execPerstNAssert t s
  | .start t => Sys2Proof.Machine.execStart t s
  | .bootStep t b => Sys2Proof.Machine.execBootStep t b s
  | .lastResortScanEnd t => Sys2Proof.Machine.execLastResortScanEnd t s
  | .extentTableSave => Sys2Proof.Machine.execExtentTableSave s
  | .hotReset t => Sys2Proof.Machine.execHotReset t s
  | .cxlReset t => Sys2Proof.Machine.execCxlReset t s
  | .managementReset t => Sys2Proof.Machine.execManagementReset t s
  | .cxlMemRead t hpa => Sys2Proof.Machine.execCxlMemRead t hpa s
  | .cxlMemWrite t hpa data enables poison => Sys2Proof.Machine.execCxlMemWrite t hpa data enables poison s
  | .writeCompletion t ctx => Sys2Proof.Machine.execWriteCompletion t ctx s
  | .admitHeldRequest t => Sys2Proof.Machine.execAdmitHeldRequest t s
  | .lineFillLanded t x => Sys2Proof.Machine.execLineFillLanded t x s
  | .boardOffer t x => Sys2Proof.Machine.execBoardOffer t x s
  | .dirtyAgePush t x => Sys2Proof.Machine.execDirtyAgePush t x s
  | .boardSlotRewrite index => Sys2Proof.Machine.execBoardSlotRewrite index s
  | .writeHome t folio => Sys2Proof.Machine.execWriteHome t folio s
  | .writeHomeAck t folio => Sys2Proof.Machine.execWriteHomeAck t folio s
  | .handshakeStall t region block k => Sys2Proof.Machine.execHandshakeStall t region block k s
  | .blockResetComplete t region block ready => Sys2Proof.Machine.execBlockResetComplete t region block ready s
  | .regionRestartReady t region => Sys2Proof.Machine.execRegionRestartReady t region s
  | .regionRestartDeadline t region => Sys2Proof.Machine.execRegionRestartDeadline t region s
  | .engineWatchdogExpiry t engine => Sys2Proof.Machine.execEngineWatchdogExpiry t engine s
  | .chipWatchdogExpiry t => Sys2Proof.Machine.execChipWatchdogExpiry t s
  | .paceEvaluation t p => Sys2Proof.Machine.execPaceEvaluation t p s
  | .paceLowerInterval t p => Sys2Proof.Machine.execPaceLowerInterval t p s
  | .escalationEvaluation t => Sys2Proof.Machine.execEscalationEvaluation t s
  | .classWindowClose t cls => Sys2Proof.Machine.execClassWindowClose t cls s
  | .envelopeRecompute t => Sys2Proof.Machine.execEnvelopeRecompute t s
  | .restorationHoldExpiry t => Sys2Proof.Machine.execRestorationHoldExpiry t s
  | .dieOperationComplete t die r => Sys2Proof.Machine.execDieOperationComplete t die r s
  | .operationSuspended t die => Sys2Proof.Machine.execOperationSuspended t die s
  | .operationResume t die => Sys2Proof.Machine.execOperationResume t die s
  | .dieCommandTimeout t die => Sys2Proof.Machine.execDieCommandTimeout t die s
  | .reconstructionComplete t l badPeers => Sys2Proof.Machine.execReconstructionComplete t l badPeers s
  | .softDecodeComplete t l errors outside => Sys2Proof.Machine.execSoftDecodeComplete t l errors outside s
  | .macCheckComplete t l fail => Sys2Proof.Machine.execMacCheckComplete t l fail s
  | .lostNodeRewriteComplete t level node => Sys2Proof.Machine.execLostNodeRewriteComplete t level node s
  | .rebuildComplete t group => Sys2Proof.Machine.execRebuildComplete t group s
  | .channelGate c => Sys2Proof.Machine.execChannelGate c s
  | .channelWakeComplete t channel us hostRead => Sys2Proof.Machine.execChannelWakeComplete t channel us hostRead s
  | .stripePageFillTimeout t group => Sys2Proof.Machine.execStripePageFillTimeout t group s
  | .journalTailFlush t => Sys2Proof.Machine.execJournalTailFlush t s
  | .checkpointSealed t ms => Sys2Proof.Machine.execCheckpointSealed t ms s
  | .checkpointWriteFailed t die => Sys2Proof.Machine.execCheckpointWriteFailed t die s
  | .mapWordRebuildComplete t device word r => Sys2Proof.Machine.execMapWordRebuildComplete t device word r s
  | .demotionSweep => Sys2Proof.Machine.execDemotionSweep s
  | .demotion t folio => Sys2Proof.Machine.execDemotion t folio s
  | .beadRotation t folio => Sys2Proof.Machine.execBeadRotation t folio s
  | .reclaimSourceChosen t group => Sys2Proof.Machine.execReclaimSourceChosen t group s
  | .reclaimCopyComplete t group => Sys2Proof.Machine.execReclaimCopyComplete t group s
  | .reclaimCommitDurable t group => Sys2Proof.Machine.execReclaimCommitDurable t group s
  | .reclaimDrainComplete t group => Sys2Proof.Machine.execReclaimDrainComplete t group s
  | .wearLevelCheck t die => Sys2Proof.Machine.execWearLevelCheck t die s
  | .calendarTick t => Sys2Proof.Machine.execCalendarTick t s
  | .driftLedgerHourly => Sys2Proof.Machine.execDriftLedgerHourly s
  | .referenceGroupWrite => Sys2Proof.Machine.execReferenceGroupWrite s
  | .thresholdTableSave => Sys2Proof.Machine.execThresholdTableSave s
  | .thresholdCountEvaluation t die bin band thr => Sys2Proof.Machine.execThresholdCountEvaluation t die bin band thr s
  | .calibrationWindowEnd t => Sys2Proof.Machine.execCalibrationWindowEnd t s
  | .marginEvaluation t group block => Sys2Proof.Machine.execMarginEvaluation t group block s
  | .stripeBlockMigrate t group block => Sys2Proof.Machine.execStripeBlockMigrate t group block s
  | .stripeBlockRefresh t group block => Sys2Proof.Machine.execStripeBlockRefresh t group block s
  | .scrubLapStart t => Sys2Proof.Machine.execScrubLapStart t s
  | .scrubRead t die group block l corrected up down how => Sys2Proof.Machine.execScrubRead t die group block l corrected up down how s
  | .scrubLapComplete t => Sys2Proof.Machine.execScrubLapComplete t s
  | .scrubLapLimit t => Sys2Proof.Machine.execScrubLapLimit t s
  | .scrubGatedWake t channel => Sys2Proof.Machine.execScrubGatedWake t channel s
  | .scrubPositionSave => Sys2Proof.Machine.execScrubPositionSave s
  | .keyRotationThreshold t key => Sys2Proof.Machine.execKeyRotationThreshold t key s
  | .keyHeld t key => Sys2Proof.Machine.execKeyHeld t key s
  | .sweepUnitRowsWritten t => Sys2Proof.Machine.execSweepUnitRowsWritten t s
  | .carrySweepFolio t macFails => Sys2Proof.Machine.execCarrySweepFolio t macFails s
  | .carryBoundarySave => Sys2Proof.Machine.execCarryBoundarySave s
  | .carrySweepComplete t => Sys2Proof.Machine.execCarrySweepComplete t s
  | .storeTestDue t => Sys2Proof.Machine.execStoreTestDue t s
  | .storeTestLoadApplied t mv => Sys2Proof.Machine.execStoreTestLoadApplied t mv s
  | .storeTestEsrMeasure t mv => Sys2Proof.Machine.execStoreTestEsrMeasure t mv s
  | .storeTestDischargeEnd t => Sys2Proof.Machine.execStoreTestDischargeEnd t s
  | .storeTestRechargeEnd t mv => Sys2Proof.Machine.execStoreTestRechargeEnd t mv s
  | .storeTestTimeout t => Sys2Proof.Machine.execStoreTestTimeout t s
  | .budgetCompute t r => Sys2Proof.Machine.execBudgetCompute t r s
  | .logSectorWritten t lines => Sys2Proof.Machine.execLogSectorWritten t lines s
  | .treeTopLogRecord t => Sys2Proof.Machine.execTreeTopLogRecord t s
  | .slotArmed t slot => Sys2Proof.Machine.execSlotArmed t slot s
  | .powerFailure t => Sys2Proof.Machine.execPowerFailure t s
  | .dumpPartWritten t p => Sys2Proof.Machine.execDumpPartWritten t p s
  | .dumpTrailerWritten t energy => Sys2Proof.Machine.execDumpTrailerWritten t energy s
  | .inputReturnDuringDump t => Sys2Proof.Machine.execInputReturnDuringDump t s
  | .replayHomeWrite t corrected lost => Sys2Proof.Machine.execReplayHomeWrite t corrected lost s
  | .flushHomeComplete t => Sys2Proof.Machine.execFlushHomeComplete t s
  | .gpfPhase1 => Sys2Proof.Machine.execGpfPhase1 s
  | .gpfPhase2 => Sys2Proof.Machine.execGpfPhase2 s
  | .ringCableChange t inCable outCable => Sys2Proof.Machine.execRingCableChange t inCable outCable s
  | .ringSyncAcquired t => Sys2Proof.Machine.execRingSyncAcquired t s
  | .ringSyncLost t bypassLimit => Sys2Proof.Machine.execRingSyncLost t bypassLimit s
  | .discoverSend t => Sys2Proof.Machine.execDiscoverSend t s
  | .discover t f serial => Sys2Proof.Machine.execDiscover t f serial s
  | .heartbeatSend t => Sys2Proof.Machine.execHeartbeatSend t s
  | .heartbeat t f epoch mask => Sys2Proof.Machine.execHeartbeat t f epoch mask s
  | .heartbeatTimeout t => Sys2Proof.Machine.execHeartbeatTimeout t s
  | .flush t f seq mask => Sys2Proof.Machine.execFlush t f seq mask s
  | .flushResend t => Sys2Proof.Machine.execFlushResend t s
  | .prepare t f epoch mask => Sys2Proof.Machine.execPrepare t f epoch mask s
  | .commit t f epoch mask => Sys2Proof.Machine.execCommit t f epoch mask s
  | .rollback t f epoch mask => Sys2Proof.Machine.execRollback t f epoch mask s
  | .state t f epoch bits => Sys2Proof.Machine.execState t f epoch bits s
  | .reservedTypeFrame t f type payload => Sys2Proof.Machine.execReservedTypeFrame t f type payload s
  | .preparedRecordWritten t => Sys2Proof.Machine.execPreparedRecordWritten t s
  | .decisionRecordWritten t => Sys2Proof.Machine.execDecisionRecordWritten t s
  | .closeResend t => Sys2Proof.Machine.execCloseResend t s
  | .closeStall t => Sys2Proof.Machine.execCloseStall t s
  | .memberWaitExpiry t => Sys2Proof.Machine.execMemberWaitExpiry t s
  | .shadowSettle t folio => Sys2Proof.Machine.execShadowSettle t folio s
  | .inputQualified t => Sys2Proof.Machine.execInputQualified t s
  | .railEnableSlot t rail => Sys2Proof.Machine.execRailEnableSlot t rail s
  | .railPowerGood t rail => Sys2Proof.Machine.execRailPowerGood t rail s
  | .railPgTimeout t rail => Sys2Proof.Machine.execRailPgTimeout t rail s
  | .railDisableSlot t rail => Sys2Proof.Machine.execRailDisableSlot t rail s
  | .minimumOffTimeEnd t => Sys2Proof.Machine.execMinimumOffTimeEnd t s
  | .railPgLost t rail overTemp => Sys2Proof.Machine.execRailPgLost t rail overTemp s
  | .sensorSample t sensor tempC slopeTenths => Sys2Proof.Machine.execSensorSample t sensor tempC slopeTenths s
  | .orderlyStopLinkDown t => Sys2Proof.Machine.execOrderlyStopLinkDown t s
  | .thermalHoldRetry t => Sys2Proof.Machine.execThermalHoldRetry t s
  | .powerBrakeApply t => Sys2Proof.Machine.execPowerBrakeApply t s
  | .powerBrakeRelease t => Sys2Proof.Machine.execPowerBrakeRelease t s
  | .tallyRowWriteComplete t => Sys2Proof.Machine.execTallyRowWriteComplete t s
  | .tallySupplyRecheck t rail0Good holdUp => Sys2Proof.Machine.execTallySupplyRecheck t rail0Good holdUp s
  | .tallyDeferralLimit t vauxMv => Sys2Proof.Machine.execTallyDeferralLimit t vauxMv s
  | .tallyRefreshLap t weak replaced => Sys2Proof.Machine.execTallyRefreshLap t weak replaced s
  | .lifetimeCounterSave => Sys2Proof.Machine.execLifetimeCounterSave s
  | .recorderDrain => Sys2Proof.Machine.execRecorderDrain s
  | .recorderRepeatFlush => Sys2Proof.Machine.execRecorderRepeatFlush s
  | .telemetryTimeout t => Sys2Proof.Machine.execTelemetryTimeout t s
  | .pmuPortWindowEnd t port inBytes outBytes => Sys2Proof.Machine.execPmuPortWindowEnd t port inBytes outBytes s
  | .pmuCounterWrap t counter => Sys2Proof.Machine.execPmuCounterWrap t counter s
  | .healthEvaluate t => Sys2Proof.Machine.execHealthEvaluate t s
  | .d3hotEntry t => Sys2Proof.Machine.execD3hotEntry t s
  | .d0Entry t => Sys2Proof.Machine.execD0Entry t s
  | .gddr7SelfRefreshEntry t => Sys2Proof.Machine.execGddr7SelfRefreshEntry t s
  | .aspmL1Entry => Sys2Proof.Machine.execAspmL1Entry s
  | .aspmL1Exit => Sys2Proof.Machine.execAspmL1Exit s
  | .hdmDecoderCommit dec base size skip ways gran pos => Sys2Proof.Machine.execHdmDecoderCommit dec base size skip ways gran pos s
  | .ideIntegrityFailure t cachemem => Sys2Proof.Machine.execIdeIntegrityFailure t cachemem s
  | .ideKeyProgram cachemem key secured => Sys2Proof.Machine.execIdeKeyProgram cachemem key secured s
  | .spdmMessage path r => Sys2Proof.Machine.execSpdmMessage path r s
  | .getMeasurements path index signed => Sys2Proof.Machine.execGetMeasurements path index signed s
  | .doeDiscovery index => Sys2Proof.Machine.execDoeDiscovery index s
  | .cdatTableAccess entry => Sys2Proof.Machine.execCdatTableAccess entry s
  | .smbusArp address => Sys2Proof.Machine.execSmbusArp address s
  | .setEndpointId eid => Sys2Proof.Machine.execSetEndpointId eid s
  | .mctpControlMessage m => Sys2Proof.Machine.execMctpControlMessage m s
  | .getEventRecords path log count => Sys2Proof.Machine.execGetEventRecords path log count s
  | .clearEventRecords path log handles all => Sys2Proof.Machine.execClearEventRecords path log handles all s
  | .getEventInterruptPolicy path => Sys2Proof.Machine.execGetEventInterruptPolicy path s
  | .setEventInterruptPolicy path settings => Sys2Proof.Machine.execSetEventInterruptPolicy path settings s
  | .getFwInfo path => Sys2Proof.Machine.execGetFwInfo path s
  | .transferFw t path a slot offset length img => Sys2Proof.Machine.execTransferFw t path a slot offset length img s
  | .activateFw t path online slot => Sys2Proof.Machine.execActivateFw t path online slot s
  | .getTimestamp path => Sys2Proof.Machine.execGetTimestamp path s
  | .setTimestamp t path ns => Sys2Proof.Machine.execSetTimestamp t path ns s
  | .getSupportedLogs path => Sys2Proof.Machine.execGetSupportedLogs path s
  | .getLog path cel offset length => Sys2Proof.Machine.execGetLog path cel offset length s
  | .identifyMemoryDevice path => Sys2Proof.Machine.execIdentifyMemoryDevice path s
  | .getLsa path offset length => Sys2Proof.Machine.execGetLsa path offset length s
  | .setLsa path offset data => Sys2Proof.Machine.execSetLsa path offset data s
  | .getHealthInfo path => Sys2Proof.Machine.execGetHealthInfo path s
  | .getAlertConfiguration path => Sys2Proof.Machine.execGetAlertConfiguration path s
  | .setAlertConfiguration path valid enable lifeUsed overTemp underTemp volErrors perErrors => Sys2Proof.Machine.execSetAlertConfiguration path valid enable lifeUsed overTemp underTemp volErrors perErrors s
  | .getShutdownState path => Sys2Proof.Machine.execGetShutdownState path s
  | .setShutdownState path value => Sys2Proof.Machine.execSetShutdownState path value s
  | .getPoisonList path dpa units => Sys2Proof.Machine.execGetPoisonList path dpa units s
  | .injectPoison t path dpa => Sys2Proof.Machine.execInjectPoison t path dpa s
  | .clearPoison t path dpa data => Sys2Proof.Machine.execClearPoison t path dpa data s
  | .getScanMediaCapabilities path dpa units => Sys2Proof.Machine.execGetScanMediaCapabilities path dpa units s
  | .scanMedia t path dpa units => Sys2Proof.Machine.execScanMedia t path dpa units s
  | .scanMediaComplete t => Sys2Proof.Machine.execScanMediaComplete t s
  | .getScanMediaResults path => Sys2Proof.Machine.execGetScanMediaResults path s
  | .sanitize t path => Sys2Proof.Machine.execSanitize t path s
  | .sanitizeComplete t => Sys2Proof.Machine.execSanitizeComplete t s
  | .secureErase t path => Sys2Proof.Machine.execSecureErase t path s
  | .mediumResetComplete t => Sys2Proof.Machine.execMediumResetComplete t s
  | .getCardStatusSummary t path => Sys2Proof.Machine.execGetCardStatusSummary t path s
  | .readTallyRecords t path partition row count password => Sys2Proof.Machine.execReadTallyRecords t path partition row count password s
  | .writeCustomerTally t path row password data => Sys2Proof.Machine.execWriteCustomerTally t path row password data s
  | .setTallyPassword t path partition old new => Sys2Proof.Machine.execSetTallyPassword t path partition old new s
  | .transferConfigurationImage t path a offset length img => Sys2Proof.Machine.execTransferConfigurationImage t path a offset length img s
  | .getConfigurationImageInfo path => Sys2Proof.Machine.execGetConfigurationImageInfo path s
  | .selectConfigurationSlot path slot restZero => Sys2Proof.Machine.execSelectConfigurationSlot path slot restZero s
  | .discardRange t path dpa length restZero => Sys2Proof.Machine.execDiscardRange t path dpa length restZero s
  | .discardRangeFolio t => Sys2Proof.Machine.execDiscardRangeFolio t s
  | .discardRangeComplete t => Sys2Proof.Machine.execDiscardRangeComplete t s
  | .getExtentTable path first count => Sys2Proof.Machine.execGetExtentTable path first count s
  | .generateKey path key => Sys2Proof.Machine.execGenerateKey path key s
  | .startKeyRotation t path extent key erase => Sys2Proof.Machine.execStartKeyRotation t path extent key erase s
  | .retireKeyId t path key => Sys2Proof.Machine.execRetireKeyId t path key s
  | .getKeyStatus path first count => Sys2Proof.Machine.execGetKeyStatus path first count s
  | .epochResolve t path epoch action => Sys2Proof.Machine.execEpochResolve t path epoch action s
  | .getRingStatus path => Sys2Proof.Machine.execGetRingStatus path s
  | .readRecorder path first count => Sys2Proof.Machine.execReadRecorder path first count s
  | .clearRecorder t path => Sys2Proof.Machine.execClearRecorder t path s
  | .getBootLedger path index => Sys2Proof.Machine.execGetBootLedger path index s
  | .startEnergyStoreTest t path => Sys2Proof.Machine.execStartEnergyStoreTest t path s
  | .getWearAndDriftReport path die restZero => Sys2Proof.Machine.execGetWearAndDriftReport path die restZero s
  | .setCheckFlipMask path m => Sys2Proof.Machine.execSetCheckFlipMask path m s
  | .registerWrite a size value => Sys2Proof.Machine.execRegisterWrite a size value s
  | .rcRegisterRead a size => Sys2Proof.Machine.execRcRegisterRead a size s
  | .ringDoorbellWrite t size value => Sys2Proof.Machine.execRingDoorbellWrite t size value s
  | .ringFlushStart t => Sys2Proof.Machine.execRingFlushStart t s
  | .tqTailWrite tail => Sys2Proof.Machine.execTqTailWrite tail s
  | .tqFlush => Sys2Proof.Machine.execTqFlush s
  | .eccFlipArmWrite => Sys2Proof.Machine.execEccFlipArmWrite s
  | .eccFlipDisarmWrite => Sys2Proof.Machine.execEccFlipDisarmWrite s
  | .evtVecUnmask t vector => Sys2Proof.Machine.execEvtVecUnmask t vector s
  | .pflSuspectClear word mask => Sys2Proof.Machine.execPflSuspectClear word mask s
  | .inputLevelChange t x => Sys2Proof.Machine.execInputLevelChange t x s
  | .railPgDeassert t rail => Sys2Proof.Machine.execRailPgDeassert t rail s
  | .prepareLap2Send t => Sys2Proof.Machine.execPrepareLap2Send t s
  | .marginRead t die l corrected reports how => Sys2Proof.Machine.execMarginRead t die l corrected reports how s
  | .rebuildMove t group folio => Sys2Proof.Machine.execRebuildMove t group folio s
  | .pmuLevelSample => Sys2Proof.Machine.execPmuLevelSample s
  | .linkError e => Sys2Proof.Machine.execLinkError e s

end Sys2Proof.Machine
end

