-- ==== Sys2Proof/Machine/Idle.lean ====
section
/-! DEFINITION. What the block does by itself when no command comes from outside: the mailbox engine runs the next of the mailbox
commands that wait in it (02 R44, 01 R17). -/

namespace Sys2Proof.Machine

/-- The mailbox engine is free: no foreground command runs, and region G does not restart. -/
def State.mbFree (s : State) : Bool := !s.mbRuns && !s.restarting 1

/-- The commands of `held` wait behind those that wait already. -/
def State.holdMore (s : State) (held : List Instr) : State := { s with link := { s.link with held := s.link.held ++ held } }

/-- With no command from outside, the first mailbox command that waits runs (log entry 3); with none, nothing changes. -/
def idle (s : State) : Host.Outcome State Fault Refusal :=
  match s.link.held with
  | [] => .next s
  | c :: rest =>
    if s.mbFree then
      match exec c { s with link := { s.link with held := [] } } with
      | .next u => .next (u.holdMore rest)
      | o => o
    else .next s

end Sys2Proof.Machine
end

