-- ==== Sys2Proof/Machine/Layout.lean ====
section
/-! DEFINITION. How the card's state is laid out where the manual gives the words: identifiers and address maps
(02 R36 to R38), tag words and GDDR7 areas (04 Tables 4-1, 4-4, 4-5; R101, R103), sector metadata (05 Table 5-4), map
entries and journal records (06 R141 to R144, R164), counter blocks (08 R210), dump slots (09 Tables 9-6, 9-7), ring frames
(10 Table 10-1), the flash (12 Tables 12-1, 12-2) and the card's inputs and label (14). No command of the table reads these
words; they say what the fields of State stand for. -/

namespace Sys2Proof.Machine

/-! ## Configuration space and BARs -/

/-- The header's identifiers (02 Table 2-3): vendor, device, class code, subsystem vendor, subsystem. -/
def State.headerIds (s : State) : List Nat :=
  [0x1F5A, 0x0006, 0x050210, 0x1F5A, match s.part with | .p8192 => 0x2000 | .p4096 => 0x1000]

/-- Capability ID and offset of each capability of 02 Table 2-4, in the order of the table; the IDs are those of PCI Express
(log entry 35): of an extended capability plus 2^16, of a DVSEC 2^17 plus its DVSEC ID. -/
def capabilities : List (Nat × Nat) :=
  [(0x01, 0x040), (0x11, 0x050), (0x10, 0x070), (0x10001, 0x100), (0x10003, 0x148), (0x10019, 0x158), (0x10025, 0x190),
   (0x10026, 0x1A0), (0x1002A, 0x200), (0x10031, 0x240), (0x10027, 0x280), (0x1002E, 0x2C0), (0x10030, 0x300),
   (0x20000, 0x400), (0x20005, 0x460), (0x20007, 0x480), (0x20008, 0x4C0)]

/-- What the PCIe DVSEC for CXL Devices and the GPF DVSEC report (02 R37), with the two memory status bits as they stand. -/
structure CxlDvsec where
  memCapable : Bool
  cacheCapable : Bool
  ioCapable : Bool
  hdmCount : Nat
  cxlResetCapable : Bool
  cxlResetTimeoutMs : Nat
  memClrCapable : Bool
  rangeSize : Nat
  memoryInfoValid : Bool
  memoryActive : Bool
  persistent : Bool
  desiredInterleave : Nat
  memoryActiveTimeout : Nat
  gpfPhase2Ns : Nat
  gpfPhase2Mw : Nat
deriving DecidableEq, Repr

def State.dvsec (s : State) : CxlDvsec :=
  { memCapable := true, cacheCapable := false, ioCapable := true, hdmCount := 1, cxlResetCapable := true,
    cxlResetTimeoutMs := 100, memClrCapable := false, rangeSize := s.capacity, memoryInfoValid := s.link.infoValid,
    memoryActive := s.link.memActive, persistent := true, desiredInterleave := 256, memoryActiveTimeout := 1,
    gpfPhase2Ns := 1000, gpfPhase2Mw := 95000 }

/-- Size of each 64-bit memory BAR, by its lower BAR number (02 Table 2-5). -/
def barSize : List (Nat × Nat) := [(0, 262144), (2, 1048576), (4, 67108864)]

/-- The BARs that are prefetchable (02 Table 2-5). -/
def barPrefetchable (bar : Nat) : Bool := bar == 4

/-- The Register Locator's entries (02 R38): BAR, offset, block identifier. -/
def registerLocator : List (Nat × Nat × Nat) := [(0, 0x00000, 1), (0, 0x10000, 3)]

/-- An MCTP message in its packets of the baseline transmission unit, 64 bytes (02 R52). -/
abbrev mctpUnit : Nat := 64
def mctpPackets (b : Bytes) : List Bytes :=
  (List.range (divUp b.length mctpUnit)).map (fun i => (b.drop (mctpUnit * i)).take mctpUnit)

/-- The windows of BAR0 as (offset, length), in the order of 02 Table 2-6. -/
def bar0Windows : List (Nat × Nat) :=
  [(0x00000, 0x1000), (0x01000, 0x1000), (0x01010, 0x20), (0x01040, 0x20), (0x01100, 0x90), (0x01200, 0x40),
   (0x10000, 0x40), (0x10100, 0x10), (0x10180, 0x08), (0x11000, 0x20), (0x11020, 0x10000), (0x30000, 0x200), (0x31000, 8)]

/-- Block of OBS that an offset of BAR2 lies in (02 Table 2-7). -/
def obsBlock (off : Nat) : Nat := off / 0x10000

/-! ## Cache words -/

/-- A field of a stored word. -/
def field (v lo : Nat) : Nat := v * 2 ^ lo

/-- A near-cache tag word (04 Table 4-1). -/
def State.nearTagWord (s : State) (x : NearSlot) : BitVec 64 :=
  let age := match x.dirtySince with | some d => min 255 ((s.now - d) / usec) | none => 0
  BitVec.ofNat 64 (field (x.copy.l.toNat / 2 ^ 17) 46 + field 1 45 + field x.copy.dirty.toNat 41 +
    field x.copy.poison.toNat 37 + field (x.copy.reuse % 8) 34 + field (b2n x.copy.epochMode) 33 +
    field x.copy.epochTag.toNat 31 + field (b2n x.copy.keyGen) 30 + field age 22)

/-- The board tag of a 256-byte line: the bits above its board index (04 R97). -/
def State.boardTag (s : State) (l : Nat) : Nat := l / 2 ^ (s.slotsLog2 + 2)

/-- A board-cache tag word (04 Table 4-5): the tag field begins at bit 54 with 2^23 slots, at bit 52 with fewer. -/
def State.boardTagWord (s : State) (c : Copy) : BitVec 64 :=
  BitVec.ofNat 64 (field (s.boardTag c.l.toNat) (if s.slotsLog2 = 23 then 54 else 52) + field 1 51 +
    field c.dirty.toNat 47 + field c.poison.toNat 43 + field (c.reuse % 8) 40 + field (b2n c.epochMode) 39 +
    field c.epochTag.toNat 37 + field (b2n c.keyGen) 36)

/-- The dirty-index entry of a board slot (04 R101). -/
def State.dirtyIndex (s : State) (ix : Nat) : BitVec 16 :=
  match Tab.find s.cch.board ix with
  | some b => BitVec.ofNat 16 (field b.copy.dirty.toNat 12 + s.boardTag b.copy.l.toNat % 4096)
  | none => 0

/-- Device, slot and byte offset of a board index (04 R96, R97), and the device of its mirrored index entry (R101). -/
def boardPlace (ix : Nat) : Nat × Nat × Nat := (ix % 4, ix / 4, ix / 4 * 352)
def mirrorDevice (k : Nat) : Nat := (k + 2) % 4

/-- Board-cache area of a GDDR7 device in 256 MiB units, by its density (04 Table 4-4). -/
def boardArea (density : Nat) : Nat := if density = 32 then 11 else if density = 24 then 7 else 3

/-- Offsets, in 256 MiB units, of the map, counter and queue areas. -/
def gddrAreas (density : Nat) : Nat × Nat × Nat := (boardArea density, boardArea density + 3, boardArea density + 4)

/-- Device and slot of the counter block of page P (04 "Counter cache"). -/
def ctrPlace (p : Nat) : Nat × Nat := (p % 4, p / 4 % 2 ^ 20)

/-! ## Sectors, map and journal -/

/-- Sector metadata (05 Table 5-4) of sector k of its folio, with its four stored lines. -/
def sectorWord (x : Sector) (k : Nat) (l : List Stored) : BitVec 64 :=
  let bit := fun (f : Stored → Bool) => total (l.zipIdx.map (fun e => b2n (f e.1) * 2 ^ (e.2 % 4)))
  BitVec.ofNat 64 (field (x.writeTime % 2 ^ 32) 32 + field ((x.writeTemp + 40).toNat % 256) 24 + field (bit (·.keyGen)) 20 +
    field (bit (·.poison)) 16 + field (if x.kind = 0 ∨ x.kind = 3 then x.seq / 2 ^ (14 * (k % 4)) % 2 ^ 14 else 0) 2 + x.kind % 4)

/-- Bytes 0 to 287 of a codeword (05 Table 5-3): the lines, their MACs, the metadata word. -/
def protectedBytes (x : Sector) (k : Nat) (l : List Stored) : Bytes :=
  l.flatMap (fun e => le 64 e.cipher.toNat) ++ l.flatMap (fun e => le 6 e.mac.toNat) ++ le 8 (sectorWord x k l).toNat

/-- The 320-byte codeword of a sector: the protected bytes, then 252 check bits and 4 bits of 0. -/
def codeword (x : Sector) (k : Nat) (l : List Stored) : Bytes :=
  protectedBytes x k l ++ le 32 (Config.bch (protectedBytes x k l)).toNat

/-- A counter block or tree node of 64 bytes (08 R210): the 64-bit major, then 64 minors of 7 bits. -/
def Counter.bytes (c : Counter) : Bytes :=
  le 8 (c.major % 2 ^ 64) ++ le 56 (total ((List.range 64).map (fun i => Tab.findD c.minors i 0 % 128 * 2 ^ (7 * i))))

/-- Level and index of line i of an integrity folio (08 R213). -/
def State.integNode (s : State) (folio i : Nat) : Nat × Nat :=
  let lvl := ([3, 2, 1].find? (fun v => decide (s.integBase v ≤ folio))).getD 0
  (lvl, (folio - s.integBase lvl) * 256 + i)

/-- A counter block or node as a line of its sector, with its MAC (08 R212, R213): what was last written home. -/
def State.nodeStored (s : State) (folio i : Nat) : Stored :=
  let n := s.integNode folio i
  let c := if n.1 = 0 then Tab.findD s.key.ctrsHome n.2 Counter.zero
    else Tab.findD s.key.nodesHome (nodeKey n.1 n.2) Counter.zero
  let x : Line := BitVec.ofNat 512 (ofBytes c.bytes)
  ⟨x, s.nodeMac n.1 n.2 x, false, false, none⟩

/-- What the cells of sector n of the folio at a location hold. -/
def State.sectorBytes (s : State) (l : Loc) (n : Nat) : Bytes :=
  match s.sectorAt l n with
  | some x =>
    if x.kind = 3 then codeword x n ((List.range 4).map (fun i => s.nodeStored (x.folio - integMark) (4 * n + i)))
    else codeword x n ((List.range 4).map (fun i => (s.storedAt l (4 * n + i)).getD ⟨0, 0, false, false, none⟩))
  | none => zeros 320

/-- The parity sector at position k of the stripe block of a location: the bytewise XOR of the codewords of the data sectors
(05 R120). `Media.tornParity` names those that are half-written instead. -/
def State.parityBytes (s : State) (l : Loc) (k : Nat) : Bytes :=
  (s.stripeData l k).foldl (fun b p => b.zipWith (· ^^^ ·) (s.sectorBytes p.1 p.2)) (zeros 320)

/-- The stamps of a parity sector: those of its stripe's latest data sector (07 R176). -/
def State.parityStamp (s : State) (l : Loc) (k : Nat) : Nat × Int :=
  ((s.stripeData l k).filterMap (fun p => s.sectorAt p.1 p.2)).foldl (fun m x =>
    if m.1 ≤ x.writeTime then (x.writeTime, x.writeTemp) else m) (0, -40)

/-- The 40-bit location field (06 Table 6-2). -/
def Loc.word (l : Loc) : Nat := field (l.group % 4) 38 + field (l.block % 2 ^ 20) 18 + field (l.index % 2 ^ 10) 8

/-- A folio map entry (06 Table 6-1); a folio with no entry is never-written. -/
def entryWord (e : Option MapEntry) : BitVec 48 :=
  match e with
  | none => 32#48
  | some e =>
    let loc := match e.loc with | some l => if e.discarded then 0 else l.word | none => 0
    BitVec.ofNat 48 (field loc 8 + field (b2n e.bead) 7 + field (b2n e.shadow) 6 +
      field (b2n (e.loc.isNone && !e.discarded)) 5 + field (b2n e.discarded) 4 + field (b2n e.poisonedRange) 3 +
      field (b2n e.epochOpen) 2)

/-- Device and byte offset, in its folio-map area, of the entry of a folio (06 R144). -/
def entryPlace (folio : Nat) : Nat × Nat := (folio % 4, 6 * (folio / 4))

/-- A change record of 16 bytes (06 R164). -/
def Change.bytes (c : Change) : Bytes := le 4 c.folio ++ le 6 (entryWord c.entry).toNat ++ le 1 c.kind ++ zeros 5

/-- A journal sector of up to 15 records (06 Table 6-9). -/
def journalSector (seq : Nat) (l : List Change) : Bytes :=
  let body := fit 240 ((l.take 15).flatMap Change.bytes)
  let head := le 8 seq ++ le 2 (min 15 l.length) ++ zeros 2
  head ++ le 4 (crc32c (head ++ zeros 4 ++ body)) ++ body

/-- Sizes of a checkpoint slot and of the journal, and the cells that both checkpoints and the journal use, in MiB (06 Table 6-10). -/
def State.mapAreas (s : State) : Nat × Nat × Nat :=
  match s.part with
  | .p8192 => (3328, 1536, 32768)
  | .p4096 => (1664, 768, 16384)

/-- Header sector of a checkpoint (06 R166): its slot, format and start sequence (the widths are the model's, log entry 90). -/
def ckptHeader (slot format : Nat) (c : Ckpt) : Bytes := fit 256 (le 1 slot ++ le 2 format ++ le 8 c.start)

/-- The whole map as a checkpoint holds it: device by device, each entry at its place (06 R144). -/
def State.ckptMap (s : State) (c : Ckpt) : Bytes :=
  (List.range 4).flatMap (fun d => (List.range (divUp s.folios 4)).flatMap (fun j => le 6 (entryWord (Tab.find c.entries (4 * j + d))).toNat))

/-- Trailer sector of a checkpoint (06 R166): start and end sequence, and the SHA3-256 digest of everything before it. -/
def ckptTrailer (c : Ckpt) (before : Bytes) : Bytes := fit 256 (le 8 c.start ++ le 8 c.last ++ le 32 (Config.sha3 before).toNat)

/-! ## Dump slots, frames, flash -/

/-- Offset and size of the sections of a dump slot (09 Table 9-6). -/
def dumpSections : List (Nat × Nat) :=
  [(0x0, 0x1000), (0x10000, 0x10000), (0x20000, 0x10000), (0x30000, 0x10000), (0x100000, 72 * mib), (0x4900000, 80 * mib),
   (0x9900000, 48 * mib), (0xC900000, 12015 * mib), (0x2FB800000, 72 * mib - 4096), (0x2FFFFF000, 4096)]

/-- Directory entries of a dump (09 Table 9-7): near, 4 bytes; eviction and write-back buffer, 8 bytes. -/
def nearDirWord (c : Copy) : BitVec 32 :=
  BitVec.ofNat 32 (field (b2n (c.dirty != 0)) 31 + field (c.l.toNat / 2 ^ 17) 13 + field c.dirty.toNat 9)
def evictDirWord (c : Copy) : BitVec 64 := BitVec.ofNat 64 (field 1 63 + field c.dirty.toNat 36 + c.l.toNat)
def wbDirWord (w : WbEntry) : BitVec 64 :=
  if w.heldForEpoch then evictDirWord w.copy ||| BitVec.twoPow 64 62
  else if w.superseded then evictDirWord w.copy &&& ~~~(BitVec.twoPow 64 63)
  else evictDirWord w.copy

/-- The dump's header (09 Table 9-6), its fields in the table's order (log entry 90). -/
def dumpHeader (i : Nat) (d : DumpSlot) : Bytes :=
  fit 4096 ([0x57, 0x44, 0x4D, 0x50] ++ le 1 i ++ le 8 d.seq ++ le 1 d.cause ++ le 4 d.calendar ++ le 8 d.budget ++ le 8 d.staged)

/-- The seal of the directory (09 R247): the sequence, the lines of each part, the digest of the parts. -/
def dumpSeal (d : DumpSlot) (parts : Bytes) : Bytes :=
  le 8 d.seq ++ [0, 1, 2, 3].flatMap (fun p => le 4 (d.lines.filter (fun x => x.part == p)).length) ++ le 32 (Config.sha3 parts).toNat

/-- The trailer (09 Table 9-6): section lengths, the digest of each section, and of all that is written. -/
def dumpTrailer (sections : List Bytes) : Bytes :=
  sections.flatMap (fun b => le 8 b.length) ++ sections.flatMap (fun b => le 32 (Config.sha3 b).toNat) ++
    le 32 (Config.sha3 sections.flatten).toNat

/-- Counter value of block j of the line at a position of the data area (09 R248); block j is counted on from the position (log
entry 90). -/
def dumpCounter (seq pos j sel : Nat) : BitVec 128 := BitVec.ofNat 128 (seq * 2 ^ 64 + (4 * pos + j) * 4 + sel)

/-- Line of a dump as its sector holds it: encrypted under the dump key, with its MAC (09 R248). -/
def DumpSlot.seal (d : DumpSlot) (pos : Nat) (x : DumpLine) : Stored :=
  let k := 2 * d.key
  let stream : Line := (List.range 4).foldl (fun m j => m ||| ((Config.aes k (dumpCounter d.seq pos j 0)).setWidth 512 <<< (128 * j))) 0
  let c := x.data ^^^ stream
  let mac := (Config.aes k (dumpCounter d.seq pos 0 1) ^^^ Config.ghash (Config.aes k 0) c x.line) >>> 80
  ⟨c, mac.setWidth 48, x.keyGen, x.poison, none⟩

/-- Data sectors of a dump: four lines each, in the directory's order, of kind 2. -/
def DumpSlot.sectors (d : DumpSlot) (time : Nat) (temp : Int) : List Bytes :=
  let all := d.lines.zipIdx.map (fun e => d.seal e.2 e.1)
  (List.range (divUp all.length 4)).map (fun n => codeword ⟨0, time, temp, 0, 2, false, false, 0⟩ n ((all.drop (4 * n)).take 4))

/-- The epoch tag map of a dump: 2 bits a line. -/
def DumpSlot.tagMap (d : DumpSlot) : Nat := total (d.lines.zipIdx.map (fun e => e.1.tag.toNat * 4 ^ e.2))

def FrameType.code (t : FrameType) : Nat :=
  match t with
  | .discover => 1 | .heartbeat => 2 | .flush => 3 | .prepare => 4 | .commit => 5 | .rollback => 6 | .state => 7
  | .reserved n => n % 16

/-- CRC-16 with polynomial 0x1021 and initial value 0xFFFF, most significant bit first. -/
def crc16Bit (c : Nat) : Nat := if 32768 ≤ c then (2 * c % 65536) ^^^ 0x1021 else 2 * c
def crc16 (b : Bytes) : Nat :=
  b.foldl (fun c x => crc16Bit (crc16Bit (crc16Bit (crc16Bit (crc16Bit (crc16Bit (crc16Bit (crc16Bit
    (c ^^^ (256 * x.toNat)))))))))) 0xFFFF

/-- The 16 bytes of a frame (10 Table 10-1); a frame received with a wrong CRC goes on with its CRC inverted. -/
def Frame.bytes (f : Frame) : Bytes :=
  let h := f.head
  let body := le 1 (16 * h.version + f.type.code) ++ le 1 h.hops ++
    le 1 (16 * h.origin + b2n h.resolve + 2 * b2n h.recovery + 4 * b2n h.retrans + 8 * b2n h.lap2) ++ le 2 h.ringId ++
    (if f.type = .discover then le 8 f.payload else le 6 f.payload ++ le 2 f.mask)
  let c := if h.crcOk then crc16 body else 65535 - crc16 body
  0xBC :: body ++ [BitVec.ofNat 8 (c / 256), BitVec.ofNat 8 c]

/-- Offset and size of the areas of the flash (12 Table 12-1): header copies, reserved, firmware and configuration slots,
reserved. -/
def flashAreas : List (Nat × Nat) :=
  [(0x0, 0x10000), (0x10000, 0x10000), (0x20000, 896 * 1024), (0x100000, 16 * mib), (0x1100000, 16 * mib),
   (0x2100000, 2 * mib), (0x2300000, 2 * mib), (0x2500000, 27 * mib)]

/-- A boot header record (12 Table 12-2): magic "WBHD", then the fields, then CRC-32C of bytes 0 to 11. A copy that is not
valid has another CRC. -/
def BootHeader.bytes (h : BootHeader) : Bytes :=
  let b := [0x57, 0x42, 0x48, 0x44] ++ le 4 h.sequence ++ le 1 h.fwNext ++ le 1 h.fwGood ++ le 1 h.cfgNext ++ le 1 (b2n h.pending)
  b ++ le 4 (if h.valid then crc32c b else crc32c b + 1)

/-! ## The card (14) -/

/-- The inputs lie within the operating range of 14 Table 14-9. -/
def inputsRated (i : Inputs) : Bool :=
  decide (11040 ≤ i.slot12 ∧ i.slot12 ≤ 12960 ∧ 11040 ≤ i.aux12 ∧ i.aux12 ≤ 12960 ∧ 3000 ≤ i.v33 ∧ i.v33 ≤ 3600 ∧
    3000 ≤ i.vaux ∧ i.vaux ≤ 3600)

/-- The inputs lie within the absolute maximum ratings of 14 Table 14-8. -/
def inputsSurvivable (i : Inputs) : Bool :=
  decide (i.slot12 ≤ 14000 ∧ i.aux12 ≤ 14000 ∧ i.v33 ≤ 3900 ∧ i.vaux ≤ 3900)

/-- Part number of the part (14 Table 14-11), and the text of the label's 2D code (14 R402): part number, serial number in 16
hexadecimal digits, board issue. -/
def Part.number (p : Part) : String :=
  match p with
  | .p8192 => "WTP6-8192-C"
  | .p4096 => "WTP6-4096-C"

def hexDigits (n v : Nat) : String :=
  String.ofList ((List.range n).reverse.map (fun i => Nat.digitChar (v / 16 ^ i % 16)))

def State.labelCode (s : State) : String :=
  Part.number s.part ++ ";" ++ hexDigits 16 s.serial.toNat ++ ";" ++ "3"

/-! ## The class table (03 R64) -/

/-- The 32 bytes of a class-table entry, little-endian (03 Table 3-3). -/
def classBytes (e : ClassEntry) : Bytes :=
  le 4 e.target ++ le 2 e.limit ++ le 2 e.floor ++ le 2 e.ceiling ++ le 2 e.window ++ le 4 e.guarRead ++ le 4 e.guarWrite ++
    le 12 e.reserved.toNat

/-- The entry that 32 bytes of a class table hold. -/
def classOfBytes (b : Bytes) : ClassEntry :=
  let v := fun (at_ n : Nat) => ofBytes ((b.drop at_).take n)
  ⟨v 0 4, v 4 2, v 6 2, v 8 2, v 10 2, v 12 4, v 16 4, BitVec.ofNat 96 (v 20 12)⟩

end Sys2Proof.Machine
end

