-- ==== Sys2Proof/WellFormed.lean ====
section
/-! DEFINITION. Which commands are well formed: every operand fits the field that the spec gives it. A command that is not well
formed cannot be sent; a well-formed one whose operands the card refuses is answered by the command's own meaning. -/

namespace Sys2Proof

/-- The number fits in n bits. -/
def inBits (n v : Nat) : Bool := decide (v < 2 ^ n)

/-- A temperature, or its slope, as a 16-bit field holds it. -/
def inInt16 (v : Int) : Bool := decide (-32768 ≤ v) && decide (v ≤ 32767)

/-- Link rates are coded 1 to 4; widths are those of PCIe (02 Table 2-1). -/
def LinkOffer.wf (o : LinkOffer) : Bool :=
  decide (o.rate ≤ 4) && decide (o.bestRate ≤ 4) && [0, 1, 2, 4, 8, 16].contains o.width &&
    [0, 1, 2, 4, 8, 16].contains o.bestWidth

/-- At most four GDDR7 devices and 64 dies answer (04 R107; 05 R132). -/
def BootIn.wf (b : BootIn) : Bool := decide (b.gddr.length ≤ 4) && decide (b.deltaA.length ≤ 64) && b.badSlotLines.all (inBits 37)

/-- Nine regions; pace codes have 8 bits (01 R20). -/
def PaceIn.wf (p : PaceIn) : Bool := decide (p.minCode.length ≤ 9) && decide (p.replica.length ≤ 9) && p.minCode.all (inBits 8)

def ExtentEntry.wf (e : ExtentEntry) : Bool := inBits 16 e.base && inBits 16 e.units && inBits 16 e.key && inBits 3 e.cls && inBits 8 e.scrub

def ClassEntry.wf (e : ClassEntry) : Bool :=
  inBits 32 e.target && inBits 16 e.limit && inBits 16 e.floor && inBits 16 e.ceiling && inBits 16 e.window &&
    inBits 32 e.guarRead && inBits 32 e.guarWrite

def SlotEntry.wf (e : SlotEntry) : Bool := inBits 16 e.on && inBits 16 e.off && inBits 16 e.pg

/-- The fields of an image fit their places (12 Tables 12-6 and 12-7). -/
def Image.wf (i : Image) : Bool :=
  inBits 16 i.format && inBits 16 i.subsystem && inBits 32 i.sequence && inBits 32 i.length && inBits 256 i.keyDigest &&
    inBits 256 i.bodyDigest && i.extents.all (fun l => decide (l.length ≤ 4096) && l.all ExtentEntry.wf) &&
    i.classes.all (fun l => l.all ClassEntry.wf) && i.slotTable.all (fun l => l.all SlotEntry.wf)

def FwImage.wf (f : FwImage) : Bool := inBits 32 f.version && inBits 32 f.rollback && inBits 32 f.minStep

/-- The 32 bytes of Set Check Flip Mask (13 R379). -/
def FlipIn.wf (m : FlipIn) : Bool := inBits 8 m.target && inBits 8 m.partition && inBits 16 m.offset && inBits 8 m.count && inBits 64 m.dpa

/-- A frame's head (10 Table 10-1). -/
def FrameHead.wf (f : FrameHead) : Bool := inBits 8 f.version && inBits 8 f.hops && inBits 8 f.origin && inBits 16 f.ringId

/-- A member block has 20 bits; a codeword has 2,556 bits (05 R115). -/
def DieResult.wf (r : DieResult) : Bool :=
  match r with
  | .sense _ errors _ reports => decide (errors ≤ 2556) && reports.all (fun x => decide (x.1 < 15))
  | .write _ block => inBits 20 block
  | .program _ block => inBits 20 block
  | .reset _ block => inBits 20 block

def NodeFail.wf (n : NodeFail) : Bool :=
  match n with
  | .corrected page => inBits 32 page
  | .mirror page => inBits 32 page
  | .bothCopies page => inBits 32 page
  | .node _ index _ => inBits 32 index

/-- Corrected results of one access: 32 words (04 R102). -/
def BoardUpset.wf (b : BoardUpset) : Bool := inBits 8 b.onDieCorrected

def SpdmReq.wf (r : SpdmReq) : Bool :=
  match r with
  | .getCertificate slot => inBits 8 slot
  | .getVersion | .challenge | .keyExchange | .endSession | .setCertificate | .getCapabilities | .negotiateAlgorithms => true

def MctpMsg.wf (m : MctpMsg) : Bool :=
  match m with
  | .cci opcode => inBits 16 opcode
  | .other type => inBits 7 type
  | .control | .spdm | .secured => true

/-- The windows of BAR2 and BAR4 (02 Table 2-5); the other registers are named by their window. -/
def Window.wf (w : Window) (offset : Nat) : Bool :=
  match w with
  | .obs => decide (offset < 0x100000)
  | .aperture _ => decide (offset < 0x4000000)
  | .aerUncStatus | .aerUncSeverity | .aerCorStatus | .rasUncStatus | .rasCorStatus | .cxlControl | .memDevStatus
  | .msixTable | .msixPba | .mailbox => decide (offset < 0x40000)

def StoreRead.wf (r : StoreRead) : Bool := inBits 16 r.mv && inInt16 r.tempC
def Inputs.wf (i : Inputs) : Bool := inBits 16 i.slot12 && inBits 16 i.aux12 && inBits 16 i.v33 && inBits 16 i.vaux

/-- The command is well formed. -/
def Instr.wf (i : Instr) : Bool :=
  match i with
  | .linkTrainingComplete _ o => LinkOffer.wf o
  | .linkTrainingRetry => true
  | .vauxApplied _ => true
  | .vauxRemoved _ => true
  | .perstNAssert _ => true
  | .start _ => true
  | .bootStep _ b => BootIn.wf b
  | .lastResortScanEnd _ => true
  | .extentTableSave => true
  | .hotReset _ => true
  | .cxlReset _ => true
  | .managementReset _ => true
  | .cxlMemRead _ _ => true
  | .cxlMemWrite _ _ _ _ _ => true
  | .writeCompletion _ ctx => inBits 64 ctx
  | .admitHeldRequest _ => true
  | .lineFillLanded _ x => BoardUpset.wf x.board
  | .boardOffer _ x => BoardUpset.wf x.board
  | .dirtyAgePush _ x => BoardUpset.wf x.board
  | .boardSlotRewrite _ => true
  | .writeHome _ _ => true
  | .writeHomeAck _ _ => true
  | .handshakeStall _ _ block _ => inBits 32 block
  | .blockResetComplete _ _ block _ => inBits 32 block
  | .regionRestartReady _ _ => true
  | .regionRestartDeadline _ _ => true
  | .engineWatchdogExpiry _ _ => true
  | .chipWatchdogExpiry _ => true
  | .paceEvaluation _ p => PaceIn.wf p
  | .paceLowerInterval _ p => PaceIn.wf p
  | .escalationEvaluation _ => true
  | .classWindowClose _ _ => true
  | .envelopeRecompute _ => true
  | .restorationHoldExpiry _ => true
  | .dieOperationComplete _ _ r => DieResult.wf r
  | .operationSuspended _ _ => true
  | .operationResume _ _ => true
  | .dieCommandTimeout _ _ => true
  | .reconstructionComplete _ _ _ => true
  | .softDecodeComplete _ _ errors outside => inBits 12 errors && inBits 12 outside
  | .macCheckComplete _ _ fail => fail.all NodeFail.wf
  | .lostNodeRewriteComplete _ _ node => inBits 48 node
  | .rebuildComplete _ _ => true
  | .channelGate _ => true
  | .channelWakeComplete _ _ us _ => inBits 32 us
  | .stripePageFillTimeout _ _ => true
  | .journalTailFlush _ => true
  | .checkpointSealed _ ms => inBits 32 ms
  | .checkpointWriteFailed _ _ => true
  | .mapWordRebuildComplete _ _ word r => decide (word < 100663296) && (match r with | some (_, ms) => inBits 32 ms | none => true)
  | .demotionSweep => true
  | .demotion _ _ => true
  | .beadRotation _ _ => true
  | .reclaimSourceChosen _ _ => true
  | .reclaimCopyComplete _ _ => true
  | .reclaimCommitDurable _ _ => true
  | .reclaimDrainComplete _ _ => true
  | .wearLevelCheck _ _ => true
  | .calendarTick _ => true
  | .driftLedgerHourly => true
  | .referenceGroupWrite => true
  | .thresholdTableSave => true
  | .thresholdCountEvaluation _ _ _ _ _ => true
  | .calibrationWindowEnd _ => true
  | .marginEvaluation _ _ _ => true
  | .stripeBlockMigrate _ _ _ => true
  | .stripeBlockRefresh _ _ _ => true
  | .scrubLapStart _ => true
  | .scrubRead _ _ _ _ _ corrected up down _ => inBits 12 corrected && (up ++ down).all (fun x => decide (x < 15))
  | .scrubLapComplete _ => true
  | .scrubLapLimit _ => true
  | .scrubGatedWake _ _ => true
  | .scrubPositionSave => true
  | .keyRotationThreshold _ _ => true
  | .keyHeld _ _ => true
  | .sweepUnitRowsWritten _ => true
  | .carrySweepFolio _ _ => true
  | .carryBoundarySave => true
  | .carrySweepComplete _ => true
  | .storeTestDue _ => true
  | .storeTestLoadApplied _ mv => inBits 16 mv
  | .storeTestEsrMeasure _ mv => inBits 16 mv
  | .storeTestDischargeEnd _ => true
  | .storeTestRechargeEnd _ mv => inBits 16 mv
  | .storeTestTimeout _ => true
  | .budgetCompute _ r => StoreRead.wf r
  | .logSectorWritten _ lines => decide (lines.length ≤ 3)
  | .treeTopLogRecord _ => true
  | .slotArmed _ _ => true
  | .powerFailure _ => true
  | .dumpPartWritten _ _ => true
  | .dumpTrailerWritten _ energy => inBits 32 energy
  | .inputReturnDuringDump _ => true
  | .replayHomeWrite _ corrected _ => decide (corrected ≤ 64)
  | .flushHomeComplete _ => true
  | .gpfPhase1 => true
  | .gpfPhase2 => true
  | .ringCableChange _ _ _ => true
  | .ringSyncAcquired _ => true
  | .ringSyncLost _ _ => true
  | .discoverSend _ => true
  | .discover _ f serial => FrameHead.wf f && inBits 64 serial
  | .heartbeatSend _ => true
  | .heartbeat _ f _ _ => FrameHead.wf f
  | .heartbeatTimeout _ => true
  | .flush _ f _ _ => FrameHead.wf f
  | .flushResend _ => true
  | .prepare _ f _ _ => FrameHead.wf f
  | .commit _ f _ _ => FrameHead.wf f
  | .rollback _ f _ _ => FrameHead.wf f
  | .state _ f _ _ => FrameHead.wf f
  | .reservedTypeFrame _ f type _ => FrameHead.wf f && inBits 8 type
  | .preparedRecordWritten _ => true
  | .decisionRecordWritten _ => true
  | .closeResend _ => true
  | .closeStall _ => true
  | .memberWaitExpiry _ => true
  | .shadowSettle _ _ => true
  | .inputQualified _ => true
  | .railEnableSlot _ _ => true
  | .railPowerGood _ _ => true
  | .railPgTimeout _ _ => true
  | .railDisableSlot _ _ => true
  | .minimumOffTimeEnd _ => true
  | .railPgLost _ _ _ => true
  | .sensorSample _ _ tempC slopeTenths => inInt16 tempC && inInt16 slopeTenths
  | .orderlyStopLinkDown _ => true
  | .thermalHoldRetry _ => true
  | .powerBrakeApply _ => true
  | .powerBrakeRelease _ => true
  | .tallyRowWriteComplete _ => true
  | .tallySupplyRecheck _ _ _ => true
  | .tallyDeferralLimit _ vauxMv => inBits 16 vauxMv
  | .tallyRefreshLap _ weak replaced => weak.all (fun x => decide (x.1 < 8) && inBits 12 x.2) &&
      replaced.all (fun x => decide (x.1 < 8) && inBits 12 x.2.1 && decide (x.2.2 < 2))
  | .lifetimeCounterSave => true
  | .recorderDrain => true
  | .recorderRepeatFlush => true
  | .telemetryTimeout _ => true
  | .pmuPortWindowEnd _ _ inBytes outBytes => inBits 64 inBytes && inBits 64 outBytes
  | .pmuCounterWrap _ _ => true
  | .healthEvaluate _ => true
  | .d3hotEntry _ => true
  | .d0Entry _ => true
  | .gddr7SelfRefreshEntry _ => true
  | .aspmL1Entry => true
  | .aspmL1Exit => true
  | .hdmDecoderCommit _ base size skip ways gran pos => inBits 64 base && inBits 64 size && inBits 64 skip &&
      inBits 8 ways && inBits 32 gran && inBits 8 pos
  | .ideIntegrityFailure _ _ => true
  | .ideKeyProgram _ _ _ => true
  | .spdmMessage _ r => SpdmReq.wf r
  | .getMeasurements _ index _ => inBits 32 index
  | .doeDiscovery index => inBits 32 index
  | .cdatTableAccess entry => inBits 16 entry
  | .smbusArp _ => true
  | .setEndpointId _ => true
  | .mctpControlMessage m => MctpMsg.wf m
  | .getEventRecords _ log count => inBits 8 log && inBits 32 count
  | .clearEventRecords _ log handles _ => inBits 8 log && handles.all (inBits 16)
  | .getEventInterruptPolicy _ => true
  | .setEventInterruptPolicy _ settings => decide (settings.length ≤ 5)
  | .getFwInfo _ => true
  | .transferFw _ _ _ slot offset length img => inBits 8 slot && inBits 32 offset && inBits 32 length && FwImage.wf img
  | .activateFw _ _ _ slot => inBits 8 slot
  | .getTimestamp _ => true
  | .setTimestamp _ _ _ => true
  | .getSupportedLogs _ => true
  | .getLog _ _ offset length => inBits 32 offset && inBits 32 length
  | .identifyMemoryDevice _ => true
  | .getLsa _ offset length => inBits 32 offset && inBits 32 length
  | .setLsa _ offset data => inBits 32 offset && decide (data.length ≤ 65528)
  | .getHealthInfo _ => true
  | .getAlertConfiguration _ => true
  | .setAlertConfiguration _ _ _ lifeUsed overTemp underTemp volErrors perErrors => inBits 8 lifeUsed && inInt16 overTemp &&
      inInt16 underTemp && inBits 16 volErrors && inBits 16 perErrors
  | .getShutdownState _ => true
  | .setShutdownState _ _ => true
  | .getPoisonList _ dpa units => inBits 64 dpa && inBits 64 units
  | .injectPoison _ _ dpa => inBits 64 dpa
  | .clearPoison _ _ dpa _ => inBits 64 dpa
  | .getScanMediaCapabilities _ dpa units => inBits 64 dpa && inBits 64 units
  | .scanMedia _ _ dpa units => inBits 64 dpa && inBits 64 units
  | .scanMediaComplete _ => true
  | .getScanMediaResults _ => true
  | .sanitize _ _ => true
  | .sanitizeComplete _ => true
  | .secureErase _ _ => true
  | .mediumResetComplete _ => true
  | .getCardStatusSummary _ _ => true
  | .readTallyRecords _ _ partition row count _ => inBits 8 partition && inBits 16 row && inBits 32 count
  | .writeCustomerTally _ _ row _ data => inBits 16 row && decide (data.length = 256)
  | .setTallyPassword _ _ partition _ _ => inBits 8 partition
  | .transferConfigurationImage _ _ _ offset length img => inBits 32 offset && inBits 32 length && Image.wf img
  | .getConfigurationImageInfo _ => true
  | .selectConfigurationSlot _ slot _ => inBits 8 slot
  | .discardRange _ _ dpa length _ => inBits 64 dpa && inBits 64 length
  | .discardRangeFolio _ => true
  | .discardRangeComplete _ => true
  | .getExtentTable _ first count => inBits 32 first && inBits 32 count
  | .generateKey _ key => inBits 16 key
  | .startKeyRotation _ _ extent key _ => inBits 16 extent && inBits 16 key
  | .retireKeyId _ _ key => inBits 16 key
  | .getKeyStatus _ first count => inBits 32 first && inBits 32 count
  | .epochResolve _ _ epoch action => inBits 64 epoch && inBits 8 action
  | .getRingStatus _ => true
  | .readRecorder _ first count => inBits 32 first && inBits 32 count
  | .clearRecorder _ _ => true
  | .getBootLedger _ index => inBits 32 index
  | .startEnergyStoreTest _ _ => true
  | .getWearAndDriftReport _ die _ => inBits 16 die
  | .setCheckFlipMask _ m => FlipIn.wf m
  | .registerWrite a size _ => Window.wf a.w a.offset && inBits 8 size
  | .rcRegisterRead a size => Window.wf a.w a.offset && inBits 8 size
  | .ringDoorbellWrite _ size _ => inBits 8 size
  | .ringFlushStart _ => true
  | .tqTailWrite tail => inBits 32 tail
  | .tqFlush => true
  | .eccFlipArmWrite => true
  | .eccFlipDisarmWrite => true
  | .evtVecUnmask _ _ => true
  | .pflSuspectClear _ _ => true
  | .inputLevelChange _ i => Inputs.wf i
  | .railPgDeassert _ _ => true
  | .prepareLap2Send _ => true
  | .marginRead _ _ _ corrected reports _ => inBits 12 corrected && reports.all (fun x => decide (x.1 < 15))
  | .rebuildMove _ _ _ => true
  | .pmuLevelSample => true
  | .linkError _ => true

end Sys2Proof
end

