-- ==== Sys2Proof/Safety.lean ====
section
/-! DEFINITION. What counts as a safe run: every command in the queue is well formed, and no step stops. The conditions of the
card that every step keeps are named here too: its tables are in canonical form. -/

namespace Sys2Proof.Safety

open Sys2Proof.Machine

/-- The step answers a next state. -/
def goes (o : Host.Outcome State Fault Refusal) : Bool :=
  match o with
  | .next _ => true
  | .fault _ => false
  | .refused _ => false

/-- Every waiting command is well formed. -/
def queueWf (s : State) : Bool := s.pending.all Instr.wf

/-- k steps from s all answer a next state. -/
def safeRun : Nat → State → Bool
  | 0, _ => true
  | k + 1, s =>
    match step s with
    | .next t => safeRun k t
    | .fault _ => false
    | .refused _ => false

/-! ## Canonical tables: keys strictly rising, so that equal contents are equal data -/

def fabOk (f : Fabric) : Bool := Tab.wf f.ready && Tab.wf f.blocks && Tab.wf f.crossing
def linkOk (l : Link) : Bool := Tab.wf l.lsa && Tab.wf l.msixTable
def cchOk (c : Caches) : Bool := Tab.wf c.near && Tab.wf c.board
def medOk (m : Media) : Bool := Tab.wf m.store && Tab.wf m.secs && Tab.wf m.blocks && Tab.wf m.slotMax
def ckptOk (c : Ckpt) : Bool := Tab.wf c.entries && Tab.wf c.beads
def mapOk (m : Map) : Bool :=
  Tab.wf m.entries && m.ckpts.all ckptOk && Tab.wf m.integrity && Tab.wf m.onChip && Tab.wf m.beads && Tab.wf m.homes &&
    Tab.wf m.pages && Tab.wf m.reclaim
def calOk (c : Cal) : Bool := Tab.wf c.thr && Tab.wf c.thrSaved && Tab.wf c.thrMirror
def keyOk (k : Keys) : Bool :=
  Tab.wf k.units && Tab.wf k.slots && Tab.wf k.ctrs && Tab.wf k.ctrsHome && Tab.wf k.ctrCache && Tab.wf k.ctrMirror &&
    Tab.wf k.nodes && Tab.wf k.nodesHome && Tab.wf k.nodeCache
def pflOk (p : Persist) : Bool := Tab.wf p.overlay && Tab.wf p.overlayHeld
def ringOk (r : Ring) : Bool := Tab.wf r.shadows
def bootOk (b : Boot) : Bool := Tab.wf b.failure
def tlyOk (t : Tally) : Bool := Tab.wf t.rows && Tab.wf t.wrong
def tqOk (t : Telemetry) : Bool := Tab.wf t.lines

/-- No event log holds more than its size (02 Table 2-13, R45). -/
def evtOk (e : Events) : Bool := e.logs.length == 4 && (e.logs.zipIdx.all (fun p => decide (p.1.length ≤ logSize p.2)))
/-- On-chip staging holds at most 64 records (13 R366). -/
def recdOk (r : Recorder) : Bool := decide (r.staging.length ≤ 64)
/-- The poison list holds at most 8,192 records (07 R191). -/
def listOk (m : Map) : Bool := decide (m.poison.length ≤ 8192)

/-- Every bounded buffer named above is within its bound. -/
def bounded (s : State) : Bool := evtOk s.evt && recdOk s.recd && listOk s.map

/-- The stored registers, the stored medium and the other tables that State's groups name are in canonical form (the routing section
of the image in force stands as the image gives it; the tables within a die, a stripe block, a counter block or a dump slot
are theirs). -/
def canonical (s : State) : Bool :=
  Tab.wf s.obs && fabOk s.fab && linkOk s.link && cchOk s.cch && medOk s.med && mapOk s.map && calOk s.cal && keyOk s.key &&
    pflOk s.pfl && ringOk s.ring && bootOk s.boot && tlyOk s.tly && tqOk s.tq

/-! ## Completion and frames -/

/-- The command completes: exec answers a next state, and P holds of it. -/
def completes (c : Instr) (s : State) (P : State → Prop) : Prop := ∃ u, exec c s = .next u ∧ P u

/-- The register key lies in a register that raising an event or counting an occurrence may change: EVT_STATUS, PMU_CNT,
PMU_OVF, REC_CTRL, REC_LOST (13 R364 to R372). -/
def eventKey (k : Nat) : Bool :=
  k / 64 == 0xF0008 || k / 64 == 0xC0008 || k / 64 == 0xB0100 || k / 64 == 0xB0110 ||
    (decide (0xC0400 ≤ k / 64) && decide (k / 64 < 0xC0600))

/-- Every stored register field but the listed ones, and the event registers, is as before. -/
def regsBut (l : List (Fld × Nat)) (s t : State) : Prop :=
  ∀ k, eventKey k = false → l.all (fun p => p.1.key p.2 != k) = true → Tab.find t.obs k = Tab.find s.obs k

/-- No operation waits for a die: no update of a stripe, no page program, no ledger entry, and no reset but that of the member that
`own` names by its block's key and its channel (05 R115, R124). -/
def quietDies (s : State) (own : Option (Nat × Nat)) : Bool :=
  s.med.updates.isEmpty && s.map.progs.isEmpty && s.med.dies.all (fun d => d.refWrite == 0) &&
    s.med.blocks.all (fun e => e.2.toReset.all (fun c => own == some (e.1, c)))

/-- Every sector of the folio at a location that holds data decodes from its own die (05 R130). -/
def sourceClean (s : State) (l : Loc) : Bool :=
  (List.range 64).all (fun n => !(s.die (s.dieAt l n)).retired && (s.sectorAt l n).all (fun x => !x.lost && !x.bad 21))

/-- No map change waits, and no placement waits for one (06 R167). -/
def mapFlows (s : State) : Bool :=
  s.map.held.isEmpty && s.map.homes.all (fun e => e.2.committed || e.2.bead || s.pageOpen e.2.loc)

/-- The request that arrives at time t with host address hpa is r, and it is admitted at once (02 R39, R57; 03 R69): the link runs, an
ingress entry of its kind is free, memory is active, the address decodes, no request of its class is held, and nothing that it
needs is missing. A read carries no data. -/
def admits (s : State) (t hpa : Nat) (r : Req) : Bool :=
  s.cxlUp && !s.link.ideBlocked && decide (s.heldKind r.write < ingressSize r.write) && s.thm.stopping.isNone && s.memReady &&
    (s.decodeHpa hpa).any (fun a => a / 64 * 64 == r.dpa.toNat) && r.id == s.qos.nextId && r.t0 == max s.now t &&
    r.cls == s.classAt r.dpa.toNat && (r.write || (r.data == 0 && r.enables == 0 && !r.poison)) &&
    !s.qos.ingress.any (fun q => q.cls == r.cls) && s.admissible r && !s.link.selfRefresh

/-- Nothing about line k makes a request to it fail or wait (03 R58, R60; 08 R203, R218; 05 R135; 10 R290). -/
def plainLine (s : State) (k : Nat) : Bool :=
  !s.fab.fatal && !s.lockedUnit (unitOfLine k) && !s.inLost k && !s.fro && !s.lineEpochMode (k / 4)

/-- What a command answered to mailbox command `op` on a path: the return codes with their payloads. -/
def answers (s u : State) (p : Path) (op : Nat) : List (Rc × Bytes) :=
  (u.sent.drop s.sent.length).filterMap (fun o =>
    match o with
    | .reply q n rc b => if q = p ∧ n = op then some (rc, b) else none
    | _ => none)

/-- The return codes with the lengths of their payloads. -/
def lengths (s u : State) (p : Path) (op : Nat) : List (Rc × Nat) := (answers s u p op).map (fun a => (a.1, a.2.length))

/-- The frames that a command sent on the ring. -/
def frames (s u : State) : List Frame :=
  (u.sent.drop s.sent.length).filterMap (fun o =>
    match o with
    | .frame f => some f
    | _ => none)

/-- Groups of State that a command may change. `events` is what raising an event changes: the logs, the recorder, the event
registers, the interrupt crossings, the notes of the level counters, the count of free values. -/
inductive Grp where
  | card | time | regs | out | events | fab | link | qos | cch | med | map | cal | key | pfl | ring | pwr | thm | boot | run
  | tly | tq | flip
deriving DecidableEq, Repr

/-- The group is as before. -/
def same (g : Grp) (s t : State) : Prop :=
  match g with
  | .card => t.pending = s.pending ∧ t.part = s.part ∧ t.serial = s.serial
  | .time => t.now = s.now
  | .regs => regsBut [] s t
  | .out => t.sent = s.sent
  | .events => t.evt = s.evt ∧ t.recd = s.recd ∧ t.fresh = s.fresh ∧ t.fab.crossing = s.fab.crossing ∧
      t.tq.levelSeen = s.tq.levelSeen ∧ ∀ k, eventKey k = true → Tab.find t.obs k = Tab.find s.obs k
  | .fab => { t.fab with crossing := s.fab.crossing } = s.fab
  | .link => t.link = s.link
  | .qos => t.qos = s.qos
  | .cch => t.cch = s.cch
  | .med => t.med = s.med
  | .map => t.map = s.map
  | .cal => t.cal = s.cal
  | .key => t.key = s.key
  | .pfl => t.pfl = s.pfl
  | .ring => t.ring = s.ring
  | .pwr => t.pwr = s.pwr
  | .thm => t.thm = s.thm
  | .boot => t.boot = s.boot
  | .run => t.run = s.run
  | .tly => t.tly = s.tly
  | .tq => { t.tq with levelSeen := s.tq.levelSeen } = s.tq
  | .flip => t.flip = s.flip

/-- Only the listed groups may differ. -/
def changesOnly (l : List Grp) (s t : State) : Prop := ∀ g, l.contains g = false → same g s t

end Sys2Proof.Safety
end

