-- ==== Sys2Proof/Certificates/Slice0/Obligations.lean ====
section
/-! DEFINITION. The statements for the provers: what each family of commands does, when it does it and what it leaves as it
was (the groups of State of Sys2Proof/Safety.lean); what a step keeps; what no command can do. -/

open Sys2Proof Sys2Proof.Machine Sys2Proof.Safety

/-- For every command c and state s, a step with c at the front of the queue is c's effect with the queue's rest. With an empty queue (the
model's choice, log entry 3) the first mailbox command that waits runs when the mailbox engine is free, and those behind it go on waiting
(02 R44); with none waiting, or with the engine taken, the block idles. -/
def Obligations.StepTakesFront : Prop :=
  (∀ (c : Instr) (r : List Instr) (s : State), Machine.step { s with pending := c :: r } = Machine.exec c { s with pending := r }) ∧
  (∀ (c : Instr) (r : List Instr) (s u : State), s.link.held = c :: r → s.mbFree = true →
    Machine.exec c { s with pending := [], link := { s.link with held := [] } } = .next u →
    Machine.step { s with pending := [] } = .next { u with link := { u.link with held := u.link.held ++ r } }) ∧
  (∀ s : State, s.link.held = [] ∨ s.mbFree = false → Machine.step { s with pending := [] } = .next { s with pending := [] })

/-- What State.reset holds: nothing waits and nothing has been sent, every register field that gives a reset value is at it, the link is
down with SMBus address 62h and endpoint ID 0, key slot 0 alone is Active, the ring bypass is closed, PERST_N is asserted, every rail is
off with the boot slot table in force; every table is canonical and every buffer within its bound. -/
def Obligations.ResetValues : Prop :=
  State.reset.pending = [] ∧ State.reset.sent = [] ∧ (∀ (f : Fld) (i : Nat), State.reset.reg f i = f.dflt) ∧
  State.reset.link.protocol = 0 ∧ State.reset.link.smbusAddress = 0x62 ∧ State.reset.link.eid = 0 ∧
  State.reset.key.slots.map (fun e => (e.1, e.2.st)) = [(0, 1)] ∧ State.reset.ring.bypass = true ∧ State.reset.boot.perst = true ∧
  (∀ r ∈ State.reset.pwr.rails, r.enabled = false) ∧ State.reset.pwr.table = bootSlotTable ∧
  canonical State.reset = true ∧ bounded State.reset = true ∧ queueWf State.reset = true

/-- Every stored register, the medium, the map, the caches, the keys and counters, the thresholds, the overlay, the shadows, the tally rows and
the telemetry lines stay in canonical form (keys strictly rising) over every step, from every state that has them so. -/
def Obligations.TablesStayCanonical : Prop :=
  ∀ s t : State, Machine.step s = .next t → canonical s = true → canonical t = true

/-- The four event logs never hold more than 1,024, 512, 256 and 64 records (Table 2-13), recorder staging no more than 64 (R366) and the
poison list no more than 8,192 (R191), after every step from every state in which they do (that a full poison list loses the later part
of a split record is the model's choice, log entry 36). -/
def Obligations.BuffersStayBounded : Prop :=
  ∀ s t : State, Machine.step s = .next t → bounded s = true → bounded t = true

/-- No command takes time or an answer back: after every step the card time is no earlier, what has been sent begins with what had been sent,
the part and the serial number are as they were, and the queue is what stood behind its front (for a step on an empty queue: empty). -/
def Obligations.TimeAndOutputOnlyGrow : Prop :=
  ∀ s t : State, Machine.step s = .next t →
    s.now ≤ t.now ∧ s.sent <+: t.sent ∧ t.part = s.part ∧ t.serial = s.serial ∧ t.pending = s.pending.tail

/-- On WTP6-8192-C every die position is fitted (Table 0-2), and no step ever ends in a fault or a refusal: from every state, for every
queue, every run of any length goes on. -/
def Obligations.FullPartNeverStops : Prop :=
  ∀ (k : Nat) (s : State), s.part = .p8192 → safeRun k s = true

/-- On WTP6-4096-C positions 2 and 3 of every channel are not fitted (R2). A completion, suspension, resumption or timeout of an operation, a
wear check, a threshold or margin read, and a failed checkpoint write, that names such a die is no event of that card: it stops with
noSuchUnit, and on fitted dies it does not (log entry 37). -/
def Obligations.UnfittedDieStops : Prop :=
  (∀ (t : Nat) (i : Fin 64) (s : State) (r : DieResult) (n : Fin 16) (b : Fin 4) (h : Fin 15) (g : Fin 4) (k : BitVec 20) (o : Option (BitVec 35))
      (c : Nat) (l : List (Nat × Bool)) (up down : List Nat) (e : ReadEnd) (x : BitVec 35), s.part = .p4096 → 2 ≤ i.val % 4 →
    Machine.exec (.operationSuspended t i) s = .fault .noSuchUnit ∧
    Machine.exec (.operationResume t i) s = .fault .noSuchUnit ∧
    Machine.exec (.dieCommandTimeout t i) s = .fault .noSuchUnit ∧
    Machine.exec (.wearLevelCheck t i) s = .fault .noSuchUnit ∧
    Machine.exec (.checkpointWriteFailed t i) s = .fault .noSuchUnit ∧
    Machine.exec (.dieOperationComplete t i r) s = .fault .noSuchUnit ∧
    Machine.exec (.thresholdCountEvaluation t i n b h) s = .fault .noSuchUnit ∧
    Machine.exec (.marginRead t i x c l e) s = .fault .noSuchUnit ∧
    Machine.exec (.scrubRead t i g k o c up down e) s = .fault .noSuchUnit) ∧
  (∀ (t : Nat) (i : Fin 64) (s : State) (r : DieResult) (n : Fin 16) (b : Fin 4) (h : Fin 15) (g : Fin 4) (k : BitVec 20) (o : Option (BitVec 35))
      (c : Nat) (l : List (Nat × Bool)) (up down : List Nat) (e : ReadEnd) (x : BitVec 35), s.part = .p8192 ∨ i.val % 4 < 2 →
    goes (Machine.exec (.operationSuspended t i) s) = true ∧
    goes (Machine.exec (.operationResume t i) s) = true ∧
    goes (Machine.exec (.dieCommandTimeout t i) s) = true ∧
    goes (Machine.exec (.wearLevelCheck t i) s) = true ∧
    goes (Machine.exec (.checkpointWriteFailed t i) s) = true ∧
    goes (Machine.exec (.dieOperationComplete t i r) s) = true ∧
    goes (Machine.exec (.thresholdCountEvaluation t i n b h) s) = true ∧
    goes (Machine.exec (.marginRead t i x c l e) s) = true ∧
    goes (Machine.exec (.scrubRead t i g k o c up down e) s) = true)

/-- Raising an event of any source, severity, data and region leaves every group of State but the output and the event state, and every stored
register field but the event registers; what had been sent stays sent, and the bounded logs stay bounded. -/
def Obligations.EventsStayInTheirPlace : Prop :=
  ∀ (src sev : Nat) (data : List Nat) (region : Nat) (s : State),
    changesOnly [.out, .events] s (ev src sev data region s) ∧ s.sent <+: (ev src sev data region s).sent ∧
    (bounded s = true → bounded (ev src sev data region s) = true)

/-- The record of an occurrence (02 R45, R46; 12 R350; 13 R388). An unmasked source whose log has room adds one record with its source,
severity, region and data and takes the next handle; a masked one is only counted in EVT_STATUS.masked; while no log can be written the
occurrence is held; where the log is full it is dropped and the log's overflow count rises. -/
def Obligations.EventRecords : Prop :=
  (∀ (e : Ev) (n : Nat) (s : State), s.srcMasked e.src = false → s.canLog = true → e.sev < 4 → s.evt.logs.length = 4 →
    (s.evt.logs.getD e.sev []).length < logSize e.sev →
    ((s.record e n).evt.logs.getD e.sev []).length = (s.evt.logs.getD e.sev []).length + 1 ∧
    (((s.record e n).evt.logs.getD e.sev []).getLast?.map (fun r => (r.source, r.severity, r.region, r.data, r.handle))) =
      some (e.src, e.sev, e.region, e.data, s.evt.nextHandle)) ∧
  (∀ (e : Ev) (n : Nat) (s : State), s.srcMasked e.src = true → (s.record e n).evt = s.evt ∧
    (s.record e n) = s.bump EVT_STATUS.masked) ∧
  (∀ (e : Ev) (n : Nat) (s : State), s.srcMasked e.src = false → s.canLog = false →
    (s.record e n).evt.deferred = s.evt.deferred ++ [(e.src, e.sev, e.region, n, e.data)] ∧ (s.record e n).evt.logs = s.evt.logs) ∧
  (∀ (e : Ev) (n : Nat) (s : State), s.srcMasked e.src = false → s.canLog = true → e.sev < 4 → s.evt.overflow.length = 4 →
    logSize e.sev ≤ (s.evt.logs.getD e.sev []).length →
    (s.record e n).evt.logs = s.evt.logs ∧ (s.record e n).evt.overflow.getD e.sev 0 = s.evt.overflow.getD e.sev 0 + 1)

/-- 08 R201: where no extent entry holds the DPA's unit, its attributes are key ID 0, class 7, line mode (not epoch mode), verify before
forward (not speculative), not pinned, encrypted, viral off and scrub priority 0. -/
def Obligations.DefaultExtent : Prop :=
  ∀ (dpa : Nat) (s : State), (∀ e ∈ s.key.extents, extHas e (unitOf dpa) = false) →
    (s.extentAt dpa).key = 0 ∧ s.classAt dpa = 7 ∧ (s.extentAt dpa).epoch = false ∧ (s.extentAt dpa).speculative = false ∧
    (s.extentAt dpa).pin = false ∧ (s.extentAt dpa).encrypt = true ∧ (s.extentAt dpa).viral = false ∧ (s.extentAt dpa).scrub = 0

/-- The gate before every mailbox command (01 R17; 02 R35, R43, R44, R53, R57; 12 R330, R331; the order is that of log entry 38). In
recovery only the firmware commands and the ledger run, over MCTP; until region G runs the answer is Retry Required, but a tally request
made while G restarts waits; while a row write runs a tally request gets Busy; a command that touches memory contents gets Media Disabled in
PCIe-only mode; a command waits while a foreground command runs or waits on either path (log entry 15), and else runs. -/
def Obligations.MailboxGate : Prop :=
  (∀ (p : Path) (op : Nat) (a b : Bool) (s : State), s.boot.recovery = true → p = .primary → s.gate p op a b = .silent) ∧
  (∀ (p : Path) (op : Nat) (a b : Bool) (s : State), s.boot.recovery = true → p = .mctp → op ∈ [0x0200, 0x0201, 0x0202, 0xC060] →
    s.gate p op a b = .pass) ∧
  (∀ (op : Nat) (a b : Bool) (s : State), s.boot.recovery = false → s.link.mboxReady = true → s.gRuns = false →
    (a && s.restarting 1) = false → s.gate .primary op a b = .refuse .retryRequired) ∧
  (∀ (op : Nat) (b : Bool) (s : State), s.boot.recovery = false → s.link.mboxReady = true → s.gRuns = false → s.restarting 1 = true →
    s.gate .primary op true b = .hold) ∧
  (∀ (op : Nat) (b : Bool) (s : State), s.boot.recovery = false → s.link.mboxReady = true → s.gRuns = true → s.key.erasing = none →
    s.tallyBusy = true → s.gate .primary op true b = .refuse .busy) ∧
  (∀ (op : Nat) (s : State), s.boot.recovery = false → s.link.mboxReady = true → s.gRuns = true → s.key.erasing = none →
    s.pcieOnly = true → s.gate .primary op false true = .refuse .mediaDisabled) ∧
  (∀ (op : Nat) (s : State), s.boot.recovery = false → s.link.mboxReady = true → s.gRuns = true → s.key.erasing = none →
    s.gate .primary op false false = if s.mbRuns || !s.link.held.isEmpty then .hold else .pass)

/-- LINK_TRAINING_COMPLETE and LINK_TRAINING_RETRY (02 R34, R49, Tables 2-1, 2-2). A card that may train takes the negotiated outcome and the
CDAT values of it; one that may not is unchanged. CXL 3.1 needs CXL.mem, 256-byte flits and 32 GT/s or more on four lanes; without CXL.mem
the card is PCIe-only; CDAT latency grows at 16 GT/s by 10 ns and at 8 GT/s by 25 ns. -/
def Obligations.LinkTrainingOutcome : Prop :=
  (∀ (t : Nat) (o : LinkOffer) (s : State), (s.tick t).trains = true →
    completes (.linkTrainingComplete t o) s (fun u =>
      u.link.protocol = (outcomeOf o).1 ∧ u.link.rate = o.rate ∧ u.link.width = o.width ∧
      u.link.flit256 = (outcomeOf o).2.1 ∧ u.link.degraded = (outcomeOf o).2.2 ∧
      u.link.cdat = cdatOf (outcomeOf o).1 o.rate o.width (outcomeOf o).2.1 ∧
      changesOnly [.time, .out, .events, .link, .med, .qos, .pfl] s u)) ∧
  (∀ (t : Nat) (o : LinkOffer) (s : State), (s.tick t).trains = false →
    Machine.exec (.linkTrainingComplete t o) s = .next (s.tick t)) ∧
  (∀ s : State, s.trains = true → Machine.exec .linkTrainingRetry s = .next (s.out (.link false))) ∧
  (∀ s : State, s.trains = false → Machine.exec .linkTrainingRetry s = .next s) ∧
  (∀ o : LinkOffer, o.mem = true → o.flit256 = true → 3 ≤ o.rate → 4 ≤ o.width → outcomeOf o = (4, true, false)) ∧
  (∀ o : LinkOffer, o.mem = false → outcomeOf o = (1, false, true)) ∧
  (∀ o : LinkOffer, o.width < 4 → outcomeOf o = (1, false, true)) ∧
  (∀ o : LinkOffer, o.mem = true → o.rate ≤ 2 → 4 ≤ o.width → (outcomeOf o).2.2 = true ∧ (outcomeOf o).1 ≠ 1) ∧
  (∀ (p w : Nat) (f : Bool), (cdatOf p 4 w f).readNs = 650 ∧ (cdatOf p 3 w f).writeNs = 70 ∧ (cdatOf p 2 w f).readNs = 660 ∧
    (cdatOf p 1 w f).readNs = 675 ∧ (cdatOf p 1 w f).writeNs = 95) ∧
  (∀ (r w : Nat) (f : Bool), (cdatOf 1 r w f).readMbps = 0 ∧ (cdatOf 1 r w f).writeMbps = 0)

/-- HDM_DECODER_COMMIT (02 R39): on a trained link the decoder takes its setting, committed exactly when the setting is one the
card offers, the link runs CXL and the card is not in boot hold, and with its error bit set exactly when it is not. -/
def Obligations.DecoderCommit : Prop :=
  ∀ (dec : Fin 4) (base size skip ways gran pos : Nat) (s : State), s.link.protocol ≠ 0 →
    completes (.hdmDecoderCommit dec base size skip ways gran pos) s (fun u => changesOnly [.link] s u ∧
      u.link = { s.link with
        decoders := setAt s.link.decoders dec.val
          ⟨base, size, skip, max 1 ways, if gran = 0 then 256 else gran, pos,
            decoderOk s size skip ways gran pos && s.cxlUp && !s.boot.hold,
            !(decoderOk s size skip ways gran pos && s.cxlUp && !s.boot.hold)⟩ })

/-- IDE_INTEGRITY_FAILURE and IDE_KEY_PROGRAM (02 R50, R51, R54). A failure on a secure stream makes it insecure, refuses CXL.mem requests
and is reported through RAS bit 2 and AER before event 0x003; a key is taken only in a secured session while CXL 3.1 runs and the image permits
IDE. A key, and the refusal's end, reach only the stream that they are for, and a first CXL.cachemem key chooses skid or containment mode. -/
def Obligations.IdeStreams : Prop :=
  (∀ (t : Nat) (s : State), s.link.ideMem.isSome = true → s.link.ideInsecureMem = false →
    completes (.ideIntegrityFailure t true) s (fun u =>
      u.link = { s.link with
        ideInsecureMem := true, ideLostMem := true, rasUnc := s.link.rasUnc ||| 0x10000#32,
        aerUnc := s.link.aerUnc ||| BitVec.twoPow 32 22, rasHeader := (2, 3) } ∧
      s.sent ++ [.ras 2, .aer (if s.link.aerSeverity.getLsbD 22 then .fatal else .nonFatal) 2 3] <+: u.sent ∧
      u.link.ideBlocked = true ∧ changesOnly [.time, .out, .events, .link] s u)) ∧
  (∀ (t : Nat) (s : State), s.link.ideIo.isSome = true → s.link.ideInsecureIo = false →
    completes (.ideIntegrityFailure t false) s (fun u =>
      u.link = { s.link with
        ideInsecureIo := true, ideLostIo := true, rasUnc := s.link.rasUnc ||| 0x10000#32,
        aerUnc := s.link.aerUnc ||| BitVec.twoPow 32 22, rasHeader := (2, 3) } ∧
      s.sent ++ [.ras 2, .aer (if s.link.aerSeverity.getLsbD 22 then .fatal else .nonFatal) 2 3] <+: u.sent ∧
      u.link.ideBlocked = true ∧ changesOnly [.time, .out, .events, .link] s u)) ∧
  (∀ (key : Option IdeKey) (s : State), 0 < s.link.spdmSessions → s.link.protocol = 4 → s.run.link.ide = true →
    Machine.exec (.ideKeyProgram true key true) s = .next { s with link := { s.link with
      ideMem := key.map (·.key),
      ideContained := if s.link.ideMem.isSome then s.link.ideContained else key.any (·.contained),
      ideLostMem := s.link.ideLostMem && (key.isNone || s.link.ideInsecureMem) } } ∧
    Machine.exec (.ideKeyProgram false key true) s = .next { s with link := { s.link with
      ideIo := key.map (·.key), ideLostIo := s.link.ideLostIo && (key.isNone || s.link.ideInsecureIo) } }) ∧
  (∀ (m : Bool) (key : Option IdeKey) (s : State), Machine.exec (.ideKeyProgram m key false) s = .next s)

/-- SPDM_MESSAGE, GET_MEASUREMENTS, DOE_DISCOVERY and CDAT_TABLE_ACCESS over a trained link once region G runs (02 R48, R49; 12 R347,
R348): each gives one answer, and only a key exchange or the end of a session changes anything else. -/
def Obligations.AttestationAnswers : Prop :=
  (∀ s : State, s.link.protocol ≠ 0 → s.gRuns = true →
    Machine.exec (.spdmMessage .primary .getVersion) s = .next (s.out (.answer 1 [0x12, 0x13])) ∧
    (∀ n, n ≠ 0 → Machine.exec (.spdmMessage .primary (.getCertificate n)) s = .next (s.out (.answer 15 []))) ∧
    Machine.exec (.spdmMessage .primary .setCertificate) s = .next (s.out (.answer 15 [])) ∧
    Machine.exec (.spdmMessage .primary .getCapabilities) s = .next (s.out (.answer 12 (le 4 65536))) ∧
    Machine.exec (.spdmMessage .primary .negotiateAlgorithms) s = .next (s.out (.answer 13 [1, 44, 0])) ∧
    completes (.spdmMessage .primary .keyExchange) s (fun u =>
      u.link = { s.link with spdmSessions := s.link.spdmSessions + 1 } ∧ changesOnly [.out, .link] s u) ∧
    completes (.spdmMessage .primary .endSession) s (fun u =>
      u.link = { s.link with spdmSessions := s.link.spdmSessions - 1 } ∧ changesOnly [.out, .link] s u) ∧
    (∀ i, 1 ≤ i → i ≤ 6 → Machine.exec (.getMeasurements .primary i false) s = .next (s.out (.answer 6 (s.measurement i)))) ∧
    (∀ (i : Nat) (b : Bool), i = 0 ∨ (6 < i ∧ i ≠ 255) →
      Machine.exec (.getMeasurements .primary i b) s = .next (s.out (.answer 15 []))) ∧
    completes (.doeDiscovery 3) s (fun u => u.sent = s.sent ++ [.answer 7 (le 2 0x1E98 ++ [2, 0])] ∧ changesOnly [.out] s u) ∧
    (∀ e, Machine.exec (.cdatTableAccess e) s = .next (s.out (.answer 8 (s.cdatEntry e))))) ∧
  (∀ s : State, s.link.protocol = 0 → ∀ (r : SpdmReq) (i e : Nat) (b : Bool),
    Machine.exec (.spdmMessage .primary r) s = .next s ∧ Machine.exec (.getMeasurements .primary i b) s = .next s ∧
    Machine.exec (.doeDiscovery i) s = .next s ∧ Machine.exec (.cdatTableAccess e) s = .next s)

/-- SMBUS_ARP, SET_ENDPOINT_ID and MCTP_CONTROL_MESSAGE (02 R52, R53): with 3.3 Vaux region A takes the address and the endpoint ID and
answers control messages; other messages get Retry Required (kind 0) until region G runs, and then an opcode that the card does not
implement gets Unsupported over MCTP (R41). LINK_ERROR (02 Table 2-21, 13 R387): on a trained link the error is counted in its ECC_LINK field
and reported as a correctable error; CRC errors set RAS bit 0, and replay errors bit 4, when the count stands at the threshold. D3HOT_ENTRY, D0_ENTRY, GDDR7_SELF_REFRESH_ENTRY, ASPM_L1_ENTRY and ASPM_L1_EXIT (12 R345). -/
def Obligations.ManagementBus : Prop :=
  (∀ s : State, s.pwr.inputs.vaux ≠ 0 →
    (∀ a, Machine.exec (.smbusArp a) s = .next { s with link := { s.link with smbusAddress := a } }) ∧
    (∀ e, completes (.setEndpointId e) s (fun u => u.link = { s.link with eid := e } ∧
      u.sent = s.sent ++ [.answer 9 [e]] ∧ changesOnly [.out, .link] s u)) ∧
    Machine.exec (.mctpControlMessage .control) s = .next (s.out (.answer 10 [s.link.eid])) ∧
    (∀ m, m ≠ .control → s.boot.recovery = false → s.gRuns = false → Machine.exec (.mctpControlMessage m) s = .next (s.out (.answer 0 []))) ∧
    (∀ op, s.boot.recovery = false → s.gRuns = true → commandTable.any (fun c => c.1 == op) = false →
      s.key.erasing ≠ some 0x4400 → Machine.exec (.mctpControlMessage (.cci op)) s = .next (s.reply .mctp op .unsupported))) ∧
  (∀ s : State, s.link.protocol ≠ 0 →
    completes (.linkError .receiver) s (fun u => u.link = { s.link with aerCor := s.link.aerCor ||| 1 } ∧
      u.sent = s.sent ++ [.aer .correctable 255 0] ∧ regsBut [(ECC_LINK.receiver, 0)] s u ∧ changesOnly [.out, .regs, .link] s u) ∧
    completes (.linkError .crc) s (fun u => u.link.aerCor = s.link.aerCor ||| 64 ∧
      (u.sent = s.sent ++ [.aer .correctable 255 0] ∨ u.sent = s.sent ++ [.aer .correctable 255 0, .ras 0]) ∧
      (s.reg ECC_LINK.crc + 1 < ECC_LINK.crc.size → u.reg ECC_LINK.crc = s.reg ECC_LINK.crc + 1) ∧
      regsBut [(ECC_LINK.crc, 0)] s u ∧ changesOnly [.out, .regs, .link] s u) ∧
    completes (.linkError .replay) s (fun u => u.link.aerCor = s.link.aerCor ||| 256 ∧
      (u.sent = s.sent ++ [.aer .correctable 255 0] ∨ u.sent = s.sent ++ [.aer .correctable 255 0, .ras 4]) ∧
      (s.reg ECC_LINK.replays + 1 < ECC_LINK.replays.size → u.reg ECC_LINK.replays = s.reg ECC_LINK.replays + 1) ∧
      regsBut [(ECC_LINK.replays, 0)] s u ∧ changesOnly [.out, .regs, .link] s u)) ∧
  (∀ (t : Nat) (s : State), s.link.protocol ≠ 0 → completes (.d3hotEntry t) s (fun u =>
    u.link = { s.link with d3hot := true } ∧ u.cch = { s.cch with writeback := true } ∧ changesOnly [.time, .link, .cch] s u)) ∧
  (∀ (t : Nat) (s : State), completes (.d0Entry t) s (fun u =>
    u.link = { s.link with d3hot := false } ∧ changesOnly [.time, .link] s u)) ∧
  (∀ (t : Nat) (s : State), s.link.d3hot = true → (s.tick t).staged = 0 → s.qos.lastReqAt + 100 * msec ≤ max s.now t →
    completes (.gddr7SelfRefreshEntry t) s (fun u => u.link = { s.link with selfRefresh := true } ∧
      u.pwr = { s.pwr with gated := s.pwr.gated ||| 0x3C00#30 } ∧ changesOnly [.time, .link, .pwr] s u)) ∧
  (∀ s : State, s.run.link.aspmL1 = true → s.link.protocol ≠ 0 →
    Machine.exec .aspmL1Entry s = .next { s with link := { s.link with l1 := true } }) ∧
  (∀ s : State, s.run.link.aspmL1 = false → Machine.exec .aspmL1Entry s = .next s) ∧
  (∀ s : State, Machine.exec .aspmL1Exit s = .next { s with link := { s.link with l1 := false } })

/-- INPUT_QUALIFIED, RAIL_ENABLE_SLOT, RAIL_POWER_GOOD and MINIMUM_OFF_TIME_END (11 R303). An input
in range for 5 ms with nothing holding the card off is qualified and begins a power-up from the common start, and during a power-down is held with event 0x515. A rail is enabled from its
slot on, its power-good within half its timeout is not late, rail 13 starts the charger, and the last power-good ends the sequence. -/
def Obligations.PowerUpSequence : Prop :=
  (∀ (t a : Nat) (s : State), s.inputsOk = true → s.pwr.qualified = false → s.pwr.okSince = some a → a + 5 * msec ≤ max s.now t →
    s.mayPowerUp = true → (s.tick t).downRuns = false →
    completes (.inputQualified t) s (fun u => changesOnly [.time, .pwr, .thm] s u ∧ u.thm.sensors = s.thm.sensors ∧
      u.pwr = { s.pwr with
        qualified := true, sequence := 1, common := max s.now t, covered := 0, attempts := 1, onHeld := false, offUntil := none })) ∧
  (∀ (t a : Nat) (s : State), s.inputsOk = true → s.pwr.qualified = false → s.pwr.okSince = some a → a + 5 * msec ≤ max s.now t →
    s.pwr.sequence = 2 → s.pwr.onHeld = false →
    completes (.inputQualified t) s (fun u => u.pwr = { s.pwr with qualified := true, onHeld := true } ∧
      changesOnly [.time, .pwr, .out, .events] s u)) ∧
  (∀ (t a : Nat) (s : State), s.pwr.okSince = some a → max s.now t < a + 5 * msec →
    Machine.exec (.inputQualified t) s = .next (s.tick t)) ∧
  (∀ (t : Nat) (rail : Fin 14) (s : State), rail.val ≠ 0 → s.pwr.sequence = 1 → (s.rail rail.val).enabled = false →
    s.pwr.common + 10000 * (s.slotOf rail.val).on ≤ max s.now t →
    Machine.exec (.railEnableSlot t rail) s = .next ((s.tick t).setRail rail.val
      { s.rail rail.val with enabled := true, pg := false, enabledAt := max s.now t })) ∧
  (∀ (t : Nat) (rail : Fin 14) (s : State), rail.val ≠ 0 → s.pwr.sequence = 1 → (s.rail rail.val).enabled = true →
    (s.rail rail.val).pg = false → (s.rail rail.val).enabledAt ≤ max s.now t →
    2 * (max s.now t - (s.rail rail.val).enabledAt) ≤ 10000 * (s.slotOf rail.val).pg →
    completes (.railPowerGood t rail) s (fun u =>
      u.pwr.rails = setAt s.pwr.rails rail.val { s.rail rail.val with pg := true } ∧
      (u.railsOn = true → u.pwr.sequence = 0) ∧ (u.railsOn = false → u.pwr.sequence = 1) ∧
      (rail.val = 13 → u.pfl = { s.pfl with charging := true, discharging := false }) ∧ (rail.val ≠ 13 → u.pfl = s.pfl) ∧
      changesOnly [.time, .pwr, .pfl] s u)) ∧
  (∀ (t e : Nat) (s : State), s.pwr.offUntil = some e → e ≤ max s.now t →
    completes (.minimumOffTimeEnd t) s (fun u => u.pwr.offUntil = none ∧ u.pwr.onHeld = false ∧
      (s.inputsOk = false → u.pwr.sequence = s.pwr.sequence) ∧ changesOnly [.time, .pwr, .thm] s u)) ∧
  (∀ (t e : Nat) (s : State), s.pwr.offUntil = some e → max s.now t < e →
    Machine.exec (.minimumOffTimeEnd t) s = .next (s.tick t))

/-- RAIL_DISABLE_SLOT, RAIL_PG_DEASSERT and RAIL_PG_TIMEOUT (11 R303 to R305). In a power-down a rail is disabled from its slot on;
power-good that falls before its disable is an early loss that is counted with event 0x50F. Outside a sequence none of them acts. In
a power-up a rail without power-good at its timeout is counted and the power-down begins; it is tried again after a first failure. -/
def Obligations.PowerDownSequence : Prop :=
  (∀ (t : Nat) (rail : Fin 14) (s : State), s.covers rail.val = true → (s.rail rail.val).enabled = true →
    (s.rail rail.val).pg = true → s.pwr.common + 10000 * (s.slotOf rail.val).off ≤ max s.now t →
    completes (.railDisableSlot t rail) s (fun u =>
      u.pwr = { s.pwr with
        rails := setAt s.pwr.rails rail.val { s.rail rail.val with enabled := false, disabledAt := max s.now t } } ∧
      (rail.val = 13 → u.pfl = { s.pfl with charging := false, discharging := true }) ∧ (rail.val ≠ 13 → u.pfl = s.pfl) ∧
      changesOnly [.time, .pwr, .pfl] s u)) ∧
  (∀ (t : Nat) (rail : Fin 14) (s : State), s.covers rail.val = true → (s.rail rail.val).enabled = true →
    (s.rail rail.val).pg = true →
    completes (.railPgDeassert t rail) s (fun u =>
      u.pwr = { s.pwr with
        rails := setAt s.pwr.rails rail.val { s.rail rail.val with pg := false, pgLost := min 65535 ((s.rail rail.val).pgLost + 1) } } ∧
      changesOnly [.time, .pwr, .out, .events] s u)) ∧
  (∀ (t : Nat) (rail : Fin 14) (s : State), s.covers rail.val = true → (s.rail rail.val).enabled = false →
    (s.rail rail.val).pg = true → s.pwr.covered &&& ~~~(BitVec.twoPow 14 rail.val) ≠ 0 →
    completes (.railPgDeassert t rail) s (fun u =>
      u.pwr = { s.pwr with
        rails := setAt s.pwr.rails rail.val { s.rail rail.val with pg := false },
        covered := s.pwr.covered &&& ~~~(BitVec.twoPow 14 rail.val) } ∧
      changesOnly [.time, .pwr] s u)) ∧
  (∀ (t : Nat) (rail : Fin 14) (s : State), s.pwr.sequence = 1 → (s.rail rail.val).enabled = true →
    (s.rail rail.val).pg = false → (s.rail rail.val).enabledAt + 10000 * (s.slotOf rail.val).pg ≤ max s.now t →
    completes (.railPgTimeout t rail) s (fun u =>
      u.pwr.rails = setAt s.pwr.rails rail.val { s.rail rail.val with timeouts := min 65535 ((s.rail rail.val).timeouts + 1) } ∧
      u.pwr.sequence = 2 ∧ u.pwr.common = max s.now t ∧ (u.pwr.onHeld = true ↔ s.pwr.attempts = 1) ∧
      (u.pwr.latchedOff = true ↔ s.pwr.attempts ≠ 1) ∧ changesOnly [.time, .pwr, .out, .events] s u)) ∧
  (∀ (t : Nat) (rail : Fin 14) (s : State), s.pwr.sequence = 0 →
    Machine.exec (.railDisableSlot t rail) s = .next (s.tick t) ∧ Machine.exec (.railPgTimeout t rail) s = .next (s.tick t) ∧
    Machine.exec (.railPgDeassert t rail) s = .next (s.tick t) ∧ Machine.exec (.railEnableSlot t rail) s = .next (s.tick t))

/-- RAIL_PG_LOST while no sequence runs (11 R306, Table 11-6): the loss is counted (with overTemp also as a regulator shutdown), event
0x500 + rail is raised, and rail 1 to 3 begin the power-down, rail 4 and 5 fatal handling, rail 6 to 12 fatal handling without a dump,
rail 13 write-through mode with cause 1. Rail 0 lost stops region A and everything with it. -/
def Obligations.RailLossActions : Prop :=
  (∀ (t : Nat) (rail : Fin 14) (b : Bool) (s : State), rail.val ≠ 0 → rail.val < 13 → s.pwr.sequence = 0 → s.fab.fatal = false →
    (s.rail rail.val).enabled = true → (s.rail rail.val).pg = true →
    completes (.railPgLost t rail b) s (fun u =>
      (rail.val ≤ 3 → u.pwr.sequence = 2 ∧ u.pwr.common = max s.now t ∧ u.fab.fatal = false ∧ u.pfl.dump = s.pfl.dump) ∧
      (4 ≤ rail.val → u.fab.fatal = true ∧ u.link.heldDown = true ∧ u.ring.bypass = true ∧
        (s.pfl.dump = none → u.pwr.needPerst = true)) ∧
      (6 ≤ rail.val → u.pwr.sequence = 2 ∧ u.pwr.needPerst = true ∧ u.pfl.dump = s.pfl.dump) ∧
      (s.cch.near.all (fun e => !e.2.filling) = true → u.cch.near = s.cch.near) ∧ u.key.slots = s.key.slots ∧ u.tly.rows = s.tly.rows)) ∧
  (∀ (t : Nat) (b : Bool) (s : State), s.pwr.sequence = 0 → (s.rail 13).enabled = true → (s.rail 13).pg = true →
    completes (.railPgLost t 13 b) s (fun u => u.pfl.health = 2 ∧ u.pfl.charging = false ∧
      (s.pfl.wt = none → u.pfl.wt = some (1, max s.now t)) ∧ u.pwr.sequence = 0)) ∧
  (∀ (t : Nat) (b : Bool) (s : State), s.pwr.inputs.vaux ≠ 0 →
    completes (.railPgLost t 0 b) s (fun u => u.pwr.inputs = { s.pwr.inputs with vaux := 0 } ∧ u.link.protocol = 0 ∧
      u.cch.near = [] ∧ u.tly.queue = [] ∧ u.link.timestamp = none ∧ u.ring.bypass = true)) ∧
  (∀ (t : Nat) (rail : Fin 14) (b : Bool) (s : State), rail.val ≠ 0 → (s.rail rail.val).enabled = false →
    Machine.exec (.railPgLost t rail b) s = .next (s.tick t))

/-- INPUT_LEVEL_CHANGE, POWER_BRAKE_APPLY and POWER_BRAKE_RELEASE (11 R297, R304; 14 R392, R393). With rails off new levels are only
taken; while a dump runs no level starts anything. The brake holds both throttles at level 2 and a release sets its last duration. -/
def Obligations.InputsAndBrake : Prop :=
  (∀ (t : Nat) (i : Inputs) (s : State), s.pwr.inputs.vaux ≠ 0 → s.pfl.dump.isSome = true → s.railsOff = false →
    completes (.inputLevelChange t i) s (fun u =>
      u.pwr.inputs = { i with vaux := if i.vaux = 0 then s.pwr.inputs.vaux else i.vaux } ∧
      (u.pwr.qualified = true ↔ s.pwr.qualified = true ∧ u.inputsOk = true) ∧ u.pfl = s.pfl ∧
      u.pwr.sequence = s.pwr.sequence ∧ u.pwr.rails = s.pwr.rails)) ∧
  (∀ (t : Nat) (i : Inputs) (s : State), s.pwr.inputs.vaux ≠ 0 → s.pfl.dump.isSome = false → s.railsOff = false →
    s.pwr.sequence = 0 → i.v33 ≤ 3000 → s.thm.heldAt = none →
    completes (.inputLevelChange t i) s (fun u => u.pwr.sequence = 2 ∧ u.pwr.common = max s.now t ∧ u.link.protocol = 0 ∧
      u.pfl.dump = none ∧ u.qos.ctxs = [] ∧ u.cch.near = s.cch.near)) ∧
  (∀ (t : Nat) (i : Inputs) (s : State), s.pwr.inputs.vaux = 0 → Machine.exec (.inputLevelChange t i) s = .next (s.tick t)) ∧
  (∀ (t : Nat) (s : State), s.pwr.brake = none → s.pfl.dump = none → s.thm.stopping = none → s.railsOff = false →
    completes (.powerBrakeApply t) s (fun u => u.pwr = { s.pwr with brake := some (max s.now t) } ∧
      u.asicThrottle = 2 ∧ u.mediaThrottle = 2 ∧ regsBut [(PWR_BRAKE.assertions, 0)] s u ∧
      changesOnly [.time, .pwr, .regs, .out, .events] s u)) ∧
  (∀ (t b : Nat) (s : State), s.pwr.brake = some b →
    completes (.powerBrakeRelease t) s (fun u => u.pwr = { s.pwr with brake := none } ∧
      u.reg PWR_BRAKE.last_ms = min 65535 ((max s.now t - b) / 1000000) ∧ regsBut [(PWR_BRAKE.last_ms, 0)] s u ∧
      changesOnly [.time, .pwr, .regs, .out, .events] s u)) ∧
  (∀ (t : Nat) (s : State), s.pwr.brake ≠ none ∨ s.pfl.dump ≠ none ∨ s.thm.stopping ≠ none →
    Machine.exec (.powerBrakeApply t) s = .next (s.tick t))

/-- SENSOR_SAMPLE, ORDERLY_STOP_LINK_DOWN and THERMAL_HOLD_RETRY (11 R310 to R320). A sample stores the reading and slope of its own sensor
alone; one that agrees with its neighbours ends the run of deviating samples, the third deviating one in a row breaks the sensor. The
orderly stop takes the link down 1 ms after its clean mark and needs PERST_N to start again; a thermal hold is tried again after 10 s. -/
def Obligations.ThermalCommands : Prop :=
  (∀ (t : Nat) (i : Fin 64) (c sl : Int) (s : State), s.pwr.inputs.vaux ≠ 0 → s.sensorFitted i.val = true →
    completes (.sensorSample t i c sl) s (fun u => u.now = max s.now t ∧ ∃ x : Sensor,
      u.thm.sensors = setAt s.thm.sensors i.val x ∧
      (i.val < s.thm.sensors.length → x.reading = c ∧ x.slope = sl ∧ x.sampled = true ∧
        x.deviating = deviates c (s.usable i.val) ∧
        x.devRun = (if deviates c (s.usable i.val) = true then (s.sensor i.val).devRun + 1 else 0) ∧
        x.broken = ((s.sensor i.val).broken || decide (3 ≤ x.devRun)) ∧ (x.broken = false → x.used = c)))) ∧
  (∀ (t : Nat) (c sl : Int) (s : State), s.pwr.inputs.vaux ≠ 0 → (s.sensor 63).broken = false →
    deviates c (s.usable 63) = false → completes (.sensorSample t 63 c sl) s (fun u => changesOnly [.time, .thm] s u)) ∧
  (∀ (t : Nat) (i : Fin 64) (c sl : Int) (s : State), s.pwr.inputs.vaux = 0 →
    Machine.exec (.sensorSample t i c sl) s = .next (s.tick t)) ∧
  (∀ (t t0 : Nat) (s : State), s.thm.stopping = some t0 → s.pfl.flush = none → s.pfl.clean = true →
    s.pfl.flushStart + 1000000 ≤ max s.now t →
    completes (.orderlyStopLinkDown t) s (fun u => u.pwr.sequence = 2 ∧ u.pwr.common = max s.now t ∧ u.pwr.needPerst = true ∧
      u.link.protocol = 0 ∧ u.thm.stopping = none ∧ u.pfl.dump = s.pfl.dump ∧ u.pfl.clean = true)) ∧
  (∀ (t t0 : Nat) (s : State), s.thm.stopping = some t0 → s.pfl.flush ≠ none →
    Machine.exec (.orderlyStopLinkDown t) s = .next (s.tick t)) ∧
  (∀ (t h : Nat) (s : State), s.thm.heldAt = some h → h + 10000000000 ≤ max s.now t → s.boot.perst = false →
    s.inputsOk = true → s.pwr.qualified = true → s.pwr.sequence = 0 → s.railsOff = true →
    completes (.thermalHoldRetry t) s (fun u => u.pwr.sequence = 1 ∧ u.pwr.common = max s.now t ∧ u.pwr.attempts = 1 ∧
      u.thm.heldAt = none ∧ changesOnly [.time, .pwr, .thm] s u))

/-- HOT_RESET, CXL_RESET and MANAGEMENT_RESET (12 R343, R346). Each frees the host contexts, takes back decoder commits, IDE keys and SPDM
sessions and counts itself; caches, medium, map and ring stay. A hot and a management reset take the link down; after a CXL Reset of a
complete start Memory_Active is set again. During a dump none of them acts, and with no 3.3 Vaux nothing answers a management reset. -/
def Obligations.HostResets : Prop :=
  (∀ (t : Nat) (s : State), s.link.protocol ≠ 0 → s.pfl.dump.isSome = false →
    completes (.hotReset t) s (fun u => u.qos.ctxs = [] ∧ u.qos.ingress = [] ∧ u.link.protocol = 0 ∧ u.link.memActive = false ∧
      u.link.ideMem = none ∧ u.link.spdmSessions = 0 ∧ u.link.background = none ∧ u.link.decoders = Link.atReset.decoders ∧
      u.flip.armed = none ∧ u.pfl = { s.pfl with gpf := false } ∧
      changesOnly [.time, .out, .events, .regs, .link, .qos, .fab, .tq, .key, .tly, .flip, .pfl] s u)) ∧
  (∀ (t : Nat) (s : State), s.cxlUp = true → s.pfl.dump.isSome = false →
    completes (.cxlReset t) s (fun u => u.qos.ctxs = [] ∧ u.qos.ingress = [] ∧ u.link.protocol = s.link.protocol ∧
      u.link.background = s.link.background ∧ u.link.decoders = Link.atReset.decoders ∧
      (s.boot.complete = true → s.replayDue = false → u.link.memActive = true) ∧
      (s.boot.complete = false → u.link.memActive = false) ∧
      changesOnly [.time, .out, .events, .regs, .link, .qos, .fab, .tq, .med, .pfl, .flip] s u)) ∧
  (∀ (t : Nat) (s : State), s.pwr.inputs.vaux ≠ 0 → s.boot.recovery = false → s.gRuns = true → s.pfl.dump.isSome = false →
    completes (.managementReset t) s (fun u => u.qos.ctxs = [] ∧ u.link.protocol = 0 ∧ u.link.memActive = false ∧
      u.pfl = { s.pfl with gpf := false } ∧ changesOnly [.time, .out, .events, .regs, .link, .qos, .fab, .tq, .key, .tly, .flip, .pfl] s u)) ∧
  (∀ (t : Nat) (s : State), s.pwr.inputs.vaux ≠ 0 → s.boot.recovery = false → s.gRuns = false →
    Machine.exec (.managementReset t) s = .next ((s.tick t).out (.answer 0 []))) ∧
  (∀ (t : Nat) (s : State), s.pfl.dump.isSome = true →
    Machine.exec (.hotReset t) s = .next (s.tick t) ∧ Machine.exec (.cxlReset t) s = .next (s.tick t))

/-- VAUX_APPLIED and VAUX_REMOVED (12 R343; 02 R52). Vaux brings up rail 0 alone, the boot slot table, the SMBus address 62h and endpoint
ID 0, and marks the next start as a cold power-on; its removal takes the volatile contents away and leaves medium, keys and tally rows. -/
def Obligations.VauxCommands : Prop :=
  (∀ (t : Nat) (s : State), s.pwr.inputs.vaux = 0 → s.tly.queue = [] →
    completes (.vauxApplied t) s (fun u => u.pwr.inputs = { s.pwr.inputs with vaux := 3300 } ∧ u.pwr.table = bootSlotTable ∧
      u.pwr.rails.drop 1 = s.pwr.rails.drop 1 ∧ u.boot = { s.boot with cold := true } ∧
      u.link = { s.link with smbusAddress := 0x62, eid := 0 } ∧ u.tly.wrong = [] ∧ u.tly.rows = s.tly.rows ∧
      changesOnly [.time, .regs, .events, .pwr, .boot, .link, .tly] s u)) ∧
  (∀ (t : Nat) (s : State), s.pwr.inputs.vaux ≠ 0 →
    completes (.vauxRemoved t) s (fun u => u.pwr.inputs = { s.pwr.inputs with vaux := 0 } ∧
      (∀ r ∈ u.pwr.rails, r.enabled = false) ∧ u.link.protocol = 0 ∧ u.link.timestamp = none ∧ u.cch.near = [] ∧
      u.cch.board = [] ∧ u.qos.ctxs = [] ∧ u.ring.bypass = true ∧ u.cal.vauxContinuous = false ∧ u.med.store = s.med.store ∧
      u.key.slots = s.key.slots ∧ u.tly.rows = s.tly.rows ∧ u.boot.fw = s.boot.fw)) ∧
  (∀ (t : Nat) (s : State), s.pwr.inputs.vaux ≠ 0 → Machine.exec (.vauxApplied t) s = .next (s.tick t)) ∧
  (∀ (t : Nat) (s : State), s.pwr.inputs.vaux = 0 → Machine.exec (.vauxRemoved t) s = .next (s.tick t))

/-- PERST_N_ASSERT and START (12 R343, R346; 09 R254; 11 R303). Asserted while the card serves, the link goes down, host state is freed and
flush-home begins; a dump ignores all but the pin. Deasserted with the rails on and no attempt running, a new attempt begins at step 0x01
with the next attempt number; with the rails off and a qualified input it is a power-up request. -/
def Obligations.PerstAndStart : Prop :=
  (∀ (t : Nat) (s : State), s.boot.perst = false → s.pfl.dump.isSome = false → s.boot.complete = true → s.railsOn = true →
    s.pwr.sequence = 0 → s.pfl.flush = none →
    completes (.perstNAssert t) s (fun u => u.boot.perst = true ∧ u.boot.complete = true ∧ u.boot.hold = false ∧
      u.link.protocol = 0 ∧ u.link.memActive = false ∧ u.link.mboxReady = false ∧ u.qos.ctxs = [] ∧ u.ring.bypass = true ∧
      u.pfl.flush = some (max s.now t) ∧ u.cch = { s.cch with writeback := true } ∧ u.tly.wrong = [] ∧
      changesOnly [.time, .out, .regs, .events, .link, .qos, .fab, .tq, .key, .tly, .flip, .boot, .thm, .map, .ring, .pfl, .cch] s u)) ∧
  (∀ (t : Nat) (s : State), s.boot.perst = false → s.pfl.dump.isSome = true →
    Machine.exec (.perstNAssert t) s = .next { s.tick t with boot := { s.boot with perst := true } }) ∧
  (∀ (t : Nat) (s : State), s.boot.perst = true → Machine.exec (.perstNAssert t) s = .next (s.tick t)) ∧
  (∀ (t : Nat) (s : State), s.boot.perst = true → s.pfl.dump = none → s.thm.stopping = none → s.railsOn = true →
    s.pwr.sequence = 0 → s.boot.running = false → s.boot.hold = false → s.boot.recovery = false → s.thm.recheck = false →
    completes (.start t) s (fun u => u.boot.perst = false ∧ u.boot.perstAt = max s.now t ∧ u.boot.running = true ∧
      u.boot.step = 1 ∧ u.boot.attempt = s.boot.attempt + 1 ∧ u.boot.cause = (if s.boot.cold = true then 0 else 1) ∧
      u.pwr.needPerst = false ∧ u.fab.fenced = 0 ∧ u.med.froCauses = [] ∧ u.pfl.wt = none ∧ u.link.heldDown = false)) ∧
  (∀ (t : Nat) (s : State), s.boot.perst = true → s.pfl.dump = none → s.thm.stopping = none → s.railsOff = true →
    s.railsOn = false → s.pwr.sequence = 0 → s.inputsOk = true → s.pwr.qualified = true → s.pwr.offUntil = none →
    s.thm.heldAt = none →
    completes (.start t) s (fun u => u.boot = { s.boot with perst := false, perstAt := max s.now t, complete := false } ∧
      u.pwr.sequence = 1 ∧ u.pwr.common = max s.now t ∧ u.pwr.latchedOff = false ∧ changesOnly [.time, .boot, .pwr, .thm] s u)) ∧
  (∀ (t : Nat) (s : State), s.boot.perst = false → Machine.exec (.start t) s = .next (s.tick t))

/-- BOOT_STEP (12 R328, R329, R342; 02 R56). With rails on and no attempt it begins one; step 0x01 with no thermal hold to check passes by
method 0 and step 0x02 begins; step 0x0B waits until the card has joined its ring; step 0x0D completes the start, makes the running slot
fw_good, counts no training failure, and sets Memory_Active where the link runs CXL and no dump waits. -/
def Obligations.BootSteps : Prop :=
  (∀ (t : Nat) (b : BootIn) (s : State), s.boot.running = false → s.mayStart = true → s.thm.recheck = false →
    completes (.bootStep t b) s (fun u => u.boot.running = true ∧ u.boot.step = 1 ∧ u.boot.attempt = s.boot.attempt + 1 ∧
      u.boot.startAt = max s.now t ∧ u.boot.perst = false)) ∧
  (∀ (t : Nat) (b : BootIn) (s : State), s.boot.running = true → s.boot.step = 1 → s.thm.recheck = false →
    completes (.bootStep t b) s (fun u => u.boot.step = 2 ∧ u.boot.running = true ∧ u.boot.stepStart = max s.now t ∧
      u.boot.methods = setAt s.boot.methods 0 0 ∧ u.boot.alternates = s.boot.alternates ∧
      changesOnly [.time, .boot, .tly, .regs, .out, .events] s u)) ∧
  (∀ (t : Nat) (b : BootIn) (s : State), s.boot.running = true → s.boot.step = 11 → s.ring.joined = false →
    Machine.exec (.bootStep t b) s = .next (s.tick t)) ∧
  (∀ (t : Nat) (b : BootIn) (s : State), s.boot.running = true → s.boot.step = 13 →
    completes (.bootStep t b) s (fun u => u.boot.complete = true ∧ u.boot.running = false ∧ u.boot.cold = false ∧
      u.boot.failure = [] ∧ u.boot.trainFails = 0 ∧ (s.cxlUp = true → s.replayDue = false → u.link.memActive = true) ∧
      (s.cxlUp = false → u.link.memActive = s.link.memActive) ∧ u.med.store = s.med.store ∧ u.map = s.map ∧ u.key = s.key)) ∧
  (∀ (t : Nat) (b : BootIn) (s : State), s.boot.running = false → s.boot.complete = true →
    Machine.exec (.bootStep t b) s = .next (s.tick t))

/-- LAST_RESORT_SCAN_END, EXTENT_TABLE_SAVE and CHIP_WATCHDOG_EXPIRY (02 R56; 08 R199; 12 R329, R346; 01 R30). The scan's end makes the
media Ready; the extents of the image are saved once after a start; an expiry is counted, frees the host and takes the link down, and
during a start ends the attempt with outcome 3 and begins the next with cause 2. -/
def Obligations.AfterTheStart : Prop :=
  (∀ (t : Nat) (s : State), s.link.scanRunning = true →
    completes (.lastResortScanEnd t) s (fun u => u.link = { s.link with scanRunning := false } ∧
      changesOnly [.time, .out, .events, .link] s u)) ∧
  (∀ (t : Nat) (s : State), s.link.scanRunning = false → Machine.exec (.lastResortScanEnd t) s = .next (s.tick t)) ∧
  (∀ s : State, s.boot.complete = true → s.boot.saveExtents = true → s.gRuns = true →
    completes .extentTableSave s (fun u => u.boot = { s.boot with savedExtents := some s.key.extents, saveExtents := false } ∧
      u.tly.rows = s.tly.rows ∧ changesOnly [.time, .boot, .tly, .regs, .out, .events] s u)) ∧
  (∀ s : State, s.boot.saveExtents = false → Machine.exec .extentTableSave s = .next s) ∧
  (∀ (t : Nat) (s : State), s.pfl.dump = none → s.coreOn = true → s.pwr.sequence = 0 → s.boot.running = false →
    s.boot.complete = true →
    completes (.chipWatchdogExpiry t) s (fun u => u.link.protocol = 0 ∧ u.qos.ctxs = [] ∧ u.link.memActive = false ∧
      u.boot = s.boot ∧ u.pfl = { s.pfl with gpf := false } ∧
      changesOnly [.time, .out, .events, .regs, .link, .qos, .fab, .tq, .key, .tly, .flip, .pfl] s u)) ∧
  (∀ (t : Nat) (s : State), s.pfl.dump = none → s.coreOn = true → s.pwr.sequence = 0 → s.boot.running = true →
    completes (.chipWatchdogExpiry t) s (fun u => u.boot.running = true ∧ u.boot.step = 1 ∧ u.boot.cause = 2 ∧
      u.boot.attempt = s.boot.attempt + 1 ∧ u.boot.failure = s.boot.failureOf ∧ u.fab.fenced = s.fab.fenced)) ∧
  (∀ (t : Nat) (s : State), s.pfl.dump.isSome = true → Machine.exec (.chipWatchdogExpiry t) s = .next (s.tick t))

/-- POWER_FAILURE (09 R249, R259, R263; 11 R304). While the card serves with an Armed slot the dump of that slot begins with cause 0: requests
and link are given up, rails 4 and 5 go off, and the caches are kept. With the log running, or before the start is complete, nothing
is dumped and the power-down begins. A region that restarts delays the dump; a dump that runs is not disturbed. -/
def Obligations.PowerFailureBegins : Prop :=
  (∀ (t i : Nat) (s : State), s.pfl.dump = none → s.pwr.sequence = 0 → s.railsOff = false → s.fab.restarts = [] →
    s.dumpSlot = some i → s.boot.complete = true → s.cch.fills = [] →
    completes (.powerFailure t) s (fun u => u.pfl.dump = some ⟨i, 0, max s.now t, 0, s.staged, none⟩ ∧ u.pwr.sequence = 3 ∧
      u.pwr.rails.drop 6 = s.pwr.rails.drop 6 ∧ (∀ r ∈ (u.pwr.rails.drop 4).take 2, r.enabled = false) ∧
      u.pwr.qualified = false ∧ u.link.protocol = 0 ∧ u.qos.ctxs = [] ∧ u.pfl.charging = false ∧ u.pfl.failedPower = true ∧
      (s.cch.near.all (fun e => !e.2.filling) = true → u.cch = s.cch) ∧ u.key.slots = s.key.slots ∧ u.med.store = s.med.store)) ∧
  (∀ (t : Nat) (s : State), s.pfl.dump = none → s.pwr.sequence = 0 → s.railsOff = false → s.fab.restarts = [] →
    s.dumpSlot = none → completes (.powerFailure t) s (fun u => u.pfl.dump = none ∧ u.pwr.sequence = 2 ∧
      u.pwr.common = max s.now t ∧ u.link.protocol = 0 ∧ u.pfl.slots = s.pfl.slots)) ∧
  (∀ (t : Nat) (s : State), s.pfl.dump = none → s.pwr.sequence = 0 → s.railsOff = false → s.fab.restarts ≠ [] →
    completes (.powerFailure t) s (fun u => u.pfl = s.pfl ∧ (∀ r ∈ u.fab.restarts, r.dumpWaits = true) ∧
      u.fab.restarts.length = s.fab.restarts.length ∧ changesOnly [.time, .pwr, .fab] s u)) ∧
  (∀ (t : Nat) (s : State), s.pfl.dump.isSome = true →
    Machine.exec (.powerFailure t) s = .next { s.tick t with pwr := { s.pwr with qualified := false, okSince := none } })

/-- DUMP_PART_WRITTEN, DUMP_TRAILER_WRITTEN and INPUT_RETURN_DURING_DUMP (09 R246 to R252). A part counts only in its place in the order; the
directory lists every dirty line of the caches; the trailer after the eighth part makes the slot Holding, sets outcome 1, and the rails
go off with VSTORE discharged. An input that returns is noted once, and the dump goes on. -/
def Obligations.DumpWrites : Prop :=
  (∀ (t : Nat) (p : DumpPart) (d : Dump) (s : State), s.pfl.dump = some d → d.stage = dumpStage p →
    completes (.dumpPartWritten t p) s (fun u => u.pfl.dump = some { d with stage := d.stage + 1 } ∧
      (s.cch.near.all (fun e => e.2.badTags == 0 && e.2.badData == 0) = true → changesOnly [.time, .pfl] s u ∧
        u.pfl = { s.pfl with
          dump := some { d with stage := d.stage + 1 }, slots := setAt s.pfl.slots d.slot (s.dumpPart d (s.slotD d.slot) p) }))) ∧
  (∀ (t : Nat) (p : DumpPart) (d : Dump) (s : State), s.pfl.dump = some d → d.stage ≠ dumpStage p →
    Machine.exec (.dumpPartWritten t p) s = .next (s.tick t)) ∧
  (∀ (d : Dump) (x : DumpSlot) (s : State), (s.dumpPart d x .headDirectory).lines = s.dumpList ∧
    (s.dumpPart d x .headDirectory).headSealed = true ∧ (s.dumpPart d x .header).st = 2 ∧ (s.dumpPart d x .header).trailer = false ∧
    (s.dumpPart d x .integrity).topSeq = some (s.key.topSeq + 1)) ∧
  (∀ (t e : Nat) (d : Dump) (s : State), s.pfl.dump = some d → d.stage = 8 →
    completes (.dumpTrailerWritten t e) s (fun u => u.pfl.dump = none ∧ u.pfl.discharging = true ∧ u.pwr.sequence = 2 ∧
      u.pfl.slots = setAt s.pfl.slots d.slot { s.slotD d.slot with st := 2, trailer := true } ∧
      u.reg PFL_LAST_DUMP.outcome = 1 ∧ changesOnly [.time, .pfl, .pwr, .regs, .events, .tly] s u)) ∧
  (∀ (t e : Nat) (d : Dump) (s : State), s.pfl.dump = some d → d.stage ≠ 8 →
    Machine.exec (.dumpTrailerWritten t e) s = .next (s.tick t)) ∧
  (∀ (t : Nat) (d : Dump) (s : State), s.pfl.dump = some d → d.cause = 0 → d.inputBack = none →
    completes (.inputReturnDuringDump t) s (fun u => u.pfl = { s.pfl with dump := some { d with inputBack := some (max s.now t) } } ∧
      u.pwr = { s.pwr with okSince := some (max s.now t) } ∧ changesOnly [.time, .pfl, .pwr, .out, .events] s u)) ∧
  (∀ (t : Nat) (s : State), s.pfl.dump = none → Machine.exec (.inputReturnDuringDump t) s = .next (s.tick t))

/-- FLUSH_HOME_COMPLETE, SLOT_ARMED, GPF_PHASE1 and GPF_PHASE2 (09 R244, R254, R264; 08 R215). Flush-home completes once nothing staged is left
and no write home is on its way: the clean mark is set and the tree top and the committed epoch go to the tally store. A blank slot
arms with the next sequence. Both GPF phases are answered and write nothing. -/
def Obligations.FlushHomeAndGpf : Prop :=
  (∀ (t f : Nat) (s : State), s.pfl.flush = some f → s.flushed = true →
    completes (.flushHomeComplete t) s (fun u => u.pfl.flush = none ∧ u.pfl.clean = true ∧ u.pfl.flushStart = max s.now t ∧
      u.cch.writeback = false ∧ u.key.tallyTop = some u.key.topSeq ∧ u.ring.tallyEpoch = some s.ring.committed ∧
      u.link = s.link ∧ u.pwr = s.pwr ∧ u.boot = s.boot ∧ u.now = max s.now t)) ∧
  (∀ (t f : Nat) (s : State), s.pfl.flush = some f → s.flushed = false →
    Machine.exec (.flushHomeComplete t) s = .next (s.tick t)) ∧
  (∀ (t : Nat) (i : Fin 2) (s : State), (s.slotD i.val).st = 0 → s.boot.complete = true → s.railsOn = true → s.pfl.dump = none →
    completes (.slotArmed t i) s (fun u =>
      u.pfl.slots = setAt s.pfl.slots i.val
        { DumpSlot.atReset with st := 1, seq := s.nextDumpSeq, key := s.fresh, drainStart := max s.now t } ∧
      changesOnly [.time, .pfl, .tly, .regs, .events] s u)) ∧
  (∀ (t : Nat) (i : Fin 2) (s : State), (s.slotD i.val).st ≠ 0 → Machine.exec (.slotArmed t i) s = .next (s.tick t)) ∧
  (∀ s : State, s.cxlUp = true → Machine.exec .gpfPhase1 s = .next (s.out (.answer 12 [])) ∧
    completes .gpfPhase2 s (fun u => u.pfl = { s.pfl with gpf := true } ∧ u.sent = s.sent ++ [.answer 13 []] ∧
      changesOnly [.out, .pfl] s u)) ∧
  (∀ s : State, s.cxlUp = false → Machine.exec .gpfPhase1 s = .next s ∧ Machine.exec .gpfPhase2 s = .next s)

/-- LOG_SECTOR_WRITTEN, TREE_TOP_LOG_RECORD and BUDGET_COMPUTE (09 R237, R242, R243, R260). The log takes a waiting line into its next sector
of 256 bytes. The budget is computed from VSTORE and the store temperature as measured, never above 10 GiB, in steps of 16 MiB, and
below 256 MiB a card with an Armed slot enters write-through mode with cause 0. -/
def Obligations.WriteThroughAndBudget : Prop :=
  (∀ (t i : Nat) (k : BitVec 37) (d : DumpLine) (s : State), s.pfl.slots.findIdx? (fun d => d.st == 4) = some i → s.writeThrough = true →
    s.pfl.dump = none → s.link.maint = [] → s.logWaiters k.toNat ≠ [] → i < s.pfl.slots.length →
    s.mergedLine k.toNat (largest ((s.slotD i).lines.map (·.part)) + 1) = some d →
    completes (.logSectorWritten t [k]) s (fun u => u.pfl.slots = setAt s.pfl.slots i
      { s.slotD i with lines := (s.slotD i).lines ++ [d], logUsed := (s.slotD i).logUsed + 256 } ∧ u.cch = s.cch ∧ u.map = s.map)) ∧
  (∀ (t i : Nat) (s : State), s.pfl.slots.findIdx? (fun d => d.st == 4) = some i → s.writeThrough = true →
    completes (.treeTopLogRecord t) s (fun u => u.key = { s.key with topSeq := s.key.topSeq + 1 } ∧
      u.pfl = { s.pfl with slots := setAt s.pfl.slots i { s.slotD i with topSeq := some (s.key.topSeq + 1) } } ∧
      changesOnly [.time, .key, .pfl] s u)) ∧
  (∀ (t : Nat) (l : List (BitVec 37)) (s : State), s.writeThrough = false → Machine.exec (.logSectorWritten t l) s = .next (s.tick t) ∧
    Machine.exec (.treeTopLogRecord t) s = .next (s.tick t)) ∧
  (∀ (t : Nat) (r : StoreRead) (s : State), s.pfl.dump = none →
    completes (.budgetCompute t r) s (fun u => u.pfl.vstore = r.mv ∧ u.pfl.tempC = r.tempC ∧
      u.pfl.budget = State.newBudget { s with pfl := { s.pfl with vstore := r.mv, tempC := r.tempC } } ∧
      u.pfl.budget ≤ 10 * gib ∧ u.pfl.budget % (16 * mib) = 0 ∧ u.med = s.med ∧ u.map = s.map ∧ u.link = s.link)) ∧
  (∀ (t : Nat) (r : StoreRead) (s : State), s.pfl.dump = none → s.boot.complete = true → s.pfl.wt = none → s.slotArmed = true →
    State.newBudget { s with pfl := { s.pfl with vstore := r.mv, tempC := r.tempC } } < 256 * mib →
    completes (.budgetCompute t r) s (fun u => u.pfl.wt = some (0, max s.now t) ∧ (s.staged = 0 → u.pfl.wtPre = false)))

/-- STORE_TEST_DUE, STORE_TEST_LOAD_APPLIED, STORE_TEST_ESR_MEASURE, STORE_TEST_DISCHARGE_END, STORE_TEST_RECHARGE_END and
STORE_TEST_TIMEOUT (09 R239 to R241, R266): ESR is the drop over 2.0 A, C is 2.0 A times the time over 3.0 V; a test that reaches 24.0 V
with a budget of 256 MiB and an ESR of 300 milliohm or less passes; 30 s without the charge voltage fails it with criterion 4. -/
def Obligations.StoreTestRuns : Prop :=
  (∀ (t : Nat) (s : State), s.boot.complete = true → s.pfl.dump = none → s.pfl.test = none → s.testIsDue = true →
    s.testDefers = false → completes (.storeTestDue t) s (fun u =>
      u.pfl.test = some ⟨0, if s.storeFailed = true then 2 else 0, max s.now t, 0, 0, 0, 0⟩ ∧ u.pfl.dueSince = none ∧
      u.cch = { s.cch with writeback := true } ∧ changesOnly [.time, .pfl, .cch, .out, .events] s u)) ∧
  (∀ (t mv : Nat) (x : StoreTest) (s : State), s.pfl.test = some x → x.phase = 0 → s.staged ≤ s.pfl.budget → 24000 ≤ mv →
    completes (.storeTestLoadApplied t mv) s (fun u => changesOnly [.time, .pfl] s u ∧
      u.pfl = { s.pfl with
        vstore := mv, charging := false, test := some { x with phase := 1, loadAt := max s.now t, before := mv } })) ∧
  (∀ (t mv : Nat) (x : StoreTest) (s : State), s.pfl.test = some x → x.phase = 1 → x.loadAt + 1000000 ≤ max s.now t →
    completes (.storeTestEsrMeasure t mv) s (fun u => changesOnly [.time, .pfl] s u ∧
      u.pfl = { s.pfl with vstore := mv, test := some { x with phase := 2, esr := (x.before - mv) * 5 } })) ∧
  (∀ (t : Nat) (x : StoreTest) (s : State), s.pfl.test = some x → x.phase = 2 →
    completes (.storeTestDischargeEnd t) s (fun u => changesOnly [.time, .pfl] s u ∧
      u.pfl = { s.pfl with
        vstore := 21000, charging := true,
        test := some { x with phase := 3, cap := 2 * (max s.now t - x.loadAt) / 300000, loadAt := max s.now t } })) ∧
  (∀ (t mv : Nat) (x : StoreTest) (s : State), s.pfl.test = some x → x.phase = 3 → 24000 ≤ mv → x.esr ≤ 3000 →
    256 ≤ budgetMib s.coef (storeEnergy x.cap x.esr 24000) (derate s.pfl.tempC) →
    completes (.storeTestRechargeEnd t mv) s (fun u => u.pfl.test = none ∧ u.pfl.lastResult = 1 ∧ u.pfl.cap = x.cap ∧
      u.pfl.esr = x.esr ∧ u.pfl.energy = storeEnergy x.cap x.esr 24000 ∧
      u.pfl.health = (if storeEnergy x.cap x.esr 24000 < 30000 then 1 else 0) ∧ u.pfl.lastCal = s.cal.calendar ∧
      u.pfl.tests = min 65535 (s.pfl.tests + 1) ∧ u.med = s.med ∧ u.map = s.map)) ∧
  (∀ (t : Nat) (x : StoreTest) (s : State), s.pfl.test = some x → x.phase = 0 → x.t0 + 30000000000 ≤ max s.now t → s.pfl.wt = none →
    completes (.storeTestTimeout t) s (fun u => u.pfl.test = none ∧ u.pfl.lastResult = 4 ∧ u.pfl.health = 2 ∧
      u.pfl.wt = some (1, max s.now t) ∧ u.pfl.energy = s.pfl.energy)) ∧
  (∀ (t mv : Nat) (s : State), s.pfl.test = none → Machine.exec (.storeTestLoadApplied t mv) s = .next (s.tick t) ∧
    Machine.exec (.storeTestEsrMeasure t mv) s = .next (s.tick t) ∧ Machine.exec (.storeTestDischargeEnd t) s = .next (s.tick t) ∧
    Machine.exec (.storeTestRechargeEnd t mv) s = .next (s.tick t) ∧ Machine.exec (.storeTestTimeout t) s = .next (s.tick t))

/-- REGISTER_WRITE and RC_REGISTER_READ (00_scope R7). An access that is neither 64 bits wide on a multiple of 8 nor 32 bits wide on a multiple
of 4 completes: the write changes nothing, and the read returns 0 and changes no register. -/
def Obligations.OddAccesses : Prop :=
  ∀ (off size : Nat) (v : Word64) (s : State), s.link.protocol ≠ 0 → ¬ (size = 8 ∧ off % 8 = 0) → ¬ (size = 4 ∧ off % 4 = 0) →
    Machine.exec (.registerWrite ⟨.obs, off⟩ size v) s = .next s ∧ Machine.exec (.rcRegisterRead ⟨.obs, off⟩ size) s = .next (s.out (.obsData off 0))

/-- 00_scope R5. In the word that a register reads, a bit that lies in no field is 0, and an offset with no register reads 0 altogether. Two
aligned 64-bit writes whose values agree on every field of the register do the same, whatever they write to its reserved bits. -/
def Obligations.ReservedBits : Prop :=
  (∀ (off i c : Nat) (r : RegRow) (s : State), regAt off = some (r, c) → (∀ f ∈ r.flds, i < f.lo ∨ f.hi < i) →
    (s.readWord off).testBit i = false) ∧
  (∀ (off : Nat) (s : State), regAt off = none → s.readWord off = 0) ∧
  (∀ (off c : Nat) (r : RegRow) (v w : Word64) (s : State), off % 8 = 0 → regAt off = some (r, c) →
    (∀ f ∈ r.flds, ∀ i : Fin 64, f.lo ≤ i.val → i.val ≤ f.hi → v.getLsbD i.val = w.getLsbD i.val) →
    Machine.exec (.registerWrite ⟨.obs, off⟩ 8 v) s = Machine.exec (.registerWrite ⟨.obs, off⟩ 8 w) s)

/-- 00_scope R4 and R6, of one field of a register: a write of its bits sets an RW field, clears the 1s in a W1C field, sets them in a W1S
field and leaves the others; a 32-bit write does not reach the other half; a read clears exactly the RC fields that lie wholly in what it
reads; a WO field reads 0. -/
def Obligations.AccessCodes : Prop :=
  (∀ (f : Fld) (c v : Nat) (s : State), f.acc = .rw → f.lo ≤ f.hi → f.hi ≤ 63 →
    (s.writeFld f c 0 63 v).reg f c = v / 2 ^ f.lo % f.size) ∧
  (∀ (f : Fld) (c v : Nat) (s : State), f.acc = .w1c → f.lo ≤ f.hi → f.hi ≤ 63 → s.reg f c < f.size →
    (s.writeFld f c 0 63 v).reg f c = s.reg f c - (s.reg f c &&& (v / 2 ^ f.lo % f.size))) ∧
  (∀ (f : Fld) (c v : Nat) (s : State), f.acc = .w1s → f.lo ≤ f.hi → f.hi ≤ 63 → s.reg f c < f.size →
    (s.writeFld f c 0 63 v).reg f c = s.reg f c ||| (v / 2 ^ f.lo % f.size)) ∧
  (∀ (f : Fld) (c lo hi v : Nat) (s : State), f.acc = .ro ∨ f.acc = .rc → s.writeFld f c lo hi v = s) ∧
  (∀ (f : Fld) (c v : Nat) (s : State), 32 ≤ f.lo → f.lo ≤ f.hi → s.writeFld f c 0 31 v = s) ∧
  (∀ (f : Fld) (c v : Nat) (s : State), f.lo ≤ f.hi → f.hi ≤ 31 → s.writeFld f c 32 63 v = s) ∧
  (∀ (f : Fld) (c : Nat) (s : State), f.acc = .wo → s.readFld f c = 0) ∧
  (∀ (off lo hi c : Nat) (r : RegRow) (f : Fld) (s : State), regAt off = some (r, c) → f ∈ r.flds → f.acc = .rc → lo ≤ f.lo →
    f.hi ≤ hi → (s.clearRc off lo hi).reg f c = 0)

/-- REGISTER_WRITE, RC_REGISTER_READ, EVT_VEC_UNMASK, PFL_SUSPECT_CLEAR, ECC_FLIP_ARM_WRITE and ECC_FLIP_DISARM_WRITE (00_scope R4, R6; 13 R379,
R388; 09 R254). A 64-bit write sets EVT_SRC_MASK of its copy and no other register; a read sends the word and clears its RC fields; an
unmasked vector loses its mask bit; a suspect word loses the bits written 1; arming takes the mask that the registers hold. A write to BAR4
is discarded (02 R40); the AER status loses the bits written 1, the severity and the viral enable take what is written (02 R54, R55; the places
are those of PCI Express and CXL, log entry 84); a read of BAR4 on a readable line gives its bytes. -/
def Obligations.RegisterCommands : Prop :=
  (∀ (i : Fin 24) (v : Word64) (s : State), s.link.protocol ≠ 0 →
    completes (.registerWrite ⟨.obs, 0xF0100 + 8 * i.val⟩ 8 v) s (fun u => u.reg EVT_SRC_MASK.mask i.val = v.toNat ∧
      regsBut [(EVT_SRC_MASK.mask, i.val)] s u ∧ changesOnly [.regs] s u)) ∧
  (∀ (s : State), s.link.protocol ≠ 0 →
    completes (.rcRegisterRead ⟨.obs, 0xD0028⟩ 4) s (fun u => u.reg TQ_STATUS.remainders = 0 ∧ u.reg TQ_STATUS.dropped = s.reg TQ_STATUS.dropped ∧
      u.sent = s.sent ++ [.obsData 0xD0028 (BitVec.ofNat 64 (s.readWord 0xD0028 % 2 ^ 32))] ∧ changesOnly [.out, .regs] s u)) ∧
  (∀ (t : Nat) (n : Fin 32) (s : State), s.link.protocol ≠ 0 → 5 ≤ n.val →
    completes (.evtVecUnmask t n) s (fun u => u.vecMasked n.val = false ∧ u.evt.pending.getLsbD n.val = false ∧
      changesOnly [.time, .regs, .out, .events] s u)) ∧
  (∀ (n : Fin 64) (m : Word64) (s : State), s.link.protocol ≠ 0 → s.reg PFL_SUSPECT.suspect n.val < 2 ^ 64 →
    completes (.pflSuspectClear n m) s (fun u =>
      u.reg PFL_SUSPECT.suspect n.val = s.reg PFL_SUSPECT.suspect n.val - (s.reg PFL_SUSPECT.suspect n.val &&& m.toNat) ∧
      changesOnly [.regs, .tly, .events] s u)) ∧
  (∀ s : State, s.link.protocol ≠ 0 → flipOk s s.flipFromRegs = true →
    Machine.exec .eccFlipArmWrite s = .next { s with flip := ⟨some s.flipFromRegs⟩ }) ∧
  (∀ s : State, s.link.protocol ≠ 0 → flipOk s s.flipFromRegs = false → Machine.exec .eccFlipArmWrite s = .next s) ∧
  (∀ s : State, s.link.protocol ≠ 0 → completes .eccFlipDisarmWrite s (fun u => u.flip.armed = none ∧
    u.reg ECC_FLIP_CTRL.target = 0 ∧ regsBut [(ECC_FLIP_CTRL.target, 0)] s u ∧ changesOnly [.regs, .flip] s u)) ∧
  (∀ (off n : Nat) (b : Bool) (v : Word64) (s : State), s.link.protocol ≠ 0 →
    Machine.exec (.registerWrite ⟨.aperture b, off⟩ n v) s = .next s ∧
    Machine.exec (.registerWrite ⟨.aerUncStatus, off⟩ n v) s = .next { s with link := { s.link with aerUnc := s.link.aerUnc &&& ~~~(v.setWidth 32) } } ∧
    Machine.exec (.registerWrite ⟨.aerUncSeverity, off⟩ n v) s = .next { s with link := { s.link with aerSeverity := v.setWidth 32 } } ∧
    Machine.exec (.registerWrite ⟨.cxlControl, off⟩ n v) s = .next { s with link := { s.link with viralEnabled := v.getLsbD 14 } } ∧
    Machine.exec (.rcRegisterRead ⟨.aerUncStatus, off⟩ n) s = .next (s.out (.obsData off (s.link.aerUnc.setWidth 64)))) ∧
  (∀ (off n : Nat) (b : Bool) (x : TqLine) (s : State), s.link.protocol ≠ 0 → n ≤ 8 → Tab.find s.tq.lines (off / 64) = some x →
    Machine.exec (.rcRegisterRead ⟨.aperture b, off⟩ n) s =
      .next (s.out (.apertureData off (BitVec.ofNat 64 (ofBytes ((x.bytes.drop (off % 64)).take n))) b)))

/-- RECORDER_DRAIN and RECORDER_REPEAT_FLUSH (13 R366 to R368). A drain takes the staged records of the first one's row, in order, into
partition 4 and asks for that row's write; with nothing staged, and while no log can be written, it does nothing. Held repeats go into
the stored copy of their record. -/
def Obligations.RecorderCommands : Prop :=
  (∀ (x : Rec) (r : List Rec) (s : State), s.recd.staging = x :: r → s.canLog = true →
    completes .recorderDrain s (fun u =>
      u.recd.staging = s.recd.staging.filter (fun y => s.recd.rowOf y.seq != s.recd.rowOf x.seq) ∧
      u.recd.stored.length = s.recd.stored.length + (s.recd.staging.filter (fun y => s.recd.rowOf y.seq == s.recd.rowOf x.seq)).length ∧
      u.recd.nextSeq = s.recd.nextSeq ∧ u.tly.rows = s.tly.rows ∧ changesOnly [.regs, .tly, .events] s u)) ∧
  (∀ s : State, s.recd.staging = [] → Machine.exec .recorderDrain s = .next s) ∧
  (∀ s : State, s.canLog = false → Machine.exec .recorderDrain s = .next s ∧ Machine.exec .recorderRepeatFlush s = .next s) ∧
  (∀ (n : Rec) (s : State), s.canLog = true → s.recd.newest = some n → s.recd.heldRepeats ≠ 0 →
    completes .recorderRepeatFlush s (fun u => u.recd.heldRepeats = 0 ∧ u.recd.staging = s.recd.staging ∧
      u.recd.stored = s.recd.stored.map (fun x => if x.seq == n.seq then n else x) ∧ changesOnly [.regs, .tly, .events] s u)) ∧
  (∀ s : State, s.canLog = true → s.recd.heldRepeats = 0 → Machine.exec .recorderRepeatFlush s = .next s)

/-- TELEMETRY_TIMEOUT, TQ_FLUSH and TQ_TAIL_WRITE (13 R374 to R377). A flush, and a timeout that has run out, close the open line with its mark
at the head of the queue; the head, the line sequence and the count of remainder lines advance. A new tail inside the readable lines is
taken, and the lines before it are released; another tail is ignored. -/
def Obligations.TelemetryQueue : Prop :=
  (∀ s : State, s.link.protocol ≠ 0 → s.tq.openWords ≠ [] → s.tq.openWords.length < 7 →
    completes .tqFlush s (fun u => u.tq.head = (s.tq.head + 1) % 1048576 ∧ u.tq.seq = (s.tq.seq + 1) % 2 ^ 32 ∧ u.tq.openWords = [] ∧
      Tab.find u.tq.lines s.tq.head =
        some ⟨s.tq.seq, 8 * s.tq.openWords.length, s.tq.openLead, s.tq.lostFlag, true, false, s.tq.openWords⟩ ∧
      regsBut [(TQ_STATUS.remainders, 0)] s u ∧ changesOnly [.tq, .regs, .events] s u)) ∧
  (∀ s : State, s.tq.openWords = [] → Machine.exec .tqFlush s = .next s) ∧
  (∀ (t t0 : Nat) (s : State), s.tq.openSince = some t0 → s.tq.openWords ≠ [] →
    t0 + s.readFld TQ_TIMEOUT.timeout_us 0 * 1000 ≤ max s.now t →
    completes (.telemetryTimeout t) s (fun u => u.tq.head = (s.tq.head + 1) % 1048576 ∧ u.tq.openWords = [] ∧ u.tq.openSince = none ∧
      Tab.find u.tq.lines s.tq.head =
        some ⟨s.tq.seq, 8 * s.tq.openWords.length, s.tq.openLead, s.tq.lostFlag, false, true, s.tq.openWords⟩ ∧
      changesOnly [.time, .tq, .regs, .events] s u)) ∧
  (∀ (t : Nat) (s : State), s.tq.openSince = none → Machine.exec (.telemetryTimeout t) s = .next (s.tick t)) ∧
  (∀ (n : Nat) (s : State), s.link.protocol ≠ 0 → n < 1048576 → s.tq.tail ≤ n → n ≤ s.tq.head → s.tq.head < 1048576 →
    completes (.tqTailWrite n) s (fun u => u.tq.tail = n ∧ u.tq.head = s.tq.head ∧
      (∀ k, s.tq.tail ≤ k → k < n → Tab.find u.tq.lines k = none) ∧
      (∀ k, n ≤ k → k < 1048576 → Tab.find u.tq.lines k = Tab.find s.tq.lines k) ∧ changesOnly [.tq] s u)) ∧
  (∀ (n : Nat) (s : State), 1048576 ≤ n → Machine.exec (.tqTailWrite n) s = .next s)

/-- PMU_PORT_WINDOW_END, PMU_COUNTER_WRAP, PMU_LEVEL_SAMPLE and HEALTH_EVALUATE (13 R370 to R373, R381). A window's end shows bytes per
microsecond; an enabled counter at 2^48 - 1 wraps to 0 and sets its overflow bit; a sample with counting off only forgets the
occurrences; an evaluation leaves the health flags at what their causes give now. -/
def Obligations.CounterCommands : Prop :=
  (∀ (t : Nat) (p : Fin 22) (a b : Nat) (s : State),
    completes (.pmuPortWindowEnd t p a b) s (fun u =>
      u.reg PMU_PORT.in_mbps p.val = a / max 1 (s.tq.windows.getD p.val 1000) % PMU_PORT.in_mbps.size ∧
      u.reg PMU_PORT.out_mbps p.val = b / max 1 (s.tq.windows.getD p.val 1000) % PMU_PORT.out_mbps.size ∧
      u.tq.windows = setAt s.tq.windows p.val (s.reg PMU_WINDOW.window_us) ∧
      regsBut [(PMU_PORT.in_mbps, p.val), (PMU_PORT.out_mbps, p.val)] s u ∧ changesOnly [.time, .regs, .tq] s u)) ∧
  (∀ (t : Nat) (n : Fin 64) (s : State), s.pmuOn = true → s.reg PMU_CFG.enable n.val = 1 → s.reg PMU_CNT.count n.val = 2 ^ 48 - 1 →
    s.reg PMU_CFG.ovf_irq n.val = 0 →
    cfgError (s.reg PMU_CFG.select n.val) (s.reg PMU_CFG.tp2_mode n.val) (s.reg PMU_CFG.level n.val) = false →
    completes (.pmuCounterWrap t n) s (fun u => u.reg PMU_CNT.count n.val = 0 ∧
      (u.reg PMU_OVF.overflow).testBit n.val = true ∧ changesOnly [.time, .events] s u)) ∧
  (∀ (t : Nat) (n : Fin 64) (s : State), s.reg PMU_CNT.count n.val < 2 ^ 48 - 1 →
    Machine.exec (.pmuCounterWrap t n) s = .next (s.tick t)) ∧
  (∀ s : State, s.pmuOn = false → Machine.exec .pmuLevelSample s = .next { s with tq := { s.tq with levelSeen := 0 } }) ∧
  (∀ s : State, s.pmuOn = true → completes .pmuLevelSample s (fun u => changesOnly [.events] s u)) ∧
  (∀ (t : Nat) (s : State), completes (.healthEvaluate t) s (fun u => u.evt.health = (s.tick t).healthFlags ∧ u.evt.healthBy = [] ∧
    u.evt.alert.standing = (s.tick t).alertsNow ∧ changesOnly [.time, .out, .events] s u))

/-- 13 R354. Of two copies the card uses the valid one, of two valid ones the one with the higher sequence, copy A where both have the same;
with neither valid the record is lost. Event 0x5A0 is raised where two valid copies of one sequence differ and 0x5A1 where a record is
lost. A write goes into the other copy with a sequence one higher and leaves the copy in use; torn, it leaves the record as it was. -/
def Obligations.TallyCopies : Prop :=
  (∀ r : TallyRow, r.a.valid = true → r.b.valid = false → r.pick = 0) ∧
  (∀ r : TallyRow, r.a.valid = false → r.b.valid = true → r.pick = 1) ∧
  (∀ r : TallyRow, r.a.valid = true → r.b.valid = true → (r.pick = 1 ↔ r.a.seq < r.b.seq) ∧ (r.pick = 0 ↔ r.b.seq ≤ r.a.seq)) ∧
  (∀ r : TallyRow, r.a.valid = false → r.b.valid = false → r.pick = 255) ∧
  (∀ (p n : Nat) (s : State), (s.row p n).reported = false → (s.row p n).clash = true →
    s.noteRow p n = ev 0x5A0 1 [p, n] 255
      { s with tly := { s.tly with rows := Tab.put s.tly.rows (rowKey p n) { s.row p n with reported := true } } }) ∧
  (∀ (p n : Nat) (s : State), (s.row p n).reported = false → (s.row p n).pick = 255 →
    s.noteRow p n = ev 0x5A1 2 [p, n] 255
      { s with tly := { s.tly with rows := Tab.put s.tly.rows (rowKey p n) { s.row p n with reported := true } } }) ∧
  (∀ (r : TallyRow) (d : Bytes), r.pick ≠ 255 → (r.write d false).copy = ⟨true, r.copy.seq + 1, d⟩ ∧
    (r.pick = 0 → (r.write d false).a = r.a) ∧ (r.pick = 1 → (r.write d false).b = r.b)) ∧
  (∀ (r : TallyRow) (d : Bytes), r.pick ≠ 255 → (r.write d true).copy = r.copy)

/-- TALLY_ROW_WRITE_COMPLETE, TALLY_SUPPLY_RECHECK, TALLY_DEFERRAL_LIMIT, TALLY_REFRESH_LAP and LIFETIME_COUNTER_SAVE (13 R353 to R357). The
row that ran holds the new record; a deferred write of lowest rank starts once rail 0 and the hold-up are good; 100 ms of deferral raise
event 0x5A2 once; after 720 hours a lap rewrites the weak records; the lifetime counts are asked for as rows of rank 6. -/
def Obligations.TallyRowWrites : Prop :=
  (∀ (t : Nat) (w : RowWrite) (s : State), s.tly.running = some w → s.tly.queue = [] → w.owner = 0 → s.flip.armed = none →
    completes (.tallyRowWriteComplete t) s (fun u => changesOnly [.time, .tly] s u ∧
      u.tly = { s.tly with
        running := none, rows := Tab.put s.tly.rows (rowKey w.part w.row) ((s.row w.part w.row).write w.data false) })) ∧
  (∀ (t : Nat) (s : State), s.tly.running = none → Machine.exec (.tallyRowWriteComplete t) s = .next (s.tick t)) ∧
  (∀ (t : Nat) (w : RowWrite) (s : State), s.tly.running = none → s.tly.queue = [w] → w.rank ≤ 6 →
    completes (.tallySupplyRecheck t true true) s (fun u => changesOnly [.time, .tly] s u ∧
      u.tly = { s.tly with
        rail0 := true, holdUp := true, running := some w, queue := [], deferred := false, deferEvent := false })) ∧
  (∀ (t : Nat) (b : Bool) (s : State), s.tly.deferred = true →
    completes (.tallySupplyRecheck t false b) s (fun u => u.tly = { s.tly with rail0 := false, holdUp := b } ∧
      changesOnly [.time, .tly] s u)) ∧
  (∀ (t mv : Nat) (w : RowWrite) (s : State), s.tly.deferred = true → s.tly.deferEvent = false → s.tly.queue = [w] → w.rank ≤ 6 →
    s.link.wait = none → s.tly.deferredAt + 100000000 ≤ max s.now t →
    completes (.tallyDeferralLimit t mv) s (fun u => u.tly = { s.tly with deferEvent := true } ∧
      changesOnly [.time, .tly, .out, .events] s u)) ∧
  (∀ (t : Nat) (l : List (Nat × Nat)) (r : List (Nat × Nat × Nat)) (s : State), 720 ≤ s.tly.lapHours → s.tly.running = none →
    completes (.tallyRefreshLap t l r) s (fun u => u.tly.lapHours = 0 ∧ u.tly.spare = s.tly.spare - r.length ∧
      u.tly.queue = s.tly.queue ∧ changesOnly [.time, .tly, .out, .events] s u)) ∧
  (∀ (r : TallyRow), r.pick ≠ 255 → r.refresh.copy.data = r.copy.data ∧ r.refresh.a.valid = true ∧ r.refresh.b.valid = true) ∧
  (∀ (t : Nat) (l : List (Nat × Nat)) (r : List (Nat × Nat × Nat)) (s : State), s.tly.lapHours < 720 →
    Machine.exec (.tallyRefreshLap t l r) s = .next (s.tick t)) ∧
  (∀ (w : RowWrite) (s : State), s.canLog = true → s.tly.running = some w →
    completes .lifetimeCounterSave s (fun u => changesOnly [.tly] s u ∧
      u.tly.queue.length = s.tly.queue.length + 6 ∧ s.tly.queue <+: u.tly.queue ∧
      (∀ x ∈ u.tly.queue.drop s.tly.queue.length, x.rank = 6 ∧ x.owner = 0 ∧ (x.part = 1 ∨ x.part = 3)))) ∧
  (∀ s : State, s.canLog = false → Machine.exec .lifetimeCounterSave s = .next s)

/-- HANDSHAKE_STALL, BLOCK_RESET_COMPLETE and ENGINE_WATCHDOG_EXPIRY (01 R10 to R12, R29). A single-bit error, and a fault that a retry mends,
is only counted; a reissue raises its event and changes no block; a block reset is begun, and ends when the block is ready within 20 us. A fault
within 1 ms of the last reset, a block that is late or does not come back, and the third expiry of one engine within 1 s restart the region. An
expiry of the active coordinator hands over to the standby. With the core rails off nothing of this happens. -/
def Obligations.FabricEscalation : Prop :=
  (∀ (t : Nat) (r : Fin 9) (b : Nat) (d : Bool) (s : State), s.coreOn = true → b < 64 → s.isFenced r.val = false → s.restarting r.val = false →
    Machine.exec (.handshakeStall t r b .corrected) s = .next ((s.tick t).bump ECC_FABRIC.corrected) ∧
    Machine.exec (.handshakeStall t r b (.retrySucceeds d)) s =
      .next ((s.tick t).bump (if d then ECC_FABRIC.double else ECC_FABRIC.stalls))) ∧
  (∀ (t : Nat) (r : Fin 9) (b : Nat) (d : Bool) (s : State), s.coreOn = true → b < 64 → s.isFenced r.val = false → s.restarting r.val = false →
    Tab.find s.fab.blocks (blockKey r.val b) = none →
    completes (.handshakeStall t r b (.reissueSucceeds d)) s (fun u => changesOnly [.time, .out, .events, .regs] s u) ∧
    completes (.handshakeStall t r b (.blockReset d)) s (fun u =>
      u.fab.blocks = Tab.put s.fab.blocks (blockKey r.val b) ⟨3, max s.now t, none⟩ ∧
      u.fab.restarts = s.fab.restarts ∧ changesOnly [.time, .out, .events, .regs, .fab] s u)) ∧
  (∀ (t : Nat) (r : Fin 9) (b n a e : Nat) (d : Bool) (s : State), s.coreOn = true → b < 64 → s.isFenced r.val = false →
    s.fab.restarts = [] → s.fab.queue = [] → s.pfl.dump = none → r.val ≠ 0 → Tab.find s.fab.ready r.val = none →
    Tab.find s.fab.blocks (blockKey r.val b) = some ⟨n, a, some e⟩ → max s.now t < e + msec →
    completes (.handshakeStall t r b (.reissueSucceeds d)) s (fun u => u.fab.blocks = Tab.del s.fab.blocks (blockKey r.val b) ∧
      u.fab.restarts = [⟨r.val, false, max s.now t⟩] ∧ changesOnly [.time, .out, .events, .regs, .fab] s u) ∧
    completes (.handshakeStall t r b (.blockReset d)) s (fun u => u.fab.blocks = Tab.del s.fab.blocks (blockKey r.val b) ∧
      u.fab.restarts = [⟨r.val, false, max s.now t⟩] ∧ changesOnly [.time, .out, .events, .regs, .fab] s u)) ∧
  (∀ (t : Nat) (r : Fin 9) (b n a : Nat) (s : State), Tab.find s.fab.blocks (blockKey r.val b) = some ⟨n, a, none⟩ →
    max s.now t ≤ a + 20 * usec →
    Machine.exec (.blockResetComplete t r b true) s =
      .next { s.tick t with
        fab := { s.fab with blocks := Tab.put s.fab.blocks (blockKey r.val b) ⟨3, a, some (max s.now t)⟩ } }) ∧
  (∀ (t : Nat) (r : Fin 9) (b n a : Nat) (k : Bool) (s : State), Tab.find s.fab.blocks (blockKey r.val b) = some ⟨n, a, none⟩ →
    k = false ∨ a + 20 * usec < max s.now t → s.coreOn = true →
    s.isFenced r.val = false → s.fab.restarts = [] → s.fab.queue = [] → s.pfl.dump = none → r.val ≠ 0 → Tab.find s.fab.ready r.val = none →
    Machine.exec (.blockResetComplete t r b k) s =
      .next { s.tick t with
        fab := { s.fab with
          blocks := Tab.del s.fab.blocks (blockKey r.val b), restarts := [⟨r.val, false, max s.now t⟩] } }) ∧
  (∀ (t : Nat) (e : Fin 64) (s : State), s.coreOn = true → s.isFenced (engineRegion e.val) = false →
    s.restarting (engineRegion e.val) = false → s.fab.expiries = [] →
    completes (.engineWatchdogExpiry t e) s (fun u => u.fab.expiries = [(e.val, max s.now t)] ∧
      u.fab.coordinator = (if e.val = s.fab.coordinator then 125 - e.val else s.fab.coordinator) ∧ u.fab.restarts = s.fab.restarts ∧
      changesOnly [.time, .out, .events, .fab] s u)) ∧
  (∀ (t x y : Nat) (e : Fin 64) (s : State), s.coreOn = true → s.isFenced (engineRegion e.val) = false →
    s.fab.restarts = [] → s.fab.queue = [] → s.pfl.dump = none → Tab.find s.fab.ready (engineRegion e.val) = none →
    s.fab.expiries = [(e.val, x), (e.val, y)] → max s.now t < x + sec → max s.now t < y + sec →
    completes (.engineWatchdogExpiry t e) s (fun u => u.fab.expiries = [] ∧
      u.fab.restarts = [⟨engineRegion e.val, false, max s.now t⟩] ∧ changesOnly [.time, .out, .events, .fab] s u)) ∧
  (∀ (t : Nat) (r : Fin 9) (b : Nat) (k : StallKind) (e : Fin 64) (s : State), s.coreOn = false →
    Machine.exec (.handshakeStall t r b k) s = .next (s.tick t) ∧ Machine.exec (.engineWatchdogExpiry t e) s = .next (s.tick t)) ∧
  (∀ (t : Nat) (r : Fin 9) (b : Nat) (k : Bool) (s : State), Tab.find s.fab.blocks (blockKey r.val b) = none →
    Machine.exec (.blockResetComplete t r b k) s = .next (s.tick t)) ∧
  (∀ (t : Nat) (r : Fin 9) (b : Nat) (d : Bool) (s : State), s.coreOn = true → b < 64 → s.isFenced r.val = false → s.restarting r.val = false →
    completes (.handshakeStall t r b (.domainReset d)) s (fun u => u.fab.fatal = true ∧ u.fab.restarts = s.fab.restarts))

/-- REGION_RESTART_READY and REGION_RESTART_DEADLINE (01 R15, R17, R18). A region that reports ready in time ends its restart with its event; a
media region takes its dies' threshold tables from the GDDR7 mirror and issues their operations again, region G ends mailbox and background
commands with Retry Required. A restart that
has not ended after 200 µs has failed: the first failure within 60 minutes restarts the region again, the second fences it. -/
def Obligations.RegionRestarts : Prop :=
  (∀ (t : Nat) (r : Fin 9) (a : Nat) (s : State), s.fab.restarts = [⟨r.val, false, a⟩] → s.fab.queue = [] → r.val ≠ 1 →
    max s.now t ≤ a + 200 * usec →
    completes (.regionRestartReady t r) s (fun u => u.fab.restarts = [] ∧ u.fab.ready = Tab.put s.fab.ready r.val (max s.now t) ∧
      u.fab.fenced = s.fab.fenced ∧ u.cal = (if 5 ≤ r.val then (s.mirrorTables r.val).cal else s.cal) ∧
      u.med = (if 5 ≤ r.val then ((s.tick t).reissueOps r.val).med else s.med) ∧
      changesOnly [.time, .out, .events, .fab, .cal, .med] s u)) ∧
  (∀ (t a : Nat) (s : State), s.fab.restarts = [⟨1, false, a⟩] → s.fab.queue = [] → max s.now t ≤ a + 200 * usec →
    completes (.regionRestartReady t 1) s (fun u => u.fab.restarts = [] ∧ u.link.background = none ∧ u.link.wait = none ∧ u.link.maint = [] ∧
      u.link.resolve = none ∧ u.link.transfer = none ∧ u.map.discard = none ∧ ((s.endRestart 1).canLog = true → u.evt.deferred = []) ∧
      u.map.entries = s.map.entries ∧ u.link.held = s.link.held ∧
      changesOnly [.time, .out, .events, .regs, .fab, .link, .map, .tly] s u)) ∧
  (∀ (t : Nat) (r : Fin 9) (a : Nat) (s : State), s.fab.restarts = [⟨r.val, false, a⟩] → s.fab.failed = [] → a + 200 * usec ≤ max s.now t →
    completes (.regionRestartDeadline t r) s (fun u => u.fab.restarts = [⟨r.val, false, max s.now t⟩] ∧
      u.fab.failed = [(r.val, max s.now t)] ∧ u.fab.fenced = s.fab.fenced ∧ changesOnly [.time, .out, .events, .regs, .fab, .tly] s u)) ∧
  (∀ (t : Nat) (r : Fin 9) (a f : Nat) (s : State), s.isFenced r.val = false → s.fab.restarts = [⟨r.val, false, a⟩] → s.fab.failed = [(r.val, f)] →
    max s.now t < f + 3600 * sec → a + 200 * usec ≤ max s.now t →
    completes (.regionRestartDeadline t r) s (fun u => u.isFenced r.val = true ∧ (5 ≤ r.val → u.fro = true) ∧
      (r.val < 5 → u.fab.fatal = true))) ∧
  (∀ (t : Nat) (r : Fin 9) (s : State), s.fab.restarts = [] →
    Machine.exec (.regionRestartReady t r) s = .next (s.tick t) ∧ Machine.exec (.regionRestartDeadline t r) s = .next (s.tick t))

/-- PACE_EVALUATION and PACE_LOWER_INTERVAL (01 R19 to R21). With every region at one code, every class at level 0 and no heat rule in force, a
region in which an internal class is served below its floor rises by one step while the code lies below the cap; every paced region falls by
one step when every class is below 40 % of its target, and when the code lies above the cap. Nothing but the pace and the replicas' rates
changes. -/
def Obligations.PaceControl : Prop :=
  (∀ (t c : Nat) (r : Fin 9) (l : List Nat) (s : State), s.coreOn = true → s.fab.pace = List.replicate 9 c → s.fab.heatHold = [] →
    s.qos.cls.all (fun x => x.level == 0) = true → r.val ≠ 0 → c < s.paceCap →
    Machine.exec (.paceEvaluation t ⟨BitVec.twoPow 9 r.val, [], l⟩) s =
      .next { s.tick t with
        fab := { s.fab with pace := setAt (List.replicate 9 c) r.val (c + 1), replica := l } }) ∧
  (∀ (t c : Nat) (l : List Nat) (s : State), s.coreOn = true → s.fab.pace = List.replicate 9 c →
    s.qos.cls.all (fun x => x.level == 0) = true → (s.tick t).paceRelaxed = true → 0 < c →
    Machine.exec (.paceLowerInterval t ⟨0, [], l⟩) s =
      .next { s.tick t with
        fab := { s.fab with pace := c :: List.replicate 8 (c - 1) } }) ∧
  (∀ (t c : Nat) (l : List Nat) (s : State), s.coreOn = true → s.fab.pace = List.replicate 9 c →
    s.qos.cls.all (fun x => x.level == 0) = true → s.paceCap < c →
    Machine.exec (.paceEvaluation t ⟨0, [], l⟩) s =
      .next { s.tick t with
        fab := { s.fab with pace := c :: List.replicate 8 (c - 1), replica := l } }) ∧
  (∀ (t : Nat) (p : PaceIn) (s : State), s.coreOn = true →
    completes (.paceEvaluation t p) s (fun u => u.fab = { s.fab with pace := u.fab.pace, replica := p.replica } ∧ changesOnly [.time, .fab] s u) ∧
    completes (.paceLowerInterval t p) s (fun u => u.fab = { s.fab with pace := u.fab.pace } ∧ changesOnly [.time, .fab] s u)) ∧
  (∀ (t : Nat) (p : PaceIn) (s : State), s.coreOn = false →
    Machine.exec (.paceEvaluation t p) s = .next (s.tick t) ∧ Machine.exec (.paceLowerInterval t p) s = .next (s.tick t))

/-- ESCALATION_EVALUATION, CLASS_WINDOW_CLOSE, ENVELOPE_RECOMPUTE and RESTORATION_HOLD_EXPIRY (03 R66, R71, R72, R75 to R77). Each class gets its trailing
p99 and at most one level up or down, a suspended one level 0, and dies then start what the levels let them; a class window of fewer than 100 completions is counted thin, one above the target
missed; after a recompute the guarantees of the classes not suspended fit the new envelope; after the hold the lowest suspended class is
restored and the guarantees still fit. -/
def Obligations.ClassesAndEnvelope : Prop :=
  (∀ (t : Nat) (n : Fin 8) (s : State), s.link.memActive = true → s.qos.cls.length = 8 →
    completes (.escalationEvaluation t) s (fun u => (u.clsState n.val).p99 = (s.tick t).trailing n.val ∧
      (u.clsState n.val).level = (if (s.clsState n.val).suspended then 0
        else nextLevel (s.clsState n.val).level ((s.tick t).trailing n.val) (s.classEntry n.val).target) ∧
      (u.clsState n.val).level ≤ (s.clsState n.val).level + 1 ∧ (u.clsState n.val).suspended = (s.clsState n.val).suspended ∧
      u.qos = { s.qos with cls := u.qos.cls } ∧
      u.med = { s.med with dies := u.med.dies, usedAt := u.med.usedAt, waking := u.med.waking } ∧ changesOnly [.time, .qos, .med] s u)) ∧
  (∀ (t : Nat) (n : Fin 8) (s : State), s.link.memActive = true → s.qos.cls.length = 8 → (s.clsState n.val).recent = [] →
    (s.clsState n.val).winStart + s.windowNs n.val ≤ max s.now t →
    completes (.classWindowClose t n) s (fun u => (u.clsState n.val).winStart = (s.clsState n.val).winStart + s.windowNs n.val ∧
      (s.reg QOS_CLASS_MISSED.thin_windows n.val < 65535 → u.reg QOS_CLASS_MISSED.thin_windows n.val = s.reg QOS_CLASS_MISSED.thin_windows n.val + 1) ∧
      u.reg QOS_CLASS_WINBW.win_read_mbps n.val = 0 ∧ changesOnly [.time, .regs, .events, .qos] s u)) ∧
  (∀ (t a x : Nat) (n : Fin 8) (s : State), s.link.memActive = true → s.qos.cls.length = 8 →
    (s.clsState n.val).recent = List.replicate 100 ⟨a, x, false⟩ → (s.clsState n.val).winStart ≤ a →
    a < (s.clsState n.val).winStart + s.windowNs n.val → (s.clsState n.val).winStart + s.windowNs n.val ≤ max s.now t →
    (s.classEntry n.val).target < x → (s.clsState n.val).suspended = false →
    completes (.classWindowClose t n) s (fun u => (u.clsState n.val).missedAt = some (max s.now t) ∧
      (u.reg QOS_SUSPEND.missed).testBit n.val = true ∧ changesOnly [.time, .out, .regs, .events, .qos] s u)) ∧
  (∀ (t : Nat) (s : State), s.qos.cls.length = 8 →
    completes (.envelopeRecompute t) s (fun u => u.qos.rEnv = s.envRead ∧ u.qos.wEnv = s.envWrite ∧ u.qos.cause = s.envCause ∧
      (s.link.memActive = true → u.fits u.unsuspended u.qos.rEnv u.qos.wEnv = true) ∧ (s.link.memActive = false → u.qos.cls = s.qos.cls) ∧
      (s.fits s.unsuspended s.envRead s.envWrite = true → u.qos.cls = s.qos.cls) ∧ changesOnly [.time, .out, .events, .qos] s u)) ∧
  (∀ (t h n : Nat) (s : State), s.qos.cls.length = 8 → s.qos.holdStart = some h → h + 100 * msec ≤ max s.now t → s.candidate = some n →
    s.candidateFits = true →
    completes (.restorationHoldExpiry t) s (fun u => (u.clsState n).suspended = false ∧ u.fits u.unsuspended u.qos.rEnv u.qos.wEnv = true ∧
      u.qos.rEnv = s.qos.rEnv ∧ u.qos.wEnv = s.qos.wEnv ∧ changesOnly [.time, .out, .events, .qos] s u)) ∧
  (∀ (t : Nat) (n : Fin 8) (s : State), s.link.memActive = false →
    Machine.exec (.escalationEvaluation t) s = .next (s.tick t) ∧ Machine.exec (.classWindowClose t n) s = .next (s.tick t)) ∧
  (∀ (t : Nat) (s : State), s.qos.holdStart = none → Machine.exec (.restorationHoldExpiry t) s = .next (s.tick t))

/-- CXL_MEM_READ, ADMIT_HELD_REQUEST and LINE_FILL_LANDED (02 R39, R57; 03 R58 to R62, R69; 04 Table 4-2). A read that is admitted at once gets
the near cache's line with its latency and raises the reuse; a never-written line reads zeros; a line of the board cache starts a fill and waits;
a read of a locked unit gets zeros. Every answer's DevLoad is Light Load (R82). In viral a held request is turned away. Behind a request of its class it is held; before Memory_Active and outside every decoder it gets poison (data free,
log entry 5); without credit nothing arrives. A held read is served in its turn, and the landing of a fill answers its waiters. -/
def Obligations.MemoryReads : Prop :=
  (∀ (t : Nat) (hpa : BitVec 64) (r : Req) (x : NearSlot) (s : State), admits s t hpa.toNat r = true → r.write = false →
    plainLine s (r.dpa.toNat / 64) = true → s.nearAt (r.dpa.toNat / 256) = some x → x.badTags = 0 → x.badData = 0 → x.filling = false →
    completes (.cxlMemRead t hpa) s (fun u =>
      u.sent.getLast? = some (.readData r.id (x.copy.line (r.dpa.toNat / 64 % 4)) (x.copy.isPoison (r.dpa.toNat / 64 % 4)) .near
        (s.figure (r.dpa.toNat / 64) .near true + s.linkAdd + s.ideAdd) .lightLoad) ∧
      u.cch = { s.cch with near := Tab.put s.cch.near (nearIx (r.dpa.toNat / 256)) { x with copy := { x.copy with reuse := min 7 (x.copy.reuse + 1) } } } ∧
      u.qos.ingress = s.qos.ingress ∧ u.qos.nextId = s.qos.nextId + 1 ∧ u.map = { s.map with onChip := u.map.onChip } ∧
      u.tly = { s.tly with bytesRd := s.tly.bytesRd + 64 } ∧ changesOnly [.time, .out, .events, .regs, .qos, .cch, .map, .tly, .tq] s u)) ∧
  (∀ (t : Nat) (hpa : BitVec 64) (r : Req) (s : State), admits s t hpa.toNat r = true → r.write = false → plainLine s (r.dpa.toNat / 64) = true →
    Tab.find s.cch.near (nearIx (r.dpa.toNat / 256)) = none → s.evictAt (r.dpa.toNat / 256) = none →
    Tab.find s.cch.board (s.boardIx (r.dpa.toNat / 256)) = none → s.wbAt (r.dpa.toNat / 256) = none → s.inOverlay (r.dpa.toNat / 256) = false →
    s.noData (r.dpa.toNat / 16384) = true →
    completes (.cxlMemRead t hpa) s (fun u =>
      u.sent.getLast? = some (.readData r.id 0 (s.injected (r.dpa.toNat / 64)) .zeros (s.figure (r.dpa.toNat / 64) .zeros
        ((Tab.findD s.map.onChip (r.dpa.toNat / 16384 % 4096) []).contains (r.dpa.toNat / 16384)) + s.linkAdd + s.ideAdd) .lightLoad) ∧
      u.cch = s.cch ∧ changesOnly [.time, .out, .events, .regs, .qos, .map, .tly, .tq] s u)) ∧
  (∀ (t : Nat) (hpa : BitVec 64) (r : Req) (b : BoardSlot) (s : State), admits s t hpa.toNat r = true → r.write = false →
    plainLine s (r.dpa.toNat / 64) = true → Tab.find s.cch.near (nearIx (r.dpa.toNat / 256)) = none → s.evictAt (r.dpa.toNat / 256) = none →
    s.boardAt (r.dpa.toNat / 256) = some b → b.corrected = false → b.badTags = 0 → b.badData = 0 → b.badRest = false → b.gone = 0 →
    s.fillAt (r.dpa.toNat / 256) = none →
    completes (.cxlMemRead t hpa) s (fun u => u.qos.ctxs = s.qos.ctxs ++ [⟨r, none, .board, 0, 0, false⟩] ∧
      u.cch.fills.map (fun f => (f.l.toNat, f.src, f.phase)) = s.cch.fills.map (fun f => (f.l.toNat, f.src, f.phase)) ++
        [(r.dpa.toNat / 256, .board, .issued)] ∧
      u.cch.near = Tab.put s.cch.near (nearIx (r.dpa.toNat / 256)) ⟨s.blankCopy (r.dpa.toNat / 256) 1, none, true, 0, 0, 0, 0⟩ ∧
      u.cch.board = Tab.put s.cch.board (s.boardIx (r.dpa.toNat / 256)) { b with copy := { b.copy with reuse := min 7 (b.copy.reuse + 1) } } ∧
      u.cch.evict = s.cch.evict ∧ changesOnly [.time, .out, .events, .regs, .qos, .cch, .map] s u)) ∧
  (∀ (t : Nat) (hpa : BitVec 64) (r : Req) (s : State), admits s t hpa.toNat r = true → r.write = false →
    s.lockedUnit (unitOfLine (r.dpa.toNat / 64)) = true →
    completes (.cxlMemRead t hpa) s (fun u => u.sent.getLast? = some (.readData r.id 0 false .zeros (s.figure (r.dpa.toNat / 64) .zeros
        ((Tab.findD s.map.onChip (r.dpa.toNat / 16384 % 4096) []).contains (r.dpa.toNat / 16384)) + s.linkAdd + s.ideAdd) .lightLoad) ∧
      u.cch = s.cch ∧ changesOnly [.time, .out, .events, .regs, .qos, .map, .tly, .tq] s u)) ∧
  (∀ (t a : Nat) (hpa : BitVec 64) (s : State), s.cxlUp = true → s.link.ideBlocked = false → s.heldKind false + 1 < 1024 →
    s.thm.stopping = none → s.memReady = true → s.decodeHpa hpa.toNat = some a →
    s.qos.ingress.any (fun q => q.cls == s.classAt (a / 64 * 64)) = true →
    completes (.cxlMemRead t hpa) s (fun u => u.qos.ingress = s.qos.ingress ++
        [⟨s.qos.nextId, max s.now t, false, s.classAt (a / 64 * 64), BitVec.ofNat 43 (a / 64 * 64), 0, 0, false⟩] ∧
      u.qos.ctxs = s.qos.ctxs ∧ u.qos.pause = s.qos.pause ∧ changesOnly [.time, .out, .events, .qos] s u)) ∧
  (∀ (t : Nat) (hpa : BitVec 64) (s : State), s.cxlUp = true → s.link.ideBlocked = false → s.heldKind false < 1024 → s.thm.stopping = none →
    (s.memReady = false ∨ s.decodeHpa hpa.toNat = none) →
    completes (.cxlMemRead t hpa) s (fun u => u.sent.getLast? =
        some (.readData s.qos.nextId (Config.freeLine (u.fresh - 1)) true .none (Config.free (u.fresh - 1)) .lightLoad) ∧
      u.qos.ctxs = s.qos.ctxs ∧ u.qos.ingress = s.qos.ingress ∧ changesOnly [.time, .out, .events, .qos, .link] s u)) ∧
  (∀ (t : Nat) (hpa : BitVec 64) (s : State), s.cxlUp = false ∨ s.link.ideBlocked = true ∨ 1024 ≤ s.heldKind false →
    Machine.exec (.cxlMemRead t hpa) s = .next (s.tick t)) ∧
  (∀ (t : Nat) (r : Req) (x : NearSlot) (s : State), s.link.maint = [] → s.memReady = true → s.nextHeld = some r → r.write = false →
    s.qos.pause = none → s.link.selfRefresh = false → plainLine s (r.dpa.toNat / 64) = true → s.nearAt (r.dpa.toNat / 256) = some x →
    x.badTags = 0 → x.badData = 0 → x.filling = false → s.link.viral = false →
    completes (.admitHeldRequest t) s (fun u =>
      u.sent.getLast? = some (.readData r.id (x.copy.line (r.dpa.toNat / 64 % 4)) (x.copy.isPoison (r.dpa.toNat / 64 % 4)) .near
        (max (s.figure (r.dpa.toNat / 64) .near true + s.linkAdd + s.ideAdd) (max s.now t - r.t0)) .lightLoad) ∧
      u.qos.ingress = s.qos.ingress.filter (fun q => q.id != r.id) ∧
      changesOnly [.time, .out, .events, .regs, .qos, .cch, .map, .tly, .tq] s u)) ∧
  (∀ (t : Nat) (s : State), s.link.maint = [] → s.link.viral = false → s.memReady = false ∨ s.nextHeld = none →
    Machine.exec (.admitHeldRequest t) s = .next (s.tick t)) ∧
  (∀ (t : Nat) (r : Req) (q : List Req) (s : State), s.link.maint = [] → s.link.viral = true → s.qos.ingress = r :: q → s.qos.pause = none →
    completes (.admitHeldRequest t) s (fun u => u.qos.ingress = q ∧ u.qos.ctxs = s.qos.ctxs ∧
      u.sent.getLast? = some (if r.write then .writeDone r.id false false .lightLoad
        else .readData r.id (Config.freeLine s.fresh) true .none (Config.free s.fresh) .lightLoad) ∧
      changesOnly [.time, .out, .events, .qos] s u)) ∧
  (∀ (t : Nat) (l : BitVec 35) (f : Fill) (x : NearSlot) (b : BoardSlot) (c : Ctx) (s : State), s.fillAt l.toNat = some f → f.src = .board → f.after = [] →
    f.macBad = 0 → s.link.maint = [] → s.link.viral = false → s.fab.fatal = false → s.regionHolds 4 = false → s.nearAt l.toNat = some x →
    x.filling = true → x.badTags = 0 → x.badData = 0 → s.evictAt l.toNat = none → s.boardAt l.toNat = some b → b.corrected = false →
    b.badTags = 0 → b.badData = 0 → b.badRest = false → b.gone = 0 → s.waiters l.toNat = [c] →
    completes (.lineFillLanded t ⟨l, ⟨0, 0, 0⟩, ⟨false, 0, 0, 0, false, 0, false⟩⟩) s (fun u =>
      u.cch.near = Tab.put s.cch.near (nearIx l.toNat) (x.merge (s.landData f).1 (s.landData f).2) ∧
      u.cch.fills = s.cch.fills.filter (fun g => g.l.toNat != l.toNat) ∧
      u.sent.getLast? = some (.readData c.req.id
        (mergeLine (Machine.part (s.landData f).1 (c.req.dpa.toNat / 64 % 4)) c.snap c.snapMask)
        ((s.landData f).2.getLsbD (c.req.dpa.toNat / 64 % 4) && c.snapMask != BitVec.allOnes 64) .board
        (max (s.figure (c.req.dpa.toNat / 64) .board true + s.linkAdd + s.ideAdd) (max s.now t - c.req.t0)) .lightLoad) ∧
      changesOnly [.time, .out, .events, .regs, .qos, .cch, .tly, .tq] s u)) ∧
  (∀ (t : Nat) (l : BitVec 35) (n : NearUpset) (b : BoardUpset) (s : State), s.fillAt l.toNat = none →
    Machine.exec (.lineFillLanded t ⟨l, n, b⟩) s = .next (s.tick t))

/-- CXL_MEM_WRITE and WRITE_COMPLETION (03 R60, R61; 04 R91). An admitted write merges its enabled bytes, and only those, into the near line, marks it
dirty and is accepted 15 ns after arrival; a never-written line takes a new near slot. The completion follows 70 ns and the link's addition after
acceptance, not before. In failed-read-only, in a locked unit, before Memory_Active and outside every decoder the write completes and nothing is
stored; without credit nothing arrives. -/
def Obligations.MemoryWrites : Prop :=
  (∀ (t : Nat) (hpa : BitVec 64) (r : Req) (x : NearSlot) (s : State), admits s t hpa.toNat r = true → r.write = true →
    plainLine s (r.dpa.toNat / 64) = true → s.nearAt (r.dpa.toNat / 256) = some x → x.badTags = 0 → s.pfl.clean = false → s.flip.armed = none →
    completes (.cxlMemWrite t hpa r.data r.enables r.poison) s (fun u =>
      u.cch = { s.cch with
        near := Tab.put s.cch.near (nearIx (r.dpa.toNat / 256)) { x with
          copy := s.writeCopy { x.copy with reuse := min 7 (x.copy.reuse + 1) } (r.dpa.toNat / 64 % 4) r.data r.enables r.poison,
          dirtySince := some (x.dirtySince.getD r.t0),
          mask := if x.filling then x.mask ||| maskOf (r.dpa.toNat / 64 % 4) r.enables else x.mask,
          badData := if r.enables = BitVec.allOnes 64 then clearBad x.badData (r.dpa.toNat / 64 % 4) else x.badData },
        writeback := u.cch.writeback } ∧
      u.qos.ctxs = s.qos.ctxs ++ [⟨r, some (r.t0 + 15), .none, 0, 0, s.writeThrough⟩] ∧ u.med = s.med ∧ (r.poison = false → u.link = s.link) ∧
      (r.poison = false → r.enables ≠ BitVec.allOnes 64 → u.map = { s.map with onChip := u.map.onChip }) ∧
      changesOnly [.time, .out, .events, .regs, .link, .qos, .cch, .map, .pfl, .tly] s u)) ∧
  (∀ (t : Nat) (hpa : BitVec 64) (r : Req) (s : State), admits s t hpa.toNat r = true → r.write = true →
    plainLine s (r.dpa.toNat / 64) = true → Tab.find s.cch.near (nearIx (r.dpa.toNat / 256)) = none → s.evictAt (r.dpa.toNat / 256) = none →
    Tab.find s.cch.board (s.boardIx (r.dpa.toNat / 256)) = none → s.wbAt (r.dpa.toNat / 256) = none → s.inOverlay (r.dpa.toNat / 256) = false →
    s.noData (r.dpa.toNat / 16384) = true → s.pfl.clean = false → s.flip.armed = none →
    completes (.cxlMemWrite t hpa r.data r.enables r.poison) s (fun u =>
      u.cch = { s.cch with
        near := Tab.put s.cch.near (nearIx (r.dpa.toNat / 256))
          ⟨s.writeCopy (s.blankCopy (r.dpa.toNat / 256) 0) (r.dpa.toNat / 64 % 4) r.data r.enables r.poison, some r.t0, false, 0, 0, 0, 0⟩,
        writeback := u.cch.writeback } ∧
      u.qos.ctxs = s.qos.ctxs ++ [⟨r, some (r.t0 + 15), .none, 0, 0, s.writeThrough⟩] ∧ (r.poison = false → u.link = s.link) ∧
      changesOnly [.time, .out, .events, .regs, .link, .qos, .cch, .map, .pfl, .tly] s u)) ∧
  (∀ (t : Nat) (hpa : BitVec 64) (r : Req) (s : State), admits s t hpa.toNat r = true → r.write = true → s.fab.fatal = false →
    Tab.find s.cch.near (nearIx (r.dpa.toNat / 256)) = none → s.fro = true ∨ s.lockedUnit (unitOfLine (r.dpa.toNat / 64)) = true →
    completes (.cxlMemWrite t hpa r.data r.enables r.poison) s (fun u => u.sent.getLast? = some (.writeDone r.id false
      (s.fro && !s.lockedUnit (unitOfLine (r.dpa.toNat / 64)) && s.fencedSector (r.dpa.toNat / 256)) .lightLoad) ∧ u.cch = s.cch ∧
      u.med.store = s.med.store ∧ u.pfl = s.pfl ∧ changesOnly [.time, .out, .events, .regs, .qos, .map, .med, .key, .tly, .tq] s u)) ∧
  (∀ (t : Nat) (hpa : BitVec 64) (d : Line) (e : Enables) (p : Bool) (s : State), s.cxlUp = true → s.link.ideBlocked = false →
    s.heldKind true < 512 → s.thm.stopping = none → s.memReady = false ∨ s.decodeHpa hpa.toNat = none →
    completes (.cxlMemWrite t hpa d e p) s (fun u => u.sent.getLast? = some (.writeDone s.qos.nextId false false .lightLoad) ∧
      changesOnly [.time, .out, .events, .qos, .link] s u)) ∧
  (∀ (t : Nat) (hpa : BitVec 64) (d : Line) (e : Enables) (p : Bool) (s : State), s.cxlUp = false ∨ s.link.ideBlocked = true ∨
    512 ≤ s.heldKind true → Machine.exec (.cxlMemWrite t hpa d e p) s = .next (s.tick t)) ∧
  (∀ (t id a : Nat) (c : Ctx) (s : State), s.qos.ctxs.find? (fun c => c.req.id == id && c.req.write) = some c → c.acceptedAt = some a →
    c.logWait = false → s.dueAt a ≤ max s.now t →
    completes (.writeCompletion t id) s (fun u => u.sent.getLast? = some (.writeDone id true false .lightLoad) ∧
      u.qos.ctxs = s.qos.ctxs.filter (fun x => x.req.id != id) ∧ u.tly = { s.tly with bytesWr := s.tly.bytesWr + 64 } ∧
      changesOnly [.time, .out, .events, .regs, .qos, .tly, .tq] s u)) ∧
  (∀ (t id a : Nat) (c : Ctx) (s : State), s.qos.ctxs.find? (fun c => c.req.id == id && c.req.write) = some c → c.acceptedAt = some a →
    max s.now t < s.dueAt a ∨ c.logWait = true → Machine.exec (.writeCompletion t id) s = .next (s.tick t)) ∧
  (∀ (t id : Nat) (s : State), s.qos.ctxs = [] → Machine.exec (.writeCompletion t id) s = .next (s.tick t))

/-- BOARD_OFFER, DIRTY_AGE_PUSH and BOARD_SLOT_REWRITE (04 R93, Table 4-6, R99, R102). An offered line takes an empty slot; the dirty lines of one that the
slot holds replace the slot's; a dirty resident moves to the write-back buffer; a clean line colder than a dirty resident is declined and halves
the resident's reuse, and stays in the buffer until time moves on (log entry 70). At the age limit a dirty near line is offered and stays as a clean copy, not before. A slot is rewritten only when it is
due. -/
def Obligations.CacheMotion : Prop :=
  (∀ (t : Nat) (l : BitVec 35) (e : EvictEntry) (s : State), s.evictAt l.toNat = some e → e.refetch = 0 → e.declinedAt = none → s.regionHolds 4 = false →
    s.flip.armed = none → Tab.find s.cch.board (s.boardIx e.copy.l.toNat) = none →
    completes (.boardOffer t ⟨l, ⟨false, 0, 0, 0, false, 0, false⟩⟩) s (fun u => u.cch = { s.cch with
        board := Tab.put s.cch.board (s.boardIx e.copy.l.toNat) (boardOf e.copy 0),
        evict := s.cch.evict.filter (fun x => x.copy.l != e.copy.l),
        wb := if e.copy.dirty = 0 then s.cch.wb
          else s.cch.wb.map (fun w => if w.copy.l.toNat = e.copy.l.toNat then { w with superseded := true } else w) } ∧
      changesOnly [.time, .out, .events, .regs, .cch] s u)) ∧
  (∀ (t : Nat) (l : BitVec 35) (e : EvictEntry) (b : BoardSlot) (s : State), s.evictAt l.toNat = some e → e.refetch = 0 →
    e.declinedAt = none → s.regionHolds 4 = false → s.flip.armed = none → Tab.find s.cch.board (s.boardIx e.copy.l.toNat) = some b → b.copy.l = e.copy.l →
    b.corrected = false → b.badTags = 0 → b.badData = 0 → b.badRest = false →
    completes (.boardOffer t ⟨l, ⟨false, 0, 0, 0, false, 0, false⟩⟩) s (fun u => u.cch.evict = s.cch.evict.filter (fun x => x.copy.l != e.copy.l) ∧
      u.cch.board = (if e.copy.dirty = 0 then s.cch.board else Tab.put s.cch.board (s.boardIx e.copy.l.toNat) (b.take e.copy)) ∧
      u.cch.near = s.cch.near ∧ changesOnly [.time, .out, .events, .regs, .cch] s u)) ∧
  (∀ (t : Nat) (l : BitVec 35) (e : EvictEntry) (b : BoardSlot) (s : State), s.evictAt l.toNat = some e → e.refetch = 0 →
    e.declinedAt = none → s.regionHolds 4 = false → s.flip.armed = none → Tab.find s.cch.board (s.boardIx e.copy.l.toNat) = some b → b.copy.l ≠ e.copy.l →
    b.corrected = false → b.badTags = 0 → b.badData = 0 → b.badRest = false → b.copy.dirty ≠ 0 → e.copy.dirty = 0 → b.copy.reuse ≤ e.copy.reuse →
    s.wbRoom (s.boardIx e.copy.l.toNat) = true →
    completes (.boardOffer t ⟨l, ⟨false, 0, 0, 0, false, 0, false⟩⟩) s (fun u => u.cch = { s.cch with
        board := Tab.put s.cch.board (s.boardIx e.copy.l.toNat) (boardOf e.copy 0),
        evict := s.cch.evict.filter (fun x => x.copy.l != e.copy.l), wb := s.cch.wb ++ [⟨b.copy, false, false, false, false, b.gone⟩] } ∧
      changesOnly [.time, .out, .events, .regs, .cch] s u)) ∧
  (∀ (t : Nat) (l : BitVec 35) (e : EvictEntry) (b : BoardSlot) (s : State), s.evictAt l.toNat = some e → e.refetch = 0 →
    e.declinedAt = none → s.regionHolds 4 = false → Tab.find s.cch.board (s.boardIx e.copy.l.toNat) = some b → b.copy.l ≠ e.copy.l →
    b.corrected = false → b.badTags = 0 → b.badData = 0 → b.badRest = false → b.copy.dirty ≠ 0 → e.copy.dirty = 0 → e.copy.reuse < b.copy.reuse →
    completes (.boardOffer t ⟨l, ⟨false, 0, 0, 0, false, 0, false⟩⟩) s (fun u => u.cch = { s.cch with
        board := Tab.put s.cch.board (s.boardIx e.copy.l.toNat) { b with copy := { b.copy with reuse := b.copy.reuse / 2 } },
        evict := s.cch.evict.map (fun x => if x.copy.l = e.copy.l && (s.tick t).heldEvict x then { e with declinedAt := some (max s.now t) } else x) } ∧
      changesOnly [.time, .out, .events, .regs, .cch] s u)) ∧
  (∀ (t d : Nat) (i : BitVec 17) (x : NearSlot) (s : State), Tab.find s.cch.near i.toNat = some x → nearIx x.copy.l.toNat = i.toNat → x.badTags = 0 → x.badData = 0 →
    x.dirtySince = some d → d + s.run.policy.dirtyAge * usec ≤ max s.now t → x.filling = false → s.regionHolds 4 = false → s.fab.fatal = false →
    s.flip.armed = none → Tab.find s.cch.board (s.boardIx x.copy.l.toNat) = none →
    completes (.dirtyAgePush t ⟨i, ⟨0, 0, 0⟩, ⟨false, 0, 0, 0, false, 0, false⟩⟩) s (fun u =>
      u.cch.near = Tab.put s.cch.near i.toNat { x with copy := { x.copy with dirty := 0 }, dirtySince := none } ∧
      u.cch.board = Tab.put s.cch.board (s.boardIx x.copy.l.toNat) (boardOf x.copy 0) ∧ u.cch.evict = s.cch.evict ∧
      changesOnly [.time, .out, .events, .regs, .cch] s u)) ∧
  (∀ (t d : Nat) (i : BitVec 17) (x : NearSlot) (s : State), Tab.find s.cch.near i.toNat = some x → x.badTags = 0 → x.dirtySince = some d →
    max s.now t < d + s.run.policy.dirtyAge * usec → s.hurries x.copy = false →
    Machine.exec (.dirtyAgePush t ⟨i, ⟨0, 0, 0⟩, ⟨false, 0, 0, 0, false, 0, false⟩⟩) s = .next (s.tick t)) ∧
  (∀ (i : BitVec 25) (b : BoardSlot) (s : State), s.cch.rewrite.contains i.toNat = true → Tab.find s.cch.board i.toNat = some b →
    Machine.exec (.boardSlotRewrite i) s =
      .next { s with
        cch := { s.cch with
          rewrite := s.cch.rewrite.filter (fun k => k != i.toNat),
          board := Tab.put s.cch.board i.toNat { b with corrected := false } } }) ∧
  (∀ (t : Nat) (l : BitVec 35) (n : BitVec 17) (i : BitVec 25) (y : NearUpset) (z : BoardUpset) (s : State), s.evictAt l.toNat = none → Tab.find s.cch.near n.toNat = none →
    s.cch.rewrite.contains i.toNat = false →
    Machine.exec (.boardOffer t ⟨l, z⟩) s = .next (s.tick t) ∧ Machine.exec (.dirtyAgePush t ⟨n, y, z⟩) s = .next (s.tick t) ∧
    Machine.exec (.boardSlotRewrite i) s = .next s)

/-- WRITE_HOME, WRITE_HOME_ACK, REPLAY_HOME_WRITE and SHADOW_SETTLE (06 R153, R158; 04 R99, R100; 09 R258; 10 R284). A folio in a bead slot is updated in place:
its dirty lines are sealed and stored there, the entry is marked issued, a placement stands. The acknowledgement takes the placement and the
entry away. Replay-home sends the overlay's lines the same way, only from a draining slot. A shadow of a committed epoch becomes the base.
In failed-read-only nothing goes home. -/
def Obligations.WriteHomePath : Prop :=
  (∀ (t : Nat) (f : BitVec 29) (l : Loc) (w : WbEntry) (x : UnitKey) (s : State), s.cch.board = [] → s.cch.wb = [w] →
    w.copy.l.toNat / 64 = f.toNat → w.copy.dirty ≠ 0 → w.issued = false → w.superseded = false → s.epochMode f.toNat = false → s.fro = false →
    s.changesWait = false → s.regionHolds 4 = false → s.map.rebuilding.contains f.toNat = false → s.med.recheck = [] → s.med.updates = [] →
    (s.entry f.toNat).poisonedRange = false → s.heldKey (f.toNat * 256) w.copy.keyGen = false →
    Tab.find s.key.units (f.toNat / 16384) = some x → x.bound = true → Tab.find s.map.homes f.toNat = none →
    (s.entry f.toNat).loc = some l → (s.entry f.toNat).held = true → (s.entry f.toNat).bead = true →
    completes (.writeHome t f) s (fun u =>
      Tab.find u.map.homes f.toNat = some (homeOf 0 l true w.copy.homeLines (s.tagEpoch w.copy.epochTag) w.copy.epochTag false true (some l)) ∧
      u.cch = { s.cch with wb := [{ w with issued := true }], writeback := u.cch.writeback } ∧
      u.med.store = ((s.tick t).putLines f.toNat l w.copy.homeLines).med.store ∧ u.map.entries = s.map.entries ∧
      changesOnly [.time, .out, .events, .regs, .cch, .med, .map, .cal, .key, .tly, .flip] s u)) ∧
  (∀ (t : Nat) (f : BitVec 29) (s : State), s.cch.board = [] → s.cch.wb = [] ∨ s.fro = true →
    Machine.exec (.writeHome t f) s = .next (s.tick t)) ∧
  (∀ (t : Nat) (f : BitVec 29) (h : Home) (s : State), Tab.find s.map.homes f.toNat = some h → h.kind = 0 → h.bead = true → h.committed = true → s.updating f.toNat = false →
    s.cch.board = [] → s.pfl.wt = none → s.pfl.overlaySlot = none → s.pfl.overlay = [] → s.pfl.slots.all (fun d => d.st != 4) = true →
    s.ring.close = none →
    completes (.writeHomeAck t f) s (fun u => u.map = { s.map with homes := Tab.del s.map.homes f.toNat } ∧
      u.cch = { s.cch with
        wb := (s.cch.wb.filter (fun w => !(w.copy.l.toNat / 64 == f.toNat && w.issued) || w.again)).map
          (fun w => if w.copy.l.toNat / 64 == f.toNat && w.issued then { w with issued := false, again := false } else w),
        writeback := u.cch.writeback } ∧ changesOnly [.time, .cch, .map] s u)) ∧
  (∀ (t : Nat) (f : BitVec 29) (s : State), Tab.find s.map.homes f.toNat = none →
    Machine.exec (.writeHomeAck t f) s = .next (s.tick t)) ∧
  (∀ (t c k : Nat) (m : BitVec 256) (d : DumpLine) (l : Loc) (x : UnitKey) (s : State), s.draining = true → s.link.memActive = true → s.pfl.overlay = [(k, d)] →
    s.keptAside k = false → s.epochMode (k / 256) = false → s.fro = false → s.changesWait = false → s.regionHolds 4 = false →
    s.icFree 5 = true → s.map.rebuilding.contains (k / 256) = false → s.med.recheck = [] → s.med.updates = [] →
    (s.entry (k / 256)).poisonedRange = false →
    s.heldKey (k / 256 * 256 + k % 256) d.keyGen = false → Tab.find s.key.units (k / 256 / 16384) = some x → x.bound = true →
    Tab.find s.map.homes (k / 256) = none → (s.entry (k / 256)).loc = some l → (s.entry (k / 256)).held = true → (s.entry (k / 256)).bead = true → m.getLsbD (d.line % 256) = false →
    completes (.replayHomeWrite t c m) s (fun u => Tab.find u.map.homes (k / 256) =
        some (homeOf 0 l true [(⟨k % 256, d.data, d.poison⟩, d.keyGen)] (s.tagEpoch d.tag) d.tag false true (some l)) ∧
      u.med.store = ((s.tick t).putLines (k / 256) l [(⟨k % 256, d.data, d.poison⟩, d.keyGen)]).med.store ∧ u.pfl = s.pfl ∧ u.cch = s.cch ∧
      changesOnly [.time, .out, .events, .regs, .qos, .med, .map, .cal, .key, .tly, .flip] s u)) ∧
  (∀ (t c k : Nat) (m : BitVec 256) (d : DumpLine) (s : State), s.draining = true → s.link.memActive = true → s.icFree 5 = true →
    s.pfl.overlay = [(k, d)] → s.keptAside k = false → Tab.find s.map.homes (k / 256) = none → m.getLsbD (d.line % 256) = true →
    completes (.replayHomeWrite t c m) s (fun u => (∀ h, Tab.find u.map.homes (k / 256) = some h →
      h.lines = [⟨k % 256, Config.freeLine (s.tick t).fresh, true⟩]) ∧ u.pfl = s.pfl ∧
      changesOnly [.time, .out, .events, .regs, .qos, .med, .map, .cal, .key, .tly, .flip, .cch] s u)) ∧
  (∀ (t c : Nat) (m : BitVec 256) (s : State), s.draining = false ∨ s.link.memActive = false →
    Machine.exec (.replayHomeWrite t c m) s = .next (s.tick t)) ∧
  (∀ (t : Nat) (f : BitVec 29) (x : Shadow) (s : State), Tab.find s.ring.shadows f.toNat = some x → x.epoch ≤ s.ring.committed →
    s.changesWait = false → s.heldEntry f.toNat = false → Tab.find s.map.homes f.toNat = none → s.ring.pending = false → s.ring.provisional = false →
    completes (.shadowSettle t f) s (fun u => u.ring = { s.ring with shadows := Tab.del s.ring.shadows f.toNat } ∧
      u.entry f.toNat = { ((s.entry f.toNat).placed x.loc x.bead) with shadow := false, epochOpen := false } ∧
      u.map.tail = s.map.tail ++ [⟨f.toNat, some { ((s.entry f.toNat).placed x.loc x.bead) with shadow := false, epochOpen := false }, 9⟩] ∧
      u.med.store = s.med.store ∧ changesOnly [.time, .out, .events, .ring, .map, .med] s u)) ∧
  (∀ (t : Nat) (f : BitVec 29) (s : State), Tab.find s.ring.shadows f.toNat = none → Machine.exec (.shadowSettle t f) s = .next (s.tick t))

/-- DIE_OPERATION_COMPLETE, OPERATION_SUSPENDED, OPERATION_RESUME, DIE_COMMAND_TIMEOUT, CHANNEL_GATE, CHANNEL_WAKE_COMPLETE and
STRIPE_PAGE_FILL_TIMEOUT (05 R115, R125, R131, R132, R137; 06 R154). A sense with up to 21 errors gives its fill the sector's data, one with more
leaves it to soft decode. A write, program or reset that ends leaves the die idle; a failed program retires the member block and draws on the
spare. An operation is suspended within its limit and resumed after 8 reads, 4 µs or with nothing queued. A command 20 µs late is reissued, a
third within 1 s retires the die. An idle channel is gated, a page is filled up 2 ms after its first folio. -/
def Obligations.DieOperations : Prop :=
  (∀ (t n : Nat) (i : Fin 64) (l : BitVec 35) (p : List (Nat × Bool)) (f : Fill) (s : State), s.fitted i.val = true → (s.die i.val).retired = false →
    s.railsOn = true → s.dieHeld i.val = false → s.fillAt l.toNat = some f → f.phase = .issued → f.src = .one ∨ f.src = .four →
    s.fillDie f = some i.val → s.servesNext i.val f = true → (s.die i.val).op = none → s.med.gated.getLsbD (dieChannel i.val) = false →
    s.mediaThrottle = 0 → quietDies s none = true → s.sectorGone l.toNat = false →
    (s.extentAt (l.toNat * 256)).speculative = false → n + s.flipsIn l.toNat ≤ 21 →
    completes (.dieOperationComplete t i (.sense l n 0 p)) s (fun u => u.cch = { s.cch with
        fills := s.cch.fills.map (fun x => if x.l = f.l then
          { f with
            phase := .arrived, data := (s.readSector l.toNat 0).1, poison := (s.readSector l.toNat 0).2.1,
            macBad := (s.readSector l.toNat 0).2.2 } else x) } ∧
      changesOnly [.time, .out, .events, .regs, .cch, .med, .cal] s u)) ∧
  (∀ (t n : Nat) (i : Fin 64) (l : BitVec 35) (p : List (Nat × Bool)) (f : Fill) (s : State), s.fitted i.val = true → (s.die i.val).retired = false →
    s.railsOn = true → s.dieHeld i.val = false → s.fillAt l.toNat = some f → f.phase = .issued → f.src = .one ∨ f.src = .four →
    s.fillDie f = some i.val → s.servesNext i.val f = true → (s.die i.val).op = none → s.med.gated.getLsbD (dieChannel i.val) = false →
    s.mediaThrottle = 0 → quietDies s none = true → 21 < n + s.flipsIn l.toNat →
    completes (.dieOperationComplete t i (.sense l n 0 p)) s (fun u => u.cch = { s.cch with
        fills := s.cch.fills.map (fun x => if x.l = f.l then { f with phase := .soft } else x) } ∧
      changesOnly [.time, .events, .regs, .cch, .med] s u)) ∧
  (∀ (t b : Nat) (k : Bool) (i : Fin 64) (o : DieOp) (s : State), s.fitted i.val = true → (s.die i.val).retired = false → s.railsOn = true →
    s.dieHeld i.val = false → (s.die i.val).op = some o → o.suspended = false → o.block = b → quietDies s none = true →
    (o.op = 2 → completes (.dieOperationComplete t i (.write k b)) s (fun u => u.med = { s.med with
        dies := setAt s.med.dies i.val { s.die i.val with op := none }, allowEventAt := u.med.allowEventAt } ∧
      changesOnly [.time, .out, .events, .med] s u)) ∧
    (o.op = 3 → completes (.dieOperationComplete t i (.program true b)) s (fun u => u.med = { s.med with
        dies := setAt s.med.dies i.val { s.die i.val with op := none }, allowEventAt := u.med.allowEventAt } ∧
      changesOnly [.time, .out, .events, .med] s u))) ∧
  (∀ (t b : Nat) (i : Fin 64) (o : DieOp) (x : StripeBlock) (s : State), s.fitted i.val = true → (s.die i.val).retired = false →
    s.railsOn = true → s.dieHeld i.val = false → (s.die i.val).op = some o → o.suspended = false → o.block = b → o.op = 4 →
    Tab.find s.med.blocks (blkKey (dieGroup i.val) b) = some x → x.members ≠ [] →
    quietDies s (some (blkKey (dieGroup i.val) b, dieChannel i.val)) = true →
    completes (.dieOperationComplete t i (.reset true b)) s (fun u => u.med = { s.med with
        dies := setAt s.med.dies i.val { s.die i.val with op := none }, allowEventAt := u.med.allowEventAt,
        blocks := Tab.put s.med.blocks (blkKey (dieGroup i.val) b) { x with toReset := [] } } ∧
      changesOnly [.time, .out, .events, .med] s u)) ∧
  (∀ (t b : Nat) (i : Fin 64) (o : DieOp) (s : State), s.fitted i.val = true → (s.die i.val).retired = false → s.railsOn = true →
    s.dieHeld i.val = false → (s.die i.val).op = some o → o.op = 3 → o.suspended = false → o.block = b → quietDies s none = true →
    s.med.dies.length = 64 →
    s.block (dieGroup i.val) b = StripeBlock.blank → (s.die i.val).retiredBlocks < 1572 →
    completes (.dieOperationComplete t i (.program false b)) s (fun u => u.med = { s.med with
        dies := setAt s.med.dies i.val { s.die i.val with
          op := none, bad := (s.die i.val).bad ++ [b], retiredBlocks := (s.die i.val).retiredBlocks + 1 },
        allowEventAt := u.med.allowEventAt } ∧
      u.map.losses = s.map.losses + 10 ∧ u.map.entries = s.map.entries ∧ changesOnly [.time, .out, .events, .regs, .med, .map] s u)) ∧
  (∀ (t : Nat) (i : Fin 64) (o : DieOp) (s : State), s.fitted i.val = true → (s.die i.val).op = some o → o.suspended = false →
    o.suspends < suspendMax o.op → (s.readsOn i.val).any (fun a => decide (a + suspendEntry o.op ≤ max s.now t)) = true →
    completes (.operationSuspended t i) s (fun u => u.med = { s.med with
        dies := setAt s.med.dies i.val { s.die i.val with
          op := some { o with suspended := true, suspendedAt := max s.now t, suspends := o.suspends + 1, reads := 0 } } } ∧
      changesOnly [.time, .out, .events, .regs, .med] s u)) ∧
  (∀ (t : Nat) (i : Fin 64) (o : DieOp) (s : State), s.fitted i.val = true → (s.die i.val).op = some o → o.suspended = true →
    8 ≤ o.reads ∨ o.suspendedAt + 4 * usec ≤ max s.now t ∨ s.readsOn i.val = [] →
    Machine.exec (.operationResume t i) s = .next ((s.tick t).setDie i.val { s.die i.val with
      op := some { o with suspended := false, endAt := o.endAt + (max s.now t - o.suspendedAt) + resumeTime o.op } })) ∧
  (∀ (t : Nat) (i : Fin 64) (o : DieOp) (s : State), s.fitted i.val = true → (s.die i.val).op = some o → suspendMax o.op ≤ o.suspends →
    o.suspended = false →
    Machine.exec (.operationSuspended t i) s = .next (s.tick t) ∧ Machine.exec (.operationResume t i) s = .next (s.tick t)) ∧
  (∀ (t : Nat) (i : Fin 64) (o : DieOp) (s : State), s.fitted i.val = true → (s.die i.val).retired = false → (s.die i.val).op = some o →
    o.suspended = false → o.endAt + 20 * usec ≤ max s.now t → (s.die i.val).timeouts = [] →
    completes (.dieCommandTimeout t i) s (fun u => u.med = { s.med with
        dies := setAt s.med.dies i.val { s.die i.val with
          timeouts := [max s.now t], op := some { o with endAt := max s.now t + opTime o.op } } } ∧
      changesOnly [.time, .out, .events, .regs, .med] s u)) ∧
  (∀ (t x y : Nat) (i : Fin 64) (o : DieOp) (s : State), s.fitted i.val = true → (s.die i.val).retired = false → (s.die i.val).op = some o →
    o.suspended = false → o.endAt + 20 * usec ≤ max s.now t → (s.die i.val).timeouts = [x, y] → max s.now t < x + sec → max s.now t < y + sec →
    s.med.dies.length = 64 → Tab.find s.map.pages (dieGroup i.val) = none → s.med.updates = [] →
    completes (.dieCommandTimeout t i) s (fun u => (u.die i.val).retired = true ∧ (u.die i.val).cause = 1 ∧ (u.die i.val).op = none ∧
      changesOnly [.time, .out, .events, .regs, .med, .map, .cal, .cch, .tly] s u)) ∧
  (∀ (t : Nat) (c : Fin 16) (s : State), s.railsOn = true → s.cch.fills = [] → s.med.waking.getLsbD c.val = false →
    s.restarting (mediaRegion c.val) = false → s.med.usedAt.getD c.val 0 + 100 * msec ≤ max s.now t →
    (∀ p : Fin 4, (s.die (4 * c.val + p.val)).op = none) →
    Machine.exec (.channelGate ⟨t, c⟩) s = .next { s.tick t with
      med := { s.med with gated := s.med.gated ||| BitVec.twoPow 16 c.val } }) ∧
  (∀ (t : Nat) (c : Fin 16) (p : Fin 4) (s : State), (s.die (4 * c.val + p.val)).op.isSome = true ∨
      max s.now t < s.med.usedAt.getD c.val 0 + 100 * msec →
    Machine.exec (.channelGate ⟨t, c⟩) s = .next (s.tick t)) ∧
  (∀ (t n : Nat) (c : Fin 16) (k : Bool) (s : State), s.med.gated.getLsbD c.val = true → s.restarting (mediaRegion c.val) = false →
    quietDies s none = true →
    completes (.channelWakeComplete t c n k) s (fun u => u.med = { s.med with
        gated := s.med.gated &&& ~~~(BitVec.twoPow 16 c.val), waking := s.med.waking &&& ~~~(BitVec.twoPow 16 c.val),
        usedAt := setAt s.med.usedAt c.val (max s.now t) } ∧
      changesOnly [.time, .out, .events, .regs, .med] s u)) ∧
  (∀ (t n : Nat) (c : Fin 16) (k : Bool) (s : State), s.med.gated.getLsbD c.val = false →
    Machine.exec (.channelWakeComplete t c n k) s = .next (s.tick t)) ∧
  (∀ (t a : Nat) (g : Fin 4) (p : OpenPage) (s : State), Tab.find s.map.pages g.val = some p → p.since = some a → a + 2 * msec ≤ max s.now t →
    p.folios ≠ [] → p.folios.length < (s.block g.val p.block).members.length - 1 → s.beadFull = false → s.opsStop = false →
    completes (.stripePageFillTimeout t g) s (fun u =>
      u.map.progs = s.map.progs ++ [⟨g.val, p.block, p.page,
        p.folios ++ List.replicate ((s.block g.val p.block).members.length - 1 - p.folios.length) none, []⟩] ∧
      Tab.find u.map.pages g.val = (if p.page < 63 then some ⟨p.block, p.page + 1, [], none⟩ else none) ∧
      u.map.entries = s.map.entries ∧ u.med.blocks = s.med.blocks ∧ u.med.store = s.med.store ∧ changesOnly [.time, .med, .map] s u)) ∧
  (∀ (t a : Nat) (g : Fin 4) (p : OpenPage) (s : State), Tab.find s.map.pages g.val = some p → p.since = some a → max s.now t < a + 2 * msec →
    Machine.exec (.stripePageFillTimeout t g) s = .next (s.tick t)) ∧
  (∀ (t : Nat) (g : Fin 4) (s : State), Tab.find s.map.pages g.val = none → Machine.exec (.stripePageFillTimeout t g) s = .next (s.tick t))

/-- RECONSTRUCTION_COMPLETE, SOFT_DECODE_COMPLETE, MAC_CHECK_COMPLETE, LOST_NODE_REWRITE_COMPLETE, REBUILD_MOVE and REBUILD_COMPLETE (05 R128, R130, R133;
07 R189; 08 R216 to R218). A reconstructed or soft-decoded sector arrives, and its stripe block becomes due for rewrite; a peer that fails sends a
busy-die reconstruction back to its die with its allowance. A soft decode that fails goes on to reconstruction, once, then the sector is lost. A
fill whose MACs hold is judged; a bad one is reconstructed once, then poisoned; one already sent raises viral where its extent asks for it. A
rebuild counts its moves and ends with the die rebuilt. -/
def Obligations.RecoveryAndRebuild : Prop :=
  (∀ (t : Nat) (l : BitVec 35) (f : Fill) (s : State), s.fillAt l.toNat = some f → f.src = .recon → f.phase = .issued →
    s.sectorGone l.toNat = false → s.stripeMoving l.toNat = false → (s.die (s.sectorDie l.toNat)).retired = false →
    s.canReconstruct l.toNat = true → (s.extentAt (l.toNat * 256)).speculative = false →
    completes (.reconstructionComplete t l []) s (fun u => u.cch = { s.cch with
        fills := s.cch.fills.map (fun x => if x.l = f.l then
          { f with
            phase := .arrived, tried := true, data := (s.readSector l.toNat 0).1, poison := (s.readSector l.toNat 0).2.1,
            macBad := (s.readSector l.toNat 0).2.2 } else x) } ∧
      changesOnly [.time, .out, .events, .regs, .cch, .med, .cal] s u)) ∧
  (∀ (t : Nat) (l : BitVec 35) (p : Fin 64 × Bool) (r : List (Fin 64 × Bool)) (f : Fill) (s : State), s.fillAt l.toNat = some f → f.src = .recon → f.phase = .issued →
    s.stripeMoving l.toNat = false → (s.die (s.sectorDie l.toNat)).retired = false →
    completes (.reconstructionComplete t l (p :: r)) s (fun u => u.cch = { s.cch with
        fills := s.cch.fills.map (fun x => if x.l = f.l then
          { f with src := (if s.beadAt (l.toNat / 64) then .one else .four), spent := false, tried := true, raced := false } else x) } ∧
      u.med.allow = (if f.spent then setAt s.med.allow (dieGroup (s.sectorDie l.toNat))
          (min 960 (s.med.allow.getD (dieGroup (s.sectorDie l.toNat)) 0 + 15)) else s.med.allow) ∧
      changesOnly [.time, .out, .events, .regs, .cch, .med, .cal] s u)) ∧
  (∀ (t : Nat) (l : BitVec 35) (f : Fill) (b : StripeBlock) (s : State), s.fillAt l.toNat = some f → f.phase = .rebuild →
    s.sectorGone l.toNat = false → s.stripeMoving l.toNat = false → s.canRecover l.toNat = true →
    (s.extentAt (l.toNat * 256)).speculative = false → Tab.find s.med.blocks (s.sectorBlock l.toNat) = some b →
    completes (.reconstructionComplete t l []) s (fun u => u.cch = { s.cch with
        fills := s.cch.fills.map (fun x => if x.l = f.l then
          { f with
            src := .recon, phase := .arrived, tried := true, data := (s.readSector l.toNat 0).1,
            poison := (s.readSector l.toNat 0).2.1, macBad := (s.readSector l.toNat 0).2.2 } else x) } ∧
      (Tab.find u.med.blocks (s.sectorBlock l.toNat)).any (fun x => x.due.isSome) = true ∧
      changesOnly [.time, .out, .events, .regs, .cch, .med, .cal] s u)) ∧
  (∀ (t n m : Nat) (l : BitVec 35) (f : Fill) (b : StripeBlock) (s : State), s.fillAt l.toNat = some f → f.phase = .soft →
    n + s.flipsIn l.toNat ≤ 27 → m ≤ 21 → s.sectorGone l.toNat = false → (s.extentAt (l.toNat * 256)).speculative = false →
    Tab.find s.med.blocks (s.sectorBlock l.toNat) = some b → b.due = none →
    completes (.softDecodeComplete t l n m) s (fun u => u.cch = { s.cch with
        fills := s.cch.fills.map (fun x => if x.l = f.l then
          { f with
            src := .soft, phase := .arrived, data := (s.readSector l.toNat 0).1, poison := (s.readSector l.toNat 0).2.1,
            macBad := (s.readSector l.toNat 0).2.2 } else x) } ∧
      Tab.find u.med.blocks (s.sectorBlock l.toNat) = some { b with due := some 2, dueSeq := s.cal.dueCount } ∧
      changesOnly [.time, .out, .events, .regs, .cch, .med, .cal] s u)) ∧
  (∀ (t n m : Nat) (l : BitVec 35) (f : Fill) (s : State), s.fillAt l.toNat = some f → f.phase = .soft → 27 < n + s.flipsIn l.toNat ∨ 21 < m →
    f.tried = false → s.sectorGone l.toNat = false → s.canRecover l.toNat = true →
    completes (.softDecodeComplete t l n m) s (fun u => u.cch = { s.cch with
        fills := s.cch.fills.map (fun x => if x.l = f.l then { f with phase := .rebuild, tried := true } else x) } ∧
      changesOnly [.time, .out, .events, .regs, .cch] s u)) ∧
  (∀ (t n m : Nat) (l : BitVec 35) (f : Fill) (s : State), s.fillAt l.toNat = some f → f.phase = .soft → 27 < n + s.flipsIn l.toNat ∨ 21 < m →
    f.tried = true →
    completes (.softDecodeComplete t l n m) s (fun u => u.cch = { s.cch with
        fills := s.cch.fills.map (fun x => if x.l = f.l then { f with phase := .judged, poison := 15, macBad := 0 } else x) } ∧
      changesOnly [.time, .out, .events, .regs, .cch, .med, .map, .tly] s u)) ∧
  (∀ (t : Nat) (l : BitVec 35) (f : Fill) (s : State), s.fillAt l.toNat = some f → f.phase = .arrived → s.regionHolds 3 = false → f.macBad = 0 → s.key.lost = [] →
    Machine.exec (.macCheckComplete t l none) s = .next { s.tick t with
      cch := { s.cch with
        fills := s.cch.fills.map (fun x => if x.l = f.l then { f with phase := .judged } else x) } }) ∧
  (∀ (t : Nat) (l : BitVec 35) (f : Fill) (s : State), s.fillAt l.toNat = some f → f.phase = .arrived → s.regionHolds 3 = false → f.macBad ≠ 0 → f.sent = 0 → f.tried = false →
    s.key.lost = [] → s.canReconstruct l.toNat = true →
    Machine.exec (.macCheckComplete t l none) s = .next { s.tick t with
      cch := { s.cch with
        fills := s.cch.fills.map (fun x => if x.l = f.l then { f with phase := .rebuild, tried := true } else x) } }) ∧
  (∀ (t : Nat) (l : BitVec 35) (f : Fill) (s : State), s.fillAt l.toNat = some f → f.phase = .arrived → s.regionHolds 3 = false → f.sent = 0 → f.tried = true → s.key.lost = [] →
    completes (.macCheckComplete t l none) s (fun u => u.cch = { s.cch with
        fills := s.cch.fills.map (fun x => if x.l = f.l then { f with phase := .judged, poison := f.poison ||| f.macBad } else x) } ∧
      changesOnly [.time, .out, .events, .regs, .cch] s u)) ∧
  (∀ (t : Nat) (l : BitVec 35) (f : Fill) (s : State), s.fillAt l.toNat = some f → f.phase = .arrived → s.regionHolds 3 = false → f.sent = 15 → f.macBad.getLsbD 0 = true →
    s.key.lost = [] → (s.extentAt (4 * l.toNat * 64)).viral = true →
    completes (.macCheckComplete t l none) s (fun u => u.link = { s.link with viral := true } ∧
      u.cch = { s.cch with
        fills := s.cch.fills.map (fun x => if x.l = f.l then { f with phase := .judged, poison := f.poison ||| f.macBad } else x) } ∧
      changesOnly [.time, .out, .events, .regs, .cch, .link] s u)) ∧
  (∀ (t n : Nat) (l : BitVec 35) (v : Fin 4) (f : Fill) (s : State), s.fillAt l.toNat = some f → f.phase = .arrived → s.regionHolds 3 = false → f.macBad = 0 → s.key.lost = [] →
    s.map.entries = [] →
    completes (.macCheckComplete t l (some (.node v n false))) s (fun u => u.key.lost = [(v.val, n)] ∧ u.map.entries = [] ∧
      changesOnly [.time, .out, .events, .regs, .cch, .med, .map, .key] s u)) ∧
  (∀ (t n : Nat) (v : Fin 4) (s : State), s.key.lost.contains (v.val, n) = true → s.map.entries = [] →
    Machine.exec (.lostNodeRewriteComplete t v n) s = .next { s.tick t with
      key := { s.key with lost := s.key.lost.filter (fun e => e != (v.val, n)) } }) ∧
  (∀ (t n : Nat) (v : Fin 4) (s : State), s.key.lost.contains (v.val, n) = false →
    Machine.exec (.lostNodeRewriteComplete t v n) s = .next (s.tick t)) ∧
  (∀ (t n m : Nat) (l : BitVec 35) (p : List (Fin 64 × Bool)) (s : State), s.fillAt l.toNat = none →
    Machine.exec (.reconstructionComplete t l p) s = .next (s.tick t) ∧ Machine.exec (.softDecodeComplete t l n m) s = .next (s.tick t) ∧
    Machine.exec (.macCheckComplete t l none) s = .next (s.tick t)) ∧
  (∀ (t : Nat) (g : Fin 4) (f : BitVec 29) (r : Rebuild) (s : State), s.med.rebuild = some r → r.group = g.val →
    (s.toRebuild r.group r.die).contains f.toNat = true → Tab.find s.map.homes f.toNat = none → s.opsStop = false → s.changesWait = false →
    s.railsOn = true → s.icFree 1 = true → s.med.updates = [] → (∀ i : Fin 64, (s.die i.val).retired = true → i.val = r.die) →
    (s.readLoc f.toNat).all (fun l => s.membersReady l.group (s.block l.group l.block)) = true →
    completes (.rebuildMove t g f) s (fun u => u.med.rebuild = some r ∧
      u.med.rebuildQueue = s.med.rebuildQueue ∧ u.cch = s.cch ∧ changesOnly [.time, .out, .events, .regs, .qos, .med, .map, .cal, .key, .tly] s u)) ∧
  (∀ (t : Nat) (g : Fin 4) (r : Rebuild) (s : State), s.med.rebuild = some r → r.group = g.val → s.toRebuild r.group r.die = [] →
    s.integOn r.group r.die = [] → s.med.rebuildQueue = [] → s.med.dies.length = 64 → r.die < 64 →
    completes (.rebuildComplete t g) s (fun u => u.med.rebuild = none ∧ (u.die r.die).rebuilt = true ∧
      u.med.rebuiltGroups = s.med.rebuiltGroups ++ [g.val] ∧ u.map.entries = s.map.entries ∧
      changesOnly [.time, .out, .events, .regs, .med, .map] s u)) ∧
  (∀ (t : Nat) (g : Fin 4) (f : BitVec 29) (s : State), s.med.rebuild = none →
    Machine.exec (.rebuildMove t g f) s = .next (s.tick t) ∧ Machine.exec (.rebuildComplete t g) s = .next (s.tick t))

/-- The map's commands (06 R155 to R170). A tail that is due goes to the journal, 15 records a sector; a sealed checkpoint moves the journal's start;
a failed one begins again. A full bead area demotes its coldest folio to an open page, where it stays a copy until the page is complete; a folio
written home 2^20 times in one slot rotates to another bead block. Reclaim copies a source's versions, commits those that still lie there, and
frees it when its records are durable and no read is in flight. A wear spread over 20,000 ppm moves the coldest stripe block. -/
def Obligations.MapAndReclaim : Prop :=
  (∀ (t a : Nat) (s : State), s.railsOn = true → s.pfl.dump = none → s.map.tail ≠ [] → s.map.tailSince = some a →
    15 ≤ s.map.tail.length ∨ a + 50 * usec ≤ max s.now t → s.map.waiting = false → mapFlows s = true →
    completes (.journalTailFlush t) s (fun u => u.map.journal =
        (s.map.journal ++ [JSector.mk (s.map.committed + 1) (s.map.tail.take 15) (!(s.map.tail.take 15).any (fun c => c.kind == 4))]).filter
          (fun x => decide (s.map.ckptOlder ≤ x.seq)) ∧
      u.map.tail = s.map.tail.drop 15 ∧ u.map.committed = s.map.committed + 1 ∧ u.map.entries = s.map.entries ∧
      u.map.retained = (s.map.committed + 2 - s.map.ckptOlder) * 256 ∧ changesOnly [.time, .out, .events, .map] s u)) ∧
  (∀ (t : Nat) (s : State), s.railsOn = false ∨ s.pfl.dump ≠ none ∨
      (s.map.tail = [] ∧ s.map.tailSince = none ∧ s.map.discard = none) → Machine.exec (.journalTailFlush t) s = .next (s.tick t)) ∧
  (∀ (t a : Nat) (s : State), s.map.tail.length < 15 → s.map.tailSince = some a → max s.now t < a + 50 * usec →
    s.map.tail.any (fun c => c.kind == 4) = false → s.map.discard = none → Machine.exec (.journalTailFlush t) s = .next (s.tick t)) ∧
  (∀ (t n k b : Nat) (s : State), s.map.ckptWriting = some (k, b) → s.map.committed + 1 - b ≤ s.ckptThreshold →
    s.map.journal.any (fun x => !x.settled && decide (x.seq < b)) = false → mapFlows s = true →
    completes (.checkpointSealed t n) s (fun u => u.map.ckptStart = b ∧ u.map.ckptOlder = s.map.ckptStart ∧ u.map.ckptSlot = k ∧
      u.map.ckpts = setAt s.map.ckpts k ⟨true, b, s.map.committed, s.map.replay s.map.ckptSlot, s.map.beads⟩ ∧
      u.map.ckptWriting = none ∧ u.map.retained = (s.map.committed + 1 - s.map.ckptStart) * 256 ∧ u.map.entries = s.map.entries ∧
      changesOnly [.time, .out, .events, .map] s u)) ∧
  (∀ (t k b : Nat) (i : Fin 64) (s : State), s.fitted i.val = true → s.map.ckptWriting = some (k, b) →
    completes (.checkpointWriteFailed t i) s (fun u => u.map = { s.map with ckptWriting := some (k, s.map.committed + 1) } ∧
      changesOnly [.time, .out, .events, .map] s u)) ∧
  (∀ (t n : Nat) (i : Fin 64) (s : State), s.fitted i.val = true → s.map.ckptWriting = none →
    Machine.exec (.checkpointSealed t n) s = .next (s.tick t) ∧ Machine.exec (.checkpointWriteFailed t i) s = .next (s.tick t)) ∧
  (∀ (t w : Nat) (d : Fin 4) (s : State), Machine.exec (.mapWordRebuildComplete t d w none) s = .next { s.tick t with
      map := { s.map with
        rebuilding := s.map.rebuilding ++ (s.wordFolios d.val w).filter (fun f => !s.map.rebuilding.contains f) } }) ∧
  (∀ (t n w : Nat) (d : Fin 4) (s : State), (s.wordFolios d.val w).any (fun f => s.map.rebuilding.contains f) = true →
    completes (.mapWordRebuildComplete t d w (some (true, n))) s (fun u =>
      u.map = { s.map with rebuilding := s.map.rebuilding.filter (fun f => !(s.wordFolios d.val w).contains f) } ∧
      changesOnly [.time, .out, .events, .map] s u)) ∧
  (∀ (t n w : Nat) (d : Fin 4) (s : State), (s.wordFolios d.val w).any (fun f => s.map.rebuilding.contains f) = true →
    s.map.poison.length ≤ 7424 → s.changesWait = false → s.map.tail.length ≤ 4093 →
    completes (.mapWordRebuildComplete t d w (some (false, n))) s (fun u =>
      (s.wordFolios d.val w).all (fun f => (List.range 256).all (fun i => u.listed (f * 256 + i)) && (u.entry f).poisonedRange &&
        (u.entry f).loc == (s.entry f).loc) = true ∧
      u.map.rebuilding = s.map.rebuilding.filter (fun f => !(s.wordFolios d.val w).contains f) ∧
      changesOnly [.time, .out, .events, .regs, .map, .tly] s u)) ∧
  (∀ (t w : Nat) (d : Fin 4) (r : Bool × Nat) (s : State), (s.wordFolios d.val w).any (fun f => s.map.rebuilding.contains f) = false →
    Machine.exec (.mapWordRebuildComplete t d w (some r)) s = .next (s.tick t)) ∧
  (∀ s : State, Machine.exec .demotionSweep s = .next { s with
      map := { s.map with beads := Tab.mapV s.map.beads (fun _ b => { b with clock := b.clock - 1 }) } }) ∧
  (∀ (t : Nat) (g : Fin 4) (r : List Nat) (f : BitVec 29) (o : Loc) (p : OpenPage) (s : State), s.movesStop = false → s.beadFull = true → s.icFree 1 = true →
    s.coldest = some f.toNat → (s.entry f.toNat).loc = some o → sourceClean s o = true → (s.turn s.map.nextGroup).filter s.groupOpen = g.val :: r → Tab.find s.map.pages g.val = some p →
    p.folios.length + 2 < (s.block g.val p.block).members.length →
    completes (.demotion t f) s (fun u =>
      Tab.find u.map.homes f.toNat = some ⟨2, ⟨g.val, p.block, p.page * ((s.block g.val p.block).members.length - 1) + p.folios.length⟩,
        false, [], 0, 0, s.epochMode f.toNat, false, false, some o⟩ ∧
      Tab.find u.map.pages g.val = some { p with folios := p.folios ++ [some f.toNat], since := some (p.since.getD (max s.now t)) } ∧
      u.map.entries = s.map.entries ∧ changesOnly [.time, .out, .events, .regs, .qos, .med, .map, .cal] s u)) ∧
  (∀ (t : Nat) (f : BitVec 29) (s : State), s.movesStop = true ∨ s.beadFull = false → Machine.exec (.demotion t f) s = .next (s.tick t)) ∧
  (∀ (t : Nat) (f : BitVec 29) (b : Bead) (o l : Loc) (s : State), s.movesStop = false → Tab.find s.map.beads f.toNat = some b →
    (s.entry f.toNat).loc = some o → (s.entry f.toNat).bead = true → 1048576 ≤ b.homes → Tab.find s.map.homes f.toNat = none →
    s.icFree 1 = true → sourceClean s o = true → s.med.updates = [] → s.beadFree false (some (blkKey o.group o.block)) = some l →
    (s.die (s.dieAt l 0)).retired = false →
    completes (.beadRotation t f) s (fun u =>
      Tab.find u.map.homes f.toNat = some ⟨3, l, true, [], 0, 0, s.epochMode f.toNat, false, false, some o⟩ ∧
      u.med.updates.map (fun x => (x.folio, x.loc)) = [(f.toNat, l)] ∧ u.map.entries = s.map.entries ∧ u.map.beads = s.map.beads ∧
      changesOnly [.time, .out, .events, .regs, .qos, .med, .map, .cal] s u)) ∧
  (∀ (t : Nat) (f : BitVec 29) (b : Bead) (s : State), Tab.find s.map.beads f.toNat = some b → b.homes < 1048576 →
    Machine.exec (.beadRotation t f) s = .next (s.tick t)) ∧
  (∀ (t b f : Nat) (g h : Fin 4) (r : List Nat) (l : Loc) (p : OpenPage) (s : State), s.movesStop = false → Tab.find s.map.reclaim g.val = none →
    s.icFree 0 = true → s.map.floorOn.getLsbD g.val = true ∨ s.idleNow = true → s.source g.val = some b → s.versionsIn g.val b = [(f, l)] → s.integIn g.val b = [] →
    f < 2 ^ 29 → sourceClean s l = true → (s.turn s.map.nextGroup).filter s.groupOpen = h.val :: r → Tab.find s.map.pages h.val = some p →
    p.folios.length + 2 < (s.block h.val p.block).members.length →
    completes (.reclaimSourceChosen t g) s (fun u =>
      Tab.find u.map.reclaim g.val = some ⟨b, 0,
        [(f, ⟨h.val, p.block, p.page * ((s.block h.val p.block).members.length - 1) + p.folios.length⟩)]⟩ ∧
      u.map.entries = s.map.entries ∧ u.map.tail = s.map.tail ∧ changesOnly [.time, .out, .events, .regs, .qos, .med, .map, .cal] s u)) ∧
  (∀ (t : Nat) (g : Fin 4) (s : State), s.movesStop = true ∨
      (s.source g.val = none ∧ Tab.find s.map.reclaim g.val = none) ∨ (s.map.floorOn.getLsbD g.val = false ∧ s.idleNow = false) →
    Machine.exec (.reclaimSourceChosen t g) s = .next (s.tick t)) ∧
  (∀ (t f : Nat) (g : Fin 4) (l : Loc) (r : Reclaim) (s : State), Tab.find s.map.reclaim g.val = some r → r.phase = 0 → s.movesStop = false →
    s.map.tail.length ≤ 4095 → s.toCopy g.val r = [] → r.copies = [(f, l)] → f < 2 ^ 29 → s.pageOpen l = false →
    completes (.reclaimCopyComplete t g) s (fun u => Tab.find u.map.reclaim g.val = some { r with phase := 1 } ∧
      u.entry f = (if inBlock g.val r.source (s.entry f).loc then { s.entry f with loc := some l } else s.entry f) ∧
      u.map.tail = (if inBlock g.val r.source (s.entry f).loc then s.map.tail ++ [⟨f, some { s.entry f with loc := some l }, 4⟩] else s.map.tail) ∧
      changesOnly [.time, .out, .events, .regs, .map] s u)) ∧
  (∀ (t f : Nat) (g : Fin 4) (l : Loc) (r : Reclaim) (s : State), Tab.find s.map.reclaim g.val = some r → r.copies = [(f, l)] →
    s.pageOpen l = true ∨ s.movesStop = true → Machine.exec (.reclaimCopyComplete t g) s = .next (s.tick t)) ∧
  (∀ (t : Nat) (g : Fin 4) (r : Reclaim) (s : State), Tab.find s.map.reclaim g.val = some r → r.phase = 1 →
    Machine.exec (.reclaimCommitDurable t g) s = (if s.map.tail.any (fun c => c.kind == 4) then .next (s.tick t)
      else .next { s.tick t with
        map := { s.map with
          reclaim := Tab.put s.map.reclaim g.val { r with phase := 2 }, journal := s.map.journal.map (fun x => { x with settled := true }) } })) ∧
  (∀ (t : Nat) (g : Fin 4) (r : Reclaim) (s : State), s.map.reclaim = [(g.val, r)] → r.phase = 2 → s.usedSlots g.val r.source = [] →
    s.cch.fills = [] → s.integIn g.val r.source = [] → s.blockUsed g.val r.source = false → (s.block g.val r.source).members ≠ [] → (s.block g.val r.source).isOpen = false → (s.block g.val r.source).bead = false →
    completes (.reclaimDrainComplete t g) s (fun u => u.map.reclaim = [] ∧ Tab.find u.med.blocks (blkKey g.val r.source) = none ∧
      u.med.freed = s.med.freed ++ [blkKey g.val r.source] ∧ u.med.free = setAt s.med.free g.val (s.med.free.getD g.val 0 + 1) ∧
      u.map.entries = s.map.entries ∧ changesOnly [.time, .out, .events, .regs, .med, .map] s u)) ∧
  (∀ (t : Nat) (g : Fin 4) (s : State), Tab.find s.map.reclaim g.val = none →
    Machine.exec (.reclaimCopyComplete t g) s = .next (s.tick t) ∧ Machine.exec (.reclaimCommitDurable t g) s = .next (s.tick t) ∧
    Machine.exec (.reclaimDrainComplete t g) s = .next (s.tick t)) ∧
  (∀ (t k c d f : Nat) (i : Fin 64) (o : Loc) (s : State), s.fitted i.val = true → s.movesStop = false → s.rebuildingGroup (dieGroup i.val) = false →
    s.icFree 1 = true → (s.die i.val).wearCheckAt + 86400 ≤ s.cal.powerOnS → s.coldOn i.val = some (k, c) → s.pickBlock (dieGroup i.val) = some d → c + 20000 < largest ((s.wearOn i.val).map (·.2)) →
    (s.block (dieGroup i.val) (k % perGroup)).bead = false → s.movable (dieGroup i.val) (k % perGroup) = [f] →
    f < 2 ^ 29 → (s.entry f).loc = some o → inBlock (dieGroup i.val) (k % perGroup) (some o) = true → sourceClean s o = true →
    1 < (takeMembers (dieGroup i.val) false true s (s.groupChannels (dieGroup i.val))).2.length →
    completes (.wearLevelCheck t i) s (fun u =>
      Tab.find u.map.homes f = some ⟨7, ⟨dieGroup i.val, d, 0⟩, false, [], 0, 0, s.epochMode f, false, false, some o⟩ ∧
      u.map.progs = s.map.progs ++ [⟨dieGroup i.val, d, 0,
        some f :: List.replicate ((takeMembers (dieGroup i.val) false true s (s.groupChannels (dieGroup i.val))).2.length - 2) none, []⟩] ∧
      (u.block (dieGroup i.val) d).isOpen = false ∧ u.map.entries = s.map.entries ∧
      changesOnly [.time, .out, .events, .regs, .qos, .med, .map, .cal] s u)) ∧
  (∀ (t : Nat) (i : Fin 64) (s : State), s.fitted i.val = true →
      s.movesStop = true ∨ s.cal.powerOnS < (s.die i.val).wearCheckAt + 86400 →
    Machine.exec (.wearLevelCheck t i) s = .next (s.tick t))

/-- CALENDAR_TICK, DRIFT_LEDGER_HOURLY, REFERENCE_GROUP_WRITE, THRESHOLD_TABLE_SAVE, THRESHOLD_COUNT_EVALUATION, CALIBRATION_WINDOW_END, MARGIN_EVALUATION and
MARGIN_READ (07 R177 to R187). A second advances the calendar, or half of one while it slews, and ages the dies while the card has power. A threshold
whose counts reach 256 moves one step towards the larger count, within 60, and its counts halve. A margin is 21 less the projected count; below 7 the
stripe block is due. A margin read reports to its thin entry. -/
def Obligations.CalendarAndCalibration : Prop :=
  (∀ (t : Nat) (i : Fin 64) (s : State), s.pwr.inputs.vaux ≠ 0 → s.pwr.inputs.slot12 ≠ 0 → s.cal.slew = none → s.cal.calendar < calendarMax →
    s.med.dies.length = 64 →
    completes (.calendarTick t) s (fun u => u.cal.calendar = s.cal.calendar + 1 ∧ u.cal.powerOnS = s.cal.powerOnS + 1 ∧ u.cal.thrMirror = s.cal.thr ∧
      u.die i.val = (if s.fitted i.val && !(s.die i.val).retired
        then { s.die i.val with age := (s.die i.val).age + ageRate (s.die i.val).tempC } else s.die i.val) ∧
      u.thm = { s.thm with hist := u.thm.hist } ∧ u.tly = { s.tly with lapHours := u.tly.lapHours } ∧
      changesOnly [.time, .cal, .med, .tly, .thm] s u)) ∧
  (∀ (t h : Nat) (s : State), s.pwr.inputs.vaux ≠ 0 → s.cal.slew = some h → s.cal.slewHalf = false → h + 1 < s.cal.calendar →
    s.cal.calendar ≤ calendarMax →
    completes (.calendarTick t) s (fun u => u.cal.calendar = s.cal.calendar ∧ u.cal.slew = some (h + 1) ∧ u.cal.slewHalf = true ∧
      u.med = s.med ∧ changesOnly [.time, .cal, .tly, .thm] s u)) ∧
  (∀ (t h : Nat) (s : State), s.pwr.inputs.vaux ≠ 0 → s.cal.slew = some h → s.cal.slewHalf = true → s.cal.calendar < calendarMax →
    completes (.calendarTick t) s (fun u => u.cal.calendar = s.cal.calendar + 1 ∧ u.cal.slewHalf = false ∧
      u.cal.slew = (if s.cal.calendar ≤ h then none else some (h + 1)) ∧ changesOnly [.time, .cal, .med, .tly, .thm] s u)) ∧
  (∀ (t : Nat) (s : State), s.pwr.inputs.slot12 = 0 → Machine.exec (.calendarTick t) s =
    .next (if s.pwr.inputs.vaux = 0 then s.tick t else { s.tick t with cal := s.cal.tick.1 })) ∧
  (∀ (i : Fin 64) (s : State), s.railsOn = true → s.fitted i.val = true → (s.die i.val).retired = false → s.med.dies.length = 64 →
    ((s.die i.val).hourly = [] → (s.die i.val).hourAt.1 ≠ s.cal.calendar / 3600 →
      completes .driftLedgerHourly s (fun u => (u.die i.val).hourly = [((s.die i.val).hourAt.1, (s.die i.val).hourAt.2 / 64)] ∧
      (u.die i.val).hourAt = (s.cal.calendar / 3600, (s.die i.val).age / 65536) ∧ (u.die i.val).refWrite = (s.die i.val).refWrite + 1 ∧
      (u.die i.val).age = (s.die i.val).age ∧ u.cal = { s.cal with saved := s.cal.calendar } ∧ changesOnly [.cal, .med] s u)) ∧
    completes .referenceGroupWrite s (fun u =>
      (u.die i.val).refs = ((s.cal.calendar, (s.die i.val).age / 65536) :: (s.die i.val).refs).take 64 ∧
      u.cal = { s.cal with saved := s.cal.calendar } ∧ changesOnly [.cal, .med] s u)) ∧
  (∀ s : State, s.railsOn = true → completes .thresholdTableSave s (fun u => u.cal = { s.cal with thrSaved := s.cal.thr } ∧
    changesOnly [.cal, .tly, .regs, .events] s u)) ∧
  (∀ s : State, s.railsOn = false → Machine.exec .driftLedgerHourly s = .next s ∧ Machine.exec .referenceGroupWrite s = .next s ∧
    Machine.exec .thresholdTableSave s = .next s) ∧
  (∀ (t a b : Nat) (x : Int) (i : Fin 64) (n : Fin 16) (m : Fin 4) (h : Fin 15) (s : State), s.fitted i.val = true →
    (s.thrEntry i.val m.val n.val).up.getD h.val 0 = a → (s.thrEntry i.val m.val n.val).down.getD h.val 0 = b → 256 ≤ a + b →
    (s.thrEntry i.val m.val n.val).offsets.getD h.val 0 = x → -59 < x → x < 59 →
    completes (.thresholdCountEvaluation t i n m h) s (fun u => Tab.find u.cal.thr (thrKey i.val m.val n.val) =
        some { s.thrEntry i.val m.val n.val with
          offsets := setAt (s.thrEntry i.val m.val n.val).offsets h.val
            (if 5 * b < 4 * a then x + 1 else if 5 * a < 4 * b then x - 1 else x),
          up := setAt (s.thrEntry i.val m.val n.val).up h.val (a / 2), down := setAt (s.thrEntry i.val m.val n.val).down h.val (b / 2),
          clamped := setAt (s.thrEntry i.val m.val n.val).clamped h.val 0 } ∧
      changesOnly [.time, .cal] s u)) ∧
  (∀ (t : Nat) (i : Fin 64) (n : Fin 16) (m : Fin 4) (h : Fin 15) (s : State), s.fitted i.val = true →
    (s.thrEntry i.val m.val n.val).up.getD h.val 0 = 256 → (s.thrEntry i.val m.val n.val).down.getD h.val 0 = 0 →
    (s.thrEntry i.val m.val n.val).offsets.getD h.val 0 = 60 → (s.thrEntry i.val m.val n.val).clamped.getD h.val 0 = 1023 →
    completes (.thresholdCountEvaluation t i n m h) s (fun u => Tab.find u.cal.thr (thrKey i.val m.val n.val) =
        some { s.thrEntry i.val m.val n.val with
          offsets := setAt (s.thrEntry i.val m.val n.val).offsets h.val 60,
          up := setAt (s.thrEntry i.val m.val n.val).up h.val 128, down := setAt (s.thrEntry i.val m.val n.val).down h.val 0,
          clamped := setAt (s.thrEntry i.val m.val n.val).clamped h.val 1024 } ∧
      (s.reg CAL_DIE_STATE.limit_hits i.val + 1 < CAL_DIE_STATE.limit_hits.size →
        u.reg CAL_DIE_STATE.limit_hits i.val = s.reg CAL_DIE_STATE.limit_hits i.val + 1) ∧
      changesOnly [.time, .out, .events, .regs, .cal] s u)) ∧
  (∀ (t : Nat) (i : Fin 64) (n : Fin 16) (m : Fin 4) (h : Fin 15) (s : State), s.fitted i.val = true →
    (s.thrEntry i.val m.val n.val).up.getD h.val 0 + (s.thrEntry i.val m.val n.val).down.getD h.val 0 < 256 →
    Machine.exec (.thresholdCountEvaluation t i n m h) s = .next (s.tick t)) ∧
  (∀ (t : Nat) (s : State), completes (.calibrationWindowEnd t) s (fun u =>
    changesOnly [.time, .out, .events] s u)) ∧
  (∀ (t : Nat) (g : Fin 4) (b : BitVec 20) (x : StripeBlock) (s : State), Tab.find s.med.blocks (blkKey g.val b.toNat) = some x →
    x.counted = true → x.due = none →
    completes (.marginEvaluation t g b) s (fun u =>
      (Tab.find u.med.blocks (blkKey g.val b.toNat)).map (fun y => (y.margin, y.due)) =
        some ((5376 : Int) - s.projected (blkKey g.val b.toNat) x,
          if (5376 : Int) - s.projected (blkKey g.val b.toNat) x < 1792 then some 0 else none) ∧
      u.med.store = s.med.store ∧ changesOnly [.time, .out, .events, .med, .cal] s u)) ∧
  (∀ (t : Nat) (g : Fin 4) (b : BitVec 20) (s : State), Tab.find s.med.blocks (blkKey g.val b.toNat) = none →
    Machine.exec (.marginEvaluation t g b) s = .next (s.tick t)) ∧
  (∀ (t c : Nat) (i : Fin 64) (l : BitVec 35) (r : List (Nat × Bool)) (x : Loc) (s : State), s.fitted i.val = true →
    s.readLoc (l.toNat / 64) = some x → s.liesOn l.toNat (blkKey x.group x.block) i.val = true → s.link.memActive = true →
    (s.die i.val).retired = false → s.dieHeld i.val = false → s.med.gated.getLsbD (dieChannel i.val) = false → s.sectorGone l.toNat = false →
    (s.tick t).marginTime (dieChannel i.val) (if s.beadAt (l.toNat / 64) then 250 else 500) = true →
    (Tab.findD s.cal.thr (s.sectorEntry x (l.toNat % 64)) ThrEntry.blank).window s.cal.powerOnS < 2048 →
    (s.heldEntries i.val).contains (s.sectorEntry x (l.toNat % 64)) = true → c + s.flipsIn l.toNat ≤ 21 →
    completes (.marginRead t i l c r .hard) s (fun u =>
      Tab.find u.cal.thr (s.sectorEntry x (l.toNat % 64)) = some ((Tab.findD s.cal.thr (s.sectorEntry x (l.toNat % 64)) ThrEntry.blank).report
        s.cal.powerOnS (c + s.flipsIn l.toNat) r) ∧
      u.cal.marginAt = setAt s.cal.marginAt (dieChannel i.val) (some (max s.now t)) ∧
      changesOnly [.time, .out, .events, .regs, .qos, .med, .cal] s u)) ∧
  (∀ (t c : Nat) (i : Fin 64) (l : BitVec 35) (r : List (Nat × Bool)) (e : ReadEnd) (s : State), s.fitted i.val = true →
    s.link.memActive = false ∨ s.readLoc (l.toNat / 64) = none → Machine.exec (.marginRead t i l c r e) s = .next (s.tick t))

/-- STRIPE_BLOCK_MIGRATE, STRIPE_BLOCK_REFRESH and the SCRUB commands (07 R187, R192 to R194). The next due four-bead stripe block gives its folios to
open pages, where they stay copies until the page is complete; a one-bead one is written again in place and the map stays. A lap begins at most once
a day, counts its reads, and its end, its limit of 14 days and its position are kept. A scrub read reports to its entry; one recovered by soft decode
or reconstruction makes its block due; one not recovered is counted lost. -/
def Obligations.RewritesAndScrub : Prop :=
  (∀ (t f : Nat) (g h : Fin 4) (r : List Nat) (b : BitVec 20) (o : Loc) (x : StripeBlock) (p : OpenPage) (s : State),
    Tab.find s.med.blocks (blkKey g.val b.toNat) = some x → x.bead = false → s.nextDue (blkKey g.val b.toNat) = true →
    s.foliosIn g.val b.toNat = [f] → s.shadowsIn g.val b.toNat = [] → s.integIn g.val b.toNat = [] → Tab.find s.map.homes f = none →
    s.icFree 1 = true → (s.entry f).loc = some o → sourceClean s o = true → (s.turn s.map.nextGroup).filter s.groupOpen = h.val :: r → Tab.find s.map.pages h.val = some p →
    blkKey h.val p.block ≠ blkKey g.val b.toNat → p.folios.length + 2 < (s.block h.val p.block).members.length →
    completes (.stripeBlockMigrate t g b) s (fun u =>
      Tab.find u.map.homes f = some ⟨8, ⟨h.val, p.block, p.page * ((s.block h.val p.block).members.length - 1) + p.folios.length⟩,
        false, [], 0, 0, s.epochMode f, false, false, some o⟩ ∧
      (Tab.find u.med.blocks (blkKey g.val b.toNat)).any (fun y => y.members == x.members) = true ∧ u.map.entries = s.map.entries ∧
      changesOnly [.time, .out, .events, .regs, .qos, .med, .map, .cal] s u)) ∧
  (∀ (t : Nat) (g : Fin 4) (b : BitVec 20) (x : StripeBlock) (s : State), Tab.find s.med.blocks (blkKey g.val b.toNat) = some x →
    x.bead = true → s.nextDue (blkKey g.val b.toNat) = true → s.icFree 1 = true → s.med.updates = [] →
    (s.usedSlots g.val b.toNat).all (fun i => sourceClean s ⟨g.val, b.toNat, i⟩) = true →
    completes (.stripeBlockRefresh t g b) s (fun u => u.map = s.map ∧
      Tab.find u.med.blocks (blkKey g.val b.toNat) = some { x with
        writeCal := s.cal.calendar, cMax := 0, cBin := 0, margin := 5376, due := none, oldStamp := false,
        homes := (s.usedSlots g.val b.toNat).foldl (fun h i => Tab.put h i (Tab.findD h i 0 + 1)) x.homes } ∧
      changesOnly [.time, .out, .events, .regs, .qos, .med, .cal] s u)) ∧
  (∀ (t : Nat) (g : Fin 4) (b : BitVec 20) (s : State), s.nextDue (blkKey g.val b.toNat) = false →
    Machine.exec (.stripeBlockMigrate t g b) s = .next (s.tick t) ∧ Machine.exec (.stripeBlockRefresh t g b) s = .next (s.tick t)) ∧
  (∀ (t : Nat) (s : State), s.cal.lapActive = false → s.link.memActive = true → s.cal.lapStart + 86400 ≤ s.cal.powerOnS →
    Machine.exec (.scrubLapStart t) s = .next { s.tick t with
      cal := { s.cal with
        lapActive := true, lapStart := s.cal.powerOnS, lapElapsed := 0, lapProgress := 0, lapReads := 0, lapLost := 0,
        savedPosition := (0, 0), lapAt := [0, 0, 0, 0], savedAt := [0, 0, 0, 0] } }) ∧
  (∀ (t : Nat) (s : State), s.cal.lapActive = true ∨ s.link.memActive = false ∨ s.cal.powerOnS < s.cal.lapStart + 86400 →
    Machine.exec (.scrubLapStart t) s = .next (s.tick t)) ∧
  (∀ (t : Nat) (s : State), s.cal.lapActive = true →
    completes (.scrubLapComplete t) s (fun u => u.cal = { s.cal with
        lapActive := false, lastLap := s.cal.lapElapsed / 60, lapProgress := 0, wakeChannel := none,
        overLimit := s.cal.overLimit && decide (1209600 < s.cal.lapElapsed) } ∧ changesOnly [.time, .out, .events, .cal] s u)) ∧
  (∀ (t : Nat) (s : State), s.cal.lapActive = true → s.cal.overLimit = false → 1209600 < s.cal.lapElapsed →
    completes (.scrubLapLimit t) s (fun u => u.cal = { s.cal with overLimit := true } ∧ changesOnly [.time, .out, .events, .cal] s u)) ∧
  (∀ (t : Nat) (s : State), s.cal.lapElapsed ≤ 1209600 → Machine.exec (.scrubLapLimit t) s = .next (s.tick t)) ∧
  (∀ (t : Nat) (c : Fin 16) (s : State), s.cal.lapActive = true → 604800 < s.cal.lapElapsed → s.med.gated.getLsbD c.val = true →
    s.cal.wakeChannel = none → s.restarting (mediaRegion c.val) = false →
    Machine.exec (.scrubGatedWake t c) s = .next { s.tick t with
      med := { s.med with waking := s.med.waking ||| BitVec.twoPow 16 c.val },
      cal := { s.cal with wakeChannel := some (c.val, max s.now t) } }) ∧
  (∀ (t : Nat) (c : Fin 16) (s : State), s.cal.lapElapsed ≤ 604800 ∨ s.med.gated.getLsbD c.val = false →
    Machine.exec (.scrubGatedWake t c) s = .next (s.tick t)) ∧
  (∀ s : State, s.canLog = true → completes .scrubPositionSave s (fun u =>
    u.cal = { s.cal with savedPosition := (s.cal.lapProgress, s.cal.lapElapsed), savedAt := s.cal.lapAt } ∧ u.tly.rows = s.tly.rows ∧
    changesOnly [.cal, .tly, .regs, .events] s u)) ∧
  (∀ s : State, s.canLog = false → Machine.exec .scrubPositionSave s = .next s) ∧
  (∀ (t c : Nat) (i : Fin 64) (g : Fin 4) (b : BitVec 20) (v w : List Nat) (e : ReadEnd) (x : StripeBlock) (s : State),
    s.fitted i.val = true → s.cal.lapActive = true → s.link.memActive = true → Tab.find s.med.blocks (blkKey g.val b.toNat) = some x →
    x.members.any (fun m => memberDie (blkKey g.val b.toNat) m == i.val) = true → s.cal.lapAt.getD g.val 0 ≤ b.toNat →
    (s.tick t).idleDie i.val = true → x.due = none → (e = .soft ∧ c ≤ 27) ∨ e = .recon →
    completes (.scrubRead t i g b none c v w e) s (fun u => u.cal.lapReads = s.cal.lapReads + 1 ∧ u.cal.lapAt = setAt s.cal.lapAt g.val b.toNat ∧
      Tab.find u.med.blocks (blkKey g.val b.toNat) = some { x with
        due := (if e = .soft then some 2 else some 3), dueSeq := s.cal.dueCount } ∧ u.cal.thr = s.cal.thr ∧
      changesOnly [.time, .out, .events, .regs, .qos, .med, .cal] s u)) ∧
  (∀ (t c : Nat) (i : Fin 64) (g : Fin 4) (b : BitVec 20) (v w : List Nat) (x : StripeBlock) (s : State), s.fitted i.val = true →
    s.cal.lapActive = true → s.link.memActive = true → Tab.find s.med.blocks (blkKey g.val b.toNat) = some x →
    x.members.any (fun m => memberDie (blkKey g.val b.toNat) m == i.val) = true → s.cal.lapAt.getD g.val 0 ≤ b.toNat →
    (s.tick t).idleDie i.val = true →
    (c ≤ 21 → completes (.scrubRead t i g b none c v w .hard) s (fun u => u.cal.lapReads = s.cal.lapReads + 1 ∧ u.cal.lapLost = s.cal.lapLost ∧
      Tab.find u.cal.thr (s.blockEntry (blkKey g.val b.toNat) i.val x) =
        some ((Tab.findD s.cal.thr (s.blockEntry (blkKey g.val b.toNat) i.val x) ThrEntry.blank).report s.cal.powerOnS c (v.map (fun n => (n, true)) ++ w.map (fun n => (n, false)))) ∧
      changesOnly [.time, .out, .events, .regs, .qos, .med, .cal] s u)) ∧
    completes (.scrubRead t i g b none c v w .lost) s (fun u => u.cal.lapLost = s.cal.lapLost + 1 ∧ u.med.blocks = s.med.blocks ∧
      changesOnly [.time, .out, .events, .regs, .qos, .med, .cal] s u)) ∧
  (∀ (t c : Nat) (i : Fin 64) (g : Fin 4) (b : BitVec 20) (k : Option (BitVec 35)) (v w : List Nat) (e : ReadEnd) (s : State),
    s.fitted i.val = true → s.cal.lapActive = false ∨ s.link.memActive = false ∨ (s.tick t).idleDie i.val = false →
    Machine.exec (.scrubRead t i g b k c v w e) s = .next (s.tick t)) ∧
  (∀ (t : Nat) (s : State), s.cal.lapActive = false → Machine.exec (.scrubLapComplete t) s = .next (s.tick t))

/-- KEY_HELD, KEY_ROTATION_THRESHOLD, SWEEP_UNIT_ROWS_WRITTEN, CARRY_SWEEP_FOLIO, CARRY_BOUNDARY_SAVE and CARRY_SWEEP_COMPLETE (08 R205 to R207, R220 to
R225). A key at 2^40 uses is Held. At its rotation threshold a new key is drawn in the lowest empty slot and the sweep of its units begins, or waits.
With the unit rows written the units are under the new key; the boundary passes a folio with nothing under the old key, and rewrites the old lines
of a bead folio in place under the new one; a crypto-erase discards a folio with no new line. The end settles the units and retires a key that
nothing names. -/
def Obligations.KeysAndSweeps : Prop :=
  (∀ (t : Nat) (k : BitVec 12) (s : State), (s.slot k.toNat).st = 1 → 2 ^ 40 ≤ (s.slot k.toNat).uses →
    completes (.keyHeld t k) s (fun u => u.key = { s.key with
        slots := Tab.put s.key.slots k.toNat { s.slot k.toNat with st := 3 } } ∧ changesOnly [.time, .out, .events, .key] s u)) ∧
  (∀ (t : Nat) (k : BitVec 12) (s : State), (s.slot k.toNat).uses < 2 ^ 40 → Machine.exec (.keyHeld t k) s = .next (s.tick t)) ∧
  (∀ (t n : Nat) (k : BitVec 12) (s : State), (s.slot k.toNat).st = 1 ∨ (s.slot k.toNat).st = 3 → 2 ^ 40 - 2 ^ 36 ≤ (s.slot k.toNat).uses →
    s.lowestEmpty = some n → s.key.sweep = none → s.key.sweepQueue = [] →
    completes (.keyRotationThreshold t k) s (fun u => u.slot n = ⟨1, (s.slot n).gen + 1, 0, s.fresh + 2⟩ ∧ u.slot k.toNat = s.slot k.toNat ∧
      u.key.sweep.map (fun w => (w.kind, w.newKey, w.units, w.recorded)) = some (2, n, s.unitsUnder k.toNat, false) ∧ u.key.sweepQueue = [] ∧
      changesOnly [.time, .out, .events, .regs, .key, .tly] s u)) ∧
  (∀ (t n : Nat) (k : BitVec 12) (w : Sweep) (s : State), (s.slot k.toNat).st = 1 → 2 ^ 40 - 2 ^ 36 ≤ (s.slot k.toNat).uses →
    s.lowestEmpty = some n → s.key.sweep = some w → w.kind ≠ 2 → s.key.sweepQueue = [] →
    completes (.keyRotationThreshold t k) s (fun u => u.slot n = ⟨1, (s.slot n).gen + 1, 0, s.fresh + 2⟩ ∧
      u.key.sweep = s.key.sweep ∧ u.key.sweepQueue = [(k.toNat, n)] ∧ changesOnly [.time, .out, .events, .regs, .key, .tly] s u)) ∧
  (∀ (t : Nat) (k : BitVec 12) (s : State), (s.slot k.toNat).uses < 2 ^ 40 - 2 ^ 36 → Machine.exec (.keyRotationThreshold t k) s = .next (s.tick t)) ∧
  (∀ (t : Nat) (w : Sweep) (s : State), s.key.sweep = some w → w.recorded = true → w.rowsDone = false → s.sweepRowsLeft = false → w.kind ≠ 3 →
    (s.oldKeys w).any (fun k => (s.slot k).st == 3) = false →
    completes (.sweepUnitRowsWritten t) s (fun u => u.key.units = s.sweptUnits w ∧
      u.key.sweep = some { w with rowsDone := true, startAt := max s.now t } ∧ changesOnly [.time, .out, .events, .key] s u)) ∧
  (∀ (t : Nat) (w : Sweep) (s : State), s.key.sweep = some w → w.recorded = true → w.rowsDone = false → s.sweepRowsLeft = false → w.kind = 3 →
    completes (.sweepUnitRowsWritten t) s (fun u => u.key.units = s.sweptUnits w ∧
      u.key.sweep = some { w with rowsDone := true, startAt := max s.now t } ∧
      u.cch.wb = s.cch.wb.filter (fun x => !w.units.contains (x.copy.l.toNat / 64 / 16384)) ∧
      u.cch.board = Tab.keep s.cch.board (fun _ b => !w.units.contains (b.copy.l.toNat / 64 / 16384)) ∧
      u.pfl.overlay = Tab.keep s.pfl.overlay (fun k _ => !w.units.contains (k / 256 / 16384)) ∧ u.map.entries = s.map.entries ∧
      changesOnly [.time, .out, .events, .cch, .pfl, .map, .key] s u)) ∧
  (∀ (t : Nat) (w : Sweep) (s : State), s.key.sweep = some w → w.recorded = false ∨ s.sweepRowsLeft = true →
    Machine.exec (.sweepUnitRowsWritten t) s = .next (s.tick t)) ∧
  (∀ (t : Nat) (m : BitVec 256) (w : Sweep) (s : State), s.key.sweep = some w → w.rowsDone = true → w.left ≠ 0 → s.movesStop = false →
    s.fab.restarts = [] → Tab.find s.map.homes (w.boundary / 16384) = none → s.boot.complete = true → w.kind ≠ 3 →
    (s.entry (w.boundary / 16384)).held = false → Tab.find s.ring.shadows (w.boundary / 16384) = none →
    completes (.carrySweepFolio t m) s (fun u => u.key.sweep = some { w with boundary := w.next } ∧ u.key.units = s.key.units ∧
      changesOnly [.time, .cch, .pfl, .key] s u)) ∧
  (∀ (t : Nat) (m : BitVec 256) (w : Sweep) (l : Loc) (s : State), s.key.sweep = some w → w.rowsDone = true → w.left ≠ 0 → s.movesStop = false →
    s.fab.restarts = [] → Tab.find s.map.homes (w.boundary / 16384) = none → s.boot.complete = true → w.kind ≠ 3 →
    medOk s.med = true → (s.entry (w.boundary / 16384)).held = true → (s.entry (w.boundary / 16384)).bead = true → (s.entry (w.boundary / 16384)).loc = some l →
    (s.entry (w.boundary / 16384)).poisonedRange = false → Tab.find s.ring.shadows (w.boundary / 16384) = none → s.oldLines (w.boundary / 16384) (some l) ≠ [] →
    completes (.carrySweepFolio t m) s (fun u => u.key.sweep = some { w with boundary := w.next } ∧
      (Tab.find u.map.homes (w.boundary / 16384)).map (fun h => (h.kind, h.loc, h.bead, h.lines.map (·.ix))) =
        some (0, l, true, (s.oldLines (w.boundary / 16384) (some l)).map (·.1)) ∧
      (s.oldLines (w.boundary / 16384) (some l)).all (fun e =>
        (u.storedAt l e.1).map (·.keyGen) == some (s.unitKey (w.boundary / 16384 / 16384)).phase) = true ∧
      u.map.entries = s.map.entries ∧ changesOnly [.time, .out, .events, .regs, .qos, .cch, .pfl, .med, .map, .key, .tly, .flip, .cal] s u)) ∧
  (∀ (t : Nat) (m : BitVec 256) (w : Sweep) (s : State), s.key.sweep = some w → w.rowsDone = true → w.left ≠ 0 → s.movesStop = false →
    s.fab.restarts = [] → Tab.find s.map.homes (w.boundary / 16384) = none → s.boot.complete = true → w.kind = 3 →
    (s.entry (w.boundary / 16384)).held = true → s.anyNew (w.boundary / 16384) = false →
    completes (.carrySweepFolio t m) s (fun u => u.key.sweep = some { w with boundary := w.next, discarded := w.discarded + 1 } ∧
      u.entry (w.boundary / 16384) =
        ⟨none, false, (s.entry (w.boundary / 16384)).shadow, true, false, (s.entry (w.boundary / 16384)).epochOpen⟩ ∧
      changesOnly [.time, .out, .events, .regs, .cch, .pfl, .med, .map, .key, .tly] s u)) ∧
  (∀ (t : Nat) (m : BitVec 256) (w : Sweep) (s : State), s.key.sweep = some w → w.rowsDone = false ∨ w.left = 0 ∨ s.movesStop = true →
    Machine.exec (.carrySweepFolio t m) s = .next (s.tick t)) ∧
  (∀ (w : Sweep) (s : State), s.key.sweep = some w → w.saved + gib ≤ w.boundary → s.carryBusy w w.saved w.boundary = false →
    completes .carryBoundarySave s (fun u => u.key = { s.key with sweep := some { w with saved := w.boundary } } ∧ u.tly.rows = s.tly.rows ∧
      changesOnly [.events, .regs, .key, .tly] s u)) ∧
  (∀ (w : Sweep) (s : State), s.key.sweep = some w → w.boundary < w.saved + gib → Machine.exec .carryBoundarySave s = .next s) ∧
  (∀ (t u0 k : Nat) (e : UnitKey) (b : Background) (w : Sweep) (s : State), s.key.sweep = some w → w.kind = 1 → w.units = [u0] → w.rowsDone = true →
    w.left = 0 → s.carryBusy w 0 s.capacity = false → s.key.units = [(u0, e)] → e.bound = true → e.prev = k → k ≠ 0 → k ≠ w.newKey → e.key ≠ k →
    s.key.sweepQueue = [] → s.key.extents.any (fun x => x.key == k) = false → (s.slot k).st = 2 → s.link.background = some b →
    completes (.carrySweepComplete t) s (fun u => u.key.sweep = none ∧ u.key.units = [(u0, e.settled false)] ∧
      u.slot k = { s.slot k with st := 0, uses := 0, key := 0 } ∧ u.link = { s.link with background := none, backgroundRc := .success } ∧
      changesOnly [.time, .out, .events, .regs, .link, .key, .tly] s u)) ∧
  (∀ (t : Nat) (w : Sweep) (s : State), s.key.sweep = some w → w.rowsDone = false ∨ w.left ≠ 0 →
    Machine.exec (.carrySweepComplete t) s = .next (s.tick t)) ∧
  (∀ (t : Nat) (m : BitVec 256) (s : State), s.key.sweep = none → Machine.exec (.sweepUnitRowsWritten t) s = .next (s.tick t) ∧
    Machine.exec (.carrySweepFolio t m) s = .next (s.tick t) ∧ Machine.exec (.carrySweepComplete t) s = .next (s.tick t) ∧
    Machine.exec .carryBoundarySave s = .next s)

/-- DISCARD_RANGE_FOLIO, DISCARD_RANGE_COMPLETE, SCAN_MEDIA_COMPLETE, SANITIZE_COMPLETE and MEDIUM_RESET_COMPLETE (02 R43; 06 R149 to R151; 07 R191; 08 R226).
Each folio of the range is discarded by one map change, and the command ends when its records are on the medium. A scan ends with its findings, and
below 8,192 records the overflow ends. Each background command ends with its return code and is then no more; nothing runs, nothing ends. -/
def Obligations.BackgroundEnds : Prop :=
  (∀ (t : Nat) (d : Discard) (s : State), s.map.discard = some d → d.left ≠ 0 → s.changesWait = false → s.fab.restarts = [] →
    completes (.discardRangeFolio t) s (fun u =>
      u.map.discard = some { d with next := d.next + 1, left := d.left - 1, marked := d.marked + 1 } ∧
      u.entry d.next = ⟨none, false, (s.entry d.next).shadow, true, false, (s.entry d.next).epochOpen⟩ ∧
      Tab.find u.map.beads d.next = none ∧ (∀ w ∈ u.cch.wb, w.copy.l.toNat / 64 ≠ d.next) ∧ u.link = s.link ∧
      changesOnly [.time, .out, .events, .regs, .cch, .pfl, .med, .map, .tly] s u)) ∧
  (∀ (t : Nat) (d : Discard) (s : State), s.map.discard = some d → d.left = 0 ∨ s.changesWait = true →
    Machine.exec (.discardRangeFolio t) s = .next (s.tick t)) ∧
  (∀ (t : Nat) (d : Discard) (b : Background) (s : State), s.map.discard = some d → d.left = 0 → s.map.tail.any (fun c => c.kind == 5) = false →
    s.link.background = some b →
    completes (.discardRangeComplete t) s (fun u => u.map = { s.map with discard := none } ∧
      u.link = { s.link with background := none, backgroundRc := .success } ∧
      u.sent.contains (.backgroundDone b.opcode .success) = true ∧ changesOnly [.time, .out, .events, .map, .link] s u)) ∧
  (∀ (t : Nat) (d : Discard) (s : State), s.map.discard = some d → d.left ≠ 0 ∨ s.map.tail.any (fun c => c.kind == 5) = true →
    Machine.exec (.discardRangeComplete t) s = .next (s.tick t)) ∧
  (∀ (t k n : Nat) (b : Background) (s : State), s.link.scan = some (k, n) → s.map.entries = [] → s.map.poison.length < 8192 →
    s.link.background = some b →
    completes (.scanMediaComplete t) s (fun u => u.map = { s.map with overflow := none } ∧
      u.link = { s.link with scan := none, scanResults := [], background := none, backgroundRc := .success } ∧
      changesOnly [.time, .out, .events, .map, .link] s u)) ∧
  (∀ (t : Nat) (b : Background) (s : State), s.key.erasing = some 0x4400 → s.link.background = some b →
    completes (.sanitizeComplete t) s (fun u => u.key = { s.key with erasing := none } ∧
      u.link = { s.link with background := none, backgroundRc := .success } ∧ changesOnly [.time, .out, .events, .link, .key] s u)) ∧
  (∀ (t : Nat) (s : State), Machine.exec (.mediumResetComplete t) s = .next { s.tick t with
    key := { s.key with resetPending := false } }) ∧
  (∀ (t : Nat) (s : State), s.map.discard = none → s.link.scan = none → s.key.erasing = none →
    Machine.exec (.discardRangeFolio t) s = .next (s.tick t) ∧ Machine.exec (.discardRangeComplete t) s = .next (s.tick t) ∧
    Machine.exec (.scanMediaComplete t) s = .next (s.tick t) ∧ Machine.exec (.sanitizeComplete t) s = .next (s.tick t))

/-- The mailbox reports (02 R41 to R45; 03 Table 3-10; 07 R193; 08 R228, R231; 10 R294; 12 R338, R349; 13 R360, R368, R382). Where the gate passes, each answers its
command once, with Success and a payload of the length that its layout gives (log entry 35 for those of CXL 3.1), and changes nothing else; but Get Scan Media
Results gives what it returns only once, Get Scan Media Capabilities takes a free value, and Read Tally Records may report a lost row. An operand outside its
range is Invalid Input or Invalid Physical Address. Where the gate refuses, the answer is its code; where it is silent, nothing happens. -/
def Obligations.MailboxReports : Prop :=
  (∀ (p : Path) (log count : Nat) (s : State), s.gate p 0x0100 false false = .pass → log ≤ 3 →
    completes (.getEventRecords p log count) s (fun u =>
      lengths s u p 0x0100 = [(.success, 32 + 128 * min (min count 511) (s.evt.logs.getD log []).length)] ∧ changesOnly [.out] s u)) ∧
  (∀ (p : Path) (log count : Nat) (s : State), s.gate p 0x0100 false false = .pass → 3 < log →
    Machine.exec (.getEventRecords p log count) s = .next (s.reply p 0x0100 .invalidInput)) ∧
  (∀ (p : Path) (a b c d : BitVec 8) (s : State), s.gate p 0x0102 false false = .pass → s.evt.policy = [a, b, c, d] →
    completes (.getEventInterruptPolicy p) s (fun u =>
      answers s u p 0x0102 = [(.success, [a &&& 3, (b &&& 3) ||| 0x10, (c &&& 3) ||| 0x20, (d &&& 3) ||| 0x30])] ∧ changesOnly [.out] s u)) ∧
  (∀ (p : Path) (s : State), s.gate p 0x0200 false false = .pass → s.boot.fw.length = 2 →
    completes (.getFwInfo p) s (fun u => lengths s u p 0x0200 = [(.success, 80)] ∧ changesOnly [.out] s u)) ∧
  (∀ (p : Path) (s : State), s.gate p 0x0300 false false = .pass →
    completes (.getTimestamp p) s (fun u => answers s u p 0x0300 = [(.success, le 8 s.time.toNat)] ∧ changesOnly [.out] s u)) ∧
  (∀ (p : Path) (s : State), s.gate p 0x0400 false false = .pass →
    completes (.getSupportedLogs p) s (fun u => lengths s u p 0x0400 = [(.success, 28)] ∧ changesOnly [.out] s u)) ∧
  (∀ (p : Path) (o n : Nat) (s : State), s.gate p 0x0401 false false = .pass → o + n ≤ 4 * commandTable.length →
    completes (.getLog p true o n) s (fun u => lengths s u p 0x0401 = [(.success, n)] ∧ changesOnly [.out] s u) ∧
    Machine.exec (.getLog p false o n) s = .next (s.reply p 0x0401 .invalidInput)) ∧
  (∀ (p : Path) (s : State), s.gate p 0x4000 false false = .pass →
    completes (.identifyMemoryDevice p) s (fun u => lengths s u p 0x4000 = [(.success, 69)] ∧
      (answers s u p 0x4000).map (fun a => (a.2.drop 16).take 8) = [le 8 (4 * s.capGib)] ∧ changesOnly [.out] s u)) ∧
  (∀ (p : Path) (o n : Nat) (s : State), s.gate p 0x4102 false true = .pass → o + n ≤ lsaSize → n ≤ 65536 →
    completes (.getLsa p o n) s (fun u => lengths s u p 0x4102 = [(.success, n)] ∧
      (List.range n).all (fun i => (answers s u p 0x4102).all (fun a => a.2.getD i 0 == Tab.findD s.link.lsa (o + i) 0)) = true ∧
      changesOnly [.out] s u)) ∧
  (∀ (p : Path) (s : State), s.gate p 0x4200 false false = .pass →
    completes (.getHealthInfo p) s (fun u => lengths s u p 0x4200 = [(.success, 18)] ∧ changesOnly [.out] s u)) ∧
  (∀ (p : Path) (s : State), s.gate p 0x4201 false false = .pass →
    completes (.getAlertConfiguration p) s (fun u => lengths s u p 0x4201 = [(.success, 16)] ∧ changesOnly [.out] s u)) ∧
  (∀ (p : Path) (s : State), s.gate p 0x4203 true false = .pass →
    completes (.getShutdownState p) s (fun u => answers s u p 0x4203 = [(.success, le 4 s.link.shutdownState.toNat)] ∧ changesOnly [.out] s u)) ∧
  (∀ (p : Path) (dpa n k : Nat) (s : State), s.gate p 0x4300 false false = .pass → dpa % 64 = 0 → n ≠ 0 → dpa + 64 * n ≤ s.capacity →
    s.link.poisonNext = none → k ≤ 4094 →
    (s.map.poison.filter (fun r => decide (r.line < dpa / 64 + n) && decide (dpa / 64 < r.line + r.length))).length = k →
    completes (.getPoisonList p dpa n) s (fun u => lengths s u p 0x4300 = [(.success, 32 + 16 * k)] ∧ changesOnly [.out] s u)) ∧
  (∀ (p : Path) (dpa n : Nat) (s : State), s.gate p 0x4300 false false = .pass → n ≠ 0 →
    (dpa % 64 ≠ 0 → Machine.exec (.getPoisonList p dpa n) s = .next (s.reply p 0x4300 .invalidInput)) ∧
    (dpa % 64 = 0 → s.capacity < dpa + 64 * n →
      Machine.exec (.getPoisonList p dpa n) s = .next (s.reply p 0x4300 .invalidPhysicalAddress))) ∧
  (∀ (p : Path) (dpa n : Nat) (s : State), s.gate p 0x4303 false true = .pass → dpa % 64 = 0 → n ≠ 0 → dpa + 64 * n ≤ s.capacity →
    completes (.getScanMediaCapabilities p dpa n) s (fun u => answers s u p 0x4303 = [(.success, le 4 (Config.free s.fresh))] ∧
      u.fresh = s.fresh + 1 ∧ u.evt = s.evt ∧ u.recd = s.recd ∧ changesOnly [.out, .events] s u)) ∧
  (∀ (p : Path) (s : State), s.gate p 0x4305 false true = .pass →
    completes (.getScanMediaResults p) s (fun u => lengths s u p 0x4305 = [(.success, 32 + 16 * min 4094 s.link.scanResults.length)] ∧
      u.link = { s.link with scanResults := s.link.scanResults.drop 4094 } ∧ changesOnly [.out, .link] s u)) ∧
  (∀ (t : Nat) (p : Path) (s : State), s.gate p 0xC000 false false = .pass →
    completes (.getCardStatusSummary t p) s (fun u => lengths s u p 0xC000 = [(.success, 256)] ∧
      answers s u p 0xC000 = [(.success, (s.tick t).summary)] ∧ changesOnly [.time, .out] s u)) ∧
  (∀ (p : Path) (s : State), s.gate p 0xC011 false false = .pass →
    completes (.getConfigurationImageInfo p) s (fun u => lengths s u p 0xC011 = [(.success, 160)] ∧ changesOnly [.out] s u)) ∧
  (∀ (p : Path) (a n : Nat) (s : State), s.gate p 0xC021 false false = .pass → a < s.key.extents.length → n ≠ 0 → n ≤ 2047 →
    completes (.getExtentTable p a n) s (fun u =>
      lengths s u p 0xC021 = [(.success, 16 + 32 * min n (s.key.extents.length - a))] ∧ changesOnly [.out] s u)) ∧
  (∀ (p : Path) (a n : Nat) (s : State), s.gate p 0xC033 false false = .pass → a ≤ 4095 → n ≠ 0 → n ≤ 4094 →
    completes (.getKeyStatus p a n) s (fun u => lengths s u p 0xC033 = [(.success, 32 + 16 * min n (4096 - a))] ∧ changesOnly [.out] s u)) ∧
  (∀ (p : Path) (s : State), s.gate p 0xC041 false false = .pass →
    completes (.getRingStatus p) s (fun u => lengths s u p 0xC041 = [(.success, 32 + 32 * s.ring.members.length)] ∧ changesOnly [.out] s u)) ∧
  (∀ (p : Path) (q n : Nat) (s : State), s.gate p 0xC050 true false = .pass → n ≠ 0 → n ≤ 1024 → s.recd.stored = [] →
    completes (.readRecorder p q n) s (fun u => lengths s u p 0xC050 =
        [(.success, 64 * min n (s.recd.staging.filter (fun r => decide (q ≤ r.seq) && decide (s.recd.base ≤ r.seq))).length)] ∧
      changesOnly [.out] s u)) ∧
  (∀ (p : Path) (i : Nat) (a : Attempt) (s : State), s.gate p 0xC060 true false = .pass → i < 16 → s.boot.ledger[i]? = some a →
    completes (.getBootLedger p i) s (fun u => answers s u p 0xC060 = [(.success, a.bytes)] ∧ changesOnly [.out] s u)) ∧
  (∀ (p : Path) (i : Nat) (s : State), s.gate p 0xC060 true false = .pass → s.boot.ledger[i]? = none →
    Machine.exec (.getBootLedger p i) s = .next (s.reply p 0xC060 .invalidInput)) ∧
  (∀ (p : Path) (d : Nat) (s : State), s.gate p 0xC080 false false = .pass → s.fitted d = true →
    completes (.getWearAndDriftReport p d true) s (fun u => lengths s u p 0xC080 = [(.success, 272)] ∧ changesOnly [.out] s u)) ∧
  (∀ (p : Path) (s : State), s.gate p 0xC080 false false = .pass →
    completes (.getWearAndDriftReport p 255 true) s (fun u =>
      lengths s u p 0xC080 = [(.success, 16 + 256 * (16 * s.groups))] ∧ changesOnly [.out] s u)) ∧
  (∀ (t : Nat) (p : Path) (part row n : Nat) (w : BitVec 128) (s : State), s.gate p 0xC001 true false = .pass → part < 5 → row < partRows part →
    n ≠ 0 → n ≤ 240 →
    completes (.readTallyRecords t p part row n w) s (fun u =>
      lengths s u p 0xC001 = [(.success, 16 + 264 * min n (partRows part - row))] ∧ changesOnly [.time, .out, .events, .tly] s u)) ∧
  (∀ (t : Nat) (p : Path) (row n : Nat) (w : BitVec 128) (s : State), s.gate p 0xC001 true false = .pass →
    Machine.exec (.readTallyRecords t p 5 row n w) s = .next ((s.tick t).reply p 0xC001 .invalidInput)) ∧
  (∀ (p : Path) (rc : Rc) (s : State), s.gate p 0x4200 false false = .refuse rc →
    Machine.exec (.getHealthInfo p) s = .next (s.reply p 0x4200 rc)) ∧
  (∀ (p : Path) (s : State), s.gate p 0x4200 false false = .silent → Machine.exec (.getHealthInfo p) s = .next s)

/-- The standard mailbox commands that change something (02 R44, R45, Tables 2-12, 2-13; 04 R105; 05 R135; 07 R177, R190; 08 R231; 09 R259, R265; 12 R340, R341; 13
R382). Records are cleared all at once or oldest first by handle. A host time at or above the calendar is taken, one 60 s below slews it, an older one
is refused; the timestamp takes it always. Labels and alert settings hold what was written. A firmware slot fills as its transfer goes and Activate FW names
the slot of the next start. Set Shutdown State returns when its row is written. Inject Poison marks and lists a cached line, Clear Poison writes it whole. Scan Media and
Sanitize run in the background; Sanitize and Secure Erase leave no entry, no listed line, no stored line. -/
def Obligations.MailboxStandard : Prop :=
  (∀ (p : Path) (log : Nat) (hs : List Nat) (s : State), s.gate p 0x0101 false false = .pass → log ≤ 3 →
    completes (.clearEventRecords p log hs true) s (fun u => answers s u p 0x0101 = [(.success, [])] ∧
      u.evt = { s.evt with
        logs := setAt s.evt.logs log [], overflow := setAt s.evt.overflow log 0,
        overflowAt := setAt s.evt.overflowAt log (0, 0) } ∧ changesOnly [.out, .events] s u)) ∧
  (∀ (p : Path) (log : Nat) (hs : List Nat) (s : State), s.gate p 0x0101 false false = .pass → log ≤ 3 → hs ≠ [] →
    ((s.evt.logs.getD log []).map (fun r => r.handle)).take hs.length = hs →
    completes (.clearEventRecords p log hs false) s (fun u => answers s u p 0x0101 = [(.success, [])] ∧
      u.evt.logs = setAt s.evt.logs log ((s.evt.logs.getD log []).drop hs.length) ∧ changesOnly [.out, .events] s u)) ∧
  (∀ (p : Path) (log : Nat) (hs : List Nat) (s : State), s.gate p 0x0101 false false = .pass → log ≤ 3 → hs ≠ [] →
    ((s.evt.logs.getD log []).map (fun r => r.handle)).take hs.length ≠ hs →
    Machine.exec (.clearEventRecords p log hs false) s = .next (s.reply p 0x0101 .invalidHandle)) ∧
  (∀ (p : Path) (l : List (BitVec 8)) (s : State), s.gate p 0x0103 false false = .pass → l.length = 4 → l.all (fun b => decide (b.toNat % 4 ≤ 1)) = true →
    completes (.setEventInterruptPolicy p l) s (fun u => answers s u p 0x0103 = [(.success, [])] ∧
      u.evt = { s.evt with policy := l.map (fun b => b &&& 3) } ∧ changesOnly [.out, .events] s u)) ∧
  (∀ (p : Path) (l : List (BitVec 8)) (s : State), s.gate p 0x0103 false false = .pass → l.length ≠ 4 →
    Machine.exec (.setEventInterruptPolicy p l) s = .next (s.reply p 0x0103 .invalidInput)) ∧
  (∀ (t : Nat) (p : Path) (ns : BitVec 64) (s : State), s.gate p 0x0301 false false = .pass → s.cal.restored = true → s.cal.provisional = false →
    (s.cal.calendar : Int) ≤ hostSeconds ns →
    completes (.setTimestamp t p ns) s (fun u => answers s u p 0x0301 = [(.success, [])] ∧
      u.link = { s.link with timestamp := some (ns, max s.now t) } ∧
      u.cal = { s.cal with calendar := min calendarMax (hostSeconds ns).toNat, slew := none, slewHalf := false } ∧
      changesOnly [.time, .out, .regs, .link, .cal] s u)) ∧
  (∀ (t : Nat) (p : Path) (ns : BitVec 64) (s : State), s.gate p 0x0301 false false = .pass → s.cal.restored = true → s.cal.provisional = false →
    hostSeconds ns < s.cal.calendar → (s.cal.calendar : Int) ≤ hostSeconds ns + 60 →
    completes (.setTimestamp t p ns) s (fun u => answers s u p 0x0301 = [(.success, [])] ∧
      u.link = { s.link with timestamp := some (ns, max s.now t) } ∧
      u.cal = { s.cal with slew := some (hostSeconds ns).toNat, slewHalf := false } ∧ changesOnly [.time, .out, .regs, .link, .cal] s u)) ∧
  (∀ (t : Nat) (p : Path) (ns : BitVec 64) (s : State), s.gate p 0x0301 false false = .pass → s.cal.restored = true →
    hostSeconds ns + 60 < s.cal.calendar →
    completes (.setTimestamp t p ns) s (fun u => answers s u p 0x0301 = [(.success, [])] ∧
      u.link = { s.link with timestamp := some (ns, max s.now t) } ∧ u.cal = { s.cal with slew := none, slewHalf := false } ∧
      changesOnly [.time, .out, .events, .regs, .link, .cal] s u)) ∧
  (∀ (t : Nat) (p : Path) (ns : BitVec 64) (s : State), s.gate p 0x0301 false false = .pass → s.cal.restored = false →
    completes (.setTimestamp t p ns) s (fun u => answers s u p 0x0301 = [(.success, [])] ∧
      u.cal = { s.cal with pendingHost := some (hostSeconds ns) } ∧ changesOnly [.time, .out, .link, .cal] s u)) ∧
  (∀ (p : Path) (o k : Nat) (b : Bytes) (s : State), s.gate p 0x4103 false true = .pass → o + b.length ≤ lsaSize → s.fro = false →
    completes (.setLsa p o b) s (fun u => answers s u p 0x4103 = [(.success, [])] ∧
      Tab.findD u.link.lsa k 0 = (if o ≤ k ∧ k < o + b.length then b.getD (k - o) 0 else Tab.findD s.link.lsa k 0) ∧
      { u.link with lsa := s.link.lsa } = s.link ∧ changesOnly [.out, .link] s u)) ∧
  (∀ (p : Path) (o : Nat) (b : Bytes) (s : State), s.gate p 0x4103 false true = .pass → o + b.length ≤ lsaSize → s.fro = true →
    Machine.exec (.setLsa p o b) s = .next (s.reply p 0x4103 .mediaDisabled)) ∧
  (∀ (p : Path) (v e : BitVec 8) (life : Nat) (hot cold : Int) (vol per : Nat) (s : State), s.gate p 0x4202 false false = .pass → life ≤ 100 →
    completes (.setAlertConfiguration p v e life hot cold vol per) s (fun u => answers s u p 0x4202 = [(.success, [])] ∧
      (List.range 8).all (fun i => u.evt.alert.enable.getLsbD i ==
        (if v.getLsbD i = true then e.getLsbD i && decide (i < 5) else s.evt.alert.enable.getLsbD i)) = true ∧
      u.evt.alert.lifeUsed = (if v.getLsbD 0 = true then life else s.evt.alert.lifeUsed) ∧
      u.evt.alert.overTemp = (if v.getLsbD 1 = true then hot else s.evt.alert.overTemp) ∧
      u.evt.alert.underTemp = (if v.getLsbD 2 = true then cold else s.evt.alert.underTemp) ∧
      u.evt.alert.volErrors = (if v.getLsbD 3 = true then vol else s.evt.alert.volErrors) ∧
      u.evt.alert.perErrors = (if v.getLsbD 4 = true then per else s.evt.alert.perErrors) ∧
      u.evt.alert.standing = s.evt.alert.standing ∧ { u.evt with alert := s.evt.alert } = s.evt ∧ changesOnly [.out, .events] s u)) ∧
  (∀ (t : Nat) (p : Path) (k n : Nat) (img : FwImage) (s : State), s.gate p 0x0201 false false = .pass → s.link.transfer = none → k < 2 →
    4096 ≤ n → n ≤ 65536 → s.runningFw k = false → s.fwMisfit img = none →
    completes (.transferFw t p .full (k + 1) 0 n img) s (fun u =>
      answers s u p 0x0201 = [(if img.digestOk = true then .success else .fwVerificationFailed, [])] ∧
      u.boot = { s.boot with fw := setAt s.boot.fw k ⟨if img.digestOk = true then 1 else 2, img⟩ } ∧ changesOnly [.time, .out, .boot] s u) ∧
    completes (.transferFw t p .initiate (k + 1) 0 n img) s (fun u => answers s u p 0x0201 = [(.success, [])] ∧
      u.boot = { s.boot with fw := setAt s.boot.fw k ⟨3, img⟩ } ∧
      u.link = { s.link with transfer := some ⟨p, k, n, max s.now t⟩ } ∧ changesOnly [.time, .out, .boot, .link] s u)) ∧
  (∀ (t : Nat) (p : Path) (k n : Nat) (img : FwImage) (s : State), s.gate p 0x0201 false false = .pass → s.link.transfer = none → k < 2 →
    4096 ≤ n → n ≤ 65536 → s.runningFw k = true →
    Machine.exec (.transferFw t p .full (k + 1) 0 n img) s = .next ((s.tick t).reply p 0x0201 .invalidSlot)) ∧
  (∀ (t slot n : Nat) (x : Transfer) (img : FwImage) (s : State), s.gate x.path 0x0201 false false = .pass → s.link.transfer = some x →
    max s.now t < x.lastAt + 30 * sec → x.next % 128 = 0 → n ≤ 65536 →
    completes (.transferFw t x.path .continue slot x.next n img) s (fun u => answers s u x.path 0x0201 = [(.success, [])] ∧
      u.link = { s.link with transfer := some { x with next := x.next + n, lastAt := max s.now t } } ∧ changesOnly [.time, .out, .link] s u) ∧
    completes (.transferFw t x.path .finish slot x.next n img) s (fun u =>
      answers s u x.path 0x0201 = [(if img.digestOk = true then .success else .fwVerificationFailed, [])] ∧
      u.boot = { s.boot with fw := setAt s.boot.fw x.slot ⟨if img.digestOk = true then 1 else 2, img⟩ } ∧
      u.link = { s.link with transfer := none } ∧ changesOnly [.time, .out, .boot, .link] s u) ∧
    completes (.transferFw t x.path .abort slot x.next n img) s (fun u => answers s u x.path 0x0201 = [(.success, [])] ∧
      u.boot = { s.boot with fw := setAt s.boot.fw x.slot ⟨0, noFw⟩ } ∧
      u.link = { s.link with transfer := none } ∧ changesOnly [.time, .out, .boot, .link] s u)) ∧
  (∀ (t : Nat) (p : Path) (k : Nat) (x : FwSlot) (s : State), s.gate p 0x0202 false false = .pass → k < 2 → s.boot.fw[k]? = some x → x.st = 1 →
    s.fwMisfit x.img = none → s.runningFw k = false →
    completes (.activateFw t p false (k + 1)) s (fun u => answers s u p 0x0202 = [(.success, [])] ∧ u.boot.fwNext = k ∧ u.boot.pending = true ∧
      u.boot.fwGood = s.boot.fwGood ∧ u.boot.cfgNext = s.boot.cfgNext ∧
      u.boot = { s.boot with headers := u.boot.headers, failure := Tab.del s.boot.failure 2 } ∧ changesOnly [.time, .out, .events, .boot] s u)) ∧
  (∀ (t : Nat) (p : Path) (n : Nat) (s : State), s.gate p 0x0202 false false = .pass →
    Machine.exec (.activateFw t p true n) s = .next ((s.tick t).reply p 0x0202 .unsupported)) ∧
  (∀ (p : Path) (v : BitVec 32) (s : State), s.gate p 0x4204 true false = .pass →
    completes (.setShutdownState p v) s (fun u => answers s u p 0x4204 = [] ∧ u.tly.rows = s.tly.rows ∧
      u.link = { s.link with wait := some ⟨p, 0x4204, [], 1, [v.toNat]⟩ } ∧
      (s.tly.rail0 = true → s.tly.holdUp = true → s.tly.queue = [] →
        u.tly.running = some ⟨4, 1, 2, le 4 v.toNat ++ le 1 (b2n s.pfl.clean), 1, 0⟩) ∧ changesOnly [.events, .regs, .link, .tly] s u)) ∧
  (∀ (t v : Nat) (p : Path) (w : RowWrite) (s : State), s.tly.running = some w → w.owner = 1 → s.tly.queue = [] → s.flip.armed = none →
    s.link.wait = some ⟨p, 0x4204, [], 1, [v]⟩ →
    completes (.tallyRowWriteComplete t) s (fun u => answers s u p 0x4204 = [(.success, [])] ∧
      u.link = { s.link with wait := none, shutdownState := BitVec.ofNat 32 v } ∧
      u.tly = { s.tly with
        running := none, rows := Tab.put s.tly.rows (rowKey w.part w.row) ((s.row w.part w.row).write w.data false) } ∧
      changesOnly [.time, .out, .link, .tly] s u)) ∧
  (∀ (t dpa : Nat) (p : Path) (x : NearSlot) (s : State), s.gate p 0x4301 true true = .pass → dpa % 64 = 0 → dpa + 64 ≤ s.capacity →
    s.link.background = none → s.link.maint = [] → s.injectedLines < 256 → s.nearAt (dpa / 256) = some x → s.evictAt (dpa / 256) = none →
    s.boardAt (dpa / 256) = none → s.wbAt (dpa / 256) = none → s.fillAt (dpa / 256) = none → s.restarting 2 = false → s.restarting 4 = false →
    s.listed (dpa / 64) = false → s.map.poison.findIdx? (extends? (dpa / 64) 2) = none → s.map.poison.length < 8192 →
    completes (.injectPoison t p dpa) s (fun u => answers s u p 0x4301 = [] ∧
      u.cch = { s.cch with near := Tab.put s.cch.near (nearIx (dpa / 256)) { x with copy := x.copy.setPoison (dpa / 64 % 4) } } ∧
      u.map = { s.map with poison := s.map.poison ++ [⟨dpa / 64, 1, 2⟩] } ∧
      u.link = { s.link with wait := some ⟨p, 0x4301, [], 1, []⟩ } ∧ changesOnly [.time, .events, .regs, .link, .cch, .map, .tly] s u)) ∧
  (∀ (t dpa : Nat) (p : Path) (x : NearSlot) (d : Line) (s : State), s.gate p 0x4302 true true = .pass → dpa % 64 = 0 → dpa + 64 ≤ s.capacity →
    s.link.background = none → s.link.maint = [] → s.nearAt (dpa / 256) = some x → s.lineEpochMode (dpa / 256) = false →
    s.storesNothing ⟨0x4302, p, dpa / 64, d, false⟩ = false → (s.tick t).maintReady ⟨0x4302, p, dpa / 64, d, false⟩ = true →
    s.pfl.wt = none → s.pfl.clean = false → s.pfl.overlay = [] → s.flip.armed = none → s.listed (dpa / 64) = false →
    completes (.clearPoison t p dpa d) s (fun u => answers s u p 0x4302 = [(.success, [])] ∧
      (u.nearAt (dpa / 256)).map (fun y => (y.copy.line (dpa / 64 % 4), y.copy.isPoison (dpa / 64 % 4), y.copy.isDirty (dpa / 64 % 4))) =
        some (d, false, true) ∧
      u.cch.evict = s.cch.evict ∧ u.cch.board = s.cch.board ∧ u.cch.wb = s.cch.wb ∧ u.cch.fills = s.cch.fills ∧
      changesOnly [.time, .out, .cch] s u)) ∧
  (∀ (t dpa : Nat) (p : Path) (s : State), s.gate p 0x4301 true true = .pass → dpa % 64 = 0 → dpa + 64 ≤ s.capacity → s.link.background = none →
    s.listed (dpa / 64) = false → 256 ≤ s.injectedLines →
    Machine.exec (.injectPoison t p dpa) s = .next ((s.tick t).reply p 0x4301 .injectPoisonLimit)) ∧
  (∀ (t dpa n : Nat) (p : Path) (s : State), s.gate p 0x4304 false true = .pass → s.link.background = none → dpa % 64 = 0 → n ≠ 0 →
    dpa + 64 * n ≤ s.capacity →
    completes (.scanMedia t p dpa n) s (fun u => answers s u p 0x4304 = [(.backgroundStarted, [])] ∧
      u.link = { s.link with background := some ⟨0x4304, 0, p⟩, scan := some (dpa / 64, n), scanResults := [] } ∧
      changesOnly [.time, .out, .link] s u)) ∧
  (∀ (t dpa n : Nat) (p : Path) (s : State), s.gate p 0x4304 false true = .pass → s.link.background.isSome = true →
    Machine.exec (.scanMedia t p dpa n) s = .next ((s.tick t).reply p 0x4304 .busy)) ∧
  (∀ (t : Nat) (p : Path) (s : State), s.gate p 0x4400 true true = .pass → s.link.background = none → keyOk s.key = true →
    completes (.sanitize t p) s (fun u => answers s u p 0x4400 = [(.backgroundStarted, [])] ∧ u.link.background = some ⟨0x4400, 0, p⟩ ∧
      u.link.lsa = [] ∧ u.map.entries = [] ∧ u.map.poison = [] ∧ u.med.store = [] ∧ u.med.blocks = [] ∧ u.pfl.overlay = [] ∧ u.cch.wb = [] ∧
      u.cch.board = [] ∧ u.ring.shadows = [] ∧ u.key.units = [] ∧ u.key.erasing = some 0x4400 ∧
      s.key.slots.all (fun e => e.2.st == 0 || ((u.slot e.1).st == 1 && (u.slot e.1).gen == e.2.gen + 1)) = true ∧
      changesOnly [.time, .out, .events, .regs, .link, .cch, .med, .map, .key, .pfl, .ring, .tly] s u)) ∧
  (∀ (t : Nat) (p : Path) (s : State), s.gate p 0x4401 true true = .pass → s.link.background = none → keyOk s.key = true →
    completes (.secureErase t p) s (fun u => answers s u p 0x4401 = [] ∧ u.link.wait.map (fun w => (w.path, w.opcode)) = some (p, 0x4401) ∧
      u.link.lsa = [] ∧ u.map.entries = [] ∧ u.map.poison = [] ∧ u.med.store = [] ∧ u.med.blocks = [] ∧ u.pfl.overlay = [] ∧ u.cch.wb = [] ∧
      u.cch.board = [] ∧ u.ring.shadows = [] ∧ u.key.units = [] ∧ u.key.erasing = some 0x4401 ∧
      s.key.slots.all (fun e => e.2.st == 0 || ((u.slot e.1).st == 1 && (u.slot e.1).gen == e.2.gen + 1)) = true ∧
      changesOnly [.time, .out, .events, .regs, .link, .cch, .med, .map, .key, .pfl, .ring, .tly] s u)) ∧
  (∀ (t : Nat) (p : Path) (w : RowWrite) (s : State), s.tly.running = some w → w.owner = 1 → s.tly.queue = [] → s.flip.armed = none →
    s.link.wait = some ⟨p, 0x4401, [], 1, []⟩ →
    completes (.tallyRowWriteComplete t) s (fun u => answers s u p 0x4401 = [(.success, [])] ∧ u.link = { s.link with wait := none } ∧
      u.key = { s.key with erasing := none, resetPending := true } ∧ changesOnly [.time, .out, .link, .key, .tly] s u))

/-- The vendor's mailbox commands that change something (06 R149, R151; 08 R205 to R207; 09 R266; 12 R329, R337; 13 R358 to R361, R369, R379). A command on the tally
store holds its answer until its row is written and takes its effect then: a key slot is filled or zeroised, the recorder is cleared to its new base.
A configuration slot fills as its transfer goes and may be selected when it is valid. Discard Range, Start Key Rotation and Start Energy Store Test run in the
background. A flip mask that passes its checks is armed; target 0 disarms. A partition that is locked out takes no password. -/
def Obligations.MailboxVendor : Prop :=
  (∀ (t : Nat) (p : Path) (row : Nat) (w : BitVec 128) (b : Bytes) (s : State), s.gate p 0xC002 true false = .pass → row ≤ 511 → b.length = 256 →
    s.lockedOut 7 = false → s.passOk 7 w = true →
    completes (.writeCustomerTally t p row w b) s (fun u => answers s u p 0xC002 = [] ∧ u.tly.rows = s.tly.rows ∧
      u.link = { s.link with wait := some ⟨p, 0xC002, [], 1, []⟩ } ∧
      (s.tly.rail0 = true → s.tly.holdUp = true → s.tly.queue = [] → u.tly.running = some ⟨4, 7, row, b, 1, 0⟩) ∧
      changesOnly [.time, .events, .regs, .link, .tly] s u)) ∧
  (∀ (t : Nat) (p : Path) (part : Nat) (old new : BitVec 128) (s : State), s.gate p 0xC003 true false = .pass → part = 6 ∨ part = 7 →
    s.lockedOut part = false → s.passOk part old = true →
    completes (.setTallyPassword t p part old new) s (fun u => answers s u p 0xC003 = [] ∧ u.tly.rows = s.tly.rows ∧
      u.link = { s.link with wait := some ⟨p, 0xC003, [], 1, []⟩ } ∧
      (s.tly.rail0 = true → s.tly.holdUp = true → s.tly.queue = [] →
        u.tly.running = some ⟨4, 5, 3000 + part, le 32 (Config.sha3 (bytes16 new)).toNat, 1, 0⟩) ∧
      changesOnly [.time, .events, .regs, .link, .tly] s u)) ∧
  (∀ (t : Nat) (p : Path) (row : Nat) (w v : BitVec 128) (b : Bytes) (s : State), s.gate p 0xC002 true false = .pass →
    s.gate p 0xC003 true false = .pass → row ≤ 511 → b.length = 256 → s.lockedOut 7 = true →
    Machine.exec (.writeCustomerTally t p row w b) s = .next ((s.tick t).reply p 0xC002 .incorrectPassphrase) ∧
    Machine.exec (.setTallyPassword t p 7 w v) s = .next ((s.tick t).reply p 0xC003 .incorrectPassphrase)) ∧
  (∀ (t : Nat) (p : Path) (img : Image) (s : State), s.gate p 0xC010 false false = .pass → s.link.cfgTransfer = none → 4096 ≤ img.length →
    img.length ≤ 65408 → s.cfgHeaderRefused img = none → s.bodyRefused img = none →
    completes (.transferConfigurationImage t p .full 0 img.length img) s (fun u => answers s u p 0xC010 = [(.success, [])] ∧
      u.boot = { s.boot with cfg := setAt s.boot.cfg s.boot.otherCfg ⟨1, img⟩ } ∧ changesOnly [.time, .out, .boot] s u)) ∧
  (∀ (t n : Nat) (p : Path) (img : Image) (s : State), s.gate p 0xC010 false false = .pass → s.link.cfgTransfer = none → 4096 ≤ n → n ≤ 65408 →
    s.cfgHeaderRefused img = none →
    completes (.transferConfigurationImage t p .initiate 0 n img) s (fun u => answers s u p 0xC010 = [(.success, [])] ∧
      u.boot = { s.boot with cfg := setAt s.boot.cfg s.boot.otherCfg ⟨3, img⟩ } ∧
      u.link = { s.link with cfgTransfer := some ⟨p, s.boot.otherCfg, n, max s.now t⟩ } ∧ changesOnly [.time, .out, .boot, .link] s u)) ∧
  (∀ (t n : Nat) (x : Transfer) (img : Image) (s : State), s.gate x.path 0xC010 false false = .pass → s.link.cfgTransfer = some x →
    max s.now t < x.lastAt + 30 * sec → x.next % 128 = 0 → n ≤ 65408 →
    completes (.transferConfigurationImage t x.path .continue x.next n img) s (fun u => answers s u x.path 0xC010 = [(.success, [])] ∧
      u.link = { s.link with cfgTransfer := some { x with next := x.next + n, lastAt := max s.now t } } ∧
      changesOnly [.time, .out, .link] s u) ∧
    completes (.transferConfigurationImage t x.path .abort x.next n img) s (fun u => answers s u x.path 0xC010 = [(.success, [])] ∧
      u.boot = { s.boot with cfg := setAt s.boot.cfg x.slot ⟨0, emptyImage⟩ } ∧
      u.link = { s.link with cfgTransfer := none } ∧ changesOnly [.time, .out, .boot, .link] s u)) ∧
  (∀ (t n : Nat) (x : Transfer) (img : Image) (s : State), s.gate x.path 0xC010 false false = .pass → s.link.cfgTransfer = some x →
    max s.now t < x.lastAt + 30 * sec → x.next % 128 = 0 → n ≤ 65408 → x.next + n = img.length → s.bodyRefused img = none →
    completes (.transferConfigurationImage t x.path .finish x.next n img) s (fun u => answers s u x.path 0xC010 = [(.success, [])] ∧
      u.boot = { s.boot with cfg := setAt s.boot.cfg x.slot ⟨1, img⟩ } ∧
      u.link = { s.link with cfgTransfer := none } ∧ changesOnly [.time, .out, .boot, .link] s u)) ∧
  (∀ (p : Path) (k : Nat) (x : CfgSlot) (s : State), s.gate p 0xC012 false false = .pass → k ≤ 1 → s.boot.cfg[k]? = some x → x.st = 1 →
    completes (.selectConfigurationSlot p k true) s (fun u => answers s u p 0xC012 = [(.success, [])] ∧ u.boot.cfgNext = k ∧
      u.boot.fwNext = s.boot.fwNext ∧ u.boot.pending = s.boot.pending ∧
      u.boot = { s.boot with headers := u.boot.headers, failure := Tab.del s.boot.failure 3 } ∧ changesOnly [.out, .boot] s u)) ∧
  (∀ (p : Path) (k : Nat) (x : CfgSlot) (s : State), s.gate p 0xC012 false false = .pass → s.boot.cfg[k]? = some x → x.st ≠ 1 →
    Machine.exec (.selectConfigurationSlot p k true) s = .next (s.reply p 0xC012 .invalidInput)) ∧
  (∀ (t dpa n : Nat) (p : Path) (s : State), s.gate p 0xC020 false true = .pass → s.fro = false → s.link.background = none → dpa % 16384 = 0 →
    n % 16384 = 0 → n ≠ 0 → dpa + n ≤ s.capacity → s.key.extents.all (fun e => !e.epoch) = true →
    completes (.discardRange t p dpa n true) s (fun u => answers s u p 0xC020 = [(.backgroundStarted, [])] ∧
      u.link = { s.link with background := some ⟨0xC020, 0, p⟩ } ∧
      u.map = { s.map with discard := some ⟨dpa, n, dpa / 16384, n / 16384, 0⟩ } ∧ changesOnly [.time, .out, .link, .map] s u)) ∧
  (∀ (t dpa n : Nat) (p : Path) (s : State), s.gate p 0xC020 false true = .pass → s.fro = false → s.link.background = none →
    dpa % 16384 ≠ 0 ∨ n % 16384 ≠ 0 ∨ s.capacity < dpa + n →
    Machine.exec (.discardRange t p dpa n true) s = .next ((s.tick t).reply p 0xC020 .invalidInput)) ∧
  (∀ (p : Path) (k : Nat) (s : State), s.gate p 0xC030 true false = .pass → k ≠ 0 → k ≤ 4095 → s.boundNames k = false → s.key.sweep = none →
    s.key.sweepQueue = [] → 16 < s.emptySlots →
    completes (.generateKey p k) s (fun u => answers s u p 0xC030 = [] ∧ u.tly.rows = s.tly.rows ∧
      u.link = { s.link with wait := some ⟨p, 0xC030, le 2 ((s.slot k).gen + 1).toNat, 1, [k]⟩ } ∧
      changesOnly [.events, .regs, .link, .tly] s u)) ∧
  (∀ (p : Path) (k : Nat) (s : State), s.gate p 0xC030 true false = .pass → k = 0 ∨ 4095 < k ∨ s.boundNames k = true →
    Machine.exec (.generateKey p k) s = .next (s.reply p 0xC030 .invalidInput)) ∧
  (∀ (t k : Nat) (p : Path) (w : RowWrite) (b : Bytes) (s : State), s.tly.running = some w → w.owner = 1 → s.tly.queue = [] → s.flip.armed = none →
    s.link.wait = some ⟨p, 0xC030, b, 1, [k]⟩ →
    completes (.tallyRowWriteComplete t) s (fun u => answers s u p 0xC030 = [(.success, b)] ∧ u.link = { s.link with wait := none } ∧
      (u.slot k).st = 1 ∧ (u.slot k).gen = (s.slot k).gen + 1 ∧ (u.slot k).uses = 0 ∧
      Tab.del u.key.slots k = Tab.del s.key.slots k ∧ { u.key with slots := s.key.slots } = s.key ∧
      u.evt = s.evt ∧ u.recd = s.recd ∧ changesOnly [.time, .out, .events, .link, .key, .tly] s u)) ∧
  (∀ (t k : Nat) (p : Path) (s : State), s.gate p 0xC032 true false = .pass → k ≠ 0 → k ≤ 4095 → (s.slot k).st ≠ 0 → s.slotNamed k = false →
    completes (.retireKeyId t p k) s (fun u => answers s u p 0xC032 = [] ∧ u.tly.rows = s.tly.rows ∧
      u.link = { s.link with wait := some ⟨p, 0xC032, [], 1, [k]⟩ } ∧ changesOnly [.time, .events, .regs, .link, .tly] s u)) ∧
  (∀ (t k : Nat) (p : Path) (s : State), s.gate p 0xC032 true false = .pass → (s.slot k).st = 0 ∨ s.slotNamed k = true →
    Machine.exec (.retireKeyId t p k) s = .next ((s.tick t).reply p 0xC032 .invalidInput)) ∧
  (∀ (t k : Nat) (p : Path) (w : RowWrite) (s : State), s.tly.running = some w → w.owner = 1 → s.tly.queue = [] → s.flip.armed = none →
    s.link.wait = some ⟨p, 0xC032, [], 1, [k]⟩ →
    completes (.tallyRowWriteComplete t) s (fun u => answers s u p 0xC032 = [(.success, [])] ∧ u.link = { s.link with wait := none } ∧
      u.key = { s.key with slots := Tab.put s.key.slots k { s.slot k with st := 0, uses := 0, key := 0 } } ∧
      changesOnly [.time, .out, .events, .link, .key, .tly] s u)) ∧
  (∀ (t ext k : Nat) (p : Path) (x : ExtentEntry) (s : State), s.gate p 0xC031 false true = .pass → s.fro = false → s.tallyBusy = false →
    s.link.background = none → s.key.sweep = none → s.key.extents[ext]? = some x → (s.slot k).st = 1 →
    (List.range x.units).all (fun i => (s.unitKey (x.base + i)).key == k) = false →
    completes (.startKeyRotation t p ext k false) s (fun u => answers s u p 0xC031 = [(.backgroundStarted, [])] ∧
      u.link = { s.link with background := some ⟨0xC031, ext, p⟩ } ∧
      u.key.sweep.map (fun w => (w.kind, w.extent, w.newKey)) = some (1, ext, k) ∧
      u.key.sweep.map (fun w => (w.units, w.recorded)) = some ((List.range x.units).map (fun i => x.base + i), false) ∧
      { u.key with sweep := none } = s.key ∧ u.tly.rows = s.tly.rows ∧
      changesOnly [.time, .out, .events, .regs, .link, .key, .tly] s u)) ∧
  (∀ (t : Nat) (p : Path) (s : State), s.gate p 0xC051 true false = .pass →
    completes (.clearRecorder t p) s (fun u => answers s u p 0xC051 = [] ∧ u.tly.rows = s.tly.rows ∧ u.recd = s.recd ∧
      u.link = { s.link with wait := some ⟨p, 0xC051, [], 1, [s.recd.nextSeq]⟩ } ∧ changesOnly [.time, .events, .regs, .link, .tly] s u)) ∧
  (∀ (t b : Nat) (p : Path) (w : RowWrite) (s : State), s.tly.running = some w → w.owner = 1 → s.tly.queue = [] → s.flip.armed = none →
    s.link.wait = some ⟨p, 0xC051, [], 1, [b]⟩ →
    completes (.tallyRowWriteComplete t) s (fun u => answers s u p 0xC051 = [(.success, [])] ∧ u.link = { s.link with wait := none } ∧
      u.recd.base = b ∧ u.recd.stored = [] ∧ changesOnly [.time, .out, .events, .link, .tly] s u)) ∧
  (∀ (t : Nat) (p : Path) (s : State), s.gate p 0xC070 false false = .pass → s.link.background = none → s.pfl.test = none → s.draining = false →
    s.pfl.slots.any (fun d => d.st == 4) = false →
    completes (.startEnergyStoreTest t p) s (fun u => answers s u p 0xC070 = [(.backgroundStarted, [])] ∧
      u.link = { s.link with background := some ⟨0xC070, 0, p⟩ } ∧ u.pfl.test = some ⟨0, 1, max s.now t, 0, 0, 0, 0⟩ ∧
      u.cch = { s.cch with writeback := true } ∧ changesOnly [.time, .out, .events, .link, .cch, .pfl] s u)) ∧
  (∀ (t : Nat) (p : Path) (s : State), s.gate p 0xC070 false false = .pass → s.link.background.isSome = true ∨ s.pfl.test.isSome = true →
    Machine.exec (.startEnergyStoreTest t p) s = .next ((s.tick t).reply p 0xC070 .busy)) ∧
  (∀ (p : Path) (m : FlipIn) (s : State), s.gate p 0xC090 false false = .pass → flipOk s m = true →
    completes (.setCheckFlipMask p m) s (fun u => answers s u p 0xC090 = [(.success, [])] ∧ u.flip = ⟨some m⟩ ∧
      u.reg ECC_FLIP_CTRL.target = m.target ∧ changesOnly [.out, .regs, .flip] s u)) ∧
  (∀ (p : Path) (m : FlipIn) (s : State), s.gate p 0xC090 false false = .pass → m.target = 0 →
    completes (.setCheckFlipMask p m) s (fun u => answers s u p 0xC090 = [(.success, [])] ∧ u.flip = ⟨none⟩ ∧ changesOnly [.out, .regs, .flip] s u)) ∧
  (∀ (p : Path) (m : FlipIn) (s : State), s.gate p 0xC090 false false = .pass → m.target ≠ 0 → flipOk s m = false →
    Machine.exec (.setCheckFlipMask p m) s = .next (s.reply p 0xC090 .invalidInput))

/-- The reckoning ring (10 R269 to R280, R287, R289, R291). Without both cables the ring of more cards is broken, a card alone is a ring of one; a broken ring that is
cabled joins again when sync comes back. A member's DISCOVER marks it present; with the last one the ring is formed. Heartbeats come from position 0; a card marks its bit
and passes them on; 300 microseconds without one break the ring. A FLUSH
gets the card's bit in a later lap, once what was dirty in the first is home; the origin is done when every present
position is. A frame
of another ring ID is forwarded and does nothing; one with a bad CRC is counted, forwarded and does nothing; a card that is bypassed, out of sync or restarting does nothing with any frame; a frame of a
reserved type is counted and forwarded. When the member wait is over, or every present card's STATE is known, the card has joined. -/
def Obligations.RingLink : Prop :=
  (∀ (t : Nat) (i o : Bool) (s : State), s.boot.running = false → s.boot.complete = false →
    completes (.ringCableChange t i o) s (fun u => u.ring = { s.ring with inCable := i, outCable := o } ∧ changesOnly [.time, .ring] s u)) ∧
  (∀ (t : Nat) (i o : Bool) (s : State), s.boot.complete = true → (i && o) = false → (i || o) = true ∨ s.alone = false →
    completes (.ringCableChange t i o) s (fun u => u.ring = { s.ring with inCable := i, outCable := o, st := 2 } ∧
      changesOnly [.time, .out, .events, .ring] s u)) ∧
  (∀ (t : Nat) (s : State), s.boot.complete = true → s.alone = true →
    completes (.ringCableChange t false false) s (fun u => changesOnly [.time, .ring] s u ∧ u.ring =
      { s.ring with inCable := false, outCable := false, st := 3, version := 0, position := some 0, bypass := true })) ∧
  (∀ (t : Nat) (s : State), s.ring.st = 2 → s.ring.inCable = true → s.ring.outCable = true →
    completes (.ringSyncAcquired t) s (fun u => u.ring = { s.ring with inSync := true, st := 0, members := u.ring.members, joinStart := if s.ring.joined = true then max s.now t else s.ring.joinStart } ∧
      u.ring.members.length = s.ring.members.length ∧ u.ring.members.map (fun m => m.serial) = s.ring.members.map (fun m => m.serial) ∧
      u.ring.members.zipIdx.all (fun e => e.2 == s.ring.own || !e.1.present) = true ∧ changesOnly [.time, .ring] s u)) ∧
  (∀ (t : Nat) (s : State), s.ring.st ≠ 2 →
    completes (.ringSyncAcquired t) s (fun u => u.ring = { s.ring with inSync := true } ∧ changesOnly [.time, .ring] s u)) ∧
  (∀ (t : Nat) (b : Bool) (s : State), s.ring.inSync = true → s.reg RING_ERR.sync_losses + 1 < RING_ERR.sync_losses.size →
    completes (.ringSyncLost t b) s (fun u =>
      u.ring = { s.ring with inSync := false, st := if s.ring.st = 1 ∨ s.ring.st = 4 then 2 else s.ring.st } ∧
      u.reg RING_ERR.sync_losses = s.reg RING_ERR.sync_losses + 1 ∧ regsBut [(RING_ERR.sync_losses, 0)] s u ∧
      changesOnly [.time, .out, .events, .regs, .ring] s u)) ∧
  (∀ (t : Nat) (s : State), s.ring.inSync = false → s.ring.st ≠ 1 → s.ring.st ≠ 4 →
    Machine.exec (.ringSyncLost t false) s = .next (s.tick t)) ∧
  (∀ (t : Nat) (s : State), s.onRing = true → s.ring.st = 0 →
    Machine.exec (.discoverSend t) s = .next ((s.tick t).out (.frame ⟨s.ownHead, .discover, s.serial.toNat, 0⟩))) ∧
  (∀ (t : Nat) (s : State), s.onRing = false ∨ s.ring.st ≠ 0 → Machine.exec (.discoverSend t) s = .next (s.tick t)) ∧
  (∀ (t n i : Nat) (f : FrameHead) (m : Member) (s : State), s.onRing = true → f.crcOk = true → n ≠ s.serial.toNat → f.ringId = s.ring.ringId →
    s.ring.members.findIdx? (fun m => m.serial == n) = some i → s.ring.members[i]? = some m → m.present = false →
    (setAt s.ring.members i { m with present := true }).all (fun m => m.present) = false →
    completes (.discover t f n) s (fun u => frames s u = [⟨{ f with hops := f.hops + 1 }, .discover, n, 0⟩] ∧
      u.ring = { s.ring with
        members := setAt s.ring.members i { m with present := true, version := f.version, position := f.hops + 1, foreign := false } } ∧
      changesOnly [.time, .out, .ring] s u)) ∧
  (∀ (t n i : Nat) (f : FrameHead) (m : Member) (s : State), s.onRing = true → f.crcOk = true → n ≠ s.serial.toNat → f.ringId = s.ring.ringId →
    s.ring.members.findIdx? (fun m => m.serial == n) = some i → s.ring.members[i]? = some m → m.present = false → s.ring.st = 0 → s.ring.close = none →
    (setAt s.ring.members i { m with present := true, version := f.version }).all (fun m => m.present && m.version == 2) = true →
    completes (.discover t f n) s (fun u => u.ring.st = 1 ∧ u.ring.version = 2 ∧ u.ring.cardLocal = false ∧ u.ring.lastBeat = max s.now t ∧
      u.ring.stateSeen = [] ∧ u.ring.members.all (fun m => m.present) = true ∧ u.ring.joined = s.ring.joined ∧
      u.ring.committed = s.ring.committed ∧
      (s.ring.masterIx = s.ring.own → s.ring.own < s.ring.members.length → u.ring.position = some 0) ∧
      (frames s u).map (fun x => x.type) = [.discover, .state] ∧ changesOnly [.time, .out, .events, .ring] s u)) ∧
  (∀ (t n : Nat) (f : FrameHead) (s : State), s.onRing = true → f.crcOk = true → n ≠ s.serial.toNat →
    s.ring.members.findIdx? (fun m => m.serial == n) = none →
    completes (.discover t f n) s (fun u => frames s u = [⟨{ f with hops := f.hops + 1 }, .discover, n, 0⟩] ∧
      changesOnly [.time, .out, .events] s u)) ∧
  (∀ (t n i : Nat) (f : FrameHead) (m : Member) (s : State), s.onRing = true → f.crcOk = true → n ≠ s.serial.toNat → f.ringId ≠ s.ring.ringId →
    s.ring.members.findIdx? (fun m => m.serial == n) = some i → s.ring.members[i]? = some m →
    completes (.discover t f n) s (fun u => frames s u = [⟨{ f with hops := f.hops + 1 }, .discover, n, 0⟩] ∧
      u.ring = { s.ring with members := setAt s.ring.members i { m with foreign := true } } ∧ changesOnly [.time, .out, .events, .ring] s u)) ∧
  (∀ (t : Nat) (f : FrameHead) (s : State), s.onRing = true → f.crcOk = true →
    Machine.exec (.discover t f s.serial.toNat) s = .next (s.tick t)) ∧
  (∀ (t : Nat) (s : State), s.onRing = true → s.ring.st = 1 ∨ s.ring.st = 4 → s.ring.position = some 0 →
    Machine.exec (.heartbeatSend t) s = .next ((s.tick t).out (.frame ⟨s.ownHead, .heartbeat, s.ring.committed, 1⟩))) ∧
  (∀ (t : Nat) (s : State), s.ring.position ≠ some 0 → Machine.exec (.heartbeatSend t) s = .next (s.tick t)) ∧
  (∀ (t : Nat) (f : FrameHead) (e : BitVec 48) (k : BitVec 16) (s : State), s.onRing = true → f.crcOk = true → f.ringId = s.ring.ringId → s.mine f = true →
    completes (.heartbeat t f e k) s (fun u => u.ring = { s.ring with lastBeat := max s.now t } ∧ changesOnly [.time, .ring] s u)) ∧
  (∀ (t q : Nat) (f : FrameHead) (e : BitVec 48) (k : BitVec 16) (s : State), s.onRing = true → f.crcOk = true → f.ringId = s.ring.ringId → s.ring.position = some q → f.origin ≠ q →
    completes (.heartbeat t f e k) s (fun u =>
      frames s u = [⟨{ f with hops := f.hops + 1 }, .heartbeat, e.toNat, k.toNat ||| 2 ^ q⟩] ∧
      u.ring = { s.ring with
        lastBeat := max s.now t,
        members := s.ring.members.mapIdx (fun i m =>
          if i ≠ s.ring.own ∧ m.present = true ∧ m.position = f.origin then { m with committed := e.toNat } else m) } ∧
      changesOnly [.time, .out, .ring] s u)) ∧
  (∀ (t : Nat) (s : State), s.ring.st = 1 ∨ s.ring.st = 4 → s.ring.lastBeat + 300 * usec ≤ max s.now t →
    completes (.heartbeatTimeout t) s (fun u => u.ring = { s.ring with st := 2 } ∧ changesOnly [.time, .out, .events, .ring] s u)) ∧
  (∀ (t : Nat) (s : State), max s.now t < s.ring.lastBeat + 300 * usec → Machine.exec (.heartbeatTimeout t) s = .next (s.tick t)) ∧
  (∀ (t : Nat) (s : State), s.link.protocol ≠ 0 → s.ring.flushFrom = none → s.onRing = true →
    completes (.ringFlushStart t) s (fun u => u.ring = { s.ring with
        flushSeq := s.ring.flushSeq + 1, flushShown := true, flushFrom := some (max s.now t), flushLines := s.dirtyLines,
        flushMask := if s.dirtyLines = [] then 2 ^ s.ringPos else 0 } ∧
      frames s u = [⟨s.ownHead, .flush, s.ring.flushSeq + 1, if s.dirtyLines = [] then 2 ^ s.ringPos else 0⟩] ∧
      changesOnly [.time, .out, .ring] s u)) ∧
  (∀ (t : Nat) (s : State), s.link.protocol = 0 ∨ s.ring.flushFrom.isSome = true → Machine.exec (.ringFlushStart t) s = .next (s.tick t)) ∧
  (∀ (t : Nat) (f : FrameHead) (q : BitVec 48) (k : BitVec 16) (s : State), s.onRing = true → f.crcOk = true → f.ringId = s.ring.ringId → s.mine f = false → s.flushLeft = [] →
    s.ring.flushSeen = some (f.origin * 2 ^ 48 + q.toNat) →
    completes (.flush t f q k) s (fun u =>
      frames s u = [⟨{ f with hops := f.hops + 1 }, .flush, q.toNat, k.toNat ||| 2 ^ s.ringPos⟩] ∧
      u.ring = { s.ring with flushLines := [] } ∧ changesOnly [.time, .out, .ring] s u)) ∧
  (∀ (t : Nat) (f : FrameHead) (q : BitVec 48) (k : BitVec 16) (s : State), s.onRing = true → f.crcOk = true → f.ringId = s.ring.ringId → s.mine f = false →
    s.ring.flushSeen ≠ some (f.origin * 2 ^ 48 + q.toNat) →
    completes (.flush t f q k) s (fun u => frames s u = [⟨{ f with hops := f.hops + 1 }, .flush, q.toNat, k.toNat⟩] ∧
      u.ring = { s.ring with flushSeen := some (f.origin * 2 ^ 48 + q.toNat), flushLines := s.dirtyLines } ∧
      changesOnly [.time, .out, .ring] s u)) ∧
  (∀ (t : Nat) (f : FrameHead) (q : BitVec 48) (k : BitVec 16) (s : State), s.onRing = true → f.crcOk = true → f.ringId = s.ring.ringId → s.mine f = true →
    q.toNat = s.ring.flushSeq →
    completes (.flush t f q k) s (fun u => u.ring = { s.ring with flushMask := s.ring.flushMask ||| k.toNat } ∧ changesOnly [.time, .ring] s u)) ∧
  (∀ (t t0 : Nat) (s : State), s.ring.flushFrom = some t0 → s.ring.st ≠ 3 → s.flushLeft = [] →
    (s.ring.flushMask ||| 2 ^ s.ringPos) &&& s.allMask = s.allMask →
    completes (.flushResend t) s (fun u => u.ring = { s.ring with
        flushLines := [], flushMask := s.ring.flushMask ||| 2 ^ s.ringPos, flushFrom := none } ∧
      u.reg RING_FLUSH.done = 1 ∧ regsBut [(RING_FLUSH.done, 0)] s u ∧ changesOnly [.time, .out, .events, .regs, .ring] s u)) ∧
  (∀ (t t0 : Nat) (s : State), s.ring.flushFrom = some t0 → s.ring.st ≠ 3 → s.flushLeft = [] → s.onRing = true →
    (s.ring.flushMask ||| 2 ^ s.ringPos) &&& s.allMask ≠ s.allMask →
    completes (.flushResend t) s (fun u => frames s u = [⟨s.ownHead, .flush, s.ring.flushSeq, s.ring.flushMask ||| 2 ^ s.ringPos⟩] ∧
      u.ring = { s.ring with flushLines := [], flushMask := s.ring.flushMask ||| 2 ^ s.ringPos } ∧ changesOnly [.time, .out, .ring] s u)) ∧
  (∀ (t : Nat) (s : State), s.ring.flushFrom = none → Machine.exec (.flushResend t) s = .next (s.tick t)) ∧
  (∀ (t n : Nat) (f : FrameHead) (v : BitVec 64) (s : State), s.onRing = true → f.crcOk = true → f.ringId = s.ring.ringId →
    Machine.exec (.reservedTypeFrame t f n v) s =
      .next (((s.tick t).bump RING_ERR.reserved_types).out (.frame ⟨{ f with hops := f.hops + 1 }, .reserved n, v.toNat, 0⟩))) ∧
  (∀ (t n : Nat) (f : FrameHead) (e : BitVec 48) (k : BitVec 16) (b : BitVec 4) (s : State), s.onRing = true → f.crcOk = false →
    Machine.exec (.discover t f n) s =
      .next (((s.tick t).bump RING_ERR.crc_errors).out (.frame ⟨{ f with hops := f.hops + 1 }, .discover, n, 0⟩)) ∧
    Machine.exec (.heartbeat t f e k) s =
      .next (((s.tick t).bump RING_ERR.crc_errors).out (.frame ⟨{ f with hops := f.hops + 1 }, .heartbeat, e.toNat, k.toNat⟩)) ∧
    Machine.exec (.flush t f e k) s =
      .next (((s.tick t).bump RING_ERR.crc_errors).out (.frame ⟨{ f with hops := f.hops + 1 }, .flush, e.toNat, k.toNat⟩)) ∧
    Machine.exec (.prepare t f e k) s =
      .next (((s.tick t).bump RING_ERR.crc_errors).out (.frame ⟨{ f with hops := f.hops + 1 }, .prepare, e.toNat, k.toNat⟩)) ∧
    Machine.exec (.commit t f e k) s =
      .next (((s.tick t).bump RING_ERR.crc_errors).out (.frame ⟨{ f with hops := f.hops + 1 }, .commit, e.toNat, k.toNat⟩)) ∧
    Machine.exec (.rollback t f e k) s =
      .next (((s.tick t).bump RING_ERR.crc_errors).out (.frame ⟨{ f with hops := f.hops + 1 }, .rollback, e.toNat, k.toNat⟩)) ∧
    Machine.exec (.state t f e b) s =
      .next (((s.tick t).bump RING_ERR.crc_errors).out (.frame ⟨{ f with hops := f.hops + 1 }, .state, e.toNat, b.toNat⟩))) ∧
  (∀ (t n : Nat) (f : FrameHead) (e : BitVec 48) (k : BitVec 16) (b : BitVec 4) (v : BitVec 64) (s : State), s.onRing = false →
    Machine.exec (.discover t f n) s = .next (s.tick t) ∧ Machine.exec (.heartbeat t f e k) s = .next (s.tick t) ∧
    Machine.exec (.flush t f e k) s = .next (s.tick t) ∧ Machine.exec (.prepare t f e k) s = .next (s.tick t) ∧
    Machine.exec (.commit t f e k) s = .next (s.tick t) ∧ Machine.exec (.rollback t f e k) s = .next (s.tick t) ∧
    Machine.exec (.state t f e b) s = .next (s.tick t) ∧ Machine.exec (.reservedTypeFrame t f n v) s = .next (s.tick t)) ∧
  (∀ (t : Nat) (s : State), s.ring.joined = false → s.boot.step = 0x0B → s.waitEnd ≤ max s.now t →
    completes (.memberWaitExpiry t) s (fun u => u.ring.joined = true ∧ u.ring.waitUsed = (max s.now t - s.ring.joinStart) / msec ∧
      changesOnly [.time, .out, .events, .regs, .ring, .cch, .map, .med, .pfl, .tly] s u)) ∧
  (∀ (t : Nat) (s : State), s.ring.joined = true ∨ s.boot.step ≠ 0x0B ∨ max s.now t < s.waitEnd →
    Machine.exec (.memberWaitExpiry t) s = .next (s.tick t)) ∧
  (∀ (t : Nat) (f : FrameHead) (e : BitVec 48) (b : BitVec 4) (s : State), s.onRing = true → f.crcOk = true → f.ringId = s.ring.ringId → s.mine f = true →
    Machine.exec (.state t f e b) s = .next (s.tick t)) ∧
  (∀ (t : Nat) (f : FrameHead) (e : BitVec 48) (b : BitVec 4) (s : State), s.onRing = true → f.crcOk = true → f.ringId = s.ring.ringId → s.mine f = false →
    s.ring.joined = true → s.ring.pending = false → s.ring.lost = false → e.toNat ≤ s.ring.committed →
    completes (.state t f e b) s (fun u => frames s u = [⟨{ f with hops := f.hops + 1 }, .state, e.toNat, b.toNat⟩] ∧
      u.ring = { s.ring with
        stateSeen := u.ring.stateSeen,
        members := s.ring.members.mapIdx (fun i m =>
          if i ≠ s.ring.own ∧ m.present = true ∧ m.position = f.origin then
            { m with committed := e.toNat, prepared := b.getLsbD 0, holds := b.getLsbD 1, lost := b.getLsbD 2, master := b.getLsbD 3 }
          else m) } ∧ changesOnly [.time, .out, .ring] s u)) ∧
  (∀ (t : Nat) (f : FrameHead) (e : BitVec 48) (b : BitVec 4) (s : State), s.onRing = true → f.crcOk = true → f.ringId = s.ring.ringId → s.mine f = false →
    s.ring.joined = false → s.ring.st = 1 ∨ s.ring.st = 4 → s.allSeen = true →
    completes (.state t f e b) s (fun u => u.ring.joined = true ∧
      changesOnly [.time, .out, .events, .regs, .ring, .cch, .map, .med, .pfl, .tly] s u)) ∧
  (∀ (t n : Nat) (f : FrameHead) (e : BitVec 48) (k : BitVec 16) (b : BitVec 4) (v : BitVec 64) (s : State), s.onRing = true →
    f.crcOk = true → f.ringId ≠ s.ring.ringId →
    Machine.exec (.heartbeat t f e k) s = .next ((s.tick t).out (.frame ⟨{ f with hops := f.hops + 1 }, .heartbeat, e.toNat, k.toNat⟩)) ∧
    Machine.exec (.flush t f e k) s = .next ((s.tick t).out (.frame ⟨{ f with hops := f.hops + 1 }, .flush, e.toNat, k.toNat⟩)) ∧
    Machine.exec (.prepare t f e k) s = .next ((s.tick t).out (.frame ⟨{ f with hops := f.hops + 1 }, .prepare, e.toNat, k.toNat⟩)) ∧
    Machine.exec (.commit t f e k) s = .next ((s.tick t).out (.frame ⟨{ f with hops := f.hops + 1 }, .commit, e.toNat, k.toNat⟩)) ∧
    Machine.exec (.rollback t f e k) s = .next ((s.tick t).out (.frame ⟨{ f with hops := f.hops + 1 }, .rollback, e.toNat, k.toNat⟩)) ∧
    Machine.exec (.state t f e b) s = .next ((s.tick t).out (.frame ⟨{ f with hops := f.hops + 1 }, .state, e.toNat, b.toNat⟩)) ∧
    Machine.exec (.reservedTypeFrame t f n v) s =
      .next ((s.tick t).out (.frame ⟨{ f with hops := f.hops + 1 }, .reserved n, v.toNat, 0⟩)))

/-- RING_DOORBELL_WRITE, PREPARED_RECORD_WRITTEN, PREPARE_LAP_2_SEND, PREPARE, DECISION_RECORD_WRITTEN, COMMIT, ROLLBACK, CLOSE_RESEND, CLOSE_STALL and EPOCH_RESOLVE (10
R281 to R295). The doorbell refuses a close by Table 10-4 and else begins it: lap 1 leaves the master at once unless lines of the next tag are dirty. A card opens the
next epoch as lap 1 passes, sets its bit in lap 2 once its record is written, and is committed when COMMIT passes; the master commits when its decision record is
written. A commit moves no data. PREPARE and COMMIT are sent again after 20 microseconds; a close that takes 1 ms is reported once. Epoch Resolve sends the host's decision
round and answers when it is back; a card that is alone takes it at once. -/
def Obligations.RingEpoch : Prop :=
  (∀ (t : Nat) (v : Word64) (s : State), s.link.protocol ≠ 0 → s.refusal v.toNat = 0 → s.localClose = false → s.tagBusy v.toNat = false →
    s.onRing = true →
    completes (.ringDoorbellWrite t 8 v) s (fun u => frames s u = [⟨s.ownHead, .prepare, v.toNat, 0⟩] ∧
      u.ring = { s.ring with
        close := some ⟨v.toNat, 1, max s.now t, max s.now t, false, false, false, 0, 0, max s.now t, false, false⟩,
        lastFrame := some ⟨s.ownHead, .prepare, v.toNat, 0⟩ } ∧ changesOnly [.time, .out, .ring] s u)) ∧
  (∀ (t : Nat) (v : Word64) (s : State), s.link.protocol ≠ 0 → s.refusal v.toNat = 0 → s.localClose = true ∨ s.tagBusy v.toNat = true →
    completes (.ringDoorbellWrite t 8 v) s (fun u => u.ring = { s.ring with
        close := some ⟨v.toNat, 1, max s.now t, max s.now t, false, false, false, 0, 0, max s.now t, s.tagBusy v.toNat, false⟩ } ∧
      changesOnly [.time, .ring] s u)) ∧
  (∀ (t : Nat) (v : Word64) (s : State), s.link.protocol ≠ 0 → s.refusal v.toNat ≠ 0 →
    completes (.ringDoorbellWrite t 8 v) s (fun u => u.ring = { s.ring with refusal := s.refusal v.toNat } ∧ changesOnly [.time, .ring] s u)) ∧
  (∀ (v : Nat) (s : State),
    (s.ring.joined = false → s.refusal v = 4) ∧
    (s.ring.joined = true → s.localClose = false → s.isMaster = false → s.refusal v = 1) ∧
    (s.ring.joined = true → s.isMaster = true → v ≠ s.openEpoch → s.refusal v = 2) ∧
    (s.ring.joined = true → s.isMaster = true → v = s.openEpoch → v < 2 ^ 48 → s.ring.close.isSome = true → s.refusal v = 3) ∧
    (s.ring.joined = true → s.isMaster = true → v = s.openEpoch → v < 2 ^ 48 → s.ring.close = none → s.ring.st = 2 → s.refusal v = 4) ∧
    (s.ring.joined = true → s.isMaster = true → v = s.openEpoch → v < 2 ^ 48 → s.ring.close = none → s.ring.st = 1 → s.ring.pending = true →
      s.refusal v = 5) ∧
    (s.ring.joined = true → s.isMaster = true → v = s.openEpoch → v < 2 ^ 48 → s.ring.close = none → s.ring.st = 1 → s.ring.pending = false →
      s.refusal v = 0)) ∧
  (∀ (t n : Nat) (v : Word64) (s : State), s.link.protocol ≠ 0 → n ≠ 8 →
    Machine.exec (.ringDoorbellWrite t n v) s = .next ((s.tick t).bump RING_ERR.bad_doorbells)) ∧
  (∀ (t n : Nat) (v : Word64) (s : State), s.link.protocol = 0 → Machine.exec (.ringDoorbellWrite t n v) s = .next (s.tick t)) ∧
  (∀ (t : Nat) (c : Close) (s : State), s.ring.close = some c → c.held = false → c.recordDone = false → c.n = s.ring.committed + 1 →
    completes (.preparedRecordWritten t) s (fun u =>
      u.ring = { s.ring with prepared := true, close := some { c with recordDone := true } } ∧ changesOnly [.time, .ring] s u)) ∧
  (∀ (t : Nat) (c : Close) (s : State), s.ring.close = some c → c.held = true ∨ c.recordDone = true →
    Machine.exec (.preparedRecordWritten t) s = .next (s.tick t)) ∧
  (∀ (t : Nat) (c : Close) (s : State), s.ring.close = some c → s.isMaster = true → c.lap2Due (max s.now t) = true → s.onRing = true →
    completes (.prepareLap2Send t) s (fun u => frames s u = [⟨{ s.ownHead with lap2 := true }, .prepare, c.n, 2 ^ s.ringPos⟩] ∧
      u.ring.close = some { c with lap2Sent := true, lastSent := max s.now t } ∧
      { u.ring with close := s.ring.close, lastFrame := s.ring.lastFrame } = s.ring ∧ changesOnly [.time, .out, .ring] s u)) ∧
  (∀ (t : Nat) (c : Close) (s : State), s.ring.close = some c → s.isMaster = false ∨ c.lap1Back = false ∨ c.recordDone = false ∨ max s.now t < c.lap1Sent + 3500 →
    Machine.exec (.prepareLap2Send t) s = .next (s.tick t)) ∧
  (∀ (t : Nat) (f : FrameHead) (e : BitVec 48) (k : BitVec 16) (s : State), s.onRing = true → f.crcOk = true → f.ringId = s.ring.ringId → s.ring.version = 2 → s.mine f = false →
    f.lap2 = false → e.toNat = s.ring.committed + 1 → s.ring.close = none → s.ring.prepared = false →
    completes (.prepare t f e k) s (fun u => frames s u = [⟨{ f with hops := f.hops + 1 }, .prepare, e.toNat, k.toNat⟩] ∧
      u.ring = { s.ring with
        close := some ⟨e.toNat, 1, max s.now t, max s.now t, false, false, false, 0, 0, max s.now t, s.tagBusy e.toNat, false⟩ } ∧
      changesOnly [.time, .out, .ring] s u)) ∧
  (∀ (t : Nat) (f : FrameHead) (e : BitVec 48) (k : BitVec 16) (s : State), s.onRing = true → f.crcOk = true → f.ringId = s.ring.ringId → s.ring.version = 2 → s.mine f = false →
    f.lap2 = true → e.toNat = s.ring.committed + 1 → s.ring.prepared = true →
    Machine.exec (.prepare t f e k) s =
      .next ((s.tick t).out (.frame ⟨{ f with hops := f.hops + 1 }, .prepare, e.toNat, k.toNat ||| 2 ^ s.ringPos⟩))) ∧
  (∀ (t : Nat) (f : FrameHead) (e : BitVec 48) (k : BitVec 16) (c : Close) (s : State), s.onRing = true → f.crcOk = true → f.ringId = s.ring.ringId → s.ring.version = 2 →
    s.mine f = true → f.lap2 = false → s.ring.close = some c → c.n = e.toNat → c.recordDone = false →
    completes (.prepare t f e k) s (fun u => u.ring = { s.ring with close := some { c with lap1Back := true } } ∧ changesOnly [.time, .ring] s u)) ∧
  (∀ (t : Nat) (f : FrameHead) (e : BitVec 48) (k : BitVec 16) (c : Close) (s : State), s.onRing = true → f.crcOk = true → f.ringId = s.ring.ringId → s.ring.version = 2 →
    s.mine f = true → f.lap2 = true → s.ring.close = some c → c.n = e.toNat → c.phase = 1 →
    completes (.prepare t f e k) s (fun u => changesOnly [.time, .ring] s u ∧ u.ring = { s.ring with
      close := some { c with mask := k.toNat, phase := if k.toNat &&& s.allMask = s.allMask then 2 else 1 } })) ∧
  (∀ (t : Nat) (f : FrameHead) (e : BitVec 48) (k : BitVec 16) (s : State), s.onRing = true → f.crcOk = true → f.ringId = s.ring.ringId → s.ring.version ≠ 2 →
    Machine.exec (.prepare t f e k) s = .next ((s.tick t).out (.frame ⟨{ f with hops := f.hops + 1 }, .prepare, e.toNat, k.toNat⟩)) ∧
    Machine.exec (.commit t f e k) s = .next ((s.tick t).out (.frame ⟨{ f with hops := f.hops + 1 }, .commit, e.toNat, k.toNat⟩)) ∧
    Machine.exec (.rollback t f e k) s = .next ((s.tick t).out (.frame ⟨{ f with hops := f.hops + 1 }, .rollback, e.toNat, k.toNat⟩))) ∧
  (∀ (t : Nat) (c : Close) (s : State), s.ring.close = some c → s.localClose = true → c.recordDone = true → c.n = s.ring.committed + 1 →
    completes (.decisionRecordWritten t) s (fun u => u.ring = { s.ring with
        committed := c.n, prepared := false, holds := false, close := none, lastPhase := 3, lastCloseNs := max s.now t - c.t0 } ∧
      { u.map with entries := s.map.entries } = s.map ∧ frames s u = [] ∧ changesOnly [.time, .out, .events, .ring, .map] s u)) ∧
  (∀ (t : Nat) (c : Close) (s : State), s.ring.close = some c → s.localClose = false → s.isMaster = true → c.phase = 2 → c.n = s.ring.committed + 1 →
    s.onRing = true →
    completes (.decisionRecordWritten t) s (fun u => frames s u = [⟨s.ownHead, .commit, c.n, 2 ^ s.ringPos⟩] ∧
      u.ring = { s.ring with
        committed := c.n, prepared := false, holds := true, lastPhase := 3, lastCloseNs := max s.now t - c.t0,
        close := some { c with phase := 3, lastSent := max s.now t, applied := 2 ^ s.ringPos },
        lastFrame := some ⟨s.ownHead, .commit, c.n, 2 ^ s.ringPos⟩ } ∧
      { u.map with entries := s.map.entries } = s.map ∧ changesOnly [.time, .out, .events, .ring, .map] s u)) ∧
  (∀ (t : Nat) (c : Close) (s : State), s.ring.close = some c → c.n ≠ s.ring.committed + 1 ∨ (s.localClose = false ∧ c.phase ≠ 2) →
    Machine.exec (.decisionRecordWritten t) s = .next (s.tick t)) ∧
  (∀ (t : Nat) (f : FrameHead) (e : BitVec 48) (k : BitVec 16) (s : State), s.onRing = true → f.crcOk = true → f.ringId = s.ring.ringId → s.ring.version = 2 → s.mine f = false →
    f.recovery = false → f.resolve = false → e.toNat = s.ring.committed + 1 → s.ring.prepared = true →
    completes (.commit t f e k) s (fun u => frames s u = [⟨{ f with hops := f.hops + 1 }, .commit, e.toNat, k.toNat ||| 2 ^ s.ringPos⟩] ∧
      u.ring = { s.ring with committed := e.toNat, prepared := false, close := none, lastPhase := 3 } ∧
      { u.map with entries := s.map.entries } = s.map ∧ changesOnly [.time, .out, .ring, .map] s u)) ∧
  (∀ (t : Nat) (f : FrameHead) (e : BitVec 48) (k : BitVec 16) (s : State), s.onRing = true → f.crcOk = true → f.ringId = s.ring.ringId → s.ring.version = 2 → s.mine f = false →
    e.toNat ≤ s.ring.committed →
    Machine.exec (.commit t f e k) s =
      .next ((s.tick t).out (.frame ⟨{ f with hops := f.hops + 1 }, .commit, e.toNat, k.toNat ||| 2 ^ s.ringPos⟩))) ∧
  (∀ (t : Nat) (f : FrameHead) (e : BitVec 48) (k : BitVec 16) (s : State), s.onRing = true → f.crcOk = true → f.ringId = s.ring.ringId → s.ring.version = 2 → s.mine f = false →
    f.recovery = false → f.resolve = false → s.ring.committed < e.toNat → s.ring.prepared = false →
    Machine.exec (.commit t f e k) s =
      .next ((s.tick t).out (.frame ⟨{ f with hops := f.hops + 1 }, .commit, e.toNat, k.toNat⟩))) ∧
  (∀ (t : Nat) (f : FrameHead) (e : BitVec 48) (k : BitVec 16) (c : Close) (s : State), s.onRing = true → f.crcOk = true → f.ringId = s.ring.ringId → s.ring.version = 2 →
    s.mine f = true → f.resolve = false → k.toNat &&& s.allMask = s.allMask → s.ring.close = some c → c.n = e.toNat →
    completes (.commit t f e k) s (fun u => u.ring = { s.ring with close := none, holds := false, lastPhase := 3 } ∧
      changesOnly [.time, .ring] s u)) ∧
  (∀ (t : Nat) (f : FrameHead) (e : BitVec 48) (k : BitVec 16) (p : Path) (s : State), s.onRing = true → f.crcOk = true → f.ringId = s.ring.ringId → s.ring.version = 2 →
    s.mine f = true → f.resolve = true → s.ring.resolving = true → s.link.resolve = some p →
    completes (.commit t f e k) s (fun u =>
      answers s u p 0xC040 = [(.success, le 8 e.toNat ++ le 2 (k.toNat ||| 2 ^ s.ringPos) ++ zeros 6)] ∧ u.ring.committed = e.toNat ∧
      u.ring.pending = false ∧ u.ring.resolving = false ∧ u.link = { s.link with resolve := none } ∧
      changesOnly [.time, .out, .events, .regs, .link, .ring, .cch, .map, .med, .pfl, .tly] s u) ∧
    completes (.rollback t f e k) s (fun u =>
      answers s u p 0xC040 = [(.success, le 8 (e.toNat - 1) ++ le 2 (k.toNat ||| 2 ^ s.ringPos) ++ zeros 6)] ∧
      u.ring.committed = e.toNat - 1 ∧ u.ring.pending = false ∧ u.ring.resolving = false ∧ u.link = { s.link with resolve := none } ∧
      changesOnly [.time, .out, .events, .regs, .link, .ring, .cch, .map, .med, .pfl, .tly] s u)) ∧
  (∀ (t : Nat) (f : FrameHead) (e : BitVec 48) (k : BitVec 16) (s : State), s.onRing = true → f.crcOk = true → f.ringId = s.ring.ringId → s.ring.version = 2 → s.mine f = false →
    f.recovery = false → f.resolve = false →
    Machine.exec (.rollback t f e k) s =
      .next ((s.tick t).out (.frame ⟨{ f with hops := f.hops + 1 }, .rollback, e.toNat, k.toNat ||| 2 ^ s.ringPos⟩))) ∧
  (∀ (t : Nat) (f : FrameHead) (e : BitVec 48) (k : BitVec 16) (s : State), s.onRing = true → f.crcOk = true → f.ringId = s.ring.ringId → s.ring.version = 2 → s.mine f = false →
    f.recovery = true ∨ f.resolve = true → s.ring.prepared = true →
    completes (.rollback t f e k) s (fun u => u.ring.joined = true ∧
      changesOnly [.time, .out, .events, .regs, .ring, .cch, .map, .med, .pfl, .tly] s u)) ∧
  (∀ (t : Nat) (c : Close) (s : State), s.ring.close = some c → s.isMaster = true → s.localClose = false → s.onRing = true → s.ring.st = 1 →
    c.held = false → c.phase = 1 → c.lap2Sent = false → c.lap1Back = false → c.lastSent + 20 * usec ≤ max s.now t →
    completes (.closeResend t) s (fun u => frames s u = [⟨{ s.ownHead with retrans := true }, .prepare, c.n, 0⟩] ∧
      u.ring.close = some { c with lastSent := max s.now t } ∧
      { u.ring with close := s.ring.close, lastFrame := s.ring.lastFrame } = s.ring ∧ regsBut [(RING_ERR.retransmits, 0)] s u ∧
      changesOnly [.time, .out, .events, .regs, .ring] s u)) ∧
  (∀ (t : Nat) (c : Close) (s : State), s.ring.close = some c → s.isMaster = true → s.localClose = false → s.onRing = true → s.ring.st = 1 →
    c.held = false → c.phase = 3 → c.lastSent + 20 * usec ≤ max s.now t →
    completes (.closeResend t) s (fun u => frames s u = [⟨{ s.ownHead with retrans := true }, .commit, c.n, 2 ^ s.ringPos⟩] ∧
      u.ring.close = some { c with lastSent := max s.now t } ∧
      { u.ring with close := s.ring.close, lastFrame := s.ring.lastFrame } = s.ring ∧ regsBut [(RING_ERR.retransmits, 0)] s u ∧
      changesOnly [.time, .out, .events, .regs, .ring] s u)) ∧
  (∀ (t : Nat) (c : Close) (s : State), s.ring.close = some c → s.isMaster = false ∨ c.held = true ∨ max s.now t < c.lastSent + 20 * usec →
    Machine.exec (.closeResend t) s = .next (s.tick t)) ∧
  (∀ (t : Nat) (c : Close) (s : State), s.ring.close = some c → s.isMaster = true → c.stalled = false → c.phase < 3 → c.t0 + msec ≤ max s.now t →
    completes (.closeStall t) s (fun u => u.ring = { s.ring with close := some { c with stalled := true } } ∧
      changesOnly [.time, .out, .events, .ring] s u)) ∧
  (∀ (t : Nat) (c : Close) (s : State), s.ring.close = some c → c.stalled = true ∨ max s.now t < c.t0 + msec →
    Machine.exec (.closeStall t) s = .next (s.tick t)) ∧
  (∀ (t : Nat) (s : State), s.ring.close = none →
    Machine.exec (.preparedRecordWritten t) s = .next (s.tick t) ∧ Machine.exec (.prepareLap2Send t) s = .next (s.tick t) ∧
    Machine.exec (.decisionRecordWritten t) s = .next (s.tick t) ∧ Machine.exec (.closeResend t) s = .next (s.tick t) ∧
    Machine.exec (.closeStall t) s = .next (s.tick t)) ∧
  (∀ (t a : Nat) (p : Path) (s : State), s.gate p 0xC040 false false = .pass → s.ring.joined = true → s.ring.pending = true → s.ring.resolving = false →
    a ≤ 1 → 1 < s.presentCount → s.onRing = true →
    completes (.epochResolve t p (s.ring.committed + 1) a) s (fun u => answers s u p 0xC040 = [] ∧
      frames s u = [⟨{ s.ownHead with resolve := true }, if a = 1 then .commit else .rollback, s.ring.committed + 1, 2 ^ s.ringPos⟩] ∧
      u.link = { s.link with resolve := some p } ∧ u.ring = { s.ring with resolving := true, lastFrame := u.ring.lastFrame } ∧
      changesOnly [.time, .out, .link, .ring] s u)) ∧
  (∀ (t a : Nat) (p : Path) (s : State), s.gate p 0xC040 false false = .pass → s.ring.joined = true → s.ring.pending = true → s.ring.resolving = false →
    a ≤ 1 → s.presentCount ≤ 1 →
    completes (.epochResolve t p (s.ring.committed + 1) a) s (fun u => u.ring.committed = s.ring.committed + a ∧ u.ring.pending = false ∧
      u.ring.resolving = false ∧ answers s u p 0xC040 = [(.success, le 8 (s.ring.committed + a) ++ le 2 (2 ^ s.ringPos) ++ zeros 6)] ∧
      changesOnly [.time, .out, .events, .regs, .link, .ring, .cch, .map, .med, .pfl, .tly] s u)) ∧
  (∀ (t a n : Nat) (p : Path) (s : State), s.gate p 0xC040 false false = .pass → s.ring.joined = true →
    s.ring.pending = false ∨ n ≠ s.ring.committed + 1 ∨ 1 < a →
    Machine.exec (.epochResolve t p n a) s = .next ((s.tick t).reply p 0xC040 .invalidInput))
end

