-- ==== Sys2Proof/Laws/Tab.lean ====
section
/-! SUPPORT. Laws of sparse tables: a read after a write, and that every table operation keeps the canonical form. -/

set_option Elab.async false

namespace Sys2Proof.Machine

variable {α : Type}

/-! ## Reads after writes -/

@[simp] theorem Tab.find_nil (k : Nat) : Tab.find ([] : Tab α) k = none := rfl

@[simp] theorem Tab.find_put_same (m : Tab α) (k : Nat) (a : α) : Tab.find (Tab.put m k a) k = some a := by
  induction m with
  | nil => simp [Tab.put, Tab.find]
  | cons e r ih =>
    obtain ⟨i, b⟩ := e
    by_cases h1 : k < i
    · simp [Tab.put, Tab.find, h1]
    · by_cases h2 : k = i
      · simp [Tab.put, Tab.find, h2]
      · have h3 : ¬i = k := fun h => h2 h.symm
        simp [Tab.put, Tab.find, h1, h2, h3, ih]

theorem Tab.find_put_other (m : Tab α) (k j : Nat) (a : α) (h : j ≠ k) : Tab.find (Tab.put m k a) j = Tab.find m j := by
  have h' : ¬k = j := fun e => h e.symm
  induction m with
  | nil => simp [Tab.put, Tab.find, h']
  | cons e r ih =>
    obtain ⟨i, b⟩ := e
    by_cases h1 : k < i
    · simp [Tab.put, Tab.find, h1, h']
    · by_cases h2 : k = i
      · subst h2; simp [Tab.put, Tab.find, h']
      · simp [Tab.put, Tab.find, h1, h2, ih]

@[simp] theorem Tab.find_del_same (m : Tab α) (k : Nat) : Tab.find (Tab.del m k) k = none := by
  induction m with
  | nil => rfl
  | cons e r ih =>
    obtain ⟨i, b⟩ := e
    by_cases h : i = k
    · simp [Tab.del, h, ih]
    · simp [Tab.del, Tab.find, h, ih]

theorem Tab.find_del_other (m : Tab α) (k j : Nat) (h : j ≠ k) : Tab.find (Tab.del m k) j = Tab.find m j := by
  induction m with
  | nil => rfl
  | cons e r ih =>
    obtain ⟨i, b⟩ := e
    by_cases h1 : i = k
    · subst h1
      have : ¬i = j := fun e => h e.symm
      simp [Tab.del, Tab.find, this, ih]
    · simp [Tab.del, Tab.find, h1, ih]

@[simp] theorem Tab.findD_put_same (m : Tab α) (k : Nat) (a d : α) : Tab.findD (Tab.put m k a) k d = a := by
  simp [Tab.findD]

theorem Tab.findD_put_other (m : Tab α) (k j : Nat) (a d : α) (h : j ≠ k) :
    Tab.findD (Tab.put m k a) j d = Tab.findD m j d := by
  simp [Tab.findD, Tab.find_put_other m k j a h]

/-! ## The canonical form -/

/-- Every key is above k: the first key is, and the keys rise. -/
theorem Tab.above_iff (m : Tab α) (k : Nat) (h : Tab.wf m = true) : Tab.above k m = true ↔ ∀ e ∈ m, k < e.1 := by
  induction m generalizing k with
  | nil => simp [Tab.above]
  | cons e r ih =>
    obtain ⟨i, b⟩ := e
    simp only [Tab.wf, Bool.and_eq_true] at h
    have hr := (ih i h.2).1 h.1
    constructor
    · intro hk x hx
      simp only [Tab.above, decide_eq_true_eq] at hk
      rcases List.mem_cons.1 hx with rfl | hx
      · exact hk
      · exact lt_trans hk (hr x hx)
    · intro hk
      simpa [Tab.above] using hk (i, b) (by simp)

/-- The canonical form says that the keys rise from each entry to every later one. -/
theorem Tab.wf_iff_pairwise (m : Tab α) : Tab.wf m = true ↔ m.Pairwise (fun a b => a.1 < b.1) := by
  induction m with
  | nil => simp [Tab.wf]
  | cons e r ih =>
    obtain ⟨i, b⟩ := e
    simp only [Tab.wf, Bool.and_eq_true, List.pairwise_cons]
    constructor
    · rintro ⟨h1, h2⟩
      exact ⟨(Tab.above_iff r i h2).1 h1, ih.1 h2⟩
    · rintro ⟨h1, h2⟩
      exact ⟨(Tab.above_iff r i (ih.2 h2)).2 h1, ih.2 h2⟩

theorem Tab.mem_put_key (m : Tab α) (k : Nat) (a : α) (e : Nat × α) (h : e ∈ Tab.put m k a) : e.1 = k ∨ e ∈ m := by
  induction m with
  | nil => simp [Tab.put] at h; simp [h]
  | cons x r ih =>
    obtain ⟨i, b⟩ := x
    by_cases h1 : k < i
    · simp [Tab.put, h1] at h; rcases h with rfl | h | h
      · simp
      · simp [h]
      · simp [h]
    · by_cases h2 : k = i
      · simp [Tab.put, h2] at h; rcases h with rfl | h
        · simp [h2]
        · simp [h]
      · simp [Tab.put, h1, h2] at h
        rcases h with rfl | h
        · simp
        · rcases ih h with h | h
          · exact .inl h
          · simp [h]

@[simp] theorem Tab.wf_put (m : Tab α) (k : Nat) (a : α) (h : Tab.wf m = true) : Tab.wf (Tab.put m k a) = true := by
  rw [Tab.wf_iff_pairwise] at h ⊢
  induction m with
  | nil => simp [Tab.put]
  | cons e r ih =>
    obtain ⟨i, b⟩ := e
    have hc := List.pairwise_cons.1 h
    by_cases h1 : k < i
    · simp only [Tab.put, h1, if_true]
      refine List.pairwise_cons.2 ⟨fun x hx => ?_, h⟩
      rcases List.mem_cons.1 hx with rfl | hx
      · exact h1
      · exact lt_trans h1 (hc.1 x hx)
    · by_cases h2 : k = i
      · subst h2
        simp only [Tab.put, lt_irrefl, if_false, if_true]
        exact List.pairwise_cons.2 ⟨fun x hx => hc.1 x hx, hc.2⟩
      · simp only [Tab.put, h1, h2, if_false]
        refine List.pairwise_cons.2 ⟨fun x hx => ?_, ih hc.2⟩
        rcases Tab.mem_put_key r k a x hx with hk | hx
        · rw [hk]; omega
        · exact hc.1 x hx

theorem Tab.del_eq_filter (m : Tab α) (k : Nat) : Tab.del m k = m.filter (fun e => decide (e.1 ≠ k)) := by
  induction m with
  | nil => rfl
  | cons e r ih =>
    obtain ⟨i, b⟩ := e
    by_cases h : i = k <;> simp [Tab.del, h, ih]

@[simp] theorem Tab.wf_filter (m : Tab α) (p : Nat × α → Bool) (h : Tab.wf m = true) : Tab.wf (m.filter p) = true := by
  rw [Tab.wf_iff_pairwise] at h ⊢
  exact h.filter p

@[simp] theorem Tab.wf_del (m : Tab α) (k : Nat) (h : Tab.wf m = true) : Tab.wf (Tab.del m k) = true := by
  rw [Tab.del_eq_filter]; exact Tab.wf_filter m _ h

@[simp] theorem Tab.wf_keep (m : Tab α) (p : Nat → α → Bool) (h : Tab.wf m = true) : Tab.wf (Tab.keep m p) = true :=
  Tab.wf_filter m _ h

theorem Tab.wf_map {β : Type} (m : Tab α) (f : Nat × α → Nat × β) (hf : ∀ e, (f e).1 = e.1) (h : Tab.wf m = true) :
    Tab.wf (m.map f) = true := by
  rw [Tab.wf_iff_pairwise] at h ⊢
  exact List.Pairwise.map f (fun a b hab => by rw [hf, hf]; exact hab) h

@[simp] theorem Tab.wf_mapV (m : Tab α) (f : Nat → α → α) (h : Tab.wf m = true) : Tab.wf (Tab.mapV m f) = true :=
  Tab.wf_map m _ (fun _ => rfl) h

@[simp] theorem Tab.wf_upd (m : Tab α) (k : Nat) (f : α → α) (h : Tab.wf m = true) : Tab.wf (Tab.upd m k f) = true := by
  unfold Tab.upd
  split
  · exact Tab.wf_put m k _ h
  · exact h

@[simp] theorem Tab.wf_nil : Tab.wf ([] : Tab α) = true := rfl

end Sys2Proof.Machine
end

