-- ==== Sys2Proof/Laws/Groups.lean ====
section
/-! SUPPORT. What the card does to whole tables keeps their canonical form: folds, dump indexes, label bytes, sweeps, and what is
left when volatile contents are gone. -/

set_option Elab.async false

namespace Sys2Proof.Laws

open Sys2Proof.Machine Sys2Proof.Safety

/-- Storing a register field keeps the canonical form. -/
@[simp] theorem wf_putObs (m : Tab Nat) (k d v : Nat) (h : Tab.wf m = true) : Tab.wf (putObs m k d v) = true := by
  unfold putObs
  split
  · exact Tab.wf_del m k h
  · exact Tab.wf_put m k v h

/-- Putting or removing an entry keeps the canonical form. -/
@[simp] theorem wf_opt {α : Type} (m : Tab α) (k : Nat) (e : Option α) (h : Tab.wf m = true) :
    Tab.wf (match e with | some x => Tab.put m k x | none => Tab.del m k) = true := by
  cases e
  · exact Tab.wf_del m k h
  · exact Tab.wf_put m k _ h

@[simp] theorem wf_ite {α : Type} {c : Prop} [Decidable c] {m n : Tab α} (h : Tab.wf m = true) (k : Tab.wf n = true) :
    Tab.wf (if c then m else n) = true := by
  split
  · exact h
  · exact k

/-! ## Folds -/

theorem wf_foldl {α β : Type} {f : Tab α → β → Tab α} {l : List β} {m : Tab α}
    (hf : ∀ a x, Tab.wf a = true → Tab.wf (f a x) = true) (h : Tab.wf m = true) : Tab.wf (l.foldl f m) = true := by
  induction l generalizing m with
  | nil => exact h
  | cons x r ih => exact ih (hf m x h)

@[simp] theorem wf_applyChange (m : Tab MapEntry) (c : Change) (h : Tab.wf m = true) : Tab.wf (applyChange m c) = true := by
  unfold applyChange
  split
  · exact Tab.wf_put m _ _ h
  · exact Tab.wf_del m _ h

@[simp] theorem wf_foldl_applyChange {l : List Change} {m : Tab MapEntry} (h : Tab.wf m = true) :
    Tab.wf (l.foldl applyChange m) = true := wf_foldl wf_applyChange h

theorem wf_foldl_put {α β : Type} {g : β → Nat} {v : Tab α → β → α} {l : List β} {m : Tab α} (h : Tab.wf m = true) :
    Tab.wf (l.foldl (fun m w => Tab.put m (g w) (v m w)) m) = true :=
  wf_foldl (fun a x q => Tab.wf_put a (g x) (v a x) q) h

theorem wf_foldl_upd {α β : Type} {g : β → Nat} {v : β → α → α} {l : List β} {m : Tab α} (h : Tab.wf m = true) :
    Tab.wf (l.foldl (fun m w => Tab.upd m (g w) (v w)) m) = true :=
  wf_foldl (fun a x q => Tab.wf_upd a (g x) (v x) q) h

theorem wf_foldl_fill {α β : Type} {c : Tab α → β → Bool} {g : β → Nat} {v : β → α} {l : List β} {m : Tab α} (h : Tab.wf m = true) :
    Tab.wf (l.foldl (fun m w => if c m w = true then m else Tab.put m (g w) (v w)) m) = true :=
  wf_foldl (fun a x q => wf_ite q (Tab.wf_put a (g x) (v x) q)) h

theorem wf_monotone {die band bin j : Nat} {o : Int} {l : List Nat} {m : Tab ThrEntry} (h : Tab.wf m = true) :
    Tab.wf (l.foldl (monotone die band bin j o) m) = true := by
  refine wf_foldl (fun a b q => ?_) h
  unfold monotone
  exact wf_ite q (Tab.wf_put a _ _ q)

/-- The index of a dump's lines is canonical whatever the lines are. -/
@[simp] theorem wf_indexLines (later : Bool) (ls : List DumpLine) : Tab.wf (indexLines later ls) = true := by
  refine wf_foldl (fun a d q => ?_) rfl
  split
  · exact Tab.wf_put a _ _ q
  · exact wf_ite (Tab.wf_put a _ _ q) q

theorem wf_putBytes {m : Tab Byte} {o : Nat} {b : Bytes} (h : Tab.wf m = true) : Tab.wf (putBytes m o b) = true := by
  induction b generalizing m o with
  | nil => exact h
  | cons x r ih => exact ih (wf_ite (Tab.wf_del m o h) (Tab.wf_put m o x h))

@[simp] theorem wf_sweptUnits {s : State} {w : Sweep} (h : Tab.wf s.key.units = true) : Tab.wf (s.sweptUnits w) = true :=
  wf_foldl_put h

/-! ## Tables cut and joined -/

theorem wf_filterMap {α β : Type} {f : Nat × α → Option (Nat × β)} {m : Tab α} (hf : ∀ e x, f e = some x → x.1 = e.1)
    (h : Tab.wf m = true) : Tab.wf (m.filterMap f : Tab β) = true := by
  rw [Tab.wf_iff_pairwise] at h ⊢
  refine List.Pairwise.filterMap f (fun a b hab x hx y hy => ?_) h
  rw [hf a x hx, hf b y hy]
  exact hab

theorem wf_choose {α β : Type} {p : Nat × α → Bool} {v : Nat × α → β} {m : Tab α} (h : Tab.wf m = true) :
    Tab.wf (m.filterMap (fun e => if p e = true then some (e.1, v e) else none) : Tab β) = true := by
  refine wf_filterMap (fun e x q => ?_) h
  split at q
  · cases q; rfl
  · cases q

/-- A table below a key followed by one from that key on. -/
theorem wf_append {α : Type} {m n : Tab α} (k : Nat) (h : Tab.wf m = true) (h' : Tab.wf n = true) (hm : ∀ e ∈ m, e.1 < k)
    (hn : ∀ e ∈ n, k ≤ e.1) : Tab.wf (m ++ n : Tab α) = true := by
  rw [Tab.wf_iff_pairwise] at h h' ⊢
  exact List.pairwise_append.2 ⟨h, h', fun a ha b hb => lt_of_lt_of_le (hm a ha) (hn b hb)⟩

/-- The part of a table from a key on, counted from that key. -/
theorem wf_shift {α : Type} {m : Tab α} (k : Nat) (h : Tab.wf m = true) :
    Tab.wf ((m.filter (fun e => decide (k ≤ e.1))).map (fun e => (e.1 - k, e.2)) : Tab α) = true := by
  rw [Tab.wf_iff_pairwise] at h ⊢
  refine List.pairwise_map.2 ?_
  refine (List.pairwise_filter.2 ?_)
  refine h.imp ?_
  intro a b hab ha hb
  simp only [decide_eq_true_eq] at ha hb
  simp only
  omega

/-! ## Groups of tables -/

theorem pflOk_dropTest (p : Persist) (h : pflOk p = true) : pflOk p.dropTest = true := by
  unfold Persist.dropTest
  split
  · simpa only [pflOk] using h
  · exact h

theorem calOk_tick (c : Cal) (h : calOk c = true) : calOk c.tick.1 = true := by
  unfold Cal.tick
  split <;> simpa only [calOk] using h

theorem keyOk_volatileLost (k : Keys) (h : keyOk k = true) : keyOk k.volatileLost = true := by
  simp only [keyOk, Bool.and_eq_true] at h
  have hn : Tab.wf k.volatileLost.nodes = true := by
    refine wf_append (4 * 2 ^ 32) (Tab.wf_filter _ _ h.1.2) (Tab.wf_filter _ _ h.1.1.2) ?_ ?_
    · intro e he
      simpa using (List.mem_filter.1 he).2
    · intro e he
      simpa using (List.mem_filter.1 he).2
  have hu : Tab.wf k.volatileLost.units = true := by
    exact Tab.wf_mapV k.units (fun _ u => { u with binding := false }) h.1.1.1.1.1.1.1.1
  simp only [keyOk, Bool.and_eq_true]
  exact ⟨⟨⟨⟨⟨⟨⟨⟨hu, h.1.1.1.1.1.1.1.2⟩, h.1.1.1.1.1.2⟩, h.1.1.1.1.1.2⟩, rfl⟩, rfl⟩, hn⟩, h.1.2⟩, rfl⟩

theorem mapOk_volatileLost (m : Map) (h : mapOk m = true) : mapOk m.volatileLost = true := by
  simp only [mapOk, Bool.and_eq_true] at h
  simp only [mapOk, Bool.and_eq_true]
  exact ⟨⟨⟨⟨⟨⟨⟨rfl, h.1.1.1.1.1.1.2⟩, rfl⟩, rfl⟩, h.1.1.1.2⟩, rfl⟩, rfl⟩, rfl⟩

theorem pflOk_volatileLost (p : Persist) (b : Bool) (_ : pflOk p = true) : pflOk (p.volatileLost b) = true := rfl

theorem linkOk_volatileLost (l : Link) (h : linkOk l = true) : linkOk l.volatileLost = true := by
  simp only [linkOk, Bool.and_eq_true] at h ⊢
  exact ⟨h.1, rfl⟩

theorem ringOk_volatileLost (r : Ring) (h : ringOk r = true) : ringOk r.volatileLost = true := h

theorem wf_failureOf (b : Boot) : Tab.wf b.failureOf = true := by
  unfold Boot.failureOf
  split <;> rfl

/-- A change record goes into its own table. -/
theorem mapOk_change (m : Map) (c : Change) (h : mapOk m = true) : mapOk (m.change c) = true := by
  simp only [mapOk, Bool.and_eq_true] at h
  unfold Map.change
  split <;> simp [mapOk, h, wf_applyChange]

theorem mapOk_tail (l : List Change) (m : Map) (h : mapOk m = true) : mapOk (l.foldl Map.change m) = true := by
  induction l generalizing m with
  | nil => exact h
  | cons c r ih => exact ih _ (mapOk_change m c h)

/-- It leaves the poison list alone. -/
@[simp] theorem change_poison (m : Map) (c : Change) : (m.change c).poison = m.poison := by
  unfold Map.change
  split <;> rfl

theorem tail_poison (l : List Change) (m : Map) : (l.foldl Map.change m).poison = m.poison := by
  induction l generalizing m with
  | nil => rfl
  | cons c r ih => exact (ih _).trans (change_poison m c)

/-- The slots of a list of checkpoints, the one not there included, hold canonical tables. -/
theorem ckptOk_getD {l : List Ckpt} (h : l.all ckptOk = true) (i : Nat) :
    ckptOk (l.getD i ⟨false, 0, 0, [], []⟩) = true := by
  rw [List.getD_eq_getElem?_getD]
  rcases e : l[i]? with _ | c
  · rfl
  · exact List.all_eq_true.1 h c (List.mem_of_getElem? e)

theorem wf_replay {m : Map} (h : mapOk m = true) (i : Nat) : Tab.wf (m.replay i) = true := by
  simp only [mapOk, Bool.and_eq_true] at h
  have k := ckptOk_getD h.1.1.1.1.1.1.2 i
  simp only [ckptOk, Bool.and_eq_true] at k
  exact wf_foldl_applyChange k.1

/-- A replayed map, cut into the map and the integrity map. -/
theorem mapOk_load {m : Map} {t : Tab MapEntry} (h : mapOk m = true) (k : Tab.wf t = true) : mapOk (m.load t) = true := by
  simp only [mapOk, Bool.and_eq_true] at h
  simp only [mapOk, Map.load, Bool.and_eq_true]
  exact ⟨⟨⟨⟨⟨⟨⟨Tab.wf_filter _ _ k, h.1.1.1.1.1.1.2⟩, wf_shift integMark k⟩, h.1.1.1.1.2⟩, h.1.1.1.2⟩, h.1.1.2⟩, h.1.2⟩, h.2⟩

/-- A list all of whose members hold something, with one member set to such a one. -/
theorem all_setAt {α : Type} {p : α → Bool} {l : List α} {a : α} (i : Nat) (h : l.all p = true) (k : p a = true) :
    (setAt l i a).all p = true := by
  rw [List.all_eq_true] at h ⊢
  intro x hx
  rcases List.mem_or_eq_of_mem_set hx with e | e
  · exact h x e
  · exact e ▸ k

/-- A sealed slot holds the replayed map and the bead table. -/
theorem mapOk_sealed {m : Map} (h : mapOk m = true) (i j a b : Nat) (q : Bool) :
    mapOk { m with ckpts := setAt m.ckpts i ⟨q, a, b, m.replay j, m.beads⟩ } = true := by
  have r := wf_replay h j
  simp only [mapOk, Bool.and_eq_true] at h ⊢
  exact ⟨⟨⟨⟨⟨⟨⟨h.1.1.1.1.1.1.1, all_setAt i h.1.1.1.1.1.1.2 (by simp [ckptOk, r, h])⟩, h.1.1.1.1.1.2⟩, h.1.1.1.1.2⟩, h.1.1.1.2⟩,
    h.1.1.2⟩, h.1.2⟩, h.2⟩

/-- The map of another source with its own bead table. -/
theorem mapOk_beads {m : Map} {b : Tab Bead} (h : mapOk m = true) (k : Tab.wf b = true) : mapOk { m with beads := b } = true := by
  simp only [mapOk, Bool.and_eq_true] at h ⊢
  exact ⟨⟨⟨⟨h.1.1.1.1, k⟩, h.1.1.2⟩, h.1.2⟩, h.2⟩

theorem mapOk_readCkpt {m : Map} (h : mapOk m = true) (i : Nat) :
    mapOk { m.load (m.ckpts.getD i ⟨false, 0, 0, [], []⟩).entries with beads := (m.ckpts.getD i ⟨false, 0, 0, [], []⟩).beads } = true := by
  have k := h
  simp only [mapOk, Bool.and_eq_true] at k
  have c := ckptOk_getD k.1.1.1.1.1.1.2 i
  simp only [ckptOk, Bool.and_eq_true] at c
  exact mapOk_beads (mapOk_load h c.1) c.2

theorem ringOk_functionReset (r : Ring) (h : ringOk r = true) : ringOk r.functionReset = true := by
  unfold Ring.functionReset
  split <;> exact h

/-! ## Bounded buffers -/

/-- A log set to a list within its size keeps every log within its size. -/
theorem evtOk_setLog {e : Events} {i : Nat} {l : List EventRec} (h : evtOk e = true) (hl : l.length ≤ logSize i) :
    evtOk { e with logs := setAt e.logs i l } = true := by
  obtain ⟨logs, _⟩ := e
  simp only [evtOk, Bool.and_eq_true, beq_iff_eq] at h ⊢
  obtain ⟨h4, ha⟩ := h
  match logs, h4 with
  | [a, b, c, d], _ =>
    match i with
    | 0 => simp_all [setAt]
    | 1 => simp_all [setAt]
    | 2 => simp_all [setAt]
    | 3 => simp_all [setAt]
    | n + 4 => simpa [setAt] using ha

theorem evtOk_getLog {e : Events} (h : evtOk e = true) (i : Nat) : (e.logs.getD i []).length ≤ logSize i := by
  obtain ⟨logs, _⟩ := e
  simp only [evtOk, Bool.and_eq_true, beq_iff_eq] at h
  obtain ⟨h4, ha⟩ := h
  match logs, h4 with
  | [a, b, c, d], _ =>
    match i with
    | 0 => simp_all
    | 1 => simp_all
    | 2 => simp_all
    | 3 => simp_all
    | n + 4 => simp

theorem recdOk_countRepeat {r : Recorder} (h : recdOk r = true) : recdOk r.countRepeat = true := by
  unfold Recorder.countRepeat
  split
  · exact h
  · extract_lets n
    split
    · simpa [recdOk] using h
    · exact h

theorem recdOk_settle {r : Recorder} (h : recdOk r = true) : recdOk r.settle = true := by
  unfold Recorder.settle
  split <;> exact h

/-- Cutting the list keeps its bound. -/
theorem flatMap_take_one {α β : Type} (f : α → List β) (l : List α) : (l.flatMap (fun x => (f x).take 1)).length ≤ l.length := by
  induction l with
  | nil => simp
  | cons a r ih =>
    simp only [List.flatMap_cons, List.length_append, List.length_take, List.length_cons]
    omega

end Sys2Proof.Laws
end

