-- ==== Sys2Proof/Laws/Keeps.lean ====
section
/-! SUPPORT. What no operation of the card does: it leaves the queue, the part and the serial number alone, time and the count
of free values never go back, output is only added to, canonical tables stay canonical, and bounded buffers stay bounded. -/

set_option Elab.async false

namespace Sys2Proof.Laws

open Sys2Proof.Machine Sys2Proof.Safety

/-- The card went from s to t by operations of its own. -/
structure Keeps (s t : State) : Prop where
  pending : t.pending = s.pending := by rfl
  part : t.part = s.part := by rfl
  serial : t.serial = s.serial := by rfl
  now : s.now ≤ t.now := by exact le_refl _
  fresh : s.fresh ≤ t.fresh := by exact le_refl _
  sent : s.sent <+: t.sent := by exact List.prefix_rfl
  obs : Tab.wf s.obs = true → Tab.wf t.obs = true := by exact id
  fab : fabOk s.fab = true → fabOk t.fab = true := by exact id
  link : linkOk s.link = true → linkOk t.link = true := by exact id
  cch : cchOk s.cch = true → cchOk t.cch = true := by exact id
  med : medOk s.med = true → medOk t.med = true := by exact id
  map : mapOk s.map = true → mapOk t.map = true := by exact id
  cal : calOk s.cal = true → calOk t.cal = true := by exact id
  key : keyOk s.key = true → keyOk t.key = true := by exact id
  pfl : pflOk s.pfl = true → pflOk t.pfl = true := by exact id
  ring : ringOk s.ring = true → ringOk t.ring = true := by exact id
  boot : bootOk s.boot = true → bootOk t.boot = true := by exact id
  tly : tlyOk s.tly = true → tlyOk t.tly = true := by exact id
  tq : tqOk s.tq = true → tqOk t.tq = true := by exact id
  evt : evtOk s.evt = true → evtOk t.evt = true := by exact id
  recd : recdOk s.recd = true → recdOk t.recd = true := by exact id
  list : listOk s.map = true → listOk t.map = true := by exact id

theorem Keeps.refl (s : State) : Keeps s s := {}

theorem Keeps.trans {s t u : State} (h : Keeps s t) (k : Keeps t u) : Keeps s u :=
  ⟨k.pending.trans h.pending, k.part.trans h.part, k.serial.trans h.serial, h.now.trans k.now, h.fresh.trans k.fresh,
   h.sent.trans k.sent, k.obs ∘ h.obs, k.fab ∘ h.fab, k.link ∘ h.link, k.cch ∘ h.cch, k.med ∘ h.med, k.map ∘ h.map,
   k.cal ∘ h.cal, k.key ∘ h.key, k.pfl ∘ h.pfl, k.ring ∘ h.ring, k.boot ∘ h.boot, k.tly ∘ h.tly, k.tq ∘ h.tq, k.evt ∘ h.evt, k.recd ∘ h.recd,
   k.list ∘ h.list⟩

theorem Keeps.ite {s a b : State} {c : Prop} [Decidable c] (h : Keeps s a) (k : Keeps s b) : Keeps s (if c then a else b) := by
  split
  · exact h
  · exact k

theorem Keeps.fst {α : Type} {s t : State} {a : α} {e : State × α} (h : e = (t, a)) (k : Keeps s e.1) : Keeps s t := by
  rw [h] at k; exact k

theorem Keeps.foldl {α : Type} {s : State} {f : State → α → State} {l : List α} {t : State}
    (hf : ∀ a x, Keeps s a → Keeps s (f a x)) (h : Keeps s t) : Keeps s (l.foldl f t) := by
  induction l generalizing t with
  | nil => exact h
  | cons x r ih => exact ih (hf t x h)

theorem Keeps.foldl_fst {α β : Type} {s : State} {f : State × β → α → State × β} {l : List α} {t : State × β}
    (hf : ∀ a x, Keeps s a.1 → Keeps s (f a x).1) (h : Keeps s t.1) : Keeps s (l.foldl f t).1 := by
  induction l generalizing t with
  | nil => exact h
  | cons x r ih => exact ih (hf t x h)

theorem Keeps.pair {α : Type} {s t : State} {a : α} (h : Keeps s t) : Keeps s (t, a).1 := h

/-- A meaning keeps: so does the next state that it answers, where it answers one. -/
def KeepsRes (s : State) (r : Res) : Prop :=
  match r with
  | .next t => Keeps s t
  | .fault _ => True
  | .refused _ => True

theorem KeepsRes.next {s t : State} (h : Keeps s t) : KeepsRes s (.next t) := h
theorem KeepsRes.fault {s : State} (f : Fault) : KeepsRes s (.fault f) := trivial
theorem KeepsRes.ite {s : State} {a b : Res} {c : Prop} [Decidable c] (h : KeepsRes s a) (k : KeepsRes s b) :
    KeepsRes s (if c then a else b) := by
  split
  · exact h
  · exact k

/-- The end of a boot step keeps. -/
def KeepsEnd (s : State) (e : StepEnd) : Prop :=
  match e with
  | .wait => True
  | .stop t => Keeps s t
  | .pass _ _ _ t => Keeps s t

theorem KeepsEnd.wait {s : State} : KeepsEnd s .wait := trivial
theorem KeepsEnd.stop {s t : State} (h : Keeps s t) : KeepsEnd s (.stop t) := h
theorem KeepsEnd.pass {s t : State} {m r d : Nat} (h : Keeps s t) : KeepsEnd s (.pass m r d t) := h
theorem KeepsEnd.ite {s : State} {a b : StepEnd} {c : Prop} [Decidable c] (h : KeepsEnd s a) (k : KeepsEnd s b) :
    KeepsEnd s (if c then a else b) := by
  split
  · exact h
  · exact k

theorem KeepsEnd.of_eq_stop {s t : State} {e : StepEnd} (h : e = .stop t) (k : KeepsEnd s e) : Keeps s t := by
  rw [h] at k; exact k

theorem KeepsEnd.of_eq_pass {s t : State} {e : StepEnd} {m r d : Nat} (h : e = .pass m r d t) (k : KeepsEnd s e) : Keeps s t := by
  rw [h] at k; exact k

/-- The tables of a card that keeps are canonical when they were. -/
theorem Keeps.canonical {s t : State} (h : Keeps s t) (k : canonical s = true) : canonical t = true := by
  simp only [Safety.canonical, Bool.and_eq_true] at k ⊢
  obtain ⟨⟨⟨⟨⟨⟨⟨⟨⟨⟨⟨⟨k0, k1⟩, k2⟩, k3⟩, k4⟩, k5⟩, k6⟩, k7⟩, k8⟩, k9⟩, k10⟩, k11⟩, k12⟩ := k
  exact ⟨⟨⟨⟨⟨⟨⟨⟨⟨⟨⟨⟨h.obs k0, h.fab k1⟩, h.link k2⟩, h.cch k3⟩, h.med k4⟩, h.map k5⟩, h.cal k6⟩, h.key k7⟩, h.pfl k8⟩,
    h.ring k9⟩, h.boot k10⟩, h.tly k11⟩, h.tq k12⟩

/-- So are its bounded buffers within their bounds. -/
theorem Keeps.bounded {s t : State} (h : Keeps s t) (k : Safety.bounded s = true) : Safety.bounded t = true := by
  simp only [Safety.bounded, Bool.and_eq_true] at k ⊢
  exact ⟨⟨h.evt k.1.1, h.recd k.1.2⟩, h.list k.2⟩

end Sys2Proof.Laws
end

