-- ==== Sys2Proof/Laws/KeepsOps.lean ====
section
/-! SUPPORT. One law per operation of the card that says what no operation does (Laws/Keeps.lean): the operations every command shares, the map and the tally queue. -/

set_option Elab.async false

namespace Sys2Proof.Laws

open Sys2Proof.Machine Sys2Proof.Safety

theorem Keeps.of_setReg {z : State} {x0 : State} {x1 : Fld} {x2 : ℕ} {x3 : ℕ} (h : Keeps z x0) :
    Keeps z (@State.setReg x0 x1 x2 x3) := by
  unfold State.setReg
  exact Keeps.trans (t := x0) (by assumption) { obs := (fun k => by simp [k]) }

theorem Keeps.of_bump {z : State} {x0 : State} {x1 : Fld} {x2 : ℕ} {x3 : ℕ} (h : Keeps z x0) :
    Keeps z (@State.bump x0 x1 x2 x3) := by
  unfold State.bump
  refine Keeps.ite ?_ ?_
  · exact Keeps.of_setReg (by assumption)
  · exact Keeps.of_setReg (Keeps.trans (t := x0) (by assumption) { fresh := Nat.le_succ _ })

theorem Keeps.of_high {z : State} {x0 : State} {x1 : Fld} {x2 : ℕ} {x3 : ℕ} (h : Keeps z x0) :
    Keeps z (@State.high x0 x1 x2 x3) := by
  unfold State.high
  exact Keeps.ite (Keeps.of_setReg (by assumption)) (by assumption)

theorem Keeps.of_sendMsix {z : State} {x0 : State} {x1 : ℕ} (h : Keeps z x0) : Keeps z (@State.sendMsix x0 x1) := by
  unfold State.sendMsix
  refine Keeps.ite ?_ ?_
  · assumption
  · refine Keeps.ite ?_ ?_
    · assumption
    · refine Keeps.trans (t := x0) ?_ { sent := (by first | exact List.prefix_append _ _ | simp), fab := (fun k => by simp only [fabOk, Bool.and_eq_true] at k ⊢; simp [k]) }
      assumption

theorem Keeps.of_interrupt {z : State} {x0 : State} {x1 : ℕ} (h : Keeps z x0) : Keeps z (@State.interrupt x0 x1) := by
  unfold State.interrupt
  exact Keeps.ite (Keeps.trans (t := x0) (by assumption) {  }) (Keeps.of_sendMsix (by assumption))

theorem Keeps.of_logRecord {z s : State} {kind src sev region seq : Nat} {data : List Nat} (h : Keeps z s) :
    Keeps z (s.logRecord kind src sev region seq data) := by
  unfold State.logRecord
  split
  · extract_lets b
    have h1 : Keeps z b := Keeps.of_bump h
    clear_value b
    exact h1.trans {}
  · rename_i hl
    extract_lets r b e c
    have h1 : Keeps z c := by
      refine h.trans { obs := fun k => by simp [c, b, State.setReg, k], evt := fun k => ?_ }
      refine evtOk_setLog k ?_
      simp only [not_le] at hl
      simpa [b, State.setReg] using hl
    exact Keeps.ite (Keeps.of_sendMsix h1) h1

theorem Keeps.of_record {z : State} {x0 : State} {x1 : Ev} {x2 : ℕ} (h : Keeps z x0) :
    Keeps z (@State.record x0 x1 x2) := by
  unfold State.record
  refine Keeps.ite ?_ ?_
  · exact Keeps.of_bump (by assumption)
  · exact Keeps.ite (Keeps.trans (t := x0) (by assumption) {  }) (Keeps.of_interrupt (Keeps.of_logRecord (by assumption)))

theorem Keeps.of_pmuAdd {z : State} {x0 : State} {x1 : ℕ} {x2 : ℕ} (h : Keeps z x0) :
    Keeps z (@State.pmuAdd x0 x1 x2).1 := by
  unfold State.pmuAdd
  extract_lets v0 v1
  subst v0
  have h60 : Keeps z v1 := Keeps.of_setReg (by assumption)
  clear_value v1
  split
  · exact Keeps.pair (by assumption)
  · exact Keeps.pair (Keeps.of_setReg (by assumption))

theorem Keeps.of_pmuMeet {z : State} {x0 : ℕ} {x1 : ℕ} {x2 : Option PmuReq} {x3 : State × List Ev} {x4 : ℕ} (h : Keeps z x3.1) :
    Keeps z (@pmuMeet x0 x1 x2 x3 x4).1 := by
  unfold pmuMeet
  split
  · split
    · refine Keeps.pair ?_
      extract_lets v2 v3
      subst v3 v2
      exact Keeps.trans (t := Prod.fst x3) (by assumption) {  }
    · extract_lets v63
      have h123 : Keeps z v63.1 := Keeps.of_pmuAdd (by assumption)
      clear_value v63
      exact Keeps.pair (by assumption)
  · assumption

theorem Keeps.of_pmuEdge {z : State} {x0 : State} {x1 : ℕ} {x2 : ℕ} {x3 : Option PmuReq} (h : Keeps z x0) :
    Keeps z (@State.pmuEdge x0 x1 x2 x3).1 := by
  unfold State.pmuEdge
  split
  · refine Keeps.foldl_fst ?_ ?_
    · intro a1 a2 h3
      exact Keeps.of_pmuMeet (by assumption)
    · exact Keeps.pair (by assumption)
  · exact Keeps.pair (by assumption)

theorem Keeps.of_onlyEvents {z s r : State} (h : Keeps z s) (k : Keeps s r) : Keeps z (s.onlyEvents r) := by
  refine h.trans { fresh := k.fresh, sent := k.sent, obs := k.obs, evt := k.evt, recd := k.recd, fab := fun q => ?_ }
  have a := k.fab
  simp only [fabOk, Bool.and_eq_true] at a q ⊢
  exact ⟨q.1, (a q).2⟩

theorem Keeps.of_fireOne {z : State} {e : Ev} {a : State × Nat} {it : Nat × Trigger} (h : Keeps z a.1) :
    Keeps z (fireOne e a it).1 := by
  unfold fireOne
  extract_lets s snaps b r s1 seq recorded
  have h0 : Keeps z b := Keeps.of_bump h
  clear_value b
  have h1 : Keeps z s1 := by
    refine Keeps.ite (h.trans { recd := recdOk_countRepeat }) (Keeps.ite (Keeps.of_bump h) ?_)
    split
    · exact h0.trans {}
    · rename_i hl
      refine h.trans { recd := fun _ => ?_ }
      simp only [not_le] at hl
      simpa [recdOk, Recorder.add] using hl
  clear_value s1 seq recorded
  split
  · exact h
  · split
    · exact h
    · split
      · exact Keeps.of_bump h
      · split
        · exact Keeps.of_setReg (Keeps.of_setReg h1)
        · exact h1

theorem Keeps.of_fireAll {z : State} {x0 : State} {x1 : Ev} (h : Keeps z x0) : Keeps z (@State.fireAll x0 x1).1 := by
  unfold State.fireAll
  refine Keeps.foldl_fst ?_ ?_
  · intro a0 a1 h2
    exact Keeps.of_fireOne (by assumption)
  · exact Keeps.pair (by assumption)

theorem Keeps.of_raiseOne {z : State} {x0 : State} {x1 : Ev} (h : Keeps z x0) : Keeps z (@raiseOne x0 x1).1 := by
  unfold raiseOne
  extract_lets v0 v1 v2 v3 v4
  subst v3
  have h60 : Keeps z v0.1 := Keeps.of_pmuEdge (by assumption)
  clear_value v0
  have h61 : Keeps z v1.1 := Keeps.of_fireAll (by assumption)
  clear_value v1
  have h62 : Keeps z v2 := Keeps.of_record (by assumption)
  clear_value v2
  have h63 : Keeps z v4 := Keeps.ite (Keeps.trans (t := v2) (by assumption) {  }) (by assumption)
  clear_value v4
  exact Keeps.pair (by assumption)

theorem Keeps.of_raiseAll {z : State} {n : Nat} {l : List Ev} {s : State} (h : Keeps z s) : Keeps z (raiseAll n l s) := by
  induction n generalizing l s with
  | zero => exact h
  | succ n ih =>
    cases l with
    | nil => exact h
    | cons e r => exact ih (Keeps.of_raiseOne h)

theorem Keeps.of_count {z : State} {code k : Nat} {q : Option PmuReq} {s : State} (h : Keeps z s) :
    Keeps z (count code k q s) :=
  Keeps.of_onlyEvents h (Keeps.of_raiseAll (Keeps.of_pmuEdge (Keeps.refl s)))

theorem Keeps.of_out {z : State} {x0 : State} {x1 : Out} (h : Keeps z x0) : Keeps z (@State.out x0 x1) := by
  unfold State.out
  refine Keeps.trans (t := x0) ?_ { sent := (by first | exact List.prefix_append _ _ | simp) }
  assumption

theorem Keeps.of_reply {z : State} {x0 : State} {x1 : Sys2Proof.Path} {x2 : ℕ} {x3 : Rc} {x4 : Sys2Proof.Bytes} (h : Keeps z x0) :
    Keeps z (@State.reply x0 x1 x2 x3 x4) := by
  unfold State.reply
  exact Keeps.of_out (by assumption)

theorem Keeps.of_startBackground {z : State} {x0 : State} {x1 : Sys2Proof.Path} {x2 : ℕ} {x3 : ℕ} (h : Keeps z x0) :
    Keeps z (@State.startBackground x0 x1 x2 x3) := by
  unfold State.startBackground
  exact Keeps.of_reply (Keeps.trans (t := x0) (by assumption) {  })

theorem Keeps.of_ev {z : State} {src sev : Nat} {data : List Nat} {region : Nat} {s : State} (h : Keeps z s) :
    Keeps z (ev src sev data region s) :=
  Keeps.of_onlyEvents h (Keeps.of_raiseAll (Keeps.refl s))

theorem Keeps.of_endBackground {z : State} {x0 : State} {x1 : Rc} (h : Keeps z x0) :
    Keeps z (@State.endBackground x0 x1) := by
  unfold State.endBackground
  split
  · assumption
  · exact Keeps.of_sendMsix (Keeps.of_out (Keeps.trans (t := x0) (by assumption) {  }))

theorem Keeps.of_dropWait {z : State} {x0 : State} (h : Keeps z x0) : Keeps z (@State.dropWait x0) := by
  unfold State.dropWait
  extract_lets v0 v1 v2 v3 v4
  subst v0 v1 v2 v3 v4
  exact Keeps.trans (t := x0) (by assumption) {  }

theorem Keeps.of_tallyKick {z : State} {x0 : State} (h : Keeps z x0) : Keeps z (@State.tallyKick x0) := by
  unfold State.tallyKick
  refine Keeps.ite ?_ ?_
  · assumption
  · refine Keeps.ite ?_ ?_
    · split
      · exact Keeps.trans (t := x0) (by assumption) {  }
      · assumption
    · refine Keeps.ite ?_ ?_
      · assumption
      · extract_lets v6 v7
        subst v7
        have h66 : Keeps z v6 := Keeps.of_bump (by assumption)
        clear_value v6
        exact Keeps.trans (t := v6) (by assumption) {  }

theorem Keeps.of_writeRow {z : State} {x0 : State} {x1 : RowWrite} (h : Keeps z x0) : Keeps z (@State.writeRow x0 x1) := by
  unfold State.writeRow
  exact Keeps.of_tallyKick (Keeps.trans (t := x0) (by assumption) {  })

theorem Keeps.of_ownRow {z : State} {x0 : State} {x1 : ℕ} {x2 : ℕ} {x3 : ℕ} {x4 : Sys2Proof.Bytes} (h : Keeps z x0) :
    Keeps z (@State.ownRow x0 x1 x2 x3 x4) := by
  unfold State.ownRow
  exact Keeps.of_writeRow (by assumption)

theorem Keeps.of_clearRc {z : State} {x0 : State} {x1 : ℕ} {x2 : ℕ} {x3 : ℕ} (h : Keeps z x0) :
    Keeps z (@State.clearRc x0 x1 x2 x3) := by
  unfold State.clearRc
  split
  · refine Keeps.foldl ?_ ?_
    · intro a4 a5 h6
      exact Keeps.ite (Keeps.of_setReg (by assumption)) (by assumption)
    · assumption
  · assumption

theorem Keeps.of_reportRas {z : State} {x0 : State} {x1 : ℕ} (h : Keeps z x0) : Keeps z (@State.reportRas x0 x1) := by
  unfold State.reportRas
  extract_lets v0 v1 v2
  subst v0 v1 v2
  exact Keeps.of_out (Keeps.trans (t := x0) (by assumption) { link := (fun k => by split <;> simpa only [linkOk] using k) })

theorem Keeps.of_noteRow {z : State} {x0 : State} {x1 : ℕ} {x2 : ℕ} (h : Keeps z x0) :
    Keeps z (@State.noteRow x0 x1 x2) := by
  unfold State.noteRow
  extract_lets v0 v1 v2
  subst v0 v1
  have h60 : Keeps z v2 := by
    dsimp only [v2]
    exact Keeps.trans (t := x0) (by assumption) { tly := (fun k => by simp only [tlyOk, Bool.and_eq_true] at k ⊢; simp [k]) }
  clear_value v2
  refine Keeps.ite ?_ ?_
  · assumption
  · exact Keeps.ite (Keeps.of_ev (by assumption)) (Keeps.ite (Keeps.of_ev (by assumption)) (by assumption))

theorem Keeps.of_replyAfter {z : State} {x0 : State} {x1 : Sys2Proof.Path} {x2 : ℕ} {x3 : Sys2Proof.Bytes} {x4 : List ℕ} {x5 : List RowWrite} (h : Keeps z x0) :
    Keeps z (@State.replyAfter x0 x1 x2 x3 x4 x5) := by
  unfold State.replyAfter
  refine Keeps.foldl ?_ ?_
  · intro a0 a1 h2
    exact Keeps.of_writeRow (by assumption)
  · exact Keeps.trans (t := x0) (by assumption) {  }

theorem Keeps.of_writeFld {z : State} {x0 : State} {x1 : Fld} {x2 : ℕ} {x3 : ℕ} {x4 : ℕ} {x5 : ℕ} (h : Keeps z x0) :
    Keeps z (@State.writeFld x0 x1 x2 x3 x4 x5) := by
  unfold State.writeFld
  extract_lets v0 v1 v2 v3
  subst v0 v1 v2 v3
  refine Keeps.ite ?_ ?_
  · assumption
  · split
    · exact Keeps.of_setReg (by assumption)
    · exact Keeps.of_setReg (by assumption)
    · exact Keeps.of_setReg (by assumption)
    · assumption

theorem Keeps.of_reportCor {z : State} {x0 : State} {x1 : ℕ} (h : Keeps z x0) : Keeps z (@State.reportCor x0 x1) := by
  unfold State.reportCor
  exact Keeps.of_out (Keeps.trans (t := x0) (by assumption) {  })

theorem Keeps.of_healthRecord {z : State} {data : List Nat} {s : State} (h : Keeps z s) :
    Keeps z (healthRecord data s) := by
  unfold healthRecord
  exact Keeps.of_onlyEvents h (Keeps.ite (Keeps.of_logRecord (Keeps.refl s)) (Keeps.refl s))

theorem Keeps.of_mailbox {z : State} {x0 : State} {x1 : Sys2Proof.Instr} {x2 : Sys2Proof.Path} {x3 : ℕ} {x4 : Bool} {x5 : Bool} {x6 : State → State} (hr6 : ∀ a, Keeps z a → Keeps z (x6 a)) (h : Keeps z x0) :
    Keeps z (@State.mailbox x0 x1 x2 x3 x4 x5 x6) := by
  unfold State.mailbox
  split
  · assumption
  · exact Keeps.of_reply (by assumption)
  · exact Keeps.trans (t := x0) (by assumption) {  }
  · exact hr6 _ (by assumption)

theorem Keeps.of_tick {z : State} {x0 : State} {x1 : ℕ} (h : Keeps z x0) : Keeps z (@State.tick x0 x1) := by
  unfold State.tick
  refine Keeps.trans (t := x0) ?_ { now := (by first | exact le_max_left _ _ | simp) }
  assumption

theorem Keeps.of_busRead {z : State} {x0 : State} {x1 : ℕ} {x2 : ℕ} (h : Keeps z x0) :
    Keeps z (@State.busRead x0 x1 x2).1 := by
  unfold State.busRead
  split
  · exact Keeps.pair (Keeps.of_clearRc (by assumption))
  · split
    · exact Keeps.pair (Keeps.of_clearRc (by assumption))
    · split
      · exact Keeps.pair (Keeps.of_clearRc (by assumption))
      · exact Keeps.pair (by assumption)

theorem Keeps.of_logDeferred {z : State} {x0 : State} (h : Keeps z x0) : Keeps z (@State.logDeferred x0) := by
  unfold State.logDeferred
  refine Keeps.foldl ?_ ?_
  · intro a0 a1 h2
    exact Keeps.of_interrupt (Keeps.of_logRecord (by assumption))
  · exact Keeps.trans (t := x0) (by assumption) {  }

theorem Keeps.of_reportUnc {z : State} {x0 : State} {x1 : ℕ} {x2 : ℕ} (h : Keeps z x0) :
    Keeps z (@State.reportUnc x0 x1 x2) := by
  unfold State.reportUnc
  extract_lets v0 v1
  subst v0 v1
  exact Keeps.of_out (Keeps.trans (t := x0) (by assumption) {  })

theorem Keeps.of_busWrite {z : State} {x0 : State} {x1 : ℕ} {x2 : ℕ} {x3 : Sys2Proof.Word64} {x4 : Fld → Bool} (h : Keeps z x0) :
    Keeps z (@State.busWrite x0 x1 x2 x3 x4) := by
  unfold State.busWrite
  split
  · assumption
  · split
    · assumption
    · refine Keeps.foldl ?_ ?_
      · intro a14 a15 h16
        exact Keeps.ite (Keeps.of_writeFld (by assumption)) (by assumption)
      · assumption

theorem Keeps.of_enterFro {z : State} {x0 : State} {x1 : ℕ} (h : Keeps z x0) : Keeps z (@State.enterFro x0 x1) := by
  unfold State.enterFro
  refine Keeps.ite ?_ ?_
  · assumption
  · extract_lets v0 v1
    subst v0
    have h60 : Keeps z v1 := Keeps.trans (t := x0) (by assumption) {  }
    clear_value v1
    exact Keeps.ite (by assumption) (Keeps.of_ev (by assumption))

theorem Keeps.of_recalcLimit {z : State} {x0 : State} (h : Keeps z x0) : Keeps z (@State.recalcLimit x0) := by
  unfold State.recalcLimit
  extract_lets v0 v1 v2
  subst v0 v1
  have h60 : Keeps z v2 := Keeps.trans (t := x0) (by assumption) {  }
  clear_value v2
  exact Keeps.ite (Keeps.of_ev (by assumption)) (by assumption)

theorem Keeps.of_afterU {z : State} {x0 : State} (h : Keeps z x0) : Keeps z (@State.afterU x0) := by
  unfold State.afterU
  extract_lets v0
  subst v0
  exact Keeps.ite (Keeps.of_recalcLimit (by assumption)) (by assumption)

theorem Keeps.of_leaveFro {z : State} {x0 : State} (h : Keeps z x0) : Keeps z (@State.leaveFro x0) := by
  unfold State.leaveFro
  exact Keeps.ite (Keeps.trans (t := x0) (by assumption) {  }) (by assumption)

theorem Keeps.of_judgeJournal {z : State} {x0 : State} (h : Keeps z x0) : Keeps z (@State.judgeJournal x0) := by
  unfold State.judgeJournal
  extract_lets v0 v1
  subst v0 v1
  refine Keeps.ite ?_ ?_
  · exact Keeps.of_ev (Keeps.trans (t := x0) (by assumption) { fresh := Nat.le_succ _ })
  · exact Keeps.trans (t := x0) (by assumption) {  }

theorem Keeps.of_setMemActive {z : State} {x0 : State} (h : Keeps z x0) : Keeps z (@State.setMemActive x0) := by
  unfold State.setMemActive
  exact Keeps.trans (t := x0) (by assumption) {  }

theorem Keeps.of_setDie {z : State} {x0 : State} {x1 : ℕ} {x2 : Die} (h : Keeps z x0) :
    Keeps z (@State.setDie x0 x1 x2) := by
  unfold State.setDie
  exact Keeps.trans (t := x0) (by assumption) {  }

theorem Keeps.of_reach {z : State} {x0 : State} {x1 : ℕ} (h : Keeps z x0) : Keeps z (@State.reach x0 x1) := by
  unfold State.reach
  exact Keeps.trans (t := x0) (by assumption) {  }

theorem Keeps.of_touch {z : State} {x0 : State} {x1 : ℕ} (h : Keeps z x0) : Keeps z (@State.touch x0 x1) := by
  unfold State.touch
  exact Keeps.of_setDie (Keeps.of_reach (by assumption))

theorem Keeps.of_journalled {z s : State} {c : Change} (h : Keeps z s) : Keeps z (s.journalled c) := by
  refine Keeps.of_afterU (h.trans { map := fun k => mapOk_change s.map c k, list := fun k => ?_ })
  simpa only [listOk, change_poison] using k

theorem Keeps.of_mapChange {z : State} {x0 : State} {x1 : ℕ} {x2 : Option MapEntry} {x3 : ℕ} (h : Keeps z x0) :
    Keeps z (@State.mapChange x0 x1 x2 x3) := by
  unfold State.mapChange
  exact Keeps.ite (Keeps.trans (t := x0) (by assumption) {  }) (Keeps.of_journalled (by assumption))

theorem Keeps.of_settleFlag {z : State} {x0 : State} {x1 : ℕ} (h : Keeps z x0) : Keeps z (@State.settleFlag x0 x1) := by
  unfold State.settleFlag
  extract_lets v0
  subst v0
  exact Keeps.ite (Keeps.of_mapChange (by assumption)) (by assumption)

theorem Keeps.of_listFull {z : State} {x0 : State} (h : Keeps z x0) : Keeps z (@State.listFull x0) := by
  unfold State.listFull
  exact Keeps.ite (by assumption) (Keeps.of_ev (Keeps.trans (t := x0) (by assumption) {  }))

theorem Keeps.of_addListed {z s : State} {k src : Nat} (h : Keeps z s) : Keeps z (s.addListed k src).1 := by
  unfold State.addListed
  split
  · exact h
  · split
    · exact h.trans { list := fun q => by simpa [listOk] using q }
    · split
      · exact Keeps.of_listFull h
      · rename_i hl
        refine Keeps.of_bump (h.trans { list := fun q => ?_ })
        simp only [not_le] at hl
        simpa [listOk] using hl

theorem Keeps.of_listLine {z : State} {x0 : State} {x1 : ℕ} {x2 : ℕ} (h : Keeps z x0) :
    Keeps z (@State.listLine x0 x1 x2) := by
  unfold State.listLine
  split
  · rename_i m0 m1 m2 m3
    have h4 : Keeps z m1 := by
      exact Keeps.fst m3 (Keeps.of_addListed (by assumption))
    exact Keeps.of_ownRow (by assumption)
  · rename_i m5 m6 m7
    have h8 : Keeps z m6 := by
      exact Keeps.fst m7 (Keeps.of_addListed (by assumption))
    assumption

theorem Keeps.of_losePoison {z : State} {x0 : State} {x1 : ℕ} (h : Keeps z x0) : Keeps z (@State.losePoison x0 x1) := by
  unfold State.losePoison
  extract_lets v0 v1
  subst v1
  have h60 : Keeps z v0 := Keeps.of_listLine (by assumption)
  clear_value v0
  exact Keeps.ite (by assumption) (Keeps.of_mapChange (by assumption))

theorem Keeps.of_judgeCkpt {z : State} {x0 : State} (h : Keeps z x0) : Keeps z (@State.judgeCkpt x0) := by
  unfold State.judgeCkpt
  exact Keeps.ite (Keeps.trans (t := x0) (by assumption) {  }) (by assumption)

theorem Keeps.of_flushSector {z : State} {x0 : State} (h : Keeps z x0) : Keeps z (@State.flushSector x0) := by
  unfold State.flushSector
  refine Keeps.ite ?_ ?_
  · assumption
  · extract_lets v0 v1 v2 v3
    subst v0 v1 v2 v3
    exact Keeps.of_judgeJournal (Keeps.of_judgeCkpt (Keeps.trans (t := x0) (by assumption) {  }))

theorem Keeps.of_flushSectors {z : State} {n : Nat} {s : State} (h : Keeps z s) : Keeps z (flushSectors n s) := by
  induction n generalizing s with
  | zero => exact h
  | succ n ih => exact ih (Keeps.of_flushSector h)

theorem Keeps.of_flushTail {z : State} {x0 : State} (h : Keeps z x0) : Keeps z (@State.flushTail x0) := by
  unfold State.flushTail
  exact Keeps.of_flushSectors (by assumption)

theorem Keeps.of_unlistFolio {z s : State} {f : Nat} (h : Keeps z s) : Keeps z (s.unlistFolio f) := by
  unfold State.unlistFolio
  refine Keeps.ite (Keeps.of_ownRow (h.trans { list := fun q => ?_ })) h
  simp only [listOk, decide_eq_true_eq] at q ⊢
  exact le_trans (List.length_filter_le _ _) q

theorem Keeps.of_takeMember {z : State} {x0 : State} {x1 : ℕ} {x2 : ℕ} {x3 : Bool} (h : Keeps z x0) :
    Keeps z (@State.takeMember x0 x1 x2 x3) := by
  unfold State.takeMember
  extract_lets v0 v1 v2 v3
  subst v0 v3
  have h60 : Keeps z v2 := Keeps.of_setDie (by assumption)
  clear_value v2
  exact Keeps.trans (t := v2) (by assumption) { med := (fun k => by simp only [medOk, Bool.and_eq_true] at k ⊢; simp [k]) }

theorem Keeps.of_takeMembers {z s : State} {g : Nat} {bead most : Bool} {l : List Nat} (h : Keeps z s) :
    Keeps z (takeMembers g bead most s l).1 := by
  induction l generalizing s with
  | nil => exact h
  | cons c cs ih =>
    unfold takeMembers
    split
    · exact ih h
    · exact ih (Keeps.of_takeMember h)

theorem Keeps.of_kick {z : State} {x0 : State} (h : Keeps z x0) : Keeps z (@State.kick x0) := by
  unfold State.kick
  refine Keeps.ite ?_ ?_
  · assumption
  · extract_lets v0 v1 v2
    subst v0 v1 v2
    exact Keeps.trans (t := x0) (by assumption) {  }

theorem Keeps.of_setFree {z : State} {x0 : State} {x1 : ℕ} {x2 : ℕ} (h : Keeps z x0) :
    Keeps z (@State.setFree x0 x1 x2) := by
  unfold State.setFree
  extract_lets v0 v1 v2 v3
  subst v0 v2 v3
  have h60 : Keeps z v1 := Keeps.trans (t := x0) (by assumption) {  }
  clear_value v1
  refine Keeps.ite ?_ ?_
  · exact Keeps.of_ev (Keeps.trans (t := v1) (by assumption) {  })
  · exact Keeps.ite (Keeps.of_ev (Keeps.trans (t := v1) (by assumption) {  })) (by assumption)

theorem Keeps.of_setBlock {z : State} {x0 : State} {x1 : ℕ} {x2 : ℕ} {x3 : StripeBlock} (h : Keeps z x0) :
    Keeps z (@State.setBlock x0 x1 x2 x3) := by
  unfold State.setBlock
  exact Keeps.trans (t := x0) (by assumption) { med := (fun k => by simp only [medOk, Bool.and_eq_true] at k ⊢; simp [k]) }

theorem Keeps.of_takeNumber {z : State} {x0 : State} {x1 : ℕ} {x2 : ℕ} {x3 : Bool} {x4 : Bool} {x5 : Bool} (h : Keeps z x0) :
    Keeps z (@State.takeNumber x0 x1 x2 x3 x4 x5) := by
  unfold State.takeNumber
  extract_lets v0 v1 v2 v3 v4 v5
  subst v2 v3 v4
  have h60 : Keeps z v0.1 := Keeps.of_takeMembers (by assumption)
  clear_value v0
  subst v1
  have h61 : Keeps z v5 := by
    dsimp only [v5]
    exact Keeps.trans (t := Prod.fst v0) (by assumption) { med := (fun k => by simp only [medOk, Media.wiped, Bool.and_eq_true] at k ⊢; simp [k, Tab.wf_keep]) }
  clear_value v5
  exact Keeps.of_kick (Keeps.of_setFree (Keeps.of_setBlock (by assumption)))

theorem Keeps.of_freeMember {z : State} {x0 : ℕ} {x1 : ℕ} {x2 : State} {x3 : ℕ × ℕ} (h : Keeps z x2) :
    Keeps z (@freeMember x0 x1 x2 x3) := by
  unfold freeMember
  extract_lets v0 v1 v2 v3
  subst v0 v1 v3
  have h60 : Keeps z v2 := Keeps.of_setDie (by assumption)
  clear_value v2
  refine Keeps.ite ?_ ?_
  · assumption
  · refine Keeps.ite ?_ ?_
    · assumption
    · exact Keeps.trans (t := v2) (by assumption) { med := (fun k => by simp only [medOk, Bool.and_eq_true] at k ⊢; simp [k]) }

theorem Keeps.of_freeBlock {z : State} {x0 : State} {x1 : ℕ} {x2 : ℕ} (h : Keeps z x0) :
    Keeps z (@State.freeBlock x0 x1 x2) := by
  unfold State.freeBlock
  extract_lets v0 v1 v2 v3
  subst v0 v2
  have h60 : Keeps z v1 := by
    dsimp only [v1]
    refine Keeps.foldl ?_ ?_
    · intro a61 a62 h63
      exact Keeps.of_freeMember (by assumption)
    · assumption
  clear_value v1
  have h64 : Keeps z v3 := by
    dsimp only [v3]
    exact Keeps.trans (t := v1) (by assumption) { med := (fun k => by simp only [medOk, Bool.and_eq_true] at k ⊢; simp [k]) }
  clear_value v3
  exact Keeps.of_setFree (by assumption)

theorem Keeps.of_takeBlock {z : State} {x0 : State} {x1 : ℕ} {x2 : Bool} {x3 : Bool} (h : Keeps z x0) :
    Keeps z (@State.takeBlock x0 x1 x2 x3).1 := by
  unfold State.takeBlock
  split
  · exact Keeps.pair (by assumption)
  · exact Keeps.pair (Keeps.of_takeNumber (by assumption))

theorem Keeps.of_unlist {z s : State} {k : Nat} (h : Keeps z s) : Keeps z (s.unlist k) := by
  unfold State.unlist
  refine Keeps.ite (Keeps.of_settleFlag (Keeps.of_ownRow ?_)) h
  split
  · rename_i hl
    exact h.trans { list := fun _ => by simpa [listOk] using hl }
  · refine Keeps.of_listFull (h.trans { list := fun q => ?_ })
    simp only [listOk, decide_eq_true_eq] at q ⊢
    exact le_trans (flatMap_take_one _ _) q

theorem Keeps.of_lowerFloor {z : State} {n goal : Nat} {s : State} (h : Keeps z s) : Keeps z (lowerFloor n goal s) := by
  induction n generalizing s with
  | zero => exact h
  | succ n ih =>
    unfold lowerFloor
    exact Keeps.ite (ih (Keeps.of_ev (Keeps.of_recalcLimit (h.trans {})))) h

theorem Keeps.of_drawSpare {z : State} {x0 : State} {x1 : ℕ} (h : Keeps z x0) : Keeps z (@State.drawSpare x0 x1) := by
  unfold State.drawSpare
  extract_lets v0 v1 v2 v3 v4 v5 v6
  subst v0 v3 v4
  have h60 : Keeps z v1 := Keeps.trans (t := x0) (by assumption) {  }
  clear_value v1
  have h61 : Keeps z v2 := Keeps.of_lowerFloor (by assumption)
  clear_value v2
  have h62 : Keeps z v5 := Keeps.ite (Keeps.of_ev (by assumption)) (by assumption)
  clear_value v5
  have h63 : Keeps z v6 := Keeps.ite (Keeps.of_ev (by assumption)) (by assumption)
  clear_value v6
  exact Keeps.ite (Keeps.of_ev (by assumption)) (by assumption)

theorem Keeps.of_setMargin {z : State} {x0 : State} {x1 : ℕ} {x2 : StripeBlock} {x3 : ℤ} {x4 : Option ℕ} (h : Keeps z x0) :
    Keeps z (@State.setMargin x0 x1 x2 x3 x4) := by
  unfold State.setMargin
  extract_lets v0 v1 v2
  subst v0 v1 v2
  exact Keeps.trans (t := x0) (by assumption) { fresh := Nat.le_succ _, med := (fun k => by simp only [medOk, Bool.and_eq_true] at k ⊢; simp [k]) }

theorem Keeps.of_noteCount {z : State} {x0 : State} {x1 : ℕ} {x2 : ℕ} {x3 : ℕ} {x4 : ℕ} (h : Keeps z x0) :
    Keeps z (@State.noteCount x0 x1 x2 x3 x4) := by
  unfold State.noteCount
  split
  · assumption
  · extract_lets v5 v6 v7
    subst v5 v6 v7
    exact Keeps.of_setMargin (by assumption)

theorem Keeps.of_noteOld {z : State} {x0 : State} {x1 : ℕ} {x2 : ℕ} {x3 : ℕ} (h : Keeps z x0) :
    Keeps z (@State.noteOld x0 x1 x2 x3) := by
  unfold State.noteOld
  split
  · assumption
  · refine Keeps.ite ?_ ?_
    · apply Keeps.of_ev
      exact Keeps.trans (t := x0) (by assumption) { med := (fun k => by simp only [medOk, Bool.and_eq_true] at k ⊢; simp [k]) }
    · assumption

theorem Keeps.of_countCorrected {z : State} {x0 : State} {x1 : ℕ} (h : Keeps z x0) :
    Keeps z (@State.countCorrected x0 x1) := by
  unfold State.countCorrected
  exact Keeps.ite (by assumption) (Keeps.of_count (Keeps.of_bump (Keeps.of_bump (by assumption))))

theorem Keeps.of_report {z : State} {x0 : State} {x1 : ℕ} {x2 : ℕ} {x3 : List (ℕ × Bool)} (h : Keeps z x0) :
    Keeps z (@State.report x0 x1 x2 x3) := by
  unfold State.report
  exact Keeps.trans (t := x0) (by assumption) { cal := (fun k => by simp only [calOk, Bool.and_eq_true] at k ⊢; simp [k]) }

theorem Keeps.of_decoded {z : State} {x0 : State} {x1 : ℕ} {x2 : ℕ} {x3 : ℕ} {x4 : ℕ} {x5 : ℕ} {x6 : List (ℕ × Bool)} (h : Keeps z x0) :
    Keeps z (@State.decoded x0 x1 x2 x3 x4 x5 x6) := by
  unfold State.decoded
  exact Keeps.of_noteOld (Keeps.of_noteCount (Keeps.of_countCorrected (Keeps.of_report (by assumption))))

theorem Keeps.of_decodedAt {z : State} {x0 : State} {x1 : Loc} {x2 : ℕ} {x3 : ℕ} {x4 : List (ℕ × Bool)} (h : Keeps z x0) :
    Keeps z (@State.decodedAt x0 x1 x2 x3 x4) := by
  unfold State.decodedAt
  exact Keeps.of_decoded (by assumption)

theorem Keeps.of_selfDecoded {z : State} {x0 : State} {x1 : Loc} {x2 : ℕ} {x3 : ℕ} (h : Keeps z x0) :
    Keeps z (@State.selfDecoded x0 x1 x2 x3) := by
  unfold State.selfDecoded
  exact Keeps.of_decodedAt (Keeps.trans (t := x0) (by assumption) { fresh := Nat.le_succ _ })

theorem Keeps.of_setDue {z : State} {x0 : State} {x1 : ℕ} {x2 : ℕ} (h : Keeps z x0) : Keeps z (@State.setDue x0 x1 x2) := by
  unfold State.setDue
  split
  · assumption
  · refine Keeps.ite ?_ ?_
    · assumption
    · exact Keeps.trans (t := x0) (by assumption) { med := (fun k => by simp only [medOk, Bool.and_eq_true] at k ⊢; simp [k]) }

theorem Keeps.of_evalMargin {z : State} {x0 : State} {x1 : ℕ} (h : Keeps z x0) : Keeps z (@State.evalMargin x0 x1) := by
  unfold State.evalMargin
  split
  · assumption
  · refine Keeps.ite ?_ ?_
    · assumption
    · extract_lets v5
      subst v5
      refine Keeps.foldl ?_ ?_
      · intro a65 a66 h67
        exact Keeps.of_noteOld (by assumption)
      · exact Keeps.of_setMargin (by assumption)

theorem KeepsRes.of_execTallyRefreshLap {z : State} {x0 : ℕ} {x1 : List (ℕ × ℕ)} {x2 : List (ℕ × ℕ × ℕ)} {x3 : State} (h : Keeps z x3) :
    KeepsRes z (@execTallyRefreshLap x0 x1 x2 x3) := by
  unfold execTallyRefreshLap
  extract_lets v0 v1 v2 v3 v4 v5
  subst v1 v2
  have h60 : Keeps z v0 := Keeps.of_tick (by assumption)
  clear_value v0
  have h61 : Keeps z v3 := by
    dsimp only [v3]
    exact Keeps.trans (t := v0) (by assumption) { tly := (fun k => by simp only [tlyOk, Bool.and_eq_true] at k ⊢; simp [k, wf_foldl_put, Map.retain]) }
  clear_value v3
  have h62 : Keeps z v4 := by
    dsimp only [v4]
    refine Keeps.foldl ?_ ?_
    · intro a63 a64 h65
      exact Keeps.of_ev (by assumption)
    · assumption
  clear_value v4
  have h66 : Keeps z v5 := Keeps.ite (Keeps.of_ev (by assumption)) (by assumption)
  clear_value v5
  exact KeepsRes.ite (KeepsRes.next (by assumption)) (KeepsRes.next (Keeps.of_ev (by assumption)))

theorem KeepsRes.of_execTallyDeferralLimit {z : State} {x0 : ℕ} {x1 : ℕ} {x2 : State} (h : Keeps z x2) :
    KeepsRes z (@execTallyDeferralLimit x0 x1 x2) := by
  unfold execTallyDeferralLimit
  extract_lets v0 v1
  subst v1
  have h60 : Keeps z v0 := Keeps.of_tick (by assumption)
  clear_value v0
  refine KeepsRes.ite ?_ ?_
  · exact KeepsRes.next (by assumption)
  · split
    · exact KeepsRes.next (by assumption)
    · extract_lets v66
      have h126 : Keeps z v66 := Keeps.of_ev (Keeps.trans (t := v0) (by assumption) {  })
      clear_value v66
      split
      · exact KeepsRes.next (by assumption)
      · exact KeepsRes.next (Keeps.of_reply (Keeps.of_dropWait (by assumption)))

theorem Keeps.of_wrongPass {z : State} {x0 : State} {x1 : ℕ} (h : Keeps z x0) : Keeps z (@State.wrongPass x0 x1) := by
  unfold State.wrongPass
  extract_lets v0 v1 v2 v3
  subst v0 v1 v3
  have h60 : Keeps z v2 := by
    dsimp only [v2]
    exact Keeps.trans (t := x0) (by assumption) { tly := (fun k => by simp only [tlyOk, Bool.and_eq_true] at k ⊢; simp [k]) }
  clear_value v2
  exact Keeps.ite (Keeps.of_ev (Keeps.trans (t := v2) (by assumption) {  })) (by assumption)

theorem Keeps.of_withPass {z : State} {x0 : State} {x1 : ℕ} {x2 : BitVec 128} {x3 : Sys2Proof.Path} {x4 : ℕ} {x5 : State → State} (hr5 : ∀ a, Keeps z a → Keeps z (x5 a)) (h : Keeps z x0) :
    Keeps z (@State.withPass x0 x1 x2 x3 x4 x5) := by
  unfold State.withPass
  refine Keeps.ite ?_ ?_
  · exact Keeps.of_reply (by assumption)
  · exact Keeps.ite (hr5 _ (by assumption)) (Keeps.of_reply (Keeps.of_wrongPass (by assumption)))

theorem KeepsRes.of_execSetTallyPassword {z : State} {x0 : ℕ} {x1 : Sys2Proof.Path} {x2 : ℕ} {x3 : BitVec 128} {x4 : BitVec 128} {x5 : State} (h : Keeps z x5) :
    KeepsRes z (@execSetTallyPassword x0 x1 x2 x3 x4 x5) := by
  unfold execSetTallyPassword
  refine KeepsRes.next ?_
  apply Keeps.of_mailbox
  · intro a0 h1
    refine Keeps.ite ?_ ?_
    · exact Keeps.of_reply (by assumption)
    · apply Keeps.of_withPass
      · intro a2 h3
        exact Keeps.of_replyAfter (by assumption)
      · assumption
  · exact Keeps.of_tick (by assumption)

theorem Keeps.of_flipFired {z : State} {x0 : State} {x1 : ℕ} {x2 : ℕ} {x3 : ℕ} (h : Keeps z x0) :
    Keeps z (@State.flipFired x0 x1 x2 x3) := by
  unfold State.flipFired
  split
  · assumption
  · extract_lets v5 v6
    have h65 : Keeps z v5 := Keeps.trans (t := x0) (by assumption) {  }
    clear_value v5
    have h66 : Keeps z v6 := Keeps.of_setReg (Keeps.of_setReg (Keeps.of_setReg (Keeps.of_setReg (Keeps.of_setReg (by assumption)))))
    clear_value v6
    exact Keeps.of_ev (by assumption)

theorem KeepsRes.of_execTallySupplyRecheck {z : State} {x0 : ℕ} {x1 : Bool} {x2 : Bool} {x3 : State} (h : Keeps z x3) :
    KeepsRes z (@execTallySupplyRecheck x0 x1 x2 x3) := by
  unfold execTallySupplyRecheck
  extract_lets v0 v1
  subst v1
  have h60 : Keeps z v0 := Keeps.of_tick (by assumption)
  clear_value v0
  exact KeepsRes.next (Keeps.of_tallyKick (Keeps.trans (t := v0) (by assumption) {  }))

theorem Keeps.of_saveLifetime {z : State} {x0 : State} (h : Keeps z x0) : Keeps z (@State.saveLifetime x0) := by
  unfold State.saveLifetime
  exact Keeps.of_ownRow (by assumption)

theorem KeepsRes.of_execLifetimeCounterSave {z : State} {x0 : State} (h : Keeps z x0) :
    KeepsRes z (@execLifetimeCounterSave x0) := by
  unfold execLifetimeCounterSave
  refine KeepsRes.next ?_
  refine Keeps.ite ?_ ?_
  · refine Keeps.foldl ?_ ?_
    · intro a0 a1 h2
      exact Keeps.of_ownRow (by assumption)
    · exact Keeps.of_ownRow (Keeps.of_saveLifetime (by assumption))
  · assumption

theorem KeepsRes.of_execReadTallyRecords {z : State} {x0 : ℕ} {x1 : Sys2Proof.Path} {x2 : ℕ} {x3 : ℕ} {x4 : ℕ} {x5 : BitVec 128} {x6 : State} (h : Keeps z x6) :
    KeepsRes z (@execReadTallyRecords x0 x1 x2 x3 x4 x5 x6) := by
  unfold execReadTallyRecords
  refine KeepsRes.next ?_
  apply Keeps.of_mailbox
  · intro a0 h1
    refine Keeps.ite ?_ ?_
    · exact Keeps.of_reply (by assumption)
    · extract_lets v2 v3
      subst v2
      refine Keeps.ite ?_ ?_
      · apply Keeps.of_withPass
        · intro a62 h63
          dsimp only [v3]
          apply Keeps.of_reply
          refine Keeps.foldl ?_ ?_
          · intro a64 a65 h66
            exact Keeps.of_noteRow (by assumption)
          · assumption
        · assumption
      · dsimp only [v3]
        apply Keeps.of_reply
        refine Keeps.foldl ?_ ?_
        · intro a67 a68 h69
          exact Keeps.of_noteRow (by assumption)
        · assumption
  · exact Keeps.of_tick (by assumption)

theorem KeepsRes.of_execWriteCustomerTally {z : State} {x0 : ℕ} {x1 : Sys2Proof.Path} {x2 : ℕ} {x3 : BitVec 128} {x4 : Sys2Proof.Bytes} {x5 : State} (h : Keeps z x5) :
    KeepsRes z (@execWriteCustomerTally x0 x1 x2 x3 x4 x5) := by
  unfold execWriteCustomerTally
  refine KeepsRes.next ?_
  apply Keeps.of_mailbox
  · intro a0 h1
    refine Keeps.ite ?_ ?_
    · exact Keeps.of_reply (by assumption)
    · apply Keeps.of_withPass
      · intro a2 h3
        exact Keeps.of_replyAfter (by assumption)
      · assumption
  · exact Keeps.of_tick (by assumption)

end Sys2Proof.Laws
end

