-- ==== Sys2Proof/Laws/KeepsLines.lean ====
section
/-! SUPPORT. One law per operation of the card that says what no operation does (Laws/Keeps.lean): stored lines, counters, placement and the caches. -/

set_option Elab.async false

namespace Sys2Proof.Laws

open Sys2Proof.Machine Sys2Proof.Safety

theorem Keeps.of_keepStored {z : State} {x0 : State} {x1 : Loc} {x2 : ℕ} {x3 : Stored} (h : Keeps z x0) :
    Keeps z (@State.keepStored x0 x1 x2 x3) := by
  unfold State.keepStored
  exact Keeps.trans (t := x0) (by assumption) { med := (fun k => by simp only [medOk, Bool.and_eq_true] at k ⊢; simp [k]) }

theorem Keeps.of_raiseMinor {z : State} {x0 : State} {x1 : ℕ} {x2 : ℕ} {x3 : ℕ} (h : Keeps z x0) :
    Keeps z (@State.raiseMinor x0 x1 x2 x3) := by
  unfold State.raiseMinor
  extract_lets v0 v1 v2 v3
  subst v0 v1 v3
  have h60 : Keeps z v2 := Keeps.of_bump (by assumption)
  clear_value v2
  refine Keeps.ite ?_ ?_
  · exact Keeps.trans (t := x0) (by assumption) { key := (fun k => by simp only [keyOk, Bool.and_eq_true] at k ⊢; simp [k]) }
  · exact Keeps.trans (t := v2) (by assumption) { key := (fun k => by simp only [keyOk, Bool.and_eq_true] at k ⊢; simp [k]) }

theorem Keeps.of_beadSlot {z : State} {x0 : State} {x1 : Bool} {x2 : Option ℕ} (h : Keeps z x0) :
    Keeps z (@State.beadSlot x0 x1 x2).1 := by
  unfold State.beadSlot
  split
  · exact Keeps.pair (by assumption)
  · split
    · exact Keeps.pair (by assumption)
    · split
      · rename_i m11 m12 m13 m14
        have h15 : Keeps z m12 := by
          exact Keeps.fst m14 (Keeps.of_takeBlock (Keeps.trans (t := x0) (by assumption) {  }))
        exact Keeps.pair (by assumption)
      · rename_i m16 m17 m18
        have h19 : Keeps z m17 := by
          exact Keeps.fst m18 (Keeps.of_takeBlock (Keeps.trans (t := x0) (by assumption) {  }))
        exact Keeps.pair (by assumption)

theorem Keeps.of_integChange {z : State} {x0 : State} {x1 : ℕ} {x2 : MapEntry} {x3 : ℕ} (h : Keeps z x0) :
    Keeps z (@State.integChange x0 x1 x2 x3) := by
  unfold State.integChange
  exact Keeps.of_mapChange (by assumption)

theorem Keeps.of_stampSector {z : State} {x0 : State} {x1 : ℕ} {x2 : Loc} {x3 : ℕ} {x4 : ℕ} {x5 : ℕ} (h : Keeps z x0) :
    Keeps z (@State.stampSector x0 x1 x2 x3 x4 x5) := by
  unfold State.stampSector
  extract_lets v0 v1 v2
  subst v0 v1 v2
  exact Keeps.trans (t := x0) (by assumption) { med := (fun k => by simp only [medOk, Bool.and_eq_true] at k ⊢; simp [k]) }

theorem Keeps.of_clearSlot {z : State} {x0 : State} {x1 : Loc} (h : Keeps z x0) : Keeps z (@State.clearSlot x0 x1) := by
  unfold State.clearSlot
  exact Keeps.trans (t := x0) (by assumption) { med := (fun k => by simp only [medOk, Bool.and_eq_true] at k ⊢; simp [k]) }

theorem Keeps.of_stampInteg {z : State} {x0 : State} {x1 : ℕ} {x2 : Loc} (h : Keeps z x0) :
    Keeps z (@State.stampInteg x0 x1 x2) := by
  unfold State.stampInteg
  refine Keeps.foldl ?_ ?_
  · intro a0 a1 h2
    exact Keeps.of_stampSector (by assumption)
  · exact Keeps.of_clearSlot (by assumption)

theorem Keeps.of_freeIfEmpty {z : State} {x0 : State} {x1 : Loc} (h : Keeps z x0) : Keeps z (@State.freeIfEmpty x0 x1) := by
  unfold State.freeIfEmpty
  extract_lets v0
  subst v0
  exact Keeps.ite (by assumption) (Keeps.of_freeBlock (by assumption))

theorem Keeps.of_startPage {z : State} {x0 : State} {x1 : ℕ} {x2 : OpenPage} (h : Keeps z x0) :
    Keeps z (@State.startPage x0 x1 x2) := by
  unfold State.startPage
  extract_lets v0 v1
  subst v0 v1
  apply Keeps.of_kick
  exact Keeps.trans (t := x0) (by assumption) { map := (fun k => by simp only [mapOk, Bool.and_eq_true] at k ⊢; simp [k]) }

theorem Keeps.of_fillPage {z : State} {x0 : State} {x1 : ℕ} {x2 : Option ℕ} (h : Keeps z x0) :
    Keeps z (@State.fillPage x0 x1 x2).1 := by
  unfold State.fillPage
  extract_lets v0 v1 v2
  subst v2
  have h60 : Keeps z v0.1 := by
    dsimp only [v0]
    split
    · exact Keeps.pair (by assumption)
    · split
      · rename_i m66 m67 m68 m69
        have h70 : Keeps z m67 := by
          exact Keeps.fst m69 (Keeps.of_takeBlock (by assumption))
        exact Keeps.pair (by assumption)
      · rename_i m71 m72 m73
        have h74 : Keeps z m72 := by
          exact Keeps.fst m73 (Keeps.of_takeBlock (by assumption))
        exact Keeps.pair (by assumption)
  clear_value v0
  subst v1
  split
  · exact Keeps.pair (by assumption)
  · extract_lets v80 v81 v82 v83
    subst v80 v81 v82
    have h140 : Keeps z v83 := by
      dsimp only [v83]
      exact Keeps.trans (t := Prod.fst v0) (by assumption) { map := (fun k => by simp only [mapOk, Bool.and_eq_true] at k ⊢; simp [k]) }
    clear_value v83
    exact Keeps.pair (Keeps.ite (Keeps.of_startPage (by assumption)) (by assumption))

theorem Keeps.of_pageSlot {z : State} {x0 : State} {x1 : ℕ} (h : Keeps z x0) : Keeps z (@State.pageSlot x0 x1).1 := by
  unfold State.pageSlot
  split
  · exact Keeps.pair (by assumption)
  · exact Keeps.of_fillPage (Keeps.trans (t := x0) (by assumption) {  })

theorem Keeps.of_integPlace {z : State} {x0 : State} {x1 : ℕ} {x2 : Option Loc} (h : Keeps z x0) :
    Keeps z (@State.integPlace x0 x1 x2) := by
  unfold State.integPlace
  refine Keeps.ite ?_ ?_
  · assumption
  · refine Keeps.ite ?_ ?_
    · split
      · rename_i m0 m1 m2
        have h3 : Keeps z m1 := by
          exact Keeps.fst m2 (Keeps.of_beadSlot (by assumption))
        assumption
      · rename_i m4 m5 m6 m7
        have h8 : Keeps z m5 := by
          exact Keeps.fst m7 (Keeps.of_beadSlot (by assumption))
        extract_lets v9
        have h69 : Keeps z v9 := Keeps.of_integChange (Keeps.of_stampInteg (by assumption))
        clear_value v9
        split
        · exact Keeps.of_freeIfEmpty (by assumption)
        · assumption
    · split
      · rename_i m73 m74 m75
        have h76 : Keeps z m74 := by
          exact Keeps.fst m75 (Keeps.of_pageSlot (by assumption))
        assumption
      · rename_i m77 m78 m79 m80
        have h81 : Keeps z m78 := by
          exact Keeps.fst m80 (Keeps.of_pageSlot (by assumption))
        extract_lets v82 v83
        subst v83
        have h142 : Keeps z v82 := Keeps.of_stampInteg (by assumption)
        clear_value v82
        exact Keeps.trans (t := v82) (by assumption) { map := (fun k => by simp only [mapOk, Bool.and_eq_true] at k ⊢; simp [k]) }

theorem Keeps.of_integHome {z : State} {x0 : State} {x1 : ℕ} {x2 : ℕ} (h : Keeps z x0) :
    Keeps z (@State.integHome x0 x1 x2) := by
  unfold State.integHome
  extract_lets v0
  subst v0
  split
  · exact Keeps.of_integPlace (by assumption)
  · split
    · extract_lets v70
      subst v70
      exact Keeps.of_stampSector (Keeps.of_setBlock (by assumption))
    · exact Keeps.of_integPlace (by assumption)

theorem Keeps.of_keepNode {z : State} {n k : Nat} {d : Bool} {s : State} (h : Keeps z s) : Keeps z (keepNode n k d s) := by
  induction n generalizing k d s with
  | zero => exact h
  | succ n ih =>
    unfold keepNode
    refine Keeps.ite h ?_
    extract_lets c left k0 s1
    have h1 : Keeps z s1 := h.trans { key := fun q => by simp only [keyOk, Bool.and_eq_true] at q ⊢; simp [s1, k0, c, q, cacheNode, Tab.wf_put] }
    clear_value s1
    split
    · exact h1
    · refine Keeps.ite (ih (Keeps.of_raiseMinor (Keeps.of_integHome ?_))) h1
      refine h1.trans { key := fun q => ?_ }
      simp only [keyOk, Bool.and_eq_true] at q ⊢
      exact ⟨⟨⟨⟨⟨⟨⟨q.1.1.1.1.1.1.1, q.1.1.1.1.1.1.2⟩, q.1.1.1.1.1.2⟩, q.1.1.1.1.2⟩, q.1.1.1.2⟩, q.1.1.2⟩, Tab.wf_put _ _ _ q.1.2⟩, q.2⟩

theorem Keeps.of_bumpNode {z : State} {x0 : State} {x1 : ℕ} {x2 : ℕ} {x3 : ℕ} (h : Keeps z x0) :
    Keeps z (@State.bumpNode x0 x1 x2 x3) := by
  unfold State.bumpNode
  exact Keeps.of_keepNode (Keeps.of_raiseMinor (by assumption))

theorem Keeps.of_ctrHome {z : State} {x0 : State} {x1 : ℕ} (h : Keeps z x0) : Keeps z (@State.ctrHome x0 x1) := by
  unfold State.ctrHome
  extract_lets v0 v1
  subst v0
  have h60 : Keeps z v1 := by
    dsimp only [v1]
    exact Keeps.trans (t := x0) (by assumption) { key := (fun k => by simp only [keyOk, Bool.and_eq_true] at k ⊢; simp [k]) }
  clear_value v1
  exact Keeps.of_bumpNode (Keeps.of_integHome (by assumption))

theorem Keeps.of_ctrFetch {z : State} {x0 : State} {x1 : ℕ} (h : Keeps z x0) : Keeps z (@State.ctrFetch x0 x1) := by
  unfold State.ctrFetch
  extract_lets v0
  split
  · rename_i m60 m61 m62
    refine Keeps.ite ?_ ?_
    · assumption
    · refine Keeps.ite ?_ ?_
      · dsimp only [v0]
        refine Keeps.trans (t := State.ctrHome x0 m61) ?_ { key := (fun k => by simp only [keyOk, Bool.and_eq_true] at k ⊢; simp [k]) }
        exact Keeps.of_ctrHome (by assumption)
      · dsimp only [v0]
        exact Keeps.trans (t := x0) (by assumption) { key := (fun k => by simp only [keyOk, Bool.and_eq_true] at k ⊢; simp [k]) }
  · dsimp only [v0]
    exact Keeps.trans (t := x0) (by assumption) { key := (fun k => by simp only [keyOk, Bool.and_eq_true] at k ⊢; simp [k]) }

theorem Keeps.of_setCtr {z : State} {x0 : State} {x1 : ℕ} {x2 : Counter} (h : Keeps z x0) :
    Keeps z (@State.setCtr x0 x1 x2) := by
  unfold State.setCtr
  extract_lets v0 v1 v2 v3
  subst v1 v3
  have h60 : Keeps z v0 := Keeps.of_ctrFetch (by assumption)
  clear_value v0
  have h61 : Keeps z v2 := Keeps.ite (Keeps.of_ctrHome (by assumption)) (by assumption)
  clear_value v2
  refine Keeps.ite ?_ ?_
  · exact Keeps.trans (t := v0) (by assumption) { key := (fun k => by simp only [keyOk, Bool.and_eq_true] at k ⊢; simp [k]) }
  · exact Keeps.trans (t := v2) (by assumption) { key := (fun k => by simp only [keyOk, Bool.and_eq_true] at k ⊢; simp [k]) }

theorem Keeps.of_setSlot {z : State} {x0 : State} {x1 : ℕ} {x2 : KeySlot} (h : Keeps z x0) :
    Keeps z (@State.setSlot x0 x1 x2) := by
  unfold State.setSlot
  exact Keeps.trans (t := x0) (by assumption) { key := (fun k => by simp only [keyOk, Bool.and_eq_true] at k ⊢; simp [k]) }

theorem Keeps.of_use {z : State} {x0 : State} {x1 : ℕ} {x2 : ℕ} (h : Keeps z x0) : Keeps z (@State.use x0 x1 x2) := by
  unfold State.use
  extract_lets v0
  subst v0
  exact Keeps.of_setSlot (by assumption)

theorem Keeps.of_macPoison {z : State} {x0 : State} {x1 : ℕ} {x2 : ℕ} (h : Keeps z x0) :
    Keeps z (@State.macPoison x0 x1 x2) := by
  unfold State.macPoison
  exact Keeps.of_ev (Keeps.of_listLine (Keeps.of_bump (by assumption)))

theorem Keeps.of_reseal {z s old : State} {l : Loc} {major : Nat} {s1 : State} {e : Nat × Stored} {k : Nat} (h : Keeps z s1) :
    Keeps z (State.reseal s old l major s1 e k) := by
  unfold State.reseal
  extract_lets n o x e2 s2
  have h2 : Keeps z s2 := Keeps.of_use (Keeps.of_keepStored h)
  exact Keeps.ite h2 (Keeps.of_macPoison h2)

theorem Keeps.of_nextCounter {z : State} {x0 : State} {x1 : Loc} {x2 : ℕ} (h : Keeps z x0) :
    Keeps z (@State.nextCounter x0 x1 x2) := by
  unfold State.nextCounter
  extract_lets v0 v1 v2 v3 v4 v5 v6 v7 v8
  subst v0 v1 v2 v3 v5 v7
  have h60 : Keeps z v4 := Keeps.of_bump (Keeps.of_setCtr (by assumption))
  clear_value v4
  have h61 : Keeps z v6 := Keeps.trans (t := v4) (by assumption) {  }
  clear_value v6
  have h62 : Keeps z v8 := by
    dsimp only [v8]
    refine Keeps.foldl ?_ ?_
    · intro a63 a64 h65
      exact Keeps.of_reseal (by assumption)
    · assumption
  clear_value v8
  refine Keeps.ite ?_ ?_
  · exact Keeps.of_setCtr (by assumption)
  · apply Keeps.of_ev
    refine Keeps.foldl ?_ ?_
    · intro a66 a67 h68
      exact Keeps.of_stampSector (by assumption)
    · assumption

theorem Keeps.of_drawKey {z : State} {x0 : State} (h : Keeps z x0) : Keeps z (@State.drawKey x0).1 := by
  unfold State.drawKey
  exact Keeps.pair (Keeps.trans (t := x0) (by assumption) { fresh := Nat.le_succ _ })

theorem Keeps.of_fillSlot {z : State} {x0 : State} {x1 : ℕ} (h : Keeps z x0) : Keeps z (@State.fillSlot x0 x1) := by
  unfold State.fillSlot
  extract_lets v0
  have h60 : Keeps z v0.1 := Keeps.of_drawKey (by assumption)
  clear_value v0
  exact Keeps.of_setSlot (by assumption)

theorem Keeps.of_sensed {z : State} {x0 : State} {x1 : ℕ} (h : Keeps z x0) : Keeps z (@State.sensed x0 x1) := by
  unfold State.sensed
  extract_lets v0 v1 v2 v3 v4
  subst v0 v1 v2 v4
  have h60 : Keeps z v3 := Keeps.of_bump (by assumption)
  clear_value v3
  exact Keeps.trans (t := v3) (by assumption) {  }

theorem Keeps.of_sense {z : State} {x0 : State} {x1 : ℕ} (h : Keeps z x0) : Keeps z (@State.sense x0 x1) := by
  unfold State.sense
  exact Keeps.of_sensed (Keeps.of_touch (by assumption))

theorem Keeps.of_loseSector {z : State} {x0 : State} {x1 : Loc} {x2 : ℕ} {x3 : ℕ} (h : Keeps z x0) :
    Keeps z (@State.loseSector x0 x1 x2 x3) := by
  unfold State.loseSector
  split
  · assumption
  · refine Keeps.ite ?_ ?_
    · assumption
    · extract_lets v5 v6 v7 v8
      subst v5 v7
      have h65 : Keeps z v6 := by
        dsimp only [v6]
        exact Keeps.trans (t := x0) (by assumption) { med := (fun k => by simp only [medOk, Bool.and_eq_true] at k ⊢; simp [k]) }
      clear_value v6
      have h66 : Keeps z v8 := by
        dsimp only [v8]
        refine Keeps.ite ?_ ?_
        · refine Keeps.foldl ?_ ?_
          · intro a67 a68 h69
            exact Keeps.of_losePoison (by assumption)
          · assumption
        · assumption
      clear_value v8
      exact Keeps.of_ev (by assumption)

theorem Keeps.of_sectorLost {z : State} {x0 : State} {x1 : ℕ} {x2 : ℕ} (h : Keeps z x0) :
    Keeps z (@State.sectorLost x0 x1 x2) := by
  unfold State.sectorLost
  split
  · exact Keeps.of_loseSector (by assumption)
  · assumption

theorem Keeps.of_nodeHome {z : State} {x0 : State} {x1 : ℕ} (h : Keeps z x0) : Keeps z (@State.nodeHome x0 x1) := by
  unfold State.nodeHome
  extract_lets v0 v1 v2 v3
  subst v0 v1 v2
  have h60 : Keeps z v3 := by
    dsimp only [v3]
    exact Keeps.trans (t := x0) (by assumption) { key := (fun k => by simp only [keyOk, Bool.and_eq_true] at k ⊢; simp [k]) }
  clear_value v3
  exact Keeps.of_bumpNode (Keeps.of_integHome (by assumption))

theorem Keeps.of_nodesToHome {z : State} {x0 : State} (h : Keeps z x0) : Keeps z (@State.nodesToHome x0) := by
  unfold State.nodesToHome
  refine Keeps.foldl ?_ ?_
  · intro a0 a1 h2
    refine Keeps.foldl ?_ ?_
    · intro a3 a4 h5
      exact Keeps.of_nodeHome (by assumption)
    · assumption
  · assumption

theorem Keeps.of_freezeLine {z : State} {x0 : Loc} {x1 : State} {x2 : ℕ} (h : Keeps z x1) :
    Keeps z (@State.freezeLine x0 x1 x2) := by
  unfold State.freezeLine
  split
  · exact Keeps.ite (by assumption) (Keeps.of_keepStored (by assumption))
  · assumption

theorem Keeps.of_freezeOthers {z : State} {x0 : State} {x1 : Loc} {x2 : ℕ} (h : Keeps z x0) :
    Keeps z (@State.freezeOthers x0 x1 x2) := by
  unfold State.freezeOthers
  extract_lets v0 v1 v2
  subst v0 v1
  dsimp only [v2]
  split
  · refine Keeps.ite ?_ ?_
    · split
      · refine Keeps.ite ?_ ?_
        · assumption
        · refine Keeps.foldl ?_ ?_
          · intro a66 a67 h68
            exact Keeps.of_freezeLine (by assumption)
          · assumption
      · assumption
    · refine Keeps.foldl ?_ ?_
      · intro a71 a72 h73
        exact Keeps.of_freezeLine (by assumption)
      · split
        · refine Keeps.ite ?_ ?_
          · assumption
          · refine Keeps.foldl ?_ ?_
            · intro a77 a78 h79
              exact Keeps.of_freezeLine (by assumption)
            · assumption
        · assumption
  · split
    · refine Keeps.ite ?_ ?_
      · assumption
      · refine Keeps.foldl ?_ ?_
        · intro a87 a88 h89
          exact Keeps.of_freezeLine (by assumption)
        · assumption
    · assumption

theorem Keeps.of_putLine {z : State} {x0 : State} {x1 : Loc} {x2 : ℕ} {x3 : Sys2Proof.Line} {x4 : Bool} {x5 : Bool} (h : Keeps z x0) :
    Keeps z (@State.putLine x0 x1 x2 x3 x4 x5) := by
  unfold State.putLine
  extract_lets v0 v1 v2 v3
  subst v1 v2 v3
  have h60 : Keeps z v0 := Keeps.of_nextCounter (Keeps.of_freezeOthers (by assumption))
  clear_value v0
  exact Keeps.of_keepStored (Keeps.of_use (by assumption))

theorem Keeps.of_setHome {z : State} {x0 : State} {x1 : ℕ} {x2 : Home} (h : Keeps z x0) :
    Keeps z (@State.setHome x0 x1 x2) := by
  unfold State.setHome
  exact Keeps.trans (t := x0) (by assumption) { map := (fun k => by simp only [mapOk, Bool.and_eq_true] at k ⊢; simp [k]) }

theorem Keeps.of_peersReport {z : State} {x0 : State} {x1 : Loc} {x2 : ℕ} {x3 : List ℕ} (h : Keeps z x0) :
    Keeps z (@State.peersReport x0 x1 x2 x3) := by
  unfold State.peersReport
  extract_lets v0 v1 v2 v3 v4 v5
  subst v0 v1 v2 v3 v5
  have h60 : Keeps z v4 := by
    dsimp only [v4]
    refine Keeps.foldl ?_ ?_
    · intro a61 a62 h63
      split
      · exact Keeps.ite (by assumption) (Keeps.of_selfDecoded (by assumption))
      · assumption
    · assumption
  clear_value v4
  exact Keeps.ite (by assumption) (Keeps.of_decoded (Keeps.trans (t := v4) (by assumption) { fresh := Nat.le_succ _ }))

theorem Keeps.of_readSource {z : State} {x0 : Loc} {x1 : State} {x2 : ℕ} (h : Keeps z x1) :
    Keeps z (@State.readSource x0 x1 x2) := by
  unfold State.readSource
  extract_lets v0 v1 v2 v3
  subst v0
  have h60 : Keeps z v2 := Keeps.of_sense (by assumption)
  clear_value v2
  have h61 : Keeps z v3 := Keeps.of_bump (by assumption)
  clear_value v3
  split
  · assumption
  · refine Keeps.ite ?_ ?_
    · assumption
    · refine Keeps.ite ?_ ?_
      · refine Keeps.ite ?_ ?_
        · apply Keeps.of_bump
          dsimp only [v1]
          apply Keeps.of_peersReport
          refine Keeps.foldl ?_ ?_
          · intro a67 a68 h69
            exact Keeps.ite (by assumption) (Keeps.of_bump (Keeps.of_touch (by assumption)))
          · assumption
        · exact Keeps.of_loseSector (by assumption)
      · refine Keeps.ite ?_ ?_
        · exact Keeps.of_selfDecoded (by assumption)
        · refine Keeps.ite ?_ ?_
          · exact Keeps.of_bump (by assumption)
          · refine Keeps.ite ?_ ?_
            · apply Keeps.of_bump
              apply Keeps.of_bump
              dsimp only [v1]
              apply Keeps.of_peersReport
              refine Keeps.foldl ?_ ?_
              · intro a70 a71 h72
                exact Keeps.ite (by assumption) (Keeps.of_bump (Keeps.of_touch (by assumption)))
              · assumption
            · exact Keeps.of_loseSector (by assumption)

theorem Keeps.of_copyFolio {z : State} {x0 : State} {x1 : Loc} {x2 : Loc} (h : Keeps z x0) :
    Keeps z (@State.copyFolio x0 x1 x2) := by
  unfold State.copyFolio
  extract_lets v0 v1 v2
  have h60 : Keeps z v0 := by
    dsimp only [v0]
    refine Keeps.foldl ?_ ?_
    · intro a61 a62 h63
      exact Keeps.of_readSource (by assumption)
    · assumption
  clear_value v0
  have h64 : Keeps z v2 := by
    dsimp only [v2]
    refine Keeps.foldl ?_ ?_
    · intro a65 a66 h67
      exact Keeps.of_keepStored (by assumption)
    · exact Keeps.of_clearSlot (by assumption)
  clear_value v2
  refine Keeps.foldl ?_ ?_
  · intro a68 a69 h70
    split
    · exact Keeps.of_stampSector (by assumption)
    · assumption
  · assumption

theorem Keeps.of_moveToPage {z : State} {x0 : State} {x1 : ℕ} {x2 : ℕ} (h : Keeps z x0) :
    Keeps z (@State.moveToPage x0 x1 x2) := by
  unfold State.moveToPage
  split
  · assumption
  · split
    · rename_i m5 m6 m7 m8
      have h9 : Keeps z m6 := by
        exact Keeps.fst m8 (Keeps.of_pageSlot (by assumption))
      exact Keeps.of_setHome (Keeps.of_copyFolio (by assumption))
    · rename_i m10 m11 m12
      have h13 : Keeps z m11 := by
        exact Keeps.fst m12 (Keeps.of_pageSlot (by assumption))
      assumption

theorem Keeps.of_sealSector {z : State} {x0 : State} {x1 : ℕ} {x2 : Loc} {x3 : List ℕ} {x4 : ℕ} (h : Keeps z x0) :
    Keeps z (@State.sealSector x0 x1 x2 x3 x4) := by
  unfold State.sealSector
  extract_lets v0 v1 v2
  subst v0 v1
  have h60 : Keeps z v2 := by
    dsimp only [v2]
    refine Keeps.foldl ?_ ?_
    · intro a61 a62 h63
      split
      · exact Keeps.of_keepStored (by assumption)
      · assumption
    · assumption
  clear_value v2
  split
  · exact Keeps.of_flipFired (Keeps.of_stampSector (by assumption))
  · exact Keeps.of_stampSector (by assumption)

theorem Keeps.of_dropHome {z : State} {x0 : State} {x1 : ℕ} (h : Keeps z x0) : Keeps z (@State.dropHome x0 x1) := by
  unfold State.dropHome
  exact Keeps.trans (t := x0) (by assumption) { map := (fun k => by simp only [mapOk, Bool.and_eq_true] at k ⊢; simp [k]) }

theorem Keeps.of_setUnit {z : State} {x0 : State} {x1 : ℕ} {x2 : UnitKey} (h : Keeps z x0) :
    Keeps z (@State.setUnit x0 x1 x2) := by
  unfold State.setUnit
  exact Keeps.trans (t := x0) (by assumption) { key := (fun k => by simp only [keyOk, Bool.and_eq_true] at k ⊢; simp [k]) }

theorem Keeps.of_sweepClocks {z : State} {x0 : State} (h : Keeps z x0) : Keeps z (@State.sweepClocks x0) := by
  unfold State.sweepClocks
  exact Keeps.trans (t := x0) (by assumption) { map := (fun k => by simp only [mapOk, Bool.and_eq_true] at k ⊢; simp [k]) }

theorem Keeps.of_releaseHeld {z : State} {n : Nat} {s : State} (h : Keeps z s) : Keeps z (releaseHeld n s) := by
  induction n generalizing s with
  | zero => exact h
  | succ n ih =>
    unfold releaseHeld
    split
    · exact h
    · refine Keeps.ite h ?_
      extract_lets old m s1
      have h1 : Keeps z s1 := Keeps.of_journalled (h.trans {})
      clear_value s1 old
      refine ih ?_
      split
      · exact Keeps.ite h1 (Keeps.of_freeIfEmpty h1)
      · exact h1

theorem Keeps.of_commitInteg {z : State} {x0 : State} {x1 : ℕ} {x2 : Home} (h : Keeps z x0) :
    Keeps z (@State.commitInteg x0 x1 x2) := by
  unfold State.commitInteg
  extract_lets v0
  have h60 : Keeps z v0 := Keeps.of_integChange (Keeps.of_dropHome (by assumption))
  clear_value v0
  split
  · exact Keeps.of_freeIfEmpty (by assumption)
  · assumption

theorem Keeps.of_countPlaced {z : State} {x0 : State} {x1 : ℕ} (h : Keeps z x0) : Keeps z (@State.countPlaced x0 x1) := by
  unfold State.countPlaced
  split
  · exact Keeps.of_bump (by assumption)
  · exact Keeps.of_bump (by assumption)
  · exact Keeps.of_bump (by assumption)
  · exact Keeps.of_bump (by assumption)
  · assumption

theorem Keeps.of_setShadow {z : State} {x0 : State} {x1 : ℕ} {x2 : Shadow} (h : Keeps z x0) :
    Keeps z (@State.setShadow x0 x1 x2) := by
  unfold State.setShadow
  extract_lets v0 v1
  subst v0 v1
  apply Keeps.of_mapChange
  exact Keeps.trans (t := x0) (by assumption) { ring := (fun k => by simp only [ringOk, Bool.and_eq_true] at k ⊢; simp [k]) }

theorem Keeps.of_beadHome {z : State} {x0 : State} {x1 : ℕ} {x2 : Loc} (h : Keeps z x0) :
    Keeps z (@State.beadHome x0 x1 x2) := by
  unfold State.beadHome
  extract_lets v0 v1 v2 v3
  subst v0 v1 v3
  have h60 : Keeps z v2 := Keeps.of_setBlock (by assumption)
  clear_value v2
  exact Keeps.trans (t := v2) (by assumption) { map := (fun k => by simp only [mapOk, Bool.and_eq_true] at k ⊢; simp [k]) }

theorem Keeps.of_beadPlaced {z : State} {x0 : State} {x1 : ℕ} {x2 : ℕ} {x3 : Loc} {x4 : Bool} (h : Keeps z x0) :
    Keeps z (@State.beadPlaced x0 x1 x2 x3 x4) := by
  unfold State.beadPlaced
  extract_lets v0 v1 v2
  subst v0 v1 v2
  refine Keeps.ite ?_ ?_
  · exact Keeps.trans (t := x0) (by assumption) { map := (fun k => by simp only [mapOk, Bool.and_eq_true] at k ⊢; simp [k]) }
  · refine Keeps.ite ?_ ?_
    · exact Keeps.trans (t := x0) (by assumption) { map := (fun k => by simp only [mapOk, Bool.and_eq_true] at k ⊢; simp [k]) }
    · exact Keeps.of_beadHome (by assumption)

theorem Keeps.of_settleMarked {z : State} {x0 : State} {x1 : ℕ} (h : Keeps z x0) : Keeps z (@State.settleMarked x0 x1) := by
  unfold State.settleMarked
  extract_lets v0 v1
  subst v0 v1
  exact Keeps.ite (Keeps.of_mapChange (by assumption)) (by assumption)

theorem Keeps.of_noteData {z : State} {x0 : State} {x1 : ℕ} (h : Keeps z x0) : Keeps z (@State.noteData x0 x1) := by
  unfold State.noteData
  extract_lets v0
  subst v0
  split
  · exact Keeps.ite (by assumption) (Keeps.of_setUnit (by assumption))
  · assumption

theorem Keeps.of_commitHome {z : State} {x0 : State} {x1 : ℕ} (h : Keeps z x0) : Keeps z (@State.commitHome x0 x1) := by
  unfold State.commitHome
  split
  · assumption
  · extract_lets v5 v6 v7 v8 v9 v10 v11 v12 v13
    subst v5 v10 v12
    have h65 : Keeps z v6 := Keeps.of_countPlaced (Keeps.of_setHome (by assumption))
    clear_value v6
    have h66 : Keeps z v7 := Keeps.ite (Keeps.of_setShadow (by assumption)) (Keeps.ite (by assumption) (Keeps.of_mapChange (by assumption)))
    clear_value v7
    have h67 : Keeps z v8 := Keeps.ite (by assumption) (Keeps.of_beadPlaced (by assumption))
    clear_value v8
    have h68 : Keeps z v9 := Keeps.of_settleMarked (Keeps.of_noteData (by assumption))
    clear_value v9
    have h69 : Keeps z v11 := by
      dsimp only [v11]
      split
      · exact Keeps.ite (by assumption) (Keeps.of_freeIfEmpty (by assumption))
      · assumption
    clear_value v11
    have h75 : Keeps z v13 := by
      dsimp only [v13]
      split
      · exact Keeps.ite (Keeps.trans (t := v11) (by assumption) {  }) (by assumption)
      · assumption
    clear_value v13
    refine Keeps.ite ?_ ?_
    · assumption
    · refine Keeps.ite ?_ ?_
      · exact Keeps.of_freeIfEmpty (Keeps.of_dropHome (by assumption))
      · refine Keeps.ite ?_ ?_
        · assumption
        · refine Keeps.ite ?_ ?_
          · exact Keeps.of_commitInteg (by assumption)
          · exact Keeps.ite (Keeps.of_dropHome (by assumption)) (by assumption)

theorem Keeps.of_changesGo {z : State} {x0 : State} (h : Keeps z x0) : Keeps z (@State.changesGo x0) := by
  unfold State.changesGo
  extract_lets v0
  have h60 : Keeps z v0 := Keeps.of_releaseHeld (by assumption)
  clear_value v0
  refine Keeps.foldl ?_ ?_
  · intro a61 a62 h63
    exact Keeps.of_commitHome (by assumption)
  · assumption

theorem Keeps.of_sealBlock {z : State} {x0 : State} {x1 : ℕ} {x2 : ℕ} (h : Keeps z x0) :
    Keeps z (@State.sealBlock x0 x1 x2) := by
  unfold State.sealBlock
  extract_lets v0 v1
  subst v0 v1
  exact Keeps.of_setBlock (by assumption)

theorem Keeps.of_capacityReached {z : State} {x0 : State} (h : Keeps z x0) : Keeps z (@State.capacityReached x0) := by
  unfold State.capacityReached
  exact Keeps.ite (by assumption) (Keeps.of_enterFro (Keeps.of_ev (by assumption)))

theorem Keeps.of_settle {z : State} {x0 : State} {x1 : ℕ} (h : Keeps z x0) : Keeps z (@State.settle x0 x1) := by
  unfold State.settle
  split
  · assumption
  · extract_lets v5 v6 v7 v8 v9 v10 v11 v12 v13
    subst v5 v6 v8 v10 v11 v12
    have h65 : Keeps z v7 := by
      dsimp only [v7]
      exact Keeps.trans (t := x0) (by assumption) { ring := (fun k => by simp only [ringOk, Bool.and_eq_true] at k ⊢; simp [k]) }
    clear_value v7
    have h66 : Keeps z v9 := Keeps.of_mapChange (by assumption)
    clear_value v9
    have h67 : Keeps z v13 := by
      dsimp only [v13]
      exact Keeps.trans (t := v9) (by assumption) { map := (fun k => by simp only [mapOk, Bool.and_eq_true] at k ⊢; simp [k]) }
    clear_value v13
    split
    · exact Keeps.of_freeIfEmpty (by assumption)
    · assumption

theorem Keeps.of_putLines {z : State} {x0 : State} {x1 : ℕ} {x2 : Loc} {x3 : List (HomeLine × Bool)} (h : Keeps z x0) :
    Keeps z (@State.putLines x0 x1 x2 x3) := by
  unfold State.putLines
  extract_lets v0
  have h60 : Keeps z v0 := by
    dsimp only [v0]
    refine Keeps.foldl ?_ ?_
    · intro a61 a62 h63
      exact Keeps.of_putLine (by assumption)
    · assumption
  clear_value v0
  refine Keeps.foldl ?_ ?_
  · intro a64 a65 h66
    exact Keeps.of_sealSector (by assumption)
  · assumption

theorem Keeps.of_fillFolio {z : State} {x0 : State} {x1 : ℕ} {x2 : Loc} {x3 : Bool} {x4 : List (HomeLine × Bool)} (h : Keeps z x0) :
    Keeps z (@State.fillFolio x0 x1 x2 x3 x4) := by
  unfold State.fillFolio
  split
  · exact Keeps.of_putLines (Keeps.of_copyFolio (by assumption))
  · extract_lets v5 v6
    subst v5 v6
    exact Keeps.of_putLines (Keeps.of_clearSlot (by assumption))

theorem Keeps.of_placeNew {z : State} {x0 : State} {x1 : ℕ} {x2 : List (HomeLine × Bool)} {x3 : ℕ} {x4 : ℕ} {x5 : ℕ} {x6 : BitVec 2} (h : Keeps z x0) :
    Keeps z (@State.placeNew x0 x1 x2 x3 x4 x5 x6).1 := by
  unfold State.placeNew
  extract_lets v0 v1 v2 v3
  subst v0 v1 v2 v3
  split
  · refine Keeps.pair ?_
    refine Keeps.ite ?_ ?_
    · assumption
    · split
      · exact Keeps.of_moveToPage (by assumption)
      · exact Keeps.of_sweepClocks (by assumption)
  · split
    · split
      · rename_i m68 m69 m70 m71
        have h72 : Keeps z m69 := by
          exact Keeps.fst m71 (Keeps.of_beadSlot (by assumption))
        exact Keeps.pair (Keeps.of_setHome (Keeps.of_fillFolio (by assumption)))
      · rename_i m73 m74 m75
        have h76 : Keeps z m74 := by
          exact Keeps.fst m75 (Keeps.of_beadSlot (by assumption))
        exact Keeps.pair (by assumption)
    · split
      · rename_i m78 m79 m80 m81
        have h82 : Keeps z m79 := by
          exact Keeps.fst m81 (Keeps.of_pageSlot (by assumption))
        exact Keeps.pair (Keeps.of_setHome (Keeps.of_fillFolio (by assumption)))
      · rename_i m83 m84 m85
        have h86 : Keeps z m84 := by
          exact Keeps.fst m85 (Keeps.of_pageSlot (by assumption))
        exact Keeps.pair (by assumption)

theorem Keeps.of_placeAt {z : State} {x0 : State} {x1 : ℕ} {x2 : Loc} {x3 : Bool} {x4 : List (HomeLine × Bool)} {x5 : ℕ} {x6 : ℕ} {x7 : ℕ} {x8 : ℕ} {x9 : BitVec 2} (h : Keeps z x0) :
    Keeps z (@State.placeAt x0 x1 x2 x3 x4 x5 x6 x7 x8 x9).1 := by
  unfold State.placeAt
  split
  · exact Keeps.pair (Keeps.of_setHome (Keeps.of_beadHome (Keeps.of_settleMarked (Keeps.of_putLines (by assumption)))))
  · exact Keeps.of_placeNew (by assumption)

theorem Keeps.of_placeEpoch {z : State} {x0 : State} {x1 : ℕ} {x2 : List (HomeLine × Bool)} {x3 : ℕ} {x4 : BitVec 2} (h : Keeps z x0) :
    Keeps z (@State.placeEpoch x0 x1 x2 x3 x4).1 := by
  unfold State.placeEpoch
  extract_lets v0
  have h60 : Keeps z v0 := by
    dsimp only [v0]
    split
    · exact Keeps.ite (Keeps.of_settle (by assumption)) (by assumption)
    · assumption
  clear_value v0
  split
  · split
    · exact Keeps.pair (Keeps.of_ev (by assumption))
    · exact Keeps.of_placeNew (by assumption)
  · split
    · split
      · exact Keeps.of_placeAt (by assumption)
      · exact Keeps.of_placeNew (by assumption)
    · split
      · split
        · exact Keeps.of_placeAt (by assumption)
        · exact Keeps.of_placeNew (by assumption)
      · exact Keeps.pair (by assumption)

theorem Keeps.of_placeLines {z : State} {x0 : State} {x1 : ℕ} {x2 : List (HomeLine × Bool)} {x3 : ℕ} {x4 : BitVec 2} (h : Keeps z x0) :
    Keeps z (@State.placeLines x0 x1 x2 x3 x4).1 := by
  unfold State.placeLines
  extract_lets v0
  subst v0
  split
  · exact Keeps.pair (Keeps.of_capacityReached (by assumption))
  · split
    · exact Keeps.of_placeEpoch (by assumption)
    · split
      · split
        · exact Keeps.of_placeAt (by assumption)
        · exact Keeps.of_placeNew (by assumption)
      · exact Keeps.of_placeNew (by assumption)

theorem Keeps.of_bindUnit {z : State} {x0 : State} {x1 : ℕ} (h : Keeps z x0) : Keeps z (@State.bindUnit x0 x1).1 := by
  unfold State.bindUnit
  extract_lets v0 v1 v2 v3
  subst v0 v1 v3
  have h60 : Keeps z v2 := Keeps.of_setUnit (by assumption)
  clear_value v2
  split
  · exact Keeps.pair (by assumption)
  · split
    · exact Keeps.pair (by assumption)
    · exact Keeps.pair (Keeps.of_writeRow (by assumption))

theorem Keeps.of_replace {z : State} {x0 : State} {x1 : Loc → Bool} {x2 : List (Option ℕ)} (h : Keeps z x0) :
    Keeps z (@State.replace x0 x1 x2) := by
  unfold State.replace
  refine Keeps.foldl ?_ ?_
  · intro a0 a1 h2
    split
    · assumption
    · split
      · assumption
      · refine Keeps.ite ?_ ?_
        · assumption
        · split
          · rename_i m11 m12 m13 m14
            have h15 : Keeps z m12 := by
              exact Keeps.fst m14 (Keeps.of_pageSlot (by assumption))
            exact Keeps.of_setHome (Keeps.of_copyFolio (by assumption))
          · rename_i m16 m17 m18
            have h19 : Keeps z m17 := by
              exact Keeps.fst m18 (Keeps.of_pageSlot (by assumption))
            exact Keeps.of_dropHome (by assumption)
  · assumption

theorem Keeps.of_closeBlock {z : State} {x0 : State} {x1 : ℕ} {x2 : ℕ} (h : Keeps z x0) :
    Keeps z (@State.closeBlock x0 x1 x2) := by
  unfold State.closeBlock
  extract_lets v0 v1 v2 v3 v4 v5 v6
  subst v0 v1 v3 v4 v5
  have h60 : Keeps z v2 := Keeps.of_sealBlock (by assumption)
  clear_value v2
  have h61 : Keeps z v6 := by
    dsimp only [v6]
    exact Keeps.trans (t := v2) (by assumption) { map := (fun k => by simp only [mapOk, Bool.and_eq_true] at k ⊢; simp [k]) }
  clear_value v6
  exact Keeps.of_replace (by assumption)

theorem Keeps.of_pageDone {z : State} {x0 : State} {x1 : PageProg} (h : Keeps z x0) : Keeps z (@State.pageDone x0 x1) := by
  unfold State.pageDone
  extract_lets v0 v1 v2 v3 v4 v5 v6
  subst v0 v3 v5
  have h60 : Keeps z v1 := Keeps.trans (t := x0) (by assumption) {  }
  clear_value v1
  have h61 : Keeps z v2 := by
    dsimp only [v2]
    refine Keeps.foldl ?_ ?_
    · intro a62 a63 h64
      split
      · exact Keeps.ite (Keeps.of_commitHome (by assumption)) (by assumption)
      · assumption
    · assumption
  clear_value v2
  have h68 : Keeps z v6 := Keeps.ite (Keeps.of_sealBlock (Keeps.of_setBlock (by assumption))) (by assumption)
  clear_value v6
  exact Keeps.ite (Keeps.of_freeIfEmpty (by assumption)) (by assumption)

theorem Keeps.of_setFill {z : State} {x0 : State} {x1 : Fill} (h : Keeps z x0) : Keeps z (@State.setFill x0 x1) := by
  unfold State.setFill
  exact Keeps.trans (t := x0) (by assumption) {  }

theorem Keeps.of_mergeFills {z : State} {x0 : State} (h : Keeps z x0) : Keeps z (@State.mergeFills x0) := by
  unfold State.mergeFills
  exact Keeps.trans (t := x0) (by assumption) { cch := (fun k => by simp only [cchOk, Bool.and_eq_true] at k ⊢; simp [k]) }

theorem Keeps.of_setEvict {z : State} {x0 : State} {x1 : EvictEntry} (h : Keeps z x0) :
    Keeps z (@State.setEvict x0 x1) := by
  unfold State.setEvict
  exact Keeps.trans (t := x0) (by assumption) {  }

theorem Keeps.of_setNear {z : State} {x0 : State} {x1 : ℕ} {x2 : NearSlot} (h : Keeps z x0) :
    Keeps z (@State.setNear x0 x1 x2) := by
  unfold State.setNear
  exact Keeps.trans (t := x0) (by assumption) { cch := (fun k => by simp only [cchOk, Bool.and_eq_true] at k ⊢; simp [k]) }

theorem Keeps.of_dropNear {z : State} {x0 : State} {x1 : ℕ} (h : Keeps z x0) : Keeps z (@State.dropNear x0 x1) := by
  unfold State.dropNear
  exact Keeps.trans (t := x0) (by assumption) { cch := (fun k => by simp only [cchOk, Bool.and_eq_true] at k ⊢; simp [k]) }

theorem Keeps.of_dropBoard {z : State} {x0 : State} {x1 : ℕ} (h : Keeps z x0) : Keeps z (@State.dropBoard x0 x1) := by
  unfold State.dropBoard
  exact Keeps.trans (t := x0) (by assumption) { cch := (fun k => by simp only [cchOk, Bool.and_eq_true] at k ⊢; simp [k]) }

theorem Keeps.of_dropFill {z : State} {x0 : State} {x1 : ℕ} (h : Keeps z x0) : Keeps z (@State.dropFill x0 x1) := by
  unfold State.dropFill
  exact Keeps.trans (t := x0) (by assumption) {  }

theorem Keeps.of_setWb {z : State} {x0 : State} {x1 : WbEntry} (h : Keeps z x0) : Keeps z (@State.setWb x0 x1) := by
  unfold State.setWb
  exact Keeps.trans (t := x0) (by assumption) {  }

theorem Keeps.of_setBoard {z : State} {x0 : State} {x1 : ℕ} {x2 : BoardSlot} (h : Keeps z x0) :
    Keeps z (@State.setBoard x0 x1 x2) := by
  unfold State.setBoard
  exact Keeps.trans (t := x0) (by assumption) { cch := (fun k => by simp only [cchOk, Bool.and_eq_true] at k ⊢; simp [k]) }

theorem Keeps.of_beginPowerDown {z : State} {x0 : State} (h : Keeps z x0) : Keeps z (@State.beginPowerDown x0) := by
  unfold State.beginPowerDown
  extract_lets v0 v1
  subst v0 v1
  exact Keeps.trans (t := x0) (by assumption) {  }

theorem Keeps.of_powerFailed {z : State} {x0 : State} {x1 : Bool} {x2 : ℕ} (h : Keeps z x0) :
    Keeps z (@State.powerFailed x0 x1 x2) := by
  unfold State.powerFailed
  exact Keeps.ite (Keeps.trans (t := x0) (by assumption) {  }) (by assumption)

theorem Keeps.of_tearDie {z : State} {x0 : State} {x1 : ℕ} (h : Keeps z x0) : Keeps z (@tearDie x0 x1) := by
  unfold tearDie
  split
  · assumption
  · split
    · split
      · exact Keeps.trans (t := x0) (by assumption) { med := (fun k => by simp only [medOk, Bool.and_eq_true] at k ⊢; simp [k]) }
      · assumption
    · exact Keeps.trans (t := x0) (by assumption) {  }
    · assumption

theorem Keeps.of_abandonPrograms {z : State} {x0 : State} (h : Keeps z x0) : Keeps z (@State.abandonPrograms x0) := by
  unfold State.abandonPrograms
  extract_lets v0 v1 v2 v3 v4 v5
  subst v1 v2 v3 v4 v5
  have h60 : Keeps z v0 := by
    dsimp only [v0]
    refine Keeps.foldl ?_ ?_
    · intro a61 a62 h63
      exact Keeps.of_tearDie (by assumption)
    · assumption
  clear_value v0
  exact Keeps.trans (t := v0) (by assumption) { med := (fun k => by simp only [medOk, Bool.and_eq_true] at k ⊢; simp [k]), map := (fun k => by simp only [mapOk, Bool.and_eq_true] at k ⊢; simp [k]) }

theorem Keeps.of_abandonCommands {z : State} {x0 : State} (h : Keeps z x0) : Keeps z (@State.abandonCommands x0) := by
  unfold State.abandonCommands
  extract_lets v0 v1 v2
  subst v1 v2
  have h60 : Keeps z v0 := Keeps.of_dropWait (by assumption)
  clear_value v0
  exact Keeps.trans (t := v0) (by assumption) {  }

theorem Keeps.of_linkDown {z : State} {x0 : State} (h : Keeps z x0) : Keeps z (@State.linkDown x0) := by
  unfold State.linkDown
  exact Keeps.ite (by assumption) (Keeps.of_out (Keeps.trans (t := x0) (by assumption) {  }))

theorem Keeps.of_freeContexts {z : State} {x0 : State} (h : Keeps z x0) : Keeps z (@State.freeContexts x0) := by
  unfold State.freeContexts
  exact Keeps.trans (t := x0) (by assumption) {  }

theorem Keeps.of_quiesce {z : State} {x0 : State} (h : Keeps z x0) : Keeps z (@State.quiesce x0) := by
  unfold State.quiesce
  extract_lets v0 v1 v2 v3 v4
  subst v1 v2 v3 v4
  have h60 : Keeps z v0 := by
    dsimp only [v0]
    apply Keeps.of_abandonPrograms
    exact Keeps.of_abandonCommands (Keeps.of_linkDown (Keeps.of_freeContexts (Keeps.of_mergeFills (by assumption))))
  clear_value v0
  exact Keeps.trans (t := v0) (by assumption) { pfl := (fun k => by have q := pflOk_dropTest _ k; simpa only [pflOk] using q) }

theorem Keeps.of_beginDump {z : State} {x0 : State} {x1 : ℕ} (h : Keeps z x0) : Keeps z (@State.beginDump x0 x1) := by
  unfold State.beginDump
  refine Keeps.ite ?_ ?_
  · assumption
  · extract_lets v0 v1 v2 v3
    subst v1 v3
    have h60 : Keeps z v0 := Keeps.of_powerFailed (Keeps.of_quiesce (by assumption))
    clear_value v0
    have h61 : Keeps z v2 := Keeps.trans (t := v0) (by assumption) {  }
    clear_value v2
    split
    · exact Keeps.ite (Keeps.of_beginPowerDown (by assumption)) (Keeps.of_ev (Keeps.trans (t := v2) (by assumption) {  }))
    · exact Keeps.of_beginPowerDown (by assumption)

theorem Keeps.of_markFatal {z : State} {x0 : State} {x1 : ℕ} {x2 : ℕ} (h : Keeps z x0) :
    Keeps z (@State.markFatal x0 x1 x2) := by
  unfold State.markFatal
  extract_lets v0 v1 v2 v3
  subst v0 v1 v2
  have h60 : Keeps z v3 := Keeps.trans (t := x0) (by assumption) {  }
  clear_value v3
  exact Keeps.of_reportRas (Keeps.of_reportUnc (by assumption))

theorem Keeps.of_fatalHandling {z : State} {x0 : State} {x1 : ℕ} {x2 : ℕ} (h : Keeps z x0) :
    Keeps z (@State.fatalHandling x0 x1 x2) := by
  unfold State.fatalHandling
  exact Keeps.ite (by assumption) (Keeps.of_beginDump (Keeps.of_markFatal (by assumption)))

theorem Keeps.of_fence {z : State} {x0 : State} {x1 : ℕ} {x2 : ℕ} (h : Keeps z x0) : Keeps z (@State.fence x0 x1 x2) := by
  unfold State.fence
  refine Keeps.ite ?_ ?_
  · assumption
  · extract_lets v0 v1 v2 v3 v4 v5 v6 v7 v8
    subst v0 v2 v5 v6 v7
    have h60 : Keeps z v1 := Keeps.trans (t := x0) (by assumption) {  }
    clear_value v1
    have h61 : Keeps z v3 := Keeps.ite (Keeps.trans (t := v1) (by assumption) { fresh := Nat.le_succ _ }) (by assumption)
    clear_value v3
    have h62 : Keeps z v8 := Keeps.of_enterFro (Keeps.of_ev (Keeps.trans (t := v1) (by assumption) {  }))
    clear_value v8
    refine Keeps.ite ?_ ?_
    · exact Keeps.of_fatalHandling (Keeps.of_ev (by assumption))
    · refine Keeps.foldl ?_ ?_
      · intro a63 a64 h65
        exact Keeps.of_losePoison (by assumption)
      · assumption

theorem Keeps.of_setSlotD {z : State} {x0 : State} {x1 : ℕ} {x2 : DumpSlot} (h : Keeps z x0) :
    Keeps z (@State.setSlotD x0 x1 x2) := by
  unfold State.setSlotD
  exact Keeps.trans (t := x0) (by assumption) {  }

theorem Keeps.of_fatalNoDump {z : State} {x0 : State} {x1 : ℕ} {x2 : ℕ} (h : Keeps z x0) :
    Keeps z (@State.fatalNoDump x0 x1 x2) := by
  unfold State.fatalNoDump
  refine Keeps.ite ?_ ?_
  · assumption
  · extract_lets v0 v1
    subst v1
    have h60 : Keeps z v0 := Keeps.of_powerFailed (Keeps.of_quiesce (Keeps.of_markFatal (by assumption)))
    clear_value v0
    exact Keeps.of_beginPowerDown (Keeps.trans (t := v0) (by assumption) {  })

theorem Keeps.of_countRefetch {z : State} {x0 : State} {x1 : ℕ} {x2 : ℕ} (h : Keeps z x0) :
    Keeps z (@State.countRefetch x0 x1 x2) := by
  unfold State.countRefetch
  exact Keeps.of_ev (Keeps.of_setReg (Keeps.of_bump (by assumption)))

theorem Keeps.of_lastUnc {z : State} {x0 : State} {x1 : ℕ} {x2 : Bool} {x3 : ℕ} (h : Keeps z x0) :
    Keeps z (@State.lastUnc x0 x1 x2 x3) := by
  unfold State.lastUnc
  exact Keeps.of_setReg (Keeps.of_setReg (Keeps.of_setReg (by assumption)))

theorem Keeps.of_nearTags {z : State} {x0 : State} {x1 : ℕ} (h : Keeps z x0) : Keeps z (@State.nearTags x0 x1) := by
  unfold State.nearTags
  split
  · assumption
  · extract_lets v5 v6 v7 v8 v9
    subst v6 v7 v8
    have h65 : Keeps z v9 := by
      dsimp only [v9]
      dsimp only [v5]
      exact Keeps.trans (t := x0) (by assumption) { cch := (fun k => by simp only [cchOk, Bool.and_eq_true] at k ⊢; simp [k]) }
    clear_value v9
    refine Keeps.ite ?_ ?_
    · assumption
    · refine Keeps.ite ?_ ?_
      · apply Keeps.of_ev
        apply Keeps.of_setReg
        apply Keeps.of_bump
        dsimp only [v5]
        exact Keeps.trans (t := x0) (by assumption) { cch := (fun k => by simp only [cchOk, Bool.and_eq_true] at k ⊢; simp [k]) }
      · refine Keeps.ite ?_ ?_
        · apply Keeps.of_countRefetch
          exact Keeps.trans (t := x0) (by assumption) { cch := (fun k => by simp only [cchOk, Bool.and_eq_true] at k ⊢; simp [k]) }
        · exact Keeps.of_fatalHandling (Keeps.of_ev (Keeps.of_setReg (Keeps.of_lastUnc (by assumption))))

theorem Keeps.of_toRewrite {z : State} {x0 : State} {x1 : ℕ} (h : Keeps z x0) : Keeps z (@State.toRewrite x0 x1) := by
  unfold State.toRewrite
  exact Keeps.ite (by assumption) (Keeps.trans (t := x0) (by assumption) {  })

theorem Keeps.of_countCorrection {z : State} {x0 : State} {x1 : ℕ} (h : Keeps z x0) :
    Keeps z (@State.countCorrection x0 x1) := by
  unfold State.countCorrection
  extract_lets v0 v1 v2 v3 v4
  subst v0 v1 v3
  have h60 : Keeps z v2 := Keeps.of_bump (Keeps.of_bump (by assumption))
  clear_value v2
  have h61 : Keeps z v4 := Keeps.trans (t := v2) (by assumption) {  }
  clear_value v4
  exact Keeps.ite (Keeps.of_ev (by assumption)) (by assumption)

theorem Keeps.of_putSlot {z : State} {x0 : State} {x1 : ℕ} {x2 : BoardSlot} (h : Keeps z x0) :
    Keeps z (@State.putSlot x0 x1 x2) := by
  unfold State.putSlot
  exact Keeps.trans (t := x0) (by assumption) { cch := (fun k => by simp only [cchOk, Bool.and_eq_true] at k ⊢; simp [k]) }

theorem Keeps.of_delSlot {z : State} {x0 : State} {x1 : ℕ} (h : Keeps z x0) : Keeps z (@State.delSlot x0 x1) := by
  unfold State.delSlot
  exact Keeps.trans (t := x0) (by assumption) { cch := (fun k => by simp only [cchOk, Bool.and_eq_true] at k ⊢; simp [k]) }

theorem Keeps.of_boardWord {z : State} {x0 : ℕ} {x1 : State} {x2 : ℕ} (h : Keeps z x1) : Keeps z (@boardWord x0 x1 x2) := by
  unfold boardWord
  split
  · assumption
  · refine Keeps.ite ?_ ?_
    · assumption
    · extract_lets v5 v6 v7 v8
      subst v5 v6 v7 v8
      refine Keeps.ite ?_ ?_
      · exact Keeps.of_listLine (Keeps.of_ev (Keeps.of_lastUnc (Keeps.of_bump (Keeps.of_putSlot (by assumption)))))
      · exact Keeps.of_ev (Keeps.of_lastUnc (Keeps.of_bump (Keeps.of_putSlot (by assumption))))

theorem Keeps.of_boardRead {z : State} {x0 : State} {x1 : ℕ} (h : Keeps z x0) : Keeps z (@State.boardRead x0 x1) := by
  unfold State.boardRead
  split
  · assumption
  · extract_lets v5 v6 v7 v8
    subst v7
    have h65 : Keeps z v5 := Keeps.ite (Keeps.of_toRewrite (Keeps.of_countCorrection (Keeps.of_putSlot (by assumption)))) (by assumption)
    clear_value v5
    have h66 : Keeps z v6 := Keeps.ite (Keeps.of_toRewrite (by assumption)) (by assumption)
    clear_value v6
    have h67 : Keeps z v8 := by
      dsimp only [v8]
      refine Keeps.ite ?_ ?_
      · exact Keeps.ite (Keeps.of_putSlot (by assumption)) (by assumption)
      · refine Keeps.ite ?_ ?_
        · exact Keeps.of_toRewrite (Keeps.of_putSlot (by assumption))
        · refine Keeps.ite ?_ ?_
          · exact Keeps.of_fatalHandling (Keeps.of_delSlot (by assumption))
          · exact Keeps.ite (Keeps.of_delSlot (by assumption)) (Keeps.of_ev (Keeps.of_putSlot (by assumption)))
    clear_value v8
    refine Keeps.foldl ?_ ?_
    · intro a68 a69 h70
      exact Keeps.of_boardWord (by assumption)
    · assumption

theorem Keeps.of_supersede {z : State} {x0 : State} {x1 : ℕ} (h : Keeps z x0) : Keeps z (@State.supersede x0 x1) := by
  unfold State.supersede
  exact Keeps.trans (t := x0) (by assumption) {  }

theorem Keeps.of_flipBoard {z : State} {x0 : State} {x1 : ℕ} {x2 : ℕ} {x3 : List ℕ} (h : Keeps z x0) :
    Keeps z (@State.flipBoard x0 x1 x2 x3) := by
  unfold State.flipBoard
  split
  · extract_lets v9 v10 v11 v12
    subst v9 v10 v11 v12
    exact Keeps.of_flipFired (Keeps.of_putSlot (Keeps.trans (t := x0) (by assumption) { fresh := Nat.le_succ _ }))
  · assumption

theorem Keeps.of_acceptOffer {z : State} {x0 : State} {x1 : ℕ} {x2 : BoardSlot} {x3 : Copy} (h : Keeps z x0) :
    Keeps z (@State.acceptOffer x0 x1 x2 x3) := by
  unfold State.acceptOffer
  extract_lets v0 v1
  subst v1
  have h60 : Keeps z v0 := Keeps.ite (by assumption) (Keeps.of_supersede (by assumption))
  clear_value v0
  exact Keeps.of_count (Keeps.of_flipBoard (Keeps.of_bump (Keeps.of_putSlot (by assumption))))

theorem Keeps.of_onDieReport {z : State} {x0 : State} {x1 : ℕ} {x2 : Sys2Proof.BoardUpset} (h : Keeps z x0) :
    Keeps z (@State.onDieReport x0 x1 x2) := by
  unfold State.onDieReport
  extract_lets v0 v1 v2
  subst v0
  have h60 : Keeps z v1 := Keeps.ite (by assumption) (Keeps.of_bump (by assumption))
  clear_value v1
  have h61 : Keeps z v2 := Keeps.of_bump (by assumption)
  clear_value v2
  exact Keeps.ite (Keeps.of_ev (by assumption)) (by assumption)

theorem Keeps.of_upsetBoard {z : State} {x0 : State} {x1 : ℕ} {x2 : Sys2Proof.BoardUpset} (h : Keeps z x0) :
    Keeps z (@State.upsetBoard x0 x1 x2) := by
  unfold State.upsetBoard
  extract_lets v0
  have h60 : Keeps z v0 := Keeps.of_onDieReport (by assumption)
  clear_value v0
  split
  · assumption
  · exact Keeps.ite (Keeps.of_putSlot (by assumption)) (Keeps.ite (by assumption) (Keeps.of_putSlot (by assumption)))

theorem Keeps.of_declineOffer {z : State} {x0 : State} (h : Keeps z x0) : Keeps z (@State.declineOffer x0) := by
  unfold State.declineOffer
  exact Keeps.of_count (Keeps.of_bump (by assumption))

theorem Keeps.of_toWb {z : State} {x0 : State} {x1 : Copy} {x2 : Bool} {x3 : BitVec 4} (h : Keeps z x0) :
    Keeps z (@State.toWb x0 x1 x2 x3) := by
  unfold State.toWb
  exact Keeps.trans (t := x0) (by assumption) {  }

theorem Keeps.of_merged {z : State} {x0 : State} {x1 : ℕ} {x2 : Sys2Proof.Enables} {x3 : Bool} (h : Keeps z x0) :
    Keeps z (@State.merged x0 x1 x2 x3) := by
  unfold State.merged
  extract_lets v0 v1 v2
  subst v2
  have h60 : Keeps z v0 := Keeps.ite (Keeps.of_unlist (by assumption)) (by assumption)
  clear_value v0
  have h61 : Keeps z v1 := Keeps.ite (Keeps.of_listLine (by assumption)) (by assumption)
  clear_value v1
  refine Keeps.ite ?_ ?_
  · exact Keeps.trans (t := v1) (by assumption) { pfl := (fun k => by simp only [pflOk, Bool.and_eq_true] at k ⊢; simp [k]) }
  · assumption

theorem Keeps.of_startFill {z : State} {x0 : State} {x1 : ℕ} {x2 : Src} {x3 : ℕ} {x4 : ℕ} {x5 : Bool} (h : Keeps z x0) :
    Keeps z (@State.startFill x0 x1 x2 x3 x4 x5) := by
  unfold State.startFill
  refine Keeps.ite ?_ ?_
  · assumption
  · extract_lets v0 v1 v2 v3
    subst v0 v1 v2 v3
    exact Keeps.trans (t := x0) (by assumption) {  }

theorem Keeps.of_evictNear {z : State} {x0 : State} {x1 : ℕ} (h : Keeps z x0) : Keeps z (@State.evictNear x0 x1) := by
  unfold State.evictNear
  extract_lets v0 v1 v2
  subst v1
  have h60 : Keeps z v0 := Keeps.of_nearTags (by assumption)
  clear_value v0
  have h61 : Keeps z v2 := by
    dsimp only [v2]
    exact Keeps.trans (t := v0) (by assumption) { cch := (fun k => by simp only [cchOk, Bool.and_eq_true] at k ⊢; simp [k]) }
  clear_value v2
  split
  · assumption
  · extract_lets v67 v68 v69 v70 v71 v72 v73 v74 v75 v76
    subst v67 v68 v69 v70 v71 v72 v74
    have h127 : Keeps z v73 := by
      dsimp only [v73]
      refine Keeps.foldl ?_ ?_
      · intro a128 a129 h130
        exact Keeps.of_countRefetch (Keeps.of_lastUnc (by assumption))
      · assumption
    clear_value v73
    have h131 : Keeps z v75 := Keeps.trans (t := v73) (by assumption) {  }
    clear_value v75
    have h132 : Keeps z v76 := by
      dsimp only [v76]
      split
      · exact Keeps.of_startFill (by assumption)
      · assumption
    clear_value v76
    refine Keeps.ite ?_ ?_
    · assumption
    · split
      · assumption
      · exact Keeps.of_fatalHandling (Keeps.of_ev (Keeps.of_lastUnc (by assumption)))

theorem Keeps.of_upsetNear {z : State} {x0 : State} {x1 : ℕ} {x2 : Sys2Proof.NearUpset} (h : Keeps z x0) :
    Keeps z (@State.upsetNear x0 x1 x2) := by
  unfold State.upsetNear
  split
  · assumption
  · refine Keeps.ite ?_ ?_
    · assumption
    · extract_lets v5 v6
      subst v5 v6
      exact Keeps.trans (t := x0) (by assumption) { cch := (fun k => by simp only [cchOk, Bool.and_eq_true] at k ⊢; simp [k]) }

theorem Keeps.of_alloc {z : State} {x0 : State} {x1 : ℕ} {x2 : Copy} {x3 : Bool} (h : Keeps z x0) :
    Keeps z (@State.alloc x0 x1 x2 x3) := by
  unfold State.alloc
  extract_lets v0
  have h60 : Keeps z v0 := Keeps.ite (by assumption) (Keeps.of_evictNear (by assumption))
  clear_value v0
  exact Keeps.of_setNear (by assumption)

theorem Keeps.of_holdCommitted {z : State} {x0 : State} {x1 : ℕ} (h : Keeps z x0) :
    Keeps z (@State.holdCommitted x0 x1) := by
  unfold State.holdCommitted
  split
  · assumption
  · extract_lets v5 v6 v7 v8 v9 v10 v11 v12
    subst v5 v6 v10
    have h65 : Keeps z v7 := Keeps.trans (t := x0) (by assumption) {  }
    clear_value v7
    have h66 : Keeps z v8 := Keeps.ite (Keeps.of_dropBoard (by assumption)) (by assumption)
    clear_value v8
    have h67 : Keeps z v9 := Keeps.of_toWb (by assumption)
    clear_value v9
    have h68 : Keeps z v11 := Keeps.trans (t := v9) (by assumption) {  }
    clear_value v11
    have h69 : Keeps z v12 := Keeps.of_alloc (by assumption)
    clear_value v12
    split
    · extract_lets v73 v74
      subst v73 v74
      exact Keeps.of_setNear (by assumption)
    · split
      · exact Keeps.of_setNear (by assumption)
      · assumption

theorem Keeps.of_nearData {z : State} {x0 : State} {x1 : ℕ} {x2 : ℕ} (h : Keeps z x0) :
    Keeps z (@State.nearData x0 x1 x2) := by
  unfold State.nearData
  split
  · assumption
  · split
    · assumption
    · refine Keeps.ite ?_ ?_
      · extract_lets v11 v12
        subst v11 v12
        exact Keeps.of_fatalHandling (Keeps.of_ev (Keeps.of_setReg (Keeps.of_lastUnc (Keeps.of_setNear (by assumption)))))
      · exact Keeps.of_countRefetch (Keeps.of_lastUnc (Keeps.of_setNear (by assumption)))

theorem Keeps.of_offer {z : State} {x0 : State} {x1 : Copy} {x2 : BitVec 4} (h : Keeps z x0) :
    Keeps z (@State.offer x0 x1 x2).1 := by
  unfold State.offer
  extract_lets v0 v1
  subst v0
  have h60 : Keeps z v1 := Keeps.of_boardRead (by assumption)
  clear_value v1
  split
  · exact Keeps.pair (Keeps.of_acceptOffer (by assumption))
  · split
    · split
      · exact Keeps.pair (Keeps.of_declineOffer (by assumption))
      · exact Keeps.pair (Keeps.of_acceptOffer (by assumption))
    · split
      · exact Keeps.pair (Keeps.of_acceptOffer (by assumption))
      · split
        · exact Keeps.pair (Keeps.of_declineOffer (Keeps.of_putSlot (by assumption)))
        · split
          · exact Keeps.pair (Keeps.of_acceptOffer (Keeps.of_toWb (by assumption)))
          · exact Keeps.pair (by assumption)

theorem KeepsRes.of_execBoardOffer {z : State} {x0 : ℕ} {x1 : Offered} {x2 : State} (h : Keeps z x2) :
    KeepsRes z (@execBoardOffer x0 x1 x2) := by
  unfold execBoardOffer
  extract_lets v0
  have h60 : Keeps z v0 := Keeps.of_tick (by assumption)
  clear_value v0
  split
  · exact KeepsRes.next (by assumption)
  · refine KeepsRes.ite ?_ ?_
    · exact KeepsRes.next (by assumption)
    · extract_lets v66 v67 v68
      subst v68
      have h126 : Keeps z v66.1 := Keeps.of_offer (Keeps.of_upsetBoard (by assumption))
      clear_value v66
      subst v67
      refine KeepsRes.next ?_
      split
      · exact Keeps.trans (t := Prod.fst v66) (by assumption) {  }
      · exact Keeps.of_setEvict (by assumption)
      · assumption

theorem Keeps.of_writeNear {z : State} {x0 : State} {x1 : ℕ} {x2 : ℕ} {x3 : Sys2Proof.Line} {x4 : Sys2Proof.Enables} {x5 : Bool} (h : Keeps z x0) :
    Keeps z (@State.writeNear x0 x1 x2 x3 x4 x5) := by
  unfold State.writeNear
  split
  · assumption
  · extract_lets v5 v6 v7 v8
    subst v5 v6 v7 v8
    split
    · extract_lets v70
      subst v70
      exact Keeps.of_flipFired (Keeps.of_setNear (by assumption))
    · exact Keeps.of_setNear (by assumption)

theorem KeepsRes.of_execDirtyAgePush {z : State} {x0 : ℕ} {x1 : Pushed} {x2 : State} (h : Keeps z x2) :
    KeepsRes z (@execDirtyAgePush x0 x1 x2) := by
  unfold execDirtyAgePush
  extract_lets i0 v0 v1
  subst i0 v1
  have h60 : Keeps z v0 := Keeps.of_nearTags (Keeps.of_upsetNear (Keeps.of_tick (by assumption)))
  clear_value v0
  split
  · exact KeepsRes.next (by assumption)
  · split
    · exact KeepsRes.next (by assumption)
    · refine KeepsRes.ite ?_ ?_
      · exact KeepsRes.next (by assumption)
      · extract_lets v71 v72 v73 v74 v75 v76 v77 v78 v79
        subst v71 v73 v75 v76 v78
        have h131 : Keeps z v72 := by
          dsimp only [v72]
          refine Keeps.foldl ?_ ?_
          · intro a132 a133 h134
            exact Keeps.ite (Keeps.of_nearData (by assumption)) (by assumption)
          · assumption
        clear_value v72
        have h135 : Keeps z v74.1 := Keeps.of_offer (Keeps.of_upsetBoard (by assumption))
        clear_value v74
        subst v77
        have h136 : Keeps z v79 := by
          dsimp only [v79]
          apply Keeps.of_count
          exact Keeps.trans (t := Prod.fst v74) (by assumption) { cch := (fun k => by simp only [cchOk, Bool.and_eq_true] at k ⊢; simp [k]) }
        clear_value v79
        refine KeepsRes.ite ?_ ?_
        · exact KeepsRes.next (by assumption)
        · refine KeepsRes.ite ?_ ?_
          · exact KeepsRes.next (by assumption)
          · exact KeepsRes.next (Keeps.ite (Keeps.of_ev (by assumption)) (by assumption))

theorem KeepsRes.of_execBoardSlotRewrite {z : State} {x0 : BitVec 25} {x1 : State} (h : Keeps z x1) :
    KeepsRes z (@execBoardSlotRewrite x0 x1) := by
  unfold execBoardSlotRewrite
  extract_lets v0 v1 v2
  subst v0 v1
  have h60 : Keeps z v2 := Keeps.trans (t := x1) (by assumption) {  }
  clear_value v2
  refine KeepsRes.next ?_
  refine Keeps.ite ?_ ?_
  · split
    · exact Keeps.of_putSlot (by assumption)
    · assumption
  · assumption

end Sys2Proof.Laws
end

