-- ==== Sys2Proof/Laws/KeepsServe.lean ====
section
/-! SUPPORT. One law per operation of the card that says what no operation does (Laws/Keeps.lean): observation, admission, service, epochs and writes home. -/

set_option Elab.async false

namespace Sys2Proof.Laws

open Sys2Proof.Machine Sys2Proof.Safety

theorem Keeps.of_flushRepeats {z s : State} (h : Keeps z s) : Keeps z s.flushRepeats := by
  unfold State.flushRepeats
  refine Keeps.ite h ?_
  split
  · exact Keeps.of_ownRow (h.trans { recd := recdOk_settle })
  · exact h

theorem Keeps.of_closeLine {z : State} {x0 : State} {x1 : Bool} {x2 : Bool} (h : Keeps z x0) :
    Keeps z (@State.closeLine x0 x1 x2) := by
  unfold State.closeLine
  refine Keeps.ite ?_ ?_
  · assumption
  · extract_lets v0 v1 v2
    subst v0 v2
    have h60 : Keeps z v1 := Keeps.ite (Keeps.of_bump (by assumption)) (by assumption)
    clear_value v1
    exact Keeps.trans (t := v1) (by assumption) { tq := (fun k => by simp only [tqOk, Bool.and_eq_true] at k ⊢; simp [k]) }

theorem Keeps.of_releasePending {z : State} {x0 : State} (h : Keeps z x0) : Keeps z (@State.releasePending x0) := by
  unfold State.releasePending
  refine Keeps.foldl ?_ ?_
  · intro a0 a1 h2
    exact Keeps.ite (Keeps.of_sendMsix (Keeps.trans (t := a0) (by assumption) {  })) (by assumption)
  · assumption

theorem KeepsRes.of_execEvtVecUnmask {z : State} {x0 : ℕ} {x1 : Fin 32} {x2 : State} (h : Keeps z x2) :
    KeepsRes z (@execEvtVecUnmask x0 x1 x2) := by
  unfold execEvtVecUnmask
  extract_lets v0 v1 v2
  subst v1 v2
  have h60 : Keeps z v0 := Keeps.of_tick (by assumption)
  clear_value v0
  refine KeepsRes.ite ?_ ?_
  · exact KeepsRes.next (by assumption)
  · exact KeepsRes.next (Keeps.of_releasePending (Keeps.of_setReg (by assumption)))

theorem KeepsRes.of_execTqFlush {z : State} {x0 : State} (h : Keeps z x0) : KeepsRes z (@execTqFlush x0) := by
  unfold execTqFlush
  exact KeepsRes.next (Keeps.ite (by assumption) (Keeps.of_closeLine (by assumption)))

theorem Keeps.of_drainRow {z s : State} (h : Keeps z s) : Keeps z s.drainRow := by
  unfold State.drainRow
  split
  · exact h
  · refine Keeps.of_ownRow (h.trans { recd := fun q => ?_ })
    simp only [recdOk, decide_eq_true_eq] at q ⊢
    exact le_trans (List.length_filter_le _ _) q

theorem Keeps.of_unsupported {z : State} {x0 : State} {x1 : Sys2Proof.Path} {x2 : ℕ} (h : Keeps z x0) :
    Keeps z (@State.unsupported x0 x1 x2) := by
  unfold State.unsupported
  refine Keeps.ite ?_ ?_
  · assumption
  · split
    · assumption
    · exact Keeps.of_reply (by assumption)
    · exact Keeps.of_reply (by assumption)
    · exact Keeps.of_reply (by assumption)

theorem Keeps.of_windowWrite {z : State} {x0 : State} {x1 : Sys2Proof.Window} {x2 : ℕ} {x3 : Sys2Proof.Word64} (h : Keeps z x0) :
    Keeps z (@State.windowWrite x0 x1 x2 x3) := by
  unfold State.windowWrite
  extract_lets v0 v1
  subst v0 v1
  split
  · exact Keeps.trans (t := x0) (by assumption) {  }
  · exact Keeps.trans (t := x0) (by assumption) {  }
  · exact Keeps.trans (t := x0) (by assumption) {  }
  · exact Keeps.trans (t := x0) (by assumption) {  }
  · exact Keeps.trans (t := x0) (by assumption) {  }
  · exact Keeps.trans (t := x0) (by assumption) {  }
  · refine Keeps.ite ?_ ?_
    · exact Keeps.trans (t := x0) (by assumption) { link := (fun k => by simp only [linkOk, Bool.and_eq_true] at k ⊢; simp [k]) }
    · assumption
  · exact Keeps.of_unsupported (by assumption)
  · assumption
  · assumption
  · assumption
  · assumption

theorem KeepsRes.of_execTelemetryTimeout {z : State} {x0 : ℕ} {x1 : State} (h : Keeps z x1) :
    KeepsRes z (@execTelemetryTimeout x0 x1) := by
  unfold execTelemetryTimeout
  extract_lets v0
  have h60 : Keeps z v0 := Keeps.of_tick (by assumption)
  clear_value v0
  split
  · exact KeepsRes.next (by assumption)
  · exact KeepsRes.next (Keeps.ite (Keeps.of_closeLine (by assumption)) (by assumption))

theorem Keeps.of_healthOne {z : State} {x0 : BitVec 24} {x1 : State} {x2 : ℕ} (h : Keeps z x1) :
    Keeps z (@healthOne x0 x1 x2) := by
  unfold healthOne
  exact Keeps.ite (Keeps.of_healthRecord (by assumption)) (by assumption)

theorem KeepsRes.of_execRecorderDrain {z : State} {x0 : State} (h : Keeps z x0) : KeepsRes z (@execRecorderDrain x0) := by
  unfold execRecorderDrain
  exact KeepsRes.next (Keeps.ite (Keeps.of_drainRow (by assumption)) (by assumption))

theorem KeepsRes.of_execEccFlipDisarmWrite {z : State} {x0 : State} (h : Keeps z x0) :
    KeepsRes z (@execEccFlipDisarmWrite x0) := by
  unfold execEccFlipDisarmWrite
  refine KeepsRes.next ?_
  refine Keeps.ite ?_ ?_
  · assumption
  · extract_lets v0
    have h60 : Keeps z v0 := Keeps.of_setReg (by assumption)
    clear_value v0
    exact Keeps.trans (t := v0) (by assumption) {  }

theorem Keeps.of_apertureRead {z : State} {x0 : State} {x1 : ℕ} {x2 : ℕ} {x3 : Bool} (h : Keeps z x0) :
    Keeps z (@State.apertureRead x0 x1 x2 x3) := by
  unfold State.apertureRead
  split
  · exact Keeps.of_out (by assumption)
  · exact Keeps.of_out (Keeps.trans (t := x0) (by assumption) { fresh := Nat.le_succ _ })

theorem KeepsRes.of_execRcRegisterRead {z : State} {x0 : RegAddr} {x1 : ℕ} {x2 : State} (h : Keeps z x2) :
    KeepsRes z (@execRcRegisterRead x0 x1 x2) := by
  unfold execRcRegisterRead
  refine KeepsRes.next ?_
  refine Keeps.ite ?_ ?_
  · assumption
  · split
    · exact Keeps.of_apertureRead (by assumption)
    · exact Keeps.of_out (by assumption)
    · exact Keeps.of_out (by assumption)
    · exact Keeps.of_out (by assumption)
    · exact Keeps.of_out (by assumption)
    · exact Keeps.of_out (by assumption)
    · exact Keeps.of_out (by assumption)
    · exact Keeps.of_out (by assumption)
    · exact Keeps.of_out (by assumption)
    · exact Keeps.of_out (by assumption)
    · exact Keeps.of_out (by assumption)
    · exact Keeps.of_out (Keeps.of_busRead (by assumption))

theorem Keeps.of_flipRegs {z : State} {x0 : State} {x1 : Sys2Proof.FlipIn} (h : Keeps z x0) :
    Keeps z (@State.flipRegs x0 x1) := by
  unfold State.flipRegs
  apply Keeps.of_setReg
  apply Keeps.of_setReg
  apply Keeps.of_setReg
  exact Keeps.of_setReg (Keeps.of_setReg (Keeps.of_setReg (Keeps.of_setReg (Keeps.of_setReg (by assumption)))))

theorem KeepsRes.of_execSetCheckFlipMask {z : State} {x0 : Sys2Proof.Path} {x1 : Sys2Proof.FlipIn} {x2 : State} (h : Keeps z x2) :
    KeepsRes z (@execSetCheckFlipMask x0 x1 x2) := by
  unfold execSetCheckFlipMask
  refine KeepsRes.next ?_
  apply Keeps.of_mailbox
  · intro a0 h1
    refine Keeps.ite ?_ ?_
    · exact Keeps.of_reply (Keeps.of_flipRegs (Keeps.trans (t := a0) (by assumption) {  }))
    · refine Keeps.ite ?_ ?_
      · exact Keeps.of_reply (Keeps.of_flipRegs (Keeps.trans (t := a0) (by assumption) {  }))
      · exact Keeps.of_reply (by assumption)
  · assumption

theorem KeepsRes.of_execEccFlipArmWrite {z : State} {x0 : State} (h : Keeps z x0) :
    KeepsRes z (@execEccFlipArmWrite x0) := by
  unfold execEccFlipArmWrite
  exact KeepsRes.next (Keeps.ite (Keeps.trans (t := x0) (by assumption) {  }) (by assumption))

theorem Keeps.of_dropSample {z : State} {x0 : State} (h : Keeps z x0) : Keeps z (@State.dropSample x0) := by
  unfold State.dropSample
  extract_lets v0 v1 v2 v3
  subst v1 v3
  have h60 : Keeps z v0 := Keeps.of_bump (by assumption)
  clear_value v0
  have h61 : Keeps z v2 := Keeps.trans (t := v0) (by assumption) {  }
  clear_value v2
  exact Keeps.ite (Keeps.of_ev (Keeps.trans (t := v2) (by assumption) {  })) (by assumption)

theorem KeepsRes.of_execPmuCounterWrap {z : State} {t : Nat} {c : Fin 64} {s : State} (h : Keeps z s) :
    KeepsRes z (execPmuCounterWrap t c s) := by
  unfold execPmuCounterWrap
  extract_lets s n p
  have h1 : Keeps z s := Keeps.of_tick h
  exact KeepsRes.ite (KeepsRes.next (Keeps.of_onlyEvents h1 (Keeps.of_raiseAll (Keeps.of_pmuAdd (Keeps.refl s))))) (KeepsRes.next h1)

theorem KeepsRes.of_execRecorderRepeatFlush {z : State} {x0 : State} (h : Keeps z x0) :
    KeepsRes z (@execRecorderRepeatFlush x0) := by
  unfold execRecorderRepeatFlush
  exact KeepsRes.next (Keeps.ite (Keeps.of_flushRepeats (by assumption)) (by assumption))

theorem KeepsRes.of_execClearRecorder {z : State} {x0 : ℕ} {x1 : Sys2Proof.Path} {x2 : State} (h : Keeps z x2) :
    KeepsRes z (@execClearRecorder x0 x1 x2) := by
  unfold execClearRecorder
  refine KeepsRes.next ?_
  apply Keeps.of_mailbox
  · intro a0 h1
    exact Keeps.of_replyAfter (by assumption)
  · exact Keeps.of_tick (by assumption)

theorem Keeps.of_alertOne {z : State} {x0 : List Bool} {x1 : State} {x2 : ℕ} (h : Keeps z x1) :
    Keeps z (@alertOne x0 x1 x2) := by
  unfold alertOne
  exact Keeps.ite (Keeps.of_healthRecord (by assumption)) (by assumption)

theorem KeepsRes.of_execHealthEvaluate {z : State} {x0 : ℕ} {x1 : State} (h : Keeps z x1) :
    KeepsRes z (@execHealthEvaluate x0 x1) := by
  unfold execHealthEvaluate
  extract_lets v0 v1 v2 v3 v4 v5 v6
  subst v1 v2 v4 v5 v6
  have h60 : Keeps z v0 := Keeps.of_tick (by assumption)
  clear_value v0
  have h61 : Keeps z v3 := by
    dsimp only [v3]
    refine Keeps.foldl ?_ ?_
    · intro a62 a63 h64
      exact Keeps.of_alertOne (by assumption)
    · refine Keeps.foldl ?_ ?_
      · intro a65 a66 h67
        exact Keeps.of_healthOne (by assumption)
      · assumption
  clear_value v3
  exact KeepsRes.next (Keeps.trans (t := v3) (by assumption) {  })

theorem KeepsRes.of_execPmuPortWindowEnd {z : State} {x0 : ℕ} {x1 : Fin 22} {x2 : ℕ} {x3 : ℕ} {x4 : State} (h : Keeps z x4) :
    KeepsRes z (@execPmuPortWindowEnd x0 x1 x2 x3 x4) := by
  unfold execPmuPortWindowEnd
  extract_lets v0 v1 v2 v3
  subst v1 v3
  have h60 : Keeps z v0 := Keeps.of_tick (by assumption)
  clear_value v0
  have h61 : Keeps z v2 := Keeps.of_setReg (Keeps.of_setReg (by assumption))
  clear_value v2
  exact KeepsRes.next (Keeps.trans (t := v2) (by assumption) {  })

theorem Keeps.of_levelOne {z : State} {x0 : State × List Ev} {x1 : ℕ} (h : Keeps z x0.1) : Keeps z (@levelOne x0 x1).1 := by
  unfold levelOne
  extract_lets v0 v1 v2
  subst v1 v0
  have h60 : Keeps z v2.1 := Keeps.of_pmuAdd (by assumption)
  clear_value v2
  split
  · exact Keeps.pair (by assumption)
  · assumption

theorem KeepsRes.of_execPmuLevelSample {z s : State} (h : Keeps z s) : KeepsRes z (execPmuLevelSample s) := by
  unfold execPmuLevelSample
  refine KeepsRes.ite ?_ (KeepsRes.next ?_)
  · extract_lets p
    have h1 : Keeps s p.1 := Keeps.foldl_fst (fun a x q => Keeps.of_levelOne q) (Keeps.refl s)
    clear_value p
    refine KeepsRes.next (Keeps.of_onlyEvents h (Keeps.of_raiseAll ?_))
    exact h1.trans { tq := fun q => by simpa only [tqOk] using q }
  · exact h.trans { tq := fun q => by simpa only [tqOk] using q }

theorem Keeps.of_afterWrite {z : State} {x0 : State} {x1 : ℕ} (h : Keeps z x0) : Keeps z (@State.afterWrite x0 x1) := by
  unfold State.afterWrite
  extract_lets v0
  subst v0
  refine Keeps.ite ?_ ?_
  · exact Keeps.of_setReg (by assumption)
  · refine Keeps.ite ?_ ?_
    · exact Keeps.of_setReg (by assumption)
    · refine Keeps.ite ?_ ?_
      · exact Keeps.ite (Keeps.of_setReg (by assumption)) (by assumption)
      · refine Keeps.ite ?_ ?_
        · exact Keeps.ite (Keeps.trans (t := x0) (by assumption) {  }) (by assumption)
        · exact Keeps.ite (Keeps.of_releasePending (by assumption)) (by assumption)

theorem KeepsRes.of_execRegisterWrite {z : State} {x0 : RegAddr} {x1 : ℕ} {x2 : Sys2Proof.Word64} {x3 : State} (h : Keeps z x3) :
    KeepsRes z (@execRegisterWrite x0 x1 x2 x3) := by
  unfold execRegisterWrite
  refine KeepsRes.next ?_
  refine Keeps.ite ?_ ?_
  · assumption
  · refine Keeps.ite ?_ ?_
    · exact Keeps.of_windowWrite (by assumption)
    · exact Keeps.ite (by assumption) (Keeps.of_afterWrite (Keeps.of_busWrite (by assumption)))

theorem Keeps.of_tqWord {z : State} {x0 : State} {x1 : Sys2Proof.Word64} {x2 : ℕ} (h : Keeps z x0) :
    Keeps z (@State.tqWord x0 x1 x2) := by
  unfold State.tqWord
  extract_lets v0 v1 v2
  subst v0 v1
  have h60 : Keeps z v2 := Keeps.trans (t := x0) (by assumption) {  }
  clear_value v2
  exact Keeps.ite (Keeps.of_closeLine (by assumption)) (by assumption)

theorem Keeps.of_placeSample {z : State} {x0 : State} {x1 : Sys2Proof.Word64} {x2 : Sys2Proof.Word64} {x3 : Sys2Proof.Word64} (h : Keeps z x0) :
    Keeps z (@State.placeSample x0 x1 x2 x3) := by
  unfold State.placeSample
  refine Keeps.ite ?_ ?_
  · exact Keeps.of_tqWord (Keeps.of_tqWord (Keeps.of_tqWord (by assumption)))
  · exact Keeps.of_dropSample (by assumption)

theorem Keeps.of_recorderCleared {z s : State} {base : Nat} (h : Keeps z s) : Keeps z (s.recorderCleared base) :=
  Keeps.of_ev (h.trans { recd := fun _ => rfl })

theorem KeepsRes.of_execTqTailWrite {z : State} {x0 : ℕ} {x1 : State} (h : Keeps z x1) :
    KeepsRes z (@execTqTailWrite x0 x1) := by
  unfold execTqTailWrite
  extract_lets v0 v1
  subst v0 v1
  refine KeepsRes.next ?_
  refine Keeps.ite ?_ ?_
  · assumption
  · exact Keeps.trans (t := x1) (by assumption) { tq := (fun k => by simp only [tqOk, Bool.and_eq_true] at k ⊢; simp [k]) }

theorem KeepsRes.of_execReadRecorder {z : State} {x0 : Sys2Proof.Path} {x1 : ℕ} {x2 : ℕ} {x3 : State} (h : Keeps z x3) :
    KeepsRes z (@execReadRecorder x0 x1 x2 x3) := by
  unfold execReadRecorder
  refine KeepsRes.next ?_
  apply Keeps.of_mailbox
  · intro a0 h1
    refine Keeps.ite ?_ ?_
    · exact Keeps.of_reply (by assumption)
    · extract_lets v2 v3
      subst v2 v3
      exact Keeps.of_reply (by assumption)
  · assumption

theorem KeepsRes.of_execPflSuspectClear {z : State} {x0 : Fin 64} {x1 : Sys2Proof.Word64} {x2 : State} (h : Keeps z x2) :
    KeepsRes z (@execPflSuspectClear x0 x1 x2) := by
  unfold execPflSuspectClear
  refine KeepsRes.ite ?_ ?_
  · exact KeepsRes.next (by assumption)
  · extract_lets v0 v1
    subst v0
    have h60 : Keeps z v1 := Keeps.of_setReg (by assumption)
    clear_value v1
    exact KeepsRes.next (Keeps.of_ownRow (by assumption))

theorem Keeps.of_drainAll {z : State} {x0 : State} (h : Keeps z x0) : Keeps z (@State.drainAll x0) := by
  unfold State.drainAll
  refine Keeps.foldl ?_ ?_
  · intro a0 a1 h2
    exact Keeps.of_drainRow (by assumption)
  · assumption

theorem Keeps.of_setCls {z : State} {x0 : State} {x1 : ℕ} {x2 : ClsState} (h : Keeps z x0) :
    Keeps z (@State.setCls x0 x1 x2) := by
  unfold State.setCls
  exact Keeps.trans (t := x0) (by assumption) {  }

theorem Keeps.of_suspendFrom {z : State} {r w : Nat} {l : List Nat} {s : State} (h : Keeps z s) :
    Keeps z (suspendFrom r w l s) := by
  induction l generalizing s with
  | nil => exact h
  | cons n l ih => exact Keeps.ite h (Keeps.ite (ih h) (ih (Keeps.of_ev (Keeps.of_setCls h))))

theorem Keeps.of_recompute {z : State} {x0 : State} (h : Keeps z x0) : Keeps z (@State.recompute x0) := by
  unfold State.recompute
  extract_lets v0 v1 v2 v3 v4 v5 v6 v7 v8 v9
  subst v0 v1 v2 v3 v4 v8 v9
  have h60 : Keeps z v5 := Keeps.trans (t := x0) (by assumption) {  }
  clear_value v5
  have h61 : Keeps z v6 := Keeps.ite (Keeps.of_ev (by assumption)) (by assumption)
  clear_value v6
  have h62 : Keeps z v7 := Keeps.ite (Keeps.of_suspendFrom (by assumption)) (by assumption)
  clear_value v7
  exact Keeps.trans (t := v7) (by assumption) {  }

theorem KeepsRes.of_execGetCardStatusSummary {z : State} {x0 : ℕ} {x1 : Sys2Proof.Path} {x2 : State} (h : Keeps z x2) :
    KeepsRes z (@execGetCardStatusSummary x0 x1 x2) := by
  unfold execGetCardStatusSummary
  refine KeepsRes.next ?_
  apply Keeps.of_mailbox
  · intro a0 h1
    exact Keeps.of_reply (by assumption)
  · exact Keeps.of_tick (by assumption)

theorem Keeps.of_escalateOne {z : State} {x0 : State} {x1 : ℕ} (h : Keeps z x0) : Keeps z (@escalateOne x0 x1) := by
  unfold escalateOne
  extract_lets v0 v1
  subst v0 v1
  exact Keeps.of_setCls (by assumption)

theorem KeepsRes.of_execEscalationEvaluation {z : State} {x0 : ℕ} {x1 : State} (h : Keeps z x1) :
    KeepsRes z (@execEscalationEvaluation x0 x1) := by
  unfold execEscalationEvaluation
  extract_lets v0
  have h60 : Keeps z v0 := Keeps.of_tick (by assumption)
  clear_value v0
  refine KeepsRes.next ?_
  refine Keeps.ite ?_ ?_
  · apply Keeps.of_kick
    refine Keeps.foldl ?_ ?_
    · intro a61 a62 h63
      exact Keeps.of_escalateOne (by assumption)
    · assumption
  · assumption

theorem Keeps.of_restoreFrom {z : State} {r w : Nat} {l : List Nat} {s : State} (h : Keeps z s) :
    Keeps z (restoreFrom r w l s) := by
  induction l generalizing s with
  | nil => exact h
  | cons n l ih => exact Keeps.ite (ih h) (Keeps.ite (ih (Keeps.of_ev (Keeps.of_setCls h))) h)

theorem KeepsRes.of_execRestorationHoldExpiry {z : State} {x0 : ℕ} {x1 : State} (h : Keeps z x1) :
    KeepsRes z (@execRestorationHoldExpiry x0 x1) := by
  unfold execRestorationHoldExpiry
  extract_lets v0 v1 v2
  subst v2
  have h60 : Keeps z v0 := Keeps.of_tick (by assumption)
  clear_value v0
  have h61 : Keeps z v1 := Keeps.of_restoreFrom (by assumption)
  clear_value v1
  split
  · exact KeepsRes.next (by assumption)
  · exact KeepsRes.ite (KeepsRes.next (by assumption)) (KeepsRes.next (Keeps.trans (t := v1) (by assumption) {  }))

theorem KeepsRes.of_execEnvelopeRecompute {z : State} {x0 : ℕ} {x1 : State} (h : Keeps z x1) :
    KeepsRes z (@execEnvelopeRecompute x0 x1) := by
  unfold execEnvelopeRecompute
  exact KeepsRes.next (Keeps.of_recompute (Keeps.of_tick (by assumption)))

theorem KeepsRes.of_execClassWindowClose {z : State} {x0 : ℕ} {x1 : Fin 8} {x2 : State} (h : Keeps z x2) :
    KeepsRes z (@execClassWindowClose x0 x1 x2) := by
  unfold execClassWindowClose
  extract_lets v0 v1 v2 v3 v4 v5 v6 v7 v8 v9 v10
  subst v1 v2 v3 v4 v5 v6 v8
  have h60 : Keeps z v0 := Keeps.of_tick (by assumption)
  clear_value v0
  have h61 : Keeps z v7 := Keeps.of_setReg (Keeps.of_setReg (by assumption))
  clear_value v7
  have h62 : Keeps z v9 := Keeps.of_setCls (by assumption)
  clear_value v9
  have h63 : Keeps z v10 := Keeps.of_bump (by assumption)
  clear_value v10
  refine KeepsRes.ite ?_ ?_
  · exact KeepsRes.next (by assumption)
  · refine KeepsRes.ite ?_ ?_
    · exact KeepsRes.next (Keeps.of_bump (by assumption))
    · refine KeepsRes.ite ?_ ?_
      · exact KeepsRes.next (by assumption)
      · refine KeepsRes.ite ?_ ?_
        · exact KeepsRes.next (by assumption)
        · exact KeepsRes.next (Keeps.of_ev (Keeps.of_setCls (Keeps.of_setReg (by assumption))))

theorem Keeps.of_noteLocked {z : State} {x0 : State} {x1 : ℕ} (h : Keeps z x0) : Keeps z (@State.noteLocked x0 x1) := by
  unfold State.noteLocked
  extract_lets v0 v1
  subst v0 v1
  exact Keeps.ite (Keeps.of_ev (Keeps.trans (t := x0) (by assumption) {  })) (Keeps.trans (t := x0) (by assumption) {  })

theorem Keeps.of_internalOp {z : State} {x0 : ℕ} {x1 : ℕ} {x2 : ℕ} {x3 : Option ℕ} {x4 : State} (h : Keeps z x4) :
    Keeps z (@internalOp x0 x1 x2 x3 x4) := by
  unfold internalOp
  refine Keeps.ite ?_ ?_
  · assumption
  · extract_lets v0 v1 v2
    subst v0 v2
    have h60 : Keeps z v1 := Keeps.of_high (Keeps.of_bump (by assumption))
    clear_value v1
    exact Keeps.of_count (Keeps.trans (t := v1) (by assumption) {  })

theorem Keeps.of_lookupNode {z : State} {x0 : State} {x1 : ℕ} (h : Keeps z x0) : Keeps z (@lookupNode x0 x1) := by
  unfold lookupNode
  extract_lets v0
  subst v0
  exact Keeps.of_keepNode (Keeps.ite (Keeps.of_bump (by assumption)) (Keeps.of_bump (by assumption)))

theorem Keeps.of_nodeLookup {z : State} {x0 : State} {x1 : ℕ} (h : Keeps z x0) : Keeps z (@State.nodeLookup x0 x1) := by
  unfold State.nodeLookup
  refine Keeps.ite ?_ ?_
  · assumption
  · refine Keeps.foldl ?_ ?_
    · intro a0 a1 h2
      exact Keeps.of_lookupNode (by assumption)
    · exact Keeps.of_ctrFetch (by assumption)

theorem Keeps.of_startRecon {z : State} {x0 : State} {x1 : ℕ} {x2 : ℕ} {x3 : ℕ} (h : Keeps z x0) :
    Keeps z (@State.startRecon x0 x1 x2 x3) := by
  unfold State.startRecon
  extract_lets v0 v1
  subst v1
  have h60 : Keeps z v0 := Keeps.of_startFill (by assumption)
  clear_value v0
  exact Keeps.trans (t := v0) (by assumption) {  }

theorem Keeps.of_judgeAllow {z : State} {x0 : State} {x1 : ℕ} (h : Keeps z x0) : Keeps z (@State.judgeAllow x0 x1) := by
  unfold State.judgeAllow
  extract_lets v0 v1
  subst v0 v1
  exact Keeps.ite (Keeps.of_ev (Keeps.trans (t := x0) (by assumption) {  })) (by assumption)

theorem Keeps.of_spendAllow {z : State} {x0 : State} {x1 : ℕ} (h : Keeps z x0) : Keeps z (@State.spendAllow x0 x1) := by
  unfold State.spendAllow
  extract_lets v0 v1
  subst v0 v1
  exact Keeps.trans (t := x0) (by assumption) {  }

theorem Keeps.of_startMedium {z : State} {x0 : State} {x1 : ℕ} {x2 : ℕ} {x3 : ℕ} {x4 : ℕ} (h : Keeps z x0) :
    Keeps z (@State.startMedium x0 x1 x2 x3 x4) := by
  unfold State.startMedium
  extract_lets v0 v1 v2
  subst v1 v2
  have h60 : Keeps z v0 := Keeps.of_nodeLookup (by assumption)
  split
  · exact Keeps.of_startFill (by assumption)
  · extract_lets v67 v68 v69 v70 v71 v72
    subst v67 v70 v71 v72
    have h127 : Keeps z v68 := by
      dsimp only [v68]
      split
      · exact Keeps.ite (Keeps.of_bump (by assumption)) (by assumption)
      · assumption
    have h133 : Keeps z v69 := Keeps.of_touch (by assumption)
    refine Keeps.ite ?_ ?_
    · exact Keeps.of_startRecon (by assumption)
    · refine Keeps.ite ?_ ?_
      · apply Keeps.of_judgeAllow
        refine Keeps.ite ?_ ?_
        · exact Keeps.of_startFill (Keeps.of_count (Keeps.of_bump (Keeps.of_spendAllow (by assumption))))
        · exact Keeps.of_startFill (Keeps.of_bump (by assumption))
      · exact Keeps.of_judgeAllow (Keeps.of_startFill (by assumption))

theorem Keeps.of_fillFrom {z : State} {x0 : State} {x1 : ℕ} {x2 : Src} {x3 : ℕ} {x4 : ℕ} {x5 : ℕ} (h : Keeps z x0) :
    Keeps z (@State.fillFrom x0 x1 x2 x3 x4 x5) := by
  unfold State.fillFrom
  split
  · exact Keeps.ite (Keeps.of_startMedium (by assumption)) (Keeps.of_startFill (by assumption))
  · exact Keeps.ite (Keeps.of_startMedium (by assumption)) (Keeps.of_startFill (by assumption))
  · exact Keeps.ite (Keeps.of_startMedium (by assumption)) (Keeps.of_startFill (by assumption))
  · exact Keeps.of_startMedium (by assumption)

theorem Keeps.of_raiseBoard {z : State} {x0 : State} {x1 : ℕ} (h : Keeps z x0) : Keeps z (@State.raiseBoard x0 x1) := by
  unfold State.raiseBoard
  split
  · exact Keeps.of_setBoard (by assumption)
  · assumption

theorem Keeps.of_boardHit {z : State} {x0 : State} (h : Keeps z x0) : Keeps z (@State.boardHit x0) := by
  unfold State.boardHit
  exact Keeps.of_count (Keeps.of_bump (by assumption))

theorem Keeps.of_sampleReq {z : State} {x0 : State} {x1 : Req} {x2 : Src} {x3 : ℕ} (h : Keeps z x0) :
    Keeps z (@State.sampleReq x0 x1 x2 x3) := by
  unfold State.sampleReq
  extract_lets v0 v1 v2 v3 v4 v5
  subst v0 v1 v2 v3 v4 v5
  refine Keeps.ite ?_ ?_
  · assumption
  · refine Keeps.ite ?_ ?_
    · exact Keeps.trans (t := x0) (by assumption) {  }
    · exact Keeps.of_placeSample (Keeps.trans (t := x0) (by assumption) { fresh := Nat.le_succ _ })

theorem Keeps.of_complete {z : State} {x0 : State} {x1 : Req} {x2 : Src} {x3 : ℕ} (h : Keeps z x0) :
    Keeps z (@State.complete x0 x1 x2 x3) := by
  unfold State.complete
  extract_lets v0 v1 v2 v3 v4 v5 v6 v7 v8
  subst v0 v2 v5 v7
  have h60 : Keeps z v1 := Keeps.of_setCls (by assumption)
  clear_value v1
  have h61 : Keeps z v3 := Keeps.trans (t := v1) (by assumption) {  }
  clear_value v3
  have h62 : Keeps z v4 := Keeps.of_bump (by assumption)
  clear_value v4
  have h63 : Keeps z v6 := Keeps.of_bump (by assumption)
  clear_value v6
  have h64 : Keeps z v8 := by
    dsimp only [v8]
    refine Keeps.ite ?_ ?_
    · exact Keeps.of_count (Keeps.trans (t := v4) (by assumption) {  })
    · exact Keeps.of_count (Keeps.of_count (Keeps.trans (t := v6) (by assumption) {  }))
  clear_value v8
  exact Keeps.of_sampleReq (by assumption)

theorem Keeps.of_answer {z : State} {x0 : State} {x1 : Req} {x2 : Sys2Proof.Line} {x3 : Bool} {x4 : Src} {x5 : ℕ} (h : Keeps z x0) :
    Keeps z (@State.answer x0 x1 x2 x3 x4 x5) := by
  unfold State.answer
  extract_lets v0
  subst v0
  exact Keeps.of_out (Keeps.of_complete (by assumption))

theorem Keeps.of_waitFill {z : State} {x0 : State} {x1 : Req} {x2 : Src} {x3 : Sys2Proof.Line} {x4 : Sys2Proof.Enables} (h : Keeps z x0) :
    Keeps z (@State.waitFill x0 x1 x2 x3 x4) := by
  unfold State.waitFill
  exact Keeps.trans (t := x0) (by assumption) {  }

theorem Keeps.of_boardMiss {z : State} {x0 : State} (h : Keeps z x0) : Keeps z (@State.boardMiss x0) := by
  unfold State.boardMiss
  exact Keeps.of_count (Keeps.of_bump (by assumption))

theorem Keeps.of_readBelow {z : State} {x0 : State} {x1 : Req} {x2 : ℕ} {x3 : Bool} (h : Keeps z x0) :
    Keeps z (@State.readBelow x0 x1 x2 x3) := by
  unfold State.readBelow
  extract_lets v0 v1 v2 v3 v4 v5 v6 v7 v8
  subst v0 v1 v3 v4
  have h60 : Keeps z v2 := Keeps.of_boardRead (by assumption)
  clear_value v2
  have h61 : Keeps z v5 := Keeps.of_fillFrom (Keeps.of_alloc (Keeps.of_raiseBoard (Keeps.of_boardHit (by assumption))))
  clear_value v5
  have h62 : Keeps z v6 := Keeps.of_fillFrom (Keeps.of_alloc (Keeps.of_boardMiss (by assumption)))
  clear_value v6
  have h63 : Keeps z v7 := Keeps.of_losePoison (Keeps.of_boardMiss (by assumption))
  clear_value v7
  have h64 : Keeps z v8 := Keeps.of_startMedium (Keeps.of_alloc (Keeps.of_boardMiss (by assumption)))
  clear_value v8
  split
  · exact Keeps.ite (Keeps.of_answer (by assumption)) (Keeps.of_waitFill (by assumption))
  · exact Keeps.of_answer (Keeps.of_boardHit (by assumption))
  · exact Keeps.of_answer (Keeps.of_boardMiss (by assumption))
  · exact Keeps.ite (Keeps.of_answer (by assumption)) (Keeps.of_waitFill (by assumption))
  · refine Keeps.ite ?_ ?_
    · exact Keeps.of_answer (Keeps.trans (t := v7) (by assumption) { fresh := Nat.le_succ _ })
    · exact Keeps.of_waitFill (by assumption)

theorem Keeps.of_wakeGddr {z : State} {x0 : State} (h : Keeps z x0) : Keeps z (@State.wakeGddr x0) := by
  unfold State.wakeGddr
  exact Keeps.ite (Keeps.trans (t := x0) (by assumption) {  }) (by assumption)

theorem Keeps.of_noteFro {z : State} {x0 : State} (h : Keeps z x0) : Keeps z (@State.noteFro x0) := by
  unfold State.noteFro
  extract_lets v0 v1 v2
  subst v0 v2
  have h60 : Keeps z v1 := Keeps.of_bump (by assumption)
  clear_value v1
  exact Keeps.ite (Keeps.of_ev (Keeps.trans (t := v1) (by assumption) {  })) (Keeps.trans (t := v1) (by assumption) {  })

theorem Keeps.of_discard {z : State} {x0 : State} {x1 : Req} {x2 : Bool} (h : Keeps z x0) :
    Keeps z (@State.discard x0 x1 x2) := by
  unfold State.discard
  exact Keeps.of_out (Keeps.of_complete (by assumption))

theorem Keeps.of_mapLookup {z : State} {x0 : State} {x1 : ℕ} (h : Keeps z x0) : Keeps z (@State.mapLookup x0 x1).1 := by
  unfold State.mapLookup
  extract_lets v0 v1 v2 v3
  subst v0 v1 v2
  have h60 : Keeps z v3 := by
    dsimp only [v3]
    exact Keeps.trans (t := x0) (by assumption) { map := (fun k => by simp only [mapOk, Bool.and_eq_true] at k ⊢; simp [k]) }
  clear_value v3
  split
  · exact Keeps.pair (Keeps.of_bump (by assumption))
  · exact Keeps.pair (Keeps.of_count (Keeps.of_bump (by assumption)))

theorem Keeps.of_notePending {z : State} {x0 : State} (h : Keeps z x0) : Keeps z (@State.notePending x0) := by
  unfold State.notePending
  extract_lets v0 v1 v2
  subst v0 v2
  have h60 : Keeps z v1 := Keeps.of_bump (by assumption)
  clear_value v1
  exact Keeps.ite (Keeps.of_ev (Keeps.trans (t := v1) (by assumption) {  })) (Keeps.trans (t := v1) (by assumption) {  })

theorem Keeps.of_raiseNear {z : State} {x0 : State} {x1 : ℕ} (h : Keeps z x0) : Keeps z (@State.raiseNear x0 x1) := by
  unfold State.raiseNear
  split
  · exact Keeps.of_setNear (by assumption)
  · assumption

theorem Keeps.of_nearHit {z : State} {x0 : State} (h : Keeps z x0) : Keeps z (@State.nearHit x0) := by
  unfold State.nearHit
  exact Keeps.of_count (Keeps.of_bump (by assumption))

theorem Keeps.of_nearMiss {z : State} {x0 : State} (h : Keeps z x0) : Keeps z (@State.nearMiss x0) := by
  unfold State.nearMiss
  exact Keeps.of_count (Keeps.of_bump (by assumption))

theorem Keeps.of_mergeWrite {z : State} {x0 : State} {x1 : Req} {x2 : ℕ} (h : Keeps z x0) :
    Keeps z (@State.mergeWrite x0 x1 x2) := by
  unfold State.mergeWrite
  extract_lets v0 v1 v2 v3 v4 v5
  subst v0 v1 v5
  have h60 : Keeps z v2 := Keeps.ite (Keeps.of_holdCommitted (by assumption)) (by assumption)
  clear_value v2
  have h61 : Keeps z v4 := Keeps.of_boardRead (Keeps.of_nearMiss (by assumption))
  clear_value v4
  split
  · dsimp only [v3]
    exact Keeps.of_writeNear (Keeps.of_raiseNear (Keeps.of_nearHit (by assumption)))
  · exact Keeps.of_setEvict (Keeps.of_nearHit (by assumption))
  · split
    · dsimp only [v3]
      apply Keeps.of_writeNear
      exact Keeps.of_fillFrom (Keeps.of_alloc (Keeps.of_raiseBoard (Keeps.of_boardHit (by assumption))))
    · split
      · exact Keeps.of_setWb (Keeps.of_boardHit (by assumption))
      · assumption
    · dsimp only [v3]
      exact Keeps.of_writeNear (Keeps.of_alloc (Keeps.of_boardMiss (by assumption)))
    · dsimp only [v3]
      exact Keeps.of_writeNear (Keeps.of_fillFrom (Keeps.of_alloc (Keeps.of_boardMiss (by assumption))))

theorem Keeps.of_unclean {z : State} {x0 : State} (h : Keeps z x0) : Keeps z (@State.unclean x0) := by
  unfold State.unclean
  refine Keeps.ite ?_ ?_
  · extract_lets v0 v1
    subst v0
    have h60 : Keeps z v1 := Keeps.trans (t := x0) (by assumption) {  }
    clear_value v1
    exact Keeps.of_ownRow (by assumption)
  · assumption

theorem Keeps.of_judgeWriteback {z : State} {x0 : State} (h : Keeps z x0) : Keeps z (@State.judgeWriteback x0) := by
  unfold State.judgeWriteback
  extract_lets v0 v1 v2
  subst v0 v1 v2
  exact Keeps.trans (t := x0) (by assumption) {  }

theorem Keeps.of_serveWrite {z : State} {x0 : State} {x1 : Req} (h : Keeps z x0) : Keeps z (@State.serveWrite x0 x1) := by
  unfold State.serveWrite
  extract_lets v0 v1 v2 v3 v4 v5 v6 v7
  subst v0 v4 v5 v6 v7
  have h60 : Keeps z v1 := Keeps.of_nearTags (Keeps.of_mapLookup (by assumption))
  clear_value v1
  have h61 : Keeps z v2 := Keeps.of_merged (Keeps.of_mergeWrite (Keeps.of_unclean (by assumption)))
  clear_value v2
  have h62 : Keeps z v3 := Keeps.ite (Keeps.of_reportRas (by assumption)) (by assumption)
  clear_value v3
  refine Keeps.ite ?_ ?_
  · assumption
  · refine Keeps.ite ?_ ?_
    · exact Keeps.of_discard (Keeps.of_noteLocked (by assumption))
    · refine Keeps.ite ?_ ?_
      · exact Keeps.of_discard (Keeps.of_noteFro (by assumption))
      · refine Keeps.ite ?_ ?_
        · exact Keeps.of_discard (Keeps.of_notePending (by assumption))
        · exact Keeps.of_judgeWriteback (Keeps.trans (t := v3) (by assumption) {  })

theorem Keeps.of_serveRead {z : State} {x0 : State} {x1 : Req} (h : Keeps z x0) : Keeps z (@State.serveRead x0 x1) := by
  unfold State.serveRead
  extract_lets v0 v1 v2 v3 v4 v5 v6 v7
  subst v0 v1 v2 v6
  have h60 : Keeps z v3.1 := Keeps.of_mapLookup (by assumption)
  clear_value v3
  subst v4
  have h61 : Keeps z v5 := Keeps.of_nearData (Keeps.of_nearTags (by assumption))
  clear_value v5
  have h62 : Keeps z v7 := Keeps.ite (by assumption) (Keeps.of_fillFrom (by assumption))
  clear_value v7
  refine Keeps.ite ?_ ?_
  · exact Keeps.of_answer (by assumption)
  · refine Keeps.ite ?_ ?_
    · exact Keeps.of_answer (Keeps.trans (t := Prod.fst v3) (by assumption) { fresh := Nat.le_succ _ })
    · refine Keeps.ite ?_ ?_
      · assumption
      · split
        · extract_lets v67
          subst v67
          refine Keeps.ite ?_ ?_
          · exact Keeps.of_answer (Keeps.of_raiseNear (Keeps.of_nearHit (by assumption)))
          · exact Keeps.of_waitFill (Keeps.of_raiseNear (Keeps.of_nearHit (by assumption)))
        · refine Keeps.ite ?_ ?_
          · exact Keeps.of_waitFill (Keeps.of_nearHit (by assumption))
          · exact Keeps.of_answer (Keeps.of_nearHit (by assumption))
        · exact Keeps.of_readBelow (Keeps.of_nearMiss (by assumption))

theorem Keeps.of_takeIn {z : State} {x0 : State} {x1 : Req} (h : Keeps z x0) : Keeps z (@State.takeIn x0 x1) := by
  unfold State.takeIn
  extract_lets v0
  have h60 : Keeps z v0 := Keeps.of_count (Keeps.of_high (by assumption))
  clear_value v0
  exact Keeps.ite (Keeps.of_serveWrite (by assumption)) (Keeps.of_serveRead (by assumption))

theorem Keeps.of_hold {z : State} {x0 : State} {x1 : Req} (h : Keeps z x0) : Keeps z (@State.hold x0 x1) := by
  unfold State.hold
  extract_lets v0 v1 v2 v3 v4 v5 v6 v7
  subst v0 v2 v3 v4 v7
  have h60 : Keeps z v1 := Keeps.of_count (Keeps.trans (t := x0) (by assumption) {  })
  clear_value v1
  have h61 : Keeps z v5 := Keeps.of_bump (by assumption)
  clear_value v5
  have h62 : Keeps z v6 := Keeps.ite (Keeps.trans (t := v5) (by assumption) {  }) (by assumption)
  clear_value v6
  exact Keeps.ite (Keeps.trans (t := v6) (by assumption) {  }) (by assumption)

theorem Keeps.of_judgePause {z : State} {x0 : State} (h : Keeps z x0) : Keeps z (@State.judgePause x0) := by
  unfold State.judgePause
  split
  · assumption
  · refine Keeps.ite ?_ ?_
    · assumption
    · extract_lets v6 v7
      subst v6
      have h66 : Keeps z v7 := Keeps.trans (t := x0) (by assumption) {  }
      clear_value v7
      exact Keeps.ite (by assumption) (Keeps.of_ev (Keeps.of_high (Keeps.of_bump (by assumption))))

theorem Keeps.of_noteUnclaimed {z : State} {x0 : State} {x1 : ℕ} {x2 : Bool} (h : Keeps z x0) :
    Keeps z (@State.noteUnclaimed x0 x1 x2) := by
  unfold State.noteUnclaimed
  extract_lets v0 v1
  subst v0 v1
  exact Keeps.ite (Keeps.of_ev (Keeps.trans (t := x0) (by assumption) {  })) (Keeps.trans (t := x0) (by assumption) {  })

theorem Keeps.of_noteEarly {z : State} {x0 : State} (h : Keeps z x0) : Keeps z (@State.noteEarly x0) := by
  unfold State.noteEarly
  extract_lets v0 v1
  subst v0 v1
  exact Keeps.ite (Keeps.of_ev (Keeps.trans (t := x0) (by assumption) {  })) (Keeps.trans (t := x0) (by assumption) {  })

theorem Keeps.of_dropShadow {z : State} {x0 : State} {x1 : ℕ} (h : Keeps z x0) : Keeps z (@State.dropShadow x0 x1) := by
  unfold State.dropShadow
  split
  · assumption
  · extract_lets v5 v6 v7 v8
    subst v5 v6 v8
    have h65 : Keeps z v7 := by
      dsimp only [v7]
      exact Keeps.trans (t := x0) (by assumption) { ring := (fun k => by simp only [ringOk, Bool.and_eq_true] at k ⊢; simp [k]) }
    clear_value v7
    exact Keeps.of_freeIfEmpty (Keeps.of_mapChange (by assumption))

theorem Keeps.of_closeShadows {z : State} {x0 : State} {x1 : ℕ} (h : Keeps z x0) : Keeps z (@State.closeShadows x0 x1) := by
  unfold State.closeShadows
  exact Keeps.trans (t := x0) (by assumption) { map := (fun k => by simp only [mapOk, Bool.and_eq_true] at k ⊢; simp [k]) }

theorem Keeps.of_dropDumped {z : State} {x0 : State} {x1 : BitVec 2 → Bool} (h : Keeps z x0) :
    Keeps z (@State.dropDumped x0 x1) := by
  unfold State.dropDumped
  extract_lets v0 v1
  subst v0 v1
  exact Keeps.trans (t := x0) (by assumption) { pfl := (fun k => by simp only [pflOk, Bool.and_eq_true] at k ⊢; simp [k, wf_foldl_fill, Map.retain]) }

theorem Keeps.of_dropCached {z : State} {x0 : State} {x1 : Copy → Bool} (h : Keeps z x0) :
    Keeps z (@State.dropCached x0 x1) := by
  unfold State.dropCached
  exact Keeps.trans (t := x0) (by assumption) { cch := (fun k => by simp only [cchOk, Bool.and_eq_true] at k ⊢; simp [k]) }

theorem Keeps.of_takeEpoch {z : State} {x0 : State} {x1 : ℕ} (h : Keeps z x0) : Keeps z (@State.takeEpoch x0 x1) := by
  unfold State.takeEpoch
  extract_lets v0 v1 v2 v3 v4 v5 v6
  subst v0 v1 v4 v5
  have h60 : Keeps z v2 := Keeps.trans (t := x0) (by assumption) {  }
  clear_value v2
  have h61 : Keeps z v3 := by
    dsimp only [v3]
    refine Keeps.foldl ?_ ?_
    · intro a62 a63 h64
      exact Keeps.of_dropShadow (by assumption)
    · assumption
  clear_value v3
  have h65 : Keeps z v6 := by
    dsimp only [v6]
    exact Keeps.trans (t := v3) (by assumption) { map := (fun k => by simp only [mapOk, Bool.and_eq_true] at k ⊢; simp [k]) }
  clear_value v6
  exact Keeps.of_closeShadows (Keeps.of_dropDumped (Keeps.of_dropCached (by assumption)))

theorem Keeps.of_markSuspect {z : State} {x0 : State} {x1 : Sys2Proof.ExtentEntry → Bool} (h : Keeps z x0) :
    Keeps z (@State.markSuspect x0 x1) := by
  unfold State.markSuspect
  extract_lets v0 v1
  subst v0
  have h60 : Keeps z v1 := by
    dsimp only [v1]
    refine Keeps.foldl ?_ ?_
    · intro a61 a62 h63
      exact Keeps.ite (Keeps.of_setReg (by assumption)) (by assumption)
    · assumption
  clear_value v1
  exact Keeps.ite (by assumption) (Keeps.of_ownRow (Keeps.of_ownRow (by assumption)))

theorem Keeps.of_judgeOwn {z : State} {x0 : State} {x1 : ℕ} (h : Keeps z x0) : Keeps z (@State.judgeOwn x0 x1) := by
  unfold State.judgeOwn
  extract_lets v0 v1 v2
  subst v0 v1 v2
  exact Keeps.ite (by assumption) (Keeps.ite (Keeps.of_markSuspect (Keeps.of_ev (by assumption))) (by assumption))

theorem Keeps.of_forward {z : State} {x0 : State} {x1 : Sys2Proof.FrameHead} {x2 : FrameType} {x3 : ℕ} {x4 : ℕ} (h : Keeps z x0) :
    Keeps z (@State.forward x0 x1 x2 x3 x4) := by
  unfold State.forward
  exact Keeps.of_out (by assumption)

theorem Keeps.of_endPending {z : State} {x0 : State} {x1 : Bool} (h : Keeps z x0) : Keeps z (@State.endPending x0 x1) := by
  unfold State.endPending
  exact Keeps.ite (Keeps.of_interrupt (by assumption)) (by assumption)

theorem Keeps.of_recoverCommit {z : State} {x0 : State} {x1 : ℕ} (h : Keeps z x0) :
    Keeps z (@State.recoverCommit x0 x1) := by
  unfold State.recoverCommit
  extract_lets v0
  subst v0
  exact Keeps.of_endPending (Keeps.of_ev (Keeps.of_takeEpoch (Keeps.of_judgeOwn (by assumption))))

theorem Keeps.of_commitEpoch {z : State} {x0 : State} {x1 : ℕ} (h : Keeps z x0) : Keeps z (@State.commitEpoch x0 x1) := by
  unfold State.commitEpoch
  exact Keeps.of_closeShadows (Keeps.trans (t := x0) (by assumption) {  })

theorem Keeps.of_send {z : State} {x0 : State} {x1 : Sys2Proof.FrameHead} {x2 : FrameType} {x3 : ℕ} {x4 : ℕ} (h : Keeps z x0) :
    Keeps z (@State.send x0 x1 x2 x3 x4) := by
  unfold State.send
  refine Keeps.ite ?_ ?_
  · extract_lets v0 v1
    subst v0 v1
    exact Keeps.of_out (Keeps.trans (t := x0) (by assumption) {  })
  · assumption

theorem Keeps.of_beginClose {z : State} {x0 : State} {x1 : ℕ} (h : Keeps z x0) : Keeps z (@State.beginClose x0 x1) := by
  unfold State.beginClose
  exact Keeps.trans (t := x0) (by assumption) {  }

theorem Keeps.of_sendLap1 {z : State} {x0 : State} {x1 : ℕ} (h : Keeps z x0) : Keeps z (@State.sendLap1 x0 x1) := by
  unfold State.sendLap1
  exact Keeps.of_send (by assumption)

theorem Keeps.of_epochDrained {z : State} {x0 : State} (h : Keeps z x0) : Keeps z (@State.epochDrained x0) := by
  unfold State.epochDrained
  split
  · assumption
  · refine Keeps.ite ?_ ?_
    · extract_lets v5 v6
      subst v5
      have h65 : Keeps z v6 := Keeps.trans (t := x0) (by assumption) {  }
      clear_value v6
      exact Keeps.ite (Keeps.of_sendLap1 (by assumption)) (by assumption)
    · assumption

theorem Keeps.of_receive {z : State} {x0 : State} {x1 : Sys2Proof.FrameHead} {x2 : FrameType} {x3 : ℕ} {x4 : ℕ} {x5 : State → State} (hr5 : ∀ a, Keeps z a → Keeps z (x5 a)) (h : Keeps z x0) :
    Keeps z (@State.receive x0 x1 x2 x3 x4 x5) := by
  unfold State.receive
  refine Keeps.ite ?_ ?_
  · assumption
  · refine Keeps.ite ?_ ?_
    · exact Keeps.of_forward (Keeps.of_bump (by assumption))
    · exact Keeps.ite (Keeps.of_forward (by assumption)) (hr5 _ (by assumption))

theorem Keeps.of_recoverBack {z : State} {x0 : State} {x1 : ℕ} (h : Keeps z x0) : Keeps z (@State.recoverBack x0 x1) := by
  unfold State.recoverBack
  extract_lets v0 v1 v2
  subst v0 v1 v2
  exact Keeps.of_endPending (Keeps.of_ev (Keeps.of_takeEpoch (Keeps.of_judgeOwn (by assumption))))

theorem Keeps.of_enterPending {z : State} {x0 : State} {x1 : ℕ} (h : Keeps z x0) : Keeps z (@State.enterPending x0 x1) := by
  unfold State.enterPending
  refine Keeps.ite ?_ ?_
  · assumption
  · extract_lets v0 v1
    subst v0 v1
    exact Keeps.of_interrupt (Keeps.of_ev (Keeps.trans (t := x0) (by assumption) {  }))

theorem Keeps.of_judgeEpoch {z : State} {x0 : State} (h : Keeps z x0) : Keeps z (@State.judgeEpoch x0) := by
  unfold State.judgeEpoch
  extract_lets v0 v1
  subst v0 v1
  refine Keeps.ite ?_ ?_
  · exact Keeps.of_takeEpoch (by assumption)
  · split
    · exact Keeps.of_takeEpoch (Keeps.of_judgeOwn (by assumption))
    · exact Keeps.ite (Keeps.of_recoverCommit (Keeps.of_send (by assumption))) (by assumption)
    · exact Keeps.ite (Keeps.of_recoverBack (Keeps.of_send (by assumption))) (by assumption)
    · exact Keeps.of_enterPending (by assumption)

theorem Keeps.of_mendSector {z : State} {x0 : State} {x1 : Loc × ℕ} (h : Keeps z x0) :
    Keeps z (@State.mendSector x0 x1) := by
  unfold State.mendSector
  split
  · exact Keeps.trans (t := x0) (by assumption) { med := (fun k => by simp only [medOk, Bool.and_eq_true] at k ⊢; simp [k]) }
  · assumption

theorem Keeps.of_issueWb {z : State} {x0 : State} {x1 : List Copy} (h : Keeps z x0) : Keeps z (@State.issueWb x0 x1) := by
  unfold State.issueWb
  exact Keeps.trans (t := x0) (by assumption) {  }

theorem Keeps.of_wroteLedger {z : State} {x0 : State} {x1 : ℕ} (h : Keeps z x0) : Keeps z (@State.wroteLedger x0 x1) := by
  unfold State.wroteLedger
  exact Keeps.of_setDie (by assumption)

theorem Keeps.of_readStripe {z : State} {x0 : Loc} {x1 : List ℕ} {x2 : List ℕ} {x3 : State} {x4 : ℕ} (h : Keeps z x3) :
    Keeps z (@State.readStripe x0 x1 x2 x3 x4) := by
  unfold State.readStripe
  extract_lets v0 v1 v2 v3 v4
  subst v0 v2 v3 v4
  refine Keeps.foldl ?_ ?_
  · intro a60 a61 h62
    exact Keeps.ite (by assumption) (Keeps.of_sense (by assumption))
  · assumption

theorem Keeps.of_endUpdates {z : State} {x0 : State} (h : Keeps z x0) : Keeps z (@State.endUpdates x0) := by
  unfold State.endUpdates
  extract_lets v0 v1
  subst v0 v1
  refine Keeps.foldl ?_ ?_
  · intro a60 a61 h62
    split
    · exact Keeps.ite (Keeps.of_commitHome (by assumption)) (by assumption)
    · assumption
  · exact Keeps.trans (t := x0) (by assumption) {  }

theorem Keeps.of_startUpdate {z : State} {x0 : State} {x1 : ℕ} {x2 : Loc} {x3 : List ℕ} {x4 : List ℕ} (h : Keeps z x0) :
    Keeps z (@State.startUpdate x0 x1 x2 x3 x4) := by
  unfold State.startUpdate
  extract_lets v0 v1 v2 v3 v4
  subst v0 v1 v3 v4
  have h60 : Keeps z v2 := by
    dsimp only [v2]
    refine Keeps.foldl ?_ ?_
    · intro a61 a62 h63
      exact Keeps.of_readStripe (by assumption)
    · assumption
  clear_value v2
  exact Keeps.of_kick (Keeps.of_endUpdates (Keeps.trans (t := v2) (by assumption) {  }))

theorem Keeps.of_moveBead {z : State} {x0 : State} {x1 : ℕ} {x2 : ℕ} {x3 : Loc} {x4 : Loc} (h : Keeps z x0) :
    Keeps z (@State.moveBead x0 x1 x2 x3 x4) := by
  unfold State.moveBead
  exact Keeps.of_startUpdate (Keeps.of_setHome (Keeps.of_copyFolio (by assumption)))

theorem Keeps.of_slotDrained {z : State} {x0 : State} (h : Keeps z x0) : Keeps z (@State.slotDrained x0) := by
  unfold State.slotDrained
  split
  · assumption
  · extract_lets v5 v6 v7
    subst v5 v7
    have h65 : Keeps z v6 := Keeps.of_setSlotD (by assumption)
    clear_value v6
    refine Keeps.ite ?_ ?_
    · apply Keeps.of_ev
      exact Keeps.trans (t := v6) (by assumption) { pfl := (fun k => by simp only [pflOk, Bool.and_eq_true] at k ⊢; simp [k]) }
    · assumption

theorem Keeps.of_mendStripe {z : State} {x0 : Loc} {x1 : State} {x2 : ℕ} (h : Keeps z x1) :
    Keeps z (@State.mendStripe x0 x1 x2) := by
  unfold State.mendStripe
  extract_lets v0 v1 v2 v3 v4 v5 v6
  subst v0 v1 v2 v3 v4
  have h60 : Keeps z v5 := by
    dsimp only [v5]
    refine Keeps.foldl ?_ ?_
    · intro a61 a62 h63
      exact Keeps.ite (by assumption) (Keeps.of_sense (by assumption))
    · exact Keeps.trans (t := x1) (by assumption) {  }
  clear_value v5
  refine Keeps.ite ?_ ?_
  · assumption
  · split
    · assumption
    · apply Keeps.of_ev
      dsimp only [v6]
      exact Keeps.trans (t := v5) (by assumption) {  }
    · exact Keeps.of_ev (Keeps.of_mendSector (by assumption))
    · dsimp only [v6]
      refine Keeps.trans (t := List.foldl (fun s p => State.readSource (Prod.fst p) s (Prod.snd p)) v5   (List.filter (State.undecodable x1) (State.stripeData x1 x0 x2))) ?_ {  }
      refine Keeps.foldl ?_ ?_
      · intro a82 a83 h84
        exact Keeps.of_readSource (by assumption)
      · assumption

theorem Keeps.of_mend {z : State} {x0 : State} {x1 : ℕ} {x2 : List (HomeLine × Bool)} (h : Keeps z x0) :
    Keeps z (@State.mend x0 x1 x2) := by
  unfold State.mend
  split
  · refine Keeps.ite ?_ ?_
    · refine Keeps.foldl ?_ ?_
      · intro a3 a4 h5
        exact Keeps.of_mendStripe (by assumption)
      · assumption
    · assumption
  · assumption

theorem Keeps.of_abandonMove {z : State} {x0 : State} {x1 : ℕ} (h : Keeps z x0) : Keeps z (@State.abandonMove x0 x1) := by
  unfold State.abandonMove
  split
  · refine Keeps.ite ?_ ?_
    · extract_lets v3 v4
      subst v3
      have h63 : Keeps z v4 := Keeps.trans (t := x0) (by assumption) {  }
      clear_value v4
      exact Keeps.of_freeIfEmpty (Keeps.of_dropHome (Keeps.ite (Keeps.of_bump (by assumption)) (by assumption)))
    · assumption
  · assumption

theorem Keeps.of_joinHome {z : State} {x0 : State} {x1 : ℕ} {x2 : Home} {x3 : List (HomeLine × Bool)} (h : Keeps z x0) :
    Keeps z (@State.joinHome x0 x1 x2 x3) := by
  unfold State.joinHome
  extract_lets v0
  have h60 : Keeps z v0 := Keeps.of_putLines (by assumption)
  clear_value v0
  exact Keeps.of_setHome (by assumption)

theorem Keeps.of_writePlaced {z : State} {x0 : State} {x1 : ℕ} {x2 : List (HomeLine × Bool)} {x3 : List ℕ} (h : Keeps z x0) :
    Keeps z (@State.writePlaced x0 x1 x2 x3) := by
  unfold State.writePlaced
  split
  · refine Keeps.ite ?_ ?_
    · assumption
    · exact Keeps.ite (Keeps.of_startUpdate (by assumption)) (Keeps.of_startUpdate (by assumption))
  · assumption

theorem Keeps.of_sendHome {z : State} {x0 : State} {x1 : ℕ} {x2 : List (HomeLine × Bool)} {x3 : ℕ} {x4 : BitVec 2} (h : Keeps z x0) :
    Keeps z (@State.sendHome x0 x1 x2 x3 x4).1 := by
  unfold State.sendHome
  split
  · exact Keeps.pair (by assumption)
  · extract_lets v2 v3 v4
    have h62 : Keeps z v2.1 := Keeps.of_bindUnit (by assumption)
    clear_value v2
    have h63 : Keeps z v3 := Keeps.of_mend (Keeps.of_abandonMove (by assumption))
    clear_value v3
    have h64 : Keeps z v4.1 := Keeps.of_placeLines (by assumption)
    clear_value v4
    split
    · exact Keeps.pair (by assumption)
    · split
      · split
        · exact Keeps.pair (by assumption)
        · exact Keeps.pair (Keeps.of_joinHome (by assumption))
      · exact Keeps.pair (Keeps.ite (Keeps.of_writePlaced (by assumption)) (by assumption))

theorem Keeps.of_loseSlotSectors {z : State} {x0 : State} {x1 : ℕ} {x2 : List DumpLine} {x3 : DumpLine → Bool} (h : Keeps z x0) :
    Keeps z (@State.loseSlotSectors x0 x1 x2 x3) := by
  unfold State.loseSlotSectors
  refine Keeps.foldl ?_ h
  intro a _ h2
  exact Keeps.of_ev (Keeps.trans (t := a) (by assumption) { fresh := Nat.le_add_right _ _ })

theorem Keeps.of_loseOverlay {z : State} {x0 : State} {x1 : DumpLine → Bool} {x2 : List (ℕ × DumpLine)} (h : Keeps z x0) :
    Keeps z (@State.loseOverlay x0 x1 x2).1 := by
  unfold State.loseOverlay
  split
  · assumption
  · extract_lets d s1
    refine Keeps.pair (Keeps.of_loseSlotSectors (Keeps.foldl ?_ ?_))
    · intro a _ h2
      exact Keeps.of_losePoison (by assumption)
    · exact Keeps.trans (t := x0) (by assumption) { fresh := Nat.le_succ _ }

theorem Keeps.of_slotCorrected {z : State} {x0 : State} {x1 : ℕ} (h : Keeps z x0) : Keeps z (@State.slotCorrected x0 x1) := by
  unfold State.slotCorrected
  exact Keeps.ite (by assumption) (Keeps.of_count (Keeps.of_bump (Keeps.of_bump (by assumption))))

theorem KeepsRes.of_execReplayHomeWrite {z : State} {x0 x1 : ℕ} {x2 : BitVec 256} {x3 : State} (h : Keeps z x3) :
    KeepsRes z (@execReplayHomeWrite x0 x1 x2 x3) := by
  unfold execReplayHomeWrite
  extract_lets v0
  have h60 : Keeps z v0 := Keeps.of_tick (by assumption)
  clear_value v0
  refine KeepsRes.ite ?_ ?_
  · exact KeepsRes.next (by assumption)
  · split
    · exact KeepsRes.next (Keeps.of_slotDrained (by assumption))
    · extract_lets r0 v66 v67 v68 v69
      have h125 : Keeps z r0.1 := Keeps.of_loseOverlay (by assumption)
      subst v66 v67 v68
      clear_value r0
      have h126 : Keeps z v69.1 := Keeps.of_sendHome (Keeps.of_slotCorrected (by assumption))
      clear_value v69
      exact KeepsRes.next (Keeps.ite (Keeps.of_internalOp (by assumption)) (by assumption))

theorem Keeps.of_wroteSector {z : State} {x0 : State} {x1 : ℕ} (h : Keeps z x0) : Keeps z (@State.wroteSector x0 x1) := by
  unfold State.wroteSector
  split
  · assumption
  · extract_lets v5 v6 v7 v8 v9
    subst v5 v6 v7 v8 v9
    exact Keeps.of_endUpdates (Keeps.trans (t := x0) (by assumption) {  })

theorem Keeps.of_readSlots {z : State} {x0 : State} {x1 : ℕ} (h : Keeps z x0) : Keeps z (@State.readSlots x0 x1) := by
  unfold State.readSlots
  refine Keeps.foldl ?_ ?_
  · intro a0 a1 h2
    exact Keeps.of_boardRead (by assumption)
  · assumption

theorem KeepsRes.of_execWriteHome {z : State} {x0 : ℕ} {x1 : BitVec 29} {x2 : State} (h : Keeps z x2) :
    KeepsRes z (@execWriteHome x0 x1 x2) := by
  unfold execWriteHome
  extract_lets v0 v1 v2
  subst v0 v2
  have h60 : Keeps z v1 := Keeps.ite (Keeps.of_readSlots (Keeps.of_tick (by assumption))) (Keeps.of_tick (by assumption))
  clear_value v1
  split
  · exact KeepsRes.next (by assumption)
  · extract_lets v67
    have h127 : Keeps z v67.1 := Keeps.of_sendHome (by assumption)
    clear_value v67
    exact KeepsRes.next (Keeps.ite (Keeps.of_judgeWriteback (Keeps.of_issueWb (by assumption))) (by assumption))

theorem Keeps.of_release {z : State} {x0 : State} {x1 : ℕ} {x2 : List HomeLine} (h : Keeps z x0) :
    Keeps z (@State.release x0 x1 x2) := by
  unfold State.release
  extract_lets v0 v1 v2 v3 v4 v5
  subst v1 v2 v3 v4 v5
  exact Keeps.trans (t := x0) (by assumption) { cch := (fun k => by simp only [cchOk, Bool.and_eq_true] at k ⊢; simp [k]), pfl := (fun k => by simp only [pflOk, Bool.and_eq_true] at k ⊢; simp [k]) }

theorem Keeps.of_wtDurable {z : State} {x0 : State} {x1 : ℕ} {x2 : List HomeLine} (h : Keeps z x0) :
    Keeps z (@State.wtDurable x0 x1 x2) := by
  unfold State.wtDurable
  refine Keeps.ite ?_ ?_
  · apply Keeps.of_flushTail
    apply Keeps.of_nodesToHome
    refine Keeps.foldl ?_ ?_
    · intro a0 a1 h2
      exact Keeps.ite (Keeps.of_ctrHome (by assumption)) (by assumption)
    · assumption
  · assumption

theorem KeepsRes.of_execWriteHomeAck {z : State} {x0 : ℕ} {x1 : BitVec 29} {x2 : State} (h : Keeps z x2) :
    KeepsRes z (@execWriteHomeAck x0 x1 x2) := by
  unfold execWriteHomeAck
  extract_lets v0 v1 v2
  subst v0
  have h60 : Keeps z v1 := Keeps.of_tick (by assumption)
  clear_value v1
  have h61 : Keeps z v2 := Keeps.of_commitHome (by assumption)
  clear_value v2
  split
  · exact KeepsRes.next (by assumption)
  · refine KeepsRes.ite ?_ ?_
    · exact KeepsRes.next (by assumption)
    · split
      · exact KeepsRes.next (Keeps.of_judgeWriteback (Keeps.of_release (by assumption)))
      · refine KeepsRes.ite ?_ ?_
        · exact KeepsRes.next (by assumption)
        · extract_lets v72
          have h132 : Keeps z v72 := Keeps.of_release (Keeps.of_wtDurable (Keeps.of_dropHome (by assumption)))
          clear_value v72
          exact KeepsRes.next (Keeps.of_judgeWriteback (Keeps.of_epochDrained (Keeps.of_slotDrained (by assumption))))

theorem KeepsRes.of_execShadowSettle {z : State} {x0 : ℕ} {x1 : BitVec 29} {x2 : State} (h : Keeps z x2) :
    KeepsRes z (@execShadowSettle x0 x1 x2) := by
  unfold execShadowSettle
  extract_lets v0 v1
  subst v0
  have h60 : Keeps z v1 := Keeps.of_tick (by assumption)
  clear_value v1
  split
  · exact KeepsRes.next (by assumption)
  · exact KeepsRes.next (Keeps.ite (Keeps.of_settle (by assumption)) (by assumption))

end Sys2Proof.Laws
end

