-- ==== Sys2Proof/Laws/KeepsMedium.lean ====
section
/-! SUPPORT. One law per operation of the card that says what no operation does (Laws/Keeps.lean): drift, scrubbing, maintenance, requests and the medium. -/

set_option Elab.async false

namespace Sys2Proof.Laws

open Sys2Proof.Machine Sys2Proof.Safety

theorem Keeps.of_ageDies {z : State} {x0 : State} (h : Keeps z x0) : Keeps z (@State.ageDies x0) := by
  unfold State.ageDies
  exact Keeps.trans (t := x0) (by assumption) {  }

theorem Keeps.of_ownRead {z : State} {x0 : State} {x1 : Option ℕ} {x2 : ℕ} {x3 : ℕ} {x4 : ℕ} {x5 : ℕ} {x6 : ℕ} {x7 : List (ℕ × Bool)} {x8 : Sys2Proof.ReadEnd} {x9 : State → State} (hr9 : ∀ a, Keeps z a → Keeps z (x9 a)) (h : Keeps z x0) :
    Keeps z (@State.ownRead x0 x1 x2 x3 x4 x5 x6 x7 x8 x9) := by
  unfold State.ownRead
  extract_lets v0 v1 v2
  subst v0
  split
  · refine Keeps.ite ?_ ?_
    · exact Keeps.of_decoded (by assumption)
    · refine Keeps.ite ?_ ?_
      · dsimp only [v1]
        exact Keeps.of_setDue (Keeps.of_ev (Keeps.of_count (Keeps.of_bump (by assumption))))
      · dsimp only [v2]
        apply Keeps.of_setDue
        apply Keeps.of_bump
        apply Keeps.of_bump
        split
        · exact Keeps.of_peersReport (Keeps.of_bump (by assumption))
        · exact Keeps.of_bump (by assumption)
  · refine Keeps.ite ?_ ?_
    · dsimp only [v1]
      exact Keeps.of_setDue (Keeps.of_ev (Keeps.of_count (Keeps.of_bump (by assumption))))
    · dsimp only [v2]
      apply Keeps.of_setDue
      apply Keeps.of_bump
      apply Keeps.of_bump
      split
      · exact Keeps.of_peersReport (Keeps.of_bump (by assumption))
      · exact Keeps.of_bump (by assumption)
  · dsimp only [v2]
    apply Keeps.of_setDue
    apply Keeps.of_bump
    apply Keeps.of_bump
    split
    · exact Keeps.of_peersReport (Keeps.of_bump (by assumption))
    · exact Keeps.of_bump (by assumption)
  · exact hr9 _ (Keeps.of_bump (by assumption))

theorem KeepsRes.of_execMarginRead {z : State} {x0 : ℕ} {x1 : Fin 64} {x2 : BitVec 35} {x3 : ℕ} {x4 : List (ℕ × Bool)} {x5 : Sys2Proof.ReadEnd} {x6 : State} (h : Keeps z x6) :
    KeepsRes z (@execMarginRead x0 x1 x2 x3 x4 x5 x6) := by
  unfold execMarginRead
  extract_lets v0 v1 v2 v3 v4 v5 v6
  subst v1 v2 v3 v5
  have h60 : Keeps z v0 := Keeps.of_tick (by assumption)
  clear_value v0
  have h61 : Keeps z v4 := Keeps.of_count (Keeps.of_bump (Keeps.of_sense (by assumption)))
  clear_value v4
  have h62 : Keeps z v6 := Keeps.trans (t := v4) (by assumption) {  }
  clear_value v6
  refine KeepsRes.ite ?_ ?_
  · refine KeepsRes.fault _
  · split
    · exact KeepsRes.next (by assumption)
    · extract_lets v68 v69 v70 v71
      subst v68 v69 v70 v71
      refine KeepsRes.ite ?_ ?_
      · exact KeepsRes.next (by assumption)
      · refine KeepsRes.next ?_
        apply Keeps.of_ownRead
        · intro a128 h129
          exact Keeps.of_sectorLost (by assumption)
        · exact Keeps.of_internalOp (by assumption)

theorem Keeps.of_moveBlock {z : State} {x0 : State} {x1 : ℕ} {x2 : ℕ} {x3 : ℕ} (h : Keeps z x0) :
    Keeps z (@State.moveBlock x0 x1 x2 x3) := by
  unfold State.moveBlock
  extract_lets v0
  have h60 : Keeps z v0 := by
    dsimp only [v0]
    refine Keeps.foldl ?_ ?_
    · intro a61 a62 h63
      exact Keeps.ite (Keeps.of_moveToPage (by assumption)) (by assumption)
    · assumption
  clear_value v0
  refine Keeps.foldl ?_ ?_
  · intro a64 a65 h66
    exact Keeps.of_integPlace (by assumption)
  · assumption

theorem Keeps.of_eachDie {z : State} {x0 : State} {x1 : Die → Die} (h : Keeps z x0) : Keeps z (@State.eachDie x0 x1) := by
  unfold State.eachDie
  exact Keeps.trans (t := x0) (by assumption) {  }

theorem Keeps.of_scrubLost {z : State} {x0 : State} {x1 : ℕ} {x2 : ℕ} {x3 : Option (BitVec 35)} (h : Keeps z x0) :
    Keeps z (@State.scrubLost x0 x1 x2 x3) := by
  unfold State.scrubLost
  extract_lets v0 v1
  subst v0
  have h60 : Keeps z v1 := Keeps.trans (t := x0) (by assumption) {  }
  clear_value v1
  split
  · exact Keeps.of_sectorLost (by assumption)
  · exact Keeps.of_ev (Keeps.trans (t := v1) (by assumption) { fresh := Nat.le_succ _ })

theorem Keeps.of_writeRefs {z : State} {x0 : State} (h : Keeps z x0) : Keeps z (@State.writeRefs x0) := by
  unfold State.writeRefs
  extract_lets v0 v1
  subst v1
  have h60 : Keeps z v0 := Keeps.of_eachDie (by assumption)
  clear_value v0
  exact Keeps.trans (t := v0) (by assumption) {  }

theorem KeepsRes.of_execReferenceGroupWrite {z : State} {x0 : State} (h : Keeps z x0) :
    KeepsRes z (@execReferenceGroupWrite x0) := by
  unfold execReferenceGroupWrite
  exact KeepsRes.next (Keeps.ite (Keeps.of_writeRefs (by assumption)) (by assumption))

theorem KeepsRes.of_execScrubLapComplete {z : State} {x0 : ℕ} {x1 : State} (h : Keeps z x1) :
    KeepsRes z (@execScrubLapComplete x0 x1) := by
  unfold execScrubLapComplete
  extract_lets v0 v1
  subst v1
  have h60 : Keeps z v0 := Keeps.of_tick (by assumption)
  clear_value v0
  refine KeepsRes.ite ?_ ?_
  · exact KeepsRes.next (by assumption)
  · exact KeepsRes.next (Keeps.of_ev (Keeps.trans (t := v0) (by assumption) {  }))

theorem Keeps.of_settleIn {z : State} {x0 : State} {x1 : ℕ} {x2 : ℕ} (h : Keeps z x0) :
    Keeps z (@State.settleIn x0 x1 x2) := by
  unfold State.settleIn
  refine Keeps.foldl ?_ ?_
  · intro a0 a1 h2
    split
    · exact Keeps.ite (Keeps.of_settle (by assumption)) (by assumption)
    · assumption
  · assumption

theorem Keeps.of_rewriteSector {z : State} {x0 : Loc} {x1 : State} {x2 : ℕ} (h : Keeps z x1) :
    Keeps z (@State.rewriteSector x0 x1 x2) := by
  unfold State.rewriteSector
  extract_lets v0
  have h60 : Keeps z v0 := Keeps.of_readSource (by assumption)
  clear_value v0
  split
  · extract_lets v64
    have h124 : Keeps z v64 := by
      dsimp only [v64]
      refine Keeps.ite ?_ ?_
      · refine Keeps.foldl ?_ ?_
        · intro a125 a126 h127
          split
          · exact Keeps.of_keepStored (by assumption)
          · assumption
        · assumption
      · assumption
    clear_value v64
    exact Keeps.of_stampSector (by assumption)
  · assumption

theorem Keeps.of_savePosition {z : State} {x0 : State} (h : Keeps z x0) : Keeps z (@State.savePosition x0) := by
  unfold State.savePosition
  exact Keeps.of_ownRow (Keeps.trans (t := x0) (by assumption) {  })

theorem KeepsRes.of_execScrubPositionSave {z : State} {x0 : State} (h : Keeps z x0) :
    KeepsRes z (@execScrubPositionSave x0) := by
  unfold execScrubPositionSave
  exact KeepsRes.next (Keeps.ite (Keeps.of_savePosition (by assumption)) (by assumption))

theorem KeepsRes.of_execMarginEvaluation {z : State} {x0 : ℕ} {x1 : Fin 4} {x2 : BitVec 20} {x3 : State} (h : Keeps z x3) :
    KeepsRes z (@execMarginEvaluation x0 x1 x2 x3) := by
  unfold execMarginEvaluation
  exact KeepsRes.next (Keeps.of_evalMargin (Keeps.of_tick (by assumption)))

theorem KeepsRes.of_execGetWearAndDriftReport {z : State} {x0 : Sys2Proof.Path} {x1 : ℕ} {x2 : Bool} {x3 : State} (h : Keeps z x3) :
    KeepsRes z (@execGetWearAndDriftReport x0 x1 x2 x3) := by
  unfold execGetWearAndDriftReport
  refine KeepsRes.next ?_
  apply Keeps.of_mailbox
  · intro a0 h1
    refine Keeps.ite ?_ ?_
    · exact Keeps.of_reply (by assumption)
    · extract_lets v2
      subst v2
      exact Keeps.of_reply (by assumption)
  · assumption

theorem Keeps.of_saveTables {z : State} {x0 : State} (h : Keeps z x0) : Keeps z (@State.saveTables x0) := by
  unfold State.saveTables
  extract_lets v0 v1
  subst v0
  have h60 : Keeps z v1 := by
    dsimp only [v1]
    exact Keeps.trans (t := x0) (by assumption) { cal := (fun k => by simp only [calOk, Bool.and_eq_true] at k ⊢; simp [k]) }
  clear_value v1
  refine Keeps.ite ?_ ?_
  · refine Keeps.foldl ?_ ?_
    · intro a61 a62 h63
      exact Keeps.of_ownRow (by assumption)
    · assumption
  · assumption

theorem KeepsRes.of_execThresholdTableSave {z : State} {x0 : State} (h : Keeps z x0) :
    KeepsRes z (@execThresholdTableSave x0) := by
  unfold execThresholdTableSave
  exact KeepsRes.next (Keeps.ite (Keeps.of_saveTables (by assumption)) (by assumption))

theorem Keeps.of_moveShadow {z : State} {x0 : State} {x1 : ℕ} (h : Keeps z x0) : Keeps z (@State.moveShadow x0 x1) := by
  unfold State.moveShadow
  split
  · split
    · rename_i m5 m6 m7 m8
      have h9 : Keeps z m6 := by
        exact Keeps.fst m8 (Keeps.of_pageSlot (by assumption))
      exact Keeps.of_setHome (Keeps.of_copyFolio (by assumption))
    · rename_i m10 m11 m12
      have h13 : Keeps z m11 := by
        exact Keeps.fst m12 (Keeps.of_pageSlot (by assumption))
      assumption
  · assumption

theorem KeepsRes.of_execStripeBlockMigrate {z : State} {x0 : ℕ} {x1 : Fin 4} {x2 : BitVec 20} {x3 : State} (h : Keeps z x3) :
    KeepsRes z (@execStripeBlockMigrate x0 x1 x2 x3) := by
  unfold execStripeBlockMigrate
  extract_lets v0 v1 v2 v3 v4 v5 v6 v7
  subst v0 v1 v2 v5
  have h60 : Keeps z v3 := Keeps.of_tick (by assumption)
  clear_value v3
  have h61 : Keeps z v4 := Keeps.of_settleIn (by assumption)
  clear_value v4
  have h62 : Keeps z v6 := Keeps.of_moveBlock (Keeps.of_setBlock (by assumption))
  clear_value v6
  have h63 : Keeps z v7 := by
    dsimp only [v7]
    apply Keeps.of_internalOp
    refine Keeps.foldl ?_ ?_
    · intro a64 a65 h66
      exact Keeps.of_moveShadow (by assumption)
    · assumption
  clear_value v7
  split
  · exact KeepsRes.next (by assumption)
  · refine KeepsRes.ite ?_ ?_
    · exact KeepsRes.next (by assumption)
    · exact KeepsRes.next (Keeps.of_freeIfEmpty (Keeps.of_ev (Keeps.of_bump (by assumption))))

theorem Keeps.of_powerSecond {z : State} {x0 : State} (h : Keeps z x0) : Keeps z (@State.powerSecond x0) := by
  unfold State.powerSecond
  extract_lets v0 v1 v2 v3 v4
  subst v0 v1 v2 v3 v4
  exact Keeps.trans (t := x0) (by assumption) { cal := (fun k => by simp only [calOk, Bool.and_eq_true] at k ⊢; simp [k]) }

theorem KeepsRes.of_execCalendarTick {z : State} {x0 : ℕ} {x1 : State} (h : Keeps z x1) :
    KeepsRes z (@execCalendarTick x0 x1) := by
  unfold execCalendarTick
  extract_lets v0 v1 v2 v3
  subst v1
  have h60 : Keeps z v0 := Keeps.of_tick (by assumption)
  have h62 : Keeps z v2 := Keeps.trans (t := v0) (by assumption) { cal := (calOk_tick _) }
  have h63 : Keeps z v3 := Keeps.of_powerSecond (by assumption)
  clear_value v3
  refine KeepsRes.ite ?_ ?_
  · exact KeepsRes.next (by assumption)
  · refine KeepsRes.ite ?_ ?_
    · exact KeepsRes.next (by assumption)
    · exact KeepsRes.next (Keeps.ite (Keeps.of_ageDies (by assumption)) (by assumption))

theorem Keeps.of_acceptHost {z : State} {x0 : State} {x1 : ℤ} (h : Keeps z x0) : Keeps z (@State.acceptHost x0 x1) := by
  unfold State.acceptHost
  extract_lets v0 v1 v2 v3 v4
  subst v1 v2 v3
  have h60 : Keeps z v0 := Keeps.of_setReg (by assumption)
  clear_value v0
  have h61 : Keeps z v4 := Keeps.trans (t := v0) (by assumption) {  }
  clear_value v4
  exact Keeps.ite (Keeps.ite (Keeps.of_ev (by assumption)) (by assumption)) (by assumption)

theorem Keeps.of_judgeHost {z : State} {x0 : State} {x1 : ℤ} (h : Keeps z x0) : Keeps z (@State.judgeHost x0 x1) := by
  unfold State.judgeHost
  extract_lets v0 v1 v2
  subst v0 v2
  have h60 : Keeps z v1 := Keeps.of_acceptHost (by assumption)
  clear_value v1
  refine Keeps.ite ?_ ?_
  · exact Keeps.trans (t := x0) (by assumption) {  }
  · refine Keeps.ite ?_ ?_
    · exact Keeps.trans (t := v1) (by assumption) {  }
    · refine Keeps.ite ?_ ?_
      · exact Keeps.trans (t := v1) (by assumption) {  }
      · exact Keeps.of_ev (Keeps.of_bump (Keeps.trans (t := x0) (by assumption) {  }))

theorem Keeps.of_scrubbed {z : State} {x0 : State} {x1 : ℕ} {x2 : ℕ} {x3 : ℕ} (h : Keeps z x0) :
    Keeps z (@State.scrubbed x0 x1 x2 x3) := by
  unfold State.scrubbed
  extract_lets v0 v1 v2 v3
  subst v0 v2 v3
  have h60 : Keeps z v1 := Keeps.of_setDie (by assumption)
  clear_value v1
  exact Keeps.trans (t := v1) (by assumption) {  }

theorem KeepsRes.of_execScrubRead {z : State} {x0 : ℕ} {x1 : Fin 64} {x2 : Fin 4} {x3 : BitVec 20} {x4 : Option (BitVec 35)} {x5 : ℕ} {x6 x7 : List ℕ} {x8 : Sys2Proof.ReadEnd} {x9 : State} (h : Keeps z x9) :
    KeepsRes z (@execScrubRead x0 x1 x2 x3 x4 x5 x6 x7 x8 x9) := by
  unfold execScrubRead
  extract_lets v0 v1 r1 v2 v3 v4 v5 v6 v7 v8
  subst v1 r1 v2 v3 v4 v5 v7 v8
  have h60 : Keeps z v0 := Keeps.of_tick (by assumption)
  clear_value v0
  have h61 : Keeps z v6 := Keeps.of_scrubbed (Keeps.of_internalOp (Keeps.of_sensed (by assumption)))
  clear_value v6
  refine KeepsRes.ite ?_ ?_
  · refine KeepsRes.fault _
  · refine KeepsRes.ite ?_ ?_
    · exact KeepsRes.next (by assumption)
    · refine KeepsRes.ite ?_ ?_
      · exact KeepsRes.next (Keeps.trans (t := v6) (by assumption) {  })
      · refine KeepsRes.next ?_
        apply Keeps.of_ownRead
        · intro a62 h63
          exact Keeps.of_scrubLost (by assumption)
        · assumption

theorem KeepsRes.of_execThresholdCountEvaluation {z : State} {t : Nat} {die : Fin 64} {bin : Fin 16} {band : Fin 4} {thr : Fin 15}
    {s : State} (h : Keeps z s) : KeepsRes z (execThresholdCountEvaluation t die bin band thr s) := by
  unfold execThresholdCountEvaluation
  extract_lets s k e u d raw o held e1 m c0 s1 s2
  have h1 : Keeps z s := Keeps.of_tick h
  have hm : Tab.wf s.cal.thr = true → Tab.wf m = true := fun q => wf_monotone (Tab.wf_put _ _ _ q)
  clear_value m
  have h2 : Keeps z s1 := by
    refine h1.trans { cal := fun q => ?_ }
    simp only [calOk, Bool.and_eq_true] at q ⊢
    exact ⟨⟨hm q.1.1, q.1.2⟩, q.2⟩
  clear_value s1
  have h3 : Keeps z s2 := Keeps.ite h2 (Keeps.of_bump h2)
  exact KeepsRes.ite (KeepsRes.fault _) (KeepsRes.ite (KeepsRes.next h1) (KeepsRes.next (Keeps.ite (Keeps.of_ev h3) h3)))

theorem KeepsRes.of_execScrubLapLimit {z : State} {x0 : ℕ} {x1 : State} (h : Keeps z x1) :
    KeepsRes z (@execScrubLapLimit x0 x1) := by
  unfold execScrubLapLimit
  extract_lets v0 v1
  subst v1
  have h60 : Keeps z v0 := Keeps.of_tick (by assumption)
  clear_value v0
  exact KeepsRes.next (Keeps.ite (Keeps.of_ev (Keeps.trans (t := v0) (by assumption) {  })) (by assumption))

theorem KeepsRes.of_execCalibrationWindowEnd {z : State} {x0 : ℕ} {x1 : State} (h : Keeps z x1) :
    KeepsRes z (@execCalibrationWindowEnd x0 x1) := by
  unfold execCalibrationWindowEnd
  extract_lets v0
  have h60 : Keeps z v0 := Keeps.of_tick (by assumption)
  clear_value v0
  refine KeepsRes.next ?_
  refine Keeps.foldl ?_ ?_
  · intro a61 a62 h63
    exact Keeps.ite (by assumption) (Keeps.of_ev (by assumption))
  · assumption

theorem KeepsRes.of_execScrubGatedWake {z : State} {x0 : ℕ} {x1 : Fin 16} {x2 : State} (h : Keeps z x2) :
    KeepsRes z (@execScrubGatedWake x0 x1 x2) := by
  unfold execScrubGatedWake
  extract_lets v0 v1 v2 v3 v4
  subst v1 v2 v3 v4
  have h60 : Keeps z v0 := Keeps.of_tick (by assumption)
  clear_value v0
  exact KeepsRes.next (Keeps.ite (Keeps.trans (t := v0) (by assumption) {  }) (by assumption))

theorem Keeps.of_restamp {z : State} {x0 : State} {x1 : ℕ} {x2 : ℕ} (h : Keeps z x0) :
    Keeps z (@State.restamp x0 x1 x2) := by
  unfold State.restamp
  extract_lets v0 v1 v2
  subst v0 v1
  have h60 : Keeps z v2 := by
    dsimp only [v2]
    refine Keeps.foldl ?_ ?_
    · intro a61 a62 h63
      apply Keeps.of_startUpdate
      refine Keeps.foldl ?_ ?_
      · intro a64 a65 h66
        exact Keeps.of_rewriteSector (by assumption)
      · assumption
    · assumption
  clear_value v2
  exact Keeps.of_setBlock (by assumption)

theorem KeepsRes.of_execStripeBlockRefresh {z : State} {x0 : ℕ} {x1 : Fin 4} {x2 : BitVec 20} {x3 : State} (h : Keeps z x3) :
    KeepsRes z (@execStripeBlockRefresh x0 x1 x2 x3) := by
  unfold execStripeBlockRefresh
  extract_lets v0 v1 v2
  subst v0 v1
  have h60 : Keeps z v2 := Keeps.of_tick (by assumption)
  clear_value v2
  split
  · exact KeepsRes.next (by assumption)
  · refine KeepsRes.ite ?_ ?_
    · exact KeepsRes.next (by assumption)
    · exact KeepsRes.next (Keeps.of_ev (Keeps.of_bump (Keeps.of_internalOp (Keeps.of_restamp (by assumption)))))

theorem KeepsRes.of_execScrubLapStart {z : State} {x0 : ℕ} {x1 : State} (h : Keeps z x1) :
    KeepsRes z (@execScrubLapStart x0 x1) := by
  unfold execScrubLapStart
  extract_lets v0 v1
  subst v1
  have h60 : Keeps z v0 := Keeps.of_tick (by assumption)
  clear_value v0
  exact KeepsRes.next (Keeps.ite (by assumption) (Keeps.trans (t := v0) (by assumption) {  }))

theorem KeepsRes.of_execDriftLedgerHourly {z : State} {x0 : State} (h : Keeps z x0) :
    KeepsRes z (@execDriftLedgerHourly x0) := by
  unfold execDriftLedgerHourly
  refine KeepsRes.next ?_
  refine Keeps.ite ?_ ?_
  · extract_lets v0 v1
    subst v1
    have h60 : Keeps z v0 := Keeps.of_eachDie (by assumption)
    clear_value v0
    exact Keeps.of_kick (Keeps.trans (t := v0) (by assumption) {  })
  · assumption

theorem Keeps.of_maintReply {z : State} {x0 : State} {x1 : Maint} (h : Keeps z x0) : Keeps z (@State.maintReply x0 x1) := by
  unfold State.maintReply
  refine Keeps.ite ?_ ?_
  · split
    · rename_i m0 m1 m2 m3
      have h4 : Keeps z m1 := by
        exact Keeps.fst m3 (Keeps.of_addListed (by assumption))
      exact Keeps.ite (Keeps.of_reply (Keeps.of_ownRow (by assumption))) (Keeps.of_replyAfter (by assumption))
    · rename_i m5 m6 m7
      have h8 : Keeps z m6 := by
        exact Keeps.fst m7 (Keeps.of_addListed (by assumption))
      exact Keeps.of_reply (by assumption)
  · exact Keeps.of_reply (by assumption)

theorem Keeps.of_maintLogged {z : State} {x0 : State} {x1 : List ℕ} (h : Keeps z x0) :
    Keeps z (@State.maintLogged x0 x1) := by
  unfold State.maintLogged
  extract_lets v0 v1
  subst v0 v1
  refine Keeps.foldl ?_ ?_
  · intro a60 a61 h62
    exact Keeps.of_maintReply (by assumption)
  · exact Keeps.trans (t := x0) (by assumption) {  }

theorem Keeps.of_poisonCopies {z : State} {x0 : State} {x1 : ℕ} (h : Keeps z x0) : Keeps z (@State.poisonCopies x0 x1) := by
  unfold State.poisonCopies
  extract_lets v0 v1 v2 v3 v4
  subst v0 v1
  have h60 : Keeps z v2 := by
    dsimp only [v2]
    split
    · exact Keeps.of_setNear (by assumption)
    · assumption
  clear_value v2
  have h66 : Keeps z v3 := by
    dsimp only [v3]
    split
    · exact Keeps.of_setEvict (by assumption)
    · assumption
  clear_value v3
  have h72 : Keeps z v4 := by
    dsimp only [v4]
    split
    · exact Keeps.of_setBoard (by assumption)
    · assumption
  clear_value v4
  split
  · exact Keeps.of_setWb (by assumption)
  · assumption

theorem Keeps.of_putWhole {z : State} {x0 : State} {x1 : ℕ} {x2 : Sys2Proof.Line} {x3 : Bool} (h : Keeps z x0) :
    Keeps z (@State.putWhole x0 x1 x2 x3) := by
  unfold State.putWhole
  extract_lets v0 v1 v2 v3 v4 v5
  subst v0 v1 v2
  have h60 : Keeps z v3 := Keeps.ite (Keeps.of_holdCommitted (by assumption)) (by assumption)
  clear_value v3
  have h61 : Keeps z v5 := Keeps.of_boardRead (by assumption)
  clear_value v5
  split
  · dsimp only [v4]
    exact Keeps.of_writeNear (by assumption)
  · exact Keeps.of_setEvict (by assumption)
  · split
    · split
      · exact Keeps.of_setWb (by assumption)
      · assumption
    · dsimp only [v4]
      exact Keeps.of_writeNear (Keeps.of_alloc (by assumption))
    · dsimp only [v4]
      exact Keeps.of_writeNear (Keeps.of_fillFrom (Keeps.of_alloc (by assumption)))

theorem Keeps.of_maintain {z : State} {x0 : State} {x1 : Maint} (h : Keeps z x0) : Keeps z (@State.maintain x0 x1) := by
  unfold State.maintain
  extract_lets v0 v1 v2 v3 v4 v5 v6 v7 v8
  subst v0 v2 v3 v4 v6 v8
  have h60 : Keeps z v1 := Keeps.trans (t := x0) (by assumption) {  }
  clear_value v1
  have h61 : Keeps z v5 := Keeps.of_putWhole (Keeps.of_unclean (by assumption))
  clear_value v5
  have h62 : Keeps z v7 := by
    dsimp only [v7]
    refine Keeps.ite ?_ ?_
    · exact Keeps.trans (t := v5) (by assumption) { pfl := (fun k => by simp only [pflOk, Bool.and_eq_true] at k ⊢; simp [k]) }
    · exact Keeps.of_merged (by assumption)
  clear_value v7
  refine Keeps.ite ?_ ?_
  · exact Keeps.of_maintReply (Keeps.ite (Keeps.of_poisonCopies (by assumption)) (by assumption))
  · refine Keeps.ite ?_ ?_
    · exact Keeps.trans (t := v7) (by assumption) {  }
    · exact Keeps.of_maintReply (Keeps.of_judgeWriteback (by assumption))

theorem Keeps.of_retryMaint {z : State} {x0 : State} {x1 : Maint → Bool} (h : Keeps z x0) :
    Keeps z (@State.retryMaint x0 x1) := by
  unfold State.retryMaint
  split
  · exact Keeps.of_maintain (by assumption)
  · assumption

theorem Keeps.of_startMaint {z : State} {x0 : State} {x1 : Maint} (h : Keeps z x0) : Keeps z (@State.startMaint x0 x1) := by
  unfold State.startMaint
  exact Keeps.ite (Keeps.of_maintain (by assumption)) (Keeps.trans (t := x0) (by assumption) {  })

theorem Keeps.of_answerWaiter {z : State} {x0 : Fill} {x1 : BitVec 2048} {x2 : BitVec 4} {x3 : State} {x4 : Ctx} (h : Keeps z x3) :
    Keeps z (@answerWaiter x0 x1 x2 x3 x4) := by
  unfold answerWaiter
  extract_lets v0 v1 v2 v3
  subst v0 v1 v2 v3
  exact Keeps.of_answer (by assumption)

theorem Keeps.of_keepBad {z : State} {x0 : State} {x1 : ℕ} {x2 : BitVec 256} {x3 : ℕ} (h : Keeps z x0) :
    Keeps z (@State.keepBad x0 x1 x2 x3) := by
  unfold State.keepBad
  split
  · assumption
  · extract_lets v5 v6 v7 v8
    subst v5 v6 v7
    have h65 : Keeps z v8 := Keeps.of_listLine (Keeps.of_setNear (by assumption))
    clear_value v8
    exact Keeps.ite (by assumption) (Keeps.ite (by assumption) (Keeps.of_ev (Keeps.of_bump (by assumption))))

theorem Keeps.of_afterFill {z : State} {x0 : State} {x1 : ℕ} {x2 : ℕ} (h : Keeps z x0) :
    Keeps z (@State.afterFill x0 x1 x2) := by
  unfold State.afterFill
  split
  · assumption
  · exact Keeps.ite (Keeps.ite (Keeps.of_dropNear (by assumption)) (by assumption)) (Keeps.of_setNear (by assumption))

theorem Keeps.of_land {z : State} {x0 : State} {x1 : Fill} (h : Keeps z x0) : Keeps z (@State.land x0 x1) := by
  unfold State.land
  extract_lets v0 v1 v2 v3 v4 v5 v6 v7 v8 v9
  subst v0 v1 v2 v3 v4
  have h60 : Keeps z v5 := by
    dsimp only [v5]
    split
    · exact Keeps.ite (by assumption) (Keeps.of_setNear (by assumption))
    · assumption
  clear_value v5
  have h66 : Keeps z v6 := by
    dsimp only [v6]
    split
    · exact Keeps.ite (Keeps.of_setEvict (by assumption)) (by assumption)
    · assumption
  clear_value v6
  have h72 : Keeps z v7 := by
    dsimp only [v7]
    refine Keeps.foldl ?_ ?_
    · intro a73 a74 h75
      exact Keeps.of_answerWaiter (by assumption)
    · assumption
  clear_value v7
  have h76 : Keeps z v8 := Keeps.of_dropFill (by assumption)
  clear_value v8
  have h77 : Keeps z v9 := by
    dsimp only [v9]
    refine Keeps.foldl ?_ ?_
    · intro a78 a79 h80
      exact Keeps.ite (Keeps.of_keepBad (by assumption)) (by assumption)
    · assumption
  clear_value v9
  apply Keeps.of_retryMaint
  refine Keeps.foldl ?_ ?_
  · intro a81 a82 h83
    exact Keeps.of_afterFill (by assumption)
  · assumption

theorem Keeps.of_turnAway {z : State} {x0 : State} {x1 : ℕ} {x2 : Bool} (h : Keeps z x0) :
    Keeps z (@State.turnAway x0 x1 x2) := by
  unfold State.turnAway
  refine Keeps.ite ?_ ?_
  · exact Keeps.of_out (by assumption)
  · exact Keeps.of_out (Keeps.trans (t := x0) (by assumption) { fresh := Nat.le_succ _ })

theorem Keeps.of_arrive {z : State} {x0 : State} {x1 : ℕ} {x2 : Bool} {x3 : Sys2Proof.Line} {x4 : Sys2Proof.Enables} {x5 : Bool} (h : Keeps z x0) :
    Keeps z (@State.arrive x0 x1 x2 x3 x4 x5) := by
  unfold State.arrive
  refine Keeps.ite ?_ ?_
  · assumption
  · extract_lets v0 v1 v2
    subst v0 v1
    have h60 : Keeps z v2 := Keeps.trans (t := x0) (by assumption) {  }
    clear_value v2
    refine Keeps.ite ?_ ?_
    · exact Keeps.ite (by assumption) (Keeps.of_turnAway (by assumption))
    · refine Keeps.ite ?_ ?_
      · exact Keeps.of_turnAway (Keeps.of_noteEarly (by assumption))
      · split
        · exact Keeps.of_turnAway (Keeps.of_noteUnclaimed (by assumption))
        · extract_lets v66 v67
          subst v66 v67
          exact Keeps.ite (Keeps.of_wakeGddr (Keeps.of_takeIn (by assumption))) (Keeps.of_hold (by assumption))

theorem Keeps.of_landBoard {z : State} {x0 : State} {x1 : Fill} {x2 : Sys2Proof.BoardUpset} (h : Keeps z x0) :
    Keeps z (@State.landBoard x0 x1 x2) := by
  unfold State.landBoard
  extract_lets v0 v1
  subst v0
  have h60 : Keeps z v1 := Keeps.of_boardRead (Keeps.of_upsetBoard (by assumption))
  clear_value v1
  refine Keeps.ite ?_ ?_
  · assumption
  · refine Keeps.ite ?_ ?_
    · split
      · exact Keeps.of_startMedium (Keeps.of_dropFill (by assumption))
      · exact Keeps.of_startMedium (Keeps.of_dropFill (by assumption))
    · exact Keeps.of_land (by assumption)

theorem Keeps.of_turnAwayHeld {z : State} {x0 : State} (h : Keeps z x0) : Keeps z (@State.turnAwayHeld x0) := by
  unfold State.turnAwayHeld
  split
  · assumption
  · exact Keeps.of_judgePause (Keeps.of_turnAway (Keeps.trans (t := x0) (by assumption) {  }))

theorem KeepsRes.of_execAdmitHeldRequest {z : State} {x0 : ℕ} {x1 : State} (h : Keeps z x1) :
    KeepsRes z (@execAdmitHeldRequest x0 x1) := by
  unfold execAdmitHeldRequest
  extract_lets v0 v1
  subst v1
  have h60 : Keeps z v0 := Keeps.of_retryMaint (Keeps.of_tick (by assumption))
  clear_value v0
  refine KeepsRes.ite ?_ ?_
  · exact KeepsRes.next (Keeps.of_turnAwayHeld (by assumption))
  · refine KeepsRes.ite ?_ ?_
    · exact KeepsRes.next (by assumption)
    · split
      · exact KeepsRes.next (by assumption)
      · extract_lets v66
        have h126 : Keeps z v66 := Keeps.trans (t := v0) (by assumption) {  }
        clear_value v66
        exact KeepsRes.next (Keeps.of_wakeGddr (Keeps.of_takeIn (Keeps.of_judgePause (by assumption))))

theorem KeepsRes.of_execCxlMemWrite {z : State} {x0 : ℕ} {x1 : BitVec 64} {x2 : Sys2Proof.Line} {x3 : Sys2Proof.Enables} {x4 : Bool} {x5 : State} (h : Keeps z x5) :
    KeepsRes z (@execCxlMemWrite x0 x1 x2 x3 x4 x5) := by
  unfold execCxlMemWrite
  exact KeepsRes.next (Keeps.of_arrive (Keeps.of_tick (by assumption)))

theorem KeepsRes.of_execCxlMemRead {z : State} {x0 : ℕ} {x1 : BitVec 64} {x2 : State} (h : Keeps z x2) :
    KeepsRes z (@execCxlMemRead x0 x1 x2) := by
  unfold execCxlMemRead
  exact KeepsRes.next (Keeps.of_arrive (Keeps.of_tick (by assumption)))

theorem Keeps.of_mergeReads {z : State} {x0 : State} {x1 : ℕ} (h : Keeps z x0) : Keeps z (@State.mergeReads x0 x1) := by
  unfold State.mergeReads
  split
  · assumption
  · refine Keeps.foldl ?_ ?_
    · intro a5 a6 h7
      exact Keeps.ite (Keeps.of_nearData (by assumption)) (by assumption)
    · exact Keeps.of_nearTags (by assumption)

theorem KeepsRes.of_execLineFillLanded {z : State} {x0 : ℕ} {x1 : Landing} {x2 : State} (h : Keeps z x2) :
    KeepsRes z (@execLineFillLanded x0 x1 x2) := by
  unfold execLineFillLanded
  extract_lets v0 l1 v1
  subst l1
  have h60 : Keeps z v0 := Keeps.of_tick (by assumption)
  clear_value v0
  have h61 : Keeps z v1 := Keeps.of_mergeReads (Keeps.of_upsetNear (by assumption))
  clear_value v1
  split
  · exact KeepsRes.next (by assumption)
  · refine KeepsRes.ite ?_ ?_
    · exact KeepsRes.next (by assumption)
    · refine KeepsRes.next ?_
      exact Keeps.ite (by assumption) (Keeps.ite (Keeps.of_landBoard (by assumption)) (Keeps.of_land (by assumption)))

theorem KeepsRes.of_execWriteCompletion {z : State} {x0 : ℕ} {x1 : ℕ} {x2 : State} (h : Keeps z x2) :
    KeepsRes z (@execWriteCompletion x0 x1 x2) := by
  unfold execWriteCompletion
  extract_lets v0
  have h60 : Keeps z v0 := Keeps.of_tick (by assumption)
  clear_value v0
  split
  · exact KeepsRes.next (by assumption)
  · split
    · exact KeepsRes.next (by assumption)
    · exact KeepsRes.ite (KeepsRes.next (by assumption)) (KeepsRes.next (Keeps.of_out (Keeps.of_complete (by assumption))))

theorem Keeps.of_arriveFill {z : State} {x0 : State} {x1 : Fill} {x2 : Src} {x3 : BitVec 2048} (h : Keeps z x0) :
    Keeps z (@State.arriveFill x0 x1 x2 x3) := by
  unfold State.arriveFill
  extract_lets v0 v1 v2 v3 v4 v5
  subst v0 v1 v2 v3 v4 v5
  refine Keeps.ite ?_ ?_
  · refine Keeps.foldl ?_ ?_
    · intro a60 a61 h62
      exact Keeps.of_answerWaiter (by assumption)
    · exact Keeps.of_setFill (by assumption)
  · exact Keeps.of_setFill (by assumption)

theorem Keeps.of_senseDone {z : State} {x0 : State} {x1 : ℕ} {x2 : Fill} {x3 : ℕ} {x4 : BitVec 2048} {x5 : List (ℕ × Bool)} (h : Keeps z x0) :
    Keeps z (@State.senseDone x0 x1 x2 x3 x4 x5) := by
  unfold State.senseDone
  extract_lets v0 v1 v2 v3 v4 v5 v6 v7 v8
  subst v0 v1 v2 v4 v5 v6 v7
  have h60 : Keeps z v3 := Keeps.of_sensed (Keeps.of_setDie (by assumption))
  clear_value v3
  refine Keeps.ite ?_ ?_
  · exact Keeps.of_setFill (by assumption)
  · refine Keeps.ite ?_ ?_
    · apply Keeps.of_arriveFill
      dsimp only [v8]
      exact Keeps.of_decoded (by assumption)
    · refine Keeps.ite ?_ ?_
      · apply Keeps.of_arriveFill
        dsimp only [v8]
        exact Keeps.of_decoded (Keeps.trans (t := v3) (by assumption) { fresh := Nat.le_succ _ })
      · exact Keeps.of_setFill (by assumption)

theorem Keeps.of_loseFill {z : State} {x0 : State} {x1 : Fill} {x2 : ℕ} (h : Keeps z x0) :
    Keeps z (@State.loseFill x0 x1 x2) := by
  unfold State.loseFill
  extract_lets v0
  have h60 : Keeps z v0 := Keeps.of_setFill (by assumption)
  clear_value v0
  exact Keeps.ite (by assumption) (Keeps.of_sectorLost (by assumption))

theorem Keeps.of_rebuildOrLose {z : State} {x0 : State} {x1 : Fill} (h : Keeps z x0) :
    Keeps z (@State.rebuildOrLose x0 x1) := by
  unfold State.rebuildOrLose
  exact Keeps.ite (Keeps.of_setFill (by assumption)) (Keeps.of_loseFill (by assumption))

theorem KeepsRes.of_execSoftDecodeComplete {z : State} {x0 : ℕ} {x1 : BitVec 35} {x2 : ℕ} {x3 : ℕ} {x4 : State} (h : Keeps z x4) :
    KeepsRes z (@execSoftDecodeComplete x0 x1 x2 x3 x4) := by
  unfold execSoftDecodeComplete
  extract_lets v0 v1 v2
  subst v1 v2
  have h60 : Keeps z v0 := Keeps.of_tick (by assumption)
  clear_value v0
  split
  · exact KeepsRes.next (by assumption)
  · refine KeepsRes.ite ?_ ?_
    · exact KeepsRes.next (by assumption)
    · refine KeepsRes.ite ?_ ?_
      · extract_lets v66
        have h126 : Keeps z v66 := Keeps.of_ev (Keeps.of_count (Keeps.of_bump (by assumption)))
        clear_value v66
        exact KeepsRes.next (Keeps.of_arriveFill (Keeps.of_setDue (by assumption)))
      · exact KeepsRes.next (Keeps.of_rebuildOrLose (Keeps.of_count (Keeps.of_bump (by assumption))))

theorem Keeps.of_endOp {z : State} {x0 : State} {x1 : ℕ} (h : Keeps z x0) : Keeps z (@State.endOp x0 x1) := by
  unfold State.endOp
  exact Keeps.of_setDie (by assumption)

theorem Keeps.of_moveInteg {z : State} {x0 : State} {x1 : List ℕ} (h : Keeps z x0) : Keeps z (@State.moveInteg x0 x1) := by
  unfold State.moveInteg
  refine Keeps.foldl ?_ ?_
  · intro a0 a1 h2
    exact Keeps.of_integPlace (by assumption)
  · assumption

theorem Keeps.of_restorePoisoned {z : State} {x0 : State} {x1 : ℕ} (h : Keeps z x0) :
    Keeps z (@State.restorePoisoned x0 x1) := by
  unfold State.restorePoisoned
  split
  · refine Keeps.ite ?_ ?_
    · extract_lets v6 v7
      subst v6 v7
      exact Keeps.of_sealSector (Keeps.of_use (Keeps.of_keepStored (by assumption)))
    · assumption
  · assumption

theorem Keeps.of_redoCopies {z : State} {x0 : ℕ} {x1 : ℕ} {x2 : State} {x3 : ℕ × List (ℕ × Loc)} (h : Keeps z x2) :
    Keeps z (@redoCopies x0 x1 x2 x3) := by
  unfold redoCopies
  split
  · assumption
  · refine Keeps.ite ?_ ?_
    · assumption
    · extract_lets v5 v6 v7
      subst v7
      have h65 : Keeps z v5.1 := by
        dsimp only [v5]
        refine Keeps.foldl_fst ?_ ?_
        · intro a66 a67 h68
          split
          · split
            · rename_i m70 m71 m72 m73
              have h74 : Keeps z m71 := by
                exact Keeps.fst m73 (Keeps.of_pageSlot (by assumption))
              exact Keeps.pair (Keeps.of_copyFolio (by assumption))
            · rename_i m75 m76 m77
              have h78 : Keeps z m76 := by
                exact Keeps.fst m77 (Keeps.of_pageSlot (by assumption))
              exact Keeps.pair (by assumption)
          · exact Keeps.pair (by assumption)
        · exact Keeps.pair (by assumption)
      clear_value v5
      subst v6
      apply Keeps.of_ev
      apply Keeps.of_bump
      exact Keeps.trans (t := Prod.fst v5) (by assumption) { map := (fun k => by simp only [mapOk, Bool.and_eq_true] at k ⊢; simp [k]) }

theorem Keeps.of_pageReported {z : State} {x0 : State} {x1 : ℕ} {x2 : ℕ} {x3 : ℕ} (h : Keeps z x0) :
    Keeps z (@State.pageReported x0 x1 x2 x3) := by
  unfold State.pageReported
  split
  · assumption
  · extract_lets v5 v6 v7
    subst v5 v6
    have h65 : Keeps z v7 := Keeps.trans (t := x0) (by assumption) {  }
    clear_value v7
    exact Keeps.ite (Keeps.of_pageDone (by assumption)) (by assumption)

theorem Keeps.of_failBlock {z : State} {x0 : State} {x1 : ℕ} {x2 : ℕ} (h : Keeps z x0) :
    Keeps z (@State.failBlock x0 x1 x2) := by
  unfold State.failBlock
  refine Keeps.ite ?_ ?_
  · assumption
  · extract_lets v0
    subst v0
    apply Keeps.of_freeIfEmpty
    refine Keeps.foldl ?_ ?_
    · intro a60 a61 h62
      exact Keeps.of_redoCopies (by assumption)
    · exact Keeps.of_closeBlock (by assumption)

theorem Keeps.of_closeOnDie {z : State} {x0 : State} {x1 : ℕ} {x2 : ℕ} (h : Keeps z x0) :
    Keeps z (@State.closeOnDie x0 x1 x2) := by
  unfold State.closeOnDie
  extract_lets v0 v1
  subst v1
  have h60 : Keeps z v0 := by
    dsimp only [v0]
    split
    · exact Keeps.of_failBlock (by assumption)
    · assumption
  clear_value v0
  exact Keeps.trans (t := v0) (by assumption) { med := (fun k => by simp only [medOk, Bool.and_eq_true] at k ⊢; simp [k]) }

theorem Keeps.of_secondDie {z : State} {x0 : State} {x1 : ℕ} {x2 : ℕ} {x3 : ℕ} (h : Keeps z x0) :
    Keeps z (@State.secondDie x0 x1 x2 x3) := by
  unfold State.secondDie
  extract_lets v0 v1 v2 v3 v4
  subst v0 v3
  have h60 : Keeps z v2 := by
    dsimp only [v2]
    refine Keeps.foldl ?_ ?_
    · intro a61 a62 h63
      exact Keeps.of_losePoison (by assumption)
    · refine Keeps.foldl ?_ ?_
      · intro a64 a65 h66
        dsimp only [v1]
        split
        · split
          · exact Keeps.trans (t := a64) (by assumption) { med := (fun k => by simp only [medOk, Bool.and_eq_true] at k ⊢; simp [k]) }
          · assumption
        · assumption
      · assumption
  clear_value v2
  have h77 : Keeps z v4 := Keeps.trans (t := v2) (by assumption) {  }
  clear_value v4
  exact Keeps.of_enterFro (Keeps.of_ev (by assumption))

theorem Keeps.of_startRebuild {z : State} {x0 : State} {x1 : ℕ} {x2 : ℕ} (h : Keeps z x0) :
    Keeps z (@State.startRebuild x0 x1 x2) := by
  unfold State.startRebuild
  refine Keeps.ite ?_ ?_
  · exact Keeps.trans (t := x0) (by assumption) {  }
  · extract_lets v0 v1
    subst v0
    have h60 : Keeps z v1 := Keeps.of_ev (Keeps.trans (t := x0) (by assumption) {  })
    clear_value v1
    exact Keeps.of_moveInteg (by assumption)

theorem Keeps.of_retireDie {z : State} {x0 : State} {x1 : ℕ} {x2 : ℕ} (h : Keeps z x0) :
    Keeps z (@State.retireDie x0 x1 x2) := by
  unfold State.retireDie
  refine Keeps.ite ?_ ?_
  · assumption
  · extract_lets v0 v1 v2 v3 v4 v5 v6 v7 v8 v9 v10 v11 v12
    subst v0 v1 v2 v4 v5 v7 v9 v10
    have h60 : Keeps z v3 := Keeps.of_setDie (by assumption)
    clear_value v3
    have h61 : Keeps z v6 := by
      dsimp only [v6]
      exact Keeps.trans (t := v3) (by assumption) { cal := (fun k => by simp only [calOk, Bool.and_eq_true] at k ⊢; simp [k]) }
    clear_value v6
    have h62 : Keeps z v11 := by
      dsimp only [v11]
      apply Keeps.of_endUpdates
      exact Keeps.trans (t := v6) (by assumption) { med := (fun k => by simp only [medOk, Bool.and_eq_true] at k ⊢; simp [k]) }
    clear_value v11
    have h63 : Keeps z v12 := Keeps.of_closeOnDie (Keeps.of_ev (Keeps.of_ownRow (by assumption)))
    clear_value v12
    split
    · exact Keeps.of_secondDie (by assumption)
    · exact Keeps.of_startRebuild (by assumption)

theorem Keeps.of_retireBlock {z : State} {x0 : State} {x1 : ℕ} {x2 : ℕ} {x3 : ℕ} {x4 : ℕ} (h : Keeps z x0) :
    Keeps z (@State.retireBlock x0 x1 x2 x3 x4) := by
  unfold State.retireBlock
  extract_lets v0 v1 v2 v3 v4 v5 v6
  subst v0 v1 v2 v3
  have h60 : Keeps z v4 := Keeps.of_setDie (by assumption)
  clear_value v4
  have h61 : Keeps z v5 := Keeps.of_drawSpare (Keeps.of_ev (by assumption))
  clear_value v5
  have h62 : Keeps z v6 := Keeps.ite (Keeps.of_ev (by assumption)) (by assumption)
  clear_value v6
  exact Keeps.ite (Keeps.of_retireDie (by assumption)) (by assumption)

theorem Keeps.of_resetDone {z : State} {x0 : State} {x1 : ℕ} {x2 : ℕ} {x3 : ℕ} (h : Keeps z x0) :
    Keeps z (@State.resetDone x0 x1 x2 x3) := by
  unfold State.resetDone
  extract_lets v0
  subst v0
  exact Keeps.ite (by assumption) (Keeps.of_setBlock (by assumption))

theorem Keeps.of_newMember {z : State} {x0 : State} {x1 : ℕ} {x2 : ℕ} {x3 : ℕ} (h : Keeps z x0) :
    Keeps z (@State.newMember x0 x1 x2 x3) := by
  unfold State.newMember
  extract_lets v0
  subst v0
  split
  · refine Keeps.ite ?_ ?_
    · assumption
    · extract_lets v63
      have h123 : Keeps z v63 := Keeps.of_takeMember (by assumption)
      clear_value v63
      exact Keeps.of_setBlock (by assumption)
  · assumption

theorem Keeps.of_finishOp {z : State} {x0 : State} {x1 : ℕ} {x2 : Sys2Proof.DieResult} (h : Keeps z x0) :
    Keeps z (@State.finishOp x0 x1 x2) := by
  unfold State.finishOp
  extract_lets v0 v1
  subst v0 v1
  split
  · split
    · assumption
    · extract_lets v71 v72 v73
      subst v71 v72 v73
      exact Keeps.ite (Keeps.of_senseDone (by assumption)) (by assumption)
  · assumption
  · refine Keeps.ite ?_ ?_
    · assumption
    · exact Keeps.of_endOp (Keeps.ite (Keeps.of_wroteLedger (by assumption)) (Keeps.of_wroteSector (by assumption)))
  · refine Keeps.ite ?_ ?_
    · assumption
    · refine Keeps.ite ?_ ?_
      · exact Keeps.of_pageReported (Keeps.of_endOp (by assumption))
      · exact Keeps.of_failBlock (Keeps.of_retireBlock (Keeps.of_bump (Keeps.of_endOp (by assumption))))
  · refine Keeps.ite ?_ ?_
    · assumption
    · refine Keeps.ite ?_ ?_
      · exact Keeps.of_resetDone (Keeps.of_endOp (by assumption))
      · exact Keeps.of_newMember (Keeps.of_retireBlock (Keeps.of_bump (Keeps.of_endOp (by assumption))))

theorem KeepsRes.of_execOperationSuspended {z : State} {x0 : ℕ} {x1 : Fin 64} {x2 : State} (h : Keeps z x2) :
    KeepsRes z (@execOperationSuspended x0 x1 x2) := by
  unfold execOperationSuspended
  extract_lets v0 v1 v2
  subst v1 v2
  have h60 : Keeps z v0 := Keeps.of_tick (by assumption)
  clear_value v0
  refine KeepsRes.ite ?_ ?_
  · refine KeepsRes.fault _
  · split
    · exact KeepsRes.next (by assumption)
    · extract_lets v66 v67
      subst v66 v67
      refine KeepsRes.ite ?_ ?_
      · exact KeepsRes.next (by assumption)
      · exact KeepsRes.next (Keeps.of_count (Keeps.of_bump (Keeps.of_setDie (by assumption))))

theorem Keeps.of_peersRead {z : State} {x0 : State} {x1 : List ℕ} (h : Keeps z x0) : Keeps z (@State.peersRead x0 x1) := by
  unfold State.peersRead
  refine Keeps.foldl ?_ ?_
  · intro a0 a1 h2
    exact Keeps.of_bump (Keeps.of_setDie (by assumption))
  · assumption

theorem Keeps.of_freshNode {z : State} {x0 : State} {x1 : ℕ} {x2 : ℕ} (h : Keeps z x0) :
    Keeps z (@State.freshNode x0 x1 x2) := by
  unfold State.freshNode
  extract_lets v0 v1 v2 v3 v4 v5
  subst v0 v1 v2 v4
  have h60 : Keeps z v3 := Keeps.trans (t := x0) (by assumption) {  }
  clear_value v3
  have h61 : Keeps z v5 := by
    dsimp only [v5]
    refine Keeps.ite ?_ ?_
    · exact Keeps.of_setCtr (by assumption)
    · exact Keeps.trans (t := v3) (by assumption) { key := (fun k => by simp only [keyOk, Bool.and_eq_true] at k ⊢; simp [k]) }
  clear_value v5
  exact Keeps.of_bumpNode (by assumption)

theorem Keeps.of_linePeers {z : State} {x0 : State} {x1 : ℕ} {x2 : List ℕ} (h : Keeps z x0) :
    Keeps z (@State.linePeers x0 x1 x2) := by
  unfold State.linePeers
  split
  · exact Keeps.of_peersReport (by assumption)
  · assumption

theorem KeepsRes.of_execReconstructionComplete {z : State} {x0 : ℕ} {x1 : BitVec 35} {x2 : List (Fin 64 × Bool)} {x3 : State} (h : Keeps z x3) :
    KeepsRes z (@execReconstructionComplete x0 x1 x2 x3) := by
  unfold execReconstructionComplete
  extract_lets v0 v1 v2 v3 v4 v5 v6 v7 v8 v9
  subst v1 v2 v4 v5 v6 v8 v9
  have h60 : Keeps z v0 := Keeps.of_tick (by assumption)
  clear_value v0
  have h61 : Keeps z v3 := Keeps.of_linePeers (Keeps.of_peersRead (by assumption))
  clear_value v3
  have h62 : Keeps z v7 := Keeps.of_bump (Keeps.of_bump (by assumption))
  clear_value v7
  split
  · exact KeepsRes.next (by assumption)
  · extract_lets v68 v69 v70 v71 v72
    subst v68 v69 v72
    have h128 : Keeps z v70 := Keeps.ite (Keeps.trans (t := v3) (by assumption) {  }) (by assumption)
    clear_value v70
    have h129 : Keeps z v71 := Keeps.ite (by assumption) (Keeps.of_setDue (Keeps.of_bump (by assumption)))
    clear_value v71
    refine KeepsRes.ite ?_ ?_
    · exact KeepsRes.next (by assumption)
    · refine KeepsRes.ite ?_ ?_
      · refine KeepsRes.ite ?_ ?_
        · exact KeepsRes.next (Keeps.of_setFill (by assumption))
        · refine KeepsRes.next ?_
          refine Keeps.foldl ?_ ?_
          · intro a130 a131 h132
            split
            · exact Keeps.ite (by assumption) (Keeps.of_sectorLost (by assumption))
            · assumption
          · exact Keeps.of_loseFill (by assumption)
      · exact KeepsRes.next (Keeps.of_arriveFill (Keeps.ite (by assumption) (Keeps.of_bump (by assumption))))

theorem Keeps.of_refetchCtr {z : State} {x0 : State} {x1 : ℕ} (h : Keeps z x0) : Keeps z (@State.refetchCtr x0 x1) := by
  unfold State.refetchCtr
  refine Keeps.ite ?_ ?_
  · extract_lets v0 v1
    subst v1
    have h60 : Keeps z v0 := Keeps.of_lastUnc (by assumption)
    clear_value v0
    apply Keeps.of_nodeLookup
    exact Keeps.trans (t := v0) (by assumption) { key := (fun k => by simp only [keyOk, Bool.and_eq_true] at k ⊢; simp [k]) }
  · assumption

theorem Keeps.of_nodeEvent {z : State} {x0 : ℕ} {x1 : ℕ} {x2 : ℕ} {x3 : State} (h : Keeps z x3) :
    Keeps z (@nodeEvent x0 x1 x2 x3) := by
  unfold nodeEvent
  exact Keeps.ite (Keeps.of_ev (by assumption)) (Keeps.of_ev (by assumption))

theorem Keeps.of_countNode {z : State} {x0 : State} {x1 : ℕ} {x2 : ℕ} {x3 : ℕ} (h : Keeps z x0) :
    Keeps z (@State.countNode x0 x1 x2 x3) := by
  unfold State.countNode
  apply Keeps.of_setReg
  exact Keeps.of_setReg (Keeps.of_bump (Keeps.ite (Keeps.of_bump (by assumption)) (Keeps.of_bump (by assumption))))

theorem Keeps.of_loseNode {z s : State} {lvl ix : Nat} (h : Keeps z s) : Keeps z (s.loseNode lvl ix) := by
  have mark : ∀ (a : State), Keeps z a → Keeps z { a with key := { a.key with lost := a.key.lost ++ [(lvl, ix)] } } :=
    fun a q => q.trans {}
  unfold State.loseNode
  refine Keeps.ite h (Keeps.of_nodeEvent (Keeps.of_countNode (Keeps.foldl (fun a d q => Keeps.of_losePoison q) ?_)))
  exact mark _ (Keeps.of_freshNode h)

theorem Keeps.of_nodeFail {z : State} {x0 : State} {x1 : Sys2Proof.NodeFail} (h : Keeps z x0) :
    Keeps z (@State.nodeFail x0 x1) := by
  unfold State.nodeFail
  split
  · exact Keeps.ite (Keeps.of_bump (by assumption)) (by assumption)
  · exact Keeps.ite (Keeps.of_ev (Keeps.of_lastUnc (Keeps.of_bump (by assumption)))) (Keeps.of_refetchCtr (by assumption))
  · refine Keeps.ite ?_ ?_
    · exact Keeps.of_loseNode (Keeps.of_ev (Keeps.of_lastUnc (Keeps.of_bump (by assumption))))
    · exact Keeps.of_refetchCtr (by assumption)
  · extract_lets v9
    subst v9
    split
    · exact Keeps.of_integPlace (by assumption)
    · assumption
  · exact Keeps.of_loseNode (by assumption)

theorem Keeps.of_macFailed {z : State} {x0 : State} {x1 : ℕ} {x2 : Bool} (h : Keeps z x0) :
    Keeps z (@State.macFailed x0 x1 x2) := by
  unfold State.macFailed
  extract_lets v0 v1 v2 v3 v4
  subst v0 v1 v4
  have h60 : Keeps z v2 := Keeps.of_setReg (Keeps.of_setReg (Keeps.of_bump (by assumption)))
  clear_value v2
  have h61 : Keeps z v3 := Keeps.of_ev (by assumption)
  clear_value v3
  refine Keeps.ite ?_ ?_
  · exact Keeps.ite (Keeps.trans (t := v3) (by assumption) {  }) (by assumption)
  · exact Keeps.of_ev (Keeps.of_setReg (Keeps.of_setReg (Keeps.of_bump (by assumption))))

theorem KeepsRes.of_execChannelGate {z : State} {x0 : ChannelAt} {x1 : State} (h : Keeps z x1) :
    KeepsRes z (@execChannelGate x0 x1) := by
  unfold execChannelGate
  extract_lets v0 v1 v2 v3
  subst v1 v2 v3
  have h60 : Keeps z v0 := Keeps.of_tick (by assumption)
  clear_value v0
  exact KeepsRes.next (Keeps.ite (by assumption) (Keeps.trans (t := v0) (by assumption) {  }))

theorem KeepsRes.of_execOperationResume {z : State} {x0 : ℕ} {x1 : Fin 64} {x2 : State} (h : Keeps z x2) :
    KeepsRes z (@execOperationResume x0 x1 x2) := by
  unfold execOperationResume
  extract_lets v0 v1 v2
  subst v1 v2
  have h60 : Keeps z v0 := Keeps.of_tick (by assumption)
  clear_value v0
  refine KeepsRes.ite ?_ ?_
  · refine KeepsRes.fault _
  · split
    · exact KeepsRes.next (by assumption)
    · refine KeepsRes.ite ?_ ?_
      · extract_lets v66
        subst v66
        exact KeepsRes.next (Keeps.of_setDie (by assumption))
      · exact KeepsRes.next (by assumption)

theorem KeepsRes.of_execRebuildMove {z : State} {x0 : ℕ} {x1 : Fin 4} {x2 : BitVec 29} {x3 : State} (h : Keeps z x3) :
    KeepsRes z (@execRebuildMove x0 x1 x2 x3) := by
  unfold execRebuildMove
  extract_lets v0 v1 v2
  subst v1 v2
  have h60 : Keeps z v0 := Keeps.of_tick (by assumption)
  clear_value v0
  split
  · exact KeepsRes.next (by assumption)
  · refine KeepsRes.ite ?_ ?_
    · exact KeepsRes.next (by assumption)
    · extract_lets v66 v67
      subst v66
      have h126 : Keeps z v67 := by
        dsimp only [v67]
        split
        · split
          · rename_i m134 m135 m136 m137
            have h138 : Keeps z m135 := by
              exact Keeps.fst m137 (Keeps.of_beadSlot (by assumption))
            exact Keeps.of_moveBead (by assumption)
          · rename_i m139 m140 m141
            have h142 : Keeps z m140 := by
              exact Keeps.fst m141 (Keeps.of_beadSlot (by assumption))
            assumption
        · exact Keeps.of_moveToPage (by assumption)
        · exact Keeps.of_moveShadow (by assumption)
      clear_value v67
      exact KeepsRes.next (Keeps.of_internalOp (by assumption))

theorem KeepsRes.of_execMacCheckComplete {z : State} {x0 : ℕ} {x1 : BitVec 35} {x2 : Option Sys2Proof.NodeFail} {x3 : State} (h : Keeps z x3) :
    KeepsRes z (@execMacCheckComplete x0 x1 x2 x3) := by
  unfold execMacCheckComplete
  extract_lets v0 v1 v2
  subst v2
  have h60 : Keeps z v0 := Keeps.of_tick (by assumption)
  clear_value v0
  have h61 : Keeps z v1 := by
    dsimp only [v1]
    split
    · exact Keeps.of_nodeFail (by assumption)
    · assumption
  clear_value v1
  split
  · exact KeepsRes.next (by assumption)
  · refine KeepsRes.ite ?_ ?_
    · exact KeepsRes.next (by assumption)
    · extract_lets v70 v71 v72
      subst v70 v71
      have h130 : Keeps z v72 := by
        dsimp only [v72]
        refine Keeps.foldl ?_ ?_
        · intro a131 a132 h133
          exact Keeps.of_macFailed (by assumption)
        · assumption
      clear_value v72
      refine KeepsRes.ite ?_ ?_
      · exact KeepsRes.next (Keeps.of_setFill (by assumption))
      · exact KeepsRes.next (Keeps.of_setFill (by assumption))

theorem KeepsRes.of_execLostNodeRewriteComplete {z : State} {x0 : ℕ} {x1 : Fin 4} {x2 : ℕ} {x3 : State} (h : Keeps z x3) :
    KeepsRes z (@execLostNodeRewriteComplete x0 x1 x2 x3) := by
  unfold execLostNodeRewriteComplete
  extract_lets v0 v1 v2 v3 v4
  subst v1 v3
  have h60 : Keeps z v0 := Keeps.of_tick (by assumption)
  clear_value v0
  have h61 : Keeps z v2 := by
    dsimp only [v2]
    refine Keeps.foldl ?_ ?_
    · intro a62 a63 h64
      exact Keeps.of_restorePoisoned (by assumption)
    · assumption
  clear_value v2
  have h65 : Keeps z v4 := Keeps.trans (t := v2) (by assumption) {  }
  clear_value v4
  refine KeepsRes.ite ?_ ?_
  · exact KeepsRes.next (by assumption)
  · refine KeepsRes.next ?_
    refine Keeps.foldl ?_ ?_
    · intro a66 a67 h68
      exact Keeps.of_settleMarked (by assumption)
    · assumption

theorem KeepsRes.of_execChannelWakeComplete {z : State} {x0 : ℕ} {x1 : Fin 16} {x2 : ℕ} {x3 : Bool} {x4 : State} (h : Keeps z x4) :
    KeepsRes z (@execChannelWakeComplete x0 x1 x2 x3 x4) := by
  unfold execChannelWakeComplete
  extract_lets v0 v1 v2 v3 v4
  subst v1 v2
  have h60 : Keeps z v0 := Keeps.of_tick (by assumption)
  clear_value v0
  have h61 : Keeps z v3 := Keeps.trans (t := v0) (by assumption) {  }
  clear_value v3
  have h62 : Keeps z v4 := Keeps.of_kick (Keeps.of_count (Keeps.of_reach (Keeps.of_bump (by assumption))))
  clear_value v4
  refine KeepsRes.ite ?_ ?_
  · exact KeepsRes.next (by assumption)
  · exact KeepsRes.next (Keeps.ite (Keeps.of_ev (by assumption)) (by assumption))

theorem KeepsRes.of_execDieOperationComplete {z : State} {x0 : ℕ} {x1 : Fin 64} {x2 : Sys2Proof.DieResult} {x3 : State} (h : Keeps z x3) :
    KeepsRes z (@execDieOperationComplete x0 x1 x2 x3) := by
  unfold execDieOperationComplete
  extract_lets v0 v1
  subst v1
  have h60 : Keeps z v0 := Keeps.of_tick (by assumption)
  clear_value v0
  refine KeepsRes.ite ?_ ?_
  · refine KeepsRes.fault _
  · refine KeepsRes.ite ?_ ?_
    · exact KeepsRes.next (by assumption)
    · exact KeepsRes.next (Keeps.of_kick (Keeps.of_judgeAllow (Keeps.of_finishOp (by assumption))))

theorem KeepsRes.of_execRebuildComplete {z : State} {x0 : ℕ} {x1 : Fin 4} {x2 : State} (h : Keeps z x2) :
    KeepsRes z (@execRebuildComplete x0 x1 x2) := by
  unfold execRebuildComplete
  extract_lets v0
  have h60 : Keeps z v0 := Keeps.of_tick (by assumption)
  clear_value v0
  split
  · exact KeepsRes.next (by assumption)
  · refine KeepsRes.ite ?_ ?_
    · exact KeepsRes.next (by assumption)
    · refine KeepsRes.ite ?_ ?_
      · exact KeepsRes.next (Keeps.of_moveInteg (by assumption))
      · extract_lets v66 v67 v68 v69 v70 v71 v72 v73
        subst v66 v68 v70 v73
        have h126 : Keeps z v67 := by
          dsimp only [v67]
          refine Keeps.foldl ?_ ?_
          · intro a127 a128 h129
            exact Keeps.of_freeIfEmpty (by assumption)
          · assumption
        clear_value v67
        have h130 : Keeps z v69 := Keeps.of_setDie (by assumption)
        clear_value v69
        have h131 : Keeps z v71 := Keeps.trans (t := v69) (by assumption) {  }
        clear_value v71
        have h132 : Keeps z v72 := Keeps.of_drawSpare (Keeps.of_ev (by assumption))
        clear_value v72
        refine KeepsRes.next ?_
        split
        · assumption
        · exact Keeps.of_startRebuild (Keeps.trans (t := v72) (by assumption) {  })

theorem KeepsRes.of_execDieCommandTimeout {z : State} {x0 : ℕ} {x1 : Fin 64} {x2 : State} (h : Keeps z x2) :
    KeepsRes z (@execDieCommandTimeout x0 x1 x2) := by
  unfold execDieCommandTimeout
  extract_lets v0 v1 v2 v3 v4 v5 v6 v7 v8 v9 v10
  subst v1 v2 v3 v4 v5 v6 v7
  have h60 : Keeps z v0 := Keeps.of_tick (by assumption)
  clear_value v0
  have h61 : Keeps z v8 := Keeps.of_setDie (by assumption)
  clear_value v8
  have h62 : Keeps z v9 := by
    dsimp only [v9]
    split
    · exact Keeps.of_setFill (by assumption)
    · assumption
  clear_value v9
  have h71 : Keeps z v10 := Keeps.of_ev (Keeps.of_bump (by assumption))
  clear_value v10
  refine KeepsRes.ite ?_ ?_
  · refine KeepsRes.fault _
  · refine KeepsRes.ite ?_ ?_
    · exact KeepsRes.next (by assumption)
    · exact KeepsRes.next (Keeps.ite (Keeps.of_retireDie (by assumption)) (by assumption))

end Sys2Proof.Laws
end

