-- ==== Sys2Proof/Laws/KeepsKeys.lean ====
section
/-! SUPPORT. One law per operation of the card that says what no operation does (Laws/Keeps.lean): reclaim, resets, the budget, the dump and keys. -/

set_option Elab.async false

namespace Sys2Proof.Laws

open Sys2Proof.Machine Sys2Proof.Safety

theorem KeepsRes.of_execDiscardRangeComplete {z : State} {x0 : ℕ} {x1 : State} (h : Keeps z x1) :
    KeepsRes z (@execDiscardRangeComplete x0 x1) := by
  unfold execDiscardRangeComplete
  extract_lets v0 v1
  subst v1
  have h60 : Keeps z v0 := Keeps.of_tick (by assumption)
  clear_value v0
  split
  · exact KeepsRes.next (by assumption)
  · refine KeepsRes.ite ?_ ?_
    · exact KeepsRes.next (by assumption)
    · exact KeepsRes.next (Keeps.of_endBackground (Keeps.of_ev (Keeps.trans (t := v0) (by assumption) {  })))

theorem KeepsRes.of_execJournalTailFlush {z : State} {x0 : ℕ} {x1 : State} (h : Keeps z x1) :
    KeepsRes z (@execJournalTailFlush x0 x1) := by
  unfold execJournalTailFlush
  extract_lets v0 v1 v2
  subst v1 v2
  have h60 : Keeps z v0 := Keeps.of_tick (by assumption)
  clear_value v0
  exact KeepsRes.next (Keeps.ite (Keeps.of_changesGo (Keeps.of_flushSector (by assumption))) (by assumption))

theorem KeepsRes.of_execDiscardRange {z : State} {x0 : ℕ} {x1 : Sys2Proof.Path} {x2 : ℕ} {x3 : ℕ} {x4 : Bool} {x5 : State} (h : Keeps z x5) :
    KeepsRes z (@execDiscardRange x0 x1 x2 x3 x4 x5) := by
  unfold execDiscardRange
  refine KeepsRes.next ?_
  apply Keeps.of_mailbox
  · intro a0 h1
    extract_lets v2 v3 v4
    subst v2 v4
    have h62 : Keeps z v3 := Keeps.of_startBackground (by assumption)
    clear_value v3
    refine Keeps.ite ?_ ?_
    · exact Keeps.of_reply (by assumption)
    · refine Keeps.ite ?_ ?_
      · exact Keeps.of_reply (by assumption)
      · exact Keeps.ite (Keeps.of_reply (by assumption)) (Keeps.trans (t := v3) (by assumption) {  })
  · exact Keeps.of_tick (by assumption)

theorem KeepsRes.of_execBeadRotation {z : State} {x0 : ℕ} {x1 : BitVec 29} {x2 : State} (h : Keeps z x2) :
    KeepsRes z (@execBeadRotation x0 x1 x2) := by
  unfold execBeadRotation
  extract_lets v0 v1 v2
  subst v1 v2
  have h60 : Keeps z v0 := Keeps.of_tick (by assumption)
  clear_value v0
  split
  · refine KeepsRes.ite ?_ ?_
    · exact KeepsRes.next (by assumption)
    · split
      · rename_i m67 m68 m69 m70
        have h71 : Keeps z m68 := by
          exact Keeps.fst m70 (Keeps.of_beadSlot (by assumption))
        exact KeepsRes.next (Keeps.of_moveBead (Keeps.of_internalOp (by assumption)))
      · rename_i m72 m73 m74
        have h75 : Keeps z m73 := by
          exact Keeps.fst m74 (Keeps.of_beadSlot (by assumption))
        exact KeepsRes.next (by assumption)
  · exact KeepsRes.next (by assumption)

theorem Keeps.of_entryLost {z : State} {x0 : State} {x1 : ℕ} (h : Keeps z x0) : Keeps z (@State.entryLost x0 x1) := by
  unfold State.entryLost
  apply Keeps.of_ev
  refine Keeps.foldl ?_ ?_
  · intro a0 a1 h2
    exact Keeps.of_losePoison (by assumption)
  · assumption

theorem KeepsRes.of_execCheckpointWriteFailed {z : State} {x0 : ℕ} {x1 : Fin 64} {x2 : State} (h : Keeps z x2) :
    KeepsRes z (@execCheckpointWriteFailed x0 x1 x2) := by
  unfold execCheckpointWriteFailed
  extract_lets v0 v1
  subst v1
  have h60 : Keeps z v0 := Keeps.of_tick (by assumption)
  clear_value v0
  refine KeepsRes.ite ?_ ?_
  · refine KeepsRes.fault _
  · split
    · exact KeepsRes.next (by assumption)
    · exact KeepsRes.next (Keeps.of_ev (Keeps.trans (t := v0) (by assumption) {  }))

theorem Keeps.of_dropLines {z : State} {x0 : State} {x1 : ℕ → Bool} (h : Keeps z x0) :
    Keeps z (@State.dropLines x0 x1) := by
  unfold State.dropLines
  extract_lets v0 v1 v2 v3 v4 v5
  subst v1 v2 v3 v4 v5
  exact Keeps.trans (t := x0) (by assumption) { cch := (fun k => by simp only [cchOk, Bool.and_eq_true] at k ⊢; simp [k]), map := (fun k => by simp only [mapOk, Bool.and_eq_true] at k ⊢; simp [k]), pfl := (fun k => by simp only [pflOk, Bool.and_eq_true] at k ⊢; simp [k]) }

theorem Keeps.of_discardFolio {z : State} {x0 : State} {x1 : ℕ} (h : Keeps z x0) : Keeps z (@State.discardFolio x0 x1) := by
  unfold State.discardFolio
  extract_lets v0 v1 v2 v3 v4 v5
  subst v0 v3
  have h60 : Keeps z v1 := Keeps.of_unlistFolio (Keeps.of_dropLines (by assumption))
  clear_value v1
  have h61 : Keeps z v2 := Keeps.of_mapChange (by assumption)
  clear_value v2
  have h62 : Keeps z v4 := by
    dsimp only [v4]
    exact Keeps.trans (t := v2) (by assumption) { map := (fun k => by simp only [mapOk, Bool.and_eq_true] at k ⊢; simp [k]) }
  clear_value v4
  have h63 : Keeps z v5 := by
    dsimp only [v5]
    split
    · exact Keeps.of_freeIfEmpty (by assumption)
    · assumption
  clear_value v5
  exact Keeps.of_leaveFro (by assumption)

theorem Keeps.of_fillSlotOf {z : State} {n g : Nat} {s : State} (h : Keeps z s) : Keeps z (fillSlotOf n g s) := by
  induction n generalizing s with
  | zero => exact h
  | succ n ih =>
    unfold fillSlotOf
    split
    · exact h
    · refine Keeps.ite h (ih ?_)
      split
      · split
        · rename_i heq
          exact Keeps.of_setHome (Keeps.of_copyFolio (Keeps.fst heq (Keeps.of_fillPage h)))
        · exact Keeps.of_fillPage h
      · split
        · split
          · rename_i heq
            extract_lets s2
            have h2 : Keeps z s2 := Keeps.of_copyFolio (Keeps.fst heq (Keeps.of_fillPage h))
            clear_value s2
            refine h2.trans { map := fun k => ?_ }
            simp only [mapOk, Bool.and_eq_true] at k ⊢
            exact ⟨k.1, Tab.wf_put _ _ _ k.2⟩
          · rename_i heq
            exact Keeps.fst heq (Keeps.of_fillPage h)
        · exact Keeps.of_fillPage h

theorem KeepsRes.of_execStripePageFillTimeout {z : State} {x0 : ℕ} {x1 : Fin 4} {x2 : State} (h : Keeps z x2) :
    KeepsRes z (@execStripePageFillTimeout x0 x1 x2) := by
  unfold execStripePageFillTimeout
  extract_lets v0
  have h60 : Keeps z v0 := Keeps.of_tick (by assumption)
  clear_value v0
  split
  · exact KeepsRes.next (by assumption)
  · split
    · exact KeepsRes.next (by assumption)
    · exact KeepsRes.ite (KeepsRes.next (by assumption)) (KeepsRes.next (Keeps.of_fillSlotOf (by assumption)))

theorem Keeps.of_moveTo {z : State} {x0 : State} {x1 : ℕ} {x2 : ℕ} {x3 : ℕ} {x4 : Loc} {x5 : Bool} (h : Keeps z x0) :
    Keeps z (@State.moveTo x0 x1 x2 x3 x4 x5) := by
  unfold State.moveTo
  refine Keeps.ite ?_ ?_
  · extract_lets v0
    subst v0
    exact Keeps.of_setHome (Keeps.of_stampInteg (by assumption))
  · refine Keeps.ite ?_ ?_
    · split
      · exact Keeps.ite (Keeps.of_moveBead (by assumption)) (Keeps.of_setHome (Keeps.of_copyFolio (by assumption)))
      · assumption
    · split
      · exact Keeps.of_setHome (Keeps.of_copyFolio (by assumption))
      · assumption

theorem Keeps.of_reclaimCopy {z : State} {x0 : State × List (ℕ × Loc)} {x1 : ℕ × Loc} (h : Keeps z x0.1) :
    Keeps z (@reclaimCopy x0 x1).1 := by
  unfold reclaimCopy
  split
  · rename_i m0 m1 m2 m3
    have h4 : Keeps z m1 := by
      exact Keeps.fst m3 (Keeps.of_pageSlot (by assumption))
    exact Keeps.pair (Keeps.of_copyFolio (by assumption))
  · rename_i m5 m6 m7
    have h8 : Keeps z m6 := by
      exact Keeps.fst m7 (Keeps.of_pageSlot (by assumption))
    exact Keeps.pair (by assumption)

theorem KeepsRes.of_execReclaimDrainComplete {z : State} {x0 : ℕ} {x1 : Fin 4} {x2 : State} (h : Keeps z x2) :
    KeepsRes z (@execReclaimDrainComplete x0 x1 x2) := by
  unfold execReclaimDrainComplete
  extract_lets v0 v1 v2
  subst v1
  have h60 : Keeps z v0 := Keeps.of_tick (by assumption)
  clear_value v0
  have h61 : Keeps z v2 := by
    dsimp only [v2]
    exact Keeps.trans (t := v0) (by assumption) { map := (fun k => by simp only [mapOk, Bool.and_eq_true] at k ⊢; simp [k]) }
  clear_value v2
  split
  · exact KeepsRes.next (by assumption)
  · extract_lets v67
    subst v67
    refine KeepsRes.ite ?_ ?_
    · exact KeepsRes.next (by assumption)
    · exact KeepsRes.next (Keeps.of_freeIfEmpty (Keeps.of_bump (by assumption)))

theorem Keeps.of_reclaimCopies {z : State} {x0 : State} {x1 : ℕ} {x2 : Reclaim} {x3 : List (ℕ × Loc)} (h : Keeps z x0) :
    Keeps z (@State.reclaimCopies x0 x1 x2 x3) := by
  unfold State.reclaimCopies
  extract_lets v0 v1 v2
  subst v2
  have h60 : Keeps z v0.1 := by
    dsimp only [v0]
    refine Keeps.foldl_fst ?_ ?_
    · intro a61 a62 h63
      exact Keeps.of_reclaimCopy (by assumption)
    · exact Keeps.pair (by assumption)
  clear_value v0
  have h64 : Keeps z v1 := Keeps.of_moveInteg (by assumption)
  clear_value v1
  apply Keeps.of_internalOp
  exact Keeps.trans (t := v1) (by assumption) { map := (fun k => by simp only [mapOk, Bool.and_eq_true] at k ⊢; simp [k]) }

theorem KeepsRes.of_execCheckpointSealed {z : State} {t ms : Nat} {s : State} (h : Keeps z s) :
    KeepsRes z (execCheckpointSealed t ms s) := by
  unfold execCheckpointSealed
  have h1 : Keeps z (s.tick t) := Keeps.of_tick h
  generalize s.tick t = s1 at h1
  dsimp only
  split
  · exact KeepsRes.next h1
  · refine KeepsRes.ite (KeepsRes.next h1) ?_
    exact KeepsRes.next (Keeps.of_changesGo (Keeps.of_judgeCkpt (Keeps.of_judgeJournal (Keeps.of_ev (h1.trans
      { map := fun k => mapOk_sealed (m := s1.map) k _ _ _ _ _ })))))

theorem KeepsRes.of_execReclaimCommitDurable {z : State} {x0 : ℕ} {x1 : Fin 4} {x2 : State} (h : Keeps z x2) :
    KeepsRes z (@execReclaimCommitDurable x0 x1 x2) := by
  unfold execReclaimCommitDurable
  extract_lets v0 v1
  subst v1
  have h60 : Keeps z v0 := Keeps.of_tick (by assumption)
  clear_value v0
  split
  · exact KeepsRes.next (by assumption)
  · refine KeepsRes.next ?_
    refine Keeps.ite ?_ ?_
    · exact Keeps.trans (t := v0) (by assumption) { map := (fun k => by simp only [mapOk, Bool.and_eq_true] at k ⊢; simp [k]) }
    · assumption

theorem KeepsRes.of_execDemotionSweep {z : State} {x0 : State} (h : Keeps z x0) : KeepsRes z (@execDemotionSweep x0) := by
  unfold execDemotionSweep
  exact KeepsRes.next (Keeps.of_sweepClocks (by assumption))

theorem KeepsRes.of_execDemotion {z : State} {x0 : ℕ} {x1 : BitVec 29} {x2 : State} (h : Keeps z x2) :
    KeepsRes z (@execDemotion x0 x1 x2) := by
  unfold execDemotion
  extract_lets v0
  have h60 : Keeps z v0 := Keeps.of_tick (by assumption)
  clear_value v0
  refine KeepsRes.ite ?_ ?_
  · exact KeepsRes.next (by assumption)
  · split
    · exact KeepsRes.next (Keeps.of_sweepClocks (by assumption))
    · exact KeepsRes.next (Keeps.ite (Keeps.of_internalOp (Keeps.of_moveToPage (by assumption))) (by assumption))

theorem Keeps.of_commitCopy {z : State} {x0 : ℕ} {x1 : ℕ} {x2 : State} {x3 : ℕ × Loc} (h : Keeps z x2) :
    Keeps z (@commitCopy x0 x1 x2 x3) := by
  unfold commitCopy
  extract_lets v0 v1 v2
  subst v0 v1 v2
  refine Keeps.ite ?_ ?_
  · exact Keeps.ite (Keeps.of_mapChange (by assumption)) (Keeps.of_bump (by assumption))
  · split
    · refine Keeps.ite ?_ ?_
      · apply Keeps.of_mapChange
        exact Keeps.trans (t := x2) (by assumption) { ring := (fun k => by simp only [ringOk, Bool.and_eq_true] at k ⊢; simp [k]) }
      · exact Keeps.of_bump (by assumption)
    · exact Keeps.of_bump (by assumption)

theorem KeepsRes.of_execReclaimCopyComplete {z : State} {x0 : ℕ} {x1 : Fin 4} {x2 : State} (h : Keeps z x2) :
    KeepsRes z (@execReclaimCopyComplete x0 x1 x2) := by
  unfold execReclaimCopyComplete
  extract_lets v0 v1
  subst v1
  have h60 : Keeps z v0 := Keeps.of_tick (by assumption)
  clear_value v0
  split
  · exact KeepsRes.next (by assumption)
  · extract_lets v66 v67 v68 v69
    subst v66 v69
    have h126 : Keeps z v67 := by
      dsimp only [v67]
      refine Keeps.foldl ?_ ?_
      · intro a127 a128 h129
        exact Keeps.of_commitCopy (by assumption)
      · assumption
    clear_value v67
    have h130 : Keeps z v68 := Keeps.of_bump (by assumption)
    clear_value v68
    refine KeepsRes.ite ?_ ?_
    · exact KeepsRes.next (by assumption)
    · refine KeepsRes.next ?_
      exact Keeps.trans (t := v68) (by assumption) { map := (fun k => by simp only [mapOk, Bool.and_eq_true] at k ⊢; simp [k]) }

theorem Keeps.of_moveInto {z : State} {x0 : State} {x1 : ℕ} {x2 : ℕ} {x3 : ℕ} (h : Keeps z x0) :
    Keeps z (@State.moveInto x0 x1 x2 x3) := by
  unfold State.moveInto
  extract_lets v0 v1 v2 v3 v4 v5 v6 v7
  subst v0 v2 v3 v4 v6 v7
  have h60 : Keeps z v1 := Keeps.of_takeNumber (by assumption)
  clear_value v1
  have h61 : Keeps z v5 := by
    dsimp only [v5]
    refine Keeps.foldl ?_ ?_
    · intro a62 a63 h64
      refine Keeps.foldl ?_ ?_
      · intro a65 a66 h67
        exact Keeps.of_moveTo (by assumption)
      · assumption
    · assumption
  clear_value v5
  refine Keeps.ite ?_ ?_
  · refine Keeps.foldl ?_ ?_
    · intro a68 a69 h70
      extract_lets v71
      have h131 : Keeps z v71 := Keeps.of_moveTo (by assumption)
      clear_value v71
      refine Keeps.ite ?_ ?_
      · exact Keeps.of_commitHome (by assumption)
      · exact Keeps.ite (by assumption) (Keeps.of_startUpdate (by assumption))
    · assumption
  · exact Keeps.of_kick (Keeps.of_sealBlock (Keeps.trans (t := v5) (by assumption) {  }))

theorem KeepsRes.of_execWearLevelCheck {z : State} {x0 : ℕ} {x1 : Fin 64} {x2 : State} (h : Keeps z x2) :
    KeepsRes z (@execWearLevelCheck x0 x1 x2) := by
  unfold execWearLevelCheck
  extract_lets v0 v1 v2 v3 v4
  subst v1 v2 v3
  have h60 : Keeps z v0 := Keeps.of_tick (by assumption)
  clear_value v0
  have h61 : Keeps z v4 := Keeps.of_setDie (by assumption)
  clear_value v4
  refine KeepsRes.ite ?_ ?_
  · refine KeepsRes.fault _
  · refine KeepsRes.ite ?_ ?_
    · exact KeepsRes.next (by assumption)
    · split
      · extract_lets v69 v70
        subst v69 v70
        refine KeepsRes.ite ?_ ?_
        · exact KeepsRes.next (by assumption)
        · exact KeepsRes.next (Keeps.of_ev (Keeps.of_internalOp (Keeps.of_moveInto (by assumption))))
      · exact KeepsRes.next (by assumption)

theorem KeepsRes.of_execReclaimSourceChosen {z : State} {x0 : ℕ} {x1 : Fin 4} {x2 : State} (h : Keeps z x2) :
    KeepsRes z (@execReclaimSourceChosen x0 x1 x2) := by
  unfold execReclaimSourceChosen
  extract_lets v0 v1
  subst v1
  have h60 : Keeps z v0 := Keeps.of_tick (by assumption)
  clear_value v0
  refine KeepsRes.ite ?_ ?_
  · exact KeepsRes.next (by assumption)
  · split
    · exact KeepsRes.next (Keeps.ite (by assumption) (Keeps.of_reclaimCopies (by assumption)))
    · exact KeepsRes.next (Keeps.of_reclaimCopies (by assumption))
    · exact KeepsRes.next (by assumption)

theorem KeepsRes.of_execDiscardRangeFolio {z : State} {x0 : ℕ} {x1 : State} (h : Keeps z x1) :
    KeepsRes z (@execDiscardRangeFolio x0 x1) := by
  unfold execDiscardRangeFolio
  extract_lets v0
  have h60 : Keeps z v0 := Keeps.of_tick (by assumption)
  clear_value v0
  split
  · exact KeepsRes.next (by assumption)
  · refine KeepsRes.ite ?_ ?_
    · exact KeepsRes.next (by assumption)
    · extract_lets v66 v67
      subst v67
      have h126 : Keeps z v66 := Keeps.of_discardFolio (by assumption)
      clear_value v66
      exact KeepsRes.next (Keeps.trans (t := v66) (by assumption) {  })

theorem KeepsRes.of_execMapWordRebuildComplete {z : State} {x0 : ℕ} {x1 : Fin 4} {x2 : ℕ} {x3 : Option (Bool × ℕ)} {x4 : State} (h : Keeps z x4) :
    KeepsRes z (@execMapWordRebuildComplete x0 x1 x2 x3 x4) := by
  unfold execMapWordRebuildComplete
  extract_lets v0 v1 v2 v3
  subst v1 v2
  have h60 : Keeps z v0 := Keeps.of_tick (by assumption)
  clear_value v0
  have h61 : Keeps z v3 := Keeps.trans (t := v0) (by assumption) {  }
  clear_value v3
  split
  · exact KeepsRes.next (Keeps.trans (t := v0) (by assumption) {  })
  · refine KeepsRes.ite ?_ ?_
    · exact KeepsRes.next (by assumption)
    · refine KeepsRes.next ?_
      refine Keeps.ite ?_ ?_
      · exact Keeps.of_ev (by assumption)
      · refine Keeps.foldl ?_ ?_
        · intro a66 a67 h68
          exact Keeps.of_entryLost (by assumption)
        · assumption

theorem Keeps.of_stopServing {z : State} {x0 : State} (h : Keeps z x0) : Keeps z (@State.stopServing x0) := by
  unfold State.stopServing
  extract_lets v0 v1 v2
  subst v1 v2
  have h60 : Keeps z v0 := Keeps.of_abandonPrograms (Keeps.of_abandonCommands (Keeps.of_linkDown (Keeps.of_freeContexts (by assumption))))
  clear_value v0
  exact Keeps.trans (t := v0) (by assumption) { pfl := (fun k => by have q := pflOk_dropTest _ k; simpa only [pflOk] using q) }

theorem Keeps.of_endAttempt {z : State} {x0 : State} (h : Keeps z x0) : Keeps z (@State.endAttempt x0) := by
  unfold State.endAttempt
  refine Keeps.ite ?_ ?_
  · extract_lets v0
    subst v0
    exact Keeps.trans (t := x0) (by assumption) {  }
  · assumption

theorem Keeps.of_loseVolatile {z : State} {x0 : State} (h : Keeps z x0) : Keeps z (@State.loseVolatile x0) := by
  unfold State.loseVolatile
  extract_lets v0 v1 v2 v3 v4 v5 v6 v7 v8 v9 v10
  subst v1 v2 v3 v4 v5 v6 v7 v8 v9 v10
  have h60 : Keeps z v0 := Keeps.of_endAttempt (by assumption)
  clear_value v0
  exact Keeps.trans (t := v0) (by assumption) { fab := (fun k => by simp only [fabOk, Bool.and_eq_true] at k ⊢; simp [k]), link := (linkOk_volatileLost _), cch := (fun _ => rfl), map := (mapOk_volatileLost _), cal := (fun k => by simp only [calOk, Bool.and_eq_true] at k ⊢; simp [k]), key := (keyOk_volatileLost _), pfl := (pflOk_volatileLost _ _), recd := (fun k => by simp only [recdOk, Bool.and_eq_true] at k ⊢; simp [k]), tq := (fun _ => rfl) }

theorem Keeps.of_resetRegs {z : State} {x0 : State} {x1 : ℕ} (h : Keeps z x0) : Keeps z (@State.resetRegs x0 x1) := by
  unfold State.resetRegs
  exact Keeps.trans (t := x0) (by assumption) { obs := (fun k => by simp [k]) }

theorem Keeps.of_powerDownDone {z : State} {x0 : State} (h : Keeps z x0) : Keeps z (@State.powerDownDone x0) := by
  unfold State.powerDownDone
  extract_lets v0 v1 v2 v3 v4
  subst v0 v1 v2
  have h60 : Keeps z v3 := Keeps.of_loseVolatile (by assumption)
  clear_value v3
  have h61 : Keeps z v4 := Keeps.trans (t := v3) (by assumption) {  }
  clear_value v4
  exact Keeps.ite (by assumption) (Keeps.of_resetRegs (by assumption))

theorem Keeps.of_dropRails {z : State} {x0 : State} (h : Keeps z x0) : Keeps z (@State.dropRails x0) := by
  unfold State.dropRails
  extract_lets v0 v1 v2
  subst v0 v2
  have h60 : Keeps z v1 := Keeps.of_stopServing (by assumption)
  clear_value v1
  exact Keeps.of_powerDownDone (Keeps.trans (t := v1) (by assumption) {  })

theorem Keeps.of_clearTelemetry {z : State} {x0 : State} (h : Keeps z x0) : Keeps z (@State.clearTelemetry x0) := by
  unfold State.clearTelemetry
  exact Keeps.trans (t := x0) (by assumption) { tq := (fun _ => rfl) }

theorem Keeps.of_functionReset {z : State} {x0 : State} (h : Keeps z x0) : Keeps z (@State.functionReset x0) := by
  unfold State.functionReset
  extract_lets v0 v1 v2 v3
  subst v1 v2 v3
  have h60 : Keeps z v0 := Keeps.of_resetRegs (Keeps.of_clearTelemetry (Keeps.of_freeContexts (by assumption)))
  clear_value v0
  exact Keeps.trans (t := v0) (by assumption) { fab := (fun k => by simp only [fabOk, Bool.and_eq_true] at k ⊢; simp [k]), link := (linkOk_volatileLost _), ring := (ringOk_functionReset _) }

theorem Keeps.of_hostReset {z : State} {x0 : State} {x1 : ℕ} {x2 : Fld} {x3 : Bool} (h : Keeps z x0) :
    Keeps z (@State.hostReset x0 x1 x2 x3) := by
  unfold State.hostReset
  extract_lets v0 v1
  have h60 : Keeps z v0 := by
    dsimp only [v0]
    refine Keeps.ite ?_ ?_
    · exact Keeps.of_linkDown (Keeps.of_abandonCommands (Keeps.of_functionReset (by assumption)))
    · exact Keeps.of_functionReset (by assumption)
  clear_value v0
  have h61 : Keeps z v1 := Keeps.of_ev (Keeps.of_bump (by assumption))
  clear_value v1
  exact Keeps.ite (Keeps.of_setMemActive (by assumption)) (by assumption)

theorem KeepsRes.of_execHotReset {z : State} {x0 : ℕ} {x1 : State} (h : Keeps z x1) : KeepsRes z (@execHotReset x0 x1) := by
  unfold execHotReset
  extract_lets v0
  have h60 : Keeps z v0 := Keeps.of_tick (by assumption)
  clear_value v0
  exact KeepsRes.next (Keeps.ite (by assumption) (Keeps.of_hostReset (by assumption)))

theorem Keeps.of_beginPowerUp {z : State} {x0 : State} {x1 : ℕ} (h : Keeps z x0) : Keeps z (@State.beginPowerUp x0 x1) := by
  unfold State.beginPowerUp
  extract_lets v0 v1 v2
  subst v0 v1 v2
  exact Keeps.trans (t := x0) (by assumption) {  }

theorem KeepsRes.of_execCxlReset {z : State} {x0 : ℕ} {x1 : State} (h : Keeps z x1) : KeepsRes z (@execCxlReset x0 x1) := by
  unfold execCxlReset
  extract_lets v0
  have h60 : Keeps z v0 := Keeps.of_tick (by assumption)
  clear_value v0
  exact KeepsRes.next (Keeps.ite (by assumption) (Keeps.of_hostReset (by assumption)))

theorem KeepsRes.of_execManagementReset {z : State} {x0 : ℕ} {x1 : State} (h : Keeps z x1) :
    KeepsRes z (@execManagementReset x0 x1) := by
  unfold execManagementReset
  extract_lets v0
  have h60 : Keeps z v0 := Keeps.of_tick (by assumption)
  clear_value v0
  refine KeepsRes.next ?_
  refine Keeps.ite ?_ ?_
  · assumption
  · refine Keeps.ite ?_ ?_
    · exact Keeps.of_out (by assumption)
    · exact Keeps.ite (by assumption) (Keeps.of_hostReset (Keeps.of_out (by assumption)))

theorem Keeps.of_armSlot {z : State} {x0 : State} {x1 : ℕ} {x2 : ℕ} (h : Keeps z x0) :
    Keeps z (@State.armSlot x0 x1 x2) := by
  unfold State.armSlot
  extract_lets v0 v1
  subst v0 v1
  exact Keeps.of_ownRow (Keeps.of_setSlotD (Keeps.trans (t := x0) (by assumption) { fresh := Nat.le_succ _ }))

theorem Keeps.of_reportBudget {z : State} {x0 : State} {x1 : ℕ} (h : Keeps z x0) : Keeps z (@State.reportBudget x0 x1) := by
  unfold State.reportBudget
  extract_lets v0 v1 v2
  subst v0 v1 v2
  exact Keeps.ite (Keeps.of_ev (Keeps.trans (t := x0) (by assumption) { fresh := Nat.le_succ _ })) (by assumption)

theorem Keeps.of_setBudget {z : State} {x0 : State} (h : Keeps z x0) : Keeps z (@State.setBudget x0) := by
  unfold State.setBudget
  extract_lets v0 v1
  subst v0 v1
  exact Keeps.of_reportBudget (Keeps.trans (t := x0) (by assumption) {  })

theorem Keeps.of_beginTest {z : State} {x0 : State} {x1 : ℕ} (h : Keeps z x0) : Keeps z (@State.beginTest x0 x1) := by
  unfold State.beginTest
  extract_lets v0 v1 v2
  subst v0 v1 v2
  exact Keeps.of_setBudget (Keeps.trans (t := x0) (by assumption) {  })

theorem KeepsRes.of_execStoreTestDue {z : State} {x0 : ℕ} {x1 : State} (h : Keeps z x1) :
    KeepsRes z (@execStoreTestDue x0 x1) := by
  unfold execStoreTestDue
  extract_lets v0 v1 v2 v3 v4
  subst v1 v2 v4
  have h60 : Keeps z v0 := Keeps.of_tick (by assumption)
  clear_value v0
  have h61 : Keeps z v3 := Keeps.trans (t := v0) (by assumption) {  }
  clear_value v3
  refine KeepsRes.ite ?_ ?_
  · exact KeepsRes.next (by assumption)
  · refine KeepsRes.ite ?_ ?_
    · exact KeepsRes.next (Keeps.of_beginTest (by assumption))
    · refine KeepsRes.next ?_
      exact Keeps.ite (Keeps.of_ev (Keeps.trans (t := v3) (by assumption) { fresh := Nat.le_succ _ })) (by assumption)

theorem Keeps.of_drainSlot {z : State} {x0 : State} {x1 : ℕ} {x2 : List DumpLine} {x3 : Bool} (h : Keeps z x0) :
    Keeps z (@State.drainSlot x0 x1 x2 x3) := by
  unfold State.drainSlot
  extract_lets v0 v1 v2
  subst v0 v2
  have h60 : Keeps z v1 := Keeps.of_setSlotD (by assumption)
  clear_value v1
  exact Keeps.trans (t := v1) (by assumption) { pfl := (fun k => by simp only [pflOk, Bool.and_eq_true] at k ⊢; simp [k]) }

theorem Keeps.of_leaveWt {z : State} {x0 : State} (h : Keeps z x0) : Keeps z (@State.leaveWt x0) := by
  unfold State.leaveWt
  split
  · assumption
  · extract_lets v6 v7
    subst v6
    have h66 : Keeps z v7 := Keeps.of_ev (Keeps.trans (t := x0) (by assumption) {  })
    clear_value v7
    split
    · assumption
    · extract_lets v72
      subst v72
      exact Keeps.ite (Keeps.of_setSlotD (by assumption)) (Keeps.of_drainSlot (by assumption))

theorem Keeps.of_startLog {z : State} {x0 : State} (h : Keeps z x0) : Keeps z (@State.startLog x0) := by
  unfold State.startLog
  refine Keeps.ite ?_ ?_
  · assumption
  · split
    · assumption
    · extract_lets v5 v6 v7
      subst v5 v7
      have h65 : Keeps z v6 := Keeps.trans (t := x0) (by assumption) {  }
      clear_value v6
      exact Keeps.ite (Keeps.of_setSlotD (by assumption)) (Keeps.of_armSlot (by assumption))

theorem Keeps.of_enterWt {z : State} {x0 : State} {x1 : ℕ} (h : Keeps z x0) : Keeps z (@State.enterWt x0 x1) := by
  unfold State.enterWt
  split
  · exact Keeps.ite (Keeps.trans (t := x0) (by assumption) {  }) (by assumption)
  · extract_lets v6 v7 v8 v9 v10 v11
    subst v6 v8 v9 v10
    have h66 : Keeps z v7 := Keeps.of_bump (by assumption)
    clear_value v7
    have h67 : Keeps z v11 := Keeps.trans (t := v7) (by assumption) {  }
    clear_value v11
    exact Keeps.of_ev (by assumption)

theorem Keeps.of_judgeWt {z : State} {x0 : State} (h : Keeps z x0) : Keeps z (@State.judgeWt x0) := by
  unfold State.judgeWt
  refine Keeps.ite ?_ ?_
  · assumption
  · split
    · exact Keeps.ite (Keeps.of_leaveWt (by assumption)) (Keeps.of_startLog (by assumption))
    · refine Keeps.ite ?_ ?_
      · assumption
      · refine Keeps.ite ?_ ?_
        · exact Keeps.of_startLog (Keeps.of_enterWt (by assumption))
        · exact Keeps.ite (Keeps.of_startLog (Keeps.of_enterWt (by assumption))) (by assumption)

theorem KeepsRes.of_execBudgetCompute {z : State} {x0 : ℕ} {x1 : Sys2Proof.StoreRead} {x2 : State} (h : Keeps z x2) :
    KeepsRes z (@execBudgetCompute x0 x1 x2) := by
  unfold execBudgetCompute
  extract_lets v0 v1 v2
  subst v1
  have h60 : Keeps z v0 := Keeps.of_tick (by assumption)
  clear_value v0
  have h61 : Keeps z v2 := Keeps.trans (t := v0) (by assumption) {  }
  clear_value v2
  exact KeepsRes.next (Keeps.ite (by assumption) (Keeps.of_judgeWt (Keeps.of_setBudget (by assumption))))

theorem Keeps.of_finishTest {z : State} {x0 : State} {x1 : StoreTest} {x2 : ℕ} (h : Keeps z x0) :
    Keeps z (@State.finishTest x0 x1 x2) := by
  unfold State.finishTest
  extract_lets v0 v1 v2 v3
  subst v0 v1
  have h60 : Keeps z v2 := Keeps.trans (t := x0) (by assumption) {  }
  clear_value v2
  have h61 : Keeps z v3 := Keeps.of_ownRow (by assumption)
  clear_value v3
  exact Keeps.ite (Keeps.of_endBackground (by assumption)) (by assumption)

theorem Keeps.of_failTest {z : State} {x0 : State} {x1 : StoreTest} {x2 : ℕ} {x3 : ℕ} (h : Keeps z x0) :
    Keeps z (@State.failTest x0 x1 x2 x3) := by
  unfold State.failTest
  extract_lets v0 v1 v2
  subst v1
  have h60 : Keeps z v0 := Keeps.of_finishTest (by assumption)
  clear_value v0
  have h61 : Keeps z v2 := Keeps.trans (t := v0) (by assumption) {  }
  clear_value v2
  exact Keeps.of_ev (Keeps.of_setBudget (Keeps.of_enterWt (by assumption)))

theorem KeepsRes.of_execStoreTestTimeout {z : State} {x0 : ℕ} {x1 : State} (h : Keeps z x1) :
    KeepsRes z (@execStoreTestTimeout x0 x1) := by
  unfold execStoreTestTimeout
  extract_lets v0 v1
  subst v1
  have h60 : Keeps z v0 := Keeps.of_tick (by assumption)
  clear_value v0
  split
  · exact KeepsRes.next (by assumption)
  · refine KeepsRes.ite ?_ ?_
    · exact KeepsRes.next (Keeps.of_failTest (by assumption))
    · refine KeepsRes.ite ?_ ?_
      · exact KeepsRes.next (Keeps.of_failTest (Keeps.trans (t := v0) (by assumption) {  }))
      · exact KeepsRes.next (by assumption)

theorem Keeps.of_noteAging {z : State} {x0 : State} {x1 : ℕ} (h : Keeps z x0) : Keeps z (@State.noteAging x0 x1) := by
  unfold State.noteAging
  exact Keeps.ite (Keeps.of_ev (by assumption)) (by assumption)

theorem Keeps.of_setTest {z : State} {x0 : State} {x1 : StoreTest} (h : Keeps z x0) : Keeps z (@State.setTest x0 x1) := by
  unfold State.setTest
  exact Keeps.trans (t := x0) (by assumption) {  }

theorem KeepsRes.of_execStartEnergyStoreTest {z : State} {x0 : ℕ} {x1 : Sys2Proof.Path} {x2 : State} (h : Keeps z x2) :
    KeepsRes z (@execStartEnergyStoreTest x0 x1 x2) := by
  unfold execStartEnergyStoreTest
  refine KeepsRes.next ?_
  apply Keeps.of_mailbox
  · intro a0 h1
    exact Keeps.ite (Keeps.of_reply (by assumption)) (Keeps.of_beginTest (Keeps.of_startBackground (by assumption)))
  · exact Keeps.of_tick (by assumption)

theorem Keeps.of_abandonTest {z : State} {x0 : State} (h : Keeps z x0) : Keeps z (@State.abandonTest x0) := by
  unfold State.abandonTest
  split
  · assumption
  · extract_lets v5 v6 v7
    subst v5
    have h65 : Keeps z v6 := by
      dsimp only [v6]
      exact Keeps.trans (t := x0) (by assumption) { pfl := (fun k => by have q := pflOk_dropTest _ k; simpa only [pflOk] using q) }
    clear_value v6
    have h66 : Keeps z v7 := Keeps.of_ownRow (by assumption)
    clear_value v7
    exact Keeps.ite (Keeps.of_endBackground (by assumption)) (by assumption)

theorem KeepsRes.of_execStoreTestLoadApplied {z : State} {x0 : ℕ} {x1 : ℕ} {x2 : State} (h : Keeps z x2) :
    KeepsRes z (@execStoreTestLoadApplied x0 x1 x2) := by
  unfold execStoreTestLoadApplied
  extract_lets v0 v1 v2
  subst v1
  have h60 : Keeps z v0 := Keeps.of_tick (by assumption)
  clear_value v0
  have h61 : Keeps z v2 := Keeps.trans (t := v0) (by assumption) {  }
  clear_value v2
  split
  · exact KeepsRes.next (by assumption)
  · exact KeepsRes.ite (KeepsRes.next (by assumption)) (KeepsRes.next (Keeps.of_setTest (by assumption)))

theorem KeepsRes.of_execStoreTestRechargeEnd {z : State} {x0 : ℕ} {x1 : ℕ} {x2 : State} (h : Keeps z x2) :
    KeepsRes z (@execStoreTestRechargeEnd x0 x1 x2) := by
  unfold execStoreTestRechargeEnd
  extract_lets v0 v1
  subst v1
  have h60 : Keeps z v0 := Keeps.of_tick (by assumption)
  clear_value v0
  split
  · exact KeepsRes.next (by assumption)
  · refine KeepsRes.ite ?_ ?_
    · exact KeepsRes.next (by assumption)
    · extract_lets v66 v67 v68 v69 v70 v71
      subst v66 v68 v69
      have h126 : Keeps z v67 := Keeps.trans (t := v0) (by assumption) {  }
      clear_value v67
      have h127 : Keeps z v70 := Keeps.trans (t := v67) (by assumption) {  }
      clear_value v70
      have h128 : Keeps z v71 := Keeps.of_setBudget (Keeps.of_finishTest (by assumption))
      clear_value v71
      refine KeepsRes.ite ?_ ?_
      · exact KeepsRes.next (Keeps.of_noteAging (Keeps.of_failTest (by assumption)))
      · refine KeepsRes.ite ?_ ?_
        · exact KeepsRes.next (Keeps.of_noteAging (Keeps.of_failTest (by assumption)))
        · exact KeepsRes.next (Keeps.of_judgeWt (Keeps.of_noteAging (Keeps.of_ev (by assumption))))

theorem KeepsRes.of_execStoreTestEsrMeasure {z : State} {x0 : ℕ} {x1 : ℕ} {x2 : State} (h : Keeps z x2) :
    KeepsRes z (@execStoreTestEsrMeasure x0 x1 x2) := by
  unfold execStoreTestEsrMeasure
  extract_lets v0 v1 v2
  subst v1
  have h60 : Keeps z v0 := Keeps.of_tick (by assumption)
  clear_value v0
  have h61 : Keeps z v2 := Keeps.trans (t := v0) (by assumption) {  }
  clear_value v2
  split
  · exact KeepsRes.next (by assumption)
  · exact KeepsRes.ite (KeepsRes.next (by assumption)) (KeepsRes.next (Keeps.of_setTest (by assumption)))

theorem KeepsRes.of_execStoreTestDischargeEnd {z : State} {x0 : ℕ} {x1 : State} (h : Keeps z x1) :
    KeepsRes z (@execStoreTestDischargeEnd x0 x1) := by
  unfold execStoreTestDischargeEnd
  extract_lets v0 v1 v2
  subst v1
  have h60 : Keeps z v0 := Keeps.of_tick (by assumption)
  clear_value v0
  have h61 : Keeps z v2 := Keeps.trans (t := v0) (by assumption) {  }
  clear_value v2
  split
  · exact KeepsRes.next (by assumption)
  · exact KeepsRes.ite (KeepsRes.next (by assumption)) (KeepsRes.next (Keeps.of_setTest (by assumption)))

theorem Keeps.of_saveBoundary {z : State} {x0 : State} (h : Keeps z x0) : Keeps z (@State.saveBoundary x0) := by
  unfold State.saveBoundary
  split
  · assumption
  · exact Keeps.of_ownRow (Keeps.trans (t := x0) (by assumption) {  })

theorem Keeps.of_metadataHome {z : State} {x0 : State} (h : Keeps z x0) : Keeps z (@State.metadataHome x0) := by
  unfold State.metadataHome
  apply Keeps.of_flushTail
  apply Keeps.of_nodesToHome
  refine Keeps.foldl ?_ ?_
  · intro a0 a1 h2
    exact Keeps.of_ctrHome (by assumption)
  · assumption

theorem KeepsRes.of_execFlushHomeComplete {z : State} {x0 : ℕ} {x1 : State} (h : Keeps z x1) :
    KeepsRes z (@execFlushHomeComplete x0 x1) := by
  unfold execFlushHomeComplete
  extract_lets v0 v1 v2 v3 v4 v5 v6 v7 v8 v9
  subst v2 v3 v5 v6 v7 v8
  have h60 : Keeps z v0 := Keeps.of_tick (by assumption)
  clear_value v0
  have h61 : Keeps z v1 := by
    dsimp only [v1]
    apply Keeps.of_savePosition
    apply Keeps.of_saveTables
    exact Keeps.of_writeRefs (Keeps.of_flushRepeats (Keeps.of_saveBoundary (Keeps.of_metadataHome (by assumption))))
  clear_value v1
  have h62 : Keeps z v4 := Keeps.of_ownRow (Keeps.trans (t := v1) (by assumption) {  })
  clear_value v4
  have h63 : Keeps z v9 := Keeps.of_ownRow (Keeps.trans (t := v4) (by assumption) {  })
  clear_value v9
  split
  · exact KeepsRes.next (by assumption)
  · refine KeepsRes.ite ?_ ?_
    · exact KeepsRes.next (by assumption)
    · exact KeepsRes.next (Keeps.of_ev (Keeps.of_saveLifetime (Keeps.of_ownRow (by assumption))))

theorem Keeps.of_dumpReads {z : State} {x0 : State} {x1 : Sys2Proof.DumpPart} (h : Keeps z x0) :
    Keeps z (@State.dumpReads x0 x1) := by
  unfold State.dumpReads
  extract_lets v0
  subst v0
  split
  · refine Keeps.foldl ?_ ?_
    · intro a61 a62 h63
      exact Keeps.of_nearTags (by assumption)
    · assumption
  · refine Keeps.foldl ?_ ?_
    · intro a65 a66 h67
      refine Keeps.foldl ?_ ?_
      · intro a68 a69 h70
        exact Keeps.ite (Keeps.of_nearData (by assumption)) (by assumption)
      · assumption
    · assumption
  · assumption

theorem KeepsRes.of_execDumpPartWritten {z : State} {x0 : ℕ} {x1 : Sys2Proof.DumpPart} {x2 : State} (h : Keeps z x2) :
    KeepsRes z (@execDumpPartWritten x0 x1 x2) := by
  unfold execDumpPartWritten
  extract_lets v0 v1
  have h60 : Keeps z v0 := Keeps.of_tick (by assumption)
  clear_value v0
  have h61 : Keeps z v1 := Keeps.of_dumpReads (by assumption)
  clear_value v1
  split
  · exact KeepsRes.next (by assumption)
  · refine KeepsRes.ite ?_ ?_
    · extract_lets v67 v68
      subst v68
      have h127 : Keeps z v67 := Keeps.of_setSlotD (by assumption)
      clear_value v67
      exact KeepsRes.next (Keeps.trans (t := v67) (by assumption) {  })
    · exact KeepsRes.next (by assumption)

theorem KeepsRes.of_execInputReturnDuringDump {z : State} {x0 : ℕ} {x1 : State} (h : Keeps z x1) :
    KeepsRes z (@execInputReturnDuringDump x0 x1) := by
  unfold execInputReturnDuringDump
  extract_lets v0 v1 v2
  subst v1 v2
  have h60 : Keeps z v0 := Keeps.of_tick (by assumption)
  clear_value v0
  split
  · exact KeepsRes.next (by assumption)
  · refine KeepsRes.ite ?_ ?_
    · exact KeepsRes.next (by assumption)
    · extract_lets v66
      subst v66
      exact KeepsRes.next (Keeps.of_ev (Keeps.trans (t := v0) (by assumption) {  }))

theorem Keeps.of_logLine {z : State} {x0 : State} {x1 : ℕ} {x2 : ℕ} {x3 : ℕ} (h : Keeps z x0) :
    Keeps z (@State.logLine x0 x1 x2 x3) := by
  unfold State.logLine
  split
  · assumption
  · extract_lets v5 v6 v7 v8 v9
    subst v5 v6 v7 v9
    have h65 : Keeps z v8 := Keeps.of_setSlotD (by assumption)
    clear_value v8
    exact Keeps.ite (by assumption) (Keeps.of_bump (Keeps.trans (t := v8) (by assumption) {  }))

theorem Keeps.of_completeDue {z : State} {x0 : State} {x1 : List Ctx} (h : Keeps z x0) :
    Keeps z (@State.completeDue x0 x1) := by
  unfold State.completeDue
  refine Keeps.foldl ?_ ?_
  · intro a0 a1 h2
    split
    · exact Keeps.ite (by assumption) (Keeps.of_out (Keeps.of_complete (by assumption)))
    · assumption
  · assumption

theorem KeepsRes.of_execLogSectorWritten {z : State} {x0 : ℕ} {x1 : List (BitVec 37)} {x2 : State} (h : Keeps z x2) :
    KeepsRes z (@execLogSectorWritten x0 x1 x2) := by
  unfold execLogSectorWritten
  extract_lets v0 v1
  subst v1
  have h60 : Keeps z v0 := Keeps.of_tick (by assumption)
  clear_value v0
  split
  · exact KeepsRes.next (by assumption)
  · refine KeepsRes.ite ?_ ?_
    · exact KeepsRes.next (by assumption)
    · extract_lets v66 v67 v68 v69
      subst v66 v68
      have h126 : Keeps z v67 := by
        dsimp only [v67]
        refine Keeps.foldl ?_ ?_
        · intro a127 a128 h129
          exact Keeps.of_logLine (by assumption)
        · assumption
      clear_value v67
      have h130 : Keeps z v69 := Keeps.of_setSlotD (by assumption)
      clear_value v69
      refine KeepsRes.ite ?_ ?_
      · exact KeepsRes.next (by assumption)
      · exact KeepsRes.next (Keeps.of_maintLogged (Keeps.of_completeDue (by assumption)))

theorem Keeps.of_offRequest {z : State} {x0 : State} (h : Keeps z x0) : Keeps z (@State.offRequest x0) := by
  unfold State.offRequest
  extract_lets v0
  have h60 : Keeps z v0 := Keeps.of_ev (Keeps.trans (t := x0) (by assumption) { fresh := Nat.le_succ _ })
  clear_value v0
  exact Keeps.of_beginPowerDown (by assumption)

theorem KeepsRes.of_execPowerFailure {z : State} {x0 : ℕ} {x1 : State} (h : Keeps z x1) :
    KeepsRes z (@execPowerFailure x0 x1) := by
  unfold execPowerFailure
  extract_lets v0 v1 v2 v3
  subst v1 v3
  have h60 : Keeps z v0 := Keeps.of_tick (by assumption)
  clear_value v0
  have h61 : Keeps z v2 := Keeps.trans (t := v0) (by assumption) {  }
  clear_value v2
  refine KeepsRes.ite ?_ ?_
  · exact KeepsRes.next (by assumption)
  · refine KeepsRes.ite ?_ ?_
    · exact KeepsRes.next (Keeps.of_offRequest (by assumption))
    · split
      · exact KeepsRes.next (Keeps.of_beginDump (by assumption))
      · exact KeepsRes.next (Keeps.trans (t := v2) (by assumption) {  })

theorem Keeps.of_beginFlush {z : State} {x0 : State} (h : Keeps z x0) : Keeps z (@State.beginFlush x0) := by
  unfold State.beginFlush
  exact Keeps.ite (by assumption) (Keeps.trans (t := x0) (by assumption) {  })

theorem KeepsRes.of_execGpfPhase2 {z : State} {x0 : State} (h : Keeps z x0) : KeepsRes z (@execGpfPhase2 x0) := by
  unfold execGpfPhase2
  exact KeepsRes.next (Keeps.ite (Keeps.of_out (Keeps.trans (t := x0) (by assumption) {  })) (by assumption))

theorem KeepsRes.of_execDumpTrailerWritten {z : State} {x0 : ℕ} {x1 : ℕ} {x2 : State} (h : Keeps z x2) :
    KeepsRes z (@execDumpTrailerWritten x0 x1 x2) := by
  unfold execDumpTrailerWritten
  extract_lets v0
  have h60 : Keeps z v0 := Keeps.of_tick (by assumption)
  clear_value v0
  split
  · exact KeepsRes.next (by assumption)
  · refine KeepsRes.ite ?_ ?_
    · exact KeepsRes.next (by assumption)
    · extract_lets v66 v67 v68 v69 v70 v71 v72 v73
      subst v66 v69 v70 v71 v72 v73
      have h126 : Keeps z v67 := Keeps.of_setSlotD (Keeps.of_drainAll (by assumption))
      clear_value v67
      have h127 : Keeps z v68 := Keeps.of_bump (Keeps.of_setReg (Keeps.of_setReg (Keeps.of_setReg (Keeps.of_setReg (by assumption)))))
      clear_value v68
      exact KeepsRes.next (Keeps.of_beginPowerDown (Keeps.trans (t := v68) (by assumption) {  }))

theorem KeepsRes.of_execTreeTopLogRecord {z : State} {x0 : ℕ} {x1 : State} (h : Keeps z x1) :
    KeepsRes z (@execTreeTopLogRecord x0 x1) := by
  unfold execTreeTopLogRecord
  extract_lets v0 v1
  subst v1
  have h60 : Keeps z v0 := Keeps.of_tick (by assumption)
  clear_value v0
  split
  · exact KeepsRes.next (by assumption)
  · refine KeepsRes.ite ?_ ?_
    · extract_lets v66 v67 v68
      subst v66 v68
      have h126 : Keeps z v67 := Keeps.of_setSlotD (by assumption)
      clear_value v67
      exact KeepsRes.next (Keeps.trans (t := v67) (by assumption) {  })
    · exact KeepsRes.next (by assumption)

theorem KeepsRes.of_execGpfPhase1 {z : State} {x0 : State} (h : Keeps z x0) : KeepsRes z (@execGpfPhase1 x0) := by
  unfold execGpfPhase1
  exact KeepsRes.next (Keeps.ite (Keeps.of_out (by assumption)) (by assumption))

theorem KeepsRes.of_execSlotArmed {z : State} {x0 : ℕ} {x1 : Fin 2} {x2 : State} (h : Keeps z x2) :
    KeepsRes z (@execSlotArmed x0 x1 x2) := by
  unfold execSlotArmed
  extract_lets v0
  have h60 : Keeps z v0 := Keeps.of_tick (by assumption)
  clear_value v0
  exact KeepsRes.next (Keeps.ite (Keeps.of_armSlot (by assumption)) (by assumption))

theorem KeepsRes.of_execKeyHeld {z : State} {x0 : ℕ} {x1 : BitVec 12} {x2 : State} (h : Keeps z x2) :
    KeepsRes z (@execKeyHeld x0 x1 x2) := by
  unfold execKeyHeld
  extract_lets v0 v1 v2
  subst v1 v2
  have h60 : Keeps z v0 := Keeps.of_tick (by assumption)
  clear_value v0
  exact KeepsRes.next (Keeps.ite (Keeps.of_ev (Keeps.of_setSlot (by assumption))) (by assumption))

theorem Keeps.of_beginSweep {z : State} {x0 : State} {x1 : ℕ} {x2 : ℕ} {x3 : List ℕ} {x4 : ℕ} (h : Keeps z x0) :
    Keeps z (@State.beginSweep x0 x1 x2 x3 x4) := by
  unfold State.beginSweep
  extract_lets v0 v1 v2 v3
  subst v0 v1 v2 v3
  exact Keeps.of_writeRow (Keeps.trans (t := x0) (by assumption) {  })

theorem KeepsRes.of_execStartKeyRotation {z : State} {x0 : ℕ} {x1 : Sys2Proof.Path} {x2 : ℕ} {x3 : ℕ} {x4 : Bool} {x5 : State} (h : Keeps z x5) :
    KeepsRes z (@execStartKeyRotation x0 x1 x2 x3 x4 x5) := by
  unfold execStartKeyRotation
  refine KeepsRes.next ?_
  apply Keeps.of_mailbox
  · intro a0 h1
    refine Keeps.ite ?_ ?_
    · exact Keeps.of_reply (by assumption)
    · refine Keeps.ite ?_ ?_
      · exact Keeps.of_reply (by assumption)
      · split
        · exact Keeps.of_reply (by assumption)
        · extract_lets v7 v8 v9
          subst v7 v8 v9
          exact Keeps.ite (Keeps.of_reply (by assumption)) (Keeps.of_beginSweep (Keeps.of_startBackground (by assumption)))
  · exact Keeps.of_tick (by assumption)

theorem KeepsRes.of_execCarryBoundarySave {z : State} {x0 : State} (h : Keeps z x0) :
    KeepsRes z (@execCarryBoundarySave x0) := by
  unfold execCarryBoundarySave
  refine KeepsRes.next ?_
  split
  · assumption
  · exact Keeps.ite (Keeps.of_saveBoundary (by assumption)) (by assumption)

theorem Keeps.of_emptySlot {z : State} {x0 : State} {x1 : ℕ} (h : Keeps z x0) : Keeps z (@State.emptySlot x0 x1) := by
  unfold State.emptySlot
  exact Keeps.of_setSlot (by assumption)

theorem Keeps.of_oldSlot {z : State} {x0 : State} {x1 : ℕ} {x2 : ℕ} (h : Keeps z x0) :
    Keeps z (@State.oldSlot x0 x1 x2) := by
  unfold State.oldSlot
  extract_lets v0
  subst v0
  refine Keeps.ite ?_ ?_
  · assumption
  · exact Keeps.ite (Keeps.of_setSlot (by assumption)) (Keeps.ite (Keeps.of_setSlot (by assumption)) (by assumption))

theorem Keeps.of_eraseAll {z : State} {x0 : State} (h : Keeps z x0) : Keeps z (@State.eraseAll x0) := by
  unfold State.eraseAll
  extract_lets v0 v1 v2 v3 v4 v5 v6 v7 v8 v9 v10 v11 v12 v13 v14 v15
  subst v0 v2 v3 v4 v5 v6 v7 v10 v11 v12 v14
  have h60 : Keeps z v1 := by
    dsimp only [v1]
    refine Keeps.foldl ?_ ?_
    · intro a61 a62 h63
      exact Keeps.of_fillSlot (by assumption)
    · exact Keeps.of_dropLines (by assumption)
  clear_value v1
  have h64 : Keeps z v8 := by
    dsimp only [v8]
    exact Keeps.trans (t := v1) (by assumption) { link := (fun k => by simp only [linkOk, Bool.and_eq_true] at k ⊢; simp [k]), map := (fun k => by simp only [mapOk, Bool.and_eq_true] at k ⊢; simp [k, Function.comp_def, ckptOk]), list := (fun _ => rfl), key := (fun k => by simp only [keyOk, Bool.and_eq_true] at k ⊢; simp [k]), ring := (fun k => by simp only [ringOk, Bool.and_eq_true] at k ⊢; simp [k]) }
  clear_value v8
  have h65 : Keeps z v9 := by
    dsimp only [v9]
    refine Keeps.foldl ?_ ?_
    · intro a66 a67 h68
      exact Keeps.of_freeBlock (by assumption)
    · assumption
  clear_value v9
  have h69 : Keeps z v13 := by
    dsimp only [v13]
    exact Keeps.trans (t := v9) (by assumption) { med := (fun k => by simp only [medOk, Bool.and_eq_true] at k ⊢; simp [k]), pfl := (fun k => by simp only [pflOk, Bool.and_eq_true] at k ⊢; simp [k]) }
  clear_value v13
  have h70 : Keeps z v15 := by
    dsimp only [v15]
    split
    · exact Keeps.of_armSlot (Keeps.trans (t := v13) (by assumption) {  })
    · assumption
  clear_value v15
  exact Keeps.of_leaveFro (Keeps.of_recalcLimit (by assumption))

theorem KeepsRes.of_execSecureErase {z : State} {x0 : ℕ} {x1 : Sys2Proof.Path} {x2 : State} (h : Keeps z x2) :
    KeepsRes z (@execSecureErase x0 x1 x2) := by
  unfold execSecureErase
  refine KeepsRes.next ?_
  apply Keeps.of_mailbox
  · intro a0 h1
    extract_lets v2 v3 v4
    subst v2 v4
    have h62 : Keeps z v3 := Keeps.of_eraseAll (by assumption)
    clear_value v3
    exact Keeps.ite (Keeps.of_reply (by assumption)) (Keeps.of_replyAfter (Keeps.trans (t := v3) (by assumption) {  }))
  · exact Keeps.of_tick (by assumption)

theorem Keeps.of_newPhase {z : State} {x0 : State} {x1 : ℕ → Bool} (h : Keeps z x0) : Keeps z (@State.newPhase x0 x1) := by
  unfold State.newPhase
  extract_lets v0 v1 v2 v3 v4 v5 v6 v7 v8 v9
  subst v2 v3 v4 v5 v6 v8 v9
  exact Keeps.trans (t := x0) (by assumption) { cch := (fun k => by simp only [cchOk, Bool.and_eq_true] at k ⊢; simp [k]), pfl := (fun k => by simp only [pflOk, Bool.and_eq_true] at k ⊢; simp [k]) }

theorem Keeps.of_writeUnits {z s : State} {units : List Nat} {owner : Nat} {m : Tab UnitKey} (h : Keeps z s) :
    Keeps z (s.writeUnits units owner m) := by
  unfold State.writeUnits
  exact Keeps.foldl (fun a x q => Keeps.of_writeRow q) h

theorem Keeps.of_passFolio {z : State} {x0 : State} {x1 : Sweep} {x2 : ℕ} (h : Keeps z x0) :
    Keeps z (@State.passFolio x0 x1 x2) := by
  unfold State.passFolio
  exact Keeps.trans (t := x0) (by assumption) {  }

theorem Keeps.of_carryFails {z s : State} {f : Nat} {es : List (Nat × Stored)} {fails : BitVec 256} {erase : Bool} {r : State}
    (h : Keeps z r) : Keeps z (State.carryFails s f es fails erase r) := by
  unfold State.carryFails
  exact Keeps.foldl (fun a x q => Keeps.ite (Keeps.of_macPoison q) q) h

theorem KeepsRes.of_execCarrySweepFolio {z : State} {x0 : ℕ} {x1 : BitVec 256} {x2 : State} (h : Keeps z x2) :
    KeepsRes z (@execCarrySweepFolio x0 x1 x2) := by
  unfold execCarrySweepFolio
  extract_lets v0 v1
  subst v1
  have h60 : Keeps z v0 := Keeps.of_tick (by assumption)
  clear_value v0
  split
  · exact KeepsRes.next (by assumption)
  · extract_lets v66 v67 v68 v69 v70 v71 v72 v73 v74 v75 v76 v77 v78 v79 v80
    subst v66 v67 v68 v71 v72 v73 v74 v75 v76 v78
    have h126 : Keeps z v69 := Keeps.ite (by assumption) (Keeps.of_newPhase (by assumption))
    clear_value v69
    have h127 : Keeps z v70 := Keeps.of_mend (by assumption)
    clear_value v70
    have h128 : Keeps z v77.1 := by
      dsimp only [v77]
      split
      · split
        · exact Keeps.of_placeAt (by assumption)
        · exact Keeps.of_placeNew (by assumption)
      · exact Keeps.of_placeAt (by assumption)
      · exact Keeps.pair (by assumption)
    clear_value v77
    have h148 : Keeps z v79 := Keeps.of_internalOp (Keeps.of_internalOp (Keeps.of_writePlaced (by assumption)))
    clear_value v79
    have h149 : Keeps z v80 := Keeps.of_carryFails (by assumption)
    clear_value v80
    refine KeepsRes.ite ?_ ?_
    · exact KeepsRes.next (by assumption)
    · refine KeepsRes.ite ?_ ?_
      · exact KeepsRes.next (Keeps.of_passFolio (Keeps.of_discardFolio (by assumption)))
      · refine KeepsRes.ite ?_ ?_
        · exact KeepsRes.next (Keeps.of_passFolio (by assumption))
        · refine KeepsRes.ite ?_ ?_
          · exact KeepsRes.next (Keeps.ite (Keeps.of_passFolio (by assumption)) (by assumption))
          · exact KeepsRes.next (by assumption)

theorem Keeps.of_retireKey {z : State} {x0 : State} {x1 : ℕ} (h : Keeps z x0) : Keeps z (@State.retireKey x0 x1) := by
  unfold State.retireKey
  exact Keeps.of_ev (Keeps.of_emptySlot (by assumption))

theorem Keeps.of_retirePrev {z : State} {x0 : State} {x1 : ℕ} (h : Keeps z x0) : Keeps z (@State.retirePrev x0 x1) := by
  unfold State.retirePrev
  refine Keeps.ite ?_ ?_
  · refine Keeps.ite ?_ ?_
    · assumption
    · extract_lets v0
      have h60 : Keeps z v0 := Keeps.of_fillSlot (by assumption)
      clear_value v0
      exact Keeps.of_ev (Keeps.of_ownRow (by assumption))
  · refine Keeps.ite ?_ ?_
    · assumption
    · refine Keeps.ite ?_ ?_
      · exact Keeps.of_setSlot (by assumption)
      · extract_lets v61
        have h121 : Keeps z v61 := Keeps.of_retireKey (by assumption)
        clear_value v61
        exact Keeps.of_ownRow (by assumption)

theorem Keeps.of_nextSweep {z : State} {x0 : State} (h : Keeps z x0) : Keeps z (@State.nextSweep x0) := by
  unfold State.nextSweep
  refine Keeps.ite ?_ ?_
  · assumption
  · split
    · assumption
    · exact Keeps.of_beginSweep (Keeps.trans (t := x0) (by assumption) {  })

theorem KeepsRes.of_execCarrySweepComplete {z : State} {x0 : ℕ} {x1 : State} (h : Keeps z x1) :
    KeepsRes z (@execCarrySweepComplete x0 x1) := by
  unfold execCarrySweepComplete
  extract_lets v0 v1
  subst v1
  have h60 : Keeps z v0 := Keeps.of_tick (by assumption)
  clear_value v0
  split
  · exact KeepsRes.next (by assumption)
  · refine KeepsRes.ite ?_ ?_
    · exact KeepsRes.next (by assumption)
    · extract_lets v66 v67 v68 v69 v70 v71 v72 v73 v74
      subst v66 v67 v68
      have h126 : Keeps z v69 := by
        dsimp only [v69]
        exact Keeps.trans (t := v0) (by assumption) { key := (fun k => by simp only [keyOk, Bool.and_eq_true] at k ⊢; simp [k, Map.retain, wf_foldl_upd]) }
      clear_value v69
      have h127 : Keeps z v70 := Keeps.of_writeUnits (by assumption)
      clear_value v70
      have h128 : Keeps z v71 := Keeps.of_ownRow (by assumption)
      clear_value v71
      have h129 : Keeps z v72 := Keeps.of_ev (by assumption)
      clear_value v72
      have h130 : Keeps z v73 := Keeps.ite (Keeps.of_ev (by assumption)) (by assumption)
      clear_value v73
      have h131 : Keeps z v74 := by
        dsimp only [v74]
        refine Keeps.foldl ?_ ?_
        · intro a132 a133 h134
          exact Keeps.of_retirePrev (by assumption)
        · assumption
      clear_value v74
      exact KeepsRes.next (Keeps.of_nextSweep (Keeps.ite (by assumption) (Keeps.of_endBackground (by assumption))))

theorem Keeps.of_sweepStarted {z : State} {x0 : State} {x1 : Sweep} (h : Keeps z x0) :
    Keeps z (@State.sweepStarted x0 x1) := by
  unfold State.sweepStarted
  extract_lets v0 v1 v2 v3 v4 v5 v6
  subst v0 v1 v2
  have h60 : Keeps z v3 := by
    dsimp only [v3]
    exact Keeps.trans (t := x0) (by assumption) { key := (fun k => by simp only [keyOk, Bool.and_eq_true] at k ⊢; simp [k]) }
  clear_value v3
  have h61 : Keeps z v4 := by
    dsimp only [v4]
    refine Keeps.foldl ?_ ?_
    · intro a62 a63 h64
      exact Keeps.of_oldSlot (by assumption)
    · assumption
  clear_value v4
  have h65 : Keeps z v6 := Keeps.ite (Keeps.of_dropLines (by assumption)) (Keeps.ite (Keeps.of_newPhase (by assumption)) (by assumption))
  clear_value v6
  exact Keeps.of_ev (by assumption)

theorem KeepsRes.of_execKeyRotationThreshold {z : State} {x0 : ℕ} {x1 : BitVec 12} {x2 : State} (h : Keeps z x2) :
    KeepsRes z (@execKeyRotationThreshold x0 x1 x2) := by
  unfold execKeyRotationThreshold
  extract_lets v0 v1 v2 v3
  subst v1 v2 v3
  have h60 : Keeps z v0 := Keeps.of_tick (by assumption)
  clear_value v0
  refine KeepsRes.ite ?_ ?_
  · exact KeepsRes.next (by assumption)
  · split
    · exact KeepsRes.next (Keeps.ite (by assumption) (Keeps.of_ev (Keeps.trans (t := v0) (by assumption) {  })))
    · extract_lets v66 v67 v68 v69
      subst v68 v69
      have h126 : Keeps z v66 := Keeps.of_fillSlot (by assumption)
      clear_value v66
      have h127 : Keeps z v67 := Keeps.of_ownRow (by assumption)
      clear_value v67
      exact KeepsRes.next (Keeps.of_nextSweep (Keeps.of_ev (Keeps.trans (t := v67) (by assumption) {  })))

theorem KeepsRes.of_execGetKeyStatus {z : State} {x0 : Sys2Proof.Path} {x1 : ℕ} {x2 : ℕ} {x3 : State} (h : Keeps z x3) :
    KeepsRes z (@execGetKeyStatus x0 x1 x2 x3) := by
  unfold execGetKeyStatus
  refine KeepsRes.next ?_
  apply Keeps.of_mailbox
  · intro a0 h1
    refine Keeps.ite ?_ ?_
    · exact Keeps.of_reply (by assumption)
    · extract_lets v2
      subst v2
      exact Keeps.of_reply (by assumption)
  · assumption

theorem KeepsRes.of_execSanitize {z : State} {x0 : ℕ} {x1 : Sys2Proof.Path} {x2 : State} (h : Keeps z x2) :
    KeepsRes z (@execSanitize x0 x1 x2) := by
  unfold execSanitize
  refine KeepsRes.next ?_
  apply Keeps.of_mailbox
  · intro a0 h1
    refine Keeps.ite ?_ ?_
    · exact Keeps.of_reply (by assumption)
    · extract_lets v2 v3
      subst v3
      have h62 : Keeps z v2 := Keeps.of_eraseAll (Keeps.of_startBackground (by assumption))
      clear_value v2
      refine Keeps.foldl ?_ ?_
      · intro a63 a64 h65
        exact Keeps.of_writeRow (by assumption)
      · exact Keeps.trans (t := v2) (by assumption) {  }
  · exact Keeps.of_tick (by assumption)

theorem KeepsRes.of_execSanitizeComplete {z : State} {x0 : ℕ} {x1 : State} (h : Keeps z x1) :
    KeepsRes z (@execSanitizeComplete x0 x1) := by
  unfold execSanitizeComplete
  extract_lets v0 v1
  subst v1
  have h60 : Keeps z v0 := Keeps.of_tick (by assumption)
  clear_value v0
  exact KeepsRes.next (Keeps.ite (Keeps.of_endBackground (Keeps.trans (t := v0) (by assumption) {  })) (by assumption))

theorem KeepsRes.of_execGetExtentTable {z : State} {x0 : Sys2Proof.Path} {x1 : ℕ} {x2 : ℕ} {x3 : State} (h : Keeps z x3) :
    KeepsRes z (@execGetExtentTable x0 x1 x2 x3) := by
  unfold execGetExtentTable
  refine KeepsRes.next ?_
  apply Keeps.of_mailbox
  · intro a0 h1
    extract_lets v2 v3
    subst v2 v3
    exact Keeps.ite (Keeps.of_reply (by assumption)) (Keeps.of_reply (by assumption))
  · assumption

theorem Keeps.of_sweepRecorded {z : State} {x0 : State} (h : Keeps z x0) : Keeps z (@State.sweepRecorded x0) := by
  unfold State.sweepRecorded
  split
  · assumption
  · extract_lets v5 v6 v7 v8 v9
    subst v5 v7
    have h65 : Keeps z v6 := Keeps.trans (t := x0) (by assumption) {  }
    clear_value v6
    have h66 : Keeps z v9 := by
      dsimp only [v9]
      refine Keeps.ite ?_ ?_
      · refine Keeps.foldl ?_ ?_
        · intro a67 a68 h69
          dsimp only [v8]
          exact Keeps.ite (Keeps.of_fillSlot (by assumption)) (Keeps.of_emptySlot (by assumption))
        · assumption
      · assumption
    clear_value v9
    exact Keeps.of_writeUnits (by assumption)

theorem KeepsRes.of_execGenerateKey {z : State} {x0 : Sys2Proof.Path} {x1 : ℕ} {x2 : State} (h : Keeps z x2) :
    KeepsRes z (@execGenerateKey x0 x1 x2) := by
  unfold execGenerateKey
  refine KeepsRes.next ?_
  apply Keeps.of_mailbox
  · intro a0 h1
    extract_lets v2
    subst v2
    refine Keeps.ite ?_ ?_
    · exact Keeps.of_reply (by assumption)
    · refine Keeps.ite ?_ ?_
      · exact Keeps.of_reply (by assumption)
      · exact Keeps.ite (Keeps.of_reply (by assumption)) (Keeps.of_replyAfter (by assumption))
  · assumption

theorem KeepsRes.of_execMediumResetComplete {z : State} {x0 : ℕ} {x1 : State} (h : Keeps z x1) :
    KeepsRes z (@execMediumResetComplete x0 x1) := by
  unfold execMediumResetComplete
  extract_lets v0 v1
  subst v1
  have h60 : Keeps z v0 := Keeps.of_tick (by assumption)
  clear_value v0
  exact KeepsRes.next (Keeps.trans (t := v0) (by assumption) {  })

theorem KeepsRes.of_execSweepUnitRowsWritten {z : State} {x0 : ℕ} {x1 : State} (h : Keeps z x1) :
    KeepsRes z (@execSweepUnitRowsWritten x0 x1) := by
  unfold execSweepUnitRowsWritten
  extract_lets v0
  have h60 : Keeps z v0 := Keeps.of_tick (by assumption)
  clear_value v0
  split
  · exact KeepsRes.next (by assumption)
  · exact KeepsRes.next (Keeps.ite (by assumption) (Keeps.of_sweepStarted (by assumption)))

theorem KeepsRes.of_execRetireKeyId {z : State} {x0 : ℕ} {x1 : Sys2Proof.Path} {x2 : ℕ} {x3 : State} (h : Keeps z x3) :
    KeepsRes z (@execRetireKeyId x0 x1 x2 x3) := by
  unfold execRetireKeyId
  refine KeepsRes.next ?_
  apply Keeps.of_mailbox
  · intro a0 h1
    refine Keeps.ite ?_ ?_
    · exact Keeps.of_reply (by assumption)
    · exact Keeps.ite (Keeps.of_reply (by assumption)) (Keeps.of_replyAfter (by assumption))
  · exact Keeps.of_tick (by assumption)

end Sys2Proof.Laws
end

