-- ==== Sys2Proof/Laws/KeepsRing.lean ====
section
/-! SUPPORT. One law per operation of the card that says what no operation does (Laws/Keeps.lean): power, heat, images, the fabric and the ring. -/

set_option Elab.async false

namespace Sys2Proof.Laws

open Sys2Proof.Machine Sys2Proof.Safety

theorem KeepsRes.of_execPowerBrakeRelease {z : State} {x0 : ℕ} {x1 : State} (h : Keeps z x1) :
    KeepsRes z (@execPowerBrakeRelease x0 x1) := by
  unfold execPowerBrakeRelease
  extract_lets v0 v1 v2
  subst v1
  have h60 : Keeps z v0 := Keeps.of_tick (by assumption)
  clear_value v0
  have h61 : Keeps z v2 := Keeps.trans (t := v0) (by assumption) {  }
  clear_value v2
  split
  · exact KeepsRes.next (by assumption)
  · extract_lets v67
    subst v67
    exact KeepsRes.next (Keeps.of_ev (Keeps.of_setReg (by assumption)))

theorem Keeps.of_setRail {z : State} {x0 : State} {x1 : ℕ} {x2 : Rail} (h : Keeps z x0) :
    Keeps z (@State.setRail x0 x1 x2) := by
  unfold State.setRail
  exact Keeps.trans (t := x0) (by assumption) {  }

theorem Keeps.of_onRequest {z : State} {x0 : State} (h : Keeps z x0) : Keeps z (@State.onRequest x0) := by
  unfold State.onRequest
  refine Keeps.ite ?_ ?_
  · exact Keeps.ite (by assumption) (Keeps.of_ev (Keeps.trans (t := x0) (by assumption) {  }))
  · refine Keeps.ite ?_ ?_
    · exact Keeps.ite (by assumption) (Keeps.of_ev (Keeps.trans (t := x0) (by assumption) {  }))
    · exact Keeps.ite (Keeps.of_beginPowerUp (by assumption)) (by assumption)

theorem Keeps.of_railDone {z : State} {x0 : State} {x1 : ℕ} (h : Keeps z x0) : Keeps z (@State.railDone x0 x1) := by
  unfold State.railDone
  extract_lets v0 v1 v2
  subst v0 v1
  have h60 : Keeps z v2 := Keeps.trans (t := x0) (by assumption) {  }
  clear_value v2
  exact Keeps.ite (Keeps.of_powerDownDone (by assumption)) (by assumption)

theorem KeepsRes.of_execRailPgTimeout {z : State} {x0 : ℕ} {x1 : Fin 14} {x2 : State} (h : Keeps z x2) :
    KeepsRes z (@execRailPgTimeout x0 x1 x2) := by
  unfold execRailPgTimeout
  extract_lets v0 v1 v2 v3 v4 v5 v6
  subst v1 v2 v3 v5 v6
  have h60 : Keeps z v0 := Keeps.of_tick (by assumption)
  clear_value v0
  have h61 : Keeps z v4 := Keeps.of_ev (Keeps.of_setRail (by assumption))
  clear_value v4
  refine KeepsRes.ite ?_ ?_
  · exact KeepsRes.next (Keeps.of_offRequest (Keeps.trans (t := v4) (by assumption) {  }))
  · refine KeepsRes.ite ?_ ?_
    · exact KeepsRes.next (Keeps.of_railDone (Keeps.of_ev (Keeps.of_setRail (by assumption))))
    · exact KeepsRes.next (by assumption)

theorem KeepsRes.of_execRailDisableSlot {z : State} {x0 : ℕ} {x1 : Fin 14} {x2 : State} (h : Keeps z x2) :
    KeepsRes z (@execRailDisableSlot x0 x1 x2) := by
  unfold execRailDisableSlot
  extract_lets v0 v1 v2 v3 v4 v5
  subst v1 v2 v4
  have h60 : Keeps z v0 := Keeps.of_tick (by assumption)
  clear_value v0
  have h61 : Keeps z v3 := Keeps.of_setRail (by assumption)
  clear_value v3
  have h62 : Keeps z v5 := Keeps.ite (Keeps.trans (t := v3) (by assumption) {  }) (by assumption)
  clear_value v5
  refine KeepsRes.ite ?_ ?_
  · exact KeepsRes.next (by assumption)
  · exact KeepsRes.next (Keeps.ite (by assumption) (Keeps.of_railDone (by assumption)))

theorem KeepsRes.of_execRailEnableSlot {z : State} {x0 : ℕ} {x1 : Fin 14} {x2 : State} (h : Keeps z x2) :
    KeepsRes z (@execRailEnableSlot x0 x1 x2) := by
  unfold execRailEnableSlot
  extract_lets v0 v1 v2
  subst v1 v2
  have h60 : Keeps z v0 := Keeps.of_tick (by assumption)
  clear_value v0
  exact KeepsRes.next (Keeps.ite (Keeps.of_setRail (by assumption)) (by assumption))

theorem KeepsRes.of_execPowerBrakeApply {z : State} {x0 : ℕ} {x1 : State} (h : Keeps z x1) :
    KeepsRes z (@execPowerBrakeApply x0 x1) := by
  unfold execPowerBrakeApply
  extract_lets v0 v1 v2 v3
  subst v2 v3
  have h60 : Keeps z v0 := Keeps.of_tick (by assumption)
  clear_value v0
  have h61 : Keeps z v1 := Keeps.of_bump (by assumption)
  clear_value v1
  exact KeepsRes.next (Keeps.ite (by assumption) (Keeps.of_ev (Keeps.trans (t := v1) (by assumption) {  })))

theorem KeepsRes.of_execRailPgDeassert {z : State} {x0 : ℕ} {x1 : Fin 14} {x2 : State} (h : Keeps z x2) :
    KeepsRes z (@execRailPgDeassert x0 x1 x2) := by
  unfold execRailPgDeassert
  extract_lets v0 v1 v2
  subst v1 v2
  have h60 : Keeps z v0 := Keeps.of_tick (by assumption)
  clear_value v0
  refine KeepsRes.ite ?_ ?_
  · exact KeepsRes.next (by assumption)
  · refine KeepsRes.ite ?_ ?_
    · refine KeepsRes.ite ?_ ?_
      · exact KeepsRes.next (Keeps.of_ev (Keeps.of_setRail (by assumption)))
      · exact KeepsRes.next (Keeps.of_railDone (Keeps.of_setRail (by assumption)))
    · exact KeepsRes.ite (KeepsRes.next (Keeps.of_setRail (by assumption))) (KeepsRes.next (by assumption))

theorem KeepsRes.of_execInputQualified {z : State} {x0 : ℕ} {x1 : State} (h : Keeps z x1) :
    KeepsRes z (@execInputQualified x0 x1) := by
  unfold execInputQualified
  extract_lets v0 v1 v2
  subst v1 v2
  have h60 : Keeps z v0 := Keeps.of_tick (by assumption)
  clear_value v0
  exact KeepsRes.next (Keeps.ite (Keeps.of_onRequest (Keeps.trans (t := v0) (by assumption) {  })) (by assumption))

theorem KeepsRes.of_execInputLevelChange {z : State} {x0 : ℕ} {x1 : Sys2Proof.Inputs} {x2 : State} (h : Keeps z x2) :
    KeepsRes z (@execInputLevelChange x0 x1 x2) := by
  unfold execInputLevelChange
  extract_lets v0 v1 v2 v3 v4 v5 v6 v7 v8
  subst v1 v2 v4 v5 v7
  have h60 : Keeps z v0 := Keeps.of_tick (by assumption)
  clear_value v0
  have h61 : Keeps z v3 := Keeps.trans (t := v0) (by assumption) {  }
  clear_value v3
  have h62 : Keeps z v6 := Keeps.trans (t := v3) (by assumption) {  }
  clear_value v6
  have h63 : Keeps z v8 := by
    dsimp only [v8]
    refine Keeps.ite ?_ ?_
    · exact Keeps.of_ev (by assumption)
    · exact Keeps.ite (Keeps.of_endAttempt (Keeps.trans (t := v6) (by assumption) {  })) (by assumption)
  clear_value v8
  refine KeepsRes.ite ?_ ?_
  · exact KeepsRes.next (by assumption)
  · refine KeepsRes.ite ?_ ?_
    · exact KeepsRes.next (Keeps.ite (Keeps.of_resetRegs (by assumption)) (by assumption))
    · refine KeepsRes.ite ?_ ?_
      · exact KeepsRes.next (Keeps.ite (Keeps.of_dropRails (by assumption)) (by assumption))
      · refine KeepsRes.ite ?_ ?_
        · refine KeepsRes.next ?_
          refine Keeps.ite ?_ ?_
          · exact Keeps.of_offRequest (by assumption)
          · exact Keeps.of_beginPowerDown (Keeps.of_stopServing (by assumption))
        · exact KeepsRes.next (by assumption)

theorem KeepsRes.of_execRailPowerGood {z : State} {x0 : ℕ} {x1 : Fin 14} {x2 : State} (h : Keeps z x2) :
    KeepsRes z (@execRailPowerGood x0 x1 x2) := by
  unfold execRailPowerGood
  extract_lets v0 v1 v2 v3 v4 v5 v6 v7 v8 v9
  subst v1 v2 v3 v4 v7 v9
  have h60 : Keeps z v0 := Keeps.of_tick (by assumption)
  clear_value v0
  have h61 : Keeps z v5 := Keeps.of_setRail (by assumption)
  clear_value v5
  have h62 : Keeps z v6 := Keeps.ite (Keeps.of_ev (by assumption)) (by assumption)
  clear_value v6
  have h63 : Keeps z v8 := Keeps.ite (Keeps.trans (t := v6) (by assumption) {  }) (by assumption)
  clear_value v8
  refine KeepsRes.ite ?_ ?_
  · exact KeepsRes.next (by assumption)
  · exact KeepsRes.next (Keeps.ite (Keeps.trans (t := v8) (by assumption) {  }) (by assumption))

theorem Keeps.of_vauxGone {z : State} {x0 : State} (h : Keeps z x0) : Keeps z (@State.vauxGone x0) := by
  unfold State.vauxGone
  extract_lets v0 v1 v2 v3 v4 v5 v6 v7 v8 v9 v10 v11
  subst v1 v2 v3 v4 v5 v6 v7 v8 v9 v10 v11
  have h60 : Keeps z v0 := Keeps.of_resetRegs (Keeps.of_loseVolatile (Keeps.of_powerFailed (by assumption)))
  clear_value v0
  exact Keeps.trans (t := v0) (by assumption) {  }

theorem Keeps.of_railLost {z : State} {x0 : State} {x1 : ℕ} (h : Keeps z x0) : Keeps z (@State.railLost x0 x1) := by
  unfold State.railLost
  split
  · exact Keeps.of_beginPowerDown (Keeps.of_powerFailed (Keeps.of_stopServing (by assumption)))
  · exact Keeps.of_fatalHandling (by assumption)
  · exact Keeps.of_fatalNoDump (by assumption)
  · exact Keeps.of_startLog (Keeps.of_enterWt (Keeps.trans (t := x0) (by assumption) {  }))

theorem KeepsRes.of_execRailPgLost {z : State} {x0 : ℕ} {x1 : Fin 14} {x2 : Bool} {x3 : State} (h : Keeps z x3) :
    KeepsRes z (@execRailPgLost x0 x1 x2 x3) := by
  unfold execRailPgLost
  extract_lets v0 v1 v2 v3 v4 v5
  subst v1 v2 v3
  have h60 : Keeps z v0 := Keeps.of_tick (by assumption)
  clear_value v0
  have h61 : Keeps z v4 := Keeps.of_ev (Keeps.of_setRail (by assumption))
  clear_value v4
  have h62 : Keeps z v5 := Keeps.ite (Keeps.of_ev (by assumption)) (by assumption)
  clear_value v5
  refine KeepsRes.ite ?_ ?_
  · exact KeepsRes.next (Keeps.ite (by assumption) (Keeps.of_vauxGone (by assumption)))
  · refine KeepsRes.ite ?_ ?_
    · exact KeepsRes.next (by assumption)
    · refine KeepsRes.ite ?_ ?_
      · exact KeepsRes.next (Keeps.of_railLost (by assumption))
      · refine KeepsRes.ite ?_ ?_
        · exact KeepsRes.next (Keeps.of_ev (Keeps.of_setRail (by assumption)))
        · exact KeepsRes.next (Keeps.of_setRail (by assumption))

theorem KeepsRes.of_execMinimumOffTimeEnd {z : State} {x0 : ℕ} {x1 : State} (h : Keeps z x1) :
    KeepsRes z (@execMinimumOffTimeEnd x0 x1) := by
  unfold execMinimumOffTimeEnd
  extract_lets v0 v1 v2
  subst v1
  have h60 : Keeps z v0 := Keeps.of_tick (by assumption)
  clear_value v0
  have h61 : Keeps z v2 := Keeps.trans (t := v0) (by assumption) {  }
  clear_value v2
  split
  · exact KeepsRes.next (by assumption)
  · refine KeepsRes.ite ?_ ?_
    · exact KeepsRes.next (by assumption)
    · exact KeepsRes.next (Keeps.ite (Keeps.of_beginPowerUp (by assumption)) (by assumption))

theorem Keeps.of_beginStop {z : State} {x0 : State} (h : Keeps z x0) : Keeps z (@State.beginStop x0) := by
  unfold State.beginStop
  extract_lets v0 v1 v2 v3
  subst v0 v1 v2
  have h60 : Keeps z v3 := Keeps.trans (t := x0) (by assumption) {  }
  clear_value v3
  apply Keeps.of_beginFlush
  refine Keeps.foldl ?_ ?_
  · intro a61 a62 h63
    exact Keeps.ite (by assumption) (Keeps.of_turnAway (by assumption))
  · assumption

theorem Keeps.of_enterShutdown {z : State} {x0 : State} {x1 : ℕ} {x2 : ℕ} {x3 : ℤ} (h : Keeps z x0) :
    Keeps z (@State.enterShutdown x0 x1 x2 x3) := by
  unfold State.enterShutdown
  extract_lets v0 v1 v2 v3 v4 v5 v6 v7 v8 v9
  subst v0 v1 v2 v3 v4 v5 v6 v7 v8
  have h60 : Keeps z v9 := Keeps.of_ev (Keeps.trans (t := x0) (by assumption) {  })
  clear_value v9
  refine Keeps.ite ?_ ?_
  · exact Keeps.of_ev (by assumption)
  · exact Keeps.ite (by assumption) (Keeps.ite (Keeps.of_beginDump (by assumption)) (Keeps.of_beginStop (by assumption)))

theorem Keeps.of_judgeKind {z : State} {x0 : State} {x1 : ℕ} {x2 : ℤ} (h : Keeps z x0) :
    Keeps z (@State.judgeKind x0 x1 x2) := by
  unfold State.judgeKind
  extract_lets v0 v1 v2 v3 v4 v5 v6 v7 v8 v9 v10
  subst v0 v1 v2 v3 v4 v9
  have h60 : Keeps z v5 := Keeps.trans (t := x0) (by assumption) {  }
  clear_value v5
  have h61 : Keeps z v6 := Keeps.of_ev (by assumption)
  clear_value v6
  have h62 : Keeps z v7 := Keeps.ite (Keeps.ite (Keeps.of_abandonTest (by assumption)) (by assumption)) (by assumption)
  clear_value v7
  have h63 : Keeps z v8 := Keeps.ite (Keeps.of_ev (by assumption)) (by assumption)
  clear_value v8
  have h64 : Keeps z v10 := Keeps.ite (Keeps.trans (t := v8) (by assumption) {  }) (by assumption)
  clear_value v10
  exact Keeps.ite (Keeps.of_enterShutdown (by assumption)) (by assumption)

theorem Keeps.of_judgeAbsolute {z : State} {x0 : State} {x1 : ℕ} {x2 : ℤ} (h : Keeps z x0) :
    Keeps z (@State.judgeAbsolute x0 x1 x2) := by
  unfold State.judgeAbsolute
  extract_lets v0 v1 v2 v3 v4 v5 v6
  subst v0 v1 v2 v4 v5 v6
  have h60 : Keeps z v3 := Keeps.of_powerFailed (by assumption)
  clear_value v3
  exact Keeps.ite (Keeps.of_dropRails (Keeps.trans (t := v3) (by assumption) {  })) (by assumption)

theorem Keeps.of_setSensor {z : State} {x0 : State} {x1 : ℕ} {x2 : Sensor} (h : Keeps z x0) :
    Keeps z (@State.setSensor x0 x1 x2) := by
  unfold State.setSensor
  exact Keeps.trans (t := x0) (by assumption) {  }

theorem Keeps.of_takeSample {z : State} {x0 : State} {x1 : ℕ} {x2 : ℤ} {x3 : ℤ} (h : Keeps z x0) :
    Keeps z (@State.takeSample x0 x1 x2 x3) := by
  unfold State.takeSample
  extract_lets v0 v1 v2 v3 v4 v5 v6 v7
  subst v0 v1 v2 v3 v4 v5
  have h60 : Keeps z v6 := Keeps.of_setSensor (by assumption)
  clear_value v6
  have h61 : Keeps z v7 := Keeps.ite (Keeps.of_setSensor (by assumption)) (by assumption)
  clear_value v7
  exact Keeps.ite (Keeps.of_ev (by assumption)) (by assumption)

theorem Keeps.of_judgeStop {z : State} {x0 : State} {x1 : ℕ} {x2 : ℤ} (h : Keeps z x0) :
    Keeps z (@State.judgeStop x0 x1 x2) := by
  unfold State.judgeStop
  extract_lets v0 v1 v2
  subst v0 v1 v2
  split
  · exact Keeps.ite (Keeps.of_ev (Keeps.of_beginDump (Keeps.trans (t := x0) (by assumption) {  }))) (by assumption)
  · assumption

theorem Keeps.of_spread {z : State} {x0 : State} {x1 : ℕ} (h : Keeps z x0) : Keeps z (@State.spread x0 x1) := by
  unfold State.spread
  extract_lets v0 v1 v2 v3 v4 v5 v6 v7 v8
  subst v0 v1 v2 v4 v5 v7 v8
  have h60 : Keeps z v3 := Keeps.ite (Keeps.trans (t := x0) (by assumption) {  }) (by assumption)
  clear_value v3
  refine Keeps.ite ?_ ?_
  · exact Keeps.trans (t := v3) (by assumption) {  }
  · exact Keeps.ite (Keeps.trans (t := v3) (by assumption) {  }) (by assumption)

theorem Keeps.of_pacedSampling {z : State} {x0 : State} {x1 : ℕ} {x2 : ℤ} (h : Keeps z x0) :
    Keeps z (@State.pacedSampling x0 x1 x2) := by
  unfold State.pacedSampling
  extract_lets v0
  subst v0
  exact Keeps.ite (Keeps.of_setSensor (by assumption)) (Keeps.of_setSensor (by assumption))

theorem Keeps.of_judgeInlet {z : State} {x0 : State} (h : Keeps z x0) : Keeps z (@State.judgeInlet x0) := by
  unfold State.judgeInlet
  extract_lets v0 v1 v2
  subst v0 v1 v2
  exact Keeps.ite (Keeps.of_ev (Keeps.trans (t := x0) (by assumption) {  })) (by assumption)

theorem Keeps.of_heatOne {z : State} {x0 : State} {x1 : ℕ × ℕ} (h : Keeps z x0) : Keeps z (@heatOne x0 x1) := by
  unfold heatOne
  extract_lets v0 v1 v2
  subst v0 v1 v2
  exact Keeps.ite (Keeps.of_ev (Keeps.trans (t := x0) (by assumption) {  })) (Keeps.trans (t := x0) (by assumption) {  })

theorem KeepsRes.of_execSensorSample {z : State} {x0 : ℕ} {x1 : Fin 64} {x2 : ℤ} {x3 : ℤ} {x4 : State} (h : Keeps z x4) :
    KeepsRes z (@execSensorSample x0 x1 x2 x3 x4) := by
  unfold execSensorSample
  extract_lets v0 v1 v2 v3 v4 v5
  subst v1
  have h60 : Keeps z v0 := Keeps.of_tick (by assumption)
  clear_value v0
  have h61 : Keeps z v2 := Keeps.of_spread (Keeps.of_pacedSampling (Keeps.of_takeSample (by assumption)))
  clear_value v2
  have h62 : Keeps z v3 := Keeps.ite (Keeps.of_judgeInlet (by assumption)) (by assumption)
  clear_value v3
  have h63 : Keeps z v4 := by
    dsimp only [v4]
    refine Keeps.ite ?_ ?_
    · refine Keeps.foldl ?_ ?_
      · intro a64 a65 h66
        exact Keeps.of_heatOne (by assumption)
      · assumption
    · assumption
  clear_value v4
  have h67 : Keeps z v5 := Keeps.ite (by assumption) (Keeps.of_judgeStop (Keeps.of_judgeKind (by assumption)))
  clear_value v5
  exact KeepsRes.ite (KeepsRes.next (by assumption)) (KeepsRes.next (Keeps.of_judgeAbsolute (by assumption)))

theorem KeepsRes.of_execThermalHoldRetry {z : State} {x0 : ℕ} {x1 : State} (h : Keeps z x1) :
    KeepsRes z (@execThermalHoldRetry x0 x1) := by
  unfold execThermalHoldRetry
  extract_lets v0 v1
  subst v1
  have h60 : Keeps z v0 := Keeps.of_tick (by assumption)
  clear_value v0
  split
  · exact KeepsRes.next (by assumption)
  · refine KeepsRes.ite ?_ ?_
    · exact KeepsRes.next (by assumption)
    · exact KeepsRes.next (Keeps.of_beginPowerUp (Keeps.trans (t := v0) (by assumption) {  }))

theorem KeepsRes.of_execOrderlyStopLinkDown {z : State} {x0 : ℕ} {x1 : State} (h : Keeps z x1) :
    KeepsRes z (@execOrderlyStopLinkDown x0 x1) := by
  unfold execOrderlyStopLinkDown
  extract_lets v0 v1 v2 v3
  subst v2
  have h60 : Keeps z v0 := Keeps.of_tick (by assumption)
  clear_value v0
  have h61 : Keeps z v1 := Keeps.of_stopServing (by assumption)
  clear_value v1
  have h62 : Keeps z v3 := Keeps.trans (t := v1) (by assumption) {  }
  clear_value v3
  split
  · exact KeepsRes.next (by assumption)
  · refine KeepsRes.ite ?_ ?_
    · exact KeepsRes.next (by assumption)
    · exact KeepsRes.next (Keeps.of_ev (Keeps.of_beginPowerDown (by assumption)))

theorem Keeps.of_refuseHeader {z : State} {x0 : State} {x1 : ℕ} {x2 : Option ℕ} (h : Keeps z x0) :
    Keeps z (@State.refuseHeader x0 x1 x2) := by
  unfold State.refuseHeader
  split
  · exact Keeps.of_ev (by assumption)
  · exact Keeps.of_ev (Keeps.trans (t := x0) (by assumption) { fresh := Nat.le_succ _ })

theorem Keeps.of_setFwXfer {z : State} {x0 : State} {x1 : Option Transfer} (h : Keeps z x0) :
    Keeps z (@State.setFwXfer x0 x1) := by
  unfold State.setFwXfer
  exact Keeps.trans (t := x0) (by assumption) {  }

theorem KeepsRes.of_execGetConfigurationImageInfo {z : State} {x0 : Sys2Proof.Path} {x1 : State} (h : Keeps z x1) :
    KeepsRes z (@execGetConfigurationImageInfo x0 x1) := by
  unfold execGetConfigurationImageInfo
  refine KeepsRes.next ?_
  apply Keeps.of_mailbox
  · intro a0 h1
    exact Keeps.of_reply (by assumption)
  · assumption

theorem Keeps.of_setFw {z : State} {x0 : State} {x1 : ℕ} {x2 : FwSlot} (h : Keeps z x0) :
    Keeps z (@State.setFw x0 x1 x2) := by
  unfold State.setFw
  exact Keeps.trans (t := x0) (by assumption) {  }

theorem Keeps.of_endFw {z : State} {x0 : State} {x1 : Sys2Proof.Path} {x2 : ℕ} {x3 : Sys2Proof.FwImage} (h : Keeps z x0) :
    Keeps z (@State.endFw x0 x1 x2 x3) := by
  unfold State.endFw
  extract_lets v0
  have h60 : Keeps z v0 := Keeps.of_setFw (Keeps.of_setFwXfer (by assumption))
  clear_value v0
  exact Keeps.of_reply (by assumption)

theorem KeepsRes.of_execTransferFw {z : State} {x0 : ℕ} {x1 : Sys2Proof.Path} {x2 : Sys2Proof.XferAction} {x3 : ℕ} {x4 : ℕ} {x5 : ℕ} {x6 : Sys2Proof.FwImage} {x7 : State} (h : Keeps z x7) :
    KeepsRes z (@execTransferFw x0 x1 x2 x3 x4 x5 x6 x7) := by
  unfold execTransferFw
  refine KeepsRes.next ?_
  apply Keeps.of_mailbox
  · intro a0 h1
    extract_lets v2 v3 v4
    subst v2 v3
    have h62 : Keeps z v4 := Keeps.of_setFw (by assumption)
    clear_value v4
    split
    · exact Keeps.of_reply (by assumption)
    · split
      · exact Keeps.of_reply (Keeps.of_setFw (Keeps.of_setFwXfer (by assumption)))
      · exact Keeps.of_reply (Keeps.of_setFwXfer (by assumption))
      · exact Keeps.of_endFw (by assumption)
      · refine Keeps.ite ?_ ?_
        · exact Keeps.of_reply (by assumption)
        · split
          · exact Keeps.of_reply (Keeps.of_refuseHeader (by assumption))
          · exact Keeps.ite (Keeps.of_endFw (by assumption)) (Keeps.of_reply (Keeps.of_setFwXfer (by assumption)))
  · exact Keeps.of_tick (by assumption)

theorem Keeps.of_putHeader {z : State} {x0 : State} {x1 : BootHeader → BootHeader} (h : Keeps z x0) :
    Keeps z (@State.putHeader x0 x1) := by
  unfold State.putHeader
  exact Keeps.trans (t := x0) (by assumption) {  }

theorem KeepsRes.of_execActivateFw {z : State} {x0 : ℕ} {x1 : Sys2Proof.Path} {x2 : Bool} {x3 : ℕ} {x4 : State} (h : Keeps z x4) :
    KeepsRes z (@execActivateFw x0 x1 x2 x3 x4) := by
  unfold execActivateFw
  refine KeepsRes.next ?_
  apply Keeps.of_mailbox
  · intro a0 h1
    extract_lets v2 v3 v4 v5 v6 v7
    subst v2 v3 v4 v6
    have h62 : Keeps z v5 := Keeps.of_putHeader (by assumption)
    clear_value v5
    have h63 : Keeps z v7 := by
      dsimp only [v7]
      exact Keeps.trans (t := v5) (by assumption) { boot := (fun k => by simp only [bootOk, Bool.and_eq_true] at k ⊢; simp [k]) }
    clear_value v7
    refine Keeps.ite ?_ ?_
    · exact Keeps.of_reply (by assumption)
    · refine Keeps.ite ?_ ?_
      · exact Keeps.of_reply (by assumption)
      · refine Keeps.ite ?_ ?_
        · exact Keeps.of_reply (by assumption)
        · exact Keeps.of_reply (Keeps.ite (by assumption) (Keeps.of_ev (by assumption)))
  · exact Keeps.of_tick (by assumption)

theorem Keeps.of_setCfgXfer {z : State} {x0 : State} {x1 : Option Transfer} (h : Keeps z x0) :
    Keeps z (@State.setCfgXfer x0 x1) := by
  unfold State.setCfgXfer
  exact Keeps.trans (t := x0) (by assumption) {  }

theorem Keeps.of_takeRing {z : State} {x0 : State} {x1 : Option Sys2Proof.RingSec} (h : Keeps z x0) :
    Keeps z (@State.takeRing x0 x1) := by
  unfold State.takeRing
  extract_lets v0 v1 v2 v3
  subst v0 v1 v2 v3
  split
  · exact Keeps.trans (t := x0) (by assumption) {  }
  · extract_lets v63 v64
    subst v63 v64
    exact Keeps.trans (t := x0) (by assumption) {  }

theorem Keeps.of_noteBound {z : State} {x0 : State} (h : Keeps z x0) : Keeps z (@State.noteBound x0) := by
  unfold State.noteBound
  refine Keeps.foldl ?_ ?_
  · intro a0 a1 h2
    split
    · exact Keeps.of_ev (by assumption)
    · assumption
  · assumption

theorem Keeps.of_takeSections {z : State} {x0 : State} {x1 : Sys2Proof.Image} (h : Keeps z x0) :
    Keeps z (@State.takeSections x0 x1) := by
  unfold State.takeSections
  extract_lets v0 v1 v2 v3 v4 v5 v6 v7 v8 v9 v10 v11
  subst v0 v1 v2 v3 v4 v5 v6 v7 v9 v11
  have h60 : Keeps z v8 := Keeps.trans (t := x0) (by assumption) {  }
  clear_value v8
  have h61 : Keeps z v10 := Keeps.trans (t := v8) (by assumption) {  }
  clear_value v10
  exact Keeps.of_noteBound (Keeps.of_recalcLimit (Keeps.trans (t := v10) (by assumption) {  }))

theorem Keeps.of_enrol {z : State} {x0 : State} {x1 : Sys2Proof.Image} (h : Keeps z x0) : Keeps z (@State.enrol x0 x1) := by
  unfold State.enrol
  refine Keeps.ite ?_ ?_
  · extract_lets v0 v1
    subst v0
    have h60 : Keeps z v1 := Keeps.trans (t := x0) (by assumption) {  }
    clear_value v1
    exact Keeps.of_ev (Keeps.of_ownRow (by assumption))
  · assumption

theorem Keeps.of_takeImage {z : State} {x0 : State} {x1 : ℕ} {x2 : Sys2Proof.Image} (h : Keeps z x0) :
    Keeps z (@State.takeImage x0 x1 x2) := by
  unfold State.takeImage
  extract_lets v0 v1 v2 v3 v4 v5
  subst v0 v1 v2 v3
  have h60 : Keeps z v4 := Keeps.of_takeRing (Keeps.of_takeSections (Keeps.trans (t := x0) (by assumption) {  }))
  clear_value v4
  have h61 : Keeps z v5 := Keeps.ite (Keeps.of_ev (by assumption)) (by assumption)
  clear_value v5
  exact Keeps.of_enrol (by assumption)

theorem KeepsRes.of_execSelectConfigurationSlot {z : State} {x0 : Sys2Proof.Path} {x1 : ℕ} {x2 : Bool} {x3 : State} (h : Keeps z x3) :
    KeepsRes z (@execSelectConfigurationSlot x0 x1 x2 x3) := by
  unfold execSelectConfigurationSlot
  refine KeepsRes.next ?_
  apply Keeps.of_mailbox
  · intro a0 h1
    refine Keeps.ite ?_ ?_
    · exact Keeps.of_reply (by assumption)
    · extract_lets v2 v3
      subst v3
      have h62 : Keeps z v2 := Keeps.of_putHeader (by assumption)
      clear_value v2
      apply Keeps.of_reply
      exact Keeps.trans (t := v2) (by assumption) { boot := (fun k => by simp only [bootOk, Bool.and_eq_true] at k ⊢; simp [k]) }
  · assumption

theorem Keeps.of_refuseImage {z : State} {x0 : State} {x1 : ℕ} {x2 : Refused} (h : Keeps z x0) :
    Keeps z (@State.refuseImage x0 x1 x2) := by
  unfold State.refuseImage
  extract_lets v0 v1
  subst v0
  have h60 : Keeps z v1 := Keeps.ite (by assumption) (Keeps.of_ev (by assumption))
  clear_value v1
  exact Keeps.of_ev (by assumption)

theorem KeepsRes.of_execGetFwInfo {z : State} {x0 : Sys2Proof.Path} {x1 : State} (h : Keeps z x1) :
    KeepsRes z (@execGetFwInfo x0 x1) := by
  unfold execGetFwInfo
  refine KeepsRes.next ?_
  apply Keeps.of_mailbox
  · intro a0 h1
    extract_lets v2 v3
    subst v2 v3
    exact Keeps.of_reply (by assumption)
  · assumption

theorem Keeps.of_setCfg {z : State} {x0 : State} {x1 : ℕ} {x2 : CfgSlot} (h : Keeps z x0) :
    Keeps z (@State.setCfg x0 x1 x2) := by
  unfold State.setCfg
  exact Keeps.trans (t := x0) (by assumption) {  }

theorem Keeps.of_endCfg {z : State} {x0 : State} {x1 : Sys2Proof.Path} {x2 : ℕ} {x3 : ℕ} {x4 : Sys2Proof.Image} (h : Keeps z x0) :
    Keeps z (@State.endCfg x0 x1 x2 x3 x4) := by
  unfold State.endCfg
  extract_lets v0 v1
  subst v1
  have h60 : Keeps z v0 := Keeps.of_setCfgXfer (by assumption)
  clear_value v0
  split
  · exact Keeps.of_reply (Keeps.of_setCfg (by assumption))
  · exact Keeps.of_reply (Keeps.of_refuseImage (Keeps.of_setCfg (by assumption)))

theorem Keeps.of_takeFallback {z : State} {x0 : State} (h : Keeps z x0) : Keeps z (@State.takeFallback x0) := by
  unfold State.takeFallback
  extract_lets v0 v1 v2 v3 v4 v5 v6
  subst v0 v1 v2 v3 v4 v6
  have h60 : Keeps z v5 := Keeps.of_takeSections (Keeps.trans (t := x0) (by assumption) {  })
  clear_value v5
  exact Keeps.of_ev (Keeps.trans (t := v5) (by assumption) {  })

theorem KeepsRes.of_execTransferConfigurationImage {z : State} {x0 : ℕ} {x1 : Sys2Proof.Path} {x2 : Sys2Proof.XferAction} {x3 : ℕ} {x4 : ℕ} {x5 : Sys2Proof.Image} {x6 : State} (h : Keeps z x6) :
    KeepsRes z (@execTransferConfigurationImage x0 x1 x2 x3 x4 x5 x6) := by
  unfold execTransferConfigurationImage
  refine KeepsRes.next ?_
  apply Keeps.of_mailbox
  · intro a0 h1
    extract_lets v2 v3 v4 v5
    subst v2 v3 v4
    have h62 : Keeps z v5 := Keeps.of_setCfg (by assumption)
    clear_value v5
    split
    · exact Keeps.of_reply (by assumption)
    · split
      · exact Keeps.of_reply (Keeps.of_setCfg (Keeps.of_setCfgXfer (by assumption)))
      · exact Keeps.of_reply (Keeps.of_setCfgXfer (by assumption))
      · exact Keeps.of_endCfg (by assumption)
      · split
        · exact Keeps.of_reply (Keeps.of_refuseHeader (by assumption))
        · exact Keeps.ite (Keeps.of_endCfg (by assumption)) (Keeps.of_reply (Keeps.of_setCfgXfer (by assumption)))
  · exact Keeps.of_tick (by assumption)

theorem Keeps.of_resetBlock {z : State} {x0 : State} {x1 : ℕ} {x2 : ℕ} (h : Keeps z x0) :
    Keeps z (@State.resetBlock x0 x1 x2) := by
  unfold State.resetBlock
  apply Keeps.of_ev
  exact Keeps.trans (t := x0) (by assumption) { fab := (fun k => by simp only [fabOk, Bool.and_eq_true] at k ⊢; simp [k]) }

theorem Keeps.of_managementBack {z : State} {x0 : State} (h : Keeps z x0) : Keeps z (@State.managementBack x0) := by
  unfold State.managementBack
  extract_lets v0 v1 v2 v3 v4 v5
  subst v3 v4
  have h60 : Keeps z v0 := by
    dsimp only [v0]
    split
    · exact Keeps.of_reply (Keeps.of_dropWait (by assumption))
    · assumption
  clear_value v0
  have h66 : Keeps z v1 := by
    dsimp only [v1]
    split
    · exact Keeps.of_reply (by assumption)
    · assumption
  clear_value v1
  have h72 : Keeps z v2 := by
    dsimp only [v2]
    refine Keeps.foldl ?_ ?_
    · intro a73 a74 h75
      exact Keeps.of_reply (by assumption)
    · assumption
  clear_value v2
  have h76 : Keeps z v5 := Keeps.trans (t := v2) (by assumption) {  }
  clear_value v5
  exact Keeps.of_logDeferred (Keeps.of_endBackground (by assumption))

theorem Keeps.of_noteFailed {z : State} {x0 : State} {x1 : ℕ} (h : Keeps z x0) : Keeps z (@State.noteFailed x0 x1) := by
  unfold State.noteFailed
  extract_lets v0 v1 v2
  subst v0 v1
  have h60 : Keeps z v2 := Keeps.trans (t := x0) (by assumption) {  }
  clear_value v2
  exact Keeps.of_ev (Keeps.of_ownRow (by assumption))

theorem Keeps.of_endRestart {z : State} {x0 : State} {x1 : ℕ} (h : Keeps z x0) : Keeps z (@State.endRestart x0 x1) := by
  unfold State.endRestart
  exact Keeps.trans (t := x0) (by assumption) {  }

theorem Keeps.of_startRestart {z : State} {x0 : State} {x1 : ℕ} (h : Keeps z x0) : Keeps z (@State.startRestart x0 x1) := by
  unfold State.startRestart
  exact Keeps.trans (t := x0) (by assumption) {  }

theorem Keeps.of_startQueued {z : State} {x0 : State} (h : Keeps z x0) : Keeps z (@State.startQueued x0) := by
  unfold State.startQueued
  refine Keeps.foldl ?_ ?_
  · intro a0 a1 h2
    exact Keeps.ite (by assumption) (Keeps.of_startRestart (Keeps.trans (t := a0) (by assumption) {  }))
  · assumption

theorem KeepsRes.of_execRegionRestartDeadline {z : State} {x0 : ℕ} {x1 : Fin 9} {x2 : State} (h : Keeps z x2) :
    KeepsRes z (@execRegionRestartDeadline x0 x1 x2) := by
  unfold execRegionRestartDeadline
  extract_lets v0 v1 v2
  subst v1
  have h60 : Keeps z v0 := Keeps.of_tick (by assumption)
  clear_value v0
  have h61 : Keeps z v2 := Keeps.of_noteFailed (Keeps.of_endRestart (by assumption))
  clear_value v2
  split
  · exact KeepsRes.next (by assumption)
  · refine KeepsRes.ite ?_ ?_
    · exact KeepsRes.next (by assumption)
    · refine KeepsRes.ite ?_ ?_
      · exact KeepsRes.next (Keeps.of_fence (Keeps.ite (Keeps.of_beginDump (by assumption)) (by assumption)))
      · refine KeepsRes.ite ?_ ?_
        · exact KeepsRes.next (Keeps.of_startQueued (Keeps.of_fence (by assumption)))
        · exact KeepsRes.next (Keeps.of_startRestart (by assumption))

theorem Keeps.of_beginRestart {z : State} {x0 : State} {x1 : ℕ} {x2 : ℕ} (h : Keeps z x0) :
    Keeps z (@State.beginRestart x0 x1 x2) := by
  unfold State.beginRestart
  refine Keeps.ite ?_ ?_
  · exact Keeps.of_fatalHandling (by assumption)
  · refine Keeps.ite ?_ ?_
    · assumption
    · refine Keeps.ite ?_ ?_
      · exact Keeps.trans (t := x0) (by assumption) {  }
      · extract_lets v0 v1 v2
        subst v0 v2
        have h60 : Keeps z v1 := Keeps.ite (Keeps.of_noteFailed (by assumption)) (by assumption)
        refine Keeps.ite ?_ ?_
        · exact Keeps.of_fence (by assumption)
        · exact Keeps.ite (Keeps.trans (t := v1) (by assumption) {  }) (Keeps.of_startRestart (by assumption))

theorem Keeps.of_clearBlock {z : State} {x0 : State} {x1 : ℕ} {x2 : ℕ} (h : Keeps z x0) :
    Keeps z (@State.clearBlock x0 x1 x2) := by
  unfold State.clearBlock
  exact Keeps.trans (t := x0) (by assumption) { fab := (fun k => by simp only [fabOk, Bool.and_eq_true] at k ⊢; simp [k]) }

theorem KeepsRes.of_execBlockResetComplete {z : State} {x0 : ℕ} {x1 : Fin 9} {x2 : ℕ} {x3 : Bool} {x4 : State} (h : Keeps z x4) :
    KeepsRes z (@execBlockResetComplete x0 x1 x2 x3 x4) := by
  unfold execBlockResetComplete
  extract_lets v0 v1 v2
  subst v1 v2
  have h60 : Keeps z v0 := Keeps.of_tick (by assumption)
  clear_value v0
  split
  · exact KeepsRes.next (by assumption)
  · refine KeepsRes.ite ?_ ?_
    · exact KeepsRes.next (by assumption)
    · refine KeepsRes.ite ?_ ?_
      · refine KeepsRes.next ?_
        exact Keeps.trans (t := v0) (by assumption) { fab := (fun k => by simp only [fabOk, Bool.and_eq_true] at k ⊢; simp [k]) }
      · exact KeepsRes.next (Keeps.of_beginRestart (Keeps.of_clearBlock (by assumption)))

theorem KeepsRes.of_execEngineWatchdogExpiry {z : State} {x0 : ℕ} {x1 : Fin 64} {x2 : State} (h : Keeps z x2) :
    KeepsRes z (@execEngineWatchdogExpiry x0 x1 x2) := by
  unfold execEngineWatchdogExpiry
  extract_lets v0 v1 v2 v3 v4 v5 v6 v7 v8
  subst v1 v2 v3 v4 v5 v6 v8
  have h60 : Keeps z v0 := Keeps.of_tick (by assumption)
  clear_value v0
  have h61 : Keeps z v7 := Keeps.of_ev (Keeps.trans (t := v0) (by assumption) {  })
  clear_value v7
  refine KeepsRes.ite ?_ ?_
  · exact KeepsRes.next (by assumption)
  · refine KeepsRes.ite ?_ ?_
    · exact KeepsRes.next (Keeps.of_beginRestart (Keeps.trans (t := v7) (by assumption) {  }))
    · exact KeepsRes.next (by assumption)

theorem Keeps.of_mirrorTables {z : State} {x0 : State} {x1 : ℕ} (h : Keeps z x0) : Keeps z (@State.mirrorTables x0 x1) := by
  unfold State.mirrorTables
  extract_lets v0 v1 v2
  subst v1 v2
  exact Keeps.trans (t := x0) (by assumption) { cal := (fun k => by simp only [calOk, Bool.and_eq_true] at k ⊢; simp [k, wf_foldl_put, Map.retain]) }

theorem Keeps.of_noteFault {z : State} {x0 : State} {x1 : Bool} (h : Keeps z x0) : Keeps z (@State.noteFault x0 x1) := by
  unfold State.noteFault
  exact Keeps.ite (Keeps.of_bump (by assumption)) (Keeps.of_bump (by assumption))

theorem KeepsRes.of_execHandshakeStall {z : State} {x0 : ℕ} {x1 : Fin 9} {x2 : ℕ} {x3 : Sys2Proof.StallKind} {x4 : State} (h : Keeps z x4) :
    KeepsRes z (@execHandshakeStall x0 x1 x2 x3 x4) := by
  unfold execHandshakeStall
  extract_lets v0 v1
  subst v1
  have h60 : Keeps z v0 := Keeps.of_tick (by assumption)
  clear_value v0
  refine KeepsRes.ite ?_ ?_
  · exact KeepsRes.next (by assumption)
  · split
    · exact KeepsRes.next (Keeps.of_bump (by assumption))
    · exact KeepsRes.next (Keeps.of_noteFault (by assumption))
    · extract_lets v66
      have h126 : Keeps z v66 := Keeps.of_noteFault (by assumption)
      clear_value v66
      refine KeepsRes.next ?_
      refine Keeps.ite ?_ ?_
      · exact Keeps.of_beginRestart (Keeps.of_clearBlock (Keeps.of_ev (by assumption)))
      · exact Keeps.of_ev (by assumption)
    · extract_lets v129
      have h189 : Keeps z v129 := Keeps.of_noteFault (by assumption)
      clear_value v129
      refine KeepsRes.next ?_
      refine Keeps.ite ?_ ?_
      · exact Keeps.of_beginRestart (Keeps.of_clearBlock (Keeps.of_ev (by assumption)))
      · exact Keeps.of_resetBlock (Keeps.of_ev (by assumption))
    · exact KeepsRes.next (Keeps.of_fatalHandling (Keeps.of_ev (Keeps.of_noteFault (by assumption))))

theorem Keeps.of_hostBack {z : State} {x0 : State} {x1 : Restart} (h : Keeps z x0) : Keeps z (@State.hostBack x0 x1) := by
  unfold State.hostBack
  extract_lets v0 v1
  subst v0 v1
  refine Keeps.foldl ?_ ?_
  · intro a60 a61 h62
    exact Keeps.of_sendMsix (by assumption)
  · exact Keeps.trans (t := x0) (by assumption) { fab := (fun k => by simp only [fabOk, Bool.and_eq_true] at k ⊢; simp [k]) }

theorem Keeps.of_reissueOps {z : State} {x0 : State} {x1 : ℕ} (h : Keeps z x0) : Keeps z (@State.reissueOps x0 x1) := by
  unfold State.reissueOps
  exact Keeps.trans (t := x0) (by assumption) {  }

theorem Keeps.of_regionBack {z : State} {x0 : State} {x1 : ℕ} {x2 : Restart} (h : Keeps z x0) :
    Keeps z (@State.regionBack x0 x1 x2) := by
  unfold State.regionBack
  refine Keeps.ite ?_ ?_
  · exact Keeps.of_managementBack (by assumption)
  · refine Keeps.ite ?_ ?_
    · exact Keeps.of_hostBack (by assumption)
    · exact Keeps.ite (Keeps.of_reissueOps (Keeps.of_mirrorTables (by assumption))) (by assumption)

theorem KeepsRes.of_execRegionRestartReady {z : State} {x0 : ℕ} {x1 : Fin 9} {x2 : State} (h : Keeps z x2) :
    KeepsRes z (@execRegionRestartReady x0 x1 x2) := by
  unfold execRegionRestartReady
  extract_lets v0 v1 v2 v3 v4
  subst v1 v3
  have h60 : Keeps z v0 := Keeps.of_tick (by assumption)
  clear_value v0
  have h61 : Keeps z v2 := Keeps.of_endRestart (by assumption)
  clear_value v2
  have h62 : Keeps z v4 := by
    dsimp only [v4]
    exact Keeps.trans (t := v2) (by assumption) { fab := (fun k => by simp only [fabOk, Bool.and_eq_true] at k ⊢; simp [k]) }
  clear_value v4
  split
  · exact KeepsRes.next (by assumption)
  · refine KeepsRes.ite ?_ ?_
    · exact KeepsRes.next (by assumption)
    · extract_lets v68
      have h128 : Keeps z v68 := Keeps.of_ev (Keeps.of_regionBack (by assumption))
      clear_value v68
      exact KeepsRes.next (Keeps.ite (Keeps.of_beginDump (by assumption)) (Keeps.of_startQueued (by assumption)))

theorem KeepsRes.of_execPaceLowerInterval {z : State} {x0 : ℕ} {x1 : Sys2Proof.PaceIn} {x2 : State} (h : Keeps z x2) :
    KeepsRes z (@execPaceLowerInterval x0 x1 x2) := by
  unfold execPaceLowerInterval
  extract_lets v0 v1 v2 v3
  subst v1 v3
  have h60 : Keeps z v0 := Keeps.of_tick (by assumption)
  clear_value v0
  exact KeepsRes.ite (KeepsRes.next (by assumption)) (KeepsRes.next (Keeps.trans (t := v0) (by assumption) {  }))

theorem KeepsRes.of_execPaceEvaluation {z : State} {x0 : ℕ} {x1 : Sys2Proof.PaceIn} {x2 : State} (h : Keeps z x2) :
    KeepsRes z (@execPaceEvaluation x0 x1 x2) := by
  unfold execPaceEvaluation
  extract_lets v0 v1 v2 v3
  subst v1 v3
  have h60 : Keeps z v0 := Keeps.of_tick (by assumption)
  clear_value v0
  exact KeepsRes.ite (KeepsRes.next (by assumption)) (KeepsRes.next (Keeps.trans (t := v0) (by assumption) {  }))

theorem Keeps.of_breakRing {z : State} {x0 : State} {x1 : ℕ} {x2 : ℕ} (h : Keeps z x0) :
    Keeps z (@State.breakRing x0 x1 x2) := by
  unfold State.breakRing
  exact Keeps.ite (Keeps.of_ev (Keeps.trans (t := x0) (by assumption) {  })) (by assumption)

theorem Keeps.of_judgeCables {z : State} {x0 : State} (h : Keeps z x0) : Keeps z (@State.judgeCables x0) := by
  unfold State.judgeCables
  extract_lets v0 v1 v2
  subst v0 v1 v2
  refine Keeps.ite ?_ ?_
  · exact Keeps.ite (Keeps.trans (t := x0) (by assumption) {  }) (Keeps.of_breakRing (by assumption))
  · exact Keeps.ite (Keeps.of_breakRing (Keeps.of_ev (by assumption))) (by assumption)

theorem KeepsRes.of_execRingSyncLost {z : State} {x0 : ℕ} {x1 : Bool} {x2 : State} (h : Keeps z x2) :
    KeepsRes z (@execRingSyncLost x0 x1 x2) := by
  unfold execRingSyncLost
  extract_lets v0 v1 v2 v3 v4
  subst v2
  have h60 : Keeps z v0 := Keeps.of_tick (by assumption)
  clear_value v0
  have h61 : Keeps z v1 := Keeps.of_bump (by assumption)
  clear_value v1
  have h62 : Keeps z v3 := Keeps.ite (Keeps.trans (t := v1) (by assumption) {  }) (by assumption)
  clear_value v3
  have h63 : Keeps z v4 := Keeps.of_breakRing (by assumption)
  clear_value v4
  exact KeepsRes.next (Keeps.ite (Keeps.of_ev (by assumption)) (by assumption))

theorem Keeps.of_atPos {z : State} {x0 : State} {x1 : ℕ} {x2 : Member → Member} (h : Keeps z x0) :
    Keeps z (@State.atPos x0 x1 x2) := by
  unfold State.atPos
  exact Keeps.trans (t := x0) (by assumption) {  }

theorem Keeps.of_lateState {z : State} {x0 : State} {x1 : ℕ} {x2 : Bool} (h : Keeps z x0) :
    Keeps z (@State.lateState x0 x1 x2) := by
  unfold State.lateState
  refine Keeps.ite ?_ ?_
  · assumption
  · refine Keeps.ite ?_ ?_
    · exact Keeps.of_judgeEpoch (by assumption)
    · refine Keeps.ite ?_ ?_
      · exact Keeps.of_takeEpoch (by assumption)
      · exact Keeps.ite (Keeps.of_takeEpoch (Keeps.of_judgeOwn (by assumption))) (by assumption)

theorem Keeps.of_join {z : State} {x0 : State} (h : Keeps z x0) : Keeps z (@State.join x0) := by
  unfold State.join
  extract_lets v0 v1
  subst v1
  have h60 : Keeps z v0 := Keeps.of_judgeEpoch (by assumption)
  clear_value v0
  exact Keeps.trans (t := v0) (by assumption) {  }

theorem KeepsRes.of_execState {z : State} {x0 : ℕ} {x1 : Sys2Proof.FrameHead} {x2 : BitVec 48} {x3 : BitVec 4} {x4 : State} (h : Keeps z x4) :
    KeepsRes z (@execState x0 x1 x2 x3 x4) := by
  unfold execState
  refine KeepsRes.next ?_
  apply Keeps.of_receive
  · intro a0 h1
    refine Keeps.ite ?_ ?_
    · assumption
    · extract_lets v2 v3 v4 v5
      subst v3 v4
      have h62 : Keeps z v2 := Keeps.of_atPos (Keeps.of_forward (by assumption))
      clear_value v2
      have h63 : Keeps z v5 := Keeps.trans (t := v2) (by assumption) {  }
      clear_value v5
      exact Keeps.ite (Keeps.of_lateState (by assumption)) (Keeps.ite (Keeps.of_join (by assumption)) (by assumption))
  · exact Keeps.of_tick (by assumption)

theorem Keeps.of_sendLap2 {z : State} {x0 : State} {x1 : Close} (h : Keeps z x0) : Keeps z (@State.sendLap2 x0 x1) := by
  unfold State.sendLap2
  exact Keeps.of_send (Keeps.trans (t := x0) (by assumption) {  })

theorem Keeps.of_rejoin {z : State} {x0 : State} (h : Keeps z x0) : Keeps z (@State.rejoin x0) := by
  unfold State.rejoin
  extract_lets v0 v1
  subst v0 v1
  exact Keeps.trans (t := x0) (by assumption) {  }

theorem KeepsRes.of_execRingSyncAcquired {z : State} {x0 : ℕ} {x1 : State} (h : Keeps z x1) :
    KeepsRes z (@execRingSyncAcquired x0 x1) := by
  unfold execRingSyncAcquired
  extract_lets v0 v1 v2
  subst v1
  have h60 : Keeps z v0 := Keeps.of_tick (by assumption)
  clear_value v0
  have h61 : Keeps z v2 := Keeps.trans (t := v0) (by assumption) {  }
  clear_value v2
  exact KeepsRes.next (Keeps.ite (Keeps.of_rejoin (by assumption)) (by assumption))

theorem Keeps.of_preparePass {z : State} {x0 : State} {x1 : Sys2Proof.FrameHead} {x2 : ℕ} {x3 : ℕ} (h : Keeps z x0) :
    Keeps z (@State.preparePass x0 x1 x2 x3) := by
  unfold State.preparePass
  extract_lets v0 v1 v2
  subst v0 v2
  have h60 : Keeps z v1 := Keeps.ite (Keeps.of_beginClose (by assumption)) (by assumption)
  clear_value v1
  exact Keeps.of_forward (by assumption)

theorem Keeps.of_sendState {z : State} {x0 : State} (h : Keeps z x0) : Keeps z (@State.sendState x0) := by
  unfold State.sendState
  exact Keeps.of_send (by assumption)

theorem Keeps.of_formRing {z : State} {x0 : State} (h : Keeps z x0) : Keeps z (@State.formRing x0) := by
  unfold State.formRing
  extract_lets v0 v1 v2 v3 v4 v5 v6 v7 v8 v9 v10 v11 v12
  subst v0 v1 v2 v3 v4 v5 v6 v7 v8 v9
  have h60 : Keeps z v10 := Keeps.trans (t := x0) (by assumption) {  }
  clear_value v10
  have h61 : Keeps z v11 := Keeps.ite (Keeps.of_ev (by assumption)) (by assumption)
  clear_value v11
  have h62 : Keeps z v12 := Keeps.ite (Keeps.ite (by assumption) (Keeps.of_ev (by assumption))) (Keeps.of_sendState (by assumption))
  clear_value v12
  split
  · exact Keeps.ite (Keeps.of_bump (Keeps.of_send (by assumption))) (by assumption)
  · assumption

theorem KeepsRes.of_execDiscoverSend {z : State} {x0 : ℕ} {x1 : State} (h : Keeps z x1) :
    KeepsRes z (@execDiscoverSend x0 x1) := by
  unfold execDiscoverSend
  extract_lets v0
  have h60 : Keeps z v0 := Keeps.of_tick (by assumption)
  clear_value v0
  exact KeepsRes.next (Keeps.ite (Keeps.of_send (by assumption)) (by assumption))

theorem Keeps.of_finishResolve {z : State} {x0 : State} {x1 : ℕ} {x2 : ℕ} {x3 : ℕ} (h : Keeps z x0) :
    Keeps z (@State.finishResolve x0 x1 x2 x3) := by
  unfold State.finishResolve
  extract_lets v0 v1 v2 v3
  subst v0 v1 v2
  have h60 : Keeps z v3 := Keeps.of_ev (Keeps.trans (t := x0) (by assumption) {  })
  clear_value v3
  split
  · exact Keeps.of_reply (by assumption)
  · exact Keeps.trans (t := x0) (by assumption) {  }

theorem Keeps.of_prepareBack {z : State} {x0 : State} {x1 : Sys2Proof.FrameHead} {x2 : ℕ} {x3 : ℕ} (h : Keeps z x0) :
    Keeps z (@State.prepareBack x0 x1 x2 x3) := by
  unfold State.prepareBack
  split
  · assumption
  · refine Keeps.ite ?_ ?_
    · assumption
    · refine Keeps.ite ?_ ?_
      · exact Keeps.trans (t := x0) (by assumption) {  }
      · extract_lets v5 v6 v7
        subst v5 v6
        have h65 : Keeps z v7 := Keeps.trans (t := x0) (by assumption) {  }
        clear_value v7
        exact Keeps.ite (Keeps.of_sendLap2 (by assumption)) (by assumption)

theorem KeepsRes.of_execPrepare {z : State} {x0 : ℕ} {x1 : Sys2Proof.FrameHead} {x2 : BitVec 48} {x3 : BitVec 16} {x4 : State} (h : Keeps z x4) :
    KeepsRes z (@execPrepare x0 x1 x2 x3 x4) := by
  unfold execPrepare
  refine KeepsRes.next ?_
  apply Keeps.of_receive
  · intro a0 h1
    refine Keeps.ite ?_ ?_
    · exact Keeps.of_forward (by assumption)
    · exact Keeps.ite (Keeps.of_prepareBack (by assumption)) (Keeps.of_preparePass (by assumption))
  · exact Keeps.of_tick (by assumption)

theorem KeepsRes.of_execDecisionRecordWritten {z : State} {x0 : ℕ} {x1 : State} (h : Keeps z x1) :
    KeepsRes z (@execDecisionRecordWritten x0 x1) := by
  unfold execDecisionRecordWritten
  extract_lets v0
  have h60 : Keeps z v0 := Keeps.of_tick (by assumption)
  clear_value v0
  split
  · exact KeepsRes.next (by assumption)
  · extract_lets v66 v67 v68 v69 v70 v71
    subst v66 v68 v69 v70
    have h126 : Keeps z v67 := Keeps.of_commitEpoch (by assumption)
    clear_value v67
    have h127 : Keeps z v71 := Keeps.trans (t := v67) (by assumption) {  }
    clear_value v71
    refine KeepsRes.ite ?_ ?_
    · exact KeepsRes.next (by assumption)
    · exact KeepsRes.next (Keeps.of_interrupt (Keeps.ite (by assumption) (Keeps.of_send (by assumption))))

theorem KeepsRes.of_execRingFlushStart {z : State} {x0 : ℕ} {x1 : State} (h : Keeps z x1) :
    KeepsRes z (@execRingFlushStart x0 x1) := by
  unfold execRingFlushStart
  extract_lets v0 v1 v2 v3
  subst v1 v2
  have h60 : Keeps z v0 := Keeps.of_tick (by assumption)
  clear_value v0
  have h61 : Keeps z v3 := Keeps.trans (t := v0) (by assumption) {  }
  clear_value v3
  exact KeepsRes.ite (KeepsRes.next (by assumption)) (KeepsRes.next (Keeps.of_send (by assumption)))

theorem KeepsRes.of_execPreparedRecordWritten {z : State} {x0 : ℕ} {x1 : State} (h : Keeps z x1) :
    KeepsRes z (@execPreparedRecordWritten x0 x1) := by
  unfold execPreparedRecordWritten
  extract_lets v0 v1
  subst v1
  have h60 : Keeps z v0 := Keeps.of_tick (by assumption)
  clear_value v0
  split
  · exact KeepsRes.next (by assumption)
  · exact KeepsRes.next (Keeps.ite (by assumption) (Keeps.trans (t := v0) (by assumption) {  }))

theorem KeepsRes.of_execReservedTypeFrame {z : State} {x0 : ℕ} {x1 : Sys2Proof.FrameHead} {x2 : ℕ} {x3 : BitVec 64} {x4 : State} (h : Keeps z x4) :
    KeepsRes z (@execReservedTypeFrame x0 x1 x2 x3 x4) := by
  unfold execReservedTypeFrame
  refine KeepsRes.next ?_
  apply Keeps.of_receive
  · intro a0 h1
    exact Keeps.of_forward (Keeps.of_bump (by assumption))
  · exact Keeps.of_tick (by assumption)

theorem KeepsRes.of_execFlush {z : State} {x0 : ℕ} {x1 : Sys2Proof.FrameHead} {x2 : BitVec 48} {x3 : BitVec 16} {x4 : State} (h : Keeps z x4) :
    KeepsRes z (@execFlush x0 x1 x2 x3 x4) := by
  unfold execFlush
  refine KeepsRes.next ?_
  apply Keeps.of_receive
  · intro a0 h1
    refine Keeps.ite ?_ ?_
    · exact Keeps.trans (t := a0) (by assumption) {  }
    · extract_lets v2 v3 v4 v5 v6 v7
      subst v2 v3 v5 v6
      have h62 : Keeps z v4 := Keeps.ite (by assumption) (Keeps.trans (t := a0) (by assumption) {  })
      clear_value v4
      have h63 : Keeps z v7 := Keeps.trans (t := v4) (by assumption) {  }
      clear_value v7
      exact Keeps.of_forward (by assumption)
  · exact Keeps.of_tick (by assumption)

theorem KeepsRes.of_execCommit {z : State} {x0 : ℕ} {x1 : Sys2Proof.FrameHead} {x2 : BitVec 48} {x3 : BitVec 16} {x4 : State} (h : Keeps z x4) :
    KeepsRes z (@execCommit x0 x1 x2 x3 x4) := by
  unfold execCommit
  extract_lets v0
  subst v0
  refine KeepsRes.next ?_
  apply Keeps.of_receive
  · intro a60 h61
    refine Keeps.ite ?_ ?_
    · exact Keeps.of_forward (by assumption)
    · refine Keeps.ite ?_ ?_
      · refine Keeps.ite ?_ ?_
        · exact Keeps.ite (Keeps.of_finishResolve (Keeps.of_recoverCommit (by assumption))) (by assumption)
        · exact Keeps.ite (Keeps.trans (t := a60) (by assumption) {  }) (by assumption)
      · extract_lets v62 v63 v64
        subst v63
        have h122 : Keeps z v62 := Keeps.of_commitEpoch (by assumption)
        clear_value v62
        have h123 : Keeps z v64 := by
          dsimp only [v64]
          refine Keeps.ite ?_ ?_
          · assumption
          · refine Keeps.ite ?_ ?_
            · exact Keeps.of_join (Keeps.of_recoverCommit (by assumption))
            · exact Keeps.ite (Keeps.trans (t := v62) (by assumption) {  }) (by assumption)
        clear_value v64
        exact Keeps.of_forward (by assumption)
  · exact Keeps.of_tick (by assumption)

theorem KeepsRes.of_execRollback {z : State} {x0 : ℕ} {x1 : Sys2Proof.FrameHead} {x2 : BitVec 48} {x3 : BitVec 16} {x4 : State} (h : Keeps z x4) :
    KeepsRes z (@execRollback x0 x1 x2 x3 x4) := by
  unfold execRollback
  extract_lets v0
  subst v0
  refine KeepsRes.next ?_
  apply Keeps.of_receive
  · intro a60 h61
    refine Keeps.ite ?_ ?_
    · exact Keeps.of_forward (by assumption)
    · refine Keeps.ite ?_ ?_
      · exact Keeps.ite (Keeps.of_finishResolve (Keeps.of_recoverBack (by assumption))) (by assumption)
      · extract_lets v62
        have h122 : Keeps z v62 := Keeps.ite (Keeps.of_join (Keeps.of_recoverBack (by assumption))) (by assumption)
        clear_value v62
        exact Keeps.of_forward (by assumption)
  · exact Keeps.of_tick (by assumption)

theorem KeepsRes.of_execFlushResend {z : State} {x0 : ℕ} {x1 : State} (h : Keeps z x1) :
    KeepsRes z (@execFlushResend x0 x1) := by
  unfold execFlushResend
  extract_lets v0 v1 v2 v3 v4 v5 v6 v7
  subst v1 v2 v3 v4 v7
  have h60 : Keeps z v0 := Keeps.of_tick (by assumption)
  clear_value v0
  have h61 : Keeps z v5 := Keeps.trans (t := v0) (by assumption) {  }
  clear_value v5
  have h62 : Keeps z v6 := Keeps.of_setReg (by assumption)
  clear_value v6
  split
  · exact KeepsRes.next (by assumption)
  · refine KeepsRes.ite ?_ ?_
    · exact KeepsRes.next (Keeps.of_ev (Keeps.trans (t := v6) (by assumption) {  }))
    · exact KeepsRes.next (Keeps.of_send (by assumption))

theorem KeepsRes.of_execCloseStall {z : State} {x0 : ℕ} {x1 : State} (h : Keeps z x1) :
    KeepsRes z (@execCloseStall x0 x1) := by
  unfold execCloseStall
  extract_lets v0 v1
  subst v1
  have h60 : Keeps z v0 := Keeps.of_tick (by assumption)
  clear_value v0
  split
  · exact KeepsRes.next (by assumption)
  · exact KeepsRes.next (Keeps.ite (by assumption) (Keeps.of_ev (Keeps.trans (t := v0) (by assumption) {  })))

theorem KeepsRes.of_execGetRingStatus {z : State} {x0 : Sys2Proof.Path} {x1 : State} (h : Keeps z x1) :
    KeepsRes z (@execGetRingStatus x0 x1) := by
  unfold execGetRingStatus
  refine KeepsRes.next ?_
  apply Keeps.of_mailbox
  · intro a0 h1
    exact Keeps.of_reply (by assumption)
  · assumption

theorem Keeps.of_missing {z : State} {x0 : State} (h : Keeps z x0) : Keeps z (@State.missing x0) := by
  unfold State.missing
  exact Keeps.of_ev (by assumption)

theorem Keeps.of_dropSilent {z : State} {x0 : State} (h : Keeps z x0) : Keeps z (@State.dropSilent x0) := by
  unfold State.dropSilent
  exact Keeps.trans (t := x0) (by assumption) {  }

theorem KeepsRes.of_execHeartbeatTimeout {z : State} {x0 : ℕ} {x1 : State} (h : Keeps z x1) :
    KeepsRes z (@execHeartbeatTimeout x0 x1) := by
  unfold execHeartbeatTimeout
  extract_lets v0
  have h60 : Keeps z v0 := Keeps.of_tick (by assumption)
  clear_value v0
  exact KeepsRes.next (Keeps.ite (Keeps.of_breakRing (by assumption)) (by assumption))

theorem KeepsRes.of_execHeartbeat {z : State} {x0 : ℕ} {x1 : Sys2Proof.FrameHead} {x2 : BitVec 48} {x3 : BitVec 16} {x4 : State} (h : Keeps z x4) :
    KeepsRes z (@execHeartbeat x0 x1 x2 x3 x4) := by
  unfold execHeartbeat
  refine KeepsRes.next ?_
  apply Keeps.of_receive
  · intro a0 h1
    extract_lets v2 v3 v4
    subst v2
    have h62 : Keeps z v3 := Keeps.trans (t := a0) (by assumption) {  }
    clear_value v3
    have h63 : Keeps z v4 := Keeps.of_atPos (by assumption)
    clear_value v4
    exact Keeps.ite (by assumption) (Keeps.of_forward (by assumption))
  · exact Keeps.of_tick (by assumption)

theorem KeepsRes.of_execRingDoorbellWrite {z : State} {x0 : ℕ} {x1 : ℕ} {x2 : Sys2Proof.Word64} {x3 : State} (h : Keeps z x3) :
    KeepsRes z (@execRingDoorbellWrite x0 x1 x2 x3) := by
  unfold execRingDoorbellWrite
  extract_lets v0 v1 v2 v3
  subst v1 v2
  have h60 : Keeps z v0 := Keeps.of_tick (by assumption)
  clear_value v0
  have h61 : Keeps z v3 := Keeps.of_beginClose (by assumption)
  clear_value v3
  refine KeepsRes.ite ?_ ?_
  · exact KeepsRes.next (by assumption)
  · refine KeepsRes.ite ?_ ?_
    · exact KeepsRes.next (Keeps.of_bump (by assumption))
    · refine KeepsRes.ite ?_ ?_
      · exact KeepsRes.next (Keeps.trans (t := v0) (by assumption) {  })
      · refine KeepsRes.next ?_
        split
        · exact Keeps.ite (by assumption) (Keeps.of_sendLap1 (by assumption))
        · assumption

theorem KeepsRes.of_execEpochResolve {z : State} {x0 : ℕ} {x1 : Sys2Proof.Path} {x2 : ℕ} {x3 : ℕ} {x4 : State} (h : Keeps z x4) :
    KeepsRes z (@execEpochResolve x0 x1 x2 x3 x4) := by
  unfold execEpochResolve
  refine KeepsRes.next ?_
  apply Keeps.of_mailbox
  · intro a0 h1
    refine Keeps.ite ?_ ?_
    · exact Keeps.of_reply (by assumption)
    · refine Keeps.ite ?_ ?_
      · exact Keeps.of_reply (by assumption)
      · extract_lets v2 v3 v4 v5 v6
        subst v2 v3 v5 v6
        have h62 : Keeps z v4 := Keeps.trans (t := a0) (by assumption) {  }
        refine Keeps.ite ?_ ?_
        · apply Keeps.of_finishResolve
          exact Keeps.ite (Keeps.of_recoverCommit (by assumption)) (Keeps.of_recoverBack (by assumption))
        · exact Keeps.ite (Keeps.of_send (by assumption)) (Keeps.of_send (by assumption))
  · exact Keeps.of_tick (by assumption)

theorem KeepsRes.of_execPrepareLap2Send {z : State} {x0 : ℕ} {x1 : State} (h : Keeps z x1) :
    KeepsRes z (@execPrepareLap2Send x0 x1) := by
  unfold execPrepareLap2Send
  extract_lets v0
  have h60 : Keeps z v0 := Keeps.of_tick (by assumption)
  clear_value v0
  split
  · exact KeepsRes.next (Keeps.ite (Keeps.of_sendLap2 (by assumption)) (by assumption))
  · exact KeepsRes.next (by assumption)

theorem Keeps.of_tryForm {z : State} {x0 : State} (h : Keeps z x0) : Keeps z (@State.tryForm x0) := by
  unfold State.tryForm
  refine Keeps.ite ?_ ?_
  · extract_lets v0
    have h60 : Keeps z v0 := Keeps.of_formRing (by assumption)
    clear_value v0
    exact Keeps.ite (Keeps.of_join (by assumption)) (by assumption)
  · assumption

theorem KeepsRes.of_execMemberWaitExpiry {z : State} {x0 : ℕ} {x1 : State} (h : Keeps z x1) :
    KeepsRes z (@execMemberWaitExpiry x0 x1) := by
  unfold execMemberWaitExpiry
  extract_lets v0 v1
  have h60 : Keeps z v0 := Keeps.of_tick (by assumption)
  clear_value v0
  have h61 : Keeps z v1 := Keeps.ite (Keeps.of_formRing (Keeps.of_missing (by assumption))) (Keeps.of_missing (by assumption))
  clear_value v1
  refine KeepsRes.ite ?_ ?_
  · exact KeepsRes.next (Keeps.ite (Keeps.of_formRing (Keeps.of_missing (by assumption))) (by assumption))
  · refine KeepsRes.ite ?_ ?_
    · exact KeepsRes.next (by assumption)
    · refine KeepsRes.ite ?_ ?_
      · exact KeepsRes.next (Keeps.of_join (Keeps.of_dropSilent (by assumption)))
      · exact KeepsRes.next (Keeps.ite (Keeps.of_join (by assumption)) (by assumption))

theorem KeepsRes.of_execCloseResend {z : State} {x0 : ℕ} {x1 : State} (h : Keeps z x1) :
    KeepsRes z (@execCloseResend x0 x1) := by
  unfold execCloseResend
  extract_lets v0 v1 v2 v3
  subst v2 v3
  have h60 : Keeps z v0 := Keeps.of_tick (by assumption)
  clear_value v0
  have h61 : Keeps z v1 := Keeps.of_bump (by assumption)
  clear_value v1
  split
  · exact KeepsRes.next (by assumption)
  · refine KeepsRes.ite ?_ ?_
    · exact KeepsRes.next (by assumption)
    · refine KeepsRes.ite ?_ ?_
      · exact KeepsRes.next (by assumption)
      · extract_lets v67 v68
        subst v68
        have h127 : Keeps z v67 := Keeps.trans (t := v1) (by assumption) {  }
        clear_value v67
        exact KeepsRes.next (Keeps.ite (Keeps.of_send (by assumption)) (Keeps.of_send (by assumption)))

theorem KeepsRes.of_execDiscover {z : State} {x0 : ℕ} {x1 : Sys2Proof.FrameHead} {x2 : ℕ} {x3 : State} (h : Keeps z x3) :
    KeepsRes z (@execDiscover x0 x1 x2 x3) := by
  unfold execDiscover
  refine KeepsRes.next ?_
  apply Keeps.of_receive
  · intro a0 h1
    refine Keeps.ite ?_ ?_
    · assumption
    · extract_lets v2 v3 v4 v5
      subst v4 v5
      have h62 : Keeps z v2 := Keeps.of_forward (by assumption)
      clear_value v2
      have h63 : Keeps z v3 := Keeps.ite (Keeps.of_rejoin (by assumption)) (by assumption)
      clear_value v3
      split
      · extract_lets v69 v70
        subst v69 v70
        exact Keeps.ite (by assumption) (Keeps.of_tryForm (Keeps.trans (t := v3) (by assumption) {  }))
      · extract_lets v134
        subst v134
        exact Keeps.of_ev (Keeps.trans (t := v2) (by assumption) {  })
      · exact Keeps.of_ev (by assumption)
  · exact Keeps.of_tick (by assumption)

theorem KeepsRes.of_execHeartbeatSend {z : State} {x0 : ℕ} {x1 : State} (h : Keeps z x1) :
    KeepsRes z (@execHeartbeatSend x0 x1) := by
  unfold execHeartbeatSend
  extract_lets v0
  have h60 : Keeps z v0 := Keeps.of_tick (by assumption)
  clear_value v0
  exact KeepsRes.next (Keeps.ite (Keeps.of_send (by assumption)) (by assumption))

theorem KeepsRes.of_execRingCableChange {z : State} {x0 : ℕ} {x1 : Bool} {x2 : Bool} {x3 : State} (h : Keeps z x3) :
    KeepsRes z (@execRingCableChange x0 x1 x2 x3) := by
  unfold execRingCableChange
  extract_lets v0 v1 v2
  subst v1
  have h60 : Keeps z v0 := Keeps.of_tick (by assumption)
  clear_value v0
  have h61 : Keeps z v2 := Keeps.trans (t := v0) (by assumption) {  }
  clear_value v2
  exact KeepsRes.next (Keeps.ite (Keeps.of_judgeCables (by assumption)) (by assumption))

end Sys2Proof.Laws
end

