-- ==== Sys2Proof/Laws/KeepsBoot.lean ====
section
/-! SUPPORT. One law per operation of the card that says what no operation does (Laws/Keeps.lean): boot, the link, tally rows, the standard commands and poison. -/

set_option Elab.async false

namespace Sys2Proof.Laws

open Sys2Proof.Machine Sys2Proof.Safety

theorem KeepsRes.of_execGetBootLedger {z : State} {x0 : Sys2Proof.Path} {x1 : ℕ} {x2 : State} (h : Keeps z x2) :
    KeepsRes z (@execGetBootLedger x0 x1 x2) := by
  unfold execGetBootLedger
  refine KeepsRes.next ?_
  apply Keeps.of_mailbox
  · intro a0 h1
    split
    · exact Keeps.ite (Keeps.of_reply (by assumption)) (Keeps.of_reply (by assumption))
    · exact Keeps.of_reply (by assumption)
  · assumption

theorem Keeps.of_settleMap {z s : State} (h : Keeps z s) : Keeps z s.settleMap := by
  unfold State.settleMap
  refine Keeps.foldl (fun a x q => Keeps.of_freeIfEmpty q) (h.trans { med := fun k => ?_, map := fun k => ?_, ring := fun k => ?_ })
  · simp only [medOk, Bool.and_eq_true] at k ⊢
    exact ⟨⟨k.1.1, Tab.wf_mapV _ _ k.1.2⟩, k.2⟩
  · simp only [mapOk, Bool.and_eq_true] at k ⊢
    refine ⟨⟨⟨⟨⟨⟨⟨k.1.1.1.1.1.1.1, k.1.1.1.1.1.1.2⟩, k.1.1.1.1.1.2⟩, rfl⟩, ?_⟩, k.1.1.2⟩, k.1.2⟩, k.2⟩
    refine wf_filterMap (fun e x q => ?_) k.1.1.1.1.1.1.1
    split at q
    · cases q; rfl
    · cases q
  · exact Tab.wf_filter _ _ k

theorem KeepsEnd.of_passBy {z : State} {x0 : ℕ} {x1 : State} (h : Keeps z x1) : KeepsEnd z (@passBy x0 x1) := by
  unfold passBy
  exact KeepsEnd.pass (by assumption)

theorem Keeps.of_homeNow {z : State} {x0 : State} {x1 : ℕ} {x2 : List (HomeLine × Bool)} {x3 : ℕ} {x4 : BitVec 2} (h : Keeps z x0) :
    Keeps z (@State.homeNow x0 x1 x2 x3 x4).1 := by
  unfold State.homeNow
  split
  · exact Keeps.pair (by assumption)
  · extract_lets v2 v3 v4 v5 v6 v7
    subst v3 v4
    have h62 : Keeps z v2 := Keeps.of_mend (by assumption)
    clear_value v2
    have h63 : Keeps z v5 := Keeps.of_setUnit (by assumption)
    clear_value v5
    have h64 : Keeps z v6 := Keeps.ite (by assumption) (Keeps.of_ownRow (by assumption))
    clear_value v6
    have h65 : Keeps z v7.1 := Keeps.of_placeLines (by assumption)
    clear_value v7
    split
    · exact Keeps.pair (Keeps.of_dropHome (Keeps.of_commitHome (by assumption)))
    · assumption

theorem Keeps.of_olderHome {z : State} {x0 : State} {x1 : List DumpLine} (h : Keeps z x0) :
    Keeps z (@State.olderHome x0 x1).1 := by
  unfold State.olderHome
  extract_lets v0 v1
  subst v0 v1
  refine Keeps.foldl_fst ?_ ?_
  · intro a60 a61 h62
    extract_lets v63 v64 v65
    subst v63 v64
    have h123 : Keeps z v65.1 := Keeps.of_homeNow (by assumption)
    clear_value v65
    split
    · exact Keeps.pair (by assumption)
    · exact Keeps.pair (by assumption)
  · exact Keeps.pair (by assumption)

theorem Keeps.of_clearOlder {z : State} {x0 : State} (h : Keeps z x0) : Keeps z (@State.clearOlder x0).1 := by
  unfold State.clearOlder
  split
  · exact Keeps.pair (by assumption)
  · extract_lets v5 v6 v7 v8
    subst v5
    have h65 : Keeps z v6.1 := Keeps.of_olderHome (by assumption)
    clear_value v6
    subst v7
    have h66 : Keeps z v8 := Keeps.of_ev (Keeps.trans (t := Prod.fst v6) (by assumption) { fresh := Nat.le_succ _ })
    clear_value v8
    exact Keeps.pair (Keeps.of_armSlot (by assumption))

theorem Keeps.of_spoil {z : State} {x0 : State} {p : ℕ} {x1 x3 : DumpLine → Bool} {x2 : List DumpLine} (h : Keeps z x0) :
    Keeps z (@State.spoil x0 p x1 x3 x2).1 := by
  unfold State.spoil
  extract_lets s0 v0
  have hs : Keeps z s0 := Keeps.of_loseSlotSectors (by assumption)
  clear_value s0
  have h60 : Keeps z v0 := by
    dsimp only [v0]
    refine Keeps.foldl ?_ ?_
    · intro a61 a62 h63
      exact Keeps.of_losePoison (by assumption)
    · exact Keeps.trans (t := s0) (by assumption) { fresh := Nat.le_succ _ }
  clear_value v0
  exact Keeps.pair (by assumption)

theorem Keeps.of_indexSlot {z : State} {x0 : State} {x1 : ℕ} {x2 : List DumpLine} {x3 : Bool} (h : Keeps z x0) :
    Keeps z (@State.indexSlot x0 x1 x2 x3) := by
  unfold State.indexSlot
  exact Keeps.of_slotDrained (Keeps.of_drainSlot (by assumption))

theorem Keeps.of_takeRecord {z : State} {x0 : State} {x1 : DumpSlot} (h : Keeps z x0) :
    Keeps z (@State.takeRecord x0 x1) := by
  unfold State.takeRecord
  split
  · exact Keeps.trans (t := x0) (by assumption) {  }
  · assumption

theorem Keeps.of_dirtyShutdown {z : State} {x0 : State} {x1 : ℕ} (h : Keeps z x0) :
    Keeps z (@State.dirtyShutdown x0 x1) := by
  unfold State.dirtyShutdown
  extract_lets v0 v1 v2 v3 v4
  subst v0 v1 v2
  have h60 : Keeps z v3 := Keeps.trans (t := x0) (by assumption) {  }
  clear_value v3
  have h61 : Keeps z v4 := Keeps.of_setReg (Keeps.of_markSuspect (by assumption))
  clear_value v4
  exact Keeps.of_ev (Keeps.of_saveLifetime (Keeps.of_ownRow (by assumption)))

theorem KeepsEnd.of_indexDump {z : State} {x0 : State} {x1 : ℕ} {x2 : Sys2Proof.BootIn} {x3 : List DumpLine} (h : Keeps z x0) :
    KeepsEnd z (@State.indexDump x0 x1 x2 x3) := by
  unfold State.indexDump
  extract_lets v0 v1 v2 v3 v4 v5 v6 v7 v8 v80 v9 v10 v11 v12 v13
  subst v0 v2 v3 v9
  have h60 : Keeps z v5.1 := by
    dsimp only [v5]
    apply Keeps.of_spoil
    dsimp only [v4]
    exact Keeps.trans (t := x0) (by assumption) {  }
  clear_value v5
  subst v6
  have h61 : Keeps z v7 := Keeps.of_ev (Keeps.trans (t := Prod.fst v5) (by assumption) { fresh := Nat.le_add_right _ _ })
  clear_value v7
  have h61a : Keeps z v8.1 := Keeps.of_spoil (by assumption)
  clear_value v8
  have h62 : Keeps z v80.1 := by
    dsimp only [v80]
    apply Keeps.of_spoil
    dsimp only [v4]
    exact Keeps.trans (t := State.takeRecord x0 (State.slotD x0 x1)) (Keeps.of_takeRecord (by assumption)) {  }
  clear_value v80
  have h63 : Keeps z v10 := Keeps.ite (Keeps.of_ev (Keeps.of_setReg (by assumption))) (by assumption)
  clear_value v10
  have h64 : Keeps z v12.1 := by
    dsimp only [v12]
    apply Keeps.of_spoil
    dsimp only [v4]
    exact Keeps.trans (t := State.takeRecord x0 (State.slotD x0 x1)) (Keeps.of_takeRecord (by assumption)) {  }
  clear_value v12
  have h65 : Keeps z v13 := Keeps.of_ev (Keeps.of_setReg (by assumption))
  clear_value v13
  refine KeepsEnd.ite ?_ ?_
  · exact KeepsEnd.of_passBy (Keeps.of_indexSlot (by assumption))
  · refine KeepsEnd.ite ?_ ?_
    · exact KeepsEnd.of_passBy (Keeps.of_indexSlot (by assumption))
    · refine KeepsEnd.ite ?_ ?_
      · exact KeepsEnd.of_passBy (Keeps.of_indexSlot (Keeps.of_ev (by assumption)))
      · refine KeepsEnd.ite ?_ ?_
        · exact KeepsEnd.of_passBy (Keeps.of_indexSlot (by assumption))
        · refine KeepsEnd.ite ?_ ?_
          · exact KeepsEnd.of_passBy (Keeps.of_armSlot (by assumption))
          · exact KeepsEnd.pass (Keeps.of_armSlot (Keeps.of_dirtyShutdown (by assumption)))

theorem KeepsEnd.of_step9 {z : State} {x0 : State} {x1 : Sys2Proof.BootIn} (h : Keeps z x0) :
    KeepsEnd z (@State.step9 x0 x1) := by
  unfold State.step9
  refine KeepsEnd.ite ?_ ?_
  · refine KeepsEnd.wait
  · refine KeepsEnd.ite ?_ ?_
    · exact KeepsEnd.of_passBy (by assumption)
    · extract_lets v0 v1 v2 v3 v4 v5
      subst v2 v5
      have h60 : Keeps z v0.1 := Keeps.of_clearOlder (by assumption)
      clear_value v0
      subst v1
      have h61 : Keeps z v3 := Keeps.trans (t := Prod.fst v0) (by assumption) {  }
      clear_value v3
      refine KeepsEnd.ite ?_ ?_
      · exact KeepsEnd.of_indexDump (by assumption)
      · refine KeepsEnd.ite ?_ ?_
        · exact KeepsEnd.of_indexDump (by assumption)
        · refine KeepsEnd.ite ?_ ?_
          · exact KeepsEnd.pass (Keeps.of_dirtyShutdown (by assumption))
          · exact KeepsEnd.of_passBy (Keeps.ite (Keeps.trans (t := v3) (by assumption) {  }) (by assumption))

theorem Keeps.of_raiseRollback {z : State} {x0 : State} (h : Keeps z x0) : Keeps z (@State.raiseRollback x0) := by
  unfold State.raiseRollback
  extract_lets v0 v1 v2
  subst v0 v1
  have h60 : Keeps z v2 := Keeps.trans (t := x0) (by assumption) {  }
  clear_value v2
  exact Keeps.ite (Keeps.of_ev (Keeps.of_ownRow (by assumption))) (by assumption)

theorem KeepsRes.of_execVauxRemoved {z : State} {x0 : ℕ} {x1 : State} (h : Keeps z x1) :
    KeepsRes z (@execVauxRemoved x0 x1) := by
  unfold execVauxRemoved
  extract_lets v0
  have h60 : Keeps z v0 := Keeps.of_tick (by assumption)
  clear_value v0
  exact KeepsRes.ite (KeepsRes.next (by assumption)) (KeepsRes.next (Keeps.of_vauxGone (by assumption)))

theorem Keeps.of_clearSuspects {z : State} {x0 : State} {x1 : ℕ} (h : Keeps z x0) :
    Keeps z (@State.clearSuspects x0 x1) := by
  unfold State.clearSuspects
  refine Keeps.foldl ?_ ?_
  · intro a0 a1 h2
    exact Keeps.of_setReg (by assumption)
  · assumption

theorem Keeps.of_setStep {z : State} {x0 : State} {x1 : ℕ} {x2 : LedgerStep → LedgerStep} (h : Keeps z x0) :
    Keeps z (@State.setStep x0 x1 x2) := by
  unfold State.setStep
  exact Keeps.trans (t := x0) (by assumption) {  }

theorem Keeps.of_ledgerRow {z : State} {x0 : State} (h : Keeps z x0) : Keeps z (@State.ledgerRow x0) := by
  unfold State.ledgerRow
  split
  · exact Keeps.of_ownRow (by assumption)
  · assumption

theorem KeepsEnd.of_step2 {z : State} {x0 : State} {x1 : Sys2Proof.BootIn} (h : Keeps z x0) :
    KeepsEnd z (@State.step2 x0 x1) := by
  unfold State.step2
  extract_lets v0 v1 v2 v3 v4
  subst v3
  have h60 : Keeps z v0 := Keeps.ite (Keeps.of_ev (by assumption)) (by assumption)
  clear_value v0
  split
  · dsimp only [v4]
    apply KeepsEnd.of_passBy
    refine Keeps.trans (t := if Boot.firstMethod (State.boot v0) 2 = 1 then   ev 1409 1 [v1 0, 5] 1 v0 else v0) ?_ {  }
    exact Keeps.ite (Keeps.of_ev (by assumption)) (by assumption)
  · rename_i m63 m64 m65
    split
    · dsimp only [v4]
      apply KeepsEnd.of_passBy
      refine Keeps.trans (t := ev 1409 1 [v1 (Boot.firstMethod (State.boot v0) 2), m64] 1 v0) ?_ {  }
      exact Keeps.of_ev (by assumption)
    · extract_lets v71 v72 v73
      subst v73
      have h131 : Keeps z v71 := Keeps.of_ev (by assumption)
      clear_value v71
      have h132 : Keeps z v72 := Keeps.of_setStep (by assumption)
      clear_value v72
      exact KeepsEnd.stop (Keeps.of_ledgerRow (Keeps.trans (t := v72) (by assumption) {  }))

theorem Keeps.of_defaults23 {z : State} {x0 : State} (h : Keeps z x0) : Keeps z (@State.defaults23 x0) := by
  unfold State.defaults23
  extract_lets v0 v1 v2 v3 v4 v5 v6 v7
  subst v0 v1 v3 v6
  have h60 : Keeps z v2 := by
    dsimp only [v2]
    exact Keeps.trans (t := x0) (by assumption) { list := (fun k => by simp only [listOk, decide_eq_true_eq, List.length_map] at k ⊢; exact le_trans (List.length_filter_le _ _) (by simpa using k)) }
  clear_value v2
  have h61 : Keeps z v4 := Keeps.ite (Keeps.trans (t := v2) (by assumption) {  }) (by assumption)
  clear_value v4
  have h62 : Keeps z v7 := Keeps.ite (Keeps.trans (t := v4) (by assumption) {  }) (by assumption)
  clear_value v7
  refine Keeps.foldl ?_ ?_
  · intro a63 a64 h65
    exact Keeps.ite (Keeps.trans (t := a63) (by assumption) {  }) (by assumption)
  · assumption

theorem KeepsRes.of_execLastResortScanEnd {z : State} {x0 : ℕ} {x1 : State} (h : Keeps z x1) :
    KeepsRes z (@execLastResortScanEnd x0 x1) := by
  unfold execLastResortScanEnd
  extract_lets v0 v1 v2
  subst v1
  have h60 : Keeps z v0 := Keeps.of_tick (by assumption)
  clear_value v0
  have h61 : Keeps z v2 := Keeps.trans (t := v0) (by assumption) {  }
  clear_value v2
  exact KeepsRes.next (Keeps.ite (Keeps.ite (Keeps.of_ev (by assumption)) (by assumption)) (by assumption))

theorem Keeps.of_scanMap {z s : State} (h : Keeps z s) : Keeps z s.scanMap := by
  unfold State.scanMap
  extract_lets s best entry found m s1
  have h0 : Keeps z s := Keeps.foldl (fun a x q => Keeps.ite (Keeps.of_readSource q) q) h
  have hb : Tab.wf best = true := by
    refine wf_foldl (fun t c q => ?_) rfl
    split
    · exact wf_ite (Tab.wf_put t _ _ q) q
    · exact Tab.wf_put t _ _ q
  have hf : Tab.wf found = true := Tab.wf_map best _ (fun _ => rfl) hb
  clear_value s found
  have h1 : Keeps z s1 := h0.trans { map := fun k => mapOk_beads (mapOk_load k hf) rfl }
  exact Keeps.foldl (fun a x q => Keeps.of_settleMarked q) h1

theorem Keeps.of_replayJournal {z s : State} {slot : Nat} (h : Keeps z s) : Keeps z (s.replayJournal slot) := by
  refine h.trans { map := fun k => ?_, list := fun k => ?_ }
  · exact mapOk_tail (s.map.tail.filter (fun c => c.kind != 4)) _ (mapOk_load k (wf_replay k slot))
  · have q := tail_poison (s.map.tail.filter (fun c => c.kind != 4)) (s.map.load (s.map.replay slot))
    show decide (List.length (Map.poison _) ≤ 8192) = true
    exact q ▸ k

theorem Keeps.of_recheckDumped {z : State} {x0 : State} (h : Keeps z x0) : Keeps z (@State.recheckDumped x0) := by
  unfold State.recheckDumped
  extract_lets v0 v1 v2
  subst v0 v1 v2
  exact Keeps.trans (t := x0) (by assumption) {  }

theorem Keeps.of_applyTail {z s : State} {i : Nat} {b : BootIn} (h : Keeps z s) : Keeps z (s.applyTail i b) := by
  unfold State.applyTail
  extract_lets d cs s1 m
  refine Keeps.ite ?_ h
  have h1 : Keeps z s1 := Keeps.of_setSlotD h
  have hm : mapOk s1.map = true → mapOk m = true := mapOk_tail cs s1.map
  have hp : m.poison = s1.map.poison := tail_poison cs s1.map
  clear_value m s1 cs
  refine Keeps.of_flushTail (h1.trans { map := fun k => ?_, list := fun k => ?_ })
  · simpa only [mapOk] using hm k
  · simpa only [listOk, hp] using k

theorem Keeps.of_relist {z : State} {x0 : State} {x1 : ℕ} (h : Keeps z x0) : Keeps z (@State.relist x0 x1) := by
  unfold State.relist
  refine Keeps.ite ?_ ?_
  · assumption
  · extract_lets v0 v1
    subst v0
    have h60 : Keeps z v1 := by
      dsimp only [v1]
      refine Keeps.foldl ?_ ?_
      · intro a61 a62 h63
        exact Keeps.of_listLine (by assumption)
      · assumption
    clear_value v1
    exact Keeps.ite (Keeps.of_settleFlag (by assumption)) (by assumption)

theorem KeepsEnd.of_step8 {z : State} {x0 : State} {x1 : Sys2Proof.BootIn} (h : Keeps z x0) :
    KeepsEnd z (@State.step8 x0 x1) := by
  unfold State.step8
  extract_lets v0 v1 v2 v3 v4 v5 v6 v7 v8 v9 v10
  subst v0 v1 v2 v6 v8
  have h60 : Keeps z v3 := Keeps.ite (Keeps.of_scanMap (by assumption)) (Keeps.of_replayJournal (by assumption))
  clear_value v3
  have h61 : Keeps z v4 := Keeps.of_recheckDumped (Keeps.of_settleMap (Keeps.of_applyTail (Keeps.of_applyTail (by assumption))))
  clear_value v4
  have h62 : Keeps z v5 := by
    dsimp only [v5]
    refine Keeps.foldl ?_ ?_
    · intro a63 a64 h65
      exact Keeps.of_relist (by assumption)
    · assumption
  clear_value v5
  have h66 : Keeps z v7 := Keeps.ite (Keeps.trans (t := v5) (by assumption) {  }) (by assumption)
  clear_value v7
  have h67 : Keeps z v9 := Keeps.ite (by assumption) (Keeps.of_ev (Keeps.trans (t := v7) (by assumption) {  }))
  clear_value v9
  have h68 : Keeps z v10 := Keeps.of_recalcLimit (by assumption)
  clear_value v10
  exact KeepsEnd.of_passBy (Keeps.ite (Keeps.of_capacityReached (by assumption)) (by assumption))

theorem Keeps.of_defaults1 {z : State} {x0 : State} (h : Keeps z x0) : Keeps z (@State.defaults1 x0) := by
  unfold State.defaults1
  extract_lets v0 v1 v2 v3 v4 v5 v6
  subst v0 v2 v3 v5
  have h60 : Keeps z v1 := Keeps.ite (Keeps.trans (t := x0) (by assumption) {  }) (by assumption)
  clear_value v1
  have h61 : Keeps z v4 := Keeps.ite (Keeps.trans (t := v1) (by assumption) {  }) (by assumption)
  clear_value v4
  have h62 : Keeps z v6 := Keeps.ite (Keeps.trans (t := v4) (by assumption) {  }) (by assumption)
  clear_value v6
  refine Keeps.foldl ?_ ?_
  · intro a63 a64 h65
    exact Keeps.ite (Keeps.of_clearSuspects (by assumption)) (by assumption)
  · assumption

theorem Keeps.of_mountTally {z : State} {x0 : State} (h : Keeps z x0) : Keeps z (@State.mountTally x0) := by
  unfold State.mountTally
  extract_lets v0 v1 v2 v3 v4
  subst v0 v2 v3 v4
  have h60 : Keeps z v1 := by
    dsimp only [v1]
    apply Keeps.of_defaults23
    apply Keeps.of_defaults1
    refine Keeps.foldl ?_ ?_
    · intro a61 a62 h63
      exact Keeps.of_noteRow (by assumption)
    · assumption
  clear_value v1
  exact Keeps.ite (Keeps.trans (t := v1) (by assumption) {  }) (by assumption)

theorem Keeps.of_beginStep {z : State} {x0 : State} {x1 : ℕ} (h : Keeps z x0) : Keeps z (@State.beginStep x0 x1) := by
  unfold State.beginStep
  extract_lets v0 v1
  subst v0
  have h60 : Keeps z v1 := Keeps.trans (t := x0) (by assumption) {  }
  clear_value v1
  exact Keeps.of_ledgerRow (Keeps.of_setStep (by assumption))

theorem KeepsRes.of_execPerstNAssert {z : State} {x0 : ℕ} {x1 : State} (h : Keeps z x1) :
    KeepsRes z (@execPerstNAssert x0 x1) := by
  unfold execPerstNAssert
  extract_lets v0 v1 v2 v3 v4 v5 v6 v7 v8 v9 v10 v11
  subst v1 v3 v5 v7 v8 v9 v10
  have h60 : Keeps z v0 := Keeps.of_tick (by assumption)
  clear_value v0
  have h61 : Keeps z v2 := Keeps.trans (t := v0) (by assumption) {  }
  clear_value v2
  have h62 : Keeps z v4 := Keeps.of_endAttempt (Keeps.trans (t := v2) (by assumption) {  })
  clear_value v4
  have h63 : Keeps z v6 := Keeps.of_linkDown (Keeps.of_abandonCommands (Keeps.of_functionReset (by assumption)))
  clear_value v6
  have h64 : Keeps z v11 := by
    dsimp only [v11]
    exact Keeps.trans (t := v6) (by assumption) { tly := (fun k => by simp only [tlyOk, Bool.and_eq_true] at k ⊢; simp [k]) }
  clear_value v11
  refine KeepsRes.ite ?_ ?_
  · exact KeepsRes.next (by assumption)
  · refine KeepsRes.ite ?_ ?_
    · exact KeepsRes.next (by assumption)
    · exact KeepsRes.next (Keeps.ite (Keeps.of_beginFlush (by assumption)) (by assumption))

theorem KeepsRes.of_execVauxApplied {z : State} {x0 : ℕ} {x1 : State} (h : Keeps z x1) :
    KeepsRes z (@execVauxApplied x0 x1) := by
  unfold execVauxApplied
  extract_lets v0 v1 v2 v3 v4 v5 v6 v7 v8 v9
  subst v1 v2 v3 v4 v5 v6 v7 v8
  have h60 : Keeps z v0 := Keeps.of_tick (by assumption)
  clear_value v0
  have h61 : Keeps z v9 := by
    dsimp only [v9]
    exact Keeps.trans (t := v0) (by assumption) { tly := (fun k => by simp only [tlyOk, Bool.and_eq_true] at k ⊢; simp [k]) }
  clear_value v9
  refine KeepsRes.ite ?_ ?_
  · exact KeepsRes.next (by assumption)
  · exact KeepsRes.next (Keeps.of_tallyKick (Keeps.of_resetRegs (by assumption)))

theorem Keeps.of_newAttempt {z s : State} {c : Nat} {f : Tab Nat} (h : Keeps z s) (hf : Tab.wf f = true) :
    Keeps z (s.newAttempt c f) := by
  unfold State.newAttempt
  extract_lets old n a b0 b rows c0 t0 s1
  have h1 : Keeps z s1 := by
    refine Keeps.of_beginStep ?_
    exact h.trans { boot := fun _ => hf, tly := fun q => by simp only [tlyOk, Bool.and_eq_true] at q ⊢; exact ⟨Tab.wf_mapV _ _ q.1, q.2⟩ }
  clear_value s1 old
  split
  · exact Keeps.of_ev h1
  · exact h1

theorem Keeps.of_dropClean {z : State} {x0 : State} (h : Keeps z x0) : Keeps z (@State.dropClean x0) := by
  unfold State.dropClean
  extract_lets v0 v1
  subst v1
  have h60 : Keeps z v0 := Keeps.of_mergeFills (by assumption)
  clear_value v0
  exact Keeps.trans (t := v0) (by assumption) { cch := (fun k => by simp only [cchOk, Bool.and_eq_true] at k ⊢; simp [k, Tab.wf_map]) }

theorem Keeps.of_clearForStart {z : State} {x0 : State} (h : Keeps z x0) : Keeps z (@State.clearForStart x0) := by
  unfold State.clearForStart
  extract_lets v0 v1 v2 v3 v4 v5 v6 v7
  subst v1 v2 v3 v4 v5 v6 v7
  have h60 : Keeps z v0 := Keeps.of_resetRegs (Keeps.of_functionReset (Keeps.of_dropClean (by assumption)))
  clear_value v0
  exact Keeps.trans (t := v0) (by assumption) { fab := (fun k => by simp only [fabOk, Bool.and_eq_true] at k ⊢; simp [k]), evt := (fun _ => rfl) }

theorem Keeps.of_beginAttempt {z s : State} {c : Nat} {f : Tab Nat} (h : Keeps z s) (hf : Tab.wf f = true) :
    Keeps z (s.beginAttempt c f) :=
  Keeps.of_newAttempt (Keeps.ite h (Keeps.of_clearForStart h)) hf

theorem KeepsRes.of_execChipWatchdogExpiry {z : State} {x0 : ℕ} {x1 : State} (h : Keeps z x1) :
    KeepsRes z (@execChipWatchdogExpiry x0 x1) := by
  unfold execChipWatchdogExpiry
  extract_lets v0 v1 v2 v3 v4
  subst v1 v4
  have h60 : Keeps z v0 := Keeps.of_tick (by assumption)
  clear_value v0
  have h61 : Keeps z v2 := Keeps.of_ev (Keeps.of_bump (by assumption))
  clear_value v2
  have h62 : Keeps z v3 := Keeps.of_linkDown (Keeps.of_abandonCommands (Keeps.of_functionReset (by assumption)))
  clear_value v3
  refine KeepsRes.ite ?_ ?_
  · exact KeepsRes.next (by assumption)
  · refine KeepsRes.ite ?_ ?_
    · refine KeepsRes.next ?_
      apply Keeps.of_beginAttempt
      · exact Keeps.of_ledgerRow (Keeps.trans (t := v3) (by assumption) {  })
      · exact (wf_failureOf _)
    · exact KeepsRes.next (by assumption)

theorem Keeps.of_tryImages {z : State} {b : BootIn} {l : List (Nat × Nat)} {s : State} (h : Keeps z s) :
    Keeps z (tryImages b l s).1 := by
  induction l generalizing s with
  | nil => exact Keeps.of_takeFallback h
  | cons e r ih =>
    unfold tryImages
    split
    · exact Keeps.of_takeImage h
    · exact ih (Keeps.of_refuseImage h)

theorem Keeps.of_resumeSweep {z : State} {x0 : State} (h : Keeps z x0) : Keeps z (@State.resumeSweep x0) := by
  unfold State.resumeSweep
  split
  · assumption
  · extract_lets v5 v6 v7
    subst v5 v6
    have h65 : Keeps z v7 := Keeps.trans (t := x0) (by assumption) {  }
    clear_value v7
    refine Keeps.ite ?_ ?_
    · exact Keeps.ite (by assumption) (Keeps.trans (t := x0) (by assumption) {  })
    · refine Keeps.ite ?_ ?_
      · assumption
      · exact Keeps.of_sweepStarted (Keeps.ite (by assumption) (Keeps.of_writeUnits (by assumption)))

theorem Keeps.of_chooseTop {z : State} {x0 : State} {x1 : Sys2Proof.BootIn} (h : Keeps z x0) :
    Keeps z (@State.chooseTop x0 x1) := by
  unfold State.chooseTop
  extract_lets v0 v1 v2 v3 v4 v5 v6
  subst v0 v1 v2 v3 v4 v6
  refine Keeps.ite ?_ ?_
  · exact Keeps.of_ev (Keeps.trans (t := x0) (by assumption) { fresh := Nat.le_succ _ })
  · refine Keeps.ite ?_ ?_
    · dsimp only [v5]
      exact Keeps.trans (t := x0) (by assumption) {  }
    · refine Keeps.ite ?_ ?_
      · apply Keeps.of_ev
        dsimp only [v5]
        exact Keeps.trans (t := x0) (by assumption) {  }
      · refine Keeps.ite ?_ ?_
        · dsimp only [v5]
          exact Keeps.trans (t := x0) (by assumption) {  }
        · exact Keeps.of_ev (Keeps.trans (t := x0) (by assumption) { fresh := Nat.le_succ _ })

theorem Keeps.of_loadCounters {z : State} {x0 : State} (h : Keeps z x0) : Keeps z (@State.loadCounters x0) := by
  unfold State.loadCounters
  refine Keeps.foldl ?_ ?_
  · intro a0 a1 h2
    refine Keeps.ite ?_ ?_
    · exact Keeps.of_setCtr (by assumption)
    · apply Keeps.of_keepNode
      exact Keeps.trans (t := a0) (by assumption) { key := (fun k => by simp only [keyOk, Bool.and_eq_true] at k ⊢; simp [k]) }
  · assumption

theorem KeepsEnd.of_step10 {z : State} {x0 : State} {x1 : Sys2Proof.BootIn} (h : Keeps z x0) :
    KeepsEnd z (@State.step10 x0 x1) := by
  unfold State.step10
  exact KeepsEnd.of_passBy (Keeps.of_resumeSweep (Keeps.of_chooseTop (Keeps.of_loadCounters (by assumption))))

theorem Keeps.of_restoreCal {z : State} {x0 : State} {x1 : Sys2Proof.BootIn} (h : Keeps z x0) :
    Keeps z (@State.restoreCal x0 x1) := by
  unfold State.restoreCal
  extract_lets v0 v1 v2 v3 v4 v5 v6 v7 v8 v9 v10 v11 v12
  subst v0 v1 v2 v3 v4 v6 v8 v9 v12
  have h60 : Keeps z v7 := Keeps.trans (t := x0) (by assumption) {  }
  clear_value v7
  have h61 : Keeps z v10 := Keeps.trans (t := v7) (by assumption) {  }
  clear_value v10
  have h62 : Keeps z v11 := Keeps.ite (by assumption) (Keeps.of_ev (by assumption))
  clear_value v11
  split
  · exact Keeps.of_judgeHost (Keeps.trans (t := v11) (by assumption) {  })
  · assumption

theorem Keeps.of_flagLost {z : State} {x0 : State} (h : Keeps z x0) : Keeps z (@State.flagLost x0) := by
  unfold State.flagLost
  exact Keeps.ite (Keeps.of_markSuspect (by assumption)) (by assumption)

theorem Keeps.of_enterRing {z : State} {x0 : State} (h : Keeps z x0) : Keeps z (@State.enterRing x0) := by
  unfold State.enterRing
  extract_lets v0 v1 v2 v3 v4 v5 v6
  subst v0 v1 v2 v3 v5
  have h60 : Keeps z v4 := Keeps.of_flagLost (Keeps.trans (t := x0) (by assumption) {  })
  clear_value v4
  have h61 : Keeps z v6 := Keeps.of_judgeCables (by assumption)
  clear_value v6
  refine Keeps.ite ?_ ?_
  · exact Keeps.of_join (Keeps.trans (t := v4) (by assumption) {  })
  · refine Keeps.ite ?_ ?_
    · exact Keeps.of_join (by assumption)
    · exact Keeps.ite (Keeps.of_join (Keeps.of_formRing (by assumption))) (by assumption)

theorem Keeps.of_startAttempt {z : State} {x0 : State} (h : Keeps z x0) : Keeps z (@State.startAttempt x0) := by
  unfold State.startAttempt
  refine Keeps.ite ?_ ?_
  · exact Keeps.trans (t := x0) (by assumption) {  }
  · apply Keeps.of_beginAttempt
    · assumption
    · exact rfl

theorem KeepsEnd.of_step1 {z : State} {x0 : State} (h : Keeps z x0) : KeepsEnd z (@State.step1 x0) := by
  unfold State.step1
  split
  · extract_lets v5 v6 v7 v8 v9
    subst v5 v6 v7 v8
    have h65 : Keeps z v9 := Keeps.trans (t := x0) (by assumption) {  }
    clear_value v9
    refine KeepsEnd.ite ?_ ?_
    · exact KeepsEnd.stop (Keeps.of_beginPowerDown (Keeps.trans (t := x0) (by assumption) {  }))
    · exact KeepsEnd.of_passBy (Keeps.ite (Keeps.of_ev (by assumption)) (by assumption))
  · exact KeepsEnd.of_passBy (by assumption)

theorem Keeps.of_enterStep {z : State} {x0 : State} {x1 : ℕ} (h : Keeps z x0) : Keeps z (@State.enterStep x0 x1) := by
  unfold State.enterStep
  extract_lets v0 v1
  subst v1
  have h60 : Keeps z v0 := Keeps.of_beginStep (by assumption)
  clear_value v0
  refine Keeps.ite ?_ ?_
  · exact Keeps.of_logDeferred (by assumption)
  · refine Keeps.ite ?_ ?_
    · exact Keeps.trans (t := v0) (by assumption) {  }
    · exact Keeps.ite (Keeps.of_enterRing (by assumption)) (by assumption)

theorem Keeps.of_trainOne {z : State} {x0 : Sys2Proof.BootIn} {x1 : State} {x2 : ℕ} (h : Keeps z x1) :
    Keeps z (@trainOne x0 x1 x2) := by
  unfold trainOne
  extract_lets v0 v1 v2
  subst v0 v1 v2
  split
  · extract_lets v63
    have h123 : Keeps z v63 := Keeps.trans (t := x1) (by assumption) {  }
    clear_value v63
    exact Keeps.ite (Keeps.of_ev (by assumption)) (by assumption)
  · exact Keeps.trans (t := x1) (by assumption) {  }

theorem Keeps.of_bootHold {z : State} {x0 : State} {x1 : ℕ} (h : Keeps z x0) : Keeps z (@State.bootHold x0 x1) := by
  unfold State.bootHold
  extract_lets v0 v1 v2 v3 v4
  subst v0 v2 v3
  have h60 : Keeps z v1 := Keeps.of_setStep (by assumption)
  clear_value v1
  have h61 : Keeps z v4 := Keeps.trans (t := v1) (by assumption) {  }
  clear_value v4
  exact Keeps.of_ledgerRow (Keeps.of_ev (by assumption))

theorem KeepsEnd.of_step5 {z : State} {x0 : State} {x1 : Sys2Proof.BootIn} (h : Keeps z x0) :
    KeepsEnd z (@State.step5 x0 x1) := by
  unfold State.step5
  extract_lets v0 v1 v2 v3 v4 v5 v6 v7 v8
  subst v1 v4 v5 v7
  have h60 : Keeps z v0 := by
    dsimp only [v0]
    refine Keeps.foldl ?_ ?_
    · exact fun _ _ h => Keeps.of_trainOne h
    · assumption
  have h65 : Keeps z v2 := by
    dsimp only [v2]
    refine Keeps.trans (t := v0) ?_ {  }
    assumption
  have h66 : Keeps z v3 := by
    dsimp only [v3]
    apply Keeps.of_setStep
    assumption
  clear_value v3
  have h67 : Keeps z v6 := by
    dsimp only [v6]
    apply Keeps.of_ledgerRow
    refine Keeps.trans (t := v3) ?_ { fresh := Nat.le_succ _ }
    assumption
  clear_value v6
  have h68 : Keeps z v8 := by
    dsimp only [v8]
    refine Keeps.trans (t := v0) ?_ {  }
    assumption
  clear_value v8
  refine KeepsEnd.ite ?_ ?_
  · refine KeepsEnd.ite ?_ ?_
    · refine KeepsEnd.stop ?_
      apply Keeps.of_bootHold
      assumption
    · refine KeepsEnd.stop ?_
      exact Keeps.of_newAttempt (by assumption) rfl
  · apply KeepsEnd.of_passBy
    refine Keeps.ite ?_ ?_
    · apply Keeps.of_ev
      assumption
    · assumption

theorem KeepsEnd.of_step11 {z : State} {x0 : State} (h : Keeps z x0) : KeepsEnd z (@State.step11 x0) := by
  unfold State.step11
  refine KeepsEnd.ite ?_ ?_
  · exact KeepsEnd.of_passBy (by assumption)
  · refine KeepsEnd.wait

theorem KeepsEnd.of_step3 {z : State} {x0 : State} {x1 : Sys2Proof.BootIn} (h : Keeps z x0) :
    KeepsEnd z (@State.step3 x0 x1) := by
  unfold State.step3
  extract_lets v0 v1 v2 v3
  subst v0
  have h60 : Keeps z v1 := Keeps.ite (Keeps.of_ev (by assumption)) (by assumption)
  clear_value v1
  have h61 : Keeps z v2.1 := Keeps.of_tryImages (by assumption)
  clear_value v2
  subst v3
  exact KeepsEnd.of_passBy (Keeps.trans (t := Prod.fst v2) (by assumption) {  })

theorem KeepsEnd.of_step4 {z : State} {x0 : State} {x1 : Sys2Proof.BootIn} (h : Keeps z x0) :
    KeepsEnd z (@State.step4 x0 x1) := by
  unfold State.step4
  extract_lets v0 v1 v2 v3 v4 v5 v6 v7 v8
  subst v0 v1 v3 v4 v7
  have h60 : Keeps z v2 := Keeps.of_mountTally (by assumption)
  clear_value v2
  have h61 : Keeps z v5 := by
    dsimp only [v5]
    exact Keeps.trans (t := v2) (by assumption) { tly := (fun k => by simp only [tlyOk, Bool.and_eq_true] at k ⊢; simp [k]) }
  clear_value v5
  have h62 : Keeps z v6 := Keeps.ite (Keeps.of_ev (Keeps.of_ownRow (by assumption))) (by assumption)
  clear_value v6
  have h63 : Keeps z v8 := Keeps.ite (Keeps.trans (t := v6) (by assumption) {  }) (by assumption)
  clear_value v8
  refine KeepsEnd.ite ?_ ?_
  · exact KeepsEnd.stop (Keeps.of_bootHold (by assumption))
  · exact KeepsEnd.of_passBy (Keeps.of_saveLifetime (Keeps.of_ownRow (by assumption)))

theorem Keeps.of_readTables {z : State} {x0 : State} (h : Keeps z x0) : Keeps z (@State.readTables x0) := by
  unfold State.readTables
  refine Keeps.ite ?_ ?_
  · exact Keeps.trans (t := x0) (by assumption) { cal := (fun k => by simp only [calOk, Bool.and_eq_true] at k ⊢; simp [k]) }
  · assumption

theorem KeepsEnd.of_step6 {z : State} {x0 : State} {x1 : Sys2Proof.BootIn} (h : Keeps z x0) :
    KeepsEnd z (@State.step6 x0 x1) := by
  unfold State.step6
  extract_lets v0 v1 v2 v3 v4
  subst v2
  have h60 : Keeps z v0 := by
    dsimp only [v0]
    refine Keeps.foldl ?_ ?_
    · intro a61 a62 h63
      exact Keeps.ite (Keeps.of_retireDie (by assumption)) (by assumption)
    · assumption
  clear_value v0
  have h64 : Keeps z v1 := Keeps.of_kick (Keeps.of_writeRefs (Keeps.of_restoreCal (Keeps.of_readTables (by assumption))))
  clear_value v1
  have h65 : Keeps z v3 := by
    dsimp only [v3]
    refine Keeps.foldl ?_ ?_
    · intro a66 a67 h68
      exact Keeps.of_evalMargin (by assumption)
    · exact Keeps.trans (t := v1) (by assumption) {  }
  clear_value v3
  have h69 : Keeps z v4 := by
    dsimp only [v4]
    refine Keeps.foldl ?_ ?_
    · intro a70 a71 h72
      exact Keeps.ite (Keeps.of_enterFro (by assumption)) (by assumption)
    · assumption
  clear_value v4
  exact KeepsEnd.of_passBy (by assumption)

theorem Keeps.of_readCkpt {z s : State} {slot : Nat} (h : Keeps z s) : Keeps z (s.readCkpt slot) :=
  h.trans { map := fun k => mapOk_readCkpt k slot }

theorem KeepsEnd.of_step7 {z : State} {x0 : State} {x1 : Sys2Proof.BootIn} (h : Keeps z x0) :
    KeepsEnd z (@State.step7 x0 x1) := by
  unfold State.step7
  extract_lets v0 v1
  subst v0
  refine KeepsEnd.ite ?_ ?_
  · exact KeepsEnd.of_passBy (Keeps.of_readCkpt (by assumption))
  · exact KeepsEnd.ite (KeepsEnd.of_passBy (Keeps.of_readCkpt (by assumption))) (KeepsEnd.pass (by assumption))

theorem KeepsEnd.of_step12 {z : State} {x0 : State} {x1 : Sys2Proof.BootIn} (h : Keeps z x0) :
    KeepsEnd z (@State.step12 x0 x1) := by
  unfold State.step12
  extract_lets v0 v1
  subst v0 v1
  refine KeepsEnd.ite ?_ ?_
  · exact KeepsEnd.of_passBy (Keeps.of_setBudget (Keeps.trans (t := x0) (by assumption) {  }))
  · refine KeepsEnd.pass ?_
    exact Keeps.of_setBudget (Keeps.of_startLog (Keeps.of_enterWt (Keeps.trans (t := x0) (by assumption) {  })))

theorem KeepsEnd.of_runStep {z : State} {x0 : State} {x1 : Sys2Proof.BootIn} (h : Keeps z x0) :
    KeepsEnd z (@State.runStep x0 x1) := by
  unfold State.runStep
  split
  · exact KeepsEnd.of_step1 (by assumption)
  · exact KeepsEnd.of_step2 (by assumption)
  · exact KeepsEnd.of_step3 (by assumption)
  · exact KeepsEnd.of_step4 (by assumption)
  · exact KeepsEnd.of_step5 (by assumption)
  · exact KeepsEnd.of_step6 (by assumption)
  · exact KeepsEnd.of_step7 (by assumption)
  · exact KeepsEnd.of_step8 (by assumption)
  · exact KeepsEnd.of_step9 (by assumption)
  · exact KeepsEnd.of_step10 (by assumption)
  · exact KeepsEnd.of_step11 (by assumption)
  · exact KeepsEnd.of_step12 (by assumption)
  · exact KeepsEnd.of_passBy (by assumption)

theorem Keeps.of_closeStep {z : State} {x0 : State} {x1 : ℕ} {x2 : ℕ} {x3 : ℕ} (h : Keeps z x0) :
    Keeps z (@State.closeStep x0 x1 x2 x3) := by
  unfold State.closeStep
  extract_lets v0 v1 v2 v3 v4 v5
  subst v0 v1 v3 v4
  have h60 : Keeps z v2 := Keeps.of_setStep (by assumption)
  clear_value v2
  have h61 : Keeps z v5 := Keeps.trans (t := v2) (by assumption) {  }
  clear_value v5
  exact Keeps.of_ledgerRow (Keeps.ite (Keeps.of_ev (by assumption)) (by assumption))

theorem Keeps.of_finishStart {z : State} {x0 : State} (h : Keeps z x0) : Keeps z (@State.finishStart x0) := by
  unfold State.finishStart
  extract_lets v0 v1 v2 v3 v4 v5 v6 v7
  subst v0 v1 v2 v3 v4 v7
  have h60 : Keeps z v5 := by
    dsimp only [v5]
    exact Keeps.trans (t := x0) (by assumption) { boot := (fun k => by simp only [bootOk, Bool.and_eq_true] at k ⊢; simp [k]) }
  clear_value v5
  have h61 : Keeps z v6 := Keeps.ite (Keeps.of_setMemActive (by assumption)) (by assumption)
  clear_value v6
  exact Keeps.of_judgeWt (Keeps.of_ledgerRow (Keeps.of_ev (Keeps.of_raiseRollback (by assumption))))

theorem Keeps.of_endStep {z : State} {x0 : State} {x1 : Sys2Proof.BootIn} (h : Keeps z x0) :
    Keeps z (@State.endStep x0 x1) := by
  unfold State.endStep
  split
  · assumption
  · rename_i m2 m3 m4
    have h5 : Keeps z m3 := by
      exact KeepsEnd.of_eq_stop m4 (KeepsEnd.of_runStep (by assumption))
    assumption
  · rename_i m6 m7 m8 m9 m10 m11
    have h12 : Keeps z m10 := by
      exact KeepsEnd.of_eq_pass m11 (KeepsEnd.of_runStep (by assumption))
    extract_lets v13
    have h73 : Keeps z v13 := Keeps.of_closeStep (by assumption)
    clear_value v13
    exact Keeps.ite (Keeps.of_finishStart (by assumption)) (Keeps.of_enterStep (by assumption))

theorem KeepsRes.of_execStart {z : State} {x0 : ℕ} {x1 : State} (h : Keeps z x1) : KeepsRes z (@execStart x0 x1) := by
  unfold execStart
  extract_lets v0 v1 v2 v3 v4 v5
  subst v1 v2 v4
  have h60 : Keeps z v0 := Keeps.of_tick (by assumption)
  clear_value v0
  have h61 : Keeps z v3 := Keeps.trans (t := v0) (by assumption) {  }
  clear_value v3
  have h62 : Keeps z v5 := Keeps.trans (t := v3) (by assumption) {  }
  clear_value v5
  refine KeepsRes.ite ?_ ?_
  · exact KeepsRes.next (by assumption)
  · refine KeepsRes.ite ?_ ?_
    · exact KeepsRes.next (by assumption)
    · refine KeepsRes.next ?_
      refine Keeps.ite ?_ ?_
      · exact Keeps.of_startAttempt (by assumption)
      · exact Keeps.ite (Keeps.of_onRequest (by assumption)) (by assumption)

theorem KeepsRes.of_execExtentTableSave {z : State} {x0 : State} (h : Keeps z x0) :
    KeepsRes z (@execExtentTableSave x0) := by
  unfold execExtentTableSave
  refine KeepsRes.next ?_
  refine Keeps.ite ?_ ?_
  · extract_lets v0 v1
    subst v0
    have h60 : Keeps z v1 := Keeps.trans (t := x0) (by assumption) {  }
    clear_value v1
    refine Keeps.foldl ?_ ?_
    · intro a61 a62 h63
      exact Keeps.of_ownRow (by assumption)
    · assumption
  · assumption

theorem KeepsRes.of_execBootStep {z : State} {x0 : ℕ} {x1 : Sys2Proof.BootIn} {x2 : State} (h : Keeps z x2) :
    KeepsRes z (@execBootStep x0 x1 x2) := by
  unfold execBootStep
  extract_lets v0
  have h60 : Keeps z v0 := Keeps.of_tick (by assumption)
  clear_value v0
  refine KeepsRes.next ?_
  exact Keeps.ite (Keeps.of_endStep (by assumption)) (Keeps.ite (Keeps.of_startAttempt (by assumption)) (by assumption))

theorem Keeps.of_attest {z : State} {x0 : State} {x1 : Sys2Proof.Path} {x2 : State → State} (hr2 : ∀ a, Keeps z a → Keeps z (x2 a)) (h : Keeps z x0) :
    Keeps z (@State.attest x0 x1 x2) := by
  unfold State.attest
  split
  · exact Keeps.ite (by assumption) (hr2 _ (by assumption))
  · exact Keeps.ite (by assumption) (Keeps.ite (Keeps.of_out (by assumption)) (hr2 _ (by assumption)))

theorem KeepsRes.of_execSpdmMessage {z : State} {x0 : Sys2Proof.Path} {x1 : Sys2Proof.SpdmReq} {x2 : State} (h : Keeps z x2) :
    KeepsRes z (@execSpdmMessage x0 x1 x2) := by
  unfold execSpdmMessage
  refine KeepsRes.next ?_
  apply Keeps.of_attest
  · intro a0 h1
    split
    · exact Keeps.of_out (by assumption)
    · exact Keeps.ite (Keeps.of_out (by assumption)) (Keeps.of_out (by assumption))
    · exact Keeps.of_out (by assumption)
    · exact Keeps.of_out (Keeps.trans (t := a0) (by assumption) {  })
    · exact Keeps.of_out (Keeps.trans (t := a0) (by assumption) {  })
    · exact Keeps.of_out (by assumption)
    · exact Keeps.of_out (by assumption)
    · exact Keeps.of_out (by assumption)
  · assumption

theorem KeepsRes.of_execGetMeasurements {z : State} {x0 : Sys2Proof.Path} {x1 : ℕ} {x2 : Bool} {x3 : State} (h : Keeps z x3) :
    KeepsRes z (@execGetMeasurements x0 x1 x2 x3) := by
  unfold execGetMeasurements
  refine KeepsRes.next ?_
  apply Keeps.of_attest
  · intro a0 h1
    refine Keeps.ite ?_ ?_
    · extract_lets v2
      subst v2
      exact Keeps.of_out (by assumption)
    · exact Keeps.of_out (by assumption)
  · assumption

theorem KeepsRes.of_execLinkError {z : State} {x0 : Sys2Proof.LinkErr} {x1 : State} (h : Keeps z x1) :
    KeepsRes z (@execLinkError x0 x1) := by
  unfold execLinkError
  refine KeepsRes.ite ?_ ?_
  · exact KeepsRes.next (by assumption)
  · extract_lets v0 v1 v2
    subst v0 v1
    have h60 : Keeps z v2 := Keeps.of_reportCor (Keeps.of_bump (by assumption))
    clear_value v2
    exact KeepsRes.next (Keeps.ite (Keeps.of_reportRas (by assumption)) (by assumption))

theorem KeepsRes.of_execCdatTableAccess {z : State} {x0 : ℕ} {x1 : State} (h : Keeps z x1) :
    KeepsRes z (@execCdatTableAccess x0 x1) := by
  unfold execCdatTableAccess
  refine KeepsRes.next ?_
  apply Keeps.of_attest
  · intro a0 h1
    exact Keeps.of_out (by assumption)
  · assumption

theorem KeepsRes.of_execSmbusArp {z : State} {x0 : BitVec 7} {x1 : State} (h : Keeps z x1) :
    KeepsRes z (@execSmbusArp x0 x1) := by
  unfold execSmbusArp
  exact KeepsRes.next (Keeps.ite (by assumption) (Keeps.trans (t := x1) (by assumption) {  }))

theorem KeepsRes.of_execD3hotEntry {z : State} {x0 : ℕ} {x1 : State} (h : Keeps z x1) :
    KeepsRes z (@execD3hotEntry x0 x1) := by
  unfold execD3hotEntry
  extract_lets v0 v1 v2
  subst v1 v2
  have h60 : Keeps z v0 := Keeps.of_tick (by assumption)
  clear_value v0
  exact KeepsRes.next (Keeps.ite (by assumption) (Keeps.trans (t := v0) (by assumption) {  }))

theorem KeepsRes.of_execIdeIntegrityFailure {z : State} {x0 : ℕ} {x1 : Bool} {x2 : State} (h : Keeps z x2) :
    KeepsRes z (@execIdeIntegrityFailure x0 x1 x2) := by
  unfold execIdeIntegrityFailure
  extract_lets v0 v1 v2 v3
  subst v1 v2 v3
  have h60 : Keeps z v0 := Keeps.of_tick (by assumption)
  clear_value v0
  refine KeepsRes.ite ?_ ?_
  · refine KeepsRes.next ?_
    apply Keeps.of_ev
    apply Keeps.of_reportUnc
    apply Keeps.of_reportRas
    exact Keeps.trans (t := v0) (by assumption) { link := (fun k => by split <;> simpa only [linkOk] using k) }
  · exact KeepsRes.next (by assumption)

theorem KeepsRes.of_execHdmDecoderCommit {z : State} {x0 : Fin 4} {x1 : ℕ} {x2 : ℕ} {x3 : ℕ} {x4 : ℕ} {x5 : ℕ} {x6 : ℕ} {x7 : State} (h : Keeps z x7) :
    KeepsRes z (@execHdmDecoderCommit x0 x1 x2 x3 x4 x5 x6 x7) := by
  unfold execHdmDecoderCommit
  extract_lets v0 v1 v2
  subst v0 v1 v2
  exact KeepsRes.next (Keeps.ite (by assumption) (Keeps.trans (t := x7) (by assumption) {  }))

theorem KeepsRes.of_execGddr7SelfRefreshEntry {z : State} {x0 : ℕ} {x1 : State} (h : Keeps z x1) :
    KeepsRes z (@execGddr7SelfRefreshEntry x0 x1) := by
  unfold execGddr7SelfRefreshEntry
  extract_lets v0 v1 v2
  subst v1 v2
  have h60 : Keeps z v0 := Keeps.of_tick (by assumption)
  clear_value v0
  refine KeepsRes.ite ?_ ?_
  · exact KeepsRes.next (Keeps.trans (t := v0) (by assumption) {  })
  · exact KeepsRes.ite (KeepsRes.next (Keeps.trans (t := v0) (by assumption) {  })) (KeepsRes.next (by assumption))

theorem KeepsRes.of_execAspmL1Entry {z : State} {x0 : State} (h : Keeps z x0) : KeepsRes z (@execAspmL1Entry x0) := by
  unfold execAspmL1Entry
  exact KeepsRes.next (Keeps.ite (Keeps.trans (t := x0) (by assumption) {  }) (by assumption))

theorem KeepsRes.of_execSetEndpointId {z : State} {x0 : Sys2Proof.Byte} {x1 : State} (h : Keeps z x1) :
    KeepsRes z (@execSetEndpointId x0 x1) := by
  unfold execSetEndpointId
  exact KeepsRes.next (Keeps.ite (by assumption) (Keeps.of_out (Keeps.trans (t := x1) (by assumption) {  })))

theorem Keeps.of_mctpAnswer {z : State} {x0 : State} {x1 : Sys2Proof.MctpMsg} (h : Keeps z x0) :
    Keeps z (@State.mctpAnswer x0 x1) := by
  unfold State.mctpAnswer
  split
  · exact Keeps.of_out (by assumption)
  · exact Keeps.of_out (by assumption)
  · exact Keeps.ite (Keeps.of_out (by assumption)) (Keeps.of_out (by assumption))
  · exact Keeps.of_unsupported (by assumption)
  · assumption

theorem KeepsRes.of_execMctpControlMessage {z : State} {x0 : Sys2Proof.MctpMsg} {x1 : State} (h : Keeps z x1) :
    KeepsRes z (@execMctpControlMessage x0 x1) := by
  unfold execMctpControlMessage
  refine KeepsRes.next ?_
  refine Keeps.ite ?_ ?_
  · assumption
  · split
    · exact Keeps.of_mctpAnswer (by assumption)
    · exact Keeps.ite (by assumption) (Keeps.ite (Keeps.of_mctpAnswer (by assumption)) (Keeps.of_out (by assumption)))
    · exact Keeps.ite (by assumption) (Keeps.ite (Keeps.of_mctpAnswer (by assumption)) (Keeps.of_out (by assumption)))
    · exact Keeps.ite (by assumption) (Keeps.ite (Keeps.of_mctpAnswer (by assumption)) (Keeps.of_out (by assumption)))
    · exact Keeps.ite (by assumption) (Keeps.ite (Keeps.of_mctpAnswer (by assumption)) (Keeps.of_out (by assumption)))

theorem KeepsRes.of_execD0Entry {z : State} {x0 : ℕ} {x1 : State} (h : Keeps z x1) : KeepsRes z (@execD0Entry x0 x1) := by
  unfold execD0Entry
  extract_lets v0 v1
  subst v1
  have h60 : Keeps z v0 := Keeps.of_tick (by assumption)
  clear_value v0
  exact KeepsRes.next (Keeps.trans (t := v0) (by assumption) {  })

theorem Keeps.of_trained {z : State} {x0 : State} {x1 : Sys2Proof.LinkOffer} (h : Keeps z x0) :
    Keeps z (@State.trained x0 x1) := by
  unfold State.trained
  extract_lets v0 v1 v2
  subst v0 v1 v2
  exact Keeps.trans (t := x0) (by assumption) {  }

theorem KeepsRes.of_execLinkTrainingRetry {z : State} {x0 : State} (h : Keeps z x0) :
    KeepsRes z (@execLinkTrainingRetry x0) := by
  unfold execLinkTrainingRetry
  exact KeepsRes.next (Keeps.ite (Keeps.of_out (by assumption)) (by assumption))

theorem KeepsRes.of_execAspmL1Exit {z : State} {x0 : State} (h : Keeps z x0) : KeepsRes z (@execAspmL1Exit x0) := by
  unfold execAspmL1Exit
  exact KeepsRes.next (Keeps.trans (t := x0) (by assumption) {  })

theorem Keeps.of_trainedEvents {z : State} {x0 : State} {x1 : Sys2Proof.LinkOffer} (h : Keeps z x0) :
    Keeps z (@State.trainedEvents x0 x1) := by
  unfold State.trainedEvents
  extract_lets v0
  have h60 : Keeps z v0 := Keeps.of_ev (by assumption)
  clear_value v0
  exact Keeps.ite (Keeps.of_ev (by assumption)) (Keeps.ite (Keeps.of_ev (by assumption)) (by assumption))

theorem KeepsRes.of_execLinkTrainingComplete {z : State} {x0 : ℕ} {x1 : Sys2Proof.LinkOffer} {x2 : State} (h : Keeps z x2) :
    KeepsRes z (@execLinkTrainingComplete x0 x1 x2) := by
  unfold execLinkTrainingComplete
  extract_lets v0 v1
  have h60 : Keeps z v0 := Keeps.of_tick (by assumption)
  clear_value v0
  have h61 : Keeps z v1 := Keeps.of_trainedEvents (Keeps.of_out (Keeps.of_trained (by assumption)))
  clear_value v1
  refine KeepsRes.ite ?_ ?_
  · exact KeepsRes.next (Keeps.ite (Keeps.of_setMemActive (by assumption)) (by assumption))
  · exact KeepsRes.next (by assumption)

theorem KeepsRes.of_execDoeDiscovery {z : State} {x0 : ℕ} {x1 : State} (h : Keeps z x1) :
    KeepsRes z (@execDoeDiscovery x0 x1) := by
  unfold execDoeDiscovery
  refine KeepsRes.next ?_
  apply Keeps.of_attest
  · intro a0 h1
    exact Keeps.of_out (by assumption)
  · assumption

theorem KeepsRes.of_execIdeKeyProgram {z : State} {x0 : Bool} {x1 : Option IdeKey} {x2 : Bool} {x4 : State} (h : Keeps z x4) :
    KeepsRes z (@execIdeKeyProgram x0 x1 x2 x4) := by
  unfold execIdeKeyProgram
  refine KeepsRes.ite ?_ ?_
  · extract_lets v0
    subst v0
    refine KeepsRes.next ?_
    exact Keeps.trans (t := x4) (by assumption) { link := (fun k => by split <;> simpa only [linkOk] using k) }
  · exact KeepsRes.next (by assumption)

theorem Keeps.of_setShutdown {z : State} {x0 : State} {x1 : ℕ} (h : Keeps z x0) : Keeps z (@State.setShutdown x0 x1) := by
  unfold State.setShutdown
  extract_lets v0 v1 v2
  subst v0 v2
  have h60 : Keeps z v1 := Keeps.trans (t := x0) (by assumption) {  }
  clear_value v1
  exact Keeps.trans (t := v1) (by assumption) {  }

theorem Keeps.of_finish {z : State} {x0 : State} {x1 : ℕ} {x2 : List ℕ} (h : Keeps z x0) :
    Keeps z (@State.finish x0 x1 x2) := by
  unfold State.finish
  split
  · exact Keeps.of_recorderCleared (by assumption)
  · exact Keeps.of_setShutdown (by assumption)
  · exact Keeps.of_fillSlot (by assumption)
  · exact Keeps.of_retireKey (by assumption)
  · exact Keeps.trans (t := x0) (by assumption) {  }
  · assumption

theorem Keeps.of_waitRow {z : State} {x0 : State} (h : Keeps z x0) : Keeps z (@State.waitRow x0) := by
  unfold State.waitRow
  split
  · refine Keeps.ite ?_ ?_
    · exact Keeps.trans (t := x0) (by assumption) {  }
    · extract_lets v4 v5
      subst v4
      have h64 : Keeps z v5 := Keeps.of_finish (Keeps.trans (t := x0) (by assumption) {  })
      clear_value v5
      exact Keeps.of_reply (by assumption)
  · exact Keeps.of_finish (Keeps.trans (t := x0) (by assumption) {  })
  · assumption

theorem Keeps.of_rowOwner {z : State} {x0 : State} {x1 : RowWrite} (h : Keeps z x0) : Keeps z (@State.rowOwner x0 x1) := by
  unfold State.rowOwner
  split
  · exact Keeps.of_waitRow (by assumption)
  · extract_lets v4
    subst v4
    exact Keeps.of_setUnit (by assumption)
  · exact Keeps.ite (Keeps.of_sweepRecorded (by assumption)) (by assumption)
  · assumption

theorem KeepsRes.of_execTallyRowWriteComplete {z : State} {x0 : ℕ} {x1 : State} (h : Keeps z x1) :
    KeepsRes z (@execTallyRowWriteComplete x0 x1) := by
  unfold execTallyRowWriteComplete
  extract_lets v0 v1
  subst v1
  have h60 : Keeps z v0 := Keeps.of_tick (by assumption)
  clear_value v0
  split
  · exact KeepsRes.next (by assumption)
  · extract_lets v66 v67 v68
    subst v66
    have h126 : Keeps z v67 := by
      dsimp only [v67]
      exact Keeps.trans (t := v0) (by assumption) { tly := (fun k => by simp only [tlyOk, Bool.and_eq_true] at k ⊢; simp [k]) }
    clear_value v67
    have h127 : Keeps z v68 := Keeps.ite (Keeps.of_flipFired (by assumption)) (by assumption)
    clear_value v68
    exact KeepsRes.next (Keeps.of_tallyKick (Keeps.of_rowOwner (by assumption)))

theorem KeepsRes.of_execSetTimestamp {z : State} {x0 : ℕ} {x1 : Sys2Proof.Path} {x2 : BitVec 64} {x3 : State} (h : Keeps z x3) :
    KeepsRes z (@execSetTimestamp x0 x1 x2 x3) := by
  unfold execSetTimestamp
  refine KeepsRes.next ?_
  apply Keeps.of_mailbox
  · intro a0 h1
    extract_lets v2 v3
    subst v2
    have h62 : Keeps z v3 := Keeps.trans (t := a0) (by assumption) {  }
    clear_value v3
    exact Keeps.of_reply (Keeps.of_judgeHost (by assumption))
  · exact Keeps.of_tick (by assumption)

theorem KeepsRes.of_execIdentifyMemoryDevice {z : State} {x0 : Sys2Proof.Path} {x1 : State} (h : Keeps z x1) :
    KeepsRes z (@execIdentifyMemoryDevice x0 x1) := by
  unfold execIdentifyMemoryDevice
  refine KeepsRes.next ?_
  apply Keeps.of_mailbox
  · intro a0 h1
    exact Keeps.of_reply (by assumption)
  · assumption

theorem KeepsRes.of_execGetAlertConfiguration {z : State} {x0 : Sys2Proof.Path} {x1 : State} (h : Keeps z x1) :
    KeepsRes z (@execGetAlertConfiguration x0 x1) := by
  unfold execGetAlertConfiguration
  refine KeepsRes.next ?_
  apply Keeps.of_mailbox
  · intro a0 h1
    extract_lets v2
    subst v2
    exact Keeps.of_reply (by assumption)
  · assumption

theorem KeepsRes.of_execGetEventRecords {z : State} {x0 : Sys2Proof.Path} {x1 : ℕ} {x2 : ℕ} {x3 : State} (h : Keeps z x3) :
    KeepsRes z (@execGetEventRecords x0 x1 x2 x3) := by
  unfold execGetEventRecords
  refine KeepsRes.next ?_
  apply Keeps.of_mailbox
  · intro a0 h1
    refine Keeps.ite ?_ ?_
    · exact Keeps.of_reply (by assumption)
    · extract_lets v2 v3 v4 v5
      subst v2 v3 v4 v5
      exact Keeps.of_reply (by assumption)
  · assumption

theorem KeepsRes.of_execGetSupportedLogs {z : State} {x0 : Sys2Proof.Path} {x1 : State} (h : Keeps z x1) :
    KeepsRes z (@execGetSupportedLogs x0 x1) := by
  unfold execGetSupportedLogs
  refine KeepsRes.next ?_
  apply Keeps.of_mailbox
  · intro a0 h1
    exact Keeps.of_reply (by assumption)
  · assumption

theorem KeepsRes.of_execGetHealthInfo {z : State} {x0 : Sys2Proof.Path} {x1 : State} (h : Keeps z x1) :
    KeepsRes z (@execGetHealthInfo x0 x1) := by
  unfold execGetHealthInfo
  refine KeepsRes.next ?_
  apply Keeps.of_mailbox
  · intro a0 h1
    exact Keeps.of_reply (by assumption)
  · assumption

theorem KeepsRes.of_execGetTimestamp {z : State} {x0 : Sys2Proof.Path} {x1 : State} (h : Keeps z x1) :
    KeepsRes z (@execGetTimestamp x0 x1) := by
  unfold execGetTimestamp
  refine KeepsRes.next ?_
  apply Keeps.of_mailbox
  · intro a0 h1
    exact Keeps.of_reply (by assumption)
  · assumption

theorem KeepsRes.of_execSetLsa {z : State} {x0 : Sys2Proof.Path} {x1 : ℕ} {x2 : Sys2Proof.Bytes} {x3 : State} (h : Keeps z x3) :
    KeepsRes z (@execSetLsa x0 x1 x2 x3) := by
  unfold execSetLsa
  refine KeepsRes.next ?_
  apply Keeps.of_mailbox
  · intro a0 h1
    refine Keeps.ite ?_ ?_
    · exact Keeps.of_reply (by assumption)
    · refine Keeps.ite ?_ ?_
      · exact Keeps.of_reply (by assumption)
      · apply Keeps.of_reply
        exact Keeps.trans (t := a0) (by assumption) { link := (fun k => by simp only [linkOk, Bool.and_eq_true] at k ⊢; exact ⟨wf_putBytes k.1, k.2⟩) }
  · assumption

theorem Keeps.of_clearLog {z s : State} {log : Nat} {left : List EventRec} (h : Keeps z s)
    (hl : left.length ≤ (s.evt.logs.getD log []).length) : Keeps z (s.clearLog log left) :=
  h.trans { evt := fun k => evtOk_setLog k (le_trans hl (evtOk_getLog k log)) }

theorem KeepsRes.of_execClearEventRecords {z : State} {path : Sys2Proof.Path} {log : Nat} {handles : List Nat} {all : Bool}
    {s0 : State} (h : Keeps z s0) : KeepsRes z (execClearEventRecords path log handles all s0) := by
  refine KeepsRes.next (Keeps.of_mailbox (fun a q => ?_) h)
  have hd : (List.drop handles.length (a.evt.logs.getD log [])).length ≤ (a.evt.logs.getD log []).length := by
    rw [List.length_drop]; exact Nat.sub_le _ _
  exact Keeps.ite (Keeps.of_reply q) (Keeps.ite (Keeps.of_reply (Keeps.of_clearLog q (Nat.zero_le _)))
    (Keeps.ite (Keeps.of_reply q) (Keeps.ite (Keeps.of_reply (Keeps.of_clearLog q hd)) (Keeps.of_reply q))))

theorem KeepsRes.of_execGetEventInterruptPolicy {z : State} {x0 : Sys2Proof.Path} {x1 : State} (h : Keeps z x1) :
    KeepsRes z (@execGetEventInterruptPolicy x0 x1) := by
  unfold execGetEventInterruptPolicy
  refine KeepsRes.next ?_
  apply Keeps.of_mailbox
  · intro a0 h1
    exact Keeps.of_reply (by assumption)
  · assumption

theorem KeepsRes.of_execSetEventInterruptPolicy {z : State} {x0 : Sys2Proof.Path} {x1 : List (BitVec 8)} {x2 : State} (h : Keeps z x2) :
    KeepsRes z (@execSetEventInterruptPolicy x0 x1 x2) := by
  unfold execSetEventInterruptPolicy
  refine KeepsRes.next ?_
  apply Keeps.of_mailbox
  · intro a0 h1
    exact Keeps.ite (Keeps.of_reply (by assumption)) (Keeps.of_reply (Keeps.trans (t := a0) (by assumption) {  }))
  · assumption

theorem KeepsRes.of_execSetShutdownState {z : State} {x0 : Sys2Proof.Path} {x1 : BitVec 32} {x2 : State} (h : Keeps z x2) :
    KeepsRes z (@execSetShutdownState x0 x1 x2) := by
  unfold execSetShutdownState
  refine KeepsRes.next ?_
  apply Keeps.of_mailbox
  · intro a0 h1
    extract_lets v2 v3
    subst v2 v3
    exact Keeps.of_replyAfter (by assumption)
  · assumption

theorem KeepsRes.of_execGetShutdownState {z : State} {x0 : Sys2Proof.Path} {x1 : State} (h : Keeps z x1) :
    KeepsRes z (@execGetShutdownState x0 x1) := by
  unfold execGetShutdownState
  refine KeepsRes.next ?_
  apply Keeps.of_mailbox
  · intro a0 h1
    exact Keeps.of_reply (by assumption)
  · assumption

theorem KeepsRes.of_execSetAlertConfiguration {z : State} {x0 : Sys2Proof.Path} {x1 : BitVec 8} {x2 : BitVec 8} {x3 : ℕ} {x4 : ℤ} {x5 : ℤ} {x6 : ℕ} {x7 : ℕ} {x8 : State} (h : Keeps z x8) :
    KeepsRes z (@execSetAlertConfiguration x0 x1 x2 x3 x4 x5 x6 x7 x8) := by
  unfold execSetAlertConfiguration
  refine KeepsRes.next ?_
  apply Keeps.of_mailbox
  · intro a0 h1
    refine Keeps.ite ?_ ?_
    · exact Keeps.of_reply (by assumption)
    · extract_lets v2 v3
      subst v2 v3
      exact Keeps.of_reply (Keeps.trans (t := a0) (by assumption) {  })
  · assumption

theorem KeepsRes.of_execGetLog {z : State} {x0 : Sys2Proof.Path} {x1 : Bool} {x2 : ℕ} {x3 : ℕ} {x4 : State} (h : Keeps z x4) :
    KeepsRes z (@execGetLog x0 x1 x2 x3 x4) := by
  unfold execGetLog
  refine KeepsRes.next ?_
  apply Keeps.of_mailbox
  · intro a0 h1
    exact Keeps.ite (Keeps.of_reply (by assumption)) (Keeps.of_reply (by assumption))
  · assumption

theorem KeepsRes.of_execGetLsa {z : State} {x0 : Sys2Proof.Path} {x1 : ℕ} {x2 : ℕ} {x3 : State} (h : Keeps z x3) :
    KeepsRes z (@execGetLsa x0 x1 x2 x3) := by
  unfold execGetLsa
  refine KeepsRes.next ?_
  apply Keeps.of_mailbox
  · intro a0 h1
    exact Keeps.ite (Keeps.of_reply (by assumption)) (Keeps.of_reply (by assumption))
  · assumption

theorem Keeps.of_scanList {z : State} {x0 : State} {x1 : ℕ} (h : Keeps z x0) : Keeps z (@scanList x0 x1) := by
  unfold scanList
  split
  · exact Keeps.ite (Keeps.of_listLine (by assumption)) (Keeps.of_losePoison (by assumption))
  · exact Keeps.of_losePoison (by assumption)

theorem KeepsRes.of_execScanMediaComplete {z : State} {x0 : ℕ} {x1 : State} (h : Keeps z x1) :
    KeepsRes z (@execScanMediaComplete x0 x1) := by
  unfold execScanMediaComplete
  extract_lets v0 v1
  subst v1
  have h60 : Keeps z v0 := Keeps.of_tick (by assumption)
  clear_value v0
  split
  · exact KeepsRes.next (by assumption)
  · extract_lets v67 v68 v69 v70
    subst v67 v69 v70
    have h127 : Keeps z v68 := by
      dsimp only [v68]
      refine Keeps.foldl ?_ ?_
      · intro a128 a129 h130
        exact Keeps.of_scanList (by assumption)
      · exact Keeps.trans (t := v0) (by assumption) {  }
    clear_value v68
    exact KeepsRes.next (Keeps.of_endBackground (Keeps.trans (t := v68) (by assumption) {  }))

theorem Keeps.of_onRange {z : State} {x0 : State} {x1 : Sys2Proof.Path} {x2 : ℕ} {x3 : ℕ} {x4 : ℕ} {x5 : State → State} (hr5 : ∀ a, Keeps z a → Keeps z (x5 a)) (h : Keeps z x0) :
    Keeps z (@State.onRange x0 x1 x2 x3 x4 x5) := by
  unfold State.onRange
  split
  · exact Keeps.of_reply (by assumption)
  · exact hr5 _ (by assumption)

theorem KeepsRes.of_execClearPoison {z : State} {x0 : ℕ} {x1 : Sys2Proof.Path} {x2 : ℕ} {x3 : Sys2Proof.Line} {x4 : State} (h : Keeps z x4) :
    KeepsRes z (@execClearPoison x0 x1 x2 x3 x4) := by
  unfold execClearPoison
  refine KeepsRes.next ?_
  apply Keeps.of_mailbox
  · intro a0 h1
    apply Keeps.of_onRange
    · intro a2 h3
      exact Keeps.ite (Keeps.of_reply (by assumption)) (Keeps.of_startMaint (by assumption))
    · assumption
  · exact Keeps.of_tick (by assumption)

theorem KeepsRes.of_execInjectPoison {z : State} {x0 : ℕ} {x1 : Sys2Proof.Path} {x2 : ℕ} {x3 : State} (h : Keeps z x3) :
    KeepsRes z (@execInjectPoison x0 x1 x2 x3) := by
  unfold execInjectPoison
  refine KeepsRes.next ?_
  apply Keeps.of_mailbox
  · intro a0 h1
    apply Keeps.of_onRange
    · intro a2 h3
      refine Keeps.ite ?_ ?_
      · exact Keeps.of_reply (by assumption)
      · exact Keeps.ite (Keeps.of_reply (by assumption)) (Keeps.of_startMaint (by assumption))
    · assumption
  · exact Keeps.of_tick (by assumption)

theorem KeepsRes.of_execGetScanMediaCapabilities {z : State} {x0 : Sys2Proof.Path} {x1 : ℕ} {x2 : ℕ} {x3 : State} (h : Keeps z x3) :
    KeepsRes z (@execGetScanMediaCapabilities x0 x1 x2 x3) := by
  unfold execGetScanMediaCapabilities
  refine KeepsRes.next ?_
  apply Keeps.of_mailbox
  · intro a0 h1
    apply Keeps.of_onRange
    · intro a2 h3
      exact Keeps.of_reply (Keeps.trans (t := a2) (by assumption) { fresh := Nat.le_succ _ })
    · assumption
  · assumption

theorem KeepsRes.of_execGetPoisonList {z : State} {x0 : Sys2Proof.Path} {x1 : ℕ} {x2 : ℕ} {x3 : State} (h : Keeps z x3) :
    KeepsRes z (@execGetPoisonList x0 x1 x2 x3) := by
  unfold execGetPoisonList
  refine KeepsRes.next ?_
  apply Keeps.of_mailbox
  · intro a0 h1
    apply Keeps.of_onRange
    · intro a2 h3
      extract_lets v4 v5 v6 v7 v8 v9 v10
      subst v4 v5 v6 v7 v8 v9 v10
      exact Keeps.of_reply (Keeps.trans (t := a2) (by assumption) {  })
    · assumption
  · assumption

theorem KeepsRes.of_execScanMedia {z : State} {x0 : ℕ} {x1 : Sys2Proof.Path} {x2 : ℕ} {x3 : ℕ} {x4 : State} (h : Keeps z x4) :
    KeepsRes z (@execScanMedia x0 x1 x2 x3 x4) := by
  unfold execScanMedia
  refine KeepsRes.next ?_
  apply Keeps.of_mailbox
  · intro a0 h1
    refine Keeps.ite ?_ ?_
    · exact Keeps.of_reply (by assumption)
    · apply Keeps.of_onRange
      · intro a2 h3
        extract_lets v4 v5
        subst v5
        have h64 : Keeps z v4 := Keeps.of_startBackground (by assumption)
        clear_value v4
        exact Keeps.trans (t := v4) (by assumption) {  }
      · assumption
  · exact Keeps.of_tick (by assumption)

theorem KeepsRes.of_execGetScanMediaResults {z : State} {x0 : Sys2Proof.Path} {x1 : State} (h : Keeps z x1) :
    KeepsRes z (@execGetScanMediaResults x0 x1) := by
  unfold execGetScanMediaResults
  refine KeepsRes.next ?_
  apply Keeps.of_mailbox
  · intro a0 h1
    extract_lets v2 v3 v4
    subst v2 v3 v4
    exact Keeps.of_reply (Keeps.trans (t := a0) (by assumption) {  })
  · assumption

theorem Keeps.of_holdMore {z : State} {x0 : State} {x1 : List Sys2Proof.Instr} (h : Keeps z x0) :
    Keeps z (@State.holdMore x0 x1) := by
  unfold State.holdMore
  exact Keeps.trans (t := x0) (by assumption) {  }

end Sys2Proof.Laws
end

