-- ==== Sys2Proof/Laws/State.lean ====
section
/-! SUPPORT. One law per field and update of State: what an operation leaves, and the field that it sets. -/

set_option Elab.async false

namespace Sys2Proof.Machine

/-! ## Time -/

@[simp] theorem State.tick_pending (s : State) (t : Nat) : (s.tick t).pending = s.pending := rfl
@[simp] theorem State.tick_part (s : State) (t : Nat) : (s.tick t).part = s.part := rfl
@[simp] theorem State.tick_serial (s : State) (t : Nat) : (s.tick t).serial = s.serial := rfl
@[simp] theorem State.tick_fresh (s : State) (t : Nat) : (s.tick t).fresh = s.fresh := rfl
@[simp] theorem State.tick_obs (s : State) (t : Nat) : (s.tick t).obs = s.obs := rfl
@[simp] theorem State.tick_sent (s : State) (t : Nat) : (s.tick t).sent = s.sent := rfl
@[simp] theorem State.tick_fab (s : State) (t : Nat) : (s.tick t).fab = s.fab := rfl
@[simp] theorem State.tick_link (s : State) (t : Nat) : (s.tick t).link = s.link := rfl
@[simp] theorem State.tick_qos (s : State) (t : Nat) : (s.tick t).qos = s.qos := rfl
@[simp] theorem State.tick_cch (s : State) (t : Nat) : (s.tick t).cch = s.cch := rfl
@[simp] theorem State.tick_med (s : State) (t : Nat) : (s.tick t).med = s.med := rfl
@[simp] theorem State.tick_map (s : State) (t : Nat) : (s.tick t).map = s.map := rfl
@[simp] theorem State.tick_cal (s : State) (t : Nat) : (s.tick t).cal = s.cal := rfl
@[simp] theorem State.tick_key (s : State) (t : Nat) : (s.tick t).key = s.key := rfl
@[simp] theorem State.tick_pfl (s : State) (t : Nat) : (s.tick t).pfl = s.pfl := rfl
@[simp] theorem State.tick_ring (s : State) (t : Nat) : (s.tick t).ring = s.ring := rfl
@[simp] theorem State.tick_pwr (s : State) (t : Nat) : (s.tick t).pwr = s.pwr := rfl
@[simp] theorem State.tick_thm (s : State) (t : Nat) : (s.tick t).thm = s.thm := rfl
@[simp] theorem State.tick_boot (s : State) (t : Nat) : (s.tick t).boot = s.boot := rfl
@[simp] theorem State.tick_run (s : State) (t : Nat) : (s.tick t).run = s.run := rfl
@[simp] theorem State.tick_tly (s : State) (t : Nat) : (s.tick t).tly = s.tly := rfl
@[simp] theorem State.tick_recd (s : State) (t : Nat) : (s.tick t).recd = s.recd := rfl
@[simp] theorem State.tick_tq (s : State) (t : Nat) : (s.tick t).tq = s.tq := rfl
@[simp] theorem State.tick_evt (s : State) (t : Nat) : (s.tick t).evt = s.evt := rfl
@[simp] theorem State.tick_flip (s : State) (t : Nat) : (s.tick t).flip = s.flip := rfl
@[simp] theorem State.tick_now (s : State) (t : Nat) : (s.tick t).now = max s.now t := rfl

/-! ## Registers -/

@[simp] theorem State.setReg_pending (s : State) (f : Fld) (v i : Nat) : (s.setReg f v i).pending = s.pending := rfl
@[simp] theorem State.setReg_part (s : State) (f : Fld) (v i : Nat) : (s.setReg f v i).part = s.part := rfl
@[simp] theorem State.setReg_serial (s : State) (f : Fld) (v i : Nat) : (s.setReg f v i).serial = s.serial := rfl
@[simp] theorem State.setReg_now (s : State) (f : Fld) (v i : Nat) : (s.setReg f v i).now = s.now := rfl
@[simp] theorem State.setReg_fresh (s : State) (f : Fld) (v i : Nat) : (s.setReg f v i).fresh = s.fresh := rfl
@[simp] theorem State.setReg_sent (s : State) (f : Fld) (v i : Nat) : (s.setReg f v i).sent = s.sent := rfl
@[simp] theorem State.setReg_fab (s : State) (f : Fld) (v i : Nat) : (s.setReg f v i).fab = s.fab := rfl
@[simp] theorem State.setReg_link (s : State) (f : Fld) (v i : Nat) : (s.setReg f v i).link = s.link := rfl
@[simp] theorem State.setReg_qos (s : State) (f : Fld) (v i : Nat) : (s.setReg f v i).qos = s.qos := rfl
@[simp] theorem State.setReg_cch (s : State) (f : Fld) (v i : Nat) : (s.setReg f v i).cch = s.cch := rfl
@[simp] theorem State.setReg_med (s : State) (f : Fld) (v i : Nat) : (s.setReg f v i).med = s.med := rfl
@[simp] theorem State.setReg_map (s : State) (f : Fld) (v i : Nat) : (s.setReg f v i).map = s.map := rfl
@[simp] theorem State.setReg_cal (s : State) (f : Fld) (v i : Nat) : (s.setReg f v i).cal = s.cal := rfl
@[simp] theorem State.setReg_key (s : State) (f : Fld) (v i : Nat) : (s.setReg f v i).key = s.key := rfl
@[simp] theorem State.setReg_pfl (s : State) (f : Fld) (v i : Nat) : (s.setReg f v i).pfl = s.pfl := rfl
@[simp] theorem State.setReg_ring (s : State) (f : Fld) (v i : Nat) : (s.setReg f v i).ring = s.ring := rfl
@[simp] theorem State.setReg_pwr (s : State) (f : Fld) (v i : Nat) : (s.setReg f v i).pwr = s.pwr := rfl
@[simp] theorem State.setReg_thm (s : State) (f : Fld) (v i : Nat) : (s.setReg f v i).thm = s.thm := rfl
@[simp] theorem State.setReg_boot (s : State) (f : Fld) (v i : Nat) : (s.setReg f v i).boot = s.boot := rfl
@[simp] theorem State.setReg_run (s : State) (f : Fld) (v i : Nat) : (s.setReg f v i).run = s.run := rfl
@[simp] theorem State.setReg_tly (s : State) (f : Fld) (v i : Nat) : (s.setReg f v i).tly = s.tly := rfl
@[simp] theorem State.setReg_recd (s : State) (f : Fld) (v i : Nat) : (s.setReg f v i).recd = s.recd := rfl
@[simp] theorem State.setReg_tq (s : State) (f : Fld) (v i : Nat) : (s.setReg f v i).tq = s.tq := rfl
@[simp] theorem State.setReg_evt (s : State) (f : Fld) (v i : Nat) : (s.setReg f v i).evt = s.evt := rfl
@[simp] theorem State.setReg_flip (s : State) (f : Fld) (v i : Nat) : (s.setReg f v i).flip = s.flip := rfl

/-! ## Counting registers -/

@[simp] theorem State.bump_pending (s : State) (f : Fld) (k i : Nat) : (s.bump f k i).pending = s.pending := by
  unfold State.bump; split <;> rfl
@[simp] theorem State.bump_part (s : State) (f : Fld) (k i : Nat) : (s.bump f k i).part = s.part := by
  unfold State.bump; split <;> rfl
@[simp] theorem State.bump_serial (s : State) (f : Fld) (k i : Nat) : (s.bump f k i).serial = s.serial := by
  unfold State.bump; split <;> rfl
@[simp] theorem State.bump_now (s : State) (f : Fld) (k i : Nat) : (s.bump f k i).now = s.now := by
  unfold State.bump; split <;> rfl
@[simp] theorem State.bump_sent (s : State) (f : Fld) (k i : Nat) : (s.bump f k i).sent = s.sent := by
  unfold State.bump; split <;> rfl
@[simp] theorem State.bump_fab (s : State) (f : Fld) (k i : Nat) : (s.bump f k i).fab = s.fab := by
  unfold State.bump; split <;> rfl
@[simp] theorem State.bump_link (s : State) (f : Fld) (k i : Nat) : (s.bump f k i).link = s.link := by
  unfold State.bump; split <;> rfl
@[simp] theorem State.bump_qos (s : State) (f : Fld) (k i : Nat) : (s.bump f k i).qos = s.qos := by
  unfold State.bump; split <;> rfl
@[simp] theorem State.bump_cch (s : State) (f : Fld) (k i : Nat) : (s.bump f k i).cch = s.cch := by
  unfold State.bump; split <;> rfl
@[simp] theorem State.bump_med (s : State) (f : Fld) (k i : Nat) : (s.bump f k i).med = s.med := by
  unfold State.bump; split <;> rfl
@[simp] theorem State.bump_map (s : State) (f : Fld) (k i : Nat) : (s.bump f k i).map = s.map := by
  unfold State.bump; split <;> rfl
@[simp] theorem State.bump_cal (s : State) (f : Fld) (k i : Nat) : (s.bump f k i).cal = s.cal := by
  unfold State.bump; split <;> rfl
@[simp] theorem State.bump_key (s : State) (f : Fld) (k i : Nat) : (s.bump f k i).key = s.key := by
  unfold State.bump; split <;> rfl
@[simp] theorem State.bump_pfl (s : State) (f : Fld) (k i : Nat) : (s.bump f k i).pfl = s.pfl := by
  unfold State.bump; split <;> rfl
@[simp] theorem State.bump_ring (s : State) (f : Fld) (k i : Nat) : (s.bump f k i).ring = s.ring := by
  unfold State.bump; split <;> rfl
@[simp] theorem State.bump_pwr (s : State) (f : Fld) (k i : Nat) : (s.bump f k i).pwr = s.pwr := by
  unfold State.bump; split <;> rfl
@[simp] theorem State.bump_thm (s : State) (f : Fld) (k i : Nat) : (s.bump f k i).thm = s.thm := by
  unfold State.bump; split <;> rfl
@[simp] theorem State.bump_boot (s : State) (f : Fld) (k i : Nat) : (s.bump f k i).boot = s.boot := by
  unfold State.bump; split <;> rfl
@[simp] theorem State.bump_run (s : State) (f : Fld) (k i : Nat) : (s.bump f k i).run = s.run := by
  unfold State.bump; split <;> rfl
@[simp] theorem State.bump_tly (s : State) (f : Fld) (k i : Nat) : (s.bump f k i).tly = s.tly := by
  unfold State.bump; split <;> rfl
@[simp] theorem State.bump_recd (s : State) (f : Fld) (k i : Nat) : (s.bump f k i).recd = s.recd := by
  unfold State.bump; split <;> rfl
@[simp] theorem State.bump_tq (s : State) (f : Fld) (k i : Nat) : (s.bump f k i).tq = s.tq := by
  unfold State.bump; split <;> rfl
@[simp] theorem State.bump_evt (s : State) (f : Fld) (k i : Nat) : (s.bump f k i).evt = s.evt := by
  unfold State.bump; split <;> rfl
@[simp] theorem State.bump_flip (s : State) (f : Fld) (k i : Nat) : (s.bump f k i).flip = s.flip := by
  unfold State.bump; split <;> rfl

/-! ## Output -/

@[simp] theorem State.out_pending (s : State) (o : Out) : (s.out o).pending = s.pending := rfl
@[simp] theorem State.out_part (s : State) (o : Out) : (s.out o).part = s.part := rfl
@[simp] theorem State.out_serial (s : State) (o : Out) : (s.out o).serial = s.serial := rfl
@[simp] theorem State.out_now (s : State) (o : Out) : (s.out o).now = s.now := rfl
@[simp] theorem State.out_fresh (s : State) (o : Out) : (s.out o).fresh = s.fresh := rfl
@[simp] theorem State.out_obs (s : State) (o : Out) : (s.out o).obs = s.obs := rfl
@[simp] theorem State.out_fab (s : State) (o : Out) : (s.out o).fab = s.fab := rfl
@[simp] theorem State.out_link (s : State) (o : Out) : (s.out o).link = s.link := rfl
@[simp] theorem State.out_qos (s : State) (o : Out) : (s.out o).qos = s.qos := rfl
@[simp] theorem State.out_cch (s : State) (o : Out) : (s.out o).cch = s.cch := rfl
@[simp] theorem State.out_med (s : State) (o : Out) : (s.out o).med = s.med := rfl
@[simp] theorem State.out_map (s : State) (o : Out) : (s.out o).map = s.map := rfl
@[simp] theorem State.out_cal (s : State) (o : Out) : (s.out o).cal = s.cal := rfl
@[simp] theorem State.out_key (s : State) (o : Out) : (s.out o).key = s.key := rfl
@[simp] theorem State.out_pfl (s : State) (o : Out) : (s.out o).pfl = s.pfl := rfl
@[simp] theorem State.out_ring (s : State) (o : Out) : (s.out o).ring = s.ring := rfl
@[simp] theorem State.out_pwr (s : State) (o : Out) : (s.out o).pwr = s.pwr := rfl
@[simp] theorem State.out_thm (s : State) (o : Out) : (s.out o).thm = s.thm := rfl
@[simp] theorem State.out_boot (s : State) (o : Out) : (s.out o).boot = s.boot := rfl
@[simp] theorem State.out_run (s : State) (o : Out) : (s.out o).run = s.run := rfl
@[simp] theorem State.out_tly (s : State) (o : Out) : (s.out o).tly = s.tly := rfl
@[simp] theorem State.out_recd (s : State) (o : Out) : (s.out o).recd = s.recd := rfl
@[simp] theorem State.out_tq (s : State) (o : Out) : (s.out o).tq = s.tq := rfl
@[simp] theorem State.out_evt (s : State) (o : Out) : (s.out o).evt = s.evt := rfl
@[simp] theorem State.out_flip (s : State) (o : Out) : (s.out o).flip = s.flip := rfl
@[simp] theorem State.out_sent (s : State) (o : Out) : (s.out o).sent = s.sent ++ [o] := rfl

/-! ## Mailbox replies -/

@[simp] theorem State.reply_pending (s : State) (p : Path) (op : Nat) (rc : Rc) (b : Bytes) : (s.reply p op rc b).pending = s.pending := rfl
@[simp] theorem State.reply_part (s : State) (p : Path) (op : Nat) (rc : Rc) (b : Bytes) : (s.reply p op rc b).part = s.part := rfl
@[simp] theorem State.reply_serial (s : State) (p : Path) (op : Nat) (rc : Rc) (b : Bytes) : (s.reply p op rc b).serial = s.serial := rfl
@[simp] theorem State.reply_now (s : State) (p : Path) (op : Nat) (rc : Rc) (b : Bytes) : (s.reply p op rc b).now = s.now := rfl
@[simp] theorem State.reply_fresh (s : State) (p : Path) (op : Nat) (rc : Rc) (b : Bytes) : (s.reply p op rc b).fresh = s.fresh := rfl
@[simp] theorem State.reply_obs (s : State) (p : Path) (op : Nat) (rc : Rc) (b : Bytes) : (s.reply p op rc b).obs = s.obs := rfl
@[simp] theorem State.reply_fab (s : State) (p : Path) (op : Nat) (rc : Rc) (b : Bytes) : (s.reply p op rc b).fab = s.fab := rfl
@[simp] theorem State.reply_link (s : State) (p : Path) (op : Nat) (rc : Rc) (b : Bytes) : (s.reply p op rc b).link = s.link := rfl
@[simp] theorem State.reply_qos (s : State) (p : Path) (op : Nat) (rc : Rc) (b : Bytes) : (s.reply p op rc b).qos = s.qos := rfl
@[simp] theorem State.reply_cch (s : State) (p : Path) (op : Nat) (rc : Rc) (b : Bytes) : (s.reply p op rc b).cch = s.cch := rfl
@[simp] theorem State.reply_med (s : State) (p : Path) (op : Nat) (rc : Rc) (b : Bytes) : (s.reply p op rc b).med = s.med := rfl
@[simp] theorem State.reply_map (s : State) (p : Path) (op : Nat) (rc : Rc) (b : Bytes) : (s.reply p op rc b).map = s.map := rfl
@[simp] theorem State.reply_cal (s : State) (p : Path) (op : Nat) (rc : Rc) (b : Bytes) : (s.reply p op rc b).cal = s.cal := rfl
@[simp] theorem State.reply_key (s : State) (p : Path) (op : Nat) (rc : Rc) (b : Bytes) : (s.reply p op rc b).key = s.key := rfl
@[simp] theorem State.reply_pfl (s : State) (p : Path) (op : Nat) (rc : Rc) (b : Bytes) : (s.reply p op rc b).pfl = s.pfl := rfl
@[simp] theorem State.reply_ring (s : State) (p : Path) (op : Nat) (rc : Rc) (b : Bytes) : (s.reply p op rc b).ring = s.ring := rfl
@[simp] theorem State.reply_pwr (s : State) (p : Path) (op : Nat) (rc : Rc) (b : Bytes) : (s.reply p op rc b).pwr = s.pwr := rfl
@[simp] theorem State.reply_thm (s : State) (p : Path) (op : Nat) (rc : Rc) (b : Bytes) : (s.reply p op rc b).thm = s.thm := rfl
@[simp] theorem State.reply_boot (s : State) (p : Path) (op : Nat) (rc : Rc) (b : Bytes) : (s.reply p op rc b).boot = s.boot := rfl
@[simp] theorem State.reply_run (s : State) (p : Path) (op : Nat) (rc : Rc) (b : Bytes) : (s.reply p op rc b).run = s.run := rfl
@[simp] theorem State.reply_tly (s : State) (p : Path) (op : Nat) (rc : Rc) (b : Bytes) : (s.reply p op rc b).tly = s.tly := rfl
@[simp] theorem State.reply_recd (s : State) (p : Path) (op : Nat) (rc : Rc) (b : Bytes) : (s.reply p op rc b).recd = s.recd := rfl
@[simp] theorem State.reply_tq (s : State) (p : Path) (op : Nat) (rc : Rc) (b : Bytes) : (s.reply p op rc b).tq = s.tq := rfl
@[simp] theorem State.reply_evt (s : State) (p : Path) (op : Nat) (rc : Rc) (b : Bytes) : (s.reply p op rc b).evt = s.evt := rfl
@[simp] theorem State.reply_flip (s : State) (p : Path) (op : Nat) (rc : Rc) (b : Bytes) : (s.reply p op rc b).flip = s.flip := rfl
@[simp] theorem State.reply_sent (s : State) (p : Path) (op : Nat) (rc : Rc) (b : Bytes) :
    (s.reply p op rc b).sent = s.sent ++ [.reply p op rc b] := rfl

/-! ## Events -/

@[simp] theorem State.onlyEvents_pending (s r : State) : (s.onlyEvents r).pending = s.pending := rfl
@[simp] theorem State.onlyEvents_part (s r : State) : (s.onlyEvents r).part = s.part := rfl
@[simp] theorem State.onlyEvents_serial (s r : State) : (s.onlyEvents r).serial = s.serial := rfl
@[simp] theorem State.onlyEvents_now (s r : State) : (s.onlyEvents r).now = s.now := rfl
@[simp] theorem State.onlyEvents_link (s r : State) : (s.onlyEvents r).link = s.link := rfl
@[simp] theorem State.onlyEvents_qos (s r : State) : (s.onlyEvents r).qos = s.qos := rfl
@[simp] theorem State.onlyEvents_cch (s r : State) : (s.onlyEvents r).cch = s.cch := rfl
@[simp] theorem State.onlyEvents_med (s r : State) : (s.onlyEvents r).med = s.med := rfl
@[simp] theorem State.onlyEvents_map (s r : State) : (s.onlyEvents r).map = s.map := rfl
@[simp] theorem State.onlyEvents_cal (s r : State) : (s.onlyEvents r).cal = s.cal := rfl
@[simp] theorem State.onlyEvents_key (s r : State) : (s.onlyEvents r).key = s.key := rfl
@[simp] theorem State.onlyEvents_pfl (s r : State) : (s.onlyEvents r).pfl = s.pfl := rfl
@[simp] theorem State.onlyEvents_ring (s r : State) : (s.onlyEvents r).ring = s.ring := rfl
@[simp] theorem State.onlyEvents_pwr (s r : State) : (s.onlyEvents r).pwr = s.pwr := rfl
@[simp] theorem State.onlyEvents_thm (s r : State) : (s.onlyEvents r).thm = s.thm := rfl
@[simp] theorem State.onlyEvents_boot (s r : State) : (s.onlyEvents r).boot = s.boot := rfl
@[simp] theorem State.onlyEvents_run (s r : State) : (s.onlyEvents r).run = s.run := rfl
@[simp] theorem State.onlyEvents_tly (s r : State) : (s.onlyEvents r).tly = s.tly := rfl
@[simp] theorem State.onlyEvents_flip (s r : State) : (s.onlyEvents r).flip = s.flip := rfl

/-! ## Raising an event -/

@[simp] theorem ev_pending (src sev : Nat) (data : List Nat) (region : Nat) (s : State) : (ev src sev data region s).pending = s.pending := rfl
@[simp] theorem ev_part (src sev : Nat) (data : List Nat) (region : Nat) (s : State) : (ev src sev data region s).part = s.part := rfl
@[simp] theorem ev_serial (src sev : Nat) (data : List Nat) (region : Nat) (s : State) : (ev src sev data region s).serial = s.serial := rfl
@[simp] theorem ev_now (src sev : Nat) (data : List Nat) (region : Nat) (s : State) : (ev src sev data region s).now = s.now := rfl
@[simp] theorem ev_link (src sev : Nat) (data : List Nat) (region : Nat) (s : State) : (ev src sev data region s).link = s.link := rfl
@[simp] theorem ev_qos (src sev : Nat) (data : List Nat) (region : Nat) (s : State) : (ev src sev data region s).qos = s.qos := rfl
@[simp] theorem ev_cch (src sev : Nat) (data : List Nat) (region : Nat) (s : State) : (ev src sev data region s).cch = s.cch := rfl
@[simp] theorem ev_med (src sev : Nat) (data : List Nat) (region : Nat) (s : State) : (ev src sev data region s).med = s.med := rfl
@[simp] theorem ev_map (src sev : Nat) (data : List Nat) (region : Nat) (s : State) : (ev src sev data region s).map = s.map := rfl
@[simp] theorem ev_cal (src sev : Nat) (data : List Nat) (region : Nat) (s : State) : (ev src sev data region s).cal = s.cal := rfl
@[simp] theorem ev_key (src sev : Nat) (data : List Nat) (region : Nat) (s : State) : (ev src sev data region s).key = s.key := rfl
@[simp] theorem ev_pfl (src sev : Nat) (data : List Nat) (region : Nat) (s : State) : (ev src sev data region s).pfl = s.pfl := rfl
@[simp] theorem ev_ring (src sev : Nat) (data : List Nat) (region : Nat) (s : State) : (ev src sev data region s).ring = s.ring := rfl
@[simp] theorem ev_pwr (src sev : Nat) (data : List Nat) (region : Nat) (s : State) : (ev src sev data region s).pwr = s.pwr := rfl
@[simp] theorem ev_thm (src sev : Nat) (data : List Nat) (region : Nat) (s : State) : (ev src sev data region s).thm = s.thm := rfl
@[simp] theorem ev_boot (src sev : Nat) (data : List Nat) (region : Nat) (s : State) : (ev src sev data region s).boot = s.boot := rfl
@[simp] theorem ev_run (src sev : Nat) (data : List Nat) (region : Nat) (s : State) : (ev src sev data region s).run = s.run := rfl
@[simp] theorem ev_tly (src sev : Nat) (data : List Nat) (region : Nat) (s : State) : (ev src sev data region s).tly = s.tly := rfl
@[simp] theorem ev_flip (src sev : Nat) (data : List Nat) (region : Nat) (s : State) : (ev src sev data region s).flip = s.flip := rfl

/-! ## Counting an occurrence -/

@[simp] theorem count_pending (code k : Nat) (q : Option PmuReq) (s : State) : (count code k q s).pending = s.pending := rfl
@[simp] theorem count_part (code k : Nat) (q : Option PmuReq) (s : State) : (count code k q s).part = s.part := rfl
@[simp] theorem count_serial (code k : Nat) (q : Option PmuReq) (s : State) : (count code k q s).serial = s.serial := rfl
@[simp] theorem count_now (code k : Nat) (q : Option PmuReq) (s : State) : (count code k q s).now = s.now := rfl
@[simp] theorem count_link (code k : Nat) (q : Option PmuReq) (s : State) : (count code k q s).link = s.link := rfl
@[simp] theorem count_qos (code k : Nat) (q : Option PmuReq) (s : State) : (count code k q s).qos = s.qos := rfl
@[simp] theorem count_cch (code k : Nat) (q : Option PmuReq) (s : State) : (count code k q s).cch = s.cch := rfl
@[simp] theorem count_med (code k : Nat) (q : Option PmuReq) (s : State) : (count code k q s).med = s.med := rfl
@[simp] theorem count_map (code k : Nat) (q : Option PmuReq) (s : State) : (count code k q s).map = s.map := rfl
@[simp] theorem count_cal (code k : Nat) (q : Option PmuReq) (s : State) : (count code k q s).cal = s.cal := rfl
@[simp] theorem count_key (code k : Nat) (q : Option PmuReq) (s : State) : (count code k q s).key = s.key := rfl
@[simp] theorem count_pfl (code k : Nat) (q : Option PmuReq) (s : State) : (count code k q s).pfl = s.pfl := rfl
@[simp] theorem count_ring (code k : Nat) (q : Option PmuReq) (s : State) : (count code k q s).ring = s.ring := rfl
@[simp] theorem count_pwr (code k : Nat) (q : Option PmuReq) (s : State) : (count code k q s).pwr = s.pwr := rfl
@[simp] theorem count_thm (code k : Nat) (q : Option PmuReq) (s : State) : (count code k q s).thm = s.thm := rfl
@[simp] theorem count_boot (code k : Nat) (q : Option PmuReq) (s : State) : (count code k q s).boot = s.boot := rfl
@[simp] theorem count_run (code k : Nat) (q : Option PmuReq) (s : State) : (count code k q s).run = s.run := rfl
@[simp] theorem count_tly (code k : Nat) (q : Option PmuReq) (s : State) : (count code k q s).tly = s.tly := rfl
@[simp] theorem count_flip (code k : Nat) (q : Option PmuReq) (s : State) : (count code k q s).flip = s.flip := rfl

/-! ## Records of the health engine -/

@[simp] theorem healthRecord_pending (data : List Nat) (s : State) : (healthRecord data s).pending = s.pending := rfl
@[simp] theorem healthRecord_part (data : List Nat) (s : State) : (healthRecord data s).part = s.part := rfl
@[simp] theorem healthRecord_serial (data : List Nat) (s : State) : (healthRecord data s).serial = s.serial := rfl
@[simp] theorem healthRecord_now (data : List Nat) (s : State) : (healthRecord data s).now = s.now := rfl
@[simp] theorem healthRecord_link (data : List Nat) (s : State) : (healthRecord data s).link = s.link := rfl
@[simp] theorem healthRecord_qos (data : List Nat) (s : State) : (healthRecord data s).qos = s.qos := rfl
@[simp] theorem healthRecord_cch (data : List Nat) (s : State) : (healthRecord data s).cch = s.cch := rfl
@[simp] theorem healthRecord_med (data : List Nat) (s : State) : (healthRecord data s).med = s.med := rfl
@[simp] theorem healthRecord_map (data : List Nat) (s : State) : (healthRecord data s).map = s.map := rfl
@[simp] theorem healthRecord_cal (data : List Nat) (s : State) : (healthRecord data s).cal = s.cal := rfl
@[simp] theorem healthRecord_key (data : List Nat) (s : State) : (healthRecord data s).key = s.key := rfl
@[simp] theorem healthRecord_pfl (data : List Nat) (s : State) : (healthRecord data s).pfl = s.pfl := rfl
@[simp] theorem healthRecord_ring (data : List Nat) (s : State) : (healthRecord data s).ring = s.ring := rfl
@[simp] theorem healthRecord_pwr (data : List Nat) (s : State) : (healthRecord data s).pwr = s.pwr := rfl
@[simp] theorem healthRecord_thm (data : List Nat) (s : State) : (healthRecord data s).thm = s.thm := rfl
@[simp] theorem healthRecord_boot (data : List Nat) (s : State) : (healthRecord data s).boot = s.boot := rfl
@[simp] theorem healthRecord_run (data : List Nat) (s : State) : (healthRecord data s).run = s.run := rfl
@[simp] theorem healthRecord_tly (data : List Nat) (s : State) : (healthRecord data s).tly = s.tly := rfl
@[simp] theorem healthRecord_flip (data : List Nat) (s : State) : (healthRecord data s).flip = s.flip := rfl

end Sys2Proof.Machine
end

