-- ==== Sys2Proof/Laws/Signals.lean ====
section
/-! SUPPORT. What raising an event and counting an occurrence change among the registers: the event registers and no other. -/

set_option Elab.async false

namespace Sys2Proof.Laws

open Sys2Proof.Machine Sys2Proof.Safety

theorem regsBut_refl (l : List (Fld × Nat)) (s : State) : regsBut l s s := fun _ _ _ => rfl

theorem regsBut_trans {l : List (Fld × Nat)} {s t u : State} (h : regsBut l s t) (k : regsBut l t u) : regsBut l s u :=
  fun n h1 h2 => (k n h1 h2).trans (h n h1 h2)

theorem find_putObs_other (m : Tab Nat) (k d v j : Nat) (h : j ≠ k) : Tab.find (putObs m k d v) j = Tab.find m j := by
  unfold putObs
  split
  · exact Tab.find_del_other m k j h
  · exact Tab.find_put_other m k j v h

/-- A read of the field just written gives the value, cut to the field's width. -/
theorem reg_setReg (s : State) (f : Fld) (v i : Nat) : (s.setReg f v i).reg f i = v % f.size := by
  unfold State.setReg State.reg putObs
  split
  · rename_i h
    simp [Tab.findD, h]
  · simp

/-- A field at another place reads as before. -/
theorem reg_setReg_other (s : State) (f g : Fld) (v i j : Nat) (h : g.key j ≠ f.key i) :
    (s.setReg f v i).reg g j = s.reg g j := by
  unfold State.setReg State.reg Tab.findD
  simp only
  rw [find_putObs_other _ _ _ _ _ h]

/-- A setting at a listed place leaves the others. -/
theorem regsBut_setReg {l : List (Fld × Nat)} {s : State} {f : Fld} {v i : Nat}
    (h : eventKey (f.key i) = true ∨ (f, i) ∈ l) : regsBut l s (s.setReg f v i) := by
  intro k h1 h2
  refine find_putObs_other _ _ _ _ _ ?_
  intro e
  subst e
  rcases h with h | h
  · rw [h] at h1; cases h1
  · have := List.all_eq_true.1 h2 _ h
    simp at this

theorem regsBut_bump {l : List (Fld × Nat)} {s : State} {f : Fld} {n i : Nat}
    (h : eventKey (f.key i) = true ∨ (f, i) ∈ l) : regsBut l s (s.bump f n i) := by
  unfold State.bump
  split
  · exact regsBut_setReg h
  · exact regsBut_trans (t := { s with fresh := s.fresh + 1 }) (fun _ _ _ => rfl) (regsBut_setReg h)

/-! ## Events -/

theorem regsBut_foldl {α : Type} {f : State → α → State} {l : List α} {s t : State} (hf : ∀ a x, regsBut [] s a → regsBut [] s (f a x))
    (h : regsBut [] s t) : regsBut [] s (l.foldl f t) := by
  induction l generalizing t with
  | nil => exact h
  | cons x r ih => exact ih (hf t x h)

theorem regsBut_pmuAdd {s z : State} {n k : Nat} (hn : n < 64) (h : regsBut [] z s) : regsBut [] z (s.pmuAdd n k).1 := by
  have h1 : eventKey (PMU_CNT.count.key n) = true := by
    have e : PMU_CNT.count.key n / 64 = 0xC0400 + 8 * n := by
      simp only [Fld.key, PMU_CNT.count]; omega
    simp only [eventKey, e, Bool.or_eq_true, Bool.and_eq_true]
    exact .inr ⟨decide_eq_true (by omega), decide_eq_true (by omega)⟩
  have h2 : eventKey (PMU_OVF.overflow.key 0) = true := by decide
  unfold State.pmuAdd
  extract_lets v s1
  have h3 : regsBut [] z s1 := regsBut_trans h (regsBut_setReg (.inl h1))
  split
  · exact h3
  · exact regsBut_trans h3 (regsBut_setReg (.inl h2))

theorem regsBut_pmuEdge {s z : State} {code k : Nat} {q : Option PmuReq} (h : regsBut [] z s) :
    regsBut [] z (s.pmuEdge code k q).1 := by
  unfold State.pmuEdge
  split
  · have : ∀ (l : List Nat), (∀ n ∈ l, n < 64) → ∀ a : State × List Ev, regsBut [] z a.1 →
        regsBut [] z (l.foldl (pmuMeet code k q) a).1 := by
      intro l
      induction l with
      | nil => exact fun _ _ h => h
      | cons n r ih =>
        intro hl a ha
        refine ih (fun m hm => hl m (List.mem_cons_of_mem _ hm)) _ ?_
        unfold pmuMeet
        split
        · split
          · exact ha
          · exact regsBut_pmuAdd (hl n List.mem_cons_self) ha
        · exact ha
    exact this _ (fun n hn => List.mem_range.1 hn) _ h
  · exact h

theorem regsBut_fireOne {z : State} {e : Ev} {a : State × Nat} {it : Nat × Trigger} (h : regsBut [] z a.1) :
    regsBut [] z (fireOne e a it).1 := by
  have k1 : eventKey (REC_LOST.not_recorded_frozen.key 0) = true := by decide
  have k2 : eventKey (REC_LOST.not_recorded_full.key 0) = true := by decide
  have k3 : eventKey (REC_LOST.staging_overflow.key 0) = true := by decide
  have k4 : eventKey (REC_CTRL.freeze.key 0) = true := by decide
  have k5 : eventKey (REC_CTRL.frozen_by_trigger.key 0) = true := by decide
  unfold fireOne
  extract_lets s snaps b r s1 seq recorded
  have h1 : regsBut [] z s1 := by
    dsimp only [s1]
    split
    · exact h
    · split
      · exact regsBut_trans h (regsBut_bump (.inl k2))
      · split
        · exact regsBut_trans h (regsBut_bump (.inl k3))
        · exact h
  clear_value s1 seq recorded
  split
  · exact h
  · split
    · exact h
    · split
      · exact regsBut_trans h (regsBut_bump (.inl k1))
      · split
        · exact regsBut_trans (regsBut_trans h1 (regsBut_setReg (.inl k4))) (regsBut_setReg (.inl k5))
        · exact h1

theorem regsBut_fireAll {z s : State} {e : Ev} (h : regsBut [] z s) : regsBut [] z (s.fireAll e).1 := by
  unfold State.fireAll
  generalize s.run.triggers.zipIdx.map (fun p => (p.2, p.1)) = l
  have : ∀ a : State × Nat, regsBut [] z a.1 → regsBut [] z (l.foldl (fireOne e) a).1 := by
    induction l with
    | nil => exact fun _ h => h
    | cons x r ih => exact fun a ha => ih _ (regsBut_fireOne ha)
  exact this _ h

theorem regsBut_sendMsix {s : State} {v : Nat} : regsBut [] s (s.sendMsix v) := by
  unfold State.sendMsix
  split
  · exact regsBut_refl _ _
  · split <;> exact regsBut_refl _ _

theorem regsBut_interrupt {s : State} {v : Nat} : regsBut [] s (s.interrupt v) := by
  unfold State.interrupt
  split
  · exact regsBut_refl _ _
  · exact regsBut_sendMsix

theorem regsBut_logRecord {s : State} {kind src sev region seq : Nat} {data : List Nat} :
    regsBut [] s (s.logRecord kind src sev region seq data) := by
  have k1 : eventKey (EVT_STATUS.log_full.key 0) = true := by decide
  have k2 : eventKey (EVT_STATUS.last_source.key 0) = true := by decide
  unfold State.logRecord
  split
  · exact regsBut_bump (.inl k1)
  · extract_lets r b e c
    have h : regsBut [] s c := regsBut_setReg (.inl k2)
    split
    · exact regsBut_trans h regsBut_sendMsix
    · exact h

theorem regsBut_record {s : State} {e : Ev} {seq : Nat} : regsBut [] s (s.record e seq) := by
  have k1 : eventKey (EVT_STATUS.masked.key 0) = true := by decide
  unfold State.record
  split
  · exact regsBut_bump (.inl k1)
  · split
    · exact regsBut_refl _ _
    · exact regsBut_trans regsBut_logRecord regsBut_interrupt

theorem regsBut_raiseOne {s : State} {e : Ev} : regsBut [] s (raiseOne s e).1 := by
  unfold raiseOne
  extract_lets p f q v r
  have h1 : regsBut [] s q := regsBut_trans (regsBut_fireAll (regsBut_pmuEdge (regsBut_refl _ _))) regsBut_record
  clear_value q
  dsimp only [r]
  split <;> exact h1

theorem regsBut_raiseAll {n : Nat} {l : List Ev} {s : State} : regsBut [] s (raiseAll n l s) := by
  induction n generalizing l s with
  | zero => exact regsBut_refl _ _
  | succ n ih =>
    cases l with
    | nil => exact regsBut_refl _ _
    | cons e r => exact regsBut_trans regsBut_raiseOne ih

/-- Raising an event leaves every register but the event registers. -/
theorem regsBut_ev (src sev : Nat) (data : List Nat) (region : Nat) (s : State) : regsBut [] s (ev src sev data region s) :=
  fun k h1 h2 => regsBut_raiseAll (s := s) k h1 h2

/-- So does counting an occurrence. -/
theorem regsBut_count (code k : Nat) (q : Option PmuReq) (s : State) : regsBut [] s (count code k q s) :=
  regsBut_trans (regsBut_pmuEdge (regsBut_refl _ _)) (fun n h1 h2 => regsBut_raiseAll n h1 h2)

end Sys2Proof.Laws
end

