-- ==== Sys2Proof/Tests/Slice0.lean ====
section
/-! SUPPORT. The model's own tests: concrete states that meet the hypotheses of each statement, each check of WellFormed
refusing an ill-formed command, and a few single steps against values worked out from the manual. -/

set_option Elab.async false

namespace Sys2Proof.Tests

open Sys2Proof Sys2Proof.Machine Sys2Proof.Safety

/-! ## States that the witnesses start from -/

def railOn : Rail := { Rail.atReset with enabled := true, pg := true }

/-- A card of 8 TiB that serves: rails on, start complete, linked with CXL 3.1 at 64 GT/s, Memory_Active set, nothing staged. -/
def up : State :=
  { State.reset with
    now := 20000000000,
    pwr := { Power.atReset with
      inputs := ⟨12000, 12000, 3300, 3300⟩, rails := List.replicate 14 railOn, qualified := true },
    boot := { Boot.atReset with step := 12, complete := true, perst := false, cold := false, attempt := 1 },
    link := { Link.atReset with
      protocol := 4, rate := 4, width := 16, flit256 := true, memActive := true, infoValid := true, mboxReady := true,
      decoders := ⟨0, 8192 * gib, 0, 1, 256, 0, true, false⟩ :: List.replicate 3 ⟨0, 0, 0, 1, 256, 0, false, false⟩ },
    pfl := { Persist.atReset with
      vstore := 24000, charging := true, tempC := 25, budget := 10 * gib,
      slots := [{ DumpSlot.atReset with st := 1, seq := 1 }, { DumpSlot.atReset with st := 1, seq := 2 }] },
    med := { Media.atReset with allow := [960, 960, 960, 960] } }

/-- The same card with another part of it changed. -/
def withPwr (f : Power → Power) (s : State) : State := { s with pwr := f s.pwr }
def withLink (f : Link → Link) (s : State) : State := { s with link := f s.link }
def withPfl (f : Persist → Persist) (s : State) : State := { s with pfl := f s.pfl }
def withThm (f : Thermal → Thermal) (s : State) : State := { s with thm := f s.thm }
def withBoot (f : Boot → Boot) (s : State) : State := { s with boot := f s.boot }
def withRun (f : Running → Running) (s : State) : State := { s with run := f s.run }

/-- Rails 1 to 13 off, the input good. -/
def offPwr (f : Power → Power) : State :=
  withPwr (fun p => f { p with rails := railOn :: List.replicate 13 Rail.atReset })
    (withLink (fun l => { l with protocol := 0, memActive := false }) (withBoot (fun b => { b with complete := false, step := 0 }) up))

/-- A power-down has begun. -/
def downPwr : State := withPwr (fun p => { p with sequence := 2, common := 20000000000, covered := 0x3FFE }) up

/-- A dump has begun. -/
def dumping : State := withPfl (fun p => { p with dump := some ⟨0, 0, 20000000000, 0, 0, none⟩ }) up

/-- A store test runs. -/
def testing (x : StoreTest) : State := withPfl (fun p => { p with test := some x }) up

/-- The near slot of 256-byte line 0 with 64-byte line 0 dirty. -/
def near0 : NearSlot :=
  { copy := { l := 0, dirty := 1, poison := 0, reuse := 0, epochMode := false, epochTag := 0, keyGen := false, data := 5 },
    dirtySince := some 7, filling := false, mask := 0, badData := 0, badTags := 0, readTag := 0 }

/-- One line is staged in the near cache. -/
def staged1 : State := { up with cch := { up.cch with near := [(0, near0)] } }

/-- Write-through mode with slot 0 as the log and a write that waits for it. -/
def logging : State :=
  withPfl (fun p => { p with wt := some (1, 7), slots := setAt p.slots 0 { DumpSlot.atReset with st := 4, seq := 1 } })
    { staged1 with qos := { staged1.qos with
      ctxs := [{ (default : Ctx) with req := { (default : Req) with write := true }, acceptedAt := some 7, logWait := true }] } }

def rec1 : Rec :=
  { trigger := 0, lostBefore := false, repeats := 0, seq := 1, snaps := [], source := 0, severity := 0, region := 255 }

/-- The first request of a start, of the default class. -/
def rq (t : Nat) (dpa : Dpa) (write : Bool) (data : Line) (e : Enables) : Req := ⟨0, t, write, 7, dpa, data, e, false⟩

/-- A board-cache slot that holds 256-byte line 0, clean. -/
def slot0 : BoardSlot :=
  boardOf { l := 0, dirty := 0, poison := 0, reuse := 1, epochMode := false, epochTag := 0, keyGen := false, data := 9 } 0

/-- Line 0 lies in the board cache. -/
def boarded : State := { up with cch := { up.cch with board := [(0, slot0)] } }

/-- A fill of line 0 from the board cache, for which the read of 64-byte line 0 waits. -/
def fill0 : Fill := { (default : Fill) with src := .board }
def filling : State :=
  { boarded with
    cch := { boarded.cch with near := [(0, { near0 with filling := true, mask := 255 })], fills := [fill0] },
    qos := { boarded.qos with nextId := 1, ctxs := [⟨rq 20000000000 0 false 0 0, none, .board, 0, 0, false⟩] } }

/-- A write waits for its completion since it was accepted. -/
def wrote : State :=
  { staged1 with qos := { staged1.qos with nextId := 1, ctxs := [⟨rq 19999999000 0 true 0 1, some 19999999015, .none, 0, 0, false⟩] } }

/-- A read of line 0, which the near cache holds, waits in the ingress buffer. -/
def heldRead : State := { staged1 with qos := { staged1.qos with nextId := 1, ingress := [rq 19999999000 0 false 0 0] } }

/-- Failed-read-only. -/
def readOnly : State := { up with med := { up.med with froCauses := [255] } }

/-- A write of this start has been accepted before. -/
def unclean (s : State) : State := withPfl (fun p => { p with clean := false }) s

/-- A line of the near eviction buffer: 256-byte line 1 is dirty in its line 2. -/
def out1 : EvictEntry :=
  { copy := { l := 1, dirty := 4, poison := 0, reuse := 3, epochMode := false, epochTag := 0, keyGen := false, data := 6 },
    refetch := 0, mask := 0, declinedAt := none }
/-- The same line, clean. -/
def out2 : EvictEntry := { out1 with copy := { out1.copy with dirty := 0 } }
/-- Another line with the same board index, dirty in the board cache. -/
def far1 : BoardSlot := boardOf { out1.copy with l := 0x2000001, reuse := 2 } 0
def leavingNear (e : EvictEntry) (b : Tab BoardSlot) : State := { up with cch := { up.cch with evict := [e], board := b } }

/-- A one-bead stripe block of group 0 with folio 0 in its first slot. -/
def beadBlock : StripeBlock :=
  { StripeBlock.blank with bead := true, isOpen := true, members := (List.range 16).map (fun c => (c, 0)) }
def placed0 : State :=
  { up with
    med := { up.med with blocks := [(0, beadBlock)], nextBlock := [1, 0, 0, 0] },
    map := { up.map with entries := [(0, ⟨some ⟨0, 0, 0⟩, true, false, false, false, false⟩)] },
    key := { up.key with units := [(0, ⟨0, 0, false, false, true, true, false, false⟩)] } }

/-- A line of folio 0 waits in the write-back buffer; it is on its way home. -/
def wb0 : WbEntry := ⟨near0.copy, false, false, false, false, 0⟩
def leaving : State := { placed0 with cch := { placed0.cch with wb := [wb0] } }
def homing : State :=
  { placed0 with
    cch := { placed0.cch with wb := [{ wb0 with issued := true }] },
    map := { placed0.map with homes := [(0, homeOf 0 ⟨0, 0, 0⟩ true near0.copy.homeLines 1 0 false true (some ⟨0, 0, 0⟩))] } }

/-- A dump slot drains: line 3 of folio 0 is in the overlay. -/
def line3 : DumpLine := ⟨3, 8, false, false, false, 0, 1, false⟩
def draining : State :=
  { placed0 with pfl := { placed0.pfl with
    overlay := [(3, line3)], overlaySlot := some 0,
    slots := setAt placed0.pfl.slots 0 { DumpSlot.atReset with st := 3, seq := 1 } } }

/-- Folio 0 has a shadow of a committed epoch. -/
def shadowed : State := { placed0 with ring := { placed0.ring with committed := 4, shadows := [(0, ⟨⟨0, 0, 1⟩, true, 4⟩)] } }

/-- A die with an operation. -/
def dieOp (i : Nat) (o : DieOp) : State :=
  { up with med := { up.med with dies := setAt up.med.dies i { up.die i with op := some o } } }

/-- The member of block 7 on die 1 takes its reset. -/
def resetting0 : State :=
  { dieOp 1 ⟨4, 1, 7, 0, false, 0, 0, 9⟩ with
    med := { (dieOp 1 ⟨4, 1, 7, 0, false, 0, 0, 9⟩).med with blocks := [(blkKey 1 7, { beadBlock with toReset := [0] })] } }

/-- A die whose program is late for the third time in a second. -/
def dieLate : State :=
  { up with med := { up.med with dies := setAt up.med.dies 2 { up.die 2 with
      op := some ⟨3, 2, 7, 0, false, 0, 0, 20000000000⟩, timeouts := [19999999999, 19000020001] } } }

/-- A fill of line 0, which folio 0 of the one-bead block holds, is read from the medium. -/
def fillM : Fill := { (default : Fill) with src := .one, loc := some ⟨0, 0, 0⟩, issuedAt := 20000000000, deadline := 20000002000 }
def medFill (f : Fill) : State := { placed0 with cch := { placed0.cch with fills := [f] } }
def sensing : State := medFill fillM
/-- The read waits while the die programs. -/
def suspendable : State :=
  { sensing with med := { sensing.med with dies := setAt sensing.med.dies 4 { sensing.die 4 with op := some ⟨3, 0, 7, 15, false, 0, 0, 9⟩ } } }
def viralFill (f : Fill) : State :=
  { medFill f with key := { (medFill f).key with extents := [{ noExtent with units := 1, viral := true }] } }

/-- An open page of group 1 in a four-bead stripe block. -/
def pageOpened (p : OpenPage) : State :=
  { up with
    med := { up.med with blocks := [(blkKey 1 0, { beadBlock with bead := false })] },
    map := { up.map with pages := [(1, p)], beadLimit := 100 } }

/-- Folio 0's die is rebuilt. -/
def rebuilding0 : State := { placed0 with med := { placed0.med with rebuild := some ⟨0, 4, 5, 0⟩ } }

/-- Folio 0 is cold in a full bead area; group 0 has an open page. -/
def fourBlock (b : Nat) : StripeBlock :=
  { StripeBlock.blank with sealedAt := some 0, members := (List.range 16).map (fun c => (c, b)) }
def demoting : State :=
  { placed0 with
    med := { placed0.med with blocks := [(0, beadBlock), (4, fourBlock 4)] },
    map := { placed0.map with beads := [(0, ⟨0, 0, 0⟩)], beadLimit := 0, pages := [(0, ⟨4, 2, [none], none⟩)] } }

/-- Folio 0 has been written home 2^20 times in its slot; another bead block is open. -/
def rotating : State :=
  { placed0 with
    med := { placed0.med with blocks := [(0, beadBlock), (1, beadBlock)] },
    map := { placed0.map with beads := [(0, ⟨3, 1048576, 1⟩)] } }

/-- Folio 0 lies in sealed four-bead stripe block 5 of group 0. -/
def reclaiming : State :=
  { demoting with
    med := { demoting.med with blocks := [(4, { fourBlock 4 with isOpen := true }), (5, fourBlock 5)] },
    map := { demoting.map with entries := [(0, ⟨some ⟨0, 5, 0⟩, false, false, false, false, false⟩)] } }
def reclaimed (r : Reclaim) (p : Tab OpenPage) : State :=
  { reclaiming with
    med := { reclaiming.med with blocks := [(4, fourBlock 4), (5, fourBlock 5)] },
    map := { reclaiming.map with reclaim := [(0, r)], pages := p } }

/-- Block 9 of die 0 is worn, block 5 is cold. -/
def unevenWear : State :=
  { reclaiming with
    cal := { up.cal with calendar := 700000, powerOnS := 86400 },
    med := { up.med with
      blocks := [(5, fourBlock 5), (9, fourBlock 9)], freed := [2],
      dies := setAt up.med.dies 0 { up.die 0 with cycles4 := [(9, 3000000)] } } }

/-- A threshold-table entry. -/
def withEntry (k : Nat) (e : ThrEntry) : State := { up with cal := { up.cal with thr := [(k, e)] } }

/-- Block 5 of group 0 has shown 20 errors; the card holds no rate for it. -/
def agedBlock : State := { reclaiming with med := { reclaiming.med with blocks := [(5, { fourBlock 5 with cMax := 20 })] } }

/-- Block 5 of group 0 is due for rewrite. -/
def dueBlock : State :=
  { reclaiming with med := { reclaiming.med with
      blocks := [(4, { fourBlock 4 with isOpen := true }), (5, { fourBlock 5 with due := some 0 })] } }

/-- A scrub lap runs. -/
def lapping : State := { reclaiming with cal := { reclaiming.cal with lapActive := true } }

/-- A key slot. -/
def withSlot (n : Nat) (x : KeySlot) : State := { up with key := { up.key with slots := [(n, x)] } }

/-- A host rotation of unit 0 from key 9 to key 4. -/
def sweep1 : Sweep := ⟨1, 0, [0], 9, 4, true, true, 0, 0, 0, 0⟩
def sweeping (w : Sweep) : State :=
  { placed0 with key := { placed0.key with
      units := [(0, ⟨4, 9, true, true, true, true, false, false⟩)], slots := [(4, ⟨1, 1, 0, 7⟩), (9, ⟨2, 1, 5, 3⟩)], sweep := some w } }
def sweepingStored : State :=
  { sweeping sweep1 with med := { (sweeping sweep1).med with store := [(7, ⟨5, 0, false, false, none⟩)], secs := [(1, { (default : Sector) with seq := 1 })] } }
def swept : State :=
  { sweeping { sweep1 with boundary := 268435456 } with
    link := { up.link with background := some ⟨0xC031, 0, .primary⟩ } }

/-- The Warning log holds one record. -/
def evr : EventRec :=
  { handle := 4, source := 0x103, severity := 1, region := 4, recorder := 0, data := [2, 1001], kind := 2, time := 0 }
def logged : State := { up with evt := { up.evt with logs := [[], [evr], [], []] } }

/-- Line 1 is listed as poisoned. -/
def poisoned : State := { placed0 with map := { placed0.map with poison := [⟨1, 1, 0⟩] } }

/-- A ring of two cards of version 2; this card is the master, at position 0. -/
def ringed : State :=
  { up with ring := { up.ring with
    ringId := 5, st := 1, version := 2, position := some 0, bypass := false, inSync := true, inCable := true, outCable := true, joined := true,
    members := [{ Member.atReset with serial := 0, present := true, version := 2, master := true },
      { Member.atReset with serial := 77, present := true, version := 2, position := 1 }] } }

def attempt1 : Attempt := { (default : Attempt) with number := 1, steps := [] }

/-- The calendar has been restored and holds n. -/
def keepsTime (n : Nat) : State := { up with cal := { up.cal with restored := true, provisional := false, calendar := n } }

/-- The tally store may write. -/
def supplied : State := { up with tly := { up.tly with rail0 := true, holdUp := true } }

/-- The row write of a mailbox command runs. -/
def rowRunning (op : Nat) (args : List Nat) : State :=
  { supplied with
    tly := { supplied.tly with running := some (match op with
      | 0x4204 => ⟨4, 1, 2, [7], 1, 0⟩
      | 0x4401 => ⟨4, 5, 512, [7], 1, 0⟩
      | 0xC051 => ⟨4, 1, 3, [7], 1, 0⟩
      | _ => ⟨4, 5, 515, [7], 1, 0⟩) },
    link := { supplied.link with wait := some ⟨.primary, op, [], 1, args⟩ } }

/-- A configuration image that may follow the first one. -/
def image2 : Image := { emptyImage with sequence := 2 }

/-- Extent 0 has two units under key 0; slot 9 is Active. -/
def rotatable : State :=
  { withSlot 9 ⟨1, 1, 0, 7⟩ with
    key := { (withSlot 9 ⟨1, 1, 0, 7⟩).key with extents := [{ noExtent with units := 2 }] } }

/-- The head of a frame on the ring of `ringed`. -/
def headFrom (o : Nat) : FrameHead :=
  { version := 2, hops := 1, origin := o, resolve := false, recovery := false, retrans := false, lap2 := false, ringId := 5, crcOk := true }

/-- The second card of the ring, at position 1. -/
def second : State := { ringed with serial := 77, ring := { ringed.ring with own := 1, position := some 1 } }

/-- The first card while the second one's DISCOVER has not come. -/
def joining : State :=
  { ringed with ring := { ringed.ring with
    st := 0, version := 0, position := none, joined := false,
    members := [{ Member.atReset with serial := 0, present := true, version := 2, master := true }, { Member.atReset with serial := 77 }] } }

/-- The member wait is over. -/
def waiting : State := { joining with boot := { joining.boot with step := 0x0B, complete := false, running := true } }

/-- A ring of one. -/
def lonely : State :=
  { up with ring := { up.ring with
    st := 3, position := some 0, joined := true, members := [{ Member.atReset with serial := 0, present := true, master := true }] } }

/-- Epoch 1 is being closed. -/
def close1 : Close := ⟨1, 1, 20000000000, 20000000000, false, false, false, 0, 0, 20000000000, false, false⟩
def closing1 (c : Close) (s : State) : State := { s with ring := { s.ring with close := some c } }

/-- The host's decision goes round. -/
def resolving1 : State :=
  { ringed with
    ring := { ringed.ring with pending := true, resolving := true }, link := { ringed.link with resolve := some .primary } }

/-- A class with no completion in its window has a trailing p99 of 0, whatever the measurement's bins are. -/
theorem p99Of_nil : p99Of [] = 0 := by
  show 0 + _ % 1 = 0
  rw [Nat.mod_one]

/-- With no completion at all, every class is below 40 % of its target. -/
theorem relaxed_idle {s : State} (h : s.qos.cls = List.replicate 8 ClsState.init) (k : ∀ n < 8, 0 < (s.classEntry n).target) :
    s.paceRelaxed = true := by
  refine List.all_eq_true.2 (fun n hn => ?_)
  have e : s.trailing n = 0 := by
    have r : (s.clsState n).recent = [] := by
      have hn := List.mem_range.1 hn
      rw [State.clsState, h, List.getD_eq_getElem?_getD, List.getElem?_replicate_of_lt hn]
      rfl
    simp [State.trailing, r, p99Of_nil]
  have t := k n (List.mem_range.1 hn)
  simp only [e, decide_eq_true_eq]
  omega

/-! ## Each check of WellFormed refuses an ill-formed command -/

def offer0 : LinkOffer := ⟨true, true, false, 4, 16, 4, 16⟩
def boot0 : BootIn := ⟨15, [], 0, [], [], true, true, true, true, 0, true⟩
def pace0 : PaceIn := ⟨0, [], []⟩
def frame0 : FrameHead := ⟨1, 0, 0, false, false, false, false, 7, true⟩
def flip0 : FlipIn := ⟨2, true, 0, 0, 1, 0x1234540, 0x220⟩
def fw0 : FwImage := ⟨true, 1, 0, 1, 1, 0, true, true, true⟩
def ext0 : ExtentEntry := ⟨0, 1, 0, 0, false, false, false, true, false, 0, 0, false⟩
def img0 : Image :=
  { headerOk := true, format := 1, subsystem := 0x2000, sequence := 1, length := 0x1000, signed := true, enrol := false, keyDigest := 0,
    keySection := none, signatureOk := true, digestOk := true, bodyDigest := 0, slotTable := none, thermal := none, extents := none,
    classes := none, routing := none, triggers := none, ring := none, caps := none, link := none, policy := none }

theorem test_wf_accepts :
    [Instr.linkTrainingComplete 0 offer0, .bootStep 0 boot0, .paceEvaluation 0 pace0, .flush 0 frame0 0 0, .setCheckFlipMask .primary flip0,
      .transferFw 0 .primary .full 1 0 0 fw0, .transferConfigurationImage 0 .primary .full 0 0 img0].all Instr.wf = true := by decide
theorem test_wf_link_offer :
    (Instr.linkTrainingComplete 0 { offer0 with rate := 5 }).wf = false ∧ (Instr.linkTrainingComplete 0 { offer0 with bestRate := 5 }).wf = false ∧
    (Instr.linkTrainingComplete 0 { offer0 with width := 3 }).wf = false ∧ (Instr.linkTrainingComplete 0 { offer0 with bestWidth := 12 }).wf = false := by
  decide
theorem test_wf_boot_in :
    (Instr.bootStep 0 { boot0 with gddr := List.replicate 5 default }).wf = false ∧
    (Instr.bootStep 0 { boot0 with deltaA := List.replicate 65 0 }).wf = false ∧
    (Instr.bootStep 0 { boot0 with badSlotLines := [2 ^ 37] }).wf = false := by decide
theorem test_wf_pace :
    (Instr.paceEvaluation 0 { pace0 with minCode := List.replicate 10 0 }).wf = false ∧
    (Instr.paceLowerInterval 0 { pace0 with replica := List.replicate 10 0 }).wf = false ∧
    (Instr.paceEvaluation 0 { pace0 with minCode := [256] }).wf = false := by decide
theorem test_wf_extent :
    [{ ext0 with base := 65536 }, { ext0 with units := 65536 }, { ext0 with key := 65536 }, { ext0 with cls := 8 }, { ext0 with scrub := 256 }].all
      (fun e => !(Instr.transferConfigurationImage 0 .primary .full 0 0 { img0 with extents := some [e] }).wf) = true := by decide
theorem test_wf_class :
    [(⟨2 ^ 32, 0, 0, 0, 0, 0, 0, 0⟩ : ClassEntry), ⟨0, 65536, 0, 0, 0, 0, 0, 0⟩, ⟨0, 0, 65536, 0, 0, 0, 0, 0⟩, ⟨0, 0, 0, 65536, 0, 0, 0, 0⟩,
      ⟨0, 0, 0, 0, 65536, 0, 0, 0⟩, ⟨0, 0, 0, 0, 0, 2 ^ 32, 0, 0⟩, ⟨0, 0, 0, 0, 0, 0, 2 ^ 32, 0⟩].all
      (fun e => !(Instr.transferConfigurationImage 0 .primary .full 0 0 { img0 with classes := some [e] }).wf) = true := by decide
theorem test_wf_slot :
    [(⟨65536, 0, 0⟩ : SlotEntry), ⟨0, 65536, 0⟩, ⟨0, 0, 65536⟩].all
      (fun e => !(Instr.transferConfigurationImage 0 .primary .full 0 0 { img0 with slotTable := some [e] }).wf) = true := by decide
theorem test_wf_image :
    [{ img0 with format := 65536 }, { img0 with subsystem := 65536 }, { img0 with sequence := 2 ^ 32 }, { img0 with length := 2 ^ 32 },
      { img0 with keyDigest := 2 ^ 256 }, { img0 with bodyDigest := 2 ^ 256 }].all
      (fun i => !(Instr.transferConfigurationImage 0 .primary .full 0 0 i).wf) = true ∧
    (Instr.transferConfigurationImage 0 .primary .full (2 ^ 32) 0 img0).wf = false ∧
    (Instr.transferConfigurationImage 0 .primary .full 0 (2 ^ 32) img0).wf = false := by decide
theorem test_wf_firmware :
    [{ fw0 with version := 2 ^ 32 }, { fw0 with rollback := 2 ^ 32 }, { fw0 with minStep := 2 ^ 32 }].all
      (fun f => !(Instr.transferFw 0 .primary .full 1 0 0 f).wf) = true ∧
    (Instr.transferFw 0 .primary .full 256 0 0 fw0).wf = false ∧ (Instr.activateFw 0 .primary true 256).wf = false := by decide
theorem test_wf_flip :
    [{ flip0 with target := 256 }, { flip0 with partition := 256 }, { flip0 with offset := 65536 }, { flip0 with count := 256 },
      { flip0 with dpa := 2 ^ 64 }].all (fun m => !(Instr.setCheckFlipMask .primary m).wf) = true := by decide
theorem test_wf_frame :
    [{ frame0 with version := 256 }, { frame0 with hops := 256 }, { frame0 with origin := 256 }, { frame0 with ringId := 65536 }].all
      (fun f => !(Instr.flush 0 f 0 0).wf) = true ∧
    (Instr.discover 0 frame0 (2 ^ 64)).wf = false ∧ (Instr.reservedTypeFrame 0 frame0 256 0).wf = false := by decide
theorem test_wf_die_result :
    [DieResult.sense 0 2557 0 [], .sense 0 0 0 [(15, true)], .write true (2 ^ 20), .program true (2 ^ 20), .reset true (2 ^ 20)].all
      (fun r => !(Instr.dieOperationComplete 0 0 r).wf) = true := by decide
theorem test_wf_node_fail :
    [NodeFail.corrected (2 ^ 32), .mirror (2 ^ 32), .bothCopies (2 ^ 32), .node 0 (2 ^ 32) true].all (fun r => !(Instr.macCheckComplete 0 0 (some r)).wf) = true := by
  decide
theorem test_wf_readings :
    [Instr.budgetCompute 0 ⟨65536, 25⟩, .budgetCompute 0 ⟨24000, 32768⟩, .inputLevelChange 0 ⟨65536, 0, 0, 0⟩, .inputLevelChange 0 ⟨0, 65536, 0, 0⟩,
      .inputLevelChange 0 ⟨0, 0, 65536, 0⟩, .inputLevelChange 0 ⟨0, 0, 0, 65536⟩, .sensorSample 0 0 (-32769) 0, .sensorSample 0 0 0 32768,
      .storeTestLoadApplied 0 65536, .storeTestEsrMeasure 0 65536, .storeTestRechargeEnd 0 65536, .tallyDeferralLimit 0 65536].all
      (fun i => !i.wf) = true := by decide
theorem test_wf_tally :
    [Instr.tallyRefreshLap 0 [(8, 0)] [], .tallyRefreshLap 0 [(0, 4096)] [], .tallyRefreshLap 0 [] [(8, 0, 0)], .tallyRefreshLap 0 [] [(0, 4096, 0)],
      .tallyRefreshLap 0 [] [(0, 0, 2)], .readTallyRecords 0 .primary 256 0 0 0, .readTallyRecords 0 .primary 0 65536 0 0,
      .readTallyRecords 0 .primary 0 0 (2 ^ 32) 0, .writeCustomerTally 0 .primary 65536 0 (List.replicate 256 0),
      .writeCustomerTally 0 .primary 0 0 [], .setTallyPassword 0 .primary 256 0 0].all (fun i => !i.wf) = true := by decide
theorem test_wf_medium :
    [Instr.writeCompletion 0 (2 ^ 64), .handshakeStall 0 0 (2 ^ 32) (.blockReset true), .blockResetComplete 0 0 (2 ^ 32) true, .softDecodeComplete 0 0 4096 0,
      .softDecodeComplete 0 0 0 4096, .lostNodeRewriteComplete 0 0 (2 ^ 48), .channelWakeComplete 0 0 (2 ^ 32) true, .checkpointSealed 0 (2 ^ 32),
      .mapWordRebuildComplete 0 0 100663296 none, .mapWordRebuildComplete 0 0 0 (some (true, 2 ^ 32)), .scrubRead 0 0 0 0 none 4096 [] [] .hard,
      .scrubRead 0 0 0 0 none 0 [15] [] .hard, .scrubRead 0 0 0 0 none 0 [] [15] .hard, .replayHomeWrite 0 65 0, .marginRead 0 0 0 4096 [] .hard, .marginRead 0 0 0 0 [(15, true)] .hard,
      .logSectorWritten 0 [0, 1, 2, 3], .dumpTrailerWritten 0 (2 ^ 32)].all (fun i => !i.wf) = true := by decide
theorem test_wf_upsets :
    [Instr.lineFillLanded 0 ⟨0, ⟨0, 0, 0⟩, ⟨false, 0, 0, 0, false, 256, false⟩⟩, .boardOffer 0 ⟨0, ⟨false, 0, 0, 0, false, 256, false⟩⟩,
      .dirtyAgePush 0 ⟨0, ⟨0, 0, 0⟩, ⟨false, 0, 0, 0, false, 256, false⟩⟩].all (fun i => !i.wf) = true := by decide
theorem test_wf_link_and_registers :
    [Instr.hdmDecoderCommit 0 (2 ^ 64) 0 0 1 256 0, .hdmDecoderCommit 0 0 (2 ^ 64) 0 1 256 0, .hdmDecoderCommit 0 0 0 (2 ^ 64) 1 256 0,
      .hdmDecoderCommit 0 0 0 0 256 256 0, .hdmDecoderCommit 0 0 0 0 1 (2 ^ 32) 0, .hdmDecoderCommit 0 0 0 0 1 256 256,
      .getMeasurements .primary (2 ^ 32) true, .doeDiscovery (2 ^ 32), .cdatTableAccess 65536, .pmuPortWindowEnd 0 0 (2 ^ 64) 0,
      .pmuPortWindowEnd 0 0 0 (2 ^ 64), .registerWrite ⟨.obs, 0x100000⟩ 8 0, .registerWrite ⟨.obs, 0⟩ 256 0, .rcRegisterRead ⟨.obs, 0x100000⟩ 8, .rcRegisterRead ⟨.obs, 0⟩ 256,
      .rcRegisterRead ⟨.aperture false, 0x4000000⟩ 8, .registerWrite ⟨.msixTable, 0x40000⟩ 8 0, .spdmMessage .primary (.getCertificate 256),
      .mctpControlMessage (.cci 65536), .mctpControlMessage (.other 128),
      .ringDoorbellWrite 0 256 0, .tqTailWrite (2 ^ 32)].all (fun i => !i.wf) = true := by decide
theorem test_wf_mailbox :
    [Instr.getEventRecords .primary 256 0, .getEventRecords .primary 0 (2 ^ 32), .clearEventRecords .primary 256 [] false,
      .clearEventRecords .primary 0 [65536] false, .setEventInterruptPolicy .primary (List.replicate 6 0), .getLog .primary true (2 ^ 32) 0,
      .getLog .primary true 0 (2 ^ 32), .getLsa .primary (2 ^ 32) 0, .getLsa .primary 0 (2 ^ 32), .setLsa .primary (2 ^ 32) [],
      .setAlertConfiguration .primary 0 0 256 0 0 0 0, .setAlertConfiguration .primary 0 0 0 32768 0 0 0,
      .setAlertConfiguration .primary 0 0 0 0 (-32769) 0 0, .setAlertConfiguration .primary 0 0 0 0 0 65536 0,
      .setAlertConfiguration .primary 0 0 0 0 0 0 65536].all (fun i => !i.wf) = true := by decide
theorem test_wf_ranges :
    [Instr.getPoisonList .primary (2 ^ 64) 1, .getPoisonList .primary 0 (2 ^ 64), .injectPoison 0 .primary (2 ^ 64), .clearPoison 0 .primary (2 ^ 64) 0,
      .getScanMediaCapabilities .primary (2 ^ 64) 1, .scanMedia 0 .primary 0 (2 ^ 64), .selectConfigurationSlot .primary 256 true,
      .discardRange 0 .primary (2 ^ 64) 0 true, .discardRange 0 .primary 0 (2 ^ 64) true, .getExtentTable .primary (2 ^ 32) 0,
      .getExtentTable .primary 0 (2 ^ 32), .generateKey .primary 65536, .startKeyRotation 0 .primary 65536 0 false,
      .startKeyRotation 0 .primary 0 65536 false, .retireKeyId 0 .primary 65536, .getKeyStatus .primary (2 ^ 32) 0, .getKeyStatus .primary 0 (2 ^ 32),
      .epochResolve 0 .primary (2 ^ 64) 0, .epochResolve 0 .primary 0 256, .readRecorder .primary (2 ^ 32) 0, .readRecorder .primary 0 (2 ^ 32),
      .getBootLedger .primary (2 ^ 32), .getWearAndDriftReport .primary 65536 true].all (fun i => !i.wf) = true := by decide

/-! ## Worked examples of the manual -/

/-- 04, the example of a read of DPA 0x05A3_7C4F_19C0 with four 32 Gbit devices. -/
theorem test_cache_example :
    lineOf 0x05A37C4F19C0 % 4 = 3 ∧ nearIx (sectorOf 0x05A37C4F19C0) = 0x04F19 ∧ sectorOf 0x05A37C4F19C0 / 2 ^ 17 = 0x2D1BE ∧
    up.boardIx (sectorOf 0x05A37C4F19C0) = 0x17C4F19 ∧ boardPlace 0x17C4F19 = (1, 0x5F13C6, 0x82BB3040) ∧
    up.boardTag (sectorOf 0x05A37C4F19C0) = 0x2D1 := by decide

/-- 13, the example of the check flip mask: two lines 32 MiB apart share a near index and not a board index. -/
theorem test_flip_example :
    nearIx (sectorOf 0x1234540) = 0x12345 ∧ nearIx (sectorOf 0x3234540) = 0x12345 ∧ up.boardIx (sectorOf 0x1234540) = 0x12345 ∧
    up.boardIx (sectorOf 0x3234540) = 0x32345 ∧ boardPlace 0x12345 = (1, 0x48D1, 0x48D1 * 352) := by decide

/-- 09, the energy that the full budget of 10 GiB needs: 37.0 J on WTP6-8192-C, 43 J on WTP6-4096-C. -/
theorem test_budget_example : budgetMib 1600 37000 100 = 10240 ∧ budgetMib 1900 43000 100 = 10240 := by decide

/-- 07, the example of a block on die M3.1: its ages and horizons by bin, and its two accrual rates. -/
theorem test_age_bins : binOf 1728000 = 9 ∧ binOf 2828000 = 10 ∧ binOf 4147200 = 10 ∧ binOf 7680800 = 11 := by decide
theorem test_age_rates : ageRate 50 = 2 * 65536 ∧ ageRate 60 = 4 * 65536 := by decide

/-- 01 Table 0-2 and 06: folios, units and groups of the two parts. -/
theorem test_parts :
    up.capacity = 8192 * 2 ^ 30 ∧ up.unitCount = 32768 ∧ up.groups = 4 ∧ { up with part := .p4096 }.groups = 2 := by decide

/-! ## Each statement's hypotheses are met somewhere -/

theorem witness_StepTakesFront_1 :
    ∃ (c : Instr) (r : List Instr) (s u : State),
    s.link.held = c :: r ∧ s.mbFree = true ∧ Machine.exec c { s with pending := [], link := { s.link with held := [] } } = .next u :=
  ⟨.getTimestamp .primary, [.getFwInfo .primary], withLink (fun l => { l with held := [.getTimestamp .primary, .getFwInfo .primary] }) up, _, rfl, rfl, rfl⟩

theorem witness_StepTakesFront_2 :
    ∃ s : State,
    (s.link.held = [] ∨ s.mbFree = false) :=
  ⟨up, by decide +kernel⟩

theorem witness_StepTakesFront_3 :
    ∃ s : State,
    (s.link.held = [] ∨ s.mbFree = false) :=
  ⟨withLink (fun l => { l with held := [.getTimestamp .primary], wait := some ⟨.primary, 0xC002, [], 1, []⟩ }) up, by decide +kernel⟩

theorem witness_TablesStayCanonical_0 :
    ∃ s t : State,
    Machine.step s = .next t ∧ canonical s = true :=
  ⟨{ up with pending := [.aspmL1Exit] }, _, rfl, by decide⟩

theorem witness_BuffersStayBounded_0 :
    ∃ s t : State,
    Machine.step s = .next t ∧ bounded s = true :=
  ⟨{ up with pending := [.aspmL1Exit] }, _, rfl, by decide⟩

theorem witness_TimeAndOutputOnlyGrow_0 :
    ∃ s t : State,
    Machine.step s = .next t :=
  ⟨{ up with pending := [.aspmL1Exit] }, _, rfl⟩

theorem witness_FullPartNeverStops_0 :
    ∃ (k : Nat) (s : State),
    s.part = .p8192 :=
  ⟨0, up, by decide +kernel⟩

theorem witness_UnfittedDieStops_0 :
    ∃ (t : Nat) (i : Fin 64) (s : State) (r : DieResult) (n : Fin 16) (b : Fin 4) (h : Fin 15) (g : Fin 4) (k : BitVec 20) (o : Option (BitVec 35))
      (c : Nat) (l : List (Nat × Bool)) (up down : List Nat) (e : ReadEnd) (x : BitVec 35),
    s.part = .p4096 ∧ 2 ≤ i.val % 4 :=
  ⟨5, 2, { up with part := .p4096 }, .reset true 5, 0, 1, 2, 0, 5, none, 0, [], [], [], .hard, 0, by decide +kernel⟩

theorem witness_UnfittedDieStops_1 :
    ∃ (t : Nat) (i : Fin 64) (s : State) (r : DieResult) (n : Fin 16) (b : Fin 4) (h : Fin 15) (g : Fin 4) (k : BitVec 20) (o : Option (BitVec 35))
      (c : Nat) (l : List (Nat × Bool)) (up down : List Nat) (e : ReadEnd) (x : BitVec 35),
    s.part = .p4096 ∧ 2 ≤ i.val % 4 :=
  ⟨5, 63, { up with part := .p4096 }, .reset true 5, 0, 1, 2, 0, 5, none, 0, [], [], [], .hard, 0, by decide +kernel⟩

theorem witness_UnfittedDieStops_2 :
    ∃ (t : Nat) (i : Fin 64) (s : State) (r : DieResult) (n : Fin 16) (b : Fin 4) (h : Fin 15) (g : Fin 4) (k : BitVec 20) (o : Option (BitVec 35))
      (c : Nat) (l : List (Nat × Bool)) (up down : List Nat) (e : ReadEnd) (x : BitVec 35),
    (s.part = .p8192 ∨ i.val % 4 < 2) :=
  ⟨5, 63, up, .reset true 5, 0, 1, 2, 0, 5, none, 0, [], [], [], .hard, 0, by decide +kernel⟩

theorem witness_UnfittedDieStops_3 :
    ∃ (t : Nat) (i : Fin 64) (s : State) (r : DieResult) (n : Fin 16) (b : Fin 4) (h : Fin 15) (g : Fin 4) (k : BitVec 20) (o : Option (BitVec 35))
      (c : Nat) (l : List (Nat × Bool)) (up down : List Nat) (e : ReadEnd) (x : BitVec 35),
    (s.part = .p8192 ∨ i.val % 4 < 2) :=
  ⟨5, 61, { up with part := .p4096 }, .reset true 5, 0, 1, 2, 0, 5, none, 0, [], [], [], .hard, 0, by decide +kernel⟩

theorem witness_EventRecords_0 :
    ∃ (e : Ev) (n : Nat) (s : State),
    s.srcMasked e.src = false ∧ s.canLog = true ∧ e.sev < 4 ∧ s.evt.logs.length = 4 ∧ (s.evt.logs.getD e.sev []).length < logSize e.sev :=
  ⟨⟨0x480, 1, 1, [0]⟩, 0, up, by decide +kernel⟩

theorem witness_EventRecords_1 :
    ∃ (e : Ev) (n : Nat) (s : State),
    s.srcMasked e.src = false ∧ s.canLog = true ∧ e.sev < 4 ∧ s.evt.logs.length = 4 ∧ (s.evt.logs.getD e.sev []).length < logSize e.sev :=
  ⟨⟨0x181, 3, 255, []⟩, 7, up, by decide +kernel⟩

theorem witness_EventRecords_2 :
    ∃ (e : Ev) (n : Nat) (s : State),
    s.srcMasked e.src = true :=
  ⟨⟨0x480, 1, 1, [0]⟩, 0, up.setReg EVT_SRC_MASK.mask 1 18, by decide +kernel⟩

theorem witness_EventRecords_3 :
    ∃ (e : Ev) (n : Nat) (s : State),
    s.srcMasked e.src = false ∧ s.canLog = false :=
  ⟨⟨0x480, 1, 1, [0]⟩, 0, State.reset, by decide +kernel⟩

theorem witness_EventRecords_4 :
    ∃ (e : Ev) (n : Nat) (s : State),
    s.srcMasked e.src = false ∧ s.canLog = true ∧ e.sev < 4 ∧ s.evt.overflow.length = 4 ∧ logSize e.sev ≤ (s.evt.logs.getD e.sev []).length :=
  ⟨⟨0x480, 3, 1, [0]⟩, 0, { up with evt := { up.evt with logs := [[], [], [], List.replicate 64 default] } }, by decide +kernel⟩

theorem witness_DefaultExtent_0 :
    ∃ (dpa : Nat) (s : State),
    (∀ e ∈ s.key.extents, extHas e (unitOf dpa) = false) :=
  ⟨0, up, by decide +kernel⟩

theorem witness_DefaultExtent_1 :
    ∃ (dpa : Nat) (s : State),
    (∀ e ∈ s.key.extents, extHas e (unitOf dpa) = false) :=
  ⟨3 * 268435456, { up with key := { up.key with extents := [{ noExtent with units := 3, cls := 2 }] } }, by decide +kernel⟩

theorem witness_MailboxGate_0 :
    ∃ (p : Path) (op : Nat) (a b : Bool) (s : State),
    s.boot.recovery = true ∧ p = .primary :=
  ⟨.primary, 0x4300, false, true, withBoot (fun b => { b with recovery := true }) up, by decide +kernel⟩

theorem witness_MailboxGate_1 :
    ∃ (p : Path) (op : Nat) (a b : Bool) (s : State),
    s.boot.recovery = true ∧ p = .mctp ∧ op ∈ [0x0200, 0x0201, 0x0202, 0xC060] :=
  ⟨.mctp, 0xC060, true, false, withBoot (fun b => { b with recovery := true }) up, by decide +kernel⟩

theorem witness_MailboxGate_2 :
    ∃ (op : Nat) (a b : Bool) (s : State),
    s.boot.recovery = false ∧ s.link.mboxReady = true ∧ s.gRuns = false ∧ (a && s.restarting 1) = false :=
  ⟨0x0100, false, false, withBoot (fun b => { b with complete := false }) up, by decide +kernel⟩

theorem witness_MailboxGate_3 :
    ∃ (op : Nat) (b : Bool) (s : State),
    s.boot.recovery = false ∧ s.link.mboxReady = true ∧ s.gRuns = false ∧ s.restarting 1 = true :=
  ⟨0xC001, false, { withBoot (fun b => { b with complete := false }) up with fab := { up.fab with restarts := [⟨1, false, 0⟩] } }, by decide +kernel⟩

theorem witness_MailboxGate_4 :
    ∃ (op : Nat) (b : Bool) (s : State),
    s.boot.recovery = false ∧ s.link.mboxReady = true ∧ s.gRuns = true ∧ s.key.erasing = none ∧ s.tallyBusy = true :=
  ⟨0xC001, false, { up with tly := { up.tly with running := some ⟨6, 1, 0, [1], 0, 0⟩ } }, by decide +kernel⟩

theorem witness_MailboxGate_5 :
    ∃ (op : Nat) (s : State),
    s.boot.recovery = false ∧ s.link.mboxReady = true ∧ s.gRuns = true ∧ s.key.erasing = none ∧ s.pcieOnly = true :=
  ⟨0x4303, withLink (fun l => { l with protocol := 1 }) up, by decide +kernel⟩

theorem witness_MailboxGate_6 :
    ∃ (op : Nat) (s : State),
    s.boot.recovery = false ∧ s.link.mboxReady = true ∧ s.gRuns = true ∧ s.key.erasing = none :=
  ⟨0xC000, up, by decide +kernel⟩

theorem witness_MailboxGate_7 :
    ∃ (op : Nat) (s : State),
    s.boot.recovery = false ∧ s.link.mboxReady = true ∧ s.gRuns = true ∧ s.key.erasing = none :=
  ⟨0xC000, withLink (fun l => { l with held := [.getTimestamp .mctp] }) up, by decide +kernel⟩

theorem witness_LinkTrainingOutcome_0 :
    ∃ (t : Nat) (o : LinkOffer) (s : State),
    (s.tick t).trains = true :=
  ⟨20000000001, ⟨true, true, false, 4, 16, 4, 16⟩, withLink (fun l => { l with protocol := 0, memActive := false }) up, by decide +kernel⟩

theorem witness_LinkTrainingOutcome_1 :
    ∃ (t : Nat) (o : LinkOffer) (s : State),
    (s.tick t).trains = true :=
  ⟨20000000001, ⟨true, true, false, 2, 4, 4, 16⟩, withLink (fun l => { l with protocol := 0, memActive := false }) up, by decide +kernel⟩

theorem witness_LinkTrainingOutcome_2 :
    ∃ (t : Nat) (o : LinkOffer) (s : State),
    (s.tick t).trains = true :=
  ⟨20000000001, ⟨false, true, false, 4, 2, 4, 16⟩, withLink (fun l => { l with protocol := 0, memActive := false }) up, by decide +kernel⟩

theorem witness_LinkTrainingOutcome_3 :
    ∃ (t : Nat) (o : LinkOffer) (s : State),
    (s.tick t).trains = false :=
  ⟨5, ⟨true, true, false, 4, 16, 4, 16⟩, up, by decide +kernel⟩

theorem witness_LinkTrainingOutcome_4 :
    ∃ s : State,
    s.trains = true :=
  ⟨withLink (fun l => { l with protocol := 0, memActive := false }) up, by decide +kernel⟩

theorem witness_LinkTrainingOutcome_5 :
    ∃ s : State,
    s.trains = false :=
  ⟨up, by decide +kernel⟩

theorem witness_LinkTrainingOutcome_6 :
    ∃ o : LinkOffer,
    o.mem = true ∧ o.flit256 = true ∧ 3 ≤ o.rate ∧ 4 ≤ o.width :=
  ⟨⟨true, true, false, 3, 4, 4, 16⟩, by decide +kernel⟩

theorem witness_LinkTrainingOutcome_7 :
    ∃ o : LinkOffer,
    o.mem = false :=
  ⟨⟨false, true, false, 4, 16, 4, 16⟩, by decide +kernel⟩

theorem witness_LinkTrainingOutcome_8 :
    ∃ o : LinkOffer,
    o.width < 4 :=
  ⟨⟨true, true, false, 4, 3, 4, 16⟩, by decide +kernel⟩

theorem witness_LinkTrainingOutcome_9 :
    ∃ o : LinkOffer,
    o.mem = true ∧ o.rate ≤ 2 ∧ 4 ≤ o.width :=
  ⟨⟨true, true, false, 2, 4, 4, 16⟩, by decide +kernel⟩

theorem witness_DecoderCommit_0 :
    ∃ (dec : Fin 4) (base size skip ways gran pos : Nat) (s : State),
    s.link.protocol ≠ 0 :=
  ⟨3, 0, 8192 * gib, 0, 1, 256, 0, up, by decide +kernel⟩

theorem witness_DecoderCommit_1 :
    ∃ (dec : Fin 4) (base size skip ways gran pos : Nat) (s : State),
    s.link.protocol ≠ 0 :=
  ⟨0, 0, 8193 * gib, 0, 1, 256, 0, up, by decide +kernel⟩

theorem witness_IdeStreams_0 :
    ∃ (t : Nat) (s : State),
    s.link.ideMem.isSome = true ∧ s.link.ideInsecureMem = false :=
  ⟨5, withLink (fun l => { l with ideMem := some 7 }) up, by decide +kernel⟩

theorem witness_IdeStreams_1 :
    ∃ (t : Nat) (s : State),
    s.link.ideIo.isSome = true ∧ s.link.ideInsecureIo = false :=
  ⟨5, withLink (fun l => { l with ideIo := some 7 }) up, by decide +kernel⟩

theorem witness_IdeStreams_2 :
    ∃ (key : Option IdeKey) (s : State),
    0 < s.link.spdmSessions ∧ s.link.protocol = 4 ∧ s.run.link.ide = true :=
  ⟨some ⟨9, true⟩, withLink (fun l => { l with spdmSessions := 1 }) up, by decide +kernel⟩

theorem witness_IdeStreams_3 :
    ∃ (key : Option IdeKey) (s : State),
    0 < s.link.spdmSessions ∧ s.link.protocol = 4 ∧ s.run.link.ide = true :=
  ⟨none, withLink (fun l => { l with spdmSessions := 1, ideLostMem := true }) up, by decide +kernel⟩

theorem witness_AttestationAnswers_0 :
    ∃ s : State,
    s.link.protocol ≠ 0 ∧ s.gRuns = true :=
  ⟨up, by decide +kernel⟩

theorem witness_AttestationAnswers_1 :
    ∃ s : State,
    s.link.protocol = 0 :=
  ⟨withLink (fun l => { l with protocol := 0 }) up, by decide +kernel⟩

theorem witness_ManagementBus_0 :
    ∃ s : State,
    s.pwr.inputs.vaux ≠ 0 :=
  ⟨up, by decide +kernel⟩

theorem witness_ManagementBus_1 :
    ∃ s : State,
    s.link.protocol ≠ 0 :=
  ⟨up, by decide +kernel⟩

theorem witness_ManagementBus_2 :
    ∃ (t : Nat) (s : State),
    s.link.protocol ≠ 0 :=
  ⟨5, up, by decide +kernel⟩

theorem witness_ManagementBus_4 :
    ∃ (t : Nat) (s : State),
    s.link.d3hot = true ∧ (s.tick t).staged = 0 ∧ s.qos.lastReqAt + 100 * msec ≤ max s.now t :=
  ⟨20100000000, withLink (fun l => { l with d3hot := true }) up, by decide +kernel⟩

theorem witness_ManagementBus_5 :
    ∃ s : State,
    s.run.link.aspmL1 = true ∧ s.link.protocol ≠ 0 :=
  ⟨up, by decide +kernel⟩

theorem witness_ManagementBus_6 :
    ∃ s : State,
    s.run.link.aspmL1 = false :=
  ⟨withRun (fun r => { r with link := { r.link with aspmL1 := false } }) up, by decide +kernel⟩

theorem witness_PowerUpSequence_0 :
    ∃ (t a : Nat) (s : State),
    s.inputsOk = true ∧ s.pwr.qualified = false ∧ s.pwr.okSince = some a ∧ a + 5 * msec ≤ max s.now t ∧ s.mayPowerUp = true ∧ (s.tick t).downRuns = false :=
  ⟨20000000001, 19995000001, offPwr (fun p => { p with qualified := false, okSince := some 19995000001 }), by decide +kernel⟩

theorem witness_PowerUpSequence_1 :
    ∃ (t a : Nat) (s : State),
    s.inputsOk = true ∧ s.pwr.qualified = false ∧ s.pwr.okSince = some a ∧ a + 5 * msec ≤ max s.now t ∧ s.pwr.sequence = 2 ∧ s.pwr.onHeld = false :=
  ⟨20000000001, 19995000000, withPwr (fun p => { p with qualified := false, sequence := 2, okSince := some 19995000000 }) up, by decide +kernel⟩

theorem witness_PowerUpSequence_2 :
    ∃ (t a : Nat) (s : State),
    s.pwr.okSince = some a ∧ max s.now t < a + 5 * msec :=
  ⟨20000000001, 19995000002, offPwr (fun p => { p with qualified := false, okSince := some 19995000002 }), by decide +kernel⟩

theorem witness_PowerUpSequence_3 :
    ∃ (t : Nat) (rail : Fin 14) (s : State),
    rail.val ≠ 0 ∧ s.pwr.sequence = 1 ∧ (s.rail rail.val).enabled = false ∧ s.pwr.common + 10000 * (s.slotOf rail.val).on ≤ max s.now t :=
  ⟨20001000000, 1, offPwr (fun p => { p with sequence := 1, common := 20000000000 }), by decide +kernel⟩

theorem witness_PowerUpSequence_4 :
    ∃ (t : Nat) (rail : Fin 14) (s : State),
    rail.val ≠ 0 ∧ s.pwr.sequence = 1 ∧ (s.rail rail.val).enabled = false ∧ s.pwr.common + 10000 * (s.slotOf rail.val).on ≤ max s.now t :=
  ⟨20015000000, 13, offPwr (fun p => { p with sequence := 1, common := 20000000000 }), by decide +kernel⟩

theorem witness_PowerUpSequence_5 :
    ∃ (t : Nat) (rail : Fin 14) (s : State),
    rail.val ≠ 0 ∧ s.pwr.sequence = 1 ∧ (s.rail rail.val).enabled = true ∧ (s.rail rail.val).pg = false ∧ (s.rail rail.val).enabledAt ≤ max s.now t ∧ 2 * (max s.now t - (s.rail rail.val).enabledAt) ≤ 10000 * (s.slotOf rail.val).pg :=
  ⟨20001000000, 13, withPwr (fun p => { p with sequence := 1, rails := setAt p.rails 13 { railOn with pg := false, enabledAt := 20000600000 } }) up, by decide +kernel⟩

theorem witness_PowerUpSequence_6 :
    ∃ (t : Nat) (rail : Fin 14) (s : State),
    rail.val ≠ 0 ∧ s.pwr.sequence = 1 ∧ (s.rail rail.val).enabled = true ∧ (s.rail rail.val).pg = false ∧ (s.rail rail.val).enabledAt ≤ max s.now t ∧ 2 * (max s.now t - (s.rail rail.val).enabledAt) ≤ 10000 * (s.slotOf rail.val).pg :=
  ⟨20001000000, 1, withPwr (fun p => { p with sequence := 1, rails := setAt (setAt p.rails 1 { railOn with pg := false, enabledAt := 20000600000 }) 2 Rail.atReset }) up, by decide +kernel⟩

theorem witness_PowerUpSequence_7 :
    ∃ (t e : Nat) (s : State),
    s.pwr.offUntil = some e ∧ e ≤ max s.now t :=
  ⟨20001000000, 20000000000, offPwr (fun p => { p with offUntil := some 20000000000, onHeld := true }), by decide +kernel⟩

theorem witness_PowerUpSequence_8 :
    ∃ (t e : Nat) (s : State),
    s.pwr.offUntil = some e ∧ max s.now t < e :=
  ⟨20001000000, 20002000000, offPwr (fun p => { p with offUntil := some 20002000000, onHeld := true }), by decide +kernel⟩

theorem witness_PowerDownSequence_0 :
    ∃ (t : Nat) (rail : Fin 14) (s : State),
    s.covers rail.val = true ∧ (s.rail rail.val).enabled = true ∧ (s.rail rail.val).pg = true ∧ s.pwr.common + 10000 * (s.slotOf rail.val).off ≤ max s.now t :=
  ⟨20001000000, 13, downPwr, by decide +kernel⟩

theorem witness_PowerDownSequence_1 :
    ∃ (t : Nat) (rail : Fin 14) (s : State),
    s.covers rail.val = true ∧ (s.rail rail.val).enabled = true ∧ (s.rail rail.val).pg = true ∧ s.pwr.common + 10000 * (s.slotOf rail.val).off ≤ max s.now t :=
  ⟨20021000000, 1, downPwr, by decide +kernel⟩

theorem witness_PowerDownSequence_2 :
    ∃ (t : Nat) (rail : Fin 14) (s : State),
    s.covers rail.val = true ∧ (s.rail rail.val).enabled = true ∧ (s.rail rail.val).pg = true :=
  ⟨20001000000, 1, downPwr, by decide +kernel⟩

theorem witness_PowerDownSequence_3 :
    ∃ (t : Nat) (rail : Fin 14) (s : State),
    s.covers rail.val = true ∧ (s.rail rail.val).enabled = false ∧ (s.rail rail.val).pg = true ∧ s.pwr.covered &&& ~~~(BitVec.twoPow 14 rail.val) ≠ 0 :=
  ⟨20001000000, 1, withPwr (fun p => { p with rails := setAt p.rails 1 { railOn with enabled := false } }) downPwr, by decide +kernel⟩

theorem witness_PowerDownSequence_4 :
    ∃ (t : Nat) (rail : Fin 14) (s : State),
    s.pwr.sequence = 1 ∧ (s.rail rail.val).enabled = true ∧ (s.rail rail.val).pg = false ∧ (s.rail rail.val).enabledAt + 10000 * (s.slotOf rail.val).pg ≤ max s.now t :=
  ⟨20021000000, 1, withPwr (fun p => { p with sequence := 1, attempts := 1, rails := setAt p.rails 1 { railOn with pg := false, enabledAt := 20000600000 } }) up, by decide +kernel⟩

theorem witness_PowerDownSequence_5 :
    ∃ (t : Nat) (rail : Fin 14) (s : State),
    s.pwr.sequence = 1 ∧ (s.rail rail.val).enabled = true ∧ (s.rail rail.val).pg = false ∧ (s.rail rail.val).enabledAt + 10000 * (s.slotOf rail.val).pg ≤ max s.now t :=
  ⟨20021000000, 13, withPwr (fun p => { p with sequence := 1, attempts := 2, rails := setAt p.rails 13 { railOn with pg := false, enabledAt := 20000600000 } }) up, by decide +kernel⟩

theorem witness_PowerDownSequence_6 :
    ∃ (t : Nat) (rail : Fin 14) (s : State),
    s.pwr.sequence = 0 :=
  ⟨5, 1, up, by decide +kernel⟩

theorem witness_RailLossActions_0 :
    ∃ (t : Nat) (rail : Fin 14) (b : Bool) (s : State),
    rail.val ≠ 0 ∧ rail.val < 13 ∧ s.pwr.sequence = 0 ∧ s.fab.fatal = false ∧ (s.rail rail.val).enabled = true ∧ (s.rail rail.val).pg = true :=
  ⟨20000000001, 1, true, up, by decide +kernel⟩

theorem witness_RailLossActions_1 :
    ∃ (t : Nat) (rail : Fin 14) (b : Bool) (s : State),
    rail.val ≠ 0 ∧ rail.val < 13 ∧ s.pwr.sequence = 0 ∧ s.fab.fatal = false ∧ (s.rail rail.val).enabled = true ∧ (s.rail rail.val).pg = true :=
  ⟨20000000001, 3, false, up, by decide +kernel⟩

theorem witness_RailLossActions_2 :
    ∃ (t : Nat) (rail : Fin 14) (b : Bool) (s : State),
    rail.val ≠ 0 ∧ rail.val < 13 ∧ s.pwr.sequence = 0 ∧ s.fab.fatal = false ∧ (s.rail rail.val).enabled = true ∧ (s.rail rail.val).pg = true :=
  ⟨20000000001, 4, false, up, by decide +kernel⟩

theorem witness_RailLossActions_3 :
    ∃ (t : Nat) (rail : Fin 14) (b : Bool) (s : State),
    rail.val ≠ 0 ∧ rail.val < 13 ∧ s.pwr.sequence = 0 ∧ s.fab.fatal = false ∧ (s.rail rail.val).enabled = true ∧ (s.rail rail.val).pg = true :=
  ⟨20000000001, 5, false, up, by decide +kernel⟩

theorem witness_RailLossActions_4 :
    ∃ (t : Nat) (rail : Fin 14) (b : Bool) (s : State),
    rail.val ≠ 0 ∧ rail.val < 13 ∧ s.pwr.sequence = 0 ∧ s.fab.fatal = false ∧ (s.rail rail.val).enabled = true ∧ (s.rail rail.val).pg = true :=
  ⟨20000000001, 6, false, up, by decide +kernel⟩

theorem witness_RailLossActions_5 :
    ∃ (t : Nat) (rail : Fin 14) (b : Bool) (s : State),
    rail.val ≠ 0 ∧ rail.val < 13 ∧ s.pwr.sequence = 0 ∧ s.fab.fatal = false ∧ (s.rail rail.val).enabled = true ∧ (s.rail rail.val).pg = true :=
  ⟨20000000001, 12, true, up, by decide +kernel⟩

theorem witness_RailLossActions_6 :
    ∃ (t : Nat) (b : Bool) (s : State),
    s.pwr.sequence = 0 ∧ (s.rail 13).enabled = true ∧ (s.rail 13).pg = true :=
  ⟨20000000001, true, up, by decide +kernel⟩

theorem witness_RailLossActions_7 :
    ∃ (t : Nat) (b : Bool) (s : State),
    s.pwr.inputs.vaux ≠ 0 :=
  ⟨20000000001, true, up, by decide +kernel⟩

theorem witness_RailLossActions_8 :
    ∃ (t : Nat) (rail : Fin 14) (b : Bool) (s : State),
    rail.val ≠ 0 ∧ (s.rail rail.val).enabled = false :=
  ⟨5, 1, false, offPwr id, by decide +kernel⟩

theorem witness_InputsAndBrake_0 :
    ∃ (t : Nat) (i : Inputs) (s : State),
    s.pwr.inputs.vaux ≠ 0 ∧ s.pfl.dump.isSome = true ∧ s.railsOff = false :=
  ⟨20000000001, ⟨12000, 12000, 3300, 0⟩, dumping, by decide +kernel⟩

theorem witness_InputsAndBrake_1 :
    ∃ (t : Nat) (i : Inputs) (s : State),
    s.pwr.inputs.vaux ≠ 0 ∧ s.pfl.dump.isSome = true ∧ s.railsOff = false :=
  ⟨20000000001, ⟨0, 0, 0, 0⟩, dumping, by decide +kernel⟩

theorem witness_InputsAndBrake_2 :
    ∃ (t : Nat) (i : Inputs) (s : State),
    s.pwr.inputs.vaux ≠ 0 ∧ s.pfl.dump.isSome = false ∧ s.railsOff = false ∧ s.pwr.sequence = 0 ∧ i.v33 ≤ 3000 ∧ s.thm.heldAt = none :=
  ⟨20000000001, ⟨12000, 12000, 3000, 0⟩, up, by decide +kernel⟩

theorem witness_InputsAndBrake_3 :
    ∃ (t : Nat) (i : Inputs) (s : State),
    s.pwr.inputs.vaux ≠ 0 ∧ s.pfl.dump.isSome = false ∧ s.railsOff = false ∧ s.pwr.sequence = 0 ∧ i.v33 ≤ 3000 ∧ s.thm.heldAt = none :=
  ⟨20000000001, ⟨0, 12000, 0, 3300⟩, up, by decide +kernel⟩

theorem witness_InputsAndBrake_4 :
    ∃ (t : Nat) (i : Inputs) (s : State),
    s.pwr.inputs.vaux = 0 :=
  ⟨5, ⟨12000, 12000, 3300, 3300⟩, State.reset, by decide +kernel⟩

theorem witness_InputsAndBrake_5 :
    ∃ (t : Nat) (s : State),
    s.pwr.brake = none ∧ s.pfl.dump = none ∧ s.thm.stopping = none ∧ s.railsOff = false :=
  ⟨20000000001, up, by decide +kernel⟩

theorem witness_InputsAndBrake_6 :
    ∃ (t b : Nat) (s : State),
    s.pwr.brake = some b :=
  ⟨20090000000, 20000000000, withPwr (fun p => { p with brake := some 20000000000 }) up, by decide +kernel⟩

theorem witness_InputsAndBrake_7 :
    ∃ (t : Nat) (s : State),
    (s.pwr.brake ≠ none ∨ s.pfl.dump ≠ none ∨ s.thm.stopping ≠ none) :=
  ⟨5, dumping, by decide +kernel⟩

theorem witness_ThermalCommands_0 :
    ∃ (t : Nat) (i : Fin 64) (c sl : Int) (s : State),
    s.pwr.inputs.vaux ≠ 0 ∧ s.sensorFitted i.val = true :=
  ⟨5, 0, 120, 30, up, by decide +kernel⟩

theorem witness_ThermalCommands_1 :
    ∃ (t : Nat) (i : Fin 64) (c sl : Int) (s : State),
    s.pwr.inputs.vaux ≠ 0 ∧ s.sensorFitted i.val = true :=
  ⟨5, 63, -40, 0, up, by decide +kernel⟩

theorem witness_ThermalCommands_2 :
    ∃ (t : Nat) (c sl : Int) (s : State),
    s.pwr.inputs.vaux ≠ 0 ∧ (s.sensor 63).broken = false ∧ deviates c (s.usable 63) = false :=
  ⟨5, 20, 1, up, by decide +kernel⟩

theorem witness_ThermalCommands_3 :
    ∃ (t : Nat) (i : Fin 64) (c sl : Int) (s : State),
    s.pwr.inputs.vaux = 0 :=
  ⟨5, 0, 20, 1, State.reset, by decide +kernel⟩

theorem witness_ThermalCommands_4 :
    ∃ (t t0 : Nat) (s : State),
    s.thm.stopping = some t0 ∧ s.pfl.flush = none ∧ s.pfl.clean = true ∧ s.pfl.flushStart + 1000000 ≤ max s.now t :=
  ⟨20001000000, 7, withThm (fun h => { h with stopping := some 7 }) (withPfl (fun p => { p with flushStart := 20000000000 }) up), by decide +kernel⟩

theorem witness_ThermalCommands_5 :
    ∃ (t t0 : Nat) (s : State),
    s.thm.stopping = some t0 ∧ s.pfl.flush ≠ none :=
  ⟨20001000000, 7, withThm (fun h => { h with stopping := some 7 }) (withPfl (fun p => { p with flush := some 6 }) up), by decide +kernel⟩

theorem witness_ThermalCommands_6 :
    ∃ (t h : Nat) (s : State),
    s.thm.heldAt = some h ∧ h + 10000000000 ≤ max s.now t ∧ s.boot.perst = false ∧ s.inputsOk = true ∧ s.pwr.qualified = true ∧ s.pwr.sequence = 0 ∧ s.railsOff = true :=
  ⟨20001000000, 10001000000, withThm (fun h => { h with heldAt := some 10001000000 }) (offPwr id), by decide +kernel⟩

theorem witness_HostResets_0 :
    ∃ (t : Nat) (s : State),
    s.link.protocol ≠ 0 ∧ s.pfl.dump.isSome = false :=
  ⟨5, up, by decide +kernel⟩

theorem witness_HostResets_1 :
    ∃ (t : Nat) (s : State),
    s.cxlUp = true ∧ s.pfl.dump.isSome = false :=
  ⟨5, up, by decide +kernel⟩

theorem witness_HostResets_2 :
    ∃ (t : Nat) (s : State),
    s.pwr.inputs.vaux ≠ 0 ∧ s.boot.recovery = false ∧ s.gRuns = true ∧ s.pfl.dump.isSome = false :=
  ⟨5, up, by decide +kernel⟩

theorem witness_HostResets_3 :
    ∃ (t : Nat) (s : State),
    s.pwr.inputs.vaux ≠ 0 ∧ s.boot.recovery = false ∧ s.gRuns = false :=
  ⟨5, withBoot (fun b => { b with complete := false }) up, by decide +kernel⟩

theorem witness_HostResets_4 :
    ∃ (t : Nat) (s : State),
    s.pfl.dump.isSome = true :=
  ⟨5, dumping, by decide +kernel⟩

theorem witness_VauxCommands_0 :
    ∃ (t : Nat) (s : State),
    s.pwr.inputs.vaux = 0 ∧ s.tly.queue = [] :=
  ⟨5, State.reset, by decide +kernel⟩

theorem witness_VauxCommands_1 :
    ∃ (t : Nat) (s : State),
    s.pwr.inputs.vaux ≠ 0 :=
  ⟨5, up, by decide +kernel⟩

theorem witness_VauxCommands_2 :
    ∃ (t : Nat) (s : State),
    s.pwr.inputs.vaux ≠ 0 :=
  ⟨5, up, by decide +kernel⟩

theorem witness_VauxCommands_3 :
    ∃ (t : Nat) (s : State),
    s.pwr.inputs.vaux = 0 :=
  ⟨5, State.reset, by decide +kernel⟩

theorem witness_PerstAndStart_0 :
    ∃ (t : Nat) (s : State),
    s.boot.perst = false ∧ s.pfl.dump.isSome = false ∧ s.boot.complete = true ∧ s.railsOn = true ∧ s.pwr.sequence = 0 ∧ s.pfl.flush = none :=
  ⟨5, up, by decide +kernel⟩

theorem witness_PerstAndStart_1 :
    ∃ (t : Nat) (s : State),
    s.boot.perst = false ∧ s.pfl.dump.isSome = true :=
  ⟨5, dumping, by decide +kernel⟩

theorem witness_PerstAndStart_2 :
    ∃ (t : Nat) (s : State),
    s.boot.perst = true :=
  ⟨5, withBoot (fun b => { b with perst := true }) up, by decide +kernel⟩

theorem witness_PerstAndStart_3 :
    ∃ (t : Nat) (s : State),
    s.boot.perst = true ∧ s.pfl.dump = none ∧ s.thm.stopping = none ∧ s.railsOn = true ∧ s.pwr.sequence = 0 ∧ s.boot.running = false ∧ s.boot.hold = false ∧ s.boot.recovery = false ∧ s.thm.recheck = false :=
  ⟨5, withBoot (fun b => { b with perst := true }) up, by decide +kernel⟩

theorem witness_PerstAndStart_4 :
    ∃ (t : Nat) (s : State),
    s.boot.perst = true ∧ s.pfl.dump = none ∧ s.thm.stopping = none ∧ s.railsOn = true ∧ s.pwr.sequence = 0 ∧ s.boot.running = false ∧ s.boot.hold = false ∧ s.boot.recovery = false ∧ s.thm.recheck = false :=
  ⟨5, withBoot (fun b => { b with perst := true, cold := true }) (withPfl (fun p => { p with wt := some (0, 7) }) up), by decide +kernel⟩

theorem witness_PerstAndStart_5 :
    ∃ (t : Nat) (s : State),
    s.boot.perst = true ∧ s.pfl.dump = none ∧ s.thm.stopping = none ∧ s.railsOff = true ∧ s.railsOn = false ∧ s.pwr.sequence = 0 ∧ s.inputsOk = true ∧ s.pwr.qualified = true ∧ s.pwr.offUntil = none ∧ s.thm.heldAt = none :=
  ⟨5, withBoot (fun b => { b with perst := true }) (offPwr id), by decide +kernel⟩

theorem witness_PerstAndStart_6 :
    ∃ (t : Nat) (s : State),
    s.boot.perst = false :=
  ⟨5, up, by decide +kernel⟩

theorem witness_BootSteps_0 :
    ∃ (t : Nat) (b : BootIn) (s : State),
    s.boot.running = false ∧ s.mayStart = true ∧ s.thm.recheck = false :=
  ⟨5, default, withBoot (fun b => { b with complete := false, step := 0 }) up, by decide +kernel⟩

theorem witness_BootSteps_1 :
    ∃ (t : Nat) (b : BootIn) (s : State),
    s.boot.running = true ∧ s.boot.step = 1 ∧ s.thm.recheck = false :=
  ⟨20000000001, default, withBoot (fun b => { b with complete := false, running := true, step := 1 }) up, by decide +kernel⟩

theorem witness_BootSteps_2 :
    ∃ (t : Nat) (b : BootIn) (s : State),
    s.boot.running = true ∧ s.boot.step = 11 ∧ s.ring.joined = false :=
  ⟨5, default, withBoot (fun b => { b with complete := false, running := true, step := 11 }) up, by decide +kernel⟩

theorem witness_BootSteps_3 :
    ∃ (t : Nat) (b : BootIn) (s : State),
    s.boot.running = true ∧ s.boot.step = 13 :=
  ⟨20000000001, default, withBoot (fun b => { b with complete := false, running := true, step := 13 }) (withLink (fun l => { l with memActive := false }) up), by decide +kernel⟩

theorem witness_BootSteps_4 :
    ∃ (t : Nat) (b : BootIn) (s : State),
    s.boot.running = false ∧ s.boot.complete = true :=
  ⟨5, default, up, by decide +kernel⟩

theorem witness_AfterTheStart_0 :
    ∃ (t : Nat) (s : State),
    s.link.scanRunning = true :=
  ⟨5, withLink (fun l => { l with scanRunning := true }) up, by decide +kernel⟩

theorem witness_AfterTheStart_1 :
    ∃ (t : Nat) (s : State),
    s.link.scanRunning = false :=
  ⟨5, up, by decide +kernel⟩

theorem witness_AfterTheStart_2 :
    ∃ s : State,
    s.boot.complete = true ∧ s.boot.saveExtents = true ∧ s.gRuns = true :=
  ⟨withBoot (fun b => { b with saveExtents := true }) { up with key := { up.key with extents := [{ noExtent with units := 3 }] } }, by decide +kernel⟩

theorem witness_AfterTheStart_3 :
    ∃ s : State,
    s.boot.saveExtents = false :=
  ⟨up, by decide +kernel⟩

theorem witness_AfterTheStart_4 :
    ∃ (t : Nat) (s : State),
    s.pfl.dump = none ∧ s.coreOn = true ∧ s.pwr.sequence = 0 ∧ s.boot.running = false ∧ s.boot.complete = true :=
  ⟨20000000001, up, by decide +kernel⟩

theorem witness_AfterTheStart_5 :
    ∃ (t : Nat) (s : State),
    s.pfl.dump = none ∧ s.coreOn = true ∧ s.pwr.sequence = 0 ∧ s.boot.running = true :=
  ⟨20000000001, withBoot (fun b => { b with complete := false, running := true, step := 7 }) up, by decide +kernel⟩

theorem witness_AfterTheStart_6 :
    ∃ (t : Nat) (s : State),
    s.pfl.dump.isSome = true :=
  ⟨5, dumping, by decide +kernel⟩

theorem witness_PowerFailureBegins_0 :
    ∃ (t i : Nat) (s : State),
    s.pfl.dump = none ∧ s.pwr.sequence = 0 ∧ s.railsOff = false ∧ s.fab.restarts = [] ∧ s.dumpSlot = some i ∧ s.boot.complete = true ∧ s.cch.fills = [] :=
  ⟨20000000001, 0, up, by decide +kernel⟩

theorem witness_PowerFailureBegins_1 :
    ∃ (t : Nat) (s : State),
    s.pfl.dump = none ∧ s.pwr.sequence = 0 ∧ s.railsOff = false ∧ s.fab.restarts = [] ∧ s.dumpSlot = none :=
  ⟨20000000001, withPfl (fun p => { p with slots := setAt p.slots 0 { DumpSlot.atReset with st := 4 } }) up, by decide +kernel⟩

theorem witness_PowerFailureBegins_2 :
    ∃ (t : Nat) (s : State),
    s.pfl.dump = none ∧ s.pwr.sequence = 0 ∧ s.railsOff = false ∧ s.fab.restarts ≠ [] :=
  ⟨20000000001, { up with fab := { up.fab with restarts := [default] } }, by decide +kernel⟩

theorem witness_PowerFailureBegins_3 :
    ∃ (t : Nat) (s : State),
    s.pfl.dump.isSome = true :=
  ⟨20000000001, dumping, by decide +kernel⟩

theorem witness_DumpWrites_0 :
    ∃ (t : Nat) (p : DumpPart) (d : Dump) (s : State),
    s.pfl.dump = some d ∧ d.stage = dumpStage p :=
  ⟨20000000001, .header, ⟨0, 0, 20000000000, 0, 0, none⟩, dumping, by decide +kernel⟩

theorem witness_DumpWrites_1 :
    ∃ (t : Nat) (p : DumpPart) (d : Dump) (s : State),
    s.pfl.dump = some d ∧ d.stage = dumpStage p :=
  ⟨20000000001, .headDirectory, ⟨1, 0, 20000000000, 1, 0, none⟩, withPfl (fun p => { p with dump := some ⟨1, 0, 20000000000, 1, 0, none⟩ }) staged1, by decide +kernel⟩

theorem witness_DumpWrites_2 :
    ∃ (t : Nat) (p : DumpPart) (d : Dump) (s : State),
    s.pfl.dump = some d ∧ d.stage = dumpStage p :=
  ⟨20000000001, .nearLines, ⟨1, 0, 20000000000, 2, 0, none⟩, withPfl (fun p => { p with dump := some ⟨1, 0, 20000000000, 2, 0, none⟩ }) staged1, by decide +kernel⟩

theorem witness_DumpWrites_3 :
    ∃ (t : Nat) (p : DumpPart) (d : Dump) (s : State),
    s.pfl.dump = some d ∧ d.stage = dumpStage p :=
  ⟨20000000001, .tailDirectory, ⟨1, 0, 20000000000, 7, 0, none⟩, withPfl (fun p => { p with dump := some ⟨1, 0, 20000000000, 7, 0, none⟩ }) up, by decide +kernel⟩

theorem witness_DumpWrites_4 :
    ∃ (t : Nat) (p : DumpPart) (d : Dump) (s : State),
    s.pfl.dump = some d ∧ d.stage ≠ dumpStage p :=
  ⟨20000000001, .integrity, ⟨0, 0, 20000000000, 0, 0, none⟩, dumping, by decide +kernel⟩

theorem witness_DumpWrites_6 :
    ∃ (t e : Nat) (d : Dump) (s : State),
    s.pfl.dump = some d ∧ d.stage = 8 :=
  ⟨20000000001, 900, ⟨1, 0, 20000000000, 8, 0, none⟩, withPfl (fun p => { p with dump := some ⟨1, 0, 20000000000, 8, 0, none⟩ }) up, by decide +kernel⟩

theorem witness_DumpWrites_7 :
    ∃ (t e : Nat) (d : Dump) (s : State),
    s.pfl.dump = some d ∧ d.stage ≠ 8 :=
  ⟨20000000001, 900, ⟨1, 0, 20000000000, 7, 0, none⟩, withPfl (fun p => { p with dump := some ⟨1, 0, 20000000000, 7, 0, none⟩ }) up, by decide +kernel⟩

theorem witness_DumpWrites_8 :
    ∃ (t : Nat) (d : Dump) (s : State),
    s.pfl.dump = some d ∧ d.cause = 0 ∧ d.inputBack = none :=
  ⟨20000000001, ⟨0, 0, 20000000000, 0, 0, none⟩, dumping, by decide +kernel⟩

theorem witness_DumpWrites_9 :
    ∃ (t : Nat) (s : State),
    s.pfl.dump = none :=
  ⟨20000000001, up, by decide +kernel⟩

theorem witness_FlushHomeAndGpf_0 :
    ∃ (t f : Nat) (s : State),
    s.pfl.flush = some f ∧ s.flushed = true :=
  ⟨20000000001, 7, withPfl (fun p => { p with flush := some 7 }) up, by decide +kernel⟩

theorem witness_FlushHomeAndGpf_1 :
    ∃ (t f : Nat) (s : State),
    s.pfl.flush = some f ∧ s.flushed = false :=
  ⟨20000000001, 7, withPfl (fun p => { p with flush := some 7 }) staged1, by decide +kernel⟩

theorem witness_FlushHomeAndGpf_2 :
    ∃ (t : Nat) (i : Fin 2) (s : State),
    (s.slotD i.val).st = 0 ∧ s.boot.complete = true ∧ s.railsOn = true ∧ s.pfl.dump = none :=
  ⟨20000000001, 1, withPfl (fun p => { p with slots := setAt p.slots 1 DumpSlot.atReset }) up, by decide +kernel⟩

theorem witness_FlushHomeAndGpf_3 :
    ∃ (t : Nat) (i : Fin 2) (s : State),
    (s.slotD i.val).st ≠ 0 :=
  ⟨20000000001, 1, up, by decide +kernel⟩

theorem witness_FlushHomeAndGpf_4 :
    ∃ s : State,
    s.cxlUp = true :=
  ⟨up, by decide +kernel⟩

theorem witness_FlushHomeAndGpf_5 :
    ∃ s : State,
    s.cxlUp = false :=
  ⟨offPwr id, by decide +kernel⟩

theorem witness_WriteThroughAndBudget_0 :
    ∃ (t i : Nat) (k : BitVec 37) (d : DumpLine) (s : State),
    s.pfl.slots.findIdx? (fun d => d.st == 4) = some i ∧ s.writeThrough = true ∧ s.pfl.dump = none ∧ s.link.maint = [] ∧ s.logWaiters k.toNat ≠ [] ∧ i < s.pfl.slots.length ∧ s.mergedLine k.toNat (largest ((s.slotD i).lines.map (·.part)) + 1) = some d :=
  ⟨20000000001, 0, 0, ⟨0, 5, false, false, false, 0, 1, false⟩, logging, by decide +kernel⟩

theorem witness_WriteThroughAndBudget_1 :
    ∃ (t i : Nat) (s : State),
    s.pfl.slots.findIdx? (fun d => d.st == 4) = some i ∧ s.writeThrough = true :=
  ⟨20000000001, 0, logging, by decide +kernel⟩

theorem witness_WriteThroughAndBudget_2 :
    ∃ (t : Nat) (l : List (BitVec 37)) (s : State),
    s.writeThrough = false :=
  ⟨5, [0], up, by decide +kernel⟩

theorem witness_WriteThroughAndBudget_3 :
    ∃ (t : Nat) (r : StoreRead) (s : State),
    s.pfl.dump = none :=
  ⟨20000000001, ⟨24000, 25⟩, up, by decide +kernel⟩

theorem witness_WriteThroughAndBudget_4 :
    ∃ (t : Nat) (r : StoreRead) (s : State),
    s.pfl.dump = none :=
  ⟨20000000001, ⟨12000, -10⟩, up, by decide +kernel⟩

theorem witness_WriteThroughAndBudget_5 :
    ∃ (t : Nat) (r : StoreRead) (s : State),
    s.pfl.dump = none ∧ s.boot.complete = true ∧ s.pfl.wt = none ∧ s.slotArmed = true ∧ State.newBudget { s with pfl := { s.pfl with vstore := r.mv, tempC := r.tempC } } < 256 * mib :=
  ⟨20000000001, ⟨14000, 25⟩, up, by decide +kernel⟩

theorem witness_StoreTestRuns_0 :
    ∃ (t : Nat) (s : State),
    s.boot.complete = true ∧ s.pfl.dump = none ∧ s.pfl.test = none ∧ s.testIsDue = true ∧ s.testDefers = false :=
  ⟨20000000001, withPfl (fun p => { p with lastResult := 0 }) up, by decide +kernel⟩

theorem witness_StoreTestRuns_1 :
    ∃ (t mv : Nat) (x : StoreTest) (s : State),
    s.pfl.test = some x ∧ x.phase = 0 ∧ s.staged ≤ s.pfl.budget ∧ 24000 ≤ mv :=
  ⟨20000000001, 24000, ⟨0, 1, 20000000000, 0, 0, 0, 0⟩, testing ⟨0, 1, 20000000000, 0, 0, 0, 0⟩, by decide +kernel⟩

theorem witness_StoreTestRuns_2 :
    ∃ (t mv : Nat) (x : StoreTest) (s : State),
    s.pfl.test = some x ∧ x.phase = 1 ∧ x.loadAt + 1000000 ≤ max s.now t :=
  ⟨20001000000, 23920, ⟨1, 1, 20000000000, 20000000000, 24000, 0, 0⟩, testing ⟨1, 1, 20000000000, 20000000000, 24000, 0, 0⟩, by decide +kernel⟩

theorem witness_StoreTestRuns_3 :
    ∃ (t : Nat) (x : StoreTest) (s : State),
    s.pfl.test = some x ∧ x.phase = 2 :=
  ⟨20337500000, ⟨2, 1, 20000000000, 20000000000, 24000, 400, 0⟩, testing ⟨2, 1, 20000000000, 20000000000, 24000, 400, 0⟩, by decide +kernel⟩

theorem witness_StoreTestRuns_4 :
    ∃ (t mv : Nat) (x : StoreTest) (s : State),
    s.pfl.test = some x ∧ x.phase = 3 ∧ 24000 ≤ mv ∧ x.esr ≤ 3000 ∧ 256 ≤ budgetMib s.coef (storeEnergy x.cap x.esr 24000) (derate s.pfl.tempC) :=
  ⟨20337500000, 24000, ⟨3, 1, 20000000000, 20000000000, 24000, 400, 2250⟩, testing ⟨3, 1, 20000000000, 20000000000, 24000, 400, 2250⟩, by decide +kernel⟩

theorem witness_StoreTestRuns_5 :
    ∃ (t : Nat) (x : StoreTest) (s : State),
    s.pfl.test = some x ∧ x.phase = 0 ∧ x.t0 + 30000000000 ≤ max s.now t ∧ s.pfl.wt = none :=
  ⟨50000000000, ⟨0, 1, 20000000000, 0, 0, 0, 0⟩, testing ⟨0, 1, 20000000000, 0, 0, 0, 0⟩, by decide +kernel⟩

theorem witness_StoreTestRuns_6 :
    ∃ (t mv : Nat) (s : State),
    s.pfl.test = none :=
  ⟨5, 24000, up, by decide +kernel⟩

theorem witness_OddAccesses_0 :
    ∃ (off size : Nat) (v : Word64) (s : State),
    s.link.protocol ≠ 0 ∧ ¬ (size = 8 ∧ off % 8 = 0) ∧ ¬ (size = 4 ∧ off % 4 = 0) :=
  ⟨0xF0000, 2, 0xFFFF, up, by decide +kernel⟩

theorem witness_OddAccesses_1 :
    ∃ (off size : Nat) (v : Word64) (s : State),
    s.link.protocol ≠ 0 ∧ ¬ (size = 8 ∧ off % 8 = 0) ∧ ¬ (size = 4 ∧ off % 4 = 0) :=
  ⟨0xF0004, 8, 0xFFFF, up, by decide +kernel⟩

theorem witness_OddAccesses_2 :
    ∃ (off size : Nat) (v : Word64) (s : State),
    s.link.protocol ≠ 0 ∧ ¬ (size = 8 ∧ off % 8 = 0) ∧ ¬ (size = 4 ∧ off % 4 = 0) :=
  ⟨0xF0002, 4, 0xFFFF, up, by decide +kernel⟩

theorem witness_ReservedBits_0 :
    ∃ (off i c : Nat) (r : RegRow) (s : State),
    regAt off = some (r, c) ∧ (∀ f ∈ r.flds, i < f.lo ∨ f.hi < i) :=
  ⟨0xF0000, 63, 0, ⟨0xF0000, 0, 1, .function, [EVT_VEC_MASK.mask]⟩, up, by decide +kernel⟩

theorem witness_ReservedBits_1 :
    ∃ (off : Nat) (s : State),
    regAt off = none :=
  ⟨0x90, up, by decide +kernel⟩

theorem witness_ReservedBits_2 :
    ∃ (off c : Nat) (r : RegRow) (v w : Word64) (s : State),
    off % 8 = 0 ∧ regAt off = some (r, c) ∧ (∀ f ∈ r.flds, ∀ i : Fin 64, f.lo ≤ i.val → i.val ≤ f.hi → v.getLsbD i.val = w.getLsbD i.val) :=
  ⟨0xF0000, 0, ⟨0xF0000, 0, 1, .function, [EVT_VEC_MASK.mask]⟩, 0x3, 0xFFFFFFFF00000003, up, by decide +kernel⟩

theorem witness_AccessCodes_0 :
    ∃ (f : Fld) (c v : Nat) (s : State),
    f.acc = .rw ∧ f.lo ≤ f.hi ∧ f.hi ≤ 63 :=
  ⟨EVT_VEC_MASK.mask, 0, 0x40, up, by decide +kernel⟩

theorem witness_AccessCodes_1 :
    ∃ (f : Fld) (c v : Nat) (s : State),
    f.acc = .w1c ∧ f.lo ≤ f.hi ∧ f.hi ≤ 63 ∧ s.reg f c < f.size :=
  ⟨QOS_SUSPEND.missed, 0, 0x80, up, by decide +kernel⟩

theorem witness_AccessCodes_2 :
    ∃ (f : Fld) (c v : Nat) (s : State),
    f.acc = .w1s ∧ f.lo ≤ f.hi ∧ f.hi ≤ 63 ∧ s.reg f c < f.size :=
  ⟨ECC_FLIP_CTRL.arm, 0, 0x100, up, by decide +kernel⟩

theorem witness_AccessCodes_3 :
    ∃ (f : Fld) (c lo hi v : Nat) (s : State),
    (f.acc = .ro ∨ f.acc = .rc) :=
  ⟨TQ_STATUS.dropped, 0, 0, 63, 9, up, by decide +kernel⟩

theorem witness_AccessCodes_4 :
    ∃ (f : Fld) (c v : Nat) (s : State),
    32 ≤ f.lo ∧ f.lo ≤ f.hi :=
  ⟨TQ_STATUS.dropped, 0, 9, up, by decide +kernel⟩

theorem witness_AccessCodes_5 :
    ∃ (f : Fld) (c v : Nat) (s : State),
    f.lo ≤ f.hi ∧ f.hi ≤ 31 :=
  ⟨TQ_STATUS.remainders, 0, 9, up, by decide +kernel⟩

theorem witness_AccessCodes_6 :
    ∃ (f : Fld) (c : Nat) (s : State),
    f.acc = .wo :=
  ⟨RING_DOORBELL.epoch, 0, up, by decide +kernel⟩

theorem witness_AccessCodes_7 :
    ∃ (off lo hi c : Nat) (r : RegRow) (f : Fld) (s : State),
    regAt off = some (r, c) ∧ f ∈ r.flds ∧ f.acc = .rc ∧ lo ≤ f.lo ∧ f.hi ≤ hi :=
  ⟨0xD0028, 0, 63, 0, ⟨0xD0028, 0, 1, .function, [TQ_STATUS.dropped, TQ_STATUS.remainders, TQ_STATUS.open_bytes]⟩, TQ_STATUS.dropped, up.bump TQ_STATUS.dropped, by decide +kernel⟩

theorem witness_RegisterCommands_0 :
    ∃ (i : Fin 24) (v : Word64) (s : State),
    s.link.protocol ≠ 0 :=
  ⟨0, 0xFFFFFFFFFFFFFFFF, up, by decide +kernel⟩

theorem witness_RegisterCommands_1 :
    ∃ (i : Fin 24) (v : Word64) (s : State),
    s.link.protocol ≠ 0 :=
  ⟨23, 5, up, by decide +kernel⟩

theorem witness_RegisterCommands_2 :
    ∃ (s : State),
    s.link.protocol ≠ 0 :=
  ⟨(up.bump TQ_STATUS.dropped).bump TQ_STATUS.remainders, by decide +kernel⟩

theorem witness_RegisterCommands_3 :
    ∃ (t : Nat) (n : Fin 32) (s : State),
    s.link.protocol ≠ 0 ∧ 5 ≤ n.val :=
  ⟨20000000001, 5, up.setReg EVT_VEC_MASK.mask 3, by decide +kernel⟩

theorem witness_RegisterCommands_4 :
    ∃ (t : Nat) (n : Fin 32) (s : State),
    s.link.protocol ≠ 0 ∧ 5 ≤ n.val :=
  ⟨20000000001, 31, up, by decide +kernel⟩

theorem witness_RegisterCommands_5 :
    ∃ (n : Fin 64) (m : Word64) (s : State),
    s.link.protocol ≠ 0 ∧ s.reg PFL_SUSPECT.suspect n.val < 2 ^ 64 :=
  ⟨63, 3, up.setReg PFL_SUSPECT.suspect 7 63, by decide +kernel⟩

theorem witness_RegisterCommands_6 :
    ∃ s : State,
    s.link.protocol ≠ 0 ∧ flipOk s s.flipFromRegs = true :=
  ⟨((up.setReg ECC_FLIP_CTRL.target 1).setReg ECC_FLIP_MASK_LO.mask_lo 1), by decide +kernel⟩

theorem witness_RegisterCommands_7 :
    ∃ s : State,
    s.link.protocol ≠ 0 ∧ flipOk s s.flipFromRegs = false :=
  ⟨up, by decide +kernel⟩

theorem witness_RegisterCommands_8 :
    ∃ s : State,
    s.link.protocol ≠ 0 :=
  ⟨up.setReg ECC_FLIP_CTRL.target 1, by decide +kernel⟩

theorem witness_RegisterCommands_9 :
    ∃ (off n : Nat) (b : Bool) (v : Word64) (s : State),
    s.link.protocol ≠ 0 :=
  ⟨0x104, 4, true, 0x400000, withLink (fun l => { l with aerUnc := 0x500000 }) up, by decide +kernel⟩

theorem witness_RegisterCommands_10 :
    ∃ (off n : Nat) (b : Bool) (x : TqLine) (s : State),
    s.link.protocol ≠ 0 ∧ n ≤ 8 ∧ Tab.find s.tq.lines (off / 64) = some x :=
  ⟨64, 8, true, default, { up with tq := { up.tq with lines := [(1, default)] } }, by decide +kernel⟩

theorem witness_RecorderCommands_0 :
    ∃ (x : Rec) (r : List Rec) (s : State),
    s.recd.staging = x :: r ∧ s.canLog = true :=
  ⟨rec1, [], { up with recd := { up.recd with staging := [rec1], nextSeq := 2, newest := some rec1 } }, by decide +kernel⟩

theorem witness_RecorderCommands_1 :
    ∃ s : State,
    s.recd.staging = [] :=
  ⟨up, by decide +kernel⟩

theorem witness_RecorderCommands_2 :
    ∃ s : State,
    s.canLog = false :=
  ⟨State.reset, by decide +kernel⟩

theorem witness_RecorderCommands_3 :
    ∃ (n : Rec) (s : State),
    s.canLog = true ∧ s.recd.newest = some n ∧ s.recd.heldRepeats ≠ 0 :=
  ⟨{ rec1 with repeats := 3 }, { up with recd := { up.recd with stored := [rec1], nextSeq := 2, newest := some { rec1 with repeats := 3 }, heldRepeats := 3 } }, by decide +kernel⟩

theorem witness_RecorderCommands_4 :
    ∃ s : State,
    s.canLog = true ∧ s.recd.heldRepeats = 0 :=
  ⟨up, by decide +kernel⟩

theorem witness_TelemetryQueue_0 :
    ∃ s : State,
    s.link.protocol ≠ 0 ∧ s.tq.openWords ≠ [] ∧ s.tq.openWords.length < 7 :=
  ⟨{ up with tq := { up.tq with openWords := [1, 2, 3], openSince := some 5, head := 1048575 } }, by decide +kernel⟩

theorem witness_TelemetryQueue_1 :
    ∃ s : State,
    s.tq.openWords = [] :=
  ⟨up, by decide +kernel⟩

theorem witness_TelemetryQueue_2 :
    ∃ (t t0 : Nat) (s : State),
    s.tq.openSince = some t0 ∧ s.tq.openWords ≠ [] ∧ t0 + s.readFld TQ_TIMEOUT.timeout_us 0 * 1000 ≤ max s.now t :=
  ⟨20000001000, 5, { up with tq := { up.tq with openWords := [1, 2, 3, 4, 5, 6], openSince := some 5 } }, by decide +kernel⟩

theorem witness_TelemetryQueue_3 :
    ∃ (t : Nat) (s : State),
    s.tq.openSince = none :=
  ⟨20000001000, up, by decide +kernel⟩

theorem witness_TelemetryQueue_4 :
    ∃ (n : Nat) (s : State),
    s.link.protocol ≠ 0 ∧ n < 1048576 ∧ s.tq.tail ≤ n ∧ n ≤ s.tq.head ∧ s.tq.head < 1048576 :=
  ⟨2, { up with tq := { up.tq with tail := 1, head := 3, lines := [(1, default), (2, default)] } }, by decide +kernel⟩

theorem witness_TelemetryQueue_5 :
    ∃ (n : Nat) (s : State),
    s.link.protocol ≠ 0 ∧ n < 1048576 ∧ s.tq.tail ≤ n ∧ n ≤ s.tq.head ∧ s.tq.head < 1048576 :=
  ⟨1048575, { up with tq := { up.tq with tail := 1, head := 1048575, lines := [(1, default), (2, default)] } }, by decide +kernel⟩

theorem witness_TelemetryQueue_6 :
    ∃ (n : Nat) (s : State),
    1048576 ≤ n :=
  ⟨1048576, up, by decide +kernel⟩

theorem witness_CounterCommands_1 :
    ∃ (t : Nat) (n : Fin 64) (s : State),
    s.pmuOn = true ∧ s.reg PMU_CFG.enable n.val = 1 ∧ s.reg PMU_CNT.count n.val = 2 ^ 48 - 1 ∧ s.reg PMU_CFG.ovf_irq n.val = 0 ∧ cfgError (s.reg PMU_CFG.select n.val) (s.reg PMU_CFG.tp2_mode n.val) (s.reg PMU_CFG.level n.val) = false :=
  ⟨5, 63, (((up.setReg PMU_CTRL.enable 1).setReg PMU_CFG.enable 1 63).setReg PMU_CFG.select 2 63).setReg PMU_CNT.count (2 ^ 48 - 1) 63, by decide +kernel⟩

theorem witness_CounterCommands_2 :
    ∃ (t : Nat) (n : Fin 64) (s : State),
    s.reg PMU_CNT.count n.val < 2 ^ 48 - 1 :=
  ⟨5, 63, up, by decide +kernel⟩

theorem witness_CounterCommands_3 :
    ∃ s : State,
    s.pmuOn = false :=
  ⟨up, by decide +kernel⟩

theorem witness_CounterCommands_4 :
    ∃ s : State,
    s.pmuOn = true :=
  ⟨up.setReg PMU_CTRL.enable 1, by decide +kernel⟩

theorem witness_TallyCopies_0 :
    ∃ r : TallyRow,
    r.a.valid = true ∧ r.b.valid = false :=
  ⟨⟨⟨true, 1, []⟩, ⟨false, 2, []⟩, false⟩, by decide +kernel⟩

theorem witness_TallyCopies_1 :
    ∃ r : TallyRow,
    r.a.valid = false ∧ r.b.valid = true :=
  ⟨⟨⟨false, 1, []⟩, ⟨true, 0, []⟩, false⟩, by decide +kernel⟩

theorem witness_TallyCopies_2 :
    ∃ r : TallyRow,
    r.a.valid = true ∧ r.b.valid = true :=
  ⟨⟨⟨true, 1, []⟩, ⟨true, 2, []⟩, false⟩, by decide +kernel⟩

theorem witness_TallyCopies_3 :
    ∃ r : TallyRow,
    r.a.valid = true ∧ r.b.valid = true :=
  ⟨⟨⟨true, 1, [1]⟩, ⟨true, 1, [2]⟩, false⟩, by decide +kernel⟩

theorem witness_TallyCopies_4 :
    ∃ r : TallyRow,
    r.a.valid = false ∧ r.b.valid = false :=
  ⟨⟨⟨false, 1, []⟩, ⟨false, 2, []⟩, false⟩, by decide +kernel⟩

theorem witness_TallyCopies_5 :
    ∃ (p n : Nat) (s : State),
    (s.row p n).reported = false ∧ (s.row p n).clash = true :=
  ⟨1, 0, { up with tly := { up.tly with rows := [(4096, ⟨⟨true, 1, [1]⟩, ⟨true, 1, [2]⟩, false⟩)] } }, by decide +kernel⟩

theorem witness_TallyCopies_6 :
    ∃ (p n : Nat) (s : State),
    (s.row p n).reported = false ∧ (s.row p n).pick = 255 :=
  ⟨1, 0, { up with tly := { up.tly with rows := [(4096, ⟨⟨false, 1, [1]⟩, ⟨false, 1, [2]⟩, false⟩)] } }, by decide +kernel⟩

theorem witness_TallyCopies_7 :
    ∃ (r : TallyRow) (d : Bytes),
    r.pick ≠ 255 :=
  ⟨⟨⟨true, 1, []⟩, ⟨true, 0, []⟩, false⟩, [1], by decide +kernel⟩

theorem witness_TallyCopies_8 :
    ∃ (r : TallyRow) (d : Bytes),
    r.pick ≠ 255 :=
  ⟨⟨⟨true, 1, []⟩, ⟨true, 2, []⟩, false⟩, [1], by decide +kernel⟩

theorem witness_TallyCopies_9 :
    ∃ (r : TallyRow) (d : Bytes),
    r.pick ≠ 255 :=
  ⟨⟨⟨true, 1, []⟩, ⟨true, 2, []⟩, false⟩, [1], by decide +kernel⟩

theorem witness_TallyRowWrites_0 :
    ∃ (t : Nat) (w : RowWrite) (s : State),
    s.tly.running = some w ∧ s.tly.queue = [] ∧ w.owner = 0 ∧ s.flip.armed = none :=
  ⟨5, ⟨6, 1, 0, [1], 0, 0⟩, { up with tly := { up.tly with running := some ⟨6, 1, 0, [1], 0, 0⟩ } }, by decide +kernel⟩

theorem witness_TallyRowWrites_1 :
    ∃ (t : Nat) (s : State),
    s.tly.running = none :=
  ⟨5, up, by decide +kernel⟩

theorem witness_TallyRowWrites_2 :
    ∃ (t : Nat) (w : RowWrite) (s : State),
    s.tly.running = none ∧ s.tly.queue = [w] ∧ w.rank ≤ 6 :=
  ⟨5, ⟨6, 1, 0, [1], 0, 0⟩, { up with tly := { up.tly with queue := [⟨6, 1, 0, [1], 0, 0⟩], deferred := true } }, by decide +kernel⟩

theorem witness_TallyRowWrites_3 :
    ∃ (t : Nat) (b : Bool) (s : State),
    s.tly.deferred = true :=
  ⟨5, true, { up with tly := { up.tly with queue := [⟨6, 1, 0, [1], 0, 0⟩], deferred := true } }, by decide +kernel⟩

theorem witness_TallyRowWrites_4 :
    ∃ (t mv : Nat) (w : RowWrite) (s : State),
    s.tly.deferred = true ∧ s.tly.deferEvent = false ∧ s.tly.queue = [w] ∧ w.rank ≤ 6 ∧ s.link.wait = none ∧ s.tly.deferredAt + 100000000 ≤ max s.now t :=
  ⟨20000000001, 3000, ⟨6, 1, 0, [1], 0, 0⟩, { up with tly := { up.tly with queue := [⟨6, 1, 0, [1], 0, 0⟩], deferred := true } }, by decide +kernel⟩

theorem witness_TallyRowWrites_5 :
    ∃ (t : Nat) (l : List (Nat × Nat)) (r : List (Nat × Nat × Nat)) (s : State),
    720 ≤ s.tly.lapHours ∧ s.tly.running = none :=
  ⟨5, [(1, 0)], [(1, 0, 0)], { up with tly := { up.tly with lapHours := 720 } }, by decide +kernel⟩

theorem witness_TallyRowWrites_6 :
    ∃ (r : TallyRow),
    r.pick ≠ 255 :=
  ⟨⟨⟨true, 1, []⟩, ⟨true, 2, [5]⟩, false⟩, by decide +kernel⟩

theorem witness_TallyRowWrites_7 :
    ∃ (t : Nat) (l : List (Nat × Nat)) (r : List (Nat × Nat × Nat)) (s : State),
    s.tly.lapHours < 720 :=
  ⟨5, [], [], up, by decide +kernel⟩

theorem witness_TallyRowWrites_8 :
    ∃ (w : RowWrite) (s : State),
    s.canLog = true ∧ s.tly.running = some w :=
  ⟨⟨6, 1, 0, [1], 0, 0⟩, { up with tly := { up.tly with running := some ⟨6, 1, 0, [1], 0, 0⟩ } }, by decide +kernel⟩

theorem witness_TallyRowWrites_9 :
    ∃ s : State,
    s.canLog = false :=
  ⟨State.reset, by decide +kernel⟩

theorem witness_FabricEscalation_0 :
    ∃ (t : Nat) (r : Fin 9) (b : Nat) (d : Bool) (s : State),
    s.coreOn = true ∧ b < 64 ∧ s.isFenced r.val = false ∧ s.restarting r.val = false :=
  ⟨5, 8, 63, true, up, by decide +kernel⟩

theorem witness_FabricEscalation_1 :
    ∃ (t : Nat) (r : Fin 9) (b : Nat) (d : Bool) (s : State),
    s.coreOn = true ∧ b < 64 ∧ s.isFenced r.val = false ∧ s.restarting r.val = false ∧ Tab.find s.fab.blocks (blockKey r.val b) = none :=
  ⟨5, 0, 0, false, up, by decide +kernel⟩

theorem witness_FabricEscalation_2 :
    ∃ (t : Nat) (r : Fin 9) (b n a e : Nat) (d : Bool) (s : State),
    s.coreOn = true ∧ b < 64 ∧ s.isFenced r.val = false ∧ s.fab.restarts = [] ∧ s.fab.queue = [] ∧ s.pfl.dump = none ∧ r.val ≠ 0 ∧ Tab.find s.fab.ready r.val = none ∧ Tab.find s.fab.blocks (blockKey r.val b) = some ⟨n, a, some e⟩ ∧ max s.now t < e + msec :=
  ⟨20000000001, 4, 7, 3, 19999999999, 20000000000, false, { up with fab := { up.fab with blocks := [(blockKey 4 7, ⟨3, 19999999999, some 20000000000⟩)] } }, by decide +kernel⟩

theorem witness_FabricEscalation_3 :
    ∃ (t : Nat) (r : Fin 9) (b n a e : Nat) (d : Bool) (s : State),
    s.coreOn = true ∧ b < 64 ∧ s.isFenced r.val = false ∧ s.fab.restarts = [] ∧ s.fab.queue = [] ∧ s.pfl.dump = none ∧ r.val ≠ 0 ∧ Tab.find s.fab.ready r.val = none ∧ Tab.find s.fab.blocks (blockKey r.val b) = some ⟨n, a, some e⟩ ∧ max s.now t < e + msec :=
  ⟨20000999999, 4, 7, 3, 19999999999, 20000000000, true, { up with fab := { up.fab with blocks := [(blockKey 4 7, ⟨3, 19999999999, some 20000000000⟩)] } }, by decide +kernel⟩

theorem witness_FabricEscalation_4 :
    ∃ (t : Nat) (r : Fin 9) (b n a : Nat) (s : State),
    Tab.find s.fab.blocks (blockKey r.val b) = some ⟨n, a, none⟩ ∧ max s.now t ≤ a + 20 * usec :=
  ⟨20000020000, 4, 7, 3, 20000000000, { up with fab := { up.fab with blocks := [(blockKey 4 7, ⟨3, 20000000000, none⟩)] } }, by decide +kernel⟩

theorem witness_FabricEscalation_5 :
    ∃ (t : Nat) (r : Fin 9) (b n a : Nat) (k : Bool) (s : State),
    Tab.find s.fab.blocks (blockKey r.val b) = some ⟨n, a, none⟩ ∧ (k = false ∨ a + 20 * usec < max s.now t) ∧ s.coreOn = true ∧ s.isFenced r.val = false ∧ s.fab.restarts = [] ∧ s.fab.queue = [] ∧ s.pfl.dump = none ∧ r.val ≠ 0 ∧ Tab.find s.fab.ready r.val = none :=
  ⟨20000000001, 4, 7, 3, 20000000000, false, { up with fab := { up.fab with blocks := [(blockKey 4 7, ⟨3, 20000000000, none⟩)] } }, by decide +kernel⟩

theorem witness_FabricEscalation_6 :
    ∃ (t : Nat) (r : Fin 9) (b n a : Nat) (k : Bool) (s : State),
    Tab.find s.fab.blocks (blockKey r.val b) = some ⟨n, a, none⟩ ∧ (k = false ∨ a + 20 * usec < max s.now t) ∧ s.coreOn = true ∧ s.isFenced r.val = false ∧ s.fab.restarts = [] ∧ s.fab.queue = [] ∧ s.pfl.dump = none ∧ r.val ≠ 0 ∧ Tab.find s.fab.ready r.val = none :=
  ⟨20000020001, 4, 7, 3, 20000000000, true, { up with fab := { up.fab with blocks := [(blockKey 4 7, ⟨3, 20000000000, none⟩)] } }, by decide +kernel⟩

theorem witness_FabricEscalation_7 :
    ∃ (t : Nat) (e : Fin 64) (s : State),
    s.coreOn = true ∧ s.isFenced (engineRegion e.val) = false ∧ s.restarting (engineRegion e.val) = false ∧ s.fab.expiries = [] :=
  ⟨5, 62, up, by decide +kernel⟩

theorem witness_FabricEscalation_8 :
    ∃ (t : Nat) (e : Fin 64) (s : State),
    s.coreOn = true ∧ s.isFenced (engineRegion e.val) = false ∧ s.restarting (engineRegion e.val) = false ∧ s.fab.expiries = [] :=
  ⟨5, 0, up, by decide +kernel⟩

theorem witness_FabricEscalation_9 :
    ∃ (t x y : Nat) (e : Fin 64) (s : State),
    s.coreOn = true ∧ s.isFenced (engineRegion e.val) = false ∧ s.fab.restarts = [] ∧ s.fab.queue = [] ∧ s.pfl.dump = none ∧ Tab.find s.fab.ready (engineRegion e.val) = none ∧ s.fab.expiries = [(e.val, x), (e.val, y)] ∧ max s.now t < x + sec ∧ max s.now t < y + sec :=
  ⟨20000000001, 19999999999, 20000000000, 47, { up with fab := { up.fab with expiries := [(47, 19999999999), (47, 20000000000)] } }, by decide +kernel⟩

theorem witness_FabricEscalation_10 :
    ∃ (t : Nat) (r : Fin 9) (b : Nat) (k : StallKind) (e : Fin 64) (s : State),
    s.coreOn = false :=
  ⟨5, 3, 9, .blockReset true, 8, State.reset, by decide +kernel⟩

theorem witness_FabricEscalation_11 :
    ∃ (t : Nat) (r : Fin 9) (b : Nat) (k : Bool) (s : State),
    Tab.find s.fab.blocks (blockKey r.val b) = none :=
  ⟨5, 3, 9, true, up, by decide +kernel⟩

theorem witness_FabricEscalation_12 :
    ∃ (t : Nat) (r : Fin 9) (b : Nat) (d : Bool) (s : State),
    s.coreOn = true ∧ b < 64 ∧ s.isFenced r.val = false ∧ s.restarting r.val = false :=
  ⟨5, 1, 9, true, up, by decide +kernel⟩

theorem witness_RegionRestarts_0 :
    ∃ (t : Nat) (r : Fin 9) (a : Nat) (s : State),
    s.fab.restarts = [⟨r.val, false, a⟩] ∧ s.fab.queue = [] ∧ r.val ≠ 1 ∧ max s.now t ≤ a + 200 * usec :=
  ⟨20000200000, 8, 20000000000, { up with fab := { up.fab with restarts := [⟨8, false, 20000000000⟩] } }, by decide +kernel⟩

theorem witness_RegionRestarts_1 :
    ∃ (t : Nat) (r : Fin 9) (a : Nat) (s : State),
    s.fab.restarts = [⟨r.val, false, a⟩] ∧ s.fab.queue = [] ∧ r.val ≠ 1 ∧ max s.now t ≤ a + 200 * usec :=
  ⟨20000000005, 2, 20000000000, { up with fab := { up.fab with restarts := [⟨2, false, 20000000000⟩] } }, by decide +kernel⟩

theorem witness_RegionRestarts_2 :
    ∃ (t a : Nat) (s : State),
    s.fab.restarts = [⟨1, false, a⟩] ∧ s.fab.queue = [] ∧ max s.now t ≤ a + 200 * usec :=
  ⟨20000000005, 20000000000, { up with fab := { up.fab with restarts := [⟨1, false, 20000000000⟩] }, link := { up.link with background := some ⟨0x4400, 0, .primary⟩ } }, by decide +kernel⟩

theorem witness_RegionRestarts_3 :
    ∃ (t : Nat) (r : Fin 9) (a : Nat) (s : State),
    s.fab.restarts = [⟨r.val, false, a⟩] ∧ s.fab.failed = [] ∧ a + 200 * usec ≤ max s.now t :=
  ⟨20000200000, 6, 20000000000, { up with fab := { up.fab with restarts := [⟨6, false, 20000000000⟩] } }, by decide +kernel⟩

theorem witness_RegionRestarts_4 :
    ∃ (t : Nat) (r : Fin 9) (a f : Nat) (s : State),
    s.isFenced r.val = false ∧ s.fab.restarts = [⟨r.val, false, a⟩] ∧ s.fab.failed = [(r.val, f)] ∧ max s.now t < f + 3600 * sec ∧ a + 200 * usec ≤ max s.now t :=
  ⟨20000200000, 6, 20000000000, 20000000000, { up with fab := { up.fab with restarts := [⟨6, false, 20000000000⟩], failed := [(6, 20000000000)] } }, by decide +kernel⟩

theorem witness_RegionRestarts_5 :
    ∃ (t : Nat) (r : Fin 9) (a f : Nat) (s : State),
    s.isFenced r.val = false ∧ s.fab.restarts = [⟨r.val, false, a⟩] ∧ s.fab.failed = [(r.val, f)] ∧ max s.now t < f + 3600 * sec ∧ a + 200 * usec ≤ max s.now t :=
  ⟨20000200000, 3, 20000000000, 20000000000, { up with fab := { up.fab with restarts := [⟨3, false, 20000000000⟩], failed := [(3, 20000000000)] } }, by decide +kernel⟩

theorem witness_RegionRestarts_6 :
    ∃ (t : Nat) (r : Fin 9) (s : State),
    s.fab.restarts = [] :=
  ⟨5, 3, up, by decide +kernel⟩

theorem witness_PaceControl_0 :
    ∃ (t c : Nat) (r : Fin 9) (l : List Nat) (s : State),
    s.coreOn = true ∧ s.fab.pace = List.replicate 9 c ∧ s.fab.heatHold = [] ∧ s.qos.cls.all (fun x => x.level == 0) = true ∧ r.val ≠ 0 ∧ c < s.paceCap :=
  ⟨5, 0, 4, [400], up, by decide +kernel⟩

theorem witness_PaceControl_1 :
    ∃ (t c : Nat) (r : Fin 9) (l : List Nat) (s : State),
    s.coreOn = true ∧ s.fab.pace = List.replicate 9 c ∧ s.fab.heatHold = [] ∧ s.qos.cls.all (fun x => x.level == 0) = true ∧ r.val ≠ 0 ∧ c < s.paceCap :=
  ⟨5, 34, 8, [], { up with fab := { up.fab with pace := List.replicate 9 34 } }, by decide +kernel⟩

theorem witness_PaceControl_2 :
    ∃ (t c : Nat) (l : List Nat) (s : State),
    s.coreOn = true ∧ s.fab.pace = List.replicate 9 c ∧ s.qos.cls.all (fun x => x.level == 0) = true ∧ (s.tick t).paceRelaxed = true ∧ 0 < c :=
  ⟨5, 1, [], { up with fab := { up.fab with pace := List.replicate 9 1 } }, by decide +kernel, by decide +kernel, by decide +kernel, relaxed_idle rfl (by decide +kernel), by decide⟩

theorem witness_PaceControl_3 :
    ∃ (t c : Nat) (l : List Nat) (s : State),
    s.coreOn = true ∧ s.fab.pace = List.replicate 9 c ∧ s.qos.cls.all (fun x => x.level == 0) = true ∧ s.paceCap < c :=
  ⟨5, 36, [], { up with fab := { up.fab with pace := List.replicate 9 36 } }, by decide +kernel⟩

theorem witness_PaceControl_4 :
    ∃ (t : Nat) (p : PaceIn) (s : State),
    s.coreOn = true :=
  ⟨5, ⟨511, [35, 35, 35, 35, 35, 35, 35, 35, 35], []⟩, up, by decide +kernel⟩

theorem witness_PaceControl_5 :
    ∃ (t : Nat) (p : PaceIn) (s : State),
    s.coreOn = false :=
  ⟨5, ⟨0, [], []⟩, State.reset, by decide +kernel⟩

theorem witness_ClassesAndEnvelope_0 :
    ∃ (t : Nat) (n : Fin 8) (s : State),
    s.link.memActive = true ∧ s.qos.cls.length = 8 :=
  ⟨5, 7, up, by decide +kernel⟩

theorem witness_ClassesAndEnvelope_1 :
    ∃ (t : Nat) (n : Fin 8) (s : State),
    s.link.memActive = true ∧ s.qos.cls.length = 8 ∧ (s.clsState n.val).recent = [] ∧ (s.clsState n.val).winStart + s.windowNs n.val ≤ max s.now t :=
  ⟨5, 7, up, by decide +kernel⟩

theorem witness_ClassesAndEnvelope_2 :
    ∃ (t a x : Nat) (n : Fin 8) (s : State),
    s.link.memActive = true ∧ s.qos.cls.length = 8 ∧ (s.clsState n.val).recent = List.replicate 100 ⟨a, x, false⟩ ∧ (s.clsState n.val).winStart ≤ a ∧ a < (s.clsState n.val).winStart + s.windowNs n.val ∧ (s.clsState n.val).winStart + s.windowNs n.val ≤ max s.now t ∧ (s.classEntry n.val).target < x ∧ (s.clsState n.val).suspended = false :=
  ⟨5, 5, 2000000, 3, { up with qos := { up.qos with cls := setAt up.qos.cls 3 { ClsState.init with recent := List.replicate 100 ⟨5, 2000000, false⟩ } } }, by decide +kernel⟩

theorem witness_ClassesAndEnvelope_3 :
    ∃ (t : Nat) (s : State),
    s.qos.cls.length = 8 :=
  ⟨5, up, by decide +kernel⟩

theorem witness_ClassesAndEnvelope_4 :
    ∃ (t : Nat) (s : State),
    s.qos.cls.length = 8 :=
  ⟨5, { up with run := { up.run with classes := List.replicate 8 { defaultClass with guarRead := 60000, guarWrite := 100 } } }, by decide +kernel⟩

theorem witness_ClassesAndEnvelope_5 :
    ∃ (t h n : Nat) (s : State),
    s.qos.cls.length = 8 ∧ s.qos.holdStart = some h ∧ h + 100 * msec ≤ max s.now t ∧ s.candidate = some n ∧ s.candidateFits = true :=
  ⟨20000000000, 0, 3, { up with qos := { up.qos with rEnv := 100, wEnv := 100, holdStart := some 0, cls := setAt up.qos.cls 3 { ClsState.init with suspended := true } } }, by decide +kernel⟩

theorem witness_ClassesAndEnvelope_6 :
    ∃ (t : Nat) (n : Fin 8) (s : State),
    s.link.memActive = false :=
  ⟨5, 0, State.reset, by decide +kernel⟩

theorem witness_ClassesAndEnvelope_7 :
    ∃ (t : Nat) (s : State),
    s.qos.holdStart = none :=
  ⟨5, up, by decide +kernel⟩

theorem witness_MemoryReads_0 :
    ∃ (t : Nat) (hpa : BitVec 64) (r : Req) (x : NearSlot) (s : State),
    admits s t hpa.toNat r = true ∧ r.write = false ∧ plainLine s (r.dpa.toNat / 64) = true ∧ s.nearAt (r.dpa.toNat / 256) = some x ∧ x.badTags = 0 ∧ x.badData = 0 ∧ x.filling = false :=
  ⟨20000000005, 0, rq 20000000005 0 false 0 0, near0, staged1, by decide +kernel⟩

theorem witness_MemoryReads_1 :
    ∃ (t : Nat) (hpa : BitVec 64) (r : Req) (x : NearSlot) (s : State),
    admits s t hpa.toNat r = true ∧ r.write = false ∧ plainLine s (r.dpa.toNat / 64) = true ∧ s.nearAt (r.dpa.toNat / 256) = some x ∧ x.badTags = 0 ∧ x.badData = 0 ∧ x.filling = false :=
  ⟨20000000005, 77, rq 20000000005 64 false 0 0, near0, staged1, by decide +kernel⟩

theorem witness_MemoryReads_2 :
    ∃ (t : Nat) (hpa : BitVec 64) (r : Req) (s : State),
    admits s t hpa.toNat r = true ∧ r.write = false ∧ plainLine s (r.dpa.toNat / 64) = true ∧ Tab.find s.cch.near (nearIx (r.dpa.toNat / 256)) = none ∧ s.evictAt (r.dpa.toNat / 256) = none ∧ Tab.find s.cch.board (s.boardIx (r.dpa.toNat / 256)) = none ∧ s.wbAt (r.dpa.toNat / 256) = none ∧ s.inOverlay (r.dpa.toNat / 256) = false ∧ s.noData (r.dpa.toNat / 16384) = true :=
  ⟨20000000005, 0x7FFFFFFFFFF, rq 20000000005 0x7FFFFFFFFC0 false 0 0, up, by decide +kernel⟩

theorem witness_MemoryReads_3 :
    ∃ (t : Nat) (hpa : BitVec 64) (r : Req) (b : BoardSlot) (s : State),
    admits s t hpa.toNat r = true ∧ r.write = false ∧ plainLine s (r.dpa.toNat / 64) = true ∧ Tab.find s.cch.near (nearIx (r.dpa.toNat / 256)) = none ∧ s.evictAt (r.dpa.toNat / 256) = none ∧ s.boardAt (r.dpa.toNat / 256) = some b ∧ b.corrected = false ∧ b.badTags = 0 ∧ b.badData = 0 ∧ b.badRest = false ∧ b.gone = 0 ∧ s.fillAt (r.dpa.toNat / 256) = none :=
  ⟨20000000005, 0, rq 20000000005 0 false 0 0, slot0, boarded, by decide +kernel⟩

theorem witness_MemoryReads_4 :
    ∃ (t : Nat) (hpa : BitVec 64) (r : Req) (s : State),
    admits s t hpa.toNat r = true ∧ r.write = false ∧ s.lockedUnit (unitOfLine (r.dpa.toNat / 64)) = true :=
  ⟨20000000005, 0, rq 20000000005 0 false 0 0, { up with key := { up.key with slots := [] } }, by decide +kernel⟩

theorem witness_MemoryReads_5 :
    ∃ (t a : Nat) (hpa : BitVec 64) (s : State),
    s.cxlUp = true ∧ s.link.ideBlocked = false ∧ s.heldKind false + 1 < 1024 ∧ s.thm.stopping = none ∧ s.memReady = true ∧ s.decodeHpa hpa.toNat = some a ∧ s.qos.ingress.any (fun q => q.cls == s.classAt (a / 64 * 64)) = true :=
  ⟨20000000005, 0, 0, heldRead, by decide +kernel⟩

theorem witness_MemoryReads_6 :
    ∃ (t : Nat) (hpa : BitVec 64) (s : State),
    s.cxlUp = true ∧ s.link.ideBlocked = false ∧ s.heldKind false < 1024 ∧ s.thm.stopping = none ∧ (s.memReady = false ∨ s.decodeHpa hpa.toNat = none) :=
  ⟨20000000005, 0, withLink (fun l => { l with memActive := false }) up, by decide +kernel⟩

theorem witness_MemoryReads_7 :
    ∃ (t : Nat) (hpa : BitVec 64) (s : State),
    s.cxlUp = true ∧ s.link.ideBlocked = false ∧ s.heldKind false < 1024 ∧ s.thm.stopping = none ∧ (s.memReady = false ∨ s.decodeHpa hpa.toNat = none) :=
  ⟨20000000005, 0x80000000000, up, by decide +kernel⟩

theorem witness_MemoryReads_8 :
    ∃ (t : Nat) (hpa : BitVec 64) (s : State),
    (s.cxlUp = false ∨ s.link.ideBlocked = true ∨ 1024 ≤ s.heldKind false) :=
  ⟨20000000005, 0, withLink (fun l => { l with ideLostIo := true }) up, by decide +kernel⟩

theorem witness_MemoryReads_9 :
    ∃ (t : Nat) (r : Req) (x : NearSlot) (s : State),
    s.link.maint = [] ∧ s.memReady = true ∧ s.nextHeld = some r ∧ r.write = false ∧ s.qos.pause = none ∧ s.link.selfRefresh = false ∧ plainLine s (r.dpa.toNat / 64) = true ∧ s.nearAt (r.dpa.toNat / 256) = some x ∧ x.badTags = 0 ∧ x.badData = 0 ∧ x.filling = false ∧ s.link.viral = false :=
  ⟨20000000005, rq 19999999000 0 false 0 0, near0, heldRead, by decide +kernel⟩

theorem witness_MemoryReads_10 :
    ∃ (t : Nat) (s : State),
    s.link.maint = [] ∧ s.link.viral = false ∧ (s.memReady = false ∨ s.nextHeld = none) :=
  ⟨20000000005, up, by decide +kernel⟩

theorem witness_MemoryReads_11 :
    ∃ (t : Nat) (r : Req) (q : List Req) (s : State),
    s.link.maint = [] ∧ s.link.viral = true ∧ s.qos.ingress = r :: q ∧ s.qos.pause = none :=
  ⟨20000000005, rq 19999999000 0 false 0 0, [], withLink (fun l => { l with viral := true }) heldRead, by decide +kernel⟩

theorem witness_MemoryReads_12 :
    ∃ (t : Nat) (r : Req) (q : List Req) (s : State),
    s.link.maint = [] ∧ s.link.viral = true ∧ s.qos.ingress = r :: q ∧ s.qos.pause = none :=
  ⟨20000000005, rq 19999999000 0 true 0 1, [], withLink (fun l => { l with viral := true }) { heldRead with qos := { heldRead.qos with ingress := [rq 19999999000 0 true 0 1] } }, by decide +kernel⟩

theorem witness_MemoryReads_13 :
    ∃ (t : Nat) (l : BitVec 35) (f : Fill) (x : NearSlot) (b : BoardSlot) (c : Ctx) (s : State),
    s.fillAt l.toNat = some f ∧ f.src = .board ∧ f.after = [] ∧ f.macBad = 0 ∧ s.link.maint = [] ∧ s.link.viral = false ∧ s.fab.fatal = false ∧ s.regionHolds 4 = false ∧ s.nearAt l.toNat = some x ∧ x.filling = true ∧ x.badTags = 0 ∧ x.badData = 0 ∧ s.evictAt l.toNat = none ∧ s.boardAt l.toNat = some b ∧ b.corrected = false ∧ b.badTags = 0 ∧ b.badData = 0 ∧ b.badRest = false ∧ b.gone = 0 ∧ s.waiters l.toNat = [c] :=
  ⟨20000000005, 0, fill0, { near0 with filling := true, mask := 255 }, slot0, ⟨rq 20000000000 0 false 0 0, none, .board, 0, 0, false⟩, filling, by decide +kernel⟩

theorem witness_MemoryReads_14 :
    ∃ (t : Nat) (l : BitVec 35) (n : NearUpset) (b : BoardUpset) (s : State),
    s.fillAt l.toNat = none :=
  ⟨20000000005, 0, ⟨0, 0, 0⟩, ⟨false, 0, 0, 0, false, 0, false⟩, up, by decide +kernel⟩

theorem witness_MemoryWrites_0 :
    ∃ (t : Nat) (hpa : BitVec 64) (r : Req) (x : NearSlot) (s : State),
    admits s t hpa.toNat r = true ∧ r.write = true ∧ plainLine s (r.dpa.toNat / 64) = true ∧ s.nearAt (r.dpa.toNat / 256) = some x ∧ x.badTags = 0 ∧ s.pfl.clean = false ∧ s.flip.armed = none :=
  ⟨20000000005, 0, rq 20000000005 0 true 3 1, near0, unclean staged1, by decide +kernel⟩

theorem witness_MemoryWrites_1 :
    ∃ (t : Nat) (hpa : BitVec 64) (r : Req) (x : NearSlot) (s : State),
    admits s t hpa.toNat r = true ∧ r.write = true ∧ plainLine s (r.dpa.toNat / 64) = true ∧ s.nearAt (r.dpa.toNat / 256) = some x ∧ x.badTags = 0 ∧ s.pfl.clean = false ∧ s.flip.armed = none :=
  ⟨20000000005, 0xC0, rq 20000000005 0xC0 true 3 0xFFFFFFFFFFFFFFFF, near0, unclean staged1, by decide +kernel⟩

theorem witness_MemoryWrites_2 :
    ∃ (t : Nat) (hpa : BitVec 64) (r : Req) (s : State),
    admits s t hpa.toNat r = true ∧ r.write = true ∧ plainLine s (r.dpa.toNat / 64) = true ∧ Tab.find s.cch.near (nearIx (r.dpa.toNat / 256)) = none ∧ s.evictAt (r.dpa.toNat / 256) = none ∧ Tab.find s.cch.board (s.boardIx (r.dpa.toNat / 256)) = none ∧ s.wbAt (r.dpa.toNat / 256) = none ∧ s.inOverlay (r.dpa.toNat / 256) = false ∧ s.noData (r.dpa.toNat / 16384) = true ∧ s.pfl.clean = false ∧ s.flip.armed = none :=
  ⟨20000000005, 0, rq 20000000005 0 true 3 1, unclean up, by decide +kernel⟩

theorem witness_MemoryWrites_3 :
    ∃ (t : Nat) (hpa : BitVec 64) (r : Req) (s : State),
    admits s t hpa.toNat r = true ∧ r.write = true ∧ s.fab.fatal = false ∧ Tab.find s.cch.near (nearIx (r.dpa.toNat / 256)) = none ∧ (s.fro = true ∨ s.lockedUnit (unitOfLine (r.dpa.toNat / 64)) = true) :=
  ⟨20000000005, 0, rq 20000000005 0 true 3 1, readOnly, by decide +kernel⟩

theorem witness_MemoryWrites_4 :
    ∃ (t : Nat) (hpa : BitVec 64) (r : Req) (s : State),
    admits s t hpa.toNat r = true ∧ r.write = true ∧ s.fab.fatal = false ∧ Tab.find s.cch.near (nearIx (r.dpa.toNat / 256)) = none ∧ (s.fro = true ∨ s.lockedUnit (unitOfLine (r.dpa.toNat / 64)) = true) :=
  ⟨20000000005, 0, rq 20000000005 0 true 3 1, { up with key := { up.key with slots := [] } }, by decide +kernel⟩

theorem witness_MemoryWrites_5 :
    ∃ (t : Nat) (hpa : BitVec 64) (d : Line) (e : Enables) (p : Bool) (s : State),
    s.cxlUp = true ∧ s.link.ideBlocked = false ∧ s.heldKind true < 512 ∧ s.thm.stopping = none ∧ (s.memReady = false ∨ s.decodeHpa hpa.toNat = none) :=
  ⟨20000000005, 0, 3, 1, false, withLink (fun l => { l with memActive := false }) up, by decide +kernel⟩

theorem witness_MemoryWrites_6 :
    ∃ (t : Nat) (hpa : BitVec 64) (d : Line) (e : Enables) (p : Bool) (s : State),
    s.cxlUp = true ∧ s.link.ideBlocked = false ∧ s.heldKind true < 512 ∧ s.thm.stopping = none ∧ (s.memReady = false ∨ s.decodeHpa hpa.toNat = none) :=
  ⟨20000000005, 0x80000000000, 3, 1, false, up, by decide +kernel⟩

theorem witness_MemoryWrites_7 :
    ∃ (t : Nat) (hpa : BitVec 64) (d : Line) (e : Enables) (p : Bool) (s : State),
    (s.cxlUp = false ∨ s.link.ideBlocked = true ∨
    512 ≤ s.heldKind true) :=
  ⟨20000000005, 0, 3, 1, false, State.reset, by decide +kernel⟩

theorem witness_MemoryWrites_8 :
    ∃ (t id a : Nat) (c : Ctx) (s : State),
    s.qos.ctxs.find? (fun c => c.req.id == id && c.req.write) = some c ∧ c.acceptedAt = some a ∧ c.logWait = false ∧ s.dueAt a ≤ max s.now t :=
  ⟨20000000005, 0, 19999999015, ⟨rq 19999999000 0 true 0 1, some 19999999015, .none, 0, 0, false⟩, wrote, by decide +kernel⟩

theorem witness_MemoryWrites_9 :
    ∃ (t id a : Nat) (c : Ctx) (s : State),
    s.qos.ctxs.find? (fun c => c.req.id == id && c.req.write) = some c ∧ c.acceptedAt = some a ∧ (max s.now t < s.dueAt a ∨ c.logWait = true) :=
  ⟨20000000001, 0, 7, { (default : Ctx) with req := { (default : Req) with write := true }, acceptedAt := some 7, logWait := true }, logging, by decide +kernel⟩

theorem witness_MemoryWrites_10 :
    ∃ (t id : Nat) (s : State),
    s.qos.ctxs = [] :=
  ⟨5, 0, up, by decide +kernel⟩

theorem witness_CacheMotion_0 :
    ∃ (t : Nat) (l : BitVec 35) (e : EvictEntry) (s : State),
    s.evictAt l.toNat = some e ∧ e.refetch = 0 ∧ e.declinedAt = none ∧ s.regionHolds 4 = false ∧ s.flip.armed = none ∧ Tab.find s.cch.board (s.boardIx e.copy.l.toNat) = none :=
  ⟨5, 1, out1, leavingNear out1 [], by decide +kernel⟩

theorem witness_CacheMotion_1 :
    ∃ (t : Nat) (l : BitVec 35) (e : EvictEntry) (b : BoardSlot) (s : State),
    s.evictAt l.toNat = some e ∧ e.refetch = 0 ∧ e.declinedAt = none ∧ s.regionHolds 4 = false ∧ s.flip.armed = none ∧ Tab.find s.cch.board (s.boardIx e.copy.l.toNat) = some b ∧ b.copy.l = e.copy.l ∧ b.corrected = false ∧ b.badTags = 0 ∧ b.badData = 0 ∧ b.badRest = false :=
  ⟨5, 1, out1, boardOf out1.copy 0, leavingNear out1 [(1, boardOf out1.copy 0)], by decide +kernel⟩

theorem witness_CacheMotion_2 :
    ∃ (t : Nat) (l : BitVec 35) (e : EvictEntry) (b : BoardSlot) (s : State),
    s.evictAt l.toNat = some e ∧ e.refetch = 0 ∧ e.declinedAt = none ∧ s.regionHolds 4 = false ∧ s.flip.armed = none ∧ Tab.find s.cch.board (s.boardIx e.copy.l.toNat) = some b ∧ b.copy.l ≠ e.copy.l ∧ b.corrected = false ∧ b.badTags = 0 ∧ b.badData = 0 ∧ b.badRest = false ∧ b.copy.dirty ≠ 0 ∧ e.copy.dirty = 0 ∧ b.copy.reuse ≤ e.copy.reuse ∧ s.wbRoom (s.boardIx e.copy.l.toNat) = true :=
  ⟨5, 1, out2, far1, leavingNear out2 [(1, far1)], by decide +kernel⟩

theorem witness_CacheMotion_3 :
    ∃ (t : Nat) (l : BitVec 35) (e : EvictEntry) (b : BoardSlot) (s : State),
    s.evictAt l.toNat = some e ∧ e.refetch = 0 ∧ e.declinedAt = none ∧ s.regionHolds 4 = false ∧ Tab.find s.cch.board (s.boardIx e.copy.l.toNat) = some b ∧ b.copy.l ≠ e.copy.l ∧ b.corrected = false ∧ b.badTags = 0 ∧ b.badData = 0 ∧ b.badRest = false ∧ b.copy.dirty ≠ 0 ∧ e.copy.dirty = 0 ∧ e.copy.reuse < b.copy.reuse :=
  ⟨5, 1, out2, { far1 with copy := { far1.copy with reuse := 7 } }, leavingNear out2 [(1, { far1 with copy := { far1.copy with reuse := 7 } })], by decide +kernel⟩

theorem witness_CacheMotion_4 :
    ∃ (t d : Nat) (i : BitVec 17) (x : NearSlot) (s : State),
    Tab.find s.cch.near i.toNat = some x ∧ nearIx x.copy.l.toNat = i.toNat ∧ x.badTags = 0 ∧ x.badData = 0 ∧ x.dirtySince = some d ∧ d + s.run.policy.dirtyAge * usec ≤ max s.now t ∧ x.filling = false ∧ s.regionHolds 4 = false ∧ s.fab.fatal = false ∧ s.flip.armed = none ∧ Tab.find s.cch.board (s.boardIx x.copy.l.toNat) = none :=
  ⟨20000000000, 7, 0, near0, staged1, by decide +kernel⟩

theorem witness_CacheMotion_5 :
    ∃ (t d : Nat) (i : BitVec 17) (x : NearSlot) (s : State),
    Tab.find s.cch.near i.toNat = some x ∧ x.badTags = 0 ∧ x.dirtySince = some d ∧ max s.now t < d + s.run.policy.dirtyAge * usec ∧ s.hurries x.copy = false :=
  ⟨5, 19999990000, 0, { near0 with dirtySince := some 19999990000 }, { up with cch := { up.cch with near := [(0, { near0 with dirtySince := some 19999990000 })] } }, by decide +kernel⟩

theorem witness_CacheMotion_6 :
    ∃ (i : BitVec 25) (b : BoardSlot) (s : State),
    s.cch.rewrite.contains i.toNat = true ∧ Tab.find s.cch.board i.toNat = some b :=
  ⟨0, { slot0 with corrected := true }, { up with cch := { up.cch with rewrite := [0], board := [(0, { slot0 with corrected := true })] } }, by decide +kernel⟩

theorem witness_CacheMotion_7 :
    ∃ (t : Nat) (l : BitVec 35) (n : BitVec 17) (i : BitVec 25) (y : NearUpset) (z : BoardUpset) (s : State),
    s.evictAt l.toNat = none ∧ Tab.find s.cch.near n.toNat = none ∧ s.cch.rewrite.contains i.toNat = false :=
  ⟨5, 3, 4, 5, ⟨0, 0, 0⟩, ⟨false, 0, 0, 0, false, 0, false⟩, up, by decide +kernel⟩

theorem witness_WriteHomePath_0 :
    ∃ (t : Nat) (f : BitVec 29) (l : Loc) (w : WbEntry) (x : UnitKey) (s : State),
    s.cch.board = [] ∧ s.cch.wb = [w] ∧ w.copy.l.toNat / 64 = f.toNat ∧ w.copy.dirty ≠ 0 ∧ w.issued = false ∧ w.superseded = false ∧ s.epochMode f.toNat = false ∧ s.fro = false ∧ s.changesWait = false ∧ s.regionHolds 4 = false ∧ s.map.rebuilding.contains f.toNat = false ∧ s.med.recheck = [] ∧ s.med.updates = [] ∧ (s.entry f.toNat).poisonedRange = false ∧ s.heldKey (f.toNat * 256) w.copy.keyGen = false ∧ Tab.find s.key.units (f.toNat / 16384) = some x ∧ x.bound = true ∧ Tab.find s.map.homes f.toNat = none ∧ (s.entry f.toNat).loc = some l ∧ (s.entry f.toNat).held = true ∧ (s.entry f.toNat).bead = true :=
  ⟨5, 0, ⟨0, 0, 0⟩, wb0, ⟨0, 0, false, false, true, true, false, false⟩, leaving, by decide +kernel⟩

theorem witness_WriteHomePath_1 :
    ∃ (t : Nat) (f : BitVec 29) (s : State),
    s.cch.board = [] ∧ (s.cch.wb = [] ∨ s.fro = true) :=
  ⟨5, 7, up, by decide +kernel⟩

theorem witness_WriteHomePath_2 :
    ∃ (t : Nat) (f : BitVec 29) (s : State),
    s.cch.board = [] ∧ (s.cch.wb = [] ∨ s.fro = true) :=
  ⟨5, 0, { leaving with med := { leaving.med with froCauses := [1] } }, by decide +kernel⟩

theorem witness_WriteHomePath_3 :
    ∃ (t : Nat) (f : BitVec 29) (h : Home) (s : State),
    Tab.find s.map.homes f.toNat = some h ∧ h.kind = 0 ∧ h.bead = true ∧ h.committed = true ∧ s.updating f.toNat = false ∧ s.cch.board = [] ∧ s.pfl.wt = none ∧ s.pfl.overlaySlot = none ∧ s.pfl.overlay = [] ∧ s.pfl.slots.all (fun d => d.st != 4) = true ∧ s.ring.close = none :=
  ⟨5, 0, homeOf 0 ⟨0, 0, 0⟩ true near0.copy.homeLines 1 0 false true (some ⟨0, 0, 0⟩), homing, by decide +kernel⟩

theorem witness_WriteHomePath_4 :
    ∃ (t : Nat) (f : BitVec 29) (s : State),
    Tab.find s.map.homes f.toNat = none :=
  ⟨5, 0, up, by decide +kernel⟩

theorem witness_WriteHomePath_5 :
    ∃ (t c k : Nat) (m : BitVec 256) (d : DumpLine) (l : Loc) (x : UnitKey) (s : State),
    s.draining = true ∧ s.link.memActive = true ∧ s.pfl.overlay = [(k, d)] ∧ s.keptAside k = false ∧ s.epochMode (k / 256) = false ∧ s.fro = false ∧ s.changesWait = false ∧ s.regionHolds 4 = false ∧ s.icFree 5 = true ∧ s.map.rebuilding.contains (k / 256) = false ∧ s.med.recheck = [] ∧ s.med.updates = [] ∧ (s.entry (k / 256)).poisonedRange = false ∧ s.heldKey (k / 256 * 256 + k % 256) d.keyGen = false ∧ Tab.find s.key.units (k / 256 / 16384) = some x ∧ x.bound = true ∧ Tab.find s.map.homes (k / 256) = none ∧ (s.entry (k / 256)).loc = some l ∧ (s.entry (k / 256)).held = true ∧ (s.entry (k / 256)).bead = true ∧ m.getLsbD (d.line % 256) = false :=
  ⟨5, 7, 3, 4, line3, ⟨0, 0, 0⟩, ⟨0, 0, false, false, true, true, false, false⟩, draining, by decide +kernel⟩

theorem witness_WriteHomePath_6 :
    ∃ (t c k : Nat) (m : BitVec 256) (d : DumpLine) (s : State),
    s.draining = true ∧ s.link.memActive = true ∧ s.icFree 5 = true ∧ s.pfl.overlay = [(k, d)] ∧ s.keptAside k = false ∧ Tab.find s.map.homes (k / 256) = none ∧ m.getLsbD (d.line % 256) = true :=
  ⟨5, 2, 3, 8, line3, draining, by decide +kernel⟩

theorem witness_WriteHomePath_7 :
    ∃ (t c : Nat) (m : BitVec 256) (s : State),
    (s.draining = false ∨ s.link.memActive = false) :=
  ⟨5, 2, 8, up, by decide +kernel⟩

theorem witness_WriteHomePath_8 :
    ∃ (t : Nat) (f : BitVec 29) (x : Shadow) (s : State),
    Tab.find s.ring.shadows f.toNat = some x ∧ x.epoch ≤ s.ring.committed ∧ s.changesWait = false ∧ s.heldEntry f.toNat = false ∧ Tab.find s.map.homes f.toNat = none ∧ s.ring.pending = false ∧ s.ring.provisional = false :=
  ⟨5, 0, ⟨⟨0, 0, 1⟩, true, 4⟩, shadowed, by decide +kernel⟩

theorem witness_WriteHomePath_9 :
    ∃ (t : Nat) (f : BitVec 29) (s : State),
    Tab.find s.ring.shadows f.toNat = none :=
  ⟨5, 0, placed0, by decide +kernel⟩

theorem witness_DieOperations_0 :
    ∃ (t n : Nat) (i : Fin 64) (l : BitVec 35) (p : List (Nat × Bool)) (f : Fill) (s : State),
    s.fitted i.val = true ∧ (s.die i.val).retired = false ∧ s.railsOn = true ∧ s.dieHeld i.val = false ∧ s.fillAt l.toNat = some f ∧ f.phase = .issued ∧ (f.src = .one ∨ f.src = .four) ∧ s.fillDie f = some i.val ∧ s.servesNext i.val f = true ∧ (s.die i.val).op = none ∧ s.med.gated.getLsbD (dieChannel i.val) = false ∧ s.mediaThrottle = 0 ∧ quietDies s none = true ∧ s.sectorGone l.toNat = false ∧ (s.extentAt (l.toNat * 256)).speculative = false ∧ n + s.flipsIn l.toNat ≤ 21 :=
  ⟨5, 21, 4, 0, [(3, true)], fillM, sensing, by decide +kernel⟩

theorem witness_DieOperations_1 :
    ∃ (t n : Nat) (i : Fin 64) (l : BitVec 35) (p : List (Nat × Bool)) (f : Fill) (s : State),
    s.fitted i.val = true ∧ (s.die i.val).retired = false ∧ s.railsOn = true ∧ s.dieHeld i.val = false ∧ s.fillAt l.toNat = some f ∧ f.phase = .issued ∧ (f.src = .one ∨ f.src = .four) ∧ s.fillDie f = some i.val ∧ s.servesNext i.val f = true ∧ (s.die i.val).op = none ∧ s.med.gated.getLsbD (dieChannel i.val) = false ∧ s.mediaThrottle = 0 ∧ quietDies s none = true ∧ s.sectorGone l.toNat = false ∧ (s.extentAt (l.toNat * 256)).speculative = false ∧ n + s.flipsIn l.toNat ≤ 21 :=
  ⟨5, 0, 4, 0, [], fillM, sensing, by decide +kernel⟩

theorem witness_DieOperations_2 :
    ∃ (t n : Nat) (i : Fin 64) (l : BitVec 35) (p : List (Nat × Bool)) (f : Fill) (s : State),
    s.fitted i.val = true ∧ (s.die i.val).retired = false ∧ s.railsOn = true ∧ s.dieHeld i.val = false ∧ s.fillAt l.toNat = some f ∧ f.phase = .issued ∧ (f.src = .one ∨ f.src = .four) ∧ s.fillDie f = some i.val ∧ s.servesNext i.val f = true ∧ (s.die i.val).op = none ∧ s.med.gated.getLsbD (dieChannel i.val) = false ∧ s.mediaThrottle = 0 ∧ quietDies s none = true ∧ 21 < n + s.flipsIn l.toNat :=
  ⟨5, 22, 4, 0, [], fillM, sensing, by decide +kernel⟩

theorem witness_DieOperations_3 :
    ∃ (t b : Nat) (k : Bool) (i : Fin 64) (o : DieOp) (s : State),
    s.fitted i.val = true ∧ (s.die i.val).retired = false ∧ s.railsOn = true ∧ s.dieHeld i.val = false ∧ (s.die i.val).op = some o ∧ o.suspended = false ∧ o.block = b ∧ quietDies s none = true :=
  ⟨5, 7, true, 63, ⟨2, 3, 7, 0, false, 0, 0, 9⟩, dieOp 63 ⟨2, 3, 7, 0, false, 0, 0, 9⟩, by decide +kernel⟩

theorem witness_DieOperations_4 :
    ∃ (t b : Nat) (k : Bool) (i : Fin 64) (o : DieOp) (s : State),
    s.fitted i.val = true ∧ (s.die i.val).retired = false ∧ s.railsOn = true ∧ s.dieHeld i.val = false ∧ (s.die i.val).op = some o ∧ o.suspended = false ∧ o.block = b ∧ quietDies s none = true :=
  ⟨5, 7, false, 0, ⟨3, 0, 7, 0, false, 0, 0, 9⟩, dieOp 0 ⟨3, 0, 7, 0, false, 0, 0, 9⟩, by decide +kernel⟩

theorem witness_DieOperations_5 :
    ∃ (t b : Nat) (i : Fin 64) (o : DieOp) (x : StripeBlock) (s : State),
    s.fitted i.val = true ∧ (s.die i.val).retired = false ∧ s.railsOn = true ∧ s.dieHeld i.val = false ∧ (s.die i.val).op = some o ∧ o.suspended = false ∧ o.block = b ∧ o.op = 4 ∧ Tab.find s.med.blocks (blkKey (dieGroup i.val) b) = some x ∧ x.members ≠ [] ∧ quietDies s (some (blkKey (dieGroup i.val) b, dieChannel i.val)) = true :=
  ⟨5, 7, 1, ⟨4, 1, 7, 0, false, 0, 0, 9⟩, { beadBlock with toReset := [0] }, resetting0, by decide +kernel⟩

theorem witness_DieOperations_6 :
    ∃ (t b : Nat) (i : Fin 64) (o : DieOp) (s : State),
    s.fitted i.val = true ∧ (s.die i.val).retired = false ∧ s.railsOn = true ∧ s.dieHeld i.val = false ∧ (s.die i.val).op = some o ∧ o.op = 3 ∧ o.suspended = false ∧ o.block = b ∧ quietDies s none = true ∧ s.med.dies.length = 64 ∧ s.block (dieGroup i.val) b = StripeBlock.blank ∧ (s.die i.val).retiredBlocks < 1572 :=
  ⟨5, 7, 2, ⟨3, 2, 7, 0, false, 0, 0, 9⟩, dieOp 2 ⟨3, 2, 7, 0, false, 0, 0, 9⟩, by decide +kernel⟩

theorem witness_DieOperations_7 :
    ∃ (t : Nat) (i : Fin 64) (o : DieOp) (s : State),
    s.fitted i.val = true ∧ (s.die i.val).op = some o ∧ o.suspended = false ∧ o.suspends < suspendMax o.op ∧ (s.readsOn i.val).any (fun a => decide (a + suspendEntry o.op ≤ max s.now t)) = true :=
  ⟨20000000250, 4, ⟨3, 0, 7, 15, false, 0, 0, 9⟩, suspendable, by decide +kernel⟩

theorem witness_DieOperations_8 :
    ∃ (t : Nat) (i : Fin 64) (o : DieOp) (s : State),
    s.fitted i.val = true ∧ (s.die i.val).op = some o ∧ o.suspended = true ∧ (8 ≤ o.reads ∨ o.suspendedAt + 4 * usec ≤ max s.now t ∨ s.readsOn i.val = []) :=
  ⟨5, 2, ⟨3, 2, 7, 15, true, 20000000000, 8, 9⟩, dieOp 2 ⟨3, 2, 7, 15, true, 20000000000, 8, 9⟩, by decide +kernel⟩

theorem witness_DieOperations_9 :
    ∃ (t : Nat) (i : Fin 64) (o : DieOp) (s : State),
    s.fitted i.val = true ∧ (s.die i.val).op = some o ∧ o.suspended = true ∧ (8 ≤ o.reads ∨ o.suspendedAt + 4 * usec ≤ max s.now t ∨ s.readsOn i.val = []) :=
  ⟨20000004000, 2, ⟨3, 2, 7, 15, true, 20000000000, 0, 9⟩, dieOp 2 ⟨3, 2, 7, 15, true, 20000000000, 0, 9⟩, by decide +kernel⟩

theorem witness_DieOperations_10 :
    ∃ (t : Nat) (i : Fin 64) (o : DieOp) (s : State),
    s.fitted i.val = true ∧ (s.die i.val).op = some o ∧ suspendMax o.op ≤ o.suspends ∧ o.suspended = false :=
  ⟨5, 2, ⟨2, 2, 7, 4, false, 0, 0, 9⟩, dieOp 2 ⟨2, 2, 7, 4, false, 0, 0, 9⟩, by decide +kernel⟩

theorem witness_DieOperations_11 :
    ∃ (t : Nat) (i : Fin 64) (o : DieOp) (s : State),
    s.fitted i.val = true ∧ (s.die i.val).retired = false ∧ (s.die i.val).op = some o ∧ o.suspended = false ∧ o.endAt + 20 * usec ≤ max s.now t ∧ (s.die i.val).timeouts = [] :=
  ⟨20000020000, 2, ⟨3, 2, 7, 0, false, 0, 0, 20000000000⟩, dieOp 2 ⟨3, 2, 7, 0, false, 0, 0, 20000000000⟩, by decide +kernel⟩

theorem witness_DieOperations_12 :
    ∃ (t x y : Nat) (i : Fin 64) (o : DieOp) (s : State),
    s.fitted i.val = true ∧ (s.die i.val).retired = false ∧ (s.die i.val).op = some o ∧ o.suspended = false ∧ o.endAt + 20 * usec ≤ max s.now t ∧ (s.die i.val).timeouts = [x, y] ∧ max s.now t < x + sec ∧ max s.now t < y + sec ∧ s.med.dies.length = 64 ∧ Tab.find s.map.pages (dieGroup i.val) = none ∧ s.med.updates = [] :=
  ⟨20000020000, 19999999999, 19000020001, 2, ⟨3, 2, 7, 0, false, 0, 0, 20000000000⟩, dieLate, by decide +kernel⟩

theorem witness_DieOperations_13 :
    ∃ (t : Nat) (c : Fin 16) (s : State),
    s.railsOn = true ∧ s.cch.fills = [] ∧ s.med.waking.getLsbD c.val = false ∧ s.restarting (mediaRegion c.val) = false ∧ s.med.usedAt.getD c.val 0 + 100 * msec ≤ max s.now t ∧ (∀ p : Fin 4, (s.die (4 * c.val + p.val)).op = none) :=
  ⟨20100000000, 15, up, by decide +kernel⟩

theorem witness_DieOperations_14 :
    ∃ (t : Nat) (c : Fin 16) (p : Fin 4) (s : State),
    (s.die (4 * c.val + p.val)).op.isSome = true ∨
      max s.now t < s.med.usedAt.getD c.val 0 + 100 * msec :=
  ⟨20099999999, 3, 0, { up with med := { up.med with usedAt := List.replicate 16 20000000000 } }, by decide +kernel⟩

theorem witness_DieOperations_15 :
    ∃ (t : Nat) (c : Fin 16) (p : Fin 4) (s : State),
    (s.die (4 * c.val + p.val)).op.isSome = true ∨
      max s.now t < s.med.usedAt.getD c.val 0 + 100 * msec :=
  ⟨20100000000, 0, 2, dieOp 2 ⟨3, 2, 7, 0, false, 0, 0, 9⟩, by decide +kernel⟩

theorem witness_DieOperations_16 :
    ∃ (t n : Nat) (c : Fin 16) (k : Bool) (s : State),
    s.med.gated.getLsbD c.val = true ∧ s.restarting (mediaRegion c.val) = false ∧ quietDies s none = true :=
  ⟨5, 30, 15, true, { up with med := { up.med with gated := 0x8000 } }, by decide +kernel⟩

theorem witness_DieOperations_17 :
    ∃ (t n : Nat) (c : Fin 16) (k : Bool) (s : State),
    s.med.gated.getLsbD c.val = false :=
  ⟨5, 30, 15, true, up, by decide +kernel⟩

theorem witness_DieOperations_18 :
    ∃ (t a : Nat) (g : Fin 4) (p : OpenPage) (s : State),
    Tab.find s.map.pages g.val = some p ∧ p.since = some a ∧ a + 2 * msec ≤ max s.now t ∧ p.folios ≠ [] ∧ p.folios.length < (s.block g.val p.block).members.length - 1 ∧ s.beadFull = false ∧ s.opsStop = false :=
  ⟨20002000000, 20000000000, 1, ⟨0, 62, [some 7], some 20000000000⟩, pageOpened ⟨0, 62, [some 7], some 20000000000⟩, by decide +kernel⟩

theorem witness_DieOperations_19 :
    ∃ (t a : Nat) (g : Fin 4) (p : OpenPage) (s : State),
    Tab.find s.map.pages g.val = some p ∧ p.since = some a ∧ a + 2 * msec ≤ max s.now t ∧ p.folios ≠ [] ∧ p.folios.length < (s.block g.val p.block).members.length - 1 ∧ s.beadFull = false ∧ s.opsStop = false :=
  ⟨20002000000, 20000000000, 1, ⟨0, 63, List.replicate 14 (some 7), some 20000000000⟩, pageOpened ⟨0, 63, List.replicate 14 (some 7), some 20000000000⟩, by decide +kernel⟩

theorem witness_DieOperations_20 :
    ∃ (t a : Nat) (g : Fin 4) (p : OpenPage) (s : State),
    Tab.find s.map.pages g.val = some p ∧ p.since = some a ∧ max s.now t < a + 2 * msec :=
  ⟨20001999999, 20000000000, 1, ⟨0, 62, [some 7], some 20000000000⟩, pageOpened ⟨0, 62, [some 7], some 20000000000⟩, by decide +kernel⟩

theorem witness_DieOperations_21 :
    ∃ (t : Nat) (g : Fin 4) (s : State),
    Tab.find s.map.pages g.val = none :=
  ⟨5, 1, up, by decide +kernel⟩

theorem witness_RecoveryAndRebuild_0 :
    ∃ (t : Nat) (l : BitVec 35) (f : Fill) (s : State),
    s.fillAt l.toNat = some f ∧ f.src = .recon ∧ f.phase = .issued ∧ s.sectorGone l.toNat = false ∧ s.stripeMoving l.toNat = false ∧ (s.die (s.sectorDie l.toNat)).retired = false ∧ s.canReconstruct l.toNat = true ∧ (s.extentAt (l.toNat * 256)).speculative = false :=
  ⟨5, 0, { fillM with src := .recon }, medFill { fillM with src := .recon }, by decide +kernel⟩

theorem witness_RecoveryAndRebuild_1 :
    ∃ (t : Nat) (l : BitVec 35) (p : Fin 64 × Bool) (r : List (Fin 64 × Bool)) (f : Fill) (s : State),
    s.fillAt l.toNat = some f ∧ f.src = .recon ∧ f.phase = .issued ∧ s.stripeMoving l.toNat = false ∧ (s.die (s.sectorDie l.toNat)).retired = false :=
  ⟨5, 0, (8, false), [(12, true)], { fillM with src := .recon, spent := true }, medFill { fillM with src := .recon, spent := true }, by decide +kernel⟩

theorem witness_RecoveryAndRebuild_2 :
    ∃ (t : Nat) (l : BitVec 35) (f : Fill) (b : StripeBlock) (s : State),
    s.fillAt l.toNat = some f ∧ f.phase = .rebuild ∧ s.sectorGone l.toNat = false ∧ s.stripeMoving l.toNat = false ∧ s.canRecover l.toNat = true ∧ (s.extentAt (l.toNat * 256)).speculative = false ∧ Tab.find s.med.blocks (s.sectorBlock l.toNat) = some b :=
  ⟨5, 0, { fillM with phase := .rebuild }, beadBlock, medFill { fillM with phase := .rebuild }, by decide +kernel⟩

theorem witness_RecoveryAndRebuild_3 :
    ∃ (t n m : Nat) (l : BitVec 35) (f : Fill) (b : StripeBlock) (s : State),
    s.fillAt l.toNat = some f ∧ f.phase = .soft ∧ n + s.flipsIn l.toNat ≤ 27 ∧ m ≤ 21 ∧ s.sectorGone l.toNat = false ∧ (s.extentAt (l.toNat * 256)).speculative = false ∧ Tab.find s.med.blocks (s.sectorBlock l.toNat) = some b ∧ b.due = none :=
  ⟨5, 27, 21, 0, { fillM with phase := .soft }, beadBlock, medFill { fillM with phase := .soft }, by decide +kernel⟩

theorem witness_RecoveryAndRebuild_4 :
    ∃ (t n m : Nat) (l : BitVec 35) (f : Fill) (s : State),
    s.fillAt l.toNat = some f ∧ f.phase = .soft ∧ (27 < n + s.flipsIn l.toNat ∨ 21 < m) ∧ f.tried = false ∧ s.sectorGone l.toNat = false ∧ s.canRecover l.toNat = true :=
  ⟨5, 28, 0, 0, { fillM with phase := .soft }, medFill { fillM with phase := .soft }, by decide +kernel⟩

theorem witness_RecoveryAndRebuild_5 :
    ∃ (t n m : Nat) (l : BitVec 35) (f : Fill) (s : State),
    s.fillAt l.toNat = some f ∧ f.phase = .soft ∧ (27 < n + s.flipsIn l.toNat ∨ 21 < m) ∧ f.tried = false ∧ s.sectorGone l.toNat = false ∧ s.canRecover l.toNat = true :=
  ⟨5, 22, 22, 0, { fillM with phase := .soft }, medFill { fillM with phase := .soft }, by decide +kernel⟩

theorem witness_RecoveryAndRebuild_6 :
    ∃ (t n m : Nat) (l : BitVec 35) (f : Fill) (s : State),
    s.fillAt l.toNat = some f ∧ f.phase = .soft ∧ (27 < n + s.flipsIn l.toNat ∨ 21 < m) ∧ f.tried = true :=
  ⟨5, 28, 0, 0, { fillM with phase := .soft, tried := true }, medFill { fillM with phase := .soft, tried := true }, by decide +kernel⟩

theorem witness_RecoveryAndRebuild_7 :
    ∃ (t : Nat) (l : BitVec 35) (f : Fill) (s : State),
    s.fillAt l.toNat = some f ∧ f.phase = .arrived ∧ s.regionHolds 3 = false ∧ f.macBad = 0 ∧ s.key.lost = [] :=
  ⟨5, 0, { fillM with phase := .arrived }, medFill { fillM with phase := .arrived }, by decide +kernel⟩

theorem witness_RecoveryAndRebuild_8 :
    ∃ (t : Nat) (l : BitVec 35) (f : Fill) (s : State),
    s.fillAt l.toNat = some f ∧ f.phase = .arrived ∧ s.regionHolds 3 = false ∧ f.macBad ≠ 0 ∧ f.sent = 0 ∧ f.tried = false ∧ s.key.lost = [] ∧ s.canReconstruct l.toNat = true :=
  ⟨5, 0, { fillM with phase := .arrived, macBad := 2 }, medFill { fillM with phase := .arrived, macBad := 2 }, by decide +kernel⟩

theorem witness_RecoveryAndRebuild_9 :
    ∃ (t : Nat) (l : BitVec 35) (f : Fill) (s : State),
    s.fillAt l.toNat = some f ∧ f.phase = .arrived ∧ s.regionHolds 3 = false ∧ f.sent = 0 ∧ f.tried = true ∧ s.key.lost = [] :=
  ⟨5, 0, { fillM with phase := .arrived, macBad := 9, tried := true }, medFill { fillM with phase := .arrived, macBad := 9, tried := true }, by decide +kernel⟩

theorem witness_RecoveryAndRebuild_10 :
    ∃ (t : Nat) (l : BitVec 35) (f : Fill) (s : State),
    s.fillAt l.toNat = some f ∧ f.phase = .arrived ∧ s.regionHolds 3 = false ∧ f.sent = 15 ∧ f.macBad.getLsbD 0 = true ∧ s.key.lost = [] ∧ (s.extentAt (4 * l.toNat * 64)).viral = true :=
  ⟨5, 0, { fillM with phase := .arrived, macBad := 1, sent := 15 }, viralFill { fillM with phase := .arrived, macBad := 1, sent := 15 }, by decide +kernel⟩

theorem witness_RecoveryAndRebuild_11 :
    ∃ (t n : Nat) (l : BitVec 35) (v : Fin 4) (f : Fill) (s : State),
    s.fillAt l.toNat = some f ∧ f.phase = .arrived ∧ s.regionHolds 3 = false ∧ f.macBad = 0 ∧ s.key.lost = [] ∧ s.map.entries = [] :=
  ⟨5, 7, 0, 2, { fillM with phase := .arrived }, { up with cch := { up.cch with fills := [{ fillM with phase := .arrived }] } }, by decide +kernel⟩

theorem witness_RecoveryAndRebuild_12 :
    ∃ (t n : Nat) (l : BitVec 35) (v : Fin 4) (f : Fill) (s : State),
    s.fillAt l.toNat = some f ∧ f.phase = .arrived ∧ s.regionHolds 3 = false ∧ f.macBad = 0 ∧ s.key.lost = [] ∧ s.map.entries = [] :=
  ⟨5, 7, 0, 0, { fillM with phase := .arrived }, { up with cch := { up.cch with fills := [{ fillM with phase := .arrived }] } }, by decide +kernel⟩

theorem witness_RecoveryAndRebuild_13 :
    ∃ (t n : Nat) (v : Fin 4) (s : State),
    s.key.lost.contains (v.val, n) = true ∧ s.map.entries = [] :=
  ⟨5, 7, 3, { up with key := { up.key with lost := [(3, 7)] } }, by decide +kernel⟩

theorem witness_RecoveryAndRebuild_14 :
    ∃ (t n : Nat) (v : Fin 4) (s : State),
    s.key.lost.contains (v.val, n) = false :=
  ⟨5, 7, 3, up, by decide +kernel⟩

theorem witness_RecoveryAndRebuild_15 :
    ∃ (t n m : Nat) (l : BitVec 35) (p : List (Fin 64 × Bool)) (s : State),
    s.fillAt l.toNat = none :=
  ⟨5, 1, 1, 0, [(3, true)], up, by decide +kernel⟩

theorem witness_RecoveryAndRebuild_16 :
    ∃ (t : Nat) (g : Fin 4) (f : BitVec 29) (r : Rebuild) (s : State),
    s.med.rebuild = some r ∧ r.group = g.val ∧ (s.toRebuild r.group r.die).contains f.toNat = true ∧ Tab.find s.map.homes f.toNat = none ∧ s.opsStop = false ∧ s.changesWait = false ∧ s.railsOn = true ∧ s.icFree 1 = true ∧ s.med.updates = [] ∧ (∀ i : Fin 64, (s.die i.val).retired = true → i.val = r.die) ∧ (s.readLoc f.toNat).all (fun l => s.membersReady l.group (s.block l.group l.block)) = true :=
  ⟨5, 0, 0, ⟨0, 4, 5, 0⟩, rebuilding0, by decide +kernel⟩

theorem witness_RecoveryAndRebuild_17 :
    ∃ (t : Nat) (g : Fin 4) (r : Rebuild) (s : State),
    s.med.rebuild = some r ∧ r.group = g.val ∧ s.toRebuild r.group r.die = [] ∧ s.integOn r.group r.die = [] ∧ s.med.rebuildQueue = [] ∧ s.med.dies.length = 64 ∧ r.die < 64 :=
  ⟨5, 0, ⟨0, 4, 0, 7⟩, { up with med := { up.med with rebuild := some ⟨0, 4, 0, 7⟩ } }, by decide +kernel⟩

theorem witness_RecoveryAndRebuild_18 :
    ∃ (t : Nat) (g : Fin 4) (f : BitVec 29) (s : State),
    s.med.rebuild = none :=
  ⟨5, 0, 0, up, by decide +kernel⟩

theorem witness_MapAndReclaim_0 :
    ∃ (t a : Nat) (s : State),
    s.railsOn = true ∧ s.pfl.dump = none ∧ s.map.tail ≠ [] ∧ s.map.tailSince = some a ∧ (15 ≤ s.map.tail.length ∨ a + 50 * usec ≤ max s.now t) ∧ s.map.waiting = false ∧ mapFlows s = true :=
  ⟨20000050000, 20000000000, { up with map := { up.map with tail := [⟨3, some MapEntry.blank, 0⟩], tailSince := some 20000000000 } }, by decide +kernel⟩

theorem witness_MapAndReclaim_1 :
    ∃ (t a : Nat) (s : State),
    s.railsOn = true ∧ s.pfl.dump = none ∧ s.map.tail ≠ [] ∧ s.map.tailSince = some a ∧ (15 ≤ s.map.tail.length ∨ a + 50 * usec ≤ max s.now t) ∧ s.map.waiting = false ∧ mapFlows s = true :=
  ⟨5, 20000000000, { up with map := { up.map with tail := List.replicate 16 ⟨3, some MapEntry.blank, 0⟩, tailSince := some 20000000000 } }, by decide +kernel⟩

theorem witness_MapAndReclaim_2 :
    ∃ (t : Nat) (s : State),
    (s.railsOn = false ∨ s.pfl.dump ≠ none ∨
      (s.map.tail = [] ∧ s.map.tailSince = none ∧ s.map.discard = none)) :=
  ⟨5, up, by decide +kernel⟩

theorem witness_MapAndReclaim_3 :
    ∃ (t a : Nat) (s : State),
    s.map.tail.length < 15 ∧ s.map.tailSince = some a ∧ max s.now t < a + 50 * usec ∧ s.map.tail.any (fun c => c.kind == 4) = false ∧ s.map.discard = none :=
  ⟨20000049999, 20000000000, { up with map := { up.map with tail := [⟨3, some MapEntry.blank, 0⟩], tailSince := some 20000000000 } }, by decide +kernel⟩

theorem witness_MapAndReclaim_4 :
    ∃ (t n k b : Nat) (s : State),
    s.map.ckptWriting = some (k, b) ∧ s.map.committed + 1 - b ≤ s.ckptThreshold ∧ s.map.journal.any (fun x => !x.settled && decide (x.seq < b)) = false ∧ mapFlows s = true :=
  ⟨5, 9, 1, 3, { up with map := { up.map with ckptWriting := some (1, 3), committed := 5, ckptStart := 2 } }, by decide +kernel⟩

theorem witness_MapAndReclaim_5 :
    ∃ (t k b : Nat) (i : Fin 64) (s : State),
    s.fitted i.val = true ∧ s.map.ckptWriting = some (k, b) :=
  ⟨5, 1, 3, 63, { up with map := { up.map with ckptWriting := some (1, 3), committed := 5 } }, by decide +kernel⟩

theorem witness_MapAndReclaim_6 :
    ∃ (t n : Nat) (i : Fin 64) (s : State),
    s.fitted i.val = true ∧ s.map.ckptWriting = none :=
  ⟨5, 9, 63, up, by decide +kernel⟩

theorem witness_MapAndReclaim_8 :
    ∃ (t n w : Nat) (d : Fin 4) (s : State),
    (s.wordFolios d.val w).any (fun f => s.map.rebuilding.contains f) = true :=
  ⟨5, 9, 2, 1, { up with map := { up.map with rebuilding := [9, 77] } }, by decide +kernel⟩

theorem witness_MapAndReclaim_9 :
    ∃ (t n w : Nat) (d : Fin 4) (s : State),
    (s.wordFolios d.val w).any (fun f => s.map.rebuilding.contains f) = true ∧ s.map.poison.length ≤ 7424 ∧ s.changesWait = false ∧ s.map.tail.length ≤ 4093 :=
  ⟨5, 9, 2, 1, { up with map := { up.map with rebuilding := [9, 77] } }, by decide +kernel⟩

theorem witness_MapAndReclaim_10 :
    ∃ (t w : Nat) (d : Fin 4) (r : Bool × Nat) (s : State),
    (s.wordFolios d.val w).any (fun f => s.map.rebuilding.contains f) = false :=
  ⟨5, 2, 1, (true, 9), up, by decide +kernel⟩

theorem witness_MapAndReclaim_12 :
    ∃ (t : Nat) (g : Fin 4) (r : List Nat) (f : BitVec 29) (o : Loc) (p : OpenPage) (s : State),
    s.movesStop = false ∧ s.beadFull = true ∧ s.icFree 1 = true ∧ s.coldest = some f.toNat ∧ (s.entry f.toNat).loc = some o ∧ sourceClean s o = true ∧ (s.turn s.map.nextGroup).filter s.groupOpen = g.val :: r ∧ Tab.find s.map.pages g.val = some p ∧ p.folios.length + 2 < (s.block g.val p.block).members.length :=
  ⟨5, 0, [1, 2, 3], 0, ⟨0, 0, 0⟩, ⟨4, 2, [none], none⟩, demoting, by decide +kernel⟩

theorem witness_MapAndReclaim_13 :
    ∃ (t : Nat) (f : BitVec 29) (s : State),
    (s.movesStop = true ∨ s.beadFull = false) :=
  ⟨5, 0, readOnly, by decide +kernel⟩

theorem witness_MapAndReclaim_14 :
    ∃ (t : Nat) (f : BitVec 29) (b : Bead) (o l : Loc) (s : State),
    s.movesStop = false ∧ Tab.find s.map.beads f.toNat = some b ∧ (s.entry f.toNat).loc = some o ∧ (s.entry f.toNat).bead = true ∧ 1048576 ≤ b.homes ∧ Tab.find s.map.homes f.toNat = none ∧ s.icFree 1 = true ∧ sourceClean s o = true ∧ s.med.updates = [] ∧ s.beadFree false (some (blkKey o.group o.block)) = some l ∧ (s.die (s.dieAt l 0)).retired = false :=
  ⟨5, 0, ⟨3, 1048576, 1⟩, ⟨0, 0, 0⟩, ⟨0, 1, 0⟩, rotating, by decide +kernel⟩

theorem witness_MapAndReclaim_15 :
    ∃ (t : Nat) (f : BitVec 29) (b : Bead) (s : State),
    Tab.find s.map.beads f.toNat = some b ∧ b.homes < 1048576 :=
  ⟨5, 0, ⟨3, 1048575, 1⟩, { rotating with map := { rotating.map with beads := [(0, ⟨3, 1048575, 1⟩)] } }, by decide +kernel⟩

theorem witness_MapAndReclaim_16 :
    ∃ (t b f : Nat) (g h : Fin 4) (r : List Nat) (l : Loc) (p : OpenPage) (s : State),
    s.movesStop = false ∧ Tab.find s.map.reclaim g.val = none ∧ s.icFree 0 = true ∧ (s.map.floorOn.getLsbD g.val = true ∨ s.idleNow = true) ∧ s.source g.val = some b ∧ s.versionsIn g.val b = [(f, l)] ∧ s.integIn g.val b = [] ∧ f < 2 ^ 29 ∧ sourceClean s l = true ∧ (s.turn s.map.nextGroup).filter s.groupOpen = h.val :: r ∧ Tab.find s.map.pages h.val = some p ∧ p.folios.length + 2 < (s.block h.val p.block).members.length :=
  ⟨5, 5, 0, 0, 0, [1, 2, 3], ⟨0, 5, 0⟩, ⟨4, 2, [none], none⟩, reclaiming, by decide +kernel⟩

theorem witness_MapAndReclaim_17 :
    ∃ (t : Nat) (g : Fin 4) (s : State),
    (s.movesStop = true ∨
      (s.source g.val = none ∧ Tab.find s.map.reclaim g.val = none) ∨ (s.map.floorOn.getLsbD g.val = false ∧ s.idleNow = false)) :=
  ⟨5, 0, up, by decide +kernel⟩

theorem witness_MapAndReclaim_18 :
    ∃ (t f : Nat) (g : Fin 4) (l : Loc) (r : Reclaim) (s : State),
    Tab.find s.map.reclaim g.val = some r ∧ r.phase = 0 ∧ s.movesStop = false ∧ s.map.tail.length ≤ 4095 ∧ s.toCopy g.val r = [] ∧ r.copies = [(f, l)] ∧ f < 2 ^ 29 ∧ s.pageOpen l = false :=
  ⟨5, 0, 0, ⟨0, 4, 33⟩, ⟨5, 0, [(0, ⟨0, 4, 33⟩)]⟩, reclaimed ⟨5, 0, [(0, ⟨0, 4, 33⟩)]⟩ [], by decide +kernel⟩

theorem witness_MapAndReclaim_19 :
    ∃ (t f : Nat) (g : Fin 4) (l : Loc) (r : Reclaim) (s : State),
    Tab.find s.map.reclaim g.val = some r ∧ r.phase = 0 ∧ s.movesStop = false ∧ s.map.tail.length ≤ 4095 ∧ s.toCopy g.val r = [] ∧ r.copies = [(f, l)] ∧ f < 2 ^ 29 ∧ s.pageOpen l = false :=
  ⟨5, 0, 0, ⟨0, 4, 33⟩, ⟨6, 0, [(0, ⟨0, 4, 33⟩)]⟩, reclaimed ⟨6, 0, [(0, ⟨0, 4, 33⟩)]⟩ [], by decide +kernel⟩

theorem witness_MapAndReclaim_20 :
    ∃ (t f : Nat) (g : Fin 4) (l : Loc) (r : Reclaim) (s : State),
    Tab.find s.map.reclaim g.val = some r ∧ r.copies = [(f, l)] ∧ (s.pageOpen l = true ∨ s.movesStop = true) :=
  ⟨5, 0, 0, ⟨0, 4, 31⟩, ⟨5, 0, [(0, ⟨0, 4, 31⟩)]⟩, reclaimed ⟨5, 0, [(0, ⟨0, 4, 31⟩)]⟩ [(0, ⟨4, 2, [some 0], none⟩)], by decide +kernel⟩

theorem witness_MapAndReclaim_21 :
    ∃ (t : Nat) (g : Fin 4) (r : Reclaim) (s : State),
    Tab.find s.map.reclaim g.val = some r ∧ r.phase = 1 :=
  ⟨5, 0, ⟨5, 1, []⟩, reclaimed ⟨5, 1, []⟩ [], by decide +kernel⟩

theorem witness_MapAndReclaim_22 :
    ∃ (t : Nat) (g : Fin 4) (r : Reclaim) (s : State),
    s.map.reclaim = [(g.val, r)] ∧ r.phase = 2 ∧ s.usedSlots g.val r.source = [] ∧ s.cch.fills = [] ∧ s.integIn g.val r.source = [] ∧ s.blockUsed g.val r.source = false ∧ (s.block g.val r.source).members ≠ [] ∧ (s.block g.val r.source).isOpen = false ∧ (s.block g.val r.source).bead = false :=
  ⟨5, 0, ⟨4, 2, []⟩, reclaimed ⟨4, 2, []⟩ [], by decide +kernel⟩

theorem witness_MapAndReclaim_23 :
    ∃ (t : Nat) (g : Fin 4) (s : State),
    Tab.find s.map.reclaim g.val = none :=
  ⟨5, 0, up, by decide +kernel⟩

theorem witness_MapAndReclaim_24 :
    ∃ (t k c d f : Nat) (i : Fin 64) (o : Loc) (s : State),
    s.fitted i.val = true ∧ s.movesStop = false ∧ s.rebuildingGroup (dieGroup i.val) = false ∧ s.icFree 1 = true ∧ (s.die i.val).wearCheckAt + 86400 ≤ s.cal.powerOnS ∧ s.coldOn i.val = some (k, c) ∧ s.pickBlock (dieGroup i.val) = some d ∧ c + 20000 < largest ((s.wearOn i.val).map (·.2)) ∧ (s.block (dieGroup i.val) (k % perGroup)).bead = false ∧ s.movable (dieGroup i.val) (k % perGroup) = [f] ∧ f < 2 ^ 29 ∧ (s.entry f).loc = some o ∧ inBlock (dieGroup i.val) (k % perGroup) (some o) = true ∧ sourceClean s o = true ∧ 1 < (takeMembers (dieGroup i.val) false true s (s.groupChannels (dieGroup i.val))).2.length :=
  ⟨5, 5, 0, 0, 0, 0, ⟨0, 5, 0⟩, unevenWear, by decide +kernel⟩

theorem witness_MapAndReclaim_25 :
    ∃ (t : Nat) (i : Fin 64) (s : State),
    s.fitted i.val = true ∧ (s.movesStop = true ∨ s.cal.powerOnS < (s.die i.val).wearCheckAt + 86400) :=
  ⟨5, 0, up, by decide +kernel⟩

theorem witness_CalendarAndCalibration_0 :
    ∃ (t : Nat) (i : Fin 64) (s : State),
    s.pwr.inputs.vaux ≠ 0 ∧ s.pwr.inputs.slot12 ≠ 0 ∧ s.cal.slew = none ∧ s.cal.calendar < calendarMax ∧ s.med.dies.length = 64 :=
  ⟨5, 63, up, by decide +kernel⟩

theorem witness_CalendarAndCalibration_1 :
    ∃ (t h : Nat) (s : State),
    s.pwr.inputs.vaux ≠ 0 ∧ s.cal.slew = some h ∧ s.cal.slewHalf = false ∧ h + 1 < s.cal.calendar ∧ s.cal.calendar ≤ calendarMax :=
  ⟨5, 7, { up with cal := { up.cal with calendar := 9, slew := some 7 } }, by decide +kernel⟩

theorem witness_CalendarAndCalibration_2 :
    ∃ (t h : Nat) (s : State),
    s.pwr.inputs.vaux ≠ 0 ∧ s.cal.slew = some h ∧ s.cal.slewHalf = true ∧ s.cal.calendar < calendarMax :=
  ⟨5, 7, { up with cal := { up.cal with calendar := 8, slew := some 7, slewHalf := true } }, by decide +kernel⟩

theorem witness_CalendarAndCalibration_3 :
    ∃ (t h : Nat) (s : State),
    s.pwr.inputs.vaux ≠ 0 ∧ s.cal.slew = some h ∧ s.cal.slewHalf = true ∧ s.cal.calendar < calendarMax :=
  ⟨5, 8, { up with cal := { up.cal with calendar := 8, slew := some 8, slewHalf := true } }, by decide +kernel⟩

theorem witness_CalendarAndCalibration_4 :
    ∃ (t : Nat) (s : State),
    s.pwr.inputs.slot12 = 0 :=
  ⟨5, { up with pwr := { up.pwr with inputs := ⟨0, 0, 0, 3300⟩ } }, by decide +kernel⟩

theorem witness_CalendarAndCalibration_5 :
    ∃ (t : Nat) (s : State),
    s.pwr.inputs.slot12 = 0 :=
  ⟨5, { up with pwr := { up.pwr with inputs := ⟨0, 0, 0, 0⟩ } }, by decide +kernel⟩

theorem witness_CalendarAndCalibration_6 :
    ∃ (i : Fin 64) (s : State),
    s.railsOn = true ∧ s.fitted i.val = true ∧ (s.die i.val).retired = false ∧ s.med.dies.length = 64 :=
  ⟨4, { up with cal := { up.cal with calendar := 7200 } }, by decide +kernel⟩

theorem witness_CalendarAndCalibration_7 :
    ∃ s : State,
    s.railsOn = true :=
  ⟨up, by decide +kernel⟩

theorem witness_CalendarAndCalibration_8 :
    ∃ s : State,
    s.railsOn = true :=
  ⟨{ up with boot := { up.boot with complete := false, step := 0 } }, by decide +kernel⟩

theorem witness_CalendarAndCalibration_9 :
    ∃ s : State,
    s.railsOn = false :=
  ⟨State.reset, by decide +kernel⟩

theorem witness_CalendarAndCalibration_10 :
    ∃ (t a b : Nat) (x : Int) (i : Fin 64) (n : Fin 16) (m : Fin 4) (h : Fin 15) (s : State),
    s.fitted i.val = true ∧ (s.thrEntry i.val m.val n.val).up.getD h.val 0 = a ∧ (s.thrEntry i.val m.val n.val).down.getD h.val 0 = b ∧ 256 ≤ a + b ∧ (s.thrEntry i.val m.val n.val).offsets.getD h.val 0 = x ∧ -59 < x ∧ x < 59 :=
  ⟨5, 256, 0, 58, 63, 15, 3, 14, withEntry (thrKey 63 3 15) ⟨List.replicate 15 58, List.replicate 15 256, List.replicate 15 0, 0, [], List.replicate 15 7⟩, by decide +kernel⟩

theorem witness_CalendarAndCalibration_11 :
    ∃ (t a b : Nat) (x : Int) (i : Fin 64) (n : Fin 16) (m : Fin 4) (h : Fin 15) (s : State),
    s.fitted i.val = true ∧ (s.thrEntry i.val m.val n.val).up.getD h.val 0 = a ∧ (s.thrEntry i.val m.val n.val).down.getD h.val 0 = b ∧ 256 ≤ a + b ∧ (s.thrEntry i.val m.val n.val).offsets.getD h.val 0 = x ∧ -59 < x ∧ x < 59 :=
  ⟨5, 128, 161, -58, 0, 0, 0, 0, withEntry 0 ⟨List.replicate 15 (-58), List.replicate 15 128, List.replicate 15 161, 0, [], List.replicate 15 7⟩, by decide +kernel⟩

theorem witness_CalendarAndCalibration_12 :
    ∃ (t a b : Nat) (x : Int) (i : Fin 64) (n : Fin 16) (m : Fin 4) (h : Fin 15) (s : State),
    s.fitted i.val = true ∧ (s.thrEntry i.val m.val n.val).up.getD h.val 0 = a ∧ (s.thrEntry i.val m.val n.val).down.getD h.val 0 = b ∧ 256 ≤ a + b ∧ (s.thrEntry i.val m.val n.val).offsets.getD h.val 0 = x ∧ -59 < x ∧ x < 59 :=
  ⟨5, 128, 160, 3, 0, 0, 0, 0, withEntry 0 ⟨List.replicate 15 3, List.replicate 15 128, List.replicate 15 160, 0, [], List.replicate 15 7⟩, by decide +kernel⟩

theorem witness_CalendarAndCalibration_13 :
    ∃ (t : Nat) (i : Fin 64) (n : Fin 16) (m : Fin 4) (h : Fin 15) (s : State),
    s.fitted i.val = true ∧ (s.thrEntry i.val m.val n.val).up.getD h.val 0 = 256 ∧ (s.thrEntry i.val m.val n.val).down.getD h.val 0 = 0 ∧ (s.thrEntry i.val m.val n.val).offsets.getD h.val 0 = 60 ∧ (s.thrEntry i.val m.val n.val).clamped.getD h.val 0 = 1023 :=
  ⟨5, 63, 15, 3, 14, withEntry (thrKey 63 3 15) ⟨List.replicate 15 60, List.replicate 15 256, List.replicate 15 0, 0, [], List.replicate 15 1023⟩, by decide +kernel⟩

theorem witness_CalendarAndCalibration_14 :
    ∃ (t : Nat) (i : Fin 64) (n : Fin 16) (m : Fin 4) (h : Fin 15) (s : State),
    s.fitted i.val = true ∧ (s.thrEntry i.val m.val n.val).up.getD h.val 0 + (s.thrEntry i.val m.val n.val).down.getD h.val 0 < 256 :=
  ⟨5, 63, 15, 3, 14, up, by decide +kernel⟩

theorem witness_CalendarAndCalibration_16 :
    ∃ (t : Nat) (g : Fin 4) (b : BitVec 20) (x : StripeBlock) (s : State),
    Tab.find s.med.blocks (blkKey g.val b.toNat) = some x ∧ x.counted = true ∧ x.due = none :=
  ⟨5, 0, 5, fourBlock 5, reclaiming, by decide +kernel⟩

theorem witness_CalendarAndCalibration_17 :
    ∃ (t : Nat) (g : Fin 4) (b : BitVec 20) (x : StripeBlock) (s : State),
    Tab.find s.med.blocks (blkKey g.val b.toNat) = some x ∧ x.counted = true ∧ x.due = none :=
  ⟨5, 0, 5, { fourBlock 5 with cMax := 20 }, agedBlock, by decide +kernel⟩

theorem witness_CalendarAndCalibration_18 :
    ∃ (t : Nat) (g : Fin 4) (b : BitVec 20) (s : State),
    Tab.find s.med.blocks (blkKey g.val b.toNat) = none :=
  ⟨5, 3, 5, up, by decide +kernel⟩

theorem witness_CalendarAndCalibration_19 :
    ∃ (t c : Nat) (i : Fin 64) (l : BitVec 35) (r : List (Nat × Bool)) (x : Loc) (s : State),
    s.fitted i.val = true ∧ s.readLoc (l.toNat / 64) = some x ∧ s.liesOn l.toNat (blkKey x.group x.block) i.val = true ∧ s.link.memActive = true ∧ (s.die i.val).retired = false ∧ s.dieHeld i.val = false ∧ s.med.gated.getLsbD (dieChannel i.val) = false ∧ s.sectorGone l.toNat = false ∧ (s.tick t).marginTime (dieChannel i.val) (if s.beadAt (l.toNat / 64) then 250 else 500) = true ∧ (Tab.findD s.cal.thr (s.sectorEntry x (l.toNat % 64)) ThrEntry.blank).window s.cal.powerOnS < 2048 ∧ (s.heldEntries i.val).contains (s.sectorEntry x (l.toNat % 64)) = true ∧ c + s.flipsIn l.toNat ≤ 21 :=
  ⟨20000000005, 21, 4, 0, [(14, true)], ⟨0, 5, 0⟩, reclaiming, by decide +kernel⟩

theorem witness_CalendarAndCalibration_20 :
    ∃ (t c : Nat) (i : Fin 64) (l : BitVec 35) (r : List (Nat × Bool)) (e : ReadEnd) (s : State),
    s.fitted i.val = true ∧ (s.link.memActive = false ∨ s.readLoc (l.toNat / 64) = none) :=
  ⟨5, 21, 0, 5, [(14, true)], .soft, State.reset, by decide +kernel⟩

theorem witness_RewritesAndScrub_0 :
    ∃ (t f : Nat) (g h : Fin 4) (r : List Nat) (b : BitVec 20) (o : Loc) (x : StripeBlock) (p : OpenPage) (s : State),
    Tab.find s.med.blocks (blkKey g.val b.toNat) = some x ∧ x.bead = false ∧ s.nextDue (blkKey g.val b.toNat) = true ∧ s.foliosIn g.val b.toNat = [f] ∧ s.shadowsIn g.val b.toNat = [] ∧ s.integIn g.val b.toNat = [] ∧ Tab.find s.map.homes f = none ∧ s.icFree 1 = true ∧ (s.entry f).loc = some o ∧ sourceClean s o = true ∧ (s.turn s.map.nextGroup).filter s.groupOpen = h.val :: r ∧ Tab.find s.map.pages h.val = some p ∧ blkKey h.val p.block ≠ blkKey g.val b.toNat ∧ p.folios.length + 2 < (s.block h.val p.block).members.length :=
  ⟨5, 0, 0, 0, [1, 2, 3], 5, ⟨0, 5, 0⟩, { fourBlock 5 with due := some 0 }, ⟨4, 2, [none], none⟩, dueBlock, by decide +kernel⟩

theorem witness_RewritesAndScrub_1 :
    ∃ (t : Nat) (g : Fin 4) (b : BitVec 20) (x : StripeBlock) (s : State),
    Tab.find s.med.blocks (blkKey g.val b.toNat) = some x ∧ x.bead = true ∧ s.nextDue (blkKey g.val b.toNat) = true ∧ s.icFree 1 = true ∧ s.med.updates = [] ∧ (s.usedSlots g.val b.toNat).all (fun i => sourceClean s ⟨g.val, b.toNat, i⟩) = true :=
  ⟨5, 0, 0, { beadBlock with due := some 1 }, { placed0 with med := { placed0.med with blocks := [(0, { beadBlock with due := some 1 })] } }, by decide +kernel⟩

theorem witness_RewritesAndScrub_2 :
    ∃ (t : Nat) (g : Fin 4) (b : BitVec 20) (s : State),
    s.nextDue (blkKey g.val b.toNat) = false :=
  ⟨5, 0, 5, reclaiming, by decide +kernel⟩

theorem witness_RewritesAndScrub_3 :
    ∃ (t : Nat) (g : Fin 4) (b : BitVec 20) (s : State),
    s.nextDue (blkKey g.val b.toNat) = false :=
  ⟨5, 3, 5, up, by decide +kernel⟩

theorem witness_RewritesAndScrub_4 :
    ∃ (t : Nat) (s : State),
    s.cal.lapActive = false ∧ s.link.memActive = true ∧ s.cal.lapStart + 86400 ≤ s.cal.powerOnS :=
  ⟨5, { up with cal := { up.cal with powerOnS := 86400 } }, by decide +kernel⟩

theorem witness_RewritesAndScrub_5 :
    ∃ (t : Nat) (s : State),
    (s.cal.lapActive = true ∨ s.link.memActive = false ∨ s.cal.powerOnS < s.cal.lapStart + 86400) :=
  ⟨5, { up with cal := { up.cal with powerOnS := 86399 } }, by decide +kernel⟩

theorem witness_RewritesAndScrub_6 :
    ∃ (t : Nat) (s : State),
    s.cal.lapActive = true :=
  ⟨5, { lapping with cal := { lapping.cal with lapElapsed := 1209600, overLimit := true } }, by decide +kernel⟩

theorem witness_RewritesAndScrub_7 :
    ∃ (t : Nat) (s : State),
    s.cal.lapActive = true ∧ s.cal.overLimit = false ∧ 1209600 < s.cal.lapElapsed :=
  ⟨5, { lapping with cal := { lapping.cal with lapElapsed := 1209601 } }, by decide +kernel⟩

theorem witness_RewritesAndScrub_8 :
    ∃ (t : Nat) (s : State),
    s.cal.lapElapsed ≤ 1209600 :=
  ⟨5, { lapping with cal := { lapping.cal with lapElapsed := 1209600 } }, by decide +kernel⟩

theorem witness_RewritesAndScrub_9 :
    ∃ (t : Nat) (c : Fin 16) (s : State),
    s.cal.lapActive = true ∧ 604800 < s.cal.lapElapsed ∧ s.med.gated.getLsbD c.val = true ∧ s.cal.wakeChannel = none ∧ s.restarting (mediaRegion c.val) = false :=
  ⟨5, 15, { lapping with cal := { lapping.cal with lapElapsed := 604801 }, med := { lapping.med with gated := 0x8000 } }, by decide +kernel⟩

theorem witness_RewritesAndScrub_10 :
    ∃ (t : Nat) (c : Fin 16) (s : State),
    (s.cal.lapElapsed ≤ 604800 ∨ s.med.gated.getLsbD c.val = false) :=
  ⟨5, 15, { lapping with cal := { lapping.cal with lapElapsed := 604800 }, med := { lapping.med with gated := 0x8000 } }, by decide +kernel⟩

theorem witness_RewritesAndScrub_11 :
    ∃ s : State,
    s.canLog = true :=
  ⟨lapping, by decide +kernel⟩

theorem witness_RewritesAndScrub_12 :
    ∃ s : State,
    s.canLog = false :=
  ⟨State.reset, by decide +kernel⟩

theorem witness_RewritesAndScrub_13 :
    ∃ (t c : Nat) (i : Fin 64) (g : Fin 4) (b : BitVec 20) (v w : List Nat) (e : ReadEnd) (x : StripeBlock) (s : State),
    s.fitted i.val = true ∧ s.cal.lapActive = true ∧ s.link.memActive = true ∧ Tab.find s.med.blocks (blkKey g.val b.toNat) = some x ∧ x.members.any (fun m => memberDie (blkKey g.val b.toNat) m == i.val) = true ∧ s.cal.lapAt.getD g.val 0 ≤ b.toNat ∧ (s.tick t).idleDie i.val = true ∧ x.due = none ∧ (e = .soft ∧ c ≤ 27) ∨ e = .recon :=
  ⟨20000000500, 22, 4, 0, 5, [], [], .soft, fourBlock 5, lapping, by decide +kernel⟩

theorem witness_RewritesAndScrub_14 :
    ∃ (t c : Nat) (i : Fin 64) (g : Fin 4) (b : BitVec 20) (v w : List Nat) (e : ReadEnd) (x : StripeBlock) (s : State),
    s.fitted i.val = true ∧ s.cal.lapActive = true ∧ s.link.memActive = true ∧ Tab.find s.med.blocks (blkKey g.val b.toNat) = some x ∧ x.members.any (fun m => memberDie (blkKey g.val b.toNat) m == i.val) = true ∧ s.cal.lapAt.getD g.val 0 ≤ b.toNat ∧ (s.tick t).idleDie i.val = true ∧ x.due = none ∧ (e = .soft ∧ c ≤ 27) ∨ e = .recon :=
  ⟨20000000500, 22, 4, 0, 5, [], [], .recon, fourBlock 5, lapping, by decide +kernel⟩

theorem witness_RewritesAndScrub_15 :
    ∃ (t c : Nat) (i : Fin 64) (g : Fin 4) (b : BitVec 20) (v w : List Nat) (x : StripeBlock) (s : State),
    s.fitted i.val = true ∧ s.cal.lapActive = true ∧ s.link.memActive = true ∧ Tab.find s.med.blocks (blkKey g.val b.toNat) = some x ∧ x.members.any (fun m => memberDie (blkKey g.val b.toNat) m == i.val) = true ∧ s.cal.lapAt.getD g.val 0 ≤ b.toNat ∧ (s.tick t).idleDie i.val = true :=
  ⟨20000000500, 21, 4, 0, 5, [3], [4], fourBlock 5, lapping, by decide +kernel⟩

theorem witness_RewritesAndScrub_16 :
    ∃ (t c : Nat) (i : Fin 64) (g : Fin 4) (b : BitVec 20) (k : Option (BitVec 35)) (v w : List Nat) (e : ReadEnd) (s : State),
    s.fitted i.val = true ∧ (s.cal.lapActive = false ∨ s.link.memActive = false ∨ (s.tick t).idleDie i.val = false) :=
  ⟨5, 21, 4, 0, 5, some 7, [], [], .hard, up, by decide +kernel⟩

theorem witness_RewritesAndScrub_17 :
    ∃ (t : Nat) (s : State),
    s.cal.lapActive = false :=
  ⟨5, up, by decide +kernel⟩

theorem witness_KeysAndSweeps_0 :
    ∃ (t : Nat) (k : BitVec 12) (s : State),
    (s.slot k.toNat).st = 1 ∧ 2 ^ 40 ≤ (s.slot k.toNat).uses :=
  ⟨5, 9, withSlot 9 ⟨1, 3, 2 ^ 40, 8⟩, by decide +kernel⟩

theorem witness_KeysAndSweeps_1 :
    ∃ (t : Nat) (k : BitVec 12) (s : State),
    (s.slot k.toNat).uses < 2 ^ 40 :=
  ⟨5, 9, withSlot 9 ⟨1, 3, 2 ^ 40 - 1, 8⟩, by decide +kernel⟩

theorem witness_KeysAndSweeps_2 :
    ∃ (t n : Nat) (k : BitVec 12) (s : State),
    (s.slot k.toNat).st = 1 ∨ (s.slot k.toNat).st = 3 ∧ 2 ^ 40 - 2 ^ 36 ≤ (s.slot k.toNat).uses ∧ s.lowestEmpty = some n ∧ s.key.sweep = none ∧ s.key.sweepQueue = [] :=
  ⟨5, 1, 9, withSlot 9 ⟨1, 3, 2 ^ 40 - 2 ^ 36, 8⟩, by decide +kernel⟩

theorem witness_KeysAndSweeps_3 :
    ∃ (t n : Nat) (k : BitVec 12) (w : Sweep) (s : State),
    (s.slot k.toNat).st = 1 ∧ 2 ^ 40 - 2 ^ 36 ≤ (s.slot k.toNat).uses ∧ s.lowestEmpty = some n ∧ s.key.sweep = some w ∧ w.kind ≠ 2 ∧ s.key.sweepQueue = [] :=
  ⟨5, 1, 9, { sweep1 with kind := 1 }, { withSlot 9 ⟨1, 3, 2 ^ 40 - 2 ^ 36, 8⟩ with key := { (withSlot 9 ⟨1, 3, 2 ^ 40 - 2 ^ 36, 8⟩).key with sweep := some { sweep1 with kind := 1 } } }, by decide +kernel⟩

theorem witness_KeysAndSweeps_4 :
    ∃ (t : Nat) (k : BitVec 12) (s : State),
    (s.slot k.toNat).uses < 2 ^ 40 - 2 ^ 36 :=
  ⟨5, 9, withSlot 9 ⟨1, 3, 2 ^ 40 - 2 ^ 36 - 1, 8⟩, by decide +kernel⟩

theorem witness_KeysAndSweeps_5 :
    ∃ (t : Nat) (w : Sweep) (s : State),
    s.key.sweep = some w ∧ w.recorded = true ∧ w.rowsDone = false ∧ s.sweepRowsLeft = false ∧ w.kind ≠ 3 ∧ (s.oldKeys w).any (fun k => (s.slot k).st == 3) = false :=
  ⟨5, { sweep1 with rowsDone := false }, sweeping { sweep1 with rowsDone := false }, by decide +kernel⟩

theorem witness_KeysAndSweeps_6 :
    ∃ (t : Nat) (w : Sweep) (s : State),
    s.key.sweep = some w ∧ w.recorded = true ∧ w.rowsDone = false ∧ s.sweepRowsLeft = false ∧ w.kind = 3 :=
  ⟨5, { sweep1 with rowsDone := false, kind := 3 }, sweeping { sweep1 with rowsDone := false, kind := 3 }, by decide +kernel⟩

theorem witness_KeysAndSweeps_7 :
    ∃ (t : Nat) (w : Sweep) (s : State),
    s.key.sweep = some w ∧ (w.recorded = false ∨ s.sweepRowsLeft = true) :=
  ⟨5, { sweep1 with rowsDone := false, recorded := false }, sweeping { sweep1 with rowsDone := false, recorded := false }, by decide +kernel⟩

theorem witness_KeysAndSweeps_8 :
    ∃ (t : Nat) (m : BitVec 256) (w : Sweep) (s : State),
    s.key.sweep = some w ∧ w.rowsDone = true ∧ w.left ≠ 0 ∧ s.movesStop = false ∧ s.fab.restarts = [] ∧ Tab.find s.map.homes (w.boundary / 16384) = none ∧ s.boot.complete = true ∧ w.kind ≠ 3 ∧ (s.entry (w.boundary / 16384)).held = false ∧ Tab.find s.ring.shadows (w.boundary / 16384) = none :=
  ⟨5, 0, { sweep1 with boundary := 268419072 }, sweeping { sweep1 with boundary := 268419072 }, by decide +kernel⟩

theorem witness_KeysAndSweeps_9 :
    ∃ (t : Nat) (m : BitVec 256) (w : Sweep) (l : Loc) (s : State),
    s.key.sweep = some w ∧ w.rowsDone = true ∧ w.left ≠ 0 ∧ s.movesStop = false ∧ s.fab.restarts = [] ∧ Tab.find s.map.homes (w.boundary / 16384) = none ∧ s.boot.complete = true ∧ w.kind ≠ 3 ∧ medOk s.med = true ∧ (s.entry (w.boundary / 16384)).held = true ∧ (s.entry (w.boundary / 16384)).bead = true ∧ (s.entry (w.boundary / 16384)).loc = some l ∧ (s.entry (w.boundary / 16384)).poisonedRange = false ∧ Tab.find s.ring.shadows (w.boundary / 16384) = none ∧ s.oldLines (w.boundary / 16384) (some l) ≠ [] :=
  ⟨5, 0, sweep1, ⟨0, 0, 0⟩, sweepingStored, by decide +kernel⟩

theorem witness_KeysAndSweeps_10 :
    ∃ (t : Nat) (m : BitVec 256) (w : Sweep) (s : State),
    s.key.sweep = some w ∧ w.rowsDone = true ∧ w.left ≠ 0 ∧ s.movesStop = false ∧ s.fab.restarts = [] ∧ Tab.find s.map.homes (w.boundary / 16384) = none ∧ s.boot.complete = true ∧ w.kind = 3 ∧ (s.entry (w.boundary / 16384)).held = true ∧ s.anyNew (w.boundary / 16384) = false :=
  ⟨5, 0, { sweep1 with kind := 3 }, sweeping { sweep1 with kind := 3 }, by decide +kernel⟩

theorem witness_KeysAndSweeps_11 :
    ∃ (t : Nat) (m : BitVec 256) (w : Sweep) (s : State),
    s.key.sweep = some w ∧ (w.rowsDone = false ∨ w.left = 0 ∨ s.movesStop = true) :=
  ⟨5, 0, { sweep1 with boundary := 268435456 }, sweeping { sweep1 with boundary := 268435456 }, by decide +kernel⟩

theorem witness_KeysAndSweeps_12 :
    ∃ (w : Sweep) (s : State),
    s.key.sweep = some w ∧ w.saved + gib ≤ w.boundary ∧ s.carryBusy w w.saved w.boundary = false :=
  ⟨{ sweep1 with boundary := gib }, sweeping { sweep1 with boundary := gib }, by decide +kernel⟩

theorem witness_KeysAndSweeps_13 :
    ∃ (w : Sweep) (s : State),
    s.key.sweep = some w ∧ w.boundary < w.saved + gib :=
  ⟨{ sweep1 with boundary := gib - 16384 }, sweeping { sweep1 with boundary := gib - 16384 }, by decide +kernel⟩

theorem witness_KeysAndSweeps_14 :
    ∃ (t u0 k : Nat) (e : UnitKey) (b : Background) (w : Sweep) (s : State),
    s.key.sweep = some w ∧ w.kind = 1 ∧ w.units = [u0] ∧ w.rowsDone = true ∧ w.left = 0 ∧ s.carryBusy w 0 s.capacity = false ∧ s.key.units = [(u0, e)] ∧ e.bound = true ∧ e.prev = k ∧ k ≠ 0 ∧ k ≠ w.newKey ∧ e.key ≠ k ∧ s.key.sweepQueue = [] ∧ s.key.extents.any (fun x => x.key == k) = false ∧ (s.slot k).st = 2 ∧ s.link.background = some b :=
  ⟨5, 0, 9, ⟨4, 9, true, true, true, true, false, false⟩, ⟨0xC031, 0, .primary⟩, { sweep1 with boundary := 268435456 }, swept, by decide +kernel⟩

theorem witness_KeysAndSweeps_15 :
    ∃ (t : Nat) (w : Sweep) (s : State),
    s.key.sweep = some w ∧ (w.rowsDone = false ∨ w.left ≠ 0) :=
  ⟨5, sweep1, sweeping sweep1, by decide +kernel⟩

theorem witness_KeysAndSweeps_16 :
    ∃ (t : Nat) (m : BitVec 256) (s : State),
    s.key.sweep = none :=
  ⟨5, 0, up, by decide +kernel⟩

theorem witness_BackgroundEnds_0 :
    ∃ (t : Nat) (d : Discard) (s : State),
    s.map.discard = some d ∧ d.left ≠ 0 ∧ s.changesWait = false ∧ s.fab.restarts = [] :=
  ⟨5, ⟨0, 32768, 0, 2, 0⟩, { leaving with map := { leaving.map with discard := some ⟨0, 32768, 0, 2, 0⟩ } }, by decide +kernel⟩

theorem witness_BackgroundEnds_1 :
    ∃ (t : Nat) (d : Discard) (s : State),
    s.map.discard = some d ∧ (d.left = 0 ∨ s.changesWait = true) :=
  ⟨5, ⟨0, 32768, 2, 0, 2⟩, { up with map := { up.map with discard := some ⟨0, 32768, 2, 0, 2⟩ } }, by decide +kernel⟩

theorem witness_BackgroundEnds_2 :
    ∃ (t : Nat) (d : Discard) (b : Background) (s : State),
    s.map.discard = some d ∧ d.left = 0 ∧ s.map.tail.any (fun c => c.kind == 5) = false ∧ s.link.background = some b :=
  ⟨5, ⟨0, 32768, 2, 0, 2⟩, ⟨0xC020, 0, .mctp⟩, { up with map := { up.map with discard := some ⟨0, 32768, 2, 0, 2⟩ }, link := { up.link with background := some ⟨0xC020, 0, .mctp⟩ } }, by decide +kernel⟩

theorem witness_BackgroundEnds_3 :
    ∃ (t : Nat) (d : Discard) (s : State),
    s.map.discard = some d ∧ (d.left ≠ 0 ∨ s.map.tail.any (fun c => c.kind == 5) = true) :=
  ⟨5, ⟨0, 32768, 1, 1, 1⟩, { up with map := { up.map with discard := some ⟨0, 32768, 1, 1, 1⟩ } }, by decide +kernel⟩

theorem witness_BackgroundEnds_4 :
    ∃ (t k n : Nat) (b : Background) (s : State),
    s.link.scan = some (k, n) ∧ s.map.entries = [] ∧ s.map.poison.length < 8192 ∧ s.link.background = some b :=
  ⟨5, 0, 9, ⟨0x4304, 0, .primary⟩, { up with map := { up.map with overflow := some 7, poison := [⟨3, 1, 0⟩] }, link := { up.link with scan := some (0, 9), background := some ⟨0x4304, 0, .primary⟩ } }, by decide +kernel⟩

theorem witness_BackgroundEnds_5 :
    ∃ (t : Nat) (b : Background) (s : State),
    s.key.erasing = some 0x4400 ∧ s.link.background = some b :=
  ⟨5, ⟨0x4400, 0, .primary⟩, { up with key := { up.key with erasing := some 0x4400 }, link := { up.link with background := some ⟨0x4400, 0, .primary⟩ } }, by decide +kernel⟩

theorem witness_BackgroundEnds_7 :
    ∃ (t : Nat) (s : State),
    s.map.discard = none ∧ s.link.scan = none ∧ s.key.erasing = none :=
  ⟨5, up, by decide +kernel⟩

theorem witness_MailboxReports_0 :
    ∃ (p : Path) (log count : Nat) (s : State),
    s.gate p 0x0100 false false = .pass ∧ log ≤ 3 :=
  ⟨.primary, 1, 5, logged, by decide +kernel⟩

theorem witness_MailboxReports_1 :
    ∃ (p : Path) (log count : Nat) (s : State),
    s.gate p 0x0100 false false = .pass ∧ log ≤ 3 :=
  ⟨.primary, 3, 5, up, by decide +kernel⟩

theorem witness_MailboxReports_2 :
    ∃ (p : Path) (log count : Nat) (s : State),
    s.gate p 0x0100 false false = .pass ∧ 3 < log :=
  ⟨.primary, 4, 1, up, by decide +kernel⟩

theorem witness_MailboxReports_3 :
    ∃ (p : Path) (a b c d : BitVec 8) (s : State),
    s.gate p 0x0102 false false = .pass ∧ s.evt.policy = [a, b, c, d] :=
  ⟨.primary, 1, 0, 255, 2, { up with evt := { up.evt with policy := [1, 0, 255, 2] } }, by decide +kernel⟩

theorem witness_MailboxReports_4 :
    ∃ (p : Path) (s : State),
    s.gate p 0x0200 false false = .pass ∧ s.boot.fw.length = 2 :=
  ⟨.primary, up, by decide +kernel⟩

theorem witness_MailboxReports_5 :
    ∃ (p : Path) (s : State),
    s.gate p 0x0300 false false = .pass :=
  ⟨.primary, withLink (fun l => { l with timestamp := some (9, 7) }) up, by decide +kernel⟩

theorem witness_MailboxReports_6 :
    ∃ (p : Path) (s : State),
    s.gate p 0x0400 false false = .pass :=
  ⟨.primary, up, by decide +kernel⟩

theorem witness_MailboxReports_7 :
    ∃ (p : Path) (o n : Nat) (s : State),
    s.gate p 0x0401 false false = .pass ∧ o + n ≤ 4 * commandTable.length :=
  ⟨.primary, 4, 8, up, by decide +kernel⟩

theorem witness_MailboxReports_8 :
    ∃ (p : Path) (o n : Nat) (s : State),
    s.gate p 0x0401 false false = .pass ∧ o + n ≤ 4 * commandTable.length :=
  ⟨.primary, 0, 4 * commandTable.length, up, by decide +kernel⟩

theorem witness_MailboxReports_9 :
    ∃ (p : Path) (s : State),
    s.gate p 0x4000 false false = .pass :=
  ⟨.primary, up, by decide +kernel⟩

theorem witness_MailboxReports_10 :
    ∃ (p : Path) (o n : Nat) (s : State),
    s.gate p 0x4102 false true = .pass ∧ o + n ≤ lsaSize ∧ n ≤ 65536 :=
  ⟨.primary, 524280, 8, withLink (fun l => { l with lsa := [(524281, 7)] }) up, by decide +kernel⟩

theorem witness_MailboxReports_11 :
    ∃ (p : Path) (s : State),
    s.gate p 0x4200 false false = .pass :=
  ⟨.primary, up, by decide +kernel⟩

theorem witness_MailboxReports_12 :
    ∃ (p : Path) (s : State),
    s.gate p 0x4201 false false = .pass :=
  ⟨.primary, up, by decide +kernel⟩

theorem witness_MailboxReports_13 :
    ∃ (p : Path) (s : State),
    s.gate p 0x4203 true false = .pass :=
  ⟨.primary, withLink (fun l => { l with shutdownState := 0x12345678 }) up, by decide +kernel⟩

theorem witness_MailboxReports_14 :
    ∃ (p : Path) (dpa n k : Nat) (s : State),
    s.gate p 0x4300 false false = .pass ∧ dpa % 64 = 0 ∧ n ≠ 0 ∧ dpa + 64 * n ≤ s.capacity ∧ s.link.poisonNext = none ∧ k ≤ 4094 ∧ (s.map.poison.filter (fun r => decide (r.line < dpa / 64 + n) && decide (dpa / 64 < r.line + r.length))).length = k :=
  ⟨.primary, 64, 3, 1, poisoned, by decide +kernel⟩

theorem witness_MailboxReports_15 :
    ∃ (p : Path) (dpa n : Nat) (s : State),
    s.gate p 0x4300 false false = .pass ∧ n ≠ 0 :=
  ⟨.primary, 8192 * gib, 1, up, by decide +kernel⟩

theorem witness_MailboxReports_16 :
    ∃ (p : Path) (dpa n : Nat) (s : State),
    s.gate p 0x4300 false false = .pass ∧ n ≠ 0 :=
  ⟨.primary, 5, 1, up, by decide +kernel⟩

theorem witness_MailboxReports_17 :
    ∃ (p : Path) (dpa n : Nat) (s : State),
    s.gate p 0x4303 false true = .pass ∧ dpa % 64 = 0 ∧ n ≠ 0 ∧ dpa + 64 * n ≤ s.capacity :=
  ⟨.primary, 0, 8, up, by decide +kernel⟩

theorem witness_MailboxReports_18 :
    ∃ (p : Path) (s : State),
    s.gate p 0x4305 false true = .pass :=
  ⟨.primary, withLink (fun l => { l with scanResults := [(4, 2)] }) up, by decide +kernel⟩

theorem witness_MailboxReports_19 :
    ∃ (t : Nat) (p : Path) (s : State),
    s.gate p 0xC000 false false = .pass :=
  ⟨5, .primary, up, by decide +kernel⟩

theorem witness_MailboxReports_20 :
    ∃ (p : Path) (s : State),
    s.gate p 0xC011 false false = .pass :=
  ⟨.primary, up, by decide +kernel⟩

theorem witness_MailboxReports_21 :
    ∃ (p : Path) (a n : Nat) (s : State),
    s.gate p 0xC021 false false = .pass ∧ a < s.key.extents.length ∧ n ≠ 0 ∧ n ≤ 2047 :=
  ⟨.primary, 0, 7, { up with key := { up.key with extents := [{ noExtent with units := 1 }] } }, by decide +kernel⟩

theorem witness_MailboxReports_22 :
    ∃ (p : Path) (a n : Nat) (s : State),
    s.gate p 0xC033 false false = .pass ∧ a ≤ 4095 ∧ n ≠ 0 ∧ n ≤ 4094 :=
  ⟨.primary, 4095, 8, up, by decide +kernel⟩

theorem witness_MailboxReports_23 :
    ∃ (p : Path) (s : State),
    s.gate p 0xC041 false false = .pass :=
  ⟨.primary, ringed, by decide +kernel⟩

theorem witness_MailboxReports_24 :
    ∃ (p : Path) (q n : Nat) (s : State),
    s.gate p 0xC050 true false = .pass ∧ n ≠ 0 ∧ n ≤ 1024 ∧ s.recd.stored = [] :=
  ⟨.primary, 1, 5, { up with recd := { up.recd with staging := [rec1] } }, by decide +kernel⟩

theorem witness_MailboxReports_25 :
    ∃ (p : Path) (i : Nat) (a : Attempt) (s : State),
    s.gate p 0xC060 true false = .pass ∧ i < 16 ∧ s.boot.ledger[i]? = some a :=
  ⟨.primary, 0, attempt1, withBoot (fun b => { b with ledger := [attempt1] }) up, by decide +kernel⟩

theorem witness_MailboxReports_26 :
    ∃ (p : Path) (i : Nat) (s : State),
    s.gate p 0xC060 true false = .pass ∧ s.boot.ledger[i]? = none :=
  ⟨.primary, 0, up, by decide +kernel⟩

theorem witness_MailboxReports_27 :
    ∃ (p : Path) (d : Nat) (s : State),
    s.gate p 0xC080 false false = .pass ∧ s.fitted d = true :=
  ⟨.primary, 63, up, by decide +kernel⟩

theorem witness_MailboxReports_28 :
    ∃ (p : Path) (s : State),
    s.gate p 0xC080 false false = .pass :=
  ⟨.primary, up, by decide +kernel⟩

theorem witness_MailboxReports_29 :
    ∃ (t : Nat) (p : Path) (part row n : Nat) (w : BitVec 128) (s : State),
    s.gate p 0xC001 true false = .pass ∧ part < 5 ∧ row < partRows part ∧ n ≠ 0 ∧ n ≤ 240 :=
  ⟨5, .primary, 4, 1023, 9, 0, up, by decide +kernel⟩

theorem witness_MailboxReports_30 :
    ∃ (t : Nat) (p : Path) (row n : Nat) (w : BitVec 128) (s : State),
    s.gate p 0xC001 true false = .pass :=
  ⟨5, .primary, 0, 1, 0, up, by decide +kernel⟩

theorem witness_MailboxReports_31 :
    ∃ (p : Path) (rc : Rc) (s : State),
    s.gate p 0x4200 false false = .refuse rc :=
  ⟨.mctp, .retryRequired, withBoot (fun b => { b with complete := false }) up, by decide +kernel⟩

theorem witness_MailboxReports_32 :
    ∃ (p : Path) (s : State),
    s.gate p 0x4200 false false = .silent :=
  ⟨.primary, withLink (fun l => { l with mboxReady := false }) up, by decide +kernel⟩

theorem witness_MailboxStandard_0 :
    ∃ (p : Path) (log : Nat) (hs : List Nat) (s : State),
    s.gate p 0x0101 false false = .pass ∧ log ≤ 3 :=
  ⟨.primary, 1, [], logged, by decide +kernel⟩

theorem witness_MailboxStandard_1 :
    ∃ (p : Path) (log : Nat) (hs : List Nat) (s : State),
    s.gate p 0x0101 false false = .pass ∧ log ≤ 3 ∧ hs ≠ [] ∧ ((s.evt.logs.getD log []).map (fun r => r.handle)).take hs.length = hs :=
  ⟨.primary, 1, [4], logged, by decide +kernel⟩

theorem witness_MailboxStandard_2 :
    ∃ (p : Path) (log : Nat) (hs : List Nat) (s : State),
    s.gate p 0x0101 false false = .pass ∧ log ≤ 3 ∧ hs ≠ [] ∧ ((s.evt.logs.getD log []).map (fun r => r.handle)).take hs.length ≠ hs :=
  ⟨.primary, 1, [5], logged, by decide +kernel⟩

theorem witness_MailboxStandard_3 :
    ∃ (p : Path) (l : List (BitVec 8)) (s : State),
    s.gate p 0x0103 false false = .pass ∧ l.length = 4 ∧ l.all (fun b => decide (b.toNat % 4 ≤ 1)) = true :=
  ⟨.primary, [0, 1, 0, 0xF1], up, by decide +kernel⟩

theorem witness_MailboxStandard_4 :
    ∃ (p : Path) (l : List (BitVec 8)) (s : State),
    s.gate p 0x0103 false false = .pass ∧ l.length ≠ 4 :=
  ⟨.primary, [0, 1], up, by decide +kernel⟩

theorem witness_MailboxStandard_5 :
    ∃ (t : Nat) (p : Path) (ns : BitVec 64) (s : State),
    s.gate p 0x0301 false false = .pass ∧ s.cal.restored = true ∧ s.cal.provisional = false ∧ (s.cal.calendar : Int) ≤ hostSeconds ns :=
  ⟨5, .primary, 946684801000000000, keepsTime 0, by decide +kernel⟩

theorem witness_MailboxStandard_6 :
    ∃ (t : Nat) (p : Path) (ns : BitVec 64) (s : State),
    s.gate p 0x0301 false false = .pass ∧ s.cal.restored = true ∧ s.cal.provisional = false ∧ hostSeconds ns < s.cal.calendar ∧ (s.cal.calendar : Int) ≤ hostSeconds ns + 60 :=
  ⟨5, .primary, 946684801000000000, keepsTime 61, by decide +kernel⟩

theorem witness_MailboxStandard_7 :
    ∃ (t : Nat) (p : Path) (ns : BitVec 64) (s : State),
    s.gate p 0x0301 false false = .pass ∧ s.cal.restored = true ∧ hostSeconds ns + 60 < s.cal.calendar :=
  ⟨5, .primary, 946684801000000000, keepsTime 62, by decide +kernel⟩

theorem witness_MailboxStandard_8 :
    ∃ (t : Nat) (p : Path) (ns : BitVec 64) (s : State),
    s.gate p 0x0301 false false = .pass ∧ s.cal.restored = false :=
  ⟨5, .primary, 946684801000000000, up, by decide +kernel⟩

theorem witness_MailboxStandard_9 :
    ∃ (p : Path) (o k : Nat) (b : Bytes) (s : State),
    s.gate p 0x4103 false true = .pass ∧ o + b.length ≤ lsaSize ∧ s.fro = false :=
  ⟨.primary, 7, 8, [3, 0], withLink (fun l => { l with lsa := [(8, 5)] }) up, by decide +kernel⟩

theorem witness_MailboxStandard_10 :
    ∃ (p : Path) (o : Nat) (b : Bytes) (s : State),
    s.gate p 0x4103 false true = .pass ∧ o + b.length ≤ lsaSize ∧ s.fro = true :=
  ⟨.primary, 524287, [3], readOnly, by decide +kernel⟩

theorem witness_MailboxStandard_11 :
    ∃ (p : Path) (v e : BitVec 8) (life : Nat) (hot cold : Int) (vol per : Nat) (s : State),
    s.gate p 0x4202 false false = .pass ∧ life ≤ 100 :=
  ⟨.primary, 0x35, 0xF7, 100, 70, -5, 9, 8, up, by decide +kernel⟩

theorem witness_MailboxStandard_12 :
    ∃ (t : Nat) (p : Path) (k n : Nat) (img : FwImage) (s : State),
    s.gate p 0x0201 false false = .pass ∧ s.link.transfer = none ∧ k < 2 ∧ 4096 ≤ n ∧ n ≤ 65536 ∧ s.runningFw k = false ∧ s.fwMisfit img = none :=
  ⟨5, .primary, 1, 4096, factoryFw, up, by decide +kernel⟩

theorem witness_MailboxStandard_13 :
    ∃ (t : Nat) (p : Path) (k n : Nat) (img : FwImage) (s : State),
    s.gate p 0x0201 false false = .pass ∧ s.link.transfer = none ∧ k < 2 ∧ 4096 ≤ n ∧ n ≤ 65536 ∧ s.runningFw k = true :=
  ⟨5, .primary, 0, 65536, factoryFw, up, by decide +kernel⟩

theorem witness_MailboxStandard_14 :
    ∃ (t slot n : Nat) (x : Transfer) (img : FwImage) (s : State),
    s.gate x.path 0x0201 false false = .pass ∧ s.link.transfer = some x ∧ max s.now t < x.lastAt + 30 * sec ∧ x.next % 128 = 0 ∧ n ≤ 65536 :=
  ⟨5, 0, 65536, ⟨.primary, 1, 4096, 20000000000⟩, factoryFw, withLink (fun l => { l with transfer := some ⟨.primary, 1, 4096, 20000000000⟩ }) up, by decide +kernel⟩

theorem witness_MailboxStandard_15 :
    ∃ (t : Nat) (p : Path) (k : Nat) (x : FwSlot) (s : State),
    s.gate p 0x0202 false false = .pass ∧ k < 2 ∧ s.boot.fw[k]? = some x ∧ x.st = 1 ∧ s.fwMisfit x.img = none ∧ s.runningFw k = false :=
  ⟨5, .primary, 1, ⟨1, factoryFw⟩, withBoot (fun b => { b with fw := [⟨1, factoryFw⟩, ⟨1, factoryFw⟩] }) up, by decide +kernel⟩

theorem witness_MailboxStandard_16 :
    ∃ (t : Nat) (p : Path) (n : Nat) (s : State),
    s.gate p 0x0202 false false = .pass :=
  ⟨5, .primary, 1, up, by decide +kernel⟩

theorem witness_MailboxStandard_17 :
    ∃ (p : Path) (v : BitVec 32) (s : State),
    s.gate p 0x4204 true false = .pass :=
  ⟨.primary, 0x12345678, supplied, by decide +kernel⟩

theorem witness_MailboxStandard_18 :
    ∃ (t v : Nat) (p : Path) (w : RowWrite) (s : State),
    s.tly.running = some w ∧ w.owner = 1 ∧ s.tly.queue = [] ∧ s.flip.armed = none ∧ s.link.wait = some ⟨p, 0x4204, [], 1, [v]⟩ :=
  ⟨5, 7, .primary, ⟨4, 1, 2, [7], 1, 0⟩, rowRunning 0x4204 [7], by decide +kernel⟩

theorem witness_MailboxStandard_19 :
    ∃ (t dpa : Nat) (p : Path) (x : NearSlot) (s : State),
    s.gate p 0x4301 true true = .pass ∧ dpa % 64 = 0 ∧ dpa + 64 ≤ s.capacity ∧ s.link.background = none ∧ s.link.maint = [] ∧ s.injectedLines < 256 ∧ s.nearAt (dpa / 256) = some x ∧ s.evictAt (dpa / 256) = none ∧ s.boardAt (dpa / 256) = none ∧ s.wbAt (dpa / 256) = none ∧ s.fillAt (dpa / 256) = none ∧ s.restarting 2 = false ∧ s.restarting 4 = false ∧ s.listed (dpa / 64) = false ∧ s.map.poison.findIdx? (extends? (dpa / 64) 2) = none ∧ s.map.poison.length < 8192 :=
  ⟨5, 64, .primary, near0, staged1, by decide +kernel⟩

theorem witness_MailboxStandard_20 :
    ∃ (t dpa : Nat) (p : Path) (x : NearSlot) (d : Line) (s : State),
    s.gate p 0x4302 true true = .pass ∧ dpa % 64 = 0 ∧ dpa + 64 ≤ s.capacity ∧ s.link.background = none ∧ s.link.maint = [] ∧ s.nearAt (dpa / 256) = some x ∧ s.lineEpochMode (dpa / 256) = false ∧ s.storesNothing ⟨0x4302, p, dpa / 64, d, false⟩ = false ∧ (s.tick t).maintReady ⟨0x4302, p, dpa / 64, d, false⟩ = true ∧ s.pfl.wt = none ∧ s.pfl.clean = false ∧ s.pfl.overlay = [] ∧ s.flip.armed = none ∧ s.listed (dpa / 64) = false :=
  ⟨5, 64, .primary, near0, 77, unclean staged1, by decide +kernel⟩

theorem witness_MailboxStandard_21 :
    ∃ (t dpa : Nat) (p : Path) (s : State),
    s.gate p 0x4301 true true = .pass ∧ dpa % 64 = 0 ∧ dpa + 64 ≤ s.capacity ∧ s.link.background = none ∧ s.listed (dpa / 64) = false ∧ 256 ≤ s.injectedLines :=
  ⟨5, 64, .primary, { up with map := { up.map with poison := [⟨1024, 256, 2⟩] } }, by decide +kernel⟩

theorem witness_MailboxStandard_22 :
    ∃ (t dpa n : Nat) (p : Path) (s : State),
    s.gate p 0x4304 false true = .pass ∧ s.link.background = none ∧ dpa % 64 = 0 ∧ n ≠ 0 ∧ dpa + 64 * n ≤ s.capacity :=
  ⟨5, 64, 8, .primary, up, by decide +kernel⟩

theorem witness_MailboxStandard_23 :
    ∃ (t dpa n : Nat) (p : Path) (s : State),
    s.gate p 0x4304 false true = .pass ∧ s.link.background.isSome = true :=
  ⟨5, 64, 8, .primary, withLink (fun l => { l with background := some ⟨0xC020, 0, .primary⟩ }) up, by decide +kernel⟩

theorem witness_MailboxStandard_24 :
    ∃ (t : Nat) (p : Path) (s : State),
    s.gate p 0x4400 true true = .pass ∧ s.link.background = none ∧ keyOk s.key = true :=
  ⟨5, .primary, poisoned, by decide +kernel⟩

theorem witness_MailboxStandard_25 :
    ∃ (t : Nat) (p : Path) (s : State),
    s.gate p 0x4401 true true = .pass ∧ s.link.background = none ∧ keyOk s.key = true :=
  ⟨5, .primary, poisoned, by decide +kernel⟩

theorem witness_MailboxStandard_26 :
    ∃ (t : Nat) (p : Path) (w : RowWrite) (s : State),
    s.tly.running = some w ∧ w.owner = 1 ∧ s.tly.queue = [] ∧ s.flip.armed = none ∧ s.link.wait = some ⟨p, 0x4401, [], 1, []⟩ :=
  ⟨5, .primary, ⟨4, 5, 512, [7], 1, 0⟩, rowRunning 0x4401 [], by decide +kernel⟩

theorem witness_MailboxVendor_0 :
    ∃ (t : Nat) (p : Path) (row : Nat) (w : BitVec 128) (b : Bytes) (s : State),
    s.gate p 0xC002 true false = .pass ∧ row ≤ 511 ∧ b.length = 256 ∧ s.lockedOut 7 = false ∧ s.passOk 7 w = true :=
  ⟨5, .primary, 511, 0, zeros 256, supplied, ⟨by decide +kernel, by decide +kernel, by decide +kernel, by decide +kernel, beq_self_eq_true (Config.sha3 (zeros 16))⟩⟩

theorem witness_MailboxVendor_1 :
    ∃ (t : Nat) (p : Path) (part : Nat) (old new : BitVec 128) (s : State),
    s.gate p 0xC003 true false = .pass ∧ (part = 6 ∨ part = 7) ∧ s.lockedOut part = false ∧ s.passOk part old = true :=
  ⟨5, .primary, 7, 0, 9, supplied, ⟨by decide +kernel, by decide +kernel, by decide +kernel, beq_self_eq_true (Config.sha3 (zeros 16))⟩⟩

theorem witness_MailboxVendor_2 :
    ∃ (t : Nat) (p : Path) (row : Nat) (w v : BitVec 128) (b : Bytes) (s : State),
    s.gate p 0xC002 true false = .pass ∧ s.gate p 0xC003 true false = .pass ∧ row ≤ 511 ∧ b.length = 256 ∧ s.lockedOut 7 = true :=
  ⟨5, .primary, 0, 0, 0, zeros 256, { up with tly := { up.tly with locked := [7] } }, by decide +kernel⟩

theorem witness_MailboxVendor_3 :
    ∃ (t : Nat) (p : Path) (img : Image) (s : State),
    s.gate p 0xC010 false false = .pass ∧ s.link.cfgTransfer = none ∧ 4096 ≤ img.length ∧ img.length ≤ 65408 ∧ s.cfgHeaderRefused img = none ∧ s.bodyRefused img = none :=
  ⟨5, .primary, image2, up, by decide +kernel⟩

theorem witness_MailboxVendor_4 :
    ∃ (t n : Nat) (p : Path) (img : Image) (s : State),
    s.gate p 0xC010 false false = .pass ∧ s.link.cfgTransfer = none ∧ 4096 ≤ n ∧ n ≤ 65408 ∧ s.cfgHeaderRefused img = none :=
  ⟨5, 4096, .primary, image2, up, by decide +kernel⟩

theorem witness_MailboxVendor_5 :
    ∃ (t n : Nat) (x : Transfer) (img : Image) (s : State),
    s.gate x.path 0xC010 false false = .pass ∧ s.link.cfgTransfer = some x ∧ max s.now t < x.lastAt + 30 * sec ∧ x.next % 128 = 0 ∧ n ≤ 65408 :=
  ⟨5, 65408, ⟨.primary, 1, 4096, 20000000000⟩, image2, withLink (fun l => { l with cfgTransfer := some ⟨.primary, 1, 4096, 20000000000⟩ }) up, by decide +kernel⟩

theorem witness_MailboxVendor_6 :
    ∃ (t n : Nat) (x : Transfer) (img : Image) (s : State),
    s.gate x.path 0xC010 false false = .pass ∧ s.link.cfgTransfer = some x ∧ max s.now t < x.lastAt + 30 * sec ∧ x.next % 128 = 0 ∧ n ≤ 65408 ∧ x.next + n = img.length ∧ s.bodyRefused img = none :=
  ⟨5, 128, ⟨.primary, 1, 3968, 20000000000⟩, image2, withLink (fun l => { l with cfgTransfer := some ⟨.primary, 1, 3968, 20000000000⟩ }) up, by decide +kernel⟩

theorem witness_MailboxVendor_7 :
    ∃ (p : Path) (k : Nat) (x : CfgSlot) (s : State),
    s.gate p 0xC012 false false = .pass ∧ k ≤ 1 ∧ s.boot.cfg[k]? = some x ∧ x.st = 1 :=
  ⟨.primary, 1, ⟨1, image2⟩, withBoot (fun b => { b with cfg := [⟨1, emptyImage⟩, ⟨1, image2⟩], failure := [(3, default)] }) up, by decide +kernel⟩

theorem witness_MailboxVendor_8 :
    ∃ (p : Path) (k : Nat) (x : CfgSlot) (s : State),
    s.gate p 0xC012 false false = .pass ∧ s.boot.cfg[k]? = some x ∧ x.st ≠ 1 :=
  ⟨.primary, 1, ⟨0, emptyImage⟩, up, by decide +kernel⟩

theorem witness_MailboxVendor_9 :
    ∃ (t dpa n : Nat) (p : Path) (s : State),
    s.gate p 0xC020 false true = .pass ∧ s.fro = false ∧ s.link.background = none ∧ dpa % 16384 = 0 ∧ n % 16384 = 0 ∧ n ≠ 0 ∧ dpa + n ≤ s.capacity ∧ s.key.extents.all (fun e => !e.epoch) = true :=
  ⟨5, 8192 * gib - 16384, 16384, .primary, up, by decide +kernel⟩

theorem witness_MailboxVendor_10 :
    ∃ (t dpa n : Nat) (p : Path) (s : State),
    s.gate p 0xC020 false true = .pass ∧ s.fro = false ∧ s.link.background = none ∧ (dpa % 16384 ≠ 0 ∨ n % 16384 ≠ 0 ∨ s.capacity < dpa + n) :=
  ⟨5, 64, 16384, .primary, up, by decide +kernel⟩

theorem witness_MailboxVendor_11 :
    ∃ (p : Path) (k : Nat) (s : State),
    s.gate p 0xC030 true false = .pass ∧ k ≠ 0 ∧ k ≤ 4095 ∧ s.boundNames k = false ∧ s.key.sweep = none ∧ s.key.sweepQueue = [] ∧ 16 < s.emptySlots :=
  ⟨.primary, 4095, up, by decide +kernel⟩

theorem witness_MailboxVendor_12 :
    ∃ (p : Path) (k : Nat) (s : State),
    s.gate p 0xC030 true false = .pass ∧ (k = 0 ∨ 4095 < k ∨ s.boundNames k = true) :=
  ⟨.primary, 4096, up, by decide +kernel⟩

theorem witness_MailboxVendor_13 :
    ∃ (t k : Nat) (p : Path) (w : RowWrite) (b : Bytes) (s : State),
    s.tly.running = some w ∧ w.owner = 1 ∧ s.tly.queue = [] ∧ s.flip.armed = none ∧ s.link.wait = some ⟨p, 0xC030, b, 1, [k]⟩ :=
  ⟨5, 9, .primary, ⟨4, 5, 515, [7], 1, 0⟩, [4, 0], { rowRunning 0xC030 [9] with link := { (rowRunning 0xC030 [9]).link with wait := some ⟨.primary, 0xC030, [4, 0], 1, [9]⟩ } }, by decide +kernel⟩

theorem witness_MailboxVendor_14 :
    ∃ (t k : Nat) (p : Path) (s : State),
    s.gate p 0xC032 true false = .pass ∧ k ≠ 0 ∧ k ≤ 4095 ∧ (s.slot k).st ≠ 0 ∧ s.slotNamed k = false :=
  ⟨5, 9, .primary, withSlot 9 ⟨2, 3, 0, 7⟩, by decide +kernel⟩

theorem witness_MailboxVendor_15 :
    ∃ (t k : Nat) (p : Path) (s : State),
    s.gate p 0xC032 true false = .pass ∧ (s.slot k).st = 0 ∨ s.slotNamed k = true :=
  ⟨5, 9, .primary, up, by decide +kernel⟩

theorem witness_MailboxVendor_16 :
    ∃ (t k : Nat) (p : Path) (w : RowWrite) (s : State),
    s.tly.running = some w ∧ w.owner = 1 ∧ s.tly.queue = [] ∧ s.flip.armed = none ∧ s.link.wait = some ⟨p, 0xC032, [], 1, [k]⟩ :=
  ⟨5, 9, .primary, ⟨4, 5, 515, [7], 1, 0⟩, { rowRunning 0xC032 [9] with key := (withSlot 9 ⟨2, 3, 5, 7⟩).key }, by decide +kernel⟩

theorem witness_MailboxVendor_17 :
    ∃ (t ext k : Nat) (p : Path) (x : ExtentEntry) (s : State),
    s.gate p 0xC031 false true = .pass ∧ s.fro = false ∧ s.tallyBusy = false ∧ s.link.background = none ∧ s.key.sweep = none ∧ s.key.extents[ext]? = some x ∧ (s.slot k).st = 1 ∧ (List.range x.units).all (fun i => (s.unitKey (x.base + i)).key == k) = false :=
  ⟨5, 0, 9, .primary, { noExtent with units := 2 }, rotatable, by decide +kernel⟩

theorem witness_MailboxVendor_18 :
    ∃ (t : Nat) (p : Path) (s : State),
    s.gate p 0xC051 true false = .pass :=
  ⟨5, .primary, supplied, by decide +kernel⟩

theorem witness_MailboxVendor_19 :
    ∃ (t b : Nat) (p : Path) (w : RowWrite) (s : State),
    s.tly.running = some w ∧ w.owner = 1 ∧ s.tly.queue = [] ∧ s.flip.armed = none ∧ s.link.wait = some ⟨p, 0xC051, [], 1, [b]⟩ :=
  ⟨5, 6, .primary, ⟨4, 1, 3, [7], 1, 0⟩, { rowRunning 0xC051 [6] with recd := { up.recd with stored := [rec1], staging := [rec1] } }, by decide +kernel⟩

theorem witness_MailboxVendor_20 :
    ∃ (t : Nat) (p : Path) (s : State),
    s.gate p 0xC070 false false = .pass ∧ s.link.background = none ∧ s.pfl.test = none ∧ s.draining = false ∧ s.pfl.slots.any (fun d => d.st == 4) = false :=
  ⟨5, .primary, up, by decide +kernel⟩

theorem witness_MailboxVendor_21 :
    ∃ (t : Nat) (p : Path) (s : State),
    s.gate p 0xC070 false false = .pass ∧ (s.link.background.isSome = true ∨ s.pfl.test.isSome = true) :=
  ⟨5, .primary, testing ⟨0, 1, 0, 0, 0, 0, 0⟩, by decide +kernel⟩

theorem witness_MailboxVendor_22 :
    ∃ (p : Path) (m : FlipIn) (s : State),
    s.gate p 0xC090 false false = .pass ∧ flipOk s m = true :=
  ⟨.primary, ⟨2, true, 0, 0, 1, 64, 3⟩, up, by decide +kernel⟩

theorem witness_MailboxVendor_23 :
    ∃ (p : Path) (m : FlipIn) (s : State),
    s.gate p 0xC090 false false = .pass ∧ m.target = 0 :=
  ⟨.primary, ⟨0, false, 0, 0, 0, 0, 0⟩, up, by decide +kernel⟩

theorem witness_MailboxVendor_24 :
    ∃ (p : Path) (m : FlipIn) (s : State),
    s.gate p 0xC090 false false = .pass ∧ m.target ≠ 0 ∧ flipOk s m = false :=
  ⟨.primary, ⟨5, false, 0, 0, 0, 0, 0⟩, up, by decide +kernel⟩

theorem witness_RingLink_0 :
    ∃ (t : Nat) (i o : Bool) (s : State),
    s.boot.running = false ∧ s.boot.complete = false :=
  ⟨5, true, false, withBoot (fun b => { b with complete := false }) up, by decide +kernel⟩

theorem witness_RingLink_1 :
    ∃ (t : Nat) (i o : Bool) (s : State),
    s.boot.complete = true ∧ (i && o) = false ∧ (i || o) = true ∨ s.alone = false :=
  ⟨5, true, false, ringed, by decide +kernel⟩

theorem witness_RingLink_2 :
    ∃ (t : Nat) (i o : Bool) (s : State),
    s.boot.complete = true ∧ (i && o) = false ∧ (i || o) = true ∨ s.alone = false :=
  ⟨5, false, false, ringed, by decide +kernel⟩

theorem witness_RingLink_3 :
    ∃ (t : Nat) (s : State),
    s.boot.complete = true ∧ s.alone = true :=
  ⟨5, up, by decide +kernel⟩

theorem witness_RingLink_4 :
    ∃ (t : Nat) (s : State),
    s.ring.st = 2 ∧ s.ring.inCable = true ∧ s.ring.outCable = true :=
  ⟨5, { ringed with ring := { ringed.ring with st := 2, inSync := false } }, by decide +kernel⟩

theorem witness_RingLink_5 :
    ∃ (t : Nat) (s : State),
    s.ring.st ≠ 2 :=
  ⟨5, ringed, by decide +kernel⟩

theorem witness_RingLink_6 :
    ∃ (t : Nat) (b : Bool) (s : State),
    s.ring.inSync = true ∧ s.reg RING_ERR.sync_losses + 1 < RING_ERR.sync_losses.size :=
  ⟨5, true, ringed, by decide +kernel⟩

theorem witness_RingLink_7 :
    ∃ (t : Nat) (s : State),
    s.ring.inSync = false ∧ s.ring.st ≠ 1 ∧ s.ring.st ≠ 4 :=
  ⟨5, up, by decide +kernel⟩

theorem witness_RingLink_8 :
    ∃ (t : Nat) (s : State),
    s.onRing = true ∧ s.ring.st = 0 :=
  ⟨5, joining, by decide +kernel⟩

theorem witness_RingLink_9 :
    ∃ (t : Nat) (s : State),
    (s.onRing = false ∨ s.ring.st ≠ 0) :=
  ⟨5, ringed, by decide +kernel⟩

theorem witness_RingLink_10 :
    ∃ (t n i : Nat) (f : FrameHead) (m : Member) (s : State),
    s.onRing = true ∧ f.crcOk = true ∧ n ≠ s.serial.toNat ∧ f.ringId = s.ring.ringId ∧ s.ring.members.findIdx? (fun m => m.serial == n) = some i ∧ s.ring.members[i]? = some m ∧ m.present = false ∧ (setAt s.ring.members i { m with present := true }).all (fun m => m.present) = false :=
  ⟨5, 77, 1, headFrom 1, { Member.atReset with serial := 77 }, { joining with ring := { joining.ring with members := joining.ring.members ++ [{ Member.atReset with serial := 78 }] } }, by decide +kernel⟩

theorem witness_RingLink_11 :
    ∃ (t n i : Nat) (f : FrameHead) (m : Member) (s : State),
    s.onRing = true ∧ f.crcOk = true ∧ n ≠ s.serial.toNat ∧ f.ringId = s.ring.ringId ∧ s.ring.members.findIdx? (fun m => m.serial == n) = some i ∧ s.ring.members[i]? = some m ∧ m.present = false ∧ s.ring.st = 0 ∧ s.ring.close = none ∧ (setAt s.ring.members i { m with present := true, version := f.version }).all (fun m => m.present && m.version == 2) = true :=
  ⟨5, 77, 1, headFrom 1, { Member.atReset with serial := 77 }, joining, by decide +kernel⟩

theorem witness_RingLink_12 :
    ∃ (t n : Nat) (f : FrameHead) (s : State),
    s.onRing = true ∧ f.crcOk = true ∧ n ≠ s.serial.toNat ∧ s.ring.members.findIdx? (fun m => m.serial == n) = none :=
  ⟨5, 99, headFrom 1, ringed, by decide +kernel⟩

theorem witness_RingLink_13 :
    ∃ (t n i : Nat) (f : FrameHead) (m : Member) (s : State),
    s.onRing = true ∧ f.crcOk = true ∧ n ≠ s.serial.toNat ∧ f.ringId ≠ s.ring.ringId ∧ s.ring.members.findIdx? (fun m => m.serial == n) = some i ∧ s.ring.members[i]? = some m :=
  ⟨5, 77, 1, { headFrom 1 with ringId := 9 }, ringed.ring.members.getD 1 Member.atReset, ringed, by decide +kernel⟩

theorem witness_RingLink_14 :
    ∃ (t : Nat) (f : FrameHead) (s : State),
    s.onRing = true ∧ f.crcOk = true :=
  ⟨5, headFrom 0, ringed, by decide +kernel⟩

theorem witness_RingLink_15 :
    ∃ (t : Nat) (s : State),
    s.onRing = true ∧ (s.ring.st = 1 ∨ s.ring.st = 4) ∧ s.ring.position = some 0 :=
  ⟨5, ringed, by decide +kernel⟩

theorem witness_RingLink_16 :
    ∃ (t : Nat) (s : State),
    s.ring.position ≠ some 0 :=
  ⟨5, second, by decide +kernel⟩

theorem witness_RingLink_17 :
    ∃ (t : Nat) (f : FrameHead) (e : BitVec 48) (k : BitVec 16) (s : State),
    s.onRing = true ∧ f.crcOk = true ∧ f.ringId = s.ring.ringId ∧ s.mine f = true :=
  ⟨5, headFrom 0, 3, 3, ringed, by decide +kernel⟩

theorem witness_RingLink_18 :
    ∃ (t q : Nat) (f : FrameHead) (e : BitVec 48) (k : BitVec 16) (s : State),
    s.onRing = true ∧ f.crcOk = true ∧ f.ringId = s.ring.ringId ∧ s.ring.position = some q ∧ f.origin ≠ q :=
  ⟨5, 1, headFrom 0, 3, 1, second, by decide +kernel⟩

theorem witness_RingLink_19 :
    ∃ (t : Nat) (s : State),
    (s.ring.st = 1 ∨ s.ring.st = 4) ∧ s.ring.lastBeat + 300 * usec ≤ max s.now t :=
  ⟨20000300000, { ringed with ring := { ringed.ring with lastBeat := 20000000000 } }, by decide +kernel⟩

theorem witness_RingLink_20 :
    ∃ (t : Nat) (s : State),
    max s.now t < s.ring.lastBeat + 300 * usec :=
  ⟨20000299999, { ringed with ring := { ringed.ring with lastBeat := 20000000000 } }, by decide +kernel⟩

theorem witness_RingLink_21 :
    ∃ (t : Nat) (s : State),
    s.link.protocol ≠ 0 ∧ s.ring.flushFrom = none ∧ s.onRing = true :=
  ⟨5, ringed, by decide +kernel⟩

theorem witness_RingLink_22 :
    ∃ (t : Nat) (s : State),
    (s.link.protocol = 0 ∨ s.ring.flushFrom.isSome = true) :=
  ⟨5, { ringed with ring := { ringed.ring with flushFrom := some 7 } }, by decide +kernel⟩

theorem witness_RingLink_23 :
    ∃ (t : Nat) (f : FrameHead) (q : BitVec 48) (k : BitVec 16) (s : State),
    s.onRing = true ∧ f.crcOk = true ∧ f.ringId = s.ring.ringId ∧ s.mine f = false ∧ s.flushLeft = [] ∧ s.ring.flushSeen = some (f.origin * 2 ^ 48 + q.toNat) :=
  ⟨5, headFrom 0, 3, 1, { second with ring := { second.ring with flushSeen := some 3 } }, by decide +kernel⟩

theorem witness_RingLink_24 :
    ∃ (t : Nat) (f : FrameHead) (q : BitVec 48) (k : BitVec 16) (s : State),
    s.onRing = true ∧ f.crcOk = true ∧ f.ringId = s.ring.ringId ∧ s.mine f = false ∧ s.ring.flushSeen ≠ some (f.origin * 2 ^ 48 + q.toNat) :=
  ⟨5, headFrom 0, 3, 1, { second with cch := staged1.cch }, by decide +kernel⟩

theorem witness_RingLink_25 :
    ∃ (t : Nat) (f : FrameHead) (q : BitVec 48) (k : BitVec 16) (s : State),
    s.onRing = true ∧ f.crcOk = true ∧ f.ringId = s.ring.ringId ∧ s.mine f = true ∧ q.toNat = s.ring.flushSeq :=
  ⟨5, headFrom 0, 3, 2, { ringed with ring := { ringed.ring with flushFrom := some 7, flushSeq := 3 } }, by decide +kernel⟩

theorem witness_RingLink_26 :
    ∃ (t t0 : Nat) (s : State),
    s.ring.flushFrom = some t0 ∧ s.ring.st ≠ 3 ∧ s.flushLeft = [] ∧ (s.ring.flushMask ||| 2 ^ s.ringPos) &&& s.allMask = s.allMask :=
  ⟨5, 7, { ringed with ring := { ringed.ring with flushFrom := some 7, flushSeq := 3, flushMask := 2 } }, by decide +kernel⟩

theorem witness_RingLink_27 :
    ∃ (t t0 : Nat) (s : State),
    s.ring.flushFrom = some t0 ∧ s.ring.st ≠ 3 ∧ s.flushLeft = [] ∧ s.onRing = true ∧ (s.ring.flushMask ||| 2 ^ s.ringPos) &&& s.allMask ≠ s.allMask :=
  ⟨5, 7, { ringed with ring := { ringed.ring with flushFrom := some 7, flushSeq := 3 } }, by decide +kernel⟩

theorem witness_RingLink_28 :
    ∃ (t : Nat) (s : State),
    s.ring.flushFrom = none :=
  ⟨5, ringed, by decide +kernel⟩

theorem witness_RingLink_29 :
    ∃ (t n : Nat) (f : FrameHead) (v : BitVec 64) (s : State),
    s.onRing = true ∧ f.crcOk = true ∧ f.ringId = s.ring.ringId :=
  ⟨5, 9, headFrom 1, 6, ringed, by decide +kernel⟩

theorem witness_RingLink_30 :
    ∃ (t n : Nat) (f : FrameHead) (e : BitVec 48) (k : BitVec 16) (b : BitVec 4) (s : State),
    s.onRing = true ∧ f.crcOk = false :=
  ⟨5, 9, { headFrom 1 with crcOk := false }, 6, 1, 2, ringed, by decide +kernel⟩

theorem witness_RingLink_31 :
    ∃ (t n : Nat) (f : FrameHead) (e : BitVec 48) (k : BitVec 16) (b : BitVec 4) (v : BitVec 64) (s : State),
    s.onRing = false :=
  ⟨5, 9, headFrom 1, 6, 1, 2, 3, up, by decide +kernel⟩

theorem witness_RingLink_32 :
    ∃ (t : Nat) (s : State),
    s.ring.joined = false ∧ s.boot.step = 0x0B ∧ s.waitEnd ≤ max s.now t :=
  ⟨20000000000, waiting, by decide +kernel⟩

theorem witness_RingLink_33 :
    ∃ (t : Nat) (s : State),
    (s.ring.joined = true ∨ s.boot.step ≠ 0x0B ∨ max s.now t < s.waitEnd) :=
  ⟨5, ringed, by decide +kernel⟩

theorem witness_RingLink_34 :
    ∃ (t : Nat) (f : FrameHead) (e : BitVec 48) (b : BitVec 4) (s : State),
    s.onRing = true ∧ f.crcOk = true ∧ f.ringId = s.ring.ringId ∧ s.mine f = true :=
  ⟨5, headFrom 0, 6, 1, ringed, by decide +kernel⟩

theorem witness_RingLink_35 :
    ∃ (t : Nat) (f : FrameHead) (e : BitVec 48) (b : BitVec 4) (s : State),
    s.onRing = true ∧ f.crcOk = true ∧ f.ringId = s.ring.ringId ∧ s.mine f = false ∧ s.ring.joined = true ∧ s.ring.pending = false ∧ s.ring.lost = false ∧ e.toNat ≤ s.ring.committed :=
  ⟨5, headFrom 1, 0, 9, ringed, by decide +kernel⟩

theorem witness_RingLink_36 :
    ∃ (t n : Nat) (f : FrameHead) (e : BitVec 48) (k : BitVec 16) (b : BitVec 4) (v : BitVec 64) (s : State),
    s.onRing = true ∧ f.crcOk = true ∧ f.ringId ≠ s.ring.ringId :=
  ⟨5, 9, { headFrom 1 with ringId := 9 }, 6, 1, 2, 3, ringed, by decide +kernel⟩

theorem witness_RingLink_37 :
    ∃ (t : Nat) (f : FrameHead) (e : BitVec 48) (b : BitVec 4) (s : State),
    s.onRing = true ∧ f.crcOk = true ∧ f.ringId = s.ring.ringId ∧ s.mine f = false ∧ s.ring.joined = false ∧ (s.ring.st = 1 ∨ s.ring.st = 4) ∧ s.allSeen = true :=
  ⟨5, headFrom 1, 0, 1, { ringed with ring := { ringed.ring with joined := false, stateSeen := [1] } }, by decide +kernel⟩

theorem witness_RingEpoch_0 :
    ∃ (t : Nat) (v : Word64) (s : State),
    s.link.protocol ≠ 0 ∧ s.refusal v.toNat = 0 ∧ s.localClose = false ∧ s.tagBusy v.toNat = false ∧ s.onRing = true :=
  ⟨5, 1, ringed, by decide +kernel⟩

theorem witness_RingEpoch_1 :
    ∃ (t : Nat) (v : Word64) (s : State),
    s.link.protocol ≠ 0 ∧ s.refusal v.toNat = 0 ∧ (s.localClose = true ∨ s.tagBusy v.toNat = true) :=
  ⟨5, 1, lonely, by decide +kernel⟩

theorem witness_RingEpoch_2 :
    ∃ (t : Nat) (v : Word64) (s : State),
    s.link.protocol ≠ 0 ∧ s.refusal v.toNat ≠ 0 :=
  ⟨5, 1, second, by decide +kernel⟩

theorem witness_RingEpoch_3 :
    ∃ (t : Nat) (v : Word64) (s : State),
    s.link.protocol ≠ 0 ∧ s.refusal v.toNat ≠ 0 :=
  ⟨5, 3, ringed, by decide +kernel⟩

theorem witness_RingEpoch_5 :
    ∃ (t n : Nat) (v : Word64) (s : State),
    s.link.protocol ≠ 0 ∧ n ≠ 8 :=
  ⟨5, 4, 1, ringed, by decide +kernel⟩

theorem witness_RingEpoch_6 :
    ∃ (t n : Nat) (v : Word64) (s : State),
    s.link.protocol = 0 :=
  ⟨5, 8, 1, withLink (fun l => { l with protocol := 0 }) ringed, by decide +kernel⟩

theorem witness_RingEpoch_7 :
    ∃ (t : Nat) (c : Close) (s : State),
    s.ring.close = some c ∧ c.held = false ∧ c.recordDone = false ∧ c.n = s.ring.committed + 1 :=
  ⟨5, close1, closing1 close1 ringed, by decide +kernel⟩

theorem witness_RingEpoch_8 :
    ∃ (t : Nat) (c : Close) (s : State),
    s.ring.close = some c ∧ (c.held = true ∨ c.recordDone = true) :=
  ⟨5, { close1 with recordDone := true }, closing1 { close1 with recordDone := true } ringed, by decide +kernel⟩

theorem witness_RingEpoch_9 :
    ∃ (t : Nat) (c : Close) (s : State),
    s.ring.close = some c ∧ s.isMaster = true ∧ c.lap2Due (max s.now t) = true ∧ s.onRing = true :=
  ⟨20000003500, { close1 with lap1Back := true, recordDone := true }, closing1 { close1 with lap1Back := true, recordDone := true } ringed, by decide +kernel⟩

theorem witness_RingEpoch_10 :
    ∃ (t : Nat) (c : Close) (s : State),
    s.ring.close = some c ∧ (s.isMaster = false ∨ c.lap1Back = false ∨ c.recordDone = false ∨ max s.now t < c.lap1Sent + 3500) :=
  ⟨20000003499, { close1 with lap1Back := true, recordDone := true }, closing1 { close1 with lap1Back := true, recordDone := true } ringed, by decide +kernel⟩

theorem witness_RingEpoch_11 :
    ∃ (t : Nat) (f : FrameHead) (e : BitVec 48) (k : BitVec 16) (s : State),
    s.onRing = true ∧ f.crcOk = true ∧ f.ringId = s.ring.ringId ∧ s.ring.version = 2 ∧ s.mine f = false ∧ f.lap2 = false ∧ e.toNat = s.ring.committed + 1 ∧ s.ring.close = none ∧ s.ring.prepared = false :=
  ⟨5, headFrom 0, 1, 0, second, by decide +kernel⟩

theorem witness_RingEpoch_12 :
    ∃ (t : Nat) (f : FrameHead) (e : BitVec 48) (k : BitVec 16) (s : State),
    s.onRing = true ∧ f.crcOk = true ∧ f.ringId = s.ring.ringId ∧ s.ring.version = 2 ∧ s.mine f = false ∧ f.lap2 = true ∧ e.toNat = s.ring.committed + 1 ∧ s.ring.prepared = true :=
  ⟨5, { headFrom 0 with lap2 := true }, 1, 1, { second with ring := { second.ring with prepared := true } }, by decide +kernel⟩

theorem witness_RingEpoch_13 :
    ∃ (t : Nat) (f : FrameHead) (e : BitVec 48) (k : BitVec 16) (c : Close) (s : State),
    s.onRing = true ∧ f.crcOk = true ∧ f.ringId = s.ring.ringId ∧ s.ring.version = 2 ∧ s.mine f = true ∧ f.lap2 = false ∧ s.ring.close = some c ∧ c.n = e.toNat ∧ c.recordDone = false :=
  ⟨5, headFrom 0, 1, 0, close1, closing1 close1 ringed, by decide +kernel⟩

theorem witness_RingEpoch_14 :
    ∃ (t : Nat) (f : FrameHead) (e : BitVec 48) (k : BitVec 16) (c : Close) (s : State),
    s.onRing = true ∧ f.crcOk = true ∧ f.ringId = s.ring.ringId ∧ s.ring.version = 2 ∧ s.mine f = true ∧ f.lap2 = true ∧ s.ring.close = some c ∧ c.n = e.toNat ∧ c.phase = 1 :=
  ⟨5, { headFrom 0 with lap2 := true }, 1, 3, close1, closing1 close1 ringed, by decide +kernel⟩

theorem witness_RingEpoch_15 :
    ∃ (t : Nat) (f : FrameHead) (e : BitVec 48) (k : BitVec 16) (c : Close) (s : State),
    s.onRing = true ∧ f.crcOk = true ∧ f.ringId = s.ring.ringId ∧ s.ring.version = 2 ∧ s.mine f = true ∧ f.lap2 = true ∧ s.ring.close = some c ∧ c.n = e.toNat ∧ c.phase = 1 :=
  ⟨5, { headFrom 0 with lap2 := true }, 1, 1, close1, closing1 close1 ringed, by decide +kernel⟩

theorem witness_RingEpoch_16 :
    ∃ (t : Nat) (f : FrameHead) (e : BitVec 48) (k : BitVec 16) (s : State),
    s.onRing = true ∧ f.crcOk = true ∧ f.ringId = s.ring.ringId ∧ s.ring.version ≠ 2 :=
  ⟨5, headFrom 1, 1, 0, { ringed with ring := { ringed.ring with version := 1 } }, by decide +kernel⟩

theorem witness_RingEpoch_17 :
    ∃ (t : Nat) (c : Close) (s : State),
    s.ring.close = some c ∧ s.localClose = true ∧ c.recordDone = true ∧ c.n = s.ring.committed + 1 :=
  ⟨5, { close1 with recordDone := true }, closing1 { close1 with recordDone := true } lonely, by decide +kernel⟩

theorem witness_RingEpoch_18 :
    ∃ (t : Nat) (c : Close) (s : State),
    s.ring.close = some c ∧ s.localClose = false ∧ s.isMaster = true ∧ c.phase = 2 ∧ c.n = s.ring.committed + 1 ∧ s.onRing = true :=
  ⟨5, { close1 with phase := 2 }, closing1 { close1 with phase := 2 } ringed, by decide +kernel⟩

theorem witness_RingEpoch_19 :
    ∃ (t : Nat) (c : Close) (s : State),
    s.ring.close = some c ∧ (c.n ≠ s.ring.committed + 1 ∨ (s.localClose = false ∧ c.phase ≠ 2)) :=
  ⟨5, close1, closing1 close1 ringed, by decide +kernel⟩

theorem witness_RingEpoch_20 :
    ∃ (t : Nat) (f : FrameHead) (e : BitVec 48) (k : BitVec 16) (s : State),
    s.onRing = true ∧ f.crcOk = true ∧ f.ringId = s.ring.ringId ∧ s.ring.version = 2 ∧ s.mine f = false ∧ f.recovery = false ∧ f.resolve = false ∧ e.toNat = s.ring.committed + 1 ∧ s.ring.prepared = true :=
  ⟨5, headFrom 0, 1, 1, { second with ring := { second.ring with prepared := true } }, by decide +kernel⟩

theorem witness_RingEpoch_21 :
    ∃ (t : Nat) (f : FrameHead) (e : BitVec 48) (k : BitVec 16) (s : State),
    s.onRing = true ∧ f.crcOk = true ∧ f.ringId = s.ring.ringId ∧ s.ring.version = 2 ∧ s.mine f = false ∧ e.toNat ≤ s.ring.committed :=
  ⟨5, headFrom 0, 0, 1, second, by decide +kernel⟩

theorem witness_RingEpoch_22 :
    ∃ (t : Nat) (f : FrameHead) (e : BitVec 48) (k : BitVec 16) (s : State),
    s.onRing = true ∧ f.crcOk = true ∧ f.ringId = s.ring.ringId ∧ s.ring.version = 2 ∧ s.mine f = false ∧ f.recovery = false ∧ f.resolve = false ∧ s.ring.committed < e.toNat ∧ s.ring.prepared = false :=
  ⟨5, headFrom 0, 1, 1, second, by decide +kernel⟩

theorem witness_RingEpoch_23 :
    ∃ (t : Nat) (f : FrameHead) (e : BitVec 48) (k : BitVec 16) (c : Close) (s : State),
    s.onRing = true ∧ f.crcOk = true ∧ f.ringId = s.ring.ringId ∧ s.ring.version = 2 ∧ s.mine f = true ∧ f.resolve = false ∧ k.toNat &&& s.allMask = s.allMask ∧ s.ring.close = some c ∧ c.n = e.toNat :=
  ⟨5, headFrom 0, 1, 3, { close1 with phase := 3 }, closing1 { close1 with phase := 3 } ringed, by decide +kernel⟩

theorem witness_RingEpoch_24 :
    ∃ (t : Nat) (f : FrameHead) (e : BitVec 48) (k : BitVec 16) (p : Path) (s : State),
    s.onRing = true ∧ f.crcOk = true ∧ f.ringId = s.ring.ringId ∧ s.ring.version = 2 ∧ s.mine f = true ∧ f.resolve = true ∧ s.ring.resolving = true ∧ s.link.resolve = some p :=
  ⟨5, { headFrom 0 with resolve := true }, 1, 3, .primary, resolving1, by decide +kernel⟩

theorem witness_RingEpoch_25 :
    ∃ (t : Nat) (f : FrameHead) (e : BitVec 48) (k : BitVec 16) (s : State),
    s.onRing = true ∧ f.crcOk = true ∧ f.ringId = s.ring.ringId ∧ s.ring.version = 2 ∧ s.mine f = false ∧ f.recovery = false ∧ f.resolve = false :=
  ⟨5, headFrom 0, 1, 1, second, by decide +kernel⟩

theorem witness_RingEpoch_26 :
    ∃ (t : Nat) (f : FrameHead) (e : BitVec 48) (k : BitVec 16) (s : State),
    s.onRing = true ∧ f.crcOk = true ∧ f.ringId = s.ring.ringId ∧ s.ring.version = 2 ∧ s.mine f = false ∧ (f.recovery = true ∨ f.resolve = true) ∧ s.ring.prepared = true :=
  ⟨5, { headFrom 0 with recovery := true }, 1, 1, { second with ring := { second.ring with prepared := true } }, by decide +kernel⟩

theorem witness_RingEpoch_27 :
    ∃ (t : Nat) (c : Close) (s : State),
    s.ring.close = some c ∧ s.isMaster = true ∧ s.localClose = false ∧ s.onRing = true ∧ s.ring.st = 1 ∧ c.held = false ∧ c.phase = 1 ∧ c.lap2Sent = false ∧ c.lap1Back = false ∧ c.lastSent + 20 * usec ≤ max s.now t :=
  ⟨20000020000, close1, closing1 close1 ringed, by decide +kernel⟩

theorem witness_RingEpoch_28 :
    ∃ (t : Nat) (c : Close) (s : State),
    s.ring.close = some c ∧ s.isMaster = true ∧ s.localClose = false ∧ s.onRing = true ∧ s.ring.st = 1 ∧ c.held = false ∧ c.phase = 3 ∧ c.lastSent + 20 * usec ≤ max s.now t :=
  ⟨20000020000, { close1 with phase := 3 }, closing1 { close1 with phase := 3 } ringed, by decide +kernel⟩

theorem witness_RingEpoch_29 :
    ∃ (t : Nat) (c : Close) (s : State),
    s.ring.close = some c ∧ (s.isMaster = false ∨ c.held = true ∨ max s.now t < c.lastSent + 20 * usec) :=
  ⟨20000019999, close1, closing1 close1 ringed, by decide +kernel⟩

theorem witness_RingEpoch_30 :
    ∃ (t : Nat) (c : Close) (s : State),
    s.ring.close = some c ∧ s.isMaster = true ∧ c.stalled = false ∧ c.phase < 3 ∧ c.t0 + msec ≤ max s.now t :=
  ⟨20001000000, close1, closing1 close1 ringed, by decide +kernel⟩

theorem witness_RingEpoch_31 :
    ∃ (t : Nat) (c : Close) (s : State),
    s.ring.close = some c ∧ (c.stalled = true ∨ max s.now t < c.t0 + msec) :=
  ⟨20000999999, close1, closing1 close1 ringed, by decide +kernel⟩

theorem witness_RingEpoch_32 :
    ∃ (t : Nat) (s : State),
    s.ring.close = none :=
  ⟨5, ringed, by decide +kernel⟩

theorem witness_RingEpoch_33 :
    ∃ (t a : Nat) (p : Path) (s : State),
    s.gate p 0xC040 false false = .pass ∧ s.ring.joined = true ∧ s.ring.pending = true ∧ s.ring.resolving = false ∧ a ≤ 1 ∧ 1 < s.presentCount ∧ s.onRing = true :=
  ⟨5, 1, .primary, { ringed with ring := { ringed.ring with pending := true } }, by decide +kernel⟩

theorem witness_RingEpoch_34 :
    ∃ (t a : Nat) (p : Path) (s : State),
    s.gate p 0xC040 false false = .pass ∧ s.ring.joined = true ∧ s.ring.pending = true ∧ s.ring.resolving = false ∧ a ≤ 1 ∧ 1 < s.presentCount ∧ s.onRing = true :=
  ⟨5, 0, .primary, { ringed with ring := { ringed.ring with pending := true } }, by decide +kernel⟩

theorem witness_RingEpoch_35 :
    ∃ (t a : Nat) (p : Path) (s : State),
    s.gate p 0xC040 false false = .pass ∧ s.ring.joined = true ∧ s.ring.pending = true ∧ s.ring.resolving = false ∧ a ≤ 1 ∧ s.presentCount ≤ 1 :=
  ⟨5, 1, .primary, { lonely with ring := { lonely.ring with pending := true } }, by decide +kernel⟩

theorem witness_RingEpoch_36 :
    ∃ (t a : Nat) (p : Path) (s : State),
    s.gate p 0xC040 false false = .pass ∧ s.ring.joined = true ∧ s.ring.pending = true ∧ s.ring.resolving = false ∧ a ≤ 1 ∧ s.presentCount ≤ 1 :=
  ⟨5, 0, .primary, { lonely with ring := { lonely.ring with pending := true } }, by decide +kernel⟩

theorem witness_RingEpoch_37 :
    ∃ (t a n : Nat) (p : Path) (s : State),
    s.gate p 0xC040 false false = .pass ∧ s.ring.joined = true ∧ (s.ring.pending = false ∨ n ≠ s.ring.committed + 1 ∨ 1 < a) :=
  ⟨5, 2, 1, .primary, { ringed with ring := { ringed.ring with pending := true } }, by decide +kernel⟩

end Sys2Proof.Tests
end

section
/-! PROOFS of the statements about every step and about the registers (00_scope). -/

namespace Sys2Proof.Proofs

open Sys2Proof Sys2Proof.Machine Sys2Proof.Safety Sys2Proof.Laws

/-! ## Which commands answer a next state -/

/-- A conditional answers a next state when both of its branches do. -/
theorem goes_ite {p : Prop} [Decidable p] {a b : Res} (ha : goes a = true) (hb : goes b = true) :
    goes (if p then a else b) = true := by
  split
  · exact ha
  · exact hb

/-- The die position that a command names as the place of its event (R2, R111, R139, log entry 37). -/
def namedDie : Instr → Option (Fin 64)
  | .operationSuspended _ i => some i
  | .operationResume _ i => some i
  | .dieCommandTimeout _ i => some i
  | .wearLevelCheck _ i => some i
  | .checkpointWriteFailed _ i => some i
  | .dieOperationComplete _ i _ => some i
  | .thresholdCountEvaluation _ i _ _ _ => some i
  | .marginRead _ i _ _ _ _ => some i
  | .scrubRead _ i _ _ _ _ _ _ _ => some i
  | _ => none

/-- A command that names no die position always answers a next state: each of its branches does. -/
theorem goes_exec_of_namedDie_none (c : Instr) (s : State) (h : namedDie c = none) : goes (exec c s) = true := by
  cases c
  case operationSuspended | operationResume | dieCommandTimeout | wearLevelCheck | checkpointWriteFailed |
    dieOperationComplete | thresholdCountEvaluation | marginRead | scrubRead => cases h
  case linkTrainingComplete | vauxApplied | vauxRemoved | paceEvaluation | paceLowerInterval | lostNodeRewriteComplete |
    channelWakeComplete | scrubLapComplete | railPowerGood | railDisableSlot | sensorSample | tallyRefreshLap |
    pmuCounterWrap | ideIntegrityFailure | ideKeyProgram | ringFlushStart | evtVecUnmask | pflSuspectClear | pmuLevelSample |
    linkError =>
    exact goes_ite rfl rfl
  case linkTrainingRetry | bootStep | lastResortScanEnd | extentTableSave | hotReset | cxlReset | managementReset |
    cxlMemRead | cxlMemWrite | boardSlotRewrite | escalationEvaluation | envelopeRecompute | channelGate | journalTailFlush |
    demotionSweep | driftLedgerHourly | referenceGroupWrite | thresholdTableSave | calibrationWindowEnd | marginEvaluation |
    scrubLapStart | scrubLapLimit | scrubGatedWake | scrubPositionSave | keyHeld | carryBoundarySave | budgetCompute |
    slotArmed | gpfPhase1 | gpfPhase2 | ringCableChange | ringSyncAcquired | ringSyncLost | discoverSend | discover |
    heartbeatSend | heartbeat | heartbeatTimeout | flush | prepare | commit | rollback | state | reservedTypeFrame |
    inputQualified | railEnableSlot | powerBrakeApply | tallySupplyRecheck | lifetimeCounterSave | recorderDrain |
    recorderRepeatFlush | pmuPortWindowEnd | healthEvaluate | d3hotEntry | d0Entry | aspmL1Entry | aspmL1Exit |
    hdmDecoderCommit | spdmMessage | getMeasurements | doeDiscovery | cdatTableAccess | smbusArp | setEndpointId |
    mctpControlMessage | getEventRecords | clearEventRecords | getEventInterruptPolicy | setEventInterruptPolicy | getFwInfo |
    transferFw | activateFw | getTimestamp | setTimestamp | getSupportedLogs | getLog | identifyMemoryDevice | getLsa |
    setLsa | getHealthInfo | getAlertConfiguration | setAlertConfiguration | getShutdownState | setShutdownState |
    getPoisonList | injectPoison | clearPoison | getScanMediaCapabilities | scanMedia | getScanMediaResults | sanitize |
    sanitizeComplete | secureErase | mediumResetComplete | getCardStatusSummary | readTallyRecords | writeCustomerTally |
    setTallyPassword | transferConfigurationImage | getConfigurationImageInfo | selectConfigurationSlot | discardRange |
    getExtentTable | generateKey | startKeyRotation | retireKeyId | getKeyStatus | epochResolve | getRingStatus |
    readRecorder | clearRecorder | getBootLedger | startEnergyStoreTest | getWearAndDriftReport | setCheckFlipMask |
    registerWrite | rcRegisterRead | tqTailWrite | tqFlush | eccFlipArmWrite | eccFlipDisarmWrite =>
    rfl
  case perstNAssert | start | engineWatchdogExpiry | chipWatchdogExpiry | calendarTick | storeTestDue | railPgTimeout |
    gddr7SelfRefreshEntry =>
    exact goes_ite rfl (goes_ite rfl rfl)
  case classWindowClose | railPgLost | inputLevelChange =>
    exact goes_ite rfl (goes_ite rfl (goes_ite rfl (goes_ite rfl rfl)))
  case memberWaitExpiry | ringDoorbellWrite =>
    exact goes_ite rfl (goes_ite rfl (goes_ite rfl rfl))
  case railPgDeassert =>
    exact goes_ite rfl (goes_ite (goes_ite rfl rfl) (goes_ite rfl rfl))
  case writeCompletion | stripePageFillTimeout =>
    dsimp only [exec, execWriteCompletion, execStripePageFillTimeout]
    split
    · rfl
    · split
      · rfl
      · exact goes_ite rfl rfl
  case admitHeldRequest | powerFailure =>
    dsimp only [exec, execAdmitHeldRequest, execPowerFailure]
    refine goes_ite rfl (goes_ite rfl ?_)
    split <;> rfl
  case lineFillLanded | boardOffer | regionRestartReady | restorationHoldExpiry | checkpointSealed | mapWordRebuildComplete |
    reclaimCopyComplete | reclaimDrainComplete | stripeBlockMigrate | stripeBlockRefresh | carrySweepComplete |
    storeTestLoadApplied | storeTestEsrMeasure | storeTestDischargeEnd | treeTopLogRecord | dumpPartWritten |
    dumpTrailerWritten | inputReturnDuringDump | flushHomeComplete | flushResend | decisionRecordWritten | minimumOffTimeEnd |
    orderlyStopLinkDown | thermalHoldRetry | discardRangeFolio | discardRangeComplete | rebuildMove =>
    dsimp only [exec, execLineFillLanded, execBoardOffer, execRegionRestartReady, execRestorationHoldExpiry,
      execCheckpointSealed, execMapWordRebuildComplete, execReclaimCopyComplete, execReclaimDrainComplete,
      execStripeBlockMigrate, execStripeBlockRefresh, execCarrySweepComplete, execStoreTestLoadApplied,
      execStoreTestEsrMeasure, execStoreTestDischargeEnd, execTreeTopLogRecord, execDumpPartWritten, execDumpTrailerWritten,
      execInputReturnDuringDump, execFlushHomeComplete, execFlushResend, execDecisionRecordWritten, execMinimumOffTimeEnd,
      execOrderlyStopLinkDown, execThermalHoldRetry, execDiscardRangeFolio, execDiscardRangeComplete, execRebuildMove]
    split
    · rfl
    · exact goes_ite rfl rfl
  case dirtyAgePush =>
    dsimp only [exec, execDirtyAgePush]
    split
    · rfl
    · split
      · rfl
      · exact goes_ite rfl (goes_ite rfl (goes_ite rfl rfl))
  case writeHome | reclaimCommitDurable | sweepUnitRowsWritten | preparedRecordWritten | closeStall | shadowSettle |
    powerBrakeRelease | tallyRowWriteComplete | telemetryTimeout | scanMediaComplete | prepareLap2Send =>
    dsimp only [exec, execWriteHome, execReclaimCommitDurable, execSweepUnitRowsWritten, execPreparedRecordWritten,
      execCloseStall, execShadowSettle, execPowerBrakeRelease, execTallyRowWriteComplete, execTelemetryTimeout,
      execScanMediaComplete, execPrepareLap2Send]
    split <;> rfl
  case writeHomeAck =>
    dsimp only [exec, execWriteHomeAck]
    split
    · rfl
    · refine goes_ite rfl ?_
      split
      · rfl
      · exact goes_ite rfl rfl
  case blockResetComplete | softDecodeComplete | macCheckComplete | rebuildComplete | storeTestTimeout | logSectorWritten |
    closeResend =>
    dsimp only [exec, execBlockResetComplete, execSoftDecodeComplete, execMacCheckComplete, execRebuildComplete,
      execStoreTestTimeout, execLogSectorWritten, execCloseResend]
    split
    · rfl
    · exact goes_ite rfl (goes_ite rfl rfl)
  case regionRestartDeadline | storeTestRechargeEnd =>
    dsimp only [exec, execRegionRestartDeadline, execStoreTestRechargeEnd]
    split
    · rfl
    · exact goes_ite rfl (goes_ite rfl (goes_ite rfl rfl))
  case reconstructionComplete =>
    dsimp only [exec, execReconstructionComplete]
    split
    · rfl
    · exact goes_ite rfl (goes_ite (goes_ite rfl rfl) rfl)
  case demotion | keyRotationThreshold | replayHomeWrite | handshakeStall | reclaimSourceChosen =>
    dsimp only [exec, execDemotion, execKeyRotationThreshold, execReplayHomeWrite, execHandshakeStall, execReclaimSourceChosen]
    refine goes_ite rfl ?_
    split <;> rfl
  case beadRotation =>
    dsimp only [exec, execBeadRotation]
    split
    · refine goes_ite rfl ?_
      split <;> rfl
    · rfl
  case carrySweepFolio =>
    dsimp only [exec, execCarrySweepFolio]
    split
    · rfl
    · exact goes_ite rfl (goes_ite rfl (goes_ite rfl (goes_ite rfl rfl)))
  case tallyDeferralLimit =>
    dsimp only [exec, execTallyDeferralLimit]
    refine goes_ite rfl ?_
    split
    · rfl
    · split <;> rfl

/-- What the conditional at the head of the nine commands comes to on a fitted position. -/
theorem goes_of_fitted {b : Bool} {r : Res} (hb : b = true) (hr : goes r = true) :
    goes (if (!b) = true then .fault .noSuchUnit else r) = true := by
  subst hb
  exact hr

/-- On a fitted position each of the nine commands answers a next state too. -/
theorem goes_exec_of_fitted (c : Instr) (s : State) (i : Fin 64) (h : namedDie c = some i) (hf : s.fitted i = true) :
    goes (exec c s) = true := by
  cases c
  case operationSuspended | operationResume | marginRead =>
    cases h
    refine goes_of_fitted hf ?_
    dsimp only
    split
    · rfl
    · exact goes_ite rfl rfl
  case dieCommandTimeout | dieOperationComplete | thresholdCountEvaluation =>
    cases h
    exact goes_of_fitted hf (goes_ite rfl rfl)
  case wearLevelCheck =>
    cases h
    refine goes_of_fitted hf (goes_ite rfl ?_)
    dsimp only
    split
    · exact goes_ite rfl rfl
    · rfl
  case checkpointWriteFailed =>
    cases h
    refine goes_of_fitted hf ?_
    split <;> rfl
  case scrubRead =>
    cases h
    exact goes_of_fitted hf (goes_ite rfl (goes_ite rfl rfl))
  all_goals cases h

/-- A command answers a next state unless it names a die position that the part does not have. -/
theorem goes_exec (c : Instr) (s : State) (h : ∀ i, namedDie c = some i → s.fitted i = true) : goes (exec c s) = true := by
  cases hc : namedDie c with
  | none => exact goes_exec_of_namedDie_none c s hc
  | some i => exact goes_exec_of_fitted c s i hc (h i hc)

/-- On a position that the part does not have it stops by name. -/
theorem exec_of_not_fitted (c : Instr) (s : State) (i : Fin 64) (h : namedDie c = some i) (hf : s.fitted i = false) :
    exec c s = .fault .noSuchUnit := by
  have hb : (!s.fitted i) = true := by rw [hf]; rfl
  cases c
  case operationSuspended | operationResume | dieCommandTimeout | wearLevelCheck | checkpointWriteFailed |
    dieOperationComplete | thresholdCountEvaluation | marginRead | scrubRead =>
    cases h
    exact if_pos hb
  all_goals cases h

theorem fitted_of_p8192 (s : State) (i : Fin 64) (h : s.part = .p8192) : s.fitted i = true := by
  simp only [State.fitted, State.groups, h, Bool.and_eq_true, decide_eq_true_eq]
  omega

theorem fitted_of_position (s : State) (i : Fin 64) (h : i.val % 4 < 2) : s.fitted i = true := by
  have hg : 2 ≤ s.groups := by
    unfold State.groups
    split <;> omega
  simp only [State.fitted, Bool.and_eq_true, decide_eq_true_eq]
  omega

theorem not_fitted_of_p4096 (s : State) (i : Fin 64) (h : s.part = .p4096) (hi : 2 ≤ i.val % 4) : s.fitted i = false := by
  simp only [State.fitted, State.groups, h, Bool.and_eq_false_iff, decide_eq_false_iff_not]
  omega

/-! ## What a step can be, and what it keeps -/

/-- No command does what no operation of the card does. -/
theorem keepsRes_exec (c : Instr) (s : State) : KeepsRes s (exec c s) := by
  have h := Keeps.refl s
  cases c with
  | linkTrainingComplete => exact .of_execLinkTrainingComplete h
  | linkTrainingRetry => exact .of_execLinkTrainingRetry h
  | vauxApplied => exact .of_execVauxApplied h
  | vauxRemoved => exact .of_execVauxRemoved h
  | perstNAssert => exact .of_execPerstNAssert h
  | start => exact .of_execStart h
  | bootStep => exact .of_execBootStep h
  | lastResortScanEnd => exact .of_execLastResortScanEnd h
  | extentTableSave => exact .of_execExtentTableSave h
  | hotReset => exact .of_execHotReset h
  | cxlReset => exact .of_execCxlReset h
  | managementReset => exact .of_execManagementReset h
  | cxlMemRead => exact .of_execCxlMemRead h
  | cxlMemWrite => exact .of_execCxlMemWrite h
  | writeCompletion => exact .of_execWriteCompletion h
  | admitHeldRequest => exact .of_execAdmitHeldRequest h
  | lineFillLanded => exact .of_execLineFillLanded h
  | boardOffer => exact .of_execBoardOffer h
  | dirtyAgePush => exact .of_execDirtyAgePush h
  | boardSlotRewrite => exact .of_execBoardSlotRewrite h
  | writeHome => exact .of_execWriteHome h
  | writeHomeAck => exact .of_execWriteHomeAck h
  | handshakeStall => exact .of_execHandshakeStall h
  | blockResetComplete => exact .of_execBlockResetComplete h
  | regionRestartReady => exact .of_execRegionRestartReady h
  | regionRestartDeadline => exact .of_execRegionRestartDeadline h
  | engineWatchdogExpiry => exact .of_execEngineWatchdogExpiry h
  | chipWatchdogExpiry => exact .of_execChipWatchdogExpiry h
  | paceEvaluation => exact .of_execPaceEvaluation h
  | paceLowerInterval => exact .of_execPaceLowerInterval h
  | escalationEvaluation => exact .of_execEscalationEvaluation h
  | classWindowClose => exact .of_execClassWindowClose h
  | envelopeRecompute => exact .of_execEnvelopeRecompute h
  | restorationHoldExpiry => exact .of_execRestorationHoldExpiry h
  | dieOperationComplete => exact .of_execDieOperationComplete h
  | operationSuspended => exact .of_execOperationSuspended h
  | operationResume => exact .of_execOperationResume h
  | dieCommandTimeout => exact .of_execDieCommandTimeout h
  | reconstructionComplete => exact .of_execReconstructionComplete h
  | softDecodeComplete => exact .of_execSoftDecodeComplete h
  | macCheckComplete => exact .of_execMacCheckComplete h
  | lostNodeRewriteComplete => exact .of_execLostNodeRewriteComplete h
  | rebuildComplete => exact .of_execRebuildComplete h
  | channelGate => exact .of_execChannelGate h
  | channelWakeComplete => exact .of_execChannelWakeComplete h
  | stripePageFillTimeout => exact .of_execStripePageFillTimeout h
  | journalTailFlush => exact .of_execJournalTailFlush h
  | checkpointSealed => exact .of_execCheckpointSealed h
  | checkpointWriteFailed => exact .of_execCheckpointWriteFailed h
  | mapWordRebuildComplete => exact .of_execMapWordRebuildComplete h
  | demotionSweep => exact .of_execDemotionSweep h
  | demotion => exact .of_execDemotion h
  | beadRotation => exact .of_execBeadRotation h
  | reclaimSourceChosen => exact .of_execReclaimSourceChosen h
  | reclaimCopyComplete => exact .of_execReclaimCopyComplete h
  | reclaimCommitDurable => exact .of_execReclaimCommitDurable h
  | reclaimDrainComplete => exact .of_execReclaimDrainComplete h
  | wearLevelCheck => exact .of_execWearLevelCheck h
  | calendarTick => exact .of_execCalendarTick h
  | driftLedgerHourly => exact .of_execDriftLedgerHourly h
  | referenceGroupWrite => exact .of_execReferenceGroupWrite h
  | thresholdTableSave => exact .of_execThresholdTableSave h
  | thresholdCountEvaluation => exact .of_execThresholdCountEvaluation h
  | calibrationWindowEnd => exact .of_execCalibrationWindowEnd h
  | marginEvaluation => exact .of_execMarginEvaluation h
  | stripeBlockMigrate => exact .of_execStripeBlockMigrate h
  | stripeBlockRefresh => exact .of_execStripeBlockRefresh h
  | scrubLapStart => exact .of_execScrubLapStart h
  | scrubRead => exact .of_execScrubRead h
  | scrubLapComplete => exact .of_execScrubLapComplete h
  | scrubLapLimit => exact .of_execScrubLapLimit h
  | scrubGatedWake => exact .of_execScrubGatedWake h
  | scrubPositionSave => exact .of_execScrubPositionSave h
  | keyRotationThreshold => dsimp only [exec]; exact .of_execKeyRotationThreshold h
  | keyHeld => exact .of_execKeyHeld h
  | sweepUnitRowsWritten => exact .of_execSweepUnitRowsWritten h
  | carrySweepFolio => exact .of_execCarrySweepFolio h
  | carryBoundarySave => exact .of_execCarryBoundarySave h
  | carrySweepComplete => exact .of_execCarrySweepComplete h
  | storeTestDue => exact .of_execStoreTestDue h
  | storeTestLoadApplied => exact .of_execStoreTestLoadApplied h
  | storeTestEsrMeasure => exact .of_execStoreTestEsrMeasure h
  | storeTestDischargeEnd => exact .of_execStoreTestDischargeEnd h
  | storeTestRechargeEnd => exact .of_execStoreTestRechargeEnd h
  | storeTestTimeout => exact .of_execStoreTestTimeout h
  | budgetCompute => exact .of_execBudgetCompute h
  | logSectorWritten => exact .of_execLogSectorWritten h
  | treeTopLogRecord => exact .of_execTreeTopLogRecord h
  | slotArmed => exact .of_execSlotArmed h
  | powerFailure => exact .of_execPowerFailure h
  | dumpPartWritten => exact .of_execDumpPartWritten h
  | dumpTrailerWritten => exact .of_execDumpTrailerWritten h
  | inputReturnDuringDump => exact .of_execInputReturnDuringDump h
  | replayHomeWrite => exact .of_execReplayHomeWrite h
  | flushHomeComplete => exact .of_execFlushHomeComplete h
  | gpfPhase1 => exact .of_execGpfPhase1 h
  | gpfPhase2 => exact .of_execGpfPhase2 h
  | ringCableChange => exact .of_execRingCableChange h
  | ringSyncAcquired => exact .of_execRingSyncAcquired h
  | ringSyncLost => exact .of_execRingSyncLost h
  | discoverSend => exact .of_execDiscoverSend h
  | discover => exact .of_execDiscover h
  | heartbeatSend => exact .of_execHeartbeatSend h
  | heartbeat => exact .of_execHeartbeat h
  | heartbeatTimeout => exact .of_execHeartbeatTimeout h
  | flush => exact .of_execFlush h
  | flushResend => exact .of_execFlushResend h
  | prepare => exact .of_execPrepare h
  | commit => exact .of_execCommit h
  | rollback => exact .of_execRollback h
  | state => exact .of_execState h
  | reservedTypeFrame => exact .of_execReservedTypeFrame h
  | preparedRecordWritten => exact .of_execPreparedRecordWritten h
  | decisionRecordWritten => exact .of_execDecisionRecordWritten h
  | closeResend => exact .of_execCloseResend h
  | closeStall => exact .of_execCloseStall h
  | memberWaitExpiry => exact .of_execMemberWaitExpiry h
  | shadowSettle => exact .of_execShadowSettle h
  | inputQualified => exact .of_execInputQualified h
  | railEnableSlot => exact .of_execRailEnableSlot h
  | railPowerGood => exact .of_execRailPowerGood h
  | railPgTimeout => exact .of_execRailPgTimeout h
  | railDisableSlot => exact .of_execRailDisableSlot h
  | minimumOffTimeEnd => exact .of_execMinimumOffTimeEnd h
  | railPgLost => exact .of_execRailPgLost h
  | sensorSample => exact .of_execSensorSample h
  | orderlyStopLinkDown => exact .of_execOrderlyStopLinkDown h
  | thermalHoldRetry => exact .of_execThermalHoldRetry h
  | powerBrakeApply => exact .of_execPowerBrakeApply h
  | powerBrakeRelease => exact .of_execPowerBrakeRelease h
  | tallyRowWriteComplete => exact .of_execTallyRowWriteComplete h
  | tallySupplyRecheck => exact .of_execTallySupplyRecheck h
  | tallyDeferralLimit => exact .of_execTallyDeferralLimit h
  | tallyRefreshLap => exact .of_execTallyRefreshLap h
  | lifetimeCounterSave => exact .of_execLifetimeCounterSave h
  | recorderDrain => exact .of_execRecorderDrain h
  | recorderRepeatFlush => exact .of_execRecorderRepeatFlush h
  | telemetryTimeout => exact .of_execTelemetryTimeout h
  | pmuPortWindowEnd => exact .of_execPmuPortWindowEnd h
  | pmuCounterWrap => exact .of_execPmuCounterWrap h
  | healthEvaluate => exact .of_execHealthEvaluate h
  | d3hotEntry => exact .of_execD3hotEntry h
  | d0Entry => exact .of_execD0Entry h
  | gddr7SelfRefreshEntry => exact .of_execGddr7SelfRefreshEntry h
  | aspmL1Entry => exact .of_execAspmL1Entry h
  | aspmL1Exit => exact .of_execAspmL1Exit h
  | hdmDecoderCommit => exact .of_execHdmDecoderCommit h
  | ideIntegrityFailure => exact .of_execIdeIntegrityFailure h
  | ideKeyProgram => exact .of_execIdeKeyProgram h
  | spdmMessage => exact .of_execSpdmMessage h
  | getMeasurements => exact .of_execGetMeasurements h
  | doeDiscovery => exact .of_execDoeDiscovery h
  | cdatTableAccess => exact .of_execCdatTableAccess h
  | smbusArp => exact .of_execSmbusArp h
  | setEndpointId => exact .of_execSetEndpointId h
  | mctpControlMessage => exact .of_execMctpControlMessage h
  | getEventRecords => exact .of_execGetEventRecords h
  | clearEventRecords => exact .of_execClearEventRecords h
  | getEventInterruptPolicy => exact .of_execGetEventInterruptPolicy h
  | setEventInterruptPolicy => exact .of_execSetEventInterruptPolicy h
  | getFwInfo => exact .of_execGetFwInfo h
  | transferFw => exact .of_execTransferFw h
  | activateFw => exact .of_execActivateFw h
  | getTimestamp => exact .of_execGetTimestamp h
  | setTimestamp => exact .of_execSetTimestamp h
  | getSupportedLogs => exact .of_execGetSupportedLogs h
  | getLog => exact .of_execGetLog h
  | identifyMemoryDevice => exact .of_execIdentifyMemoryDevice h
  | getLsa => exact .of_execGetLsa h
  | setLsa => exact .of_execSetLsa h
  | getHealthInfo => exact .of_execGetHealthInfo h
  | getAlertConfiguration => exact .of_execGetAlertConfiguration h
  | setAlertConfiguration => exact .of_execSetAlertConfiguration h
  | getShutdownState => exact .of_execGetShutdownState h
  | setShutdownState => exact .of_execSetShutdownState h
  | getPoisonList => exact .of_execGetPoisonList h
  | injectPoison => exact .of_execInjectPoison h
  | clearPoison => exact .of_execClearPoison h
  | getScanMediaCapabilities => exact .of_execGetScanMediaCapabilities h
  | scanMedia => exact .of_execScanMedia h
  | scanMediaComplete => exact .of_execScanMediaComplete h
  | getScanMediaResults => exact .of_execGetScanMediaResults h
  | sanitize => exact .of_execSanitize h
  | sanitizeComplete => exact .of_execSanitizeComplete h
  | secureErase => exact .of_execSecureErase h
  | mediumResetComplete => exact .of_execMediumResetComplete h
  | getCardStatusSummary => exact .of_execGetCardStatusSummary h
  | readTallyRecords => exact .of_execReadTallyRecords h
  | writeCustomerTally => exact .of_execWriteCustomerTally h
  | setTallyPassword => exact .of_execSetTallyPassword h
  | transferConfigurationImage => exact .of_execTransferConfigurationImage h
  | getConfigurationImageInfo => exact .of_execGetConfigurationImageInfo h
  | selectConfigurationSlot => exact .of_execSelectConfigurationSlot h
  | discardRange => exact .of_execDiscardRange h
  | discardRangeFolio => exact .of_execDiscardRangeFolio h
  | discardRangeComplete => exact .of_execDiscardRangeComplete h
  | getExtentTable => exact .of_execGetExtentTable h
  | generateKey => exact .of_execGenerateKey h
  | startKeyRotation => exact .of_execStartKeyRotation h
  | retireKeyId => exact .of_execRetireKeyId h
  | getKeyStatus => exact .of_execGetKeyStatus h
  | epochResolve => exact .of_execEpochResolve h
  | getRingStatus => exact .of_execGetRingStatus h
  | readRecorder => exact .of_execReadRecorder h
  | clearRecorder => exact .of_execClearRecorder h
  | getBootLedger => exact .of_execGetBootLedger h
  | startEnergyStoreTest => exact .of_execStartEnergyStoreTest h
  | getWearAndDriftReport => exact .of_execGetWearAndDriftReport h
  | setCheckFlipMask => exact .of_execSetCheckFlipMask h
  | registerWrite => exact .of_execRegisterWrite h
  | rcRegisterRead => exact .of_execRcRegisterRead h
  | ringDoorbellWrite => exact .of_execRingDoorbellWrite h
  | ringFlushStart => exact .of_execRingFlushStart h
  | tqTailWrite => exact .of_execTqTailWrite h
  | tqFlush => exact .of_execTqFlush h
  | eccFlipArmWrite => exact .of_execEccFlipArmWrite h
  | eccFlipDisarmWrite => exact .of_execEccFlipDisarmWrite h
  | evtVecUnmask => exact .of_execEvtVecUnmask h
  | pflSuspectClear => exact .of_execPflSuspectClear h
  | inputLevelChange => exact .of_execInputLevelChange h
  | railPgDeassert => exact .of_execRailPgDeassert h
  | prepareLap2Send => exact .of_execPrepareLap2Send h
  | marginRead => exact .of_execMarginRead h
  | rebuildMove => exact .of_execRebuildMove h
  | pmuLevelSample => exact .of_execPmuLevelSample h
  | linkError => exact .of_execLinkError h

theorem keeps_of_exec {c : Instr} {s u : State} (h : exec c s = .next u) : Keeps s u := by
  have k := keepsRes_exec c s
  rw [h] at k
  exact k

/-- A step that answers is the command at the front of the queue, or with an empty queue the first waiting mailbox command, or
nothing (log entry 3). -/
theorem step_cases {s t : State} (h : step s = .next t) :
    (∃ c r, s.pending = c :: r ∧ exec c { s with pending := r } = .next t) ∨
    (∃ c r u, s.pending = [] ∧ exec c { s with link := { s.link with held := [] } } = .next u ∧ t = u.holdMore r) ∨
    (s.pending = [] ∧ t = s) := by
  unfold step at h
  split at h
  next hp =>
    unfold idle at h
    split at h
    · cases h
      exact .inr (.inr ⟨hp, rfl⟩)
    next c r hl =>
      split at h
      · split at h
        next u hu =>
          cases h
          exact .inr (.inl ⟨c, r, u, hp, hu, rfl⟩)
        next o hne => exact absurd h (hne t)
      · cases h
        exact .inr (.inr ⟨hp, rfl⟩)
  next c r hp => exact .inl ⟨c, r, hp, h⟩

/-- A step takes the front of the queue and keeps what every operation keeps. -/
theorem keeps_of_step {s t : State} (h : step s = .next t) : Keeps { s with pending := s.pending.tail } t := by
  obtain ⟨c, r, hp, hc⟩ | ⟨c, r, u, hp, hc, rfl⟩ | ⟨hp, rfl⟩ := step_cases h
  · rw [hp]
    exact keeps_of_exec hc
  · have h0 : Keeps { s with pending := s.pending.tail } { s with link := { s.link with held := [] } } :=
      { pending := by rw [hp]; rfl }
    exact Keeps.of_holdMore (h0.trans (keeps_of_exec hc))
  · exact { pending := by rw [hp]; rfl }

/-- With every die position fitted a step answers a next state. -/
theorem goes_step {s : State} (h : s.part = .p8192) : goes (step s) = true := by
  have hx : ∀ (c : Instr) (u : State), u.part = .p8192 → goes (exec c u) = true :=
    fun c u hu => goes_exec c u (fun i _ => fitted_of_p8192 u i hu)
  unfold step
  split
  · unfold idle
    split
    · rfl
    next c r _ =>
      split
      · split
        · rfl
        · exact hx c { s with link := { s.link with held := [] } } h
      · rfl
  next c r _ => exact hx c { s with pending := r } h

/-- Settles O3: a step keeps every table canonical, because each operation of the card does. -/
theorem tablesStayCanonical : Obligations.TablesStayCanonical := by
  intro s t h hs
  exact (keeps_of_step h).canonical hs

/-- Settles O5: the fields are those that every operation of the card keeps, from the state with the queue's front taken. -/
theorem timeAndOutputOnlyGrow : Obligations.TimeAndOutputOnlyGrow := by
  intro s t h
  have k := keeps_of_step h
  exact ⟨k.now, k.sent, k.part, k.serial, k.pending⟩

/-- Settles O6, by induction on the number of steps: each goes on, and the part stays. -/
theorem fullPartNeverStops : Obligations.FullPartNeverStops := by
  intro k
  induction k with
  | zero => exact fun _ _ => rfl
  | succ k ih =>
    intro s hs
    have hg := goes_step hs
    unfold safeRun
    cases ht : step s with
    | next t => exact ih t ((keeps_of_step ht).part.trans hs)
    | fault f => rw [ht] at hg; cases hg
    | refused f => rw [ht] at hg; cases hg

/-- Settles O7: the nine commands are those that name a die position. -/
theorem unfittedDieStops : Obligations.UnfittedDieStops := by
  unfold Obligations.UnfittedDieStops
  constructor
  · intro t i s r n b h g k o c l up down e x hs hi
    have hf := not_fitted_of_p4096 s i hs hi
    have stop : ∀ c, namedDie c = some i → exec c s = .fault .noSuchUnit := fun c hc => exec_of_not_fitted c s i hc hf
    exact ⟨stop _ rfl, stop _ rfl, stop _ rfl, stop _ rfl, stop _ rfl, stop _ rfl, stop _ rfl, stop _ rfl, stop _ rfl⟩
  · intro t i s r n b h g k o c l up down e x hs
    have hf : s.fitted i = true := hs.elim (fitted_of_p8192 s i) (fitted_of_position s i)
    have go : ∀ c, namedDie c = some i → goes (exec c s) = true := fun c hc => goes_exec_of_fitted c s i hc hf
    exact ⟨go _ rfl, go _ rfl, go _ rfl, go _ rfl, go _ rfl, go _ rfl, go _ rfl, go _ rfl, go _ rfl⟩

/-! ## The fields of a register and the word that they make up -/

/-- The fields lie one below the other, within 64 bits. -/
def descending : List Fld → Bool
  | [] => true
  | f :: r => decide (f.lo ≤ f.hi) && decide (f.hi < 64) && r.all (fun g => decide (g.hi < f.lo)) && descending r

theorem descending_cons {f : Fld} {r : List Fld} (h : descending (f :: r) = true) :
    f.lo ≤ f.hi ∧ f.hi < 64 ∧ (∀ g ∈ r, g.hi < f.lo) ∧ descending r = true := by
  simp only [descending, Bool.and_eq_true, decide_eq_true_eq, List.all_eq_true] at h
  obtain ⟨⟨⟨h1, h2⟩, h3⟩, h4⟩ := h
  exact ⟨h1, h2, h3, h4⟩

/-- So they do in every register of the manual. -/
theorem descending_regTable : regTable.all (fun r => descending r.flds) = true := by decide +kernel

theorem mem_of_regAtIn {l : List RegRow} {off c : Nat} {r : RegRow} (h : regAtIn l off = some (r, c)) : r ∈ l := by
  induction l with
  | nil => cases h
  | cons x l ih =>
    rw [regAtIn] at h
    by_cases hx : x.off ≤ off ∧ (if x.stride = 0 then off = x.off else (off - x.off) % x.stride = 0 ∧
        (off - x.off) / x.stride < x.count)
    · rw [if_pos hx] at h
      cases h
      exact List.mem_cons_self
    · rw [if_neg hx] at h
      exact List.mem_cons_of_mem _ (ih h)

theorem descending_of_regAt {off c : Nat} {r : RegRow} (h : regAt off = some (r, c)) : descending r.flds = true :=
  List.all_eq_true.1 descending_regTable r (mem_of_regAtIn h)

theorem le_of_mem_descending {l : List Fld} {f : Fld} (h : descending l = true) (hf : f ∈ l) :
    f.lo ≤ f.hi ∧ f.hi < 64 := by
  induction l with
  | nil => cases hf
  | cons x l ih =>
    obtain ⟨h1, h2, _, h4⟩ := descending_cons h
    rcases List.mem_cons.1 hf with rfl | hf
    · exact ⟨h1, h2⟩
    · exact ih h4 hf

/-- The lowest bit tells the fields of a register apart. -/
theorem eq_of_lo_eq {l : List Fld} {f g : Fld} (h : descending l = true) (hf : f ∈ l) (hg : g ∈ l) (e : f.lo = g.lo) :
    f = g := by
  induction l with
  | nil => cases hf
  | cons x l ih =>
    obtain ⟨_, _, h3, h4⟩ := descending_cons h
    rcases List.mem_cons.1 hf with rfl | hf' <;> rcases List.mem_cons.1 hg with rfl | hg'
    · rfl
    · have := h3 g hg'
      have := (le_of_mem_descending h4 hg').1
      omega
    · have := h3 f hf'
      have := (le_of_mem_descending h4 hf').1
      omega
    · exact ih h4 hf' hg'

/-- So does the key under which State.obs stores them. -/
theorem key_ne_of_ne {l : List Fld} {f g : Fld} (i : Nat) (h : descending l = true) (hf : f ∈ l) (hg : g ∈ l)
    (hne : g ≠ f) : f.key i ≠ g.key i := by
  have hlo : f.lo ≠ g.lo := fun e => hne (eq_of_lo_eq h hf hg e).symm
  have h1 := le_of_mem_descending h hf
  have h2 := le_of_mem_descending h hg
  unfold Fld.key
  omega

/-- The word that the fields of l make up when field f holds v f. -/
def wordOf (v : Fld → Nat) (l : List Fld) : Nat := total (l.map (fun f => v f * 2 ^ f.lo))

theorem wordOf_cons (v : Fld → Nat) (f : Fld) (r : List Fld) : wordOf v (f :: r) = 2 ^ f.lo * v f + wordOf v r := by
  have hsum : ∀ l : List Nat, total l = l.sum := fun l => List.sum_eq_foldl.symm
  simp only [wordOf, hsum, List.map_cons, List.sum_cons, Nat.mul_comm]

theorem wordOf_lt {v : Fld → Nat} {l : List Fld} {n : Nat} (h : descending l = true) (hv : ∀ f, v f < f.size)
    (hn : ∀ f ∈ l, f.hi < n) : wordOf v l < 2 ^ n := by
  induction l generalizing n with
  | nil => exact Nat.two_pow_pos n
  | cons f r ih =>
    obtain ⟨h1, _, h3, h4⟩ := descending_cons h
    have hr : wordOf v r < 2 ^ f.lo := ih h4 h3
    have hf : v f + 1 ≤ 2 ^ (f.hi + 1 - f.lo) := hv f
    have hfn : f.hi < n := hn f List.mem_cons_self
    calc wordOf v (f :: r) = 2 ^ f.lo * v f + wordOf v r := wordOf_cons v f r
      _ < 2 ^ f.lo * (v f + 1) := by rw [Nat.mul_add]; omega
      _ ≤ 2 ^ f.lo * 2 ^ (f.hi + 1 - f.lo) := Nat.mul_le_mul_left _ hf
      _ = 2 ^ (f.hi + 1) := by rw [← Nat.pow_add]; congr 1; omega
      _ ≤ 2 ^ n := Nat.pow_le_pow_right (by omega) hfn

/-- A bit in no field is 0. -/
theorem testBit_wordOf_of_reserved {v : Fld → Nat} {l : List Fld} {i : Nat} (h : descending l = true)
    (hv : ∀ f, v f < f.size) (hi : ∀ f ∈ l, i < f.lo ∨ f.hi < i) : (wordOf v l).testBit i = false := by
  induction l with
  | nil => exact Nat.zero_testBit i
  | cons f r ih =>
    obtain ⟨h1, _, h3, h4⟩ := descending_cons h
    rw [wordOf_cons, Nat.testBit_two_pow_mul_add _ (wordOf_lt h4 hv h3)]
    split
    · exact ih h4 (fun g hg => hi g (List.mem_cons_of_mem _ hg))
    next hlo =>
      have hhi : f.hi < i := (hi f List.mem_cons_self).resolve_left hlo
      refine Nat.testBit_lt_two_pow (lt_of_lt_of_le (hv f) ?_)
      exact Nat.pow_le_pow_right (by omega) (by omega)

theorem size_pos (f : Fld) : 0 < f.size := Nat.two_pow_pos _

theorem readFld_lt_size (s : State) (f : Fld) (i : Nat) : s.readFld f i < f.size := by
  unfold State.readFld
  split
  · exact size_pos f
  · exact Nat.mod_lt _ (size_pos f)

theorem readWord_eq_wordOf {off c : Nat} {r : RegRow} (s : State) (h : regAt off = some (r, c)) :
    s.readWord off = wordOf (fun f => s.readFld f c) r.flds := by
  unfold State.readWord
  rw [h]
  rfl

/-! ## A write to a field -/

/-- The same bits brought to a field make the same write, whatever the others. -/
theorem writeFld_congr {s : State} {f : Fld} {i lo hi v w : Nat}
    (h : ∀ n, max f.lo lo ≤ n → n ≤ min f.hi hi → v.testBit n = w.testBit n) :
    s.writeFld f i lo hi v = s.writeFld f i lo hi w := by
  have e : v >>> max f.lo lo &&& 2 ^ (min (f.hi + 1) (hi + 1) - max f.lo lo) - 1 =
      w >>> max f.lo lo &&& 2 ^ (min (f.hi + 1) (hi + 1) - max f.lo lo) - 1 := by
    apply Nat.eq_of_testBit_eq
    intro n
    rw [Nat.testBit_and, Nat.testBit_and, Nat.testBit_shiftRight, Nat.testBit_shiftRight, Nat.testBit_two_pow_sub_one]
    by_cases hn : n < min (f.hi + 1) (hi + 1) - max f.lo lo
    · rw [h _ (by omega) (by omega)]
    · rw [decide_eq_false hn, Bool.and_false, Bool.and_false]
  unfold State.writeFld
  simp only [e]

/-- A write that does not reach the field leaves it. -/
theorem writeFld_of_disjoint {s : State} {f : Fld} {i lo hi v : Nat} (h : min f.hi hi < max f.lo lo) :
    s.writeFld f i lo hi v = s := by
  unfold State.writeFld
  exact if_pos h

/-- What the bits w written to a whole field make of its value (00_scope Table 0-7). -/
def taken (a : Acc) (size old w : Nat) : Nat :=
  match a with
  | .rw => old - old % size + w
  | .w1c => old - (old &&& w)
  | .w1s => old ||| w
  | .ro | .wo | .rc => old

/-- A write to the whole register reaches all bits of a field within it. -/
theorem writeFld_whole {s : State} {f : Fld} {i v : Nat} (h : f.lo ≤ f.hi) (h' : f.hi ≤ 63)
    (ha : f.acc = .rw ∨ f.acc = .w1c ∨ f.acc = .w1s) :
    s.writeFld f i 0 63 v = s.setReg f (taken f.acc f.size (s.reg f i) (v / 2 ^ f.lo % f.size)) i := by
  have hhi : min (f.hi + 1) (63 + 1) = f.hi + 1 := by omega
  have hreach : ¬ min f.hi 63 < f.lo := by omega
  have hbits : ∀ n, n &&& 2 ^ (f.hi + 1 - f.lo) - 1 = n % f.size := fun n => Nat.and_two_pow_sub_one_eq_mod n _
  unfold State.writeFld
  simp only [Nat.max_zero, hhi, if_neg hreach, hbits, Nat.sub_self, Nat.shiftLeft_zero, Nat.shiftRight_eq_div_pow]
  rcases ha with ha | ha | ha <;> simp only [ha, taken]

/-- An RW field takes what is written, whatever it held. -/
theorem taken_rw_mod (size old w : Nat) : taken .rw size old w % size = w % size := by
  have hdvd : size ∣ old - old % size := Nat.dvd_sub_mod _
  rw [taken, Nat.add_mod, Nat.mod_eq_zero_of_dvd hdvd, Nat.zero_add, Nat.mod_mod]

theorem writeFld_of_ro_or_rc {s : State} {f : Fld} {i lo hi v : Nat} (ha : f.acc = .ro ∨ f.acc = .rc) :
    s.writeFld f i lo hi v = s := by
  unfold State.writeFld
  rcases ha with ha | ha <;> simp only [ha, ite_self]

theorem readFld_of_wo {s : State} {f : Fld} {i : Nat} (ha : f.acc = .wo) : s.readFld f i = 0 := by
  unfold State.readFld
  exact if_pos ha

/-! ## A read clears RC fields -/

/-- What clearing does to one field. -/
def clearFld (i lo hi : Nat) (s : State) (f : Fld) : State :=
  if f.acc = .rc ∧ lo ≤ f.lo ∧ f.hi ≤ hi then s.setReg f 0 i else s

theorem clearRc_eq_foldl {off c : Nat} {r : RegRow} (s : State) (lo hi : Nat) (h : regAt off = some (r, c)) :
    s.clearRc off lo hi = r.flds.foldl (clearFld c lo hi) s := by
  unfold State.clearRc
  rw [h]
  rfl

theorem reg_clearFld_same {s : State} {f : Fld} {i lo hi : Nat} (ha : f.acc = .rc) (h1 : lo ≤ f.lo) (h2 : f.hi ≤ hi) :
    (clearFld i lo hi s f).reg f i = 0 := by
  unfold clearFld
  rw [if_pos ⟨ha, h1, h2⟩, reg_setReg, Nat.zero_mod]

theorem reg_clearFld_other {s : State} {f g : Fld} {i lo hi : Nat} (hk : f.key i ≠ g.key i) :
    (clearFld i lo hi s g).reg f i = s.reg f i := by
  unfold clearFld
  split
  · exact reg_setReg_other s g f 0 i i hk
  · rfl

/-- A fold that clears f somewhere, and elsewhere fields at other places, leaves 0 in f. -/
theorem reg_foldl_clearFld {l : List Fld} {s : State} {f : Fld} {i lo hi : Nat} (ha : f.acc = .rc) (h1 : lo ≤ f.lo)
    (h2 : f.hi ≤ hi) (hk : ∀ g ∈ l, g ≠ f → f.key i ≠ g.key i) (h : f ∈ l ∨ s.reg f i = 0) :
    (l.foldl (clearFld i lo hi) s).reg f i = 0 := by
  induction l generalizing s with
  | nil => exact h.resolve_left List.not_mem_nil
  | cons g r ih =>
    refine ih (fun x hx => hk x (List.mem_cons_of_mem _ hx)) ?_
    by_cases hg : g = f
    · subst hg
      exact .inr (reg_clearFld_same ha h1 h2)
    · have e := reg_clearFld_other (s := s) (lo := lo) (hi := hi) (hk g List.mem_cons_self hg)
      rcases h with h | h
      · exact .inl ((List.mem_cons.1 h).resolve_left (fun e => hg e.symm))
      · exact .inr (e.trans h)

/-! ## The commands that access registers -/

theorem exec_registerWrite_link_down {a : RegAddr} {size : Nat} {v : Word64} {s : State} (hp : s.link.protocol = 0) :
    exec (.registerWrite a size v) s = .next s :=
  congrArg Host.Outcome.next (if_pos hp)

/-- A write to OBS on a trained link. -/
theorem exec_registerWrite_obs {off size : Nat} {v : Word64} {s : State} (hp : s.link.protocol ≠ 0) :
    exec (.registerWrite ⟨.obs, off⟩ size v) s =
      .next (if writeSpan off size v = none then s else (s.busWrite off size v (fun f => !ownWrite f)).afterWrite off) :=
  congrArg Host.Outcome.next (if_neg hp)

/-- A write to another window on a trained link. -/
theorem exec_registerWrite_window {w : Window} {off size : Nat} {v : Word64} {s : State} (hp : s.link.protocol ≠ 0)
    (hw : w ≠ .obs) : exec (.registerWrite ⟨w, off⟩ size v) s = .next (s.windowWrite w off v) :=
  congrArg Host.Outcome.next ((if_neg hp).trans (if_pos (bne_iff_ne.2 hw)))

/-- A read of OBS on a trained link. -/
theorem exec_rcRegisterRead_obs {off size : Nat} {s : State} (hp : s.link.protocol ≠ 0) :
    exec (.rcRegisterRead ⟨.obs, off⟩ size) s = .next ((s.busRead off size).1.out (.obsData off (s.busRead off size).2)) :=
  congrArg Host.Outcome.next (if_neg hp)

/-! ## Statements about the access to registers -/

/-- Settles O33: each register's fields lie apart, and a write looks at no bit outside them. -/
theorem reservedBits : Obligations.ReservedBits := by
  unfold Obligations.ReservedBits
  refine ⟨?_, ?_, ?_⟩
  · intro off i c r s hr hi
    rw [readWord_eq_wordOf s hr]
    exact testBit_wordOf_of_reserved (descending_of_regAt hr) (fun f => readFld_lt_size s f c) hi
  · intro off s hr
    unfold State.readWord
    rw [hr]
  · intro off c r v w s ho hr hb
    have hspan : ∀ x : Word64, writeSpan off 8 x = some (off, 0, 63, x.toNat) := fun x => if_pos ⟨rfl, ho⟩
    have hfld : ∀ f ∈ r.flds, ∀ u : State, u.writeFld f c 0 63 v.toNat = u.writeFld f c 0 63 w.toNat := by
      intro f hf u
      refine writeFld_congr (fun n hlo hhi => ?_)
      have := hb f hf ⟨n, by omega⟩ (by dsimp only; omega) (by dsimp only; omega)
      simpa only [BitVec.getLsbD] using this
    have hbus : s.busWrite off 8 v (fun f => !ownWrite f) = s.busWrite off 8 w (fun f => !ownWrite f) := by
      unfold State.busWrite
      simp only [hspan, hr]
      refine List.foldl_ext _ _ _ (fun u f hf => ?_)
      rw [hfld f hf u]
    by_cases hp : s.link.protocol = 0
    · rw [exec_registerWrite_link_down hp, exec_registerWrite_link_down hp]
    · have hsome : ∀ x : Word64, writeSpan off 8 x ≠ none := fun x => by
        rw [hspan]
        exact Option.some_ne_none _
      rw [exec_registerWrite_obs hp, exec_registerWrite_obs hp, if_neg (hsome v), if_neg (hsome w), hbus]

/-- Settles O34: each access code at a field, and the fold of a read over the fields of its register. -/
theorem accessCodes : Obligations.AccessCodes := by
  unfold Obligations.AccessCodes
  refine ⟨?_, ?_, ?_, ?_, ?_, ?_, ?_, ?_⟩
  · intro f c v s ha h h'
    rw [writeFld_whole h h' (.inl ha), reg_setReg, ha, taken_rw_mod, Nat.mod_mod]
  · intro f c v s ha h h' hs
    rw [writeFld_whole h h' (.inr (.inl ha)), reg_setReg, ha, taken]
    exact Nat.mod_eq_of_lt (lt_of_le_of_lt (Nat.sub_le _ _) hs)
  · intro f c v s ha h h' hs
    have hw : v / 2 ^ f.lo % f.size < f.size := Nat.mod_lt _ (size_pos f)
    rw [writeFld_whole h h' (.inr (.inr ha)), reg_setReg, ha, taken]
    exact Nat.mod_eq_of_lt (Nat.or_lt_two_pow hs hw)
  · exact fun f c lo hi v s ha => writeFld_of_ro_or_rc ha
  · exact fun f c v s h h' => writeFld_of_disjoint (by omega)
  · exact fun f c v s h h' => writeFld_of_disjoint (by omega)
  · exact fun f c s ha => readFld_of_wo ha
  · intro off lo hi c r f s hr hf ha h1 h2
    have hd := descending_of_regAt hr
    rw [clearRc_eq_foldl s lo hi hr]
    exact reg_foldl_clearFld ha h1 h2 (fun g hg hne => key_ne_of_ne c hd hf hg hne) (.inl hf)

/-- Settles O32: the write has no span, and the read takes the last branch of the bus. -/
theorem oddAccesses : Obligations.OddAccesses := by
  intro off size v s hp h8 h4
  have hodd : ¬ (size = 4 ∧ off % 8 = 0) ∧ ¬ (size = 4 ∧ off % 8 = 4) := by omega
  have hspan : writeSpan off size v = none := by
    unfold writeSpan
    rw [if_neg h8, if_neg hodd.1, if_neg hodd.2]
  have hread : s.busRead off size = (s, 0) := by
    unfold State.busRead
    rw [if_neg h8, if_neg hodd.1, if_neg hodd.2]
  constructor
  · rw [exec_registerWrite_obs hp, if_pos hspan]
  · rw [exec_rcRegisterRead_obs hp, hread]

/-- Settles O2: no register field is stored at reset, and the rest is read off State.reset. -/
theorem resetValues : Obligations.ResetValues := by
  refine ⟨rfl, rfl, fun f i => rfl, rfl, rfl, rfl, rfl, rfl, rfl, ?_, rfl, ?_, ?_, rfl⟩
  · decide
  · decide
  · decide

/-! ## Frames: which groups of State an operation can change -/

theorem same_refl (g : Grp) (s : State) : same g s s := by
  cases g
  case card => exact ⟨rfl, rfl, rfl⟩
  case regs => exact regsBut_refl _ _
  case events => exact ⟨rfl, rfl, rfl, rfl, rfl, fun _ _ => rfl⟩
  all_goals exact rfl

theorem same_trans {g : Grp} {s t u : State} (h : same g s t) (k : same g t u) : same g s u := by
  cases g
  case card => exact ⟨k.1.trans h.1, k.2.1.trans h.2.1, k.2.2.trans h.2.2⟩
  case regs => exact regsBut_trans h k
  case events =>
    obtain ⟨h1, h2, h3, h4, h5, h6⟩ := h
    obtain ⟨k1, k2, k3, k4, k5, k6⟩ := k
    exact ⟨k1.trans h1, k2.trans h2, k3.trans h3, k4.trans h4, k5.trans h5, fun n hn => (k6 n hn).trans (h6 n hn)⟩
  case fab =>
    have e : { u.fab with crossing := s.fab.crossing } = { t.fab with crossing := s.fab.crossing } :=
      congrArg (fun f : Fabric => { f with crossing := s.fab.crossing }) k
    exact e.trans h
  case tq =>
    have e : { u.tq with levelSeen := s.tq.levelSeen } = { t.tq with levelSeen := s.tq.levelSeen } :=
      congrArg (fun q : Telemetry => { q with levelSeen := s.tq.levelSeen }) k
    exact e.trans h
  all_goals exact k.trans h

theorem changesOnly_refl (l : List Grp) (s : State) : changesOnly l s s := fun g _ => same_refl g s

theorem changesOnly_trans {l : List Grp} {s t u : State} (h : changesOnly l s t) (k : changesOnly l t u) :
    changesOnly l s u := fun g hg => same_trans (h g hg) (k g hg)

/-- More groups may be listed. -/
theorem changesOnly_mono {l m : List Grp} {s t : State} (hlm : l ⊆ m) (h : changesOnly l s t) : changesOnly m s t := by
  refine fun g hg => h g ?_
  rw [List.contains_eq_mem, decide_eq_false_iff_not] at hg ⊢
  exact fun hl => hg (hlm hl)

theorem changesOnly_foldl {α : Type} {l : List Grp} {f : State → α → State} (hf : ∀ s a, changesOnly l s (f s a))
    (as : List α) (s : State) : changesOnly l s (as.foldl f s) := by
  induction as generalizing s with
  | nil => exact changesOnly_refl l s
  | cons a as ih => exact changesOnly_trans (hf s a) (ih (f s a))

theorem changesOnly_tick (s : State) (t : Nat) : changesOnly [.time] s (s.tick t) := by
  intro g hg
  have h0 := same_refl g s
  cases g
  case time => cases hg
  all_goals exact h0

theorem changesOnly_out (s : State) (o : Out) : changesOnly [.out] s (s.out o) := by
  intro g hg
  have h0 := same_refl g s
  cases g
  case out => cases hg
  all_goals exact h0

/-- Setting a field that is no event register changes stored registers alone. -/
theorem changesOnly_setReg (s : State) (f : Fld) (v i : Nat) (h : eventKey (f.key i) = false) :
    changesOnly [.regs] s (s.setReg f v i) := by
  intro g hg
  have h0 := same_refl g s
  cases g
  case regs => cases hg
  case events =>
    refine ⟨rfl, rfl, rfl, rfl, rfl, fun k hk => find_putObs_other _ _ _ _ _ ?_⟩
    rintro rfl
    rw [h] at hk
    cases hk
  all_goals exact h0

theorem changesOnly_bump (s : State) (f : Fld) (k i : Nat) (h : eventKey (f.key i) = false) :
    changesOnly [.regs, .events] s (s.bump f k i) := by
  have hfresh : changesOnly [.regs, .events] s { s with fresh := s.fresh + 1 } := by
    intro g hg
    have h0 := same_refl g s
    cases g
    case events => cases hg
    all_goals exact h0
  have hset : ∀ (t : State) (v : Nat), changesOnly [.regs, .events] t (t.setReg f v i) :=
    fun t v => changesOnly_mono (by decide) (changesOnly_setReg t f v i h)
  unfold State.bump
  split
  · exact hset s _
  · exact changesOnly_trans hfresh (hset _ _)

/-- A change of the tally group. -/
theorem changesOnly_setTly (s : State) (y : Tally) : changesOnly [.tly] s { s with tly := y } := by
  intro g hg
  have h0 := same_refl g s
  cases g
  case tly => cases hg
  all_goals exact h0

theorem changesOnly_setFlip (s : State) (y : Flip) : changesOnly [.flip] s { s with flip := y } := by
  intro g hg
  have h0 := same_refl g s
  cases g
  case flip => cases hg
  all_goals exact h0

theorem changesOnly_sendMsix (s : State) (v : Nat) : changesOnly [.out, .events] s (s.sendMsix v) := by
  unfold State.sendMsix
  split
  · exact changesOnly_refl _ s
  · split
    · exact changesOnly_refl _ s
    · intro g hg
      have h0 := same_refl g s
      cases g
      case out | events => cases hg
      all_goals exact h0

theorem changesOnly_tallyKick (s : State) : changesOnly [.regs, .tly, .events] s s.tallyKick := by
  have hset : ∀ (t : State) (y : Tally), changesOnly [.regs, .tly, .events] t { t with tly := y } :=
    fun t y => changesOnly_mono (by decide) (changesOnly_setTly t y)
  unfold State.tallyKick
  split
  · exact changesOnly_refl _ s
  · split
    · split
      · exact hset s _
      · exact changesOnly_refl _ s
    · split
      · exact changesOnly_refl _ s
      · have hb := changesOnly_bump s TLY_STATUS.deferrals 1 0 (by decide)
        exact changesOnly_trans (changesOnly_mono (by decide) hb) (hset _ _)

theorem changesOnly_ownRow (s : State) (rank part row : Nat) (data : Bytes) :
    changesOnly [.regs, .tly, .events] s (s.ownRow rank part row data) :=
  changesOnly_trans (changesOnly_mono (by decide) (changesOnly_setTly s _)) (changesOnly_tallyKick _)

/-- Asking for a row write counts a deferral at most. -/
theorem reg_ownRow (s : State) (rank part row : Nat) (data : Bytes) (f : Fld) (i : Nat)
    (hf : f.key i ≠ TLY_STATUS.deferrals.key 0) : (s.ownRow rank part row data).reg f i = s.reg f i := by
  unfold State.ownRow State.writeRow State.tallyKick
  split
  · rfl
  · split
    · split <;> rfl
    · split
      · rfl
      · change (State.bump _ TLY_STATUS.deferrals).reg f i = _
        unfold State.bump
        split
        · exact reg_setReg_other _ _ _ _ _ _ hf
        · exact reg_setReg_other _ _ _ _ _ _ hf

/-! ## Interrupts that wait on masked vectors -/

/-- What releasing does for one vector. -/
def releaseVec (s : State) (v : Nat) : State :=
  if s.evt.pending.getLsbD v && !s.vecMasked v then
    { s with evt := { s.evt with pending := s.evt.pending &&& ~~~(BitVec.twoPow 32 v) } }.sendMsix v
  else s

theorem releasePending_eq_foldl (s : State) : s.releasePending = (List.range 32).foldl releaseVec s := rfl

@[simp] theorem sendMsix_obs (s : State) (v : Nat) : (s.sendMsix v).obs = s.obs := by
  unfold State.sendMsix
  split
  · rfl
  · split <;> rfl

@[simp] theorem sendMsix_evt (s : State) (v : Nat) : (s.sendMsix v).evt = s.evt := by
  unfold State.sendMsix
  split
  · rfl
  · split <;> rfl

theorem releaseVec_obs (s : State) (v : Nat) : (releaseVec s v).obs = s.obs := by
  unfold releaseVec
  split
  · exact sendMsix_obs _ v
  · rfl

theorem vecMasked_congr {s t : State} (h : t.obs = s.obs) (v : Nat) : t.vecMasked v = s.vecMasked v := by
  unfold State.vecMasked State.reg
  rw [h]

/-- A vector with nothing pending gets nothing from the release of another. -/
theorem pending_releaseVec_of_clear {s : State} {n : Nat} (v : Nat) (h : s.evt.pending.getLsbD n = false) :
    (releaseVec s v).evt.pending.getLsbD n = false := by
  unfold releaseVec
  split
  · rw [sendMsix_evt]
    simp [h]
  · exact h

/-- Releasing an unmasked vector leaves nothing pending on it. -/
theorem pending_releaseVec_same {s : State} {n : Nat} (hn : n < 32) (h : s.vecMasked n = false) :
    (releaseVec s n).evt.pending.getLsbD n = false := by
  unfold releaseVec
  split
  · rw [sendMsix_evt]
    simp [hn]
  next hp => simpa [h] using hp

theorem foldl_releaseVec_obs (l : List Nat) (s : State) : (l.foldl releaseVec s).obs = s.obs := by
  induction l generalizing s with
  | nil => rfl
  | cons v l ih => exact (ih _).trans (releaseVec_obs s v)

theorem pending_foldl_releaseVec {n : Nat} (hn : n < 32) (l : List Nat) (s : State) (hm : s.vecMasked n = false)
    (h : n ∈ l ∨ s.evt.pending.getLsbD n = false) : (l.foldl releaseVec s).evt.pending.getLsbD n = false := by
  induction l generalizing s with
  | nil => exact h.resolve_left List.not_mem_nil
  | cons v l ih =>
    refine ih _ ((vecMasked_congr (releaseVec_obs s v) n).trans hm) ?_
    rcases h with h | h
    · rcases List.mem_cons.1 h with rfl | h
      · exact .inr (pending_releaseVec_same hn hm)
      · exact .inl h
    · exact .inr (pending_releaseVec_of_clear v h)

theorem changesOnly_releaseVec (s : State) (v : Nat) : changesOnly [.out, .events] s (releaseVec s v) := by
  unfold releaseVec
  split
  · refine changesOnly_trans (t := { s with evt := { s.evt with pending := s.evt.pending &&& ~~~(BitVec.twoPow 32 v) } })
      ?_ (changesOnly_sendMsix _ v)
    intro g hg
    have h0 := same_refl g s
    cases g
    case events => cases hg
    all_goals exact h0
  · exact changesOnly_refl _ s

theorem releasePending_obs (s : State) : s.releasePending.obs = s.obs := foldl_releaseVec_obs _ s

theorem changesOnly_releasePending (s : State) : changesOnly [.out, .events] s s.releasePending :=
  changesOnly_foldl changesOnly_releaseVec _ s

/-- Once a vector is unmasked, nothing stays pending on it. -/
theorem pending_releasePending {s : State} {n : Nat} (hn : n < 32) (hm : s.vecMasked n = false) :
    s.releasePending.evt.pending.getLsbD n = false :=
  pending_foldl_releaseVec hn _ s hm (.inl (List.mem_range.2 hn))

/-! ## Register commands -/

theorem setReg_congr {s : State} {f : Fld} {a b i : Nat} (h : a % f.size = b % f.size) : s.setReg f a i = s.setReg f b i := by
  unfold State.setReg
  rw [h]

theorem regAt_evtSrcMask : ∀ i : Fin 24, regAt (0xF0100 + 8 * i.val) = some (rowEvtSrcMask, i.val) := by decide +kernel

theorem regAt_tqStatus : regAt 0xD0028 = some (rowTqStatus, 0) := by decide +kernel

/-- Nothing follows from a write to any but five registers. -/
theorem afterWrite_of_ne {s : State} {off : Nat} (h1 : off ≠ PMU_WINDOW.window_us.off)
    (h2 : off ≠ TQ_TIMEOUT.timeout_us.off) (h3 : off / 8 * 8 ≠ REC_CTRL.freeze.off) (h4 : off / 8 * 8 ≠ ECC_FLIP_CTRL.target.off)
    (h5 : off / 8 * 8 ≠ EVT_VEC_MASK.mask.off) : s.afterWrite off = s := by
  unfold State.afterWrite
  simp only [if_neg h1, if_neg h2, if_neg h3, if_neg h4, if_neg h5]

theorem eventKey_evtSrcMask : ∀ i : Fin 24, eventKey (EVT_SRC_MASK.mask.key i.val) = false := by decide

theorem eventKey_pflSuspect : ∀ n : Fin 64, eventKey (PFL_SUSPECT.suspect.key n.val) = false := by decide

/-- A 64-bit write sets EVT_SRC_MASK of its copy, and nothing follows from it. -/
theorem exec_registerWrite_evtSrcMask (i : Fin 24) (v : Word64) (s : State) (hp : s.link.protocol ≠ 0) :
    exec (.registerWrite ⟨.obs, 0xF0100 + 8 * i.val⟩ 8 v) s = .next (s.setReg EVT_SRC_MASK.mask v.toNat i.val) := by
  have hspan : writeSpan (0xF0100 + 8 * i.val) 8 v = some (0xF0100 + 8 * i.val, 0, 63, v.toNat) := if_pos ⟨rfl, by omega⟩
  have hown : (!ownWrite EVT_SRC_MASK.mask) = true := by decide
  have hfld : s.writeFld EVT_SRC_MASK.mask i.val 0 63 v.toNat = s.setReg EVT_SRC_MASK.mask v.toNat i.val := by
    rw [writeFld_whole (by decide) (by decide) (.inl rfl)]
    refine setReg_congr ((taken_rw_mod _ _ _).trans ?_)
    rw [Nat.mod_mod, EVT_SRC_MASK.mask, Nat.pow_zero, Nat.div_one]
  have hbus : s.busWrite (0xF0100 + 8 * i.val) 8 v (fun f => !ownWrite f) = s.setReg EVT_SRC_MASK.mask v.toNat i.val := by
    unfold State.busWrite
    simp only [hspan, regAt_evtSrcMask i, rowEvtSrcMask, List.foldl_cons, List.foldl_nil, if_pos hown, hfld]
  have hafter : ∀ u : State, u.afterWrite (0xF0100 + 8 * i.val) = u := fun u =>
    afterWrite_of_ne (by dsimp only [PMU_WINDOW.window_us]; omega) (by dsimp only [TQ_TIMEOUT.timeout_us]; omega)
      (by dsimp only [REC_CTRL.freeze]; omega) (by dsimp only [ECC_FLIP_CTRL.target]; omega)
      (by dsimp only [EVT_VEC_MASK.mask]; omega)
  rw [exec_registerWrite_obs hp, if_neg (by rw [hspan]; exact Option.some_ne_none _), hbus, hafter]

/-- A 32-bit read of the lower half of TQ_STATUS clears the remainders there. -/
theorem exec_rcRegisterRead_tqStatus (s : State) (hp : s.link.protocol ≠ 0) :
    exec (.rcRegisterRead ⟨.obs, 0xD0028⟩ 4) s =
      .next ((s.setReg TQ_STATUS.remainders 0).out (.obsData 0xD0028 (BitVec.ofNat 64 (s.readWord 0xD0028 % 2 ^ 32)))) := by
  have hclear : s.clearRc 0xD0028 0 31 = s.setReg TQ_STATUS.remainders 0 := clearRc_eq_foldl s 0 31 regAt_tqStatus
  have hread : s.busRead 0xD0028 4 = (s.clearRc 0xD0028 0 31, BitVec.ofNat 64 (s.readWord 0xD0028 % 2 ^ 32)) := by
    unfold State.busRead
    rw [if_neg (by decide), if_pos (by decide)]
  rw [exec_rcRegisterRead_obs hp, hread, hclear]

/-- Subtracting the bit that is set clears it. -/
theorem testBit_sub_and_two_pow (m k : Nat) : (m - (m &&& 2 ^ k)).testBit k = false := by
  rw [Nat.and_two_pow]
  cases h : m.testBit k with
  | false => simpa using h
  | true =>
    rw [Nat.testBit_eq_decide_div_mod_eq, decide_eq_true_eq] at h
    have e : (m - true.toNat * 2 ^ k) / 2 ^ k = m / 2 ^ k - 1 := by
      rw [Bool.toNat_true, Nat.mul_comm, Nat.sub_mul_div]
    rw [Nat.testBit_eq_decide_div_mod_eq, e, decide_eq_false_iff_not]
    omega

/-- EVT_VEC_UNMASK of a vector that the register can mask. -/
theorem exec_evtVecUnmask {t : Nat} {n : Fin 32} {s : State} (hp : s.link.protocol ≠ 0) (hn : 5 ≤ n.val) :
    exec (.evtVecUnmask t n) s = .next ((s.tick t).setReg EVT_VEC_MASK.mask
      (s.reg EVT_VEC_MASK.mask - (s.reg EVT_VEC_MASK.mask &&& 2 ^ (n.val - 5)))).releasePending :=
  if_neg (fun h => h.elim hp (Nat.not_lt.2 hn))

theorem vecMasked_unmask (s : State) (n : Nat) :
    (s.setReg EVT_VEC_MASK.mask
      (s.reg EVT_VEC_MASK.mask - (s.reg EVT_VEC_MASK.mask &&& 2 ^ (n - 5)))).vecMasked n = false := by
  unfold State.vecMasked
  rw [reg_setReg, Fld.size, Nat.testBit_mod_two_pow, testBit_sub_and_two_pow, Bool.and_false, Bool.and_false]

/-- PFL_SUSPECT_CLEAR on a trained link: the word loses the bits, and the row of tally partition 1 is asked for. -/
theorem exec_pflSuspectClear {n : Fin 64} {m : Word64} {s : State} (hp : s.link.protocol ≠ 0) :
    ∃ d, exec (.pflSuspectClear n m) s = .next ((s.setReg PFL_SUSPECT.suspect
      (s.reg PFL_SUSPECT.suspect n.val - (s.reg PFL_SUSPECT.suspect n.val &&& m.toNat)) n.val).ownRow 6 1 (4 + n.val / 32) d) :=
  ⟨_, if_neg hp⟩

/-- Settles O35: each command by its equation, and the frame of the operations that it is made of. -/
theorem registerCommands : Obligations.RegisterCommands := by
  unfold Obligations.RegisterCommands
  refine ⟨?_, ?_, ?_, ?_, ?_, ?_, ?_, ?_, ?_⟩
  · intro i v s hp
    refine ⟨_, exec_registerWrite_evtSrcMask i v s hp, ?_, regsBut_setReg (.inr List.mem_cons_self),
      changesOnly_setReg s _ _ _ (eventKey_evtSrcMask i)⟩
    rw [reg_setReg]
    exact Nat.mod_eq_of_lt v.isLt
  · intro s hp
    refine ⟨_, exec_rcRegisterRead_tqStatus s hp, ?_, ?_, rfl, ?_⟩
    · exact (reg_setReg s TQ_STATUS.remainders 0 0).trans (Nat.zero_mod _)
    · exact reg_setReg_other s TQ_STATUS.remainders TQ_STATUS.dropped 0 0 0 (by decide)
    · exact changesOnly_trans (changesOnly_mono (by decide) (changesOnly_setReg s TQ_STATUS.remainders 0 0 (by decide)))
        (changesOnly_mono (by decide) (changesOnly_out _ _))
  · intro t n s hp hn
    have hm := vecMasked_unmask (s.tick t) n.val
    refine ⟨_, exec_evtVecUnmask hp hn, ?_, pending_releasePending n.isLt hm, ?_⟩
    · exact (vecMasked_congr (releasePending_obs _) n.val).trans hm
    · exact changesOnly_trans (changesOnly_mono (by decide) (changesOnly_tick s t))
        (changesOnly_trans (changesOnly_mono (by decide) (changesOnly_setReg _ EVT_VEC_MASK.mask _ 0 (by decide)))
          (changesOnly_mono (by decide) (changesOnly_releasePending _)))
  · intro n m s hp hlt
    obtain ⟨d, hd⟩ := exec_pflSuspectClear (n := n) (m := m) hp
    have hne : PFL_SUSPECT.suspect.key n.val ≠ TLY_STATUS.deferrals.key 0 := by
      simp only [Fld.key, PFL_SUSPECT.suspect, TLY_STATUS.deferrals]
      omega
    refine ⟨_, hd, ?_, ?_⟩
    · rw [reg_ownRow _ _ _ _ _ _ _ hne, reg_setReg]
      exact Nat.mod_eq_of_lt (lt_of_le_of_lt (Nat.sub_le _ _) hlt)
    · exact changesOnly_trans (changesOnly_mono (by decide) (changesOnly_setReg s _ _ _ (eventKey_pflSuspect n)))
        (changesOnly_ownRow _ _ _ _ _)
  · exact fun s hp hok => congrArg Host.Outcome.next (if_pos ⟨hp, hok⟩)
  · intro s hp hok
    refine congrArg Host.Outcome.next (if_neg (fun h => ?_))
    exact Bool.false_ne_true (hok.symm.trans h.2)
  · intro s hp
    refine ⟨_, congrArg Host.Outcome.next (if_neg hp), rfl, ?_, ?_, ?_⟩
    · exact (reg_setReg s ECC_FLIP_CTRL.target 0 0).trans (Nat.zero_mod _)
    · exact regsBut_trans (t := s.setReg ECC_FLIP_CTRL.target 0) (regsBut_setReg (.inr List.mem_cons_self)) (fun _ _ _ => rfl)
    · exact changesOnly_trans (changesOnly_mono (by decide) (changesOnly_setReg s ECC_FLIP_CTRL.target 0 0 (by decide)))
        (changesOnly_mono (by decide) (changesOnly_setFlip _ _))
  · intro off n b v s hp
    refine ⟨exec_registerWrite_window hp Window.noConfusion, exec_registerWrite_window hp (by decide),
      exec_registerWrite_window hp (by decide), exec_registerWrite_window hp (by decide), ?_⟩
    rw [← BitVec.ofNat_toNat]
    exact congrArg Host.Outcome.next (if_neg hp)
  · intro off n b x s hp hn hx
    have hread : s.apertureRead off n b =
        s.out (.apertureData off (BitVec.ofNat 64 (ofBytes ((x.bytes.drop (off % 64)).take n))) b) := by
      unfold State.apertureRead
      simp only [hx, Nat.min_eq_left hn]
    exact congrArg Host.Outcome.next ((if_neg hp).trans hread)

end Sys2Proof.Proofs
end

section
/-! PROOFS of the statements about the mailbox gate and about the regions of the fabric (01_hierarchy_and_fabric). -/

namespace Sys2Proof.Proofs

open Sys2Proof Sys2Proof.Machine Sys2Proof.Safety Sys2Proof.Laws

/-! ## The mailbox gate -/

theorem gate_primary_of_recovery {s : State} {op : Nat} {a b : Bool} (h : s.boot.recovery = true) :
    s.gate .primary op a b = .silent := by
  unfold State.gate
  rw [if_pos h, if_neg (fun h => nomatch h.1)]

theorem gate_mctp_of_recovery {s : State} {op : Nat} {a b : Bool} (h : s.boot.recovery = true)
    (hop : op ∈ [0x0200, 0x0201, 0x0202, 0xC060]) : s.gate .mctp op a b = .pass := by
  unfold State.gate
  rw [if_pos h, if_pos ⟨rfl, hop⟩]

/-- The gate of a ready primary mailbox while region G does not run. -/
theorem gate_of_not_gRuns {s : State} {op : Nat} {a b : Bool} (h : s.boot.recovery = false) (hm : s.link.mboxReady = true)
    (hg : s.gRuns = false) :
    s.gate .primary op a b = if a && s.restarting 1 then .hold else .refuse .retryRequired := by
  unfold State.gate
  simp only [h, hm, hg, Bool.false_eq_true, if_false, Bool.not_true, Bool.and_false, reduceCtorEq, decide_false, Bool.false_and,
    Bool.not_false, if_true]

/-- The gate of a ready primary mailbox while region G runs and no Sanitize does. -/
theorem gate_of_gRuns {s : State} {op : Nat} {a b : Bool} (h : s.boot.recovery = false) (hm : s.link.mboxReady = true)
    (hg : s.gRuns = true) (he : s.key.erasing = none) :
    s.gate .primary op a b =
      if a && s.tallyBusy then .refuse .busy
      else if b && (s.pcieOnly || s.boot.hold) then .refuse .mediaDisabled
      else if b && !s.link.memActive then .refuse .busy
      else if s.mbRuns || !s.link.held.isEmpty then .hold
      else .pass := by
  unfold State.gate
  simp only [h, hm, hg, he, Bool.false_eq_true, if_false, Bool.not_true, Bool.and_false, reduceCtorEq, decide_false, Bool.false_and,
    false_and]

/-- Settles O11: each refusal by the guard of the gate that gives it. -/
theorem mailboxGate : Obligations.MailboxGate := by
  unfold Obligations.MailboxGate
  refine ⟨?_, ?_, ?_, ?_, ?_, ?_, ?_⟩
  · rintro p op a b s hr rfl
    exact gate_primary_of_recovery hr
  · rintro p op a b s hr rfl hop
    exact gate_mctp_of_recovery hr hop
  · intro op a b s hr hm hg ha
    rw [gate_of_not_gRuns hr hm hg, ha, if_neg Bool.false_ne_true]
  · intro op b s hr hm hg h1
    rw [gate_of_not_gRuns hr hm hg, h1, Bool.and_true, if_pos rfl]
  · intro op b s hr hm hg he ht
    rw [gate_of_gRuns hr hm hg he, ht, Bool.and_true, if_pos rfl]
  · intro op s hr hm hg he hp
    rw [gate_of_gRuns hr hm hg he, hp, Bool.false_and, if_neg Bool.false_ne_true, Bool.true_or, Bool.and_true, if_pos rfl]
  · intro op s hr hm hg he
    simp only [gate_of_gRuns hr hm hg he, Bool.false_and, Bool.false_eq_true, if_false]

/-! ## Frames of the operations on the fabric -/

/-- What changes one list of groups and then another changes no more than both. -/
theorem changesOnly_append {l m : List Grp} {s t u : State} (h : changesOnly l s t) (k : changesOnly m t u) :
    changesOnly (l ++ m) s u :=
  changesOnly_trans (changesOnly_mono (List.subset_append_left l m) h) (changesOnly_mono (List.subset_append_right l m) k)

/-- A command that takes its time first. -/
theorem changesOnly_of_tick {l : List Grp} {s u : State} {t : Nat} (h : changesOnly l (s.tick t) u) : changesOnly (.time :: l) s u :=
  changesOnly_append (changesOnly_tick s t) h

/-- Raising an event changes the output and the event state alone. -/
theorem changesOnly_ev (src sev : Nat) (data : List Nat) (region : Nat) (s : State) :
    changesOnly [.out, .events] s (ev src sev data region s) := by
  intro g hg
  have h0 := same_refl g s
  cases g
  case out | events => cases hg
  case regs => exact regsBut_ev src sev data region s
  all_goals exact h0

/-- A change of the fabric that leaves the crossings. -/
theorem changesOnly_setFab (s : State) (f : Fabric) (h : f.crossing = s.fab.crossing) :
    changesOnly [.fab] s { s with fab := f } := by
  intro g hg
  have h0 := same_refl g s
  cases g
  case fab => cases hg
  case events => exact ⟨rfl, rfl, rfl, h, rfl, fun _ _ => rfl⟩
  all_goals exact h0

/-- An event about a change of the fabric. -/
theorem changesOnly_ev_setFab (src sev : Nat) (data : List Nat) (region : Nat) (s : State) (f : Fabric)
    (h : f.crossing = s.fab.crossing) : changesOnly [.out, .events, .fab] s (ev src sev data region { s with fab := f }) :=
  changesOnly_mono (by decide) (changesOnly_append (changesOnly_setFab s f h) (changesOnly_ev _ _ _ _ _))

/-- Where the fabric is as before, only the crossings of interrupts may differ. -/
theorem fab_eq_of_same {s t : State} (h : same .fab s t) : t.fab = { s.fab with crossing := t.fab.crossing } :=
  congrArg (fun f : Fabric => { f with crossing := t.fab.crossing }) h

theorem same_fab_of_eq {s t : State} (h : t.fab = s.fab) : same .fab s t := by
  unfold same
  rw [h]

theorem changesOnly_noteFault (s : State) (d : Bool) : changesOnly [.regs, .events] s (s.noteFault d) := by
  unfold State.noteFault
  split
  · exact changesOnly_bump s _ 1 0 (by decide)
  · exact changesOnly_bump s _ 1 0 (by decide)

@[simp] theorem noteFault_now (s : State) (d : Bool) : (s.noteFault d).now = s.now := by
  unfold State.noteFault
  split <;> exact State.bump_now _ _ _ _

@[simp] theorem noteFault_fab (s : State) (d : Bool) : (s.noteFault d).fab = s.fab := by
  unfold State.noteFault
  split <;> exact State.bump_fab _ _ _ _

@[simp] theorem noteFault_pwr (s : State) (d : Bool) : (s.noteFault d).pwr = s.pwr := by
  unfold State.noteFault
  split <;> exact State.bump_pwr _ _ _ _

@[simp] theorem noteFault_pfl (s : State) (d : Bool) : (s.noteFault d).pfl = s.pfl := by
  unfold State.noteFault
  split <;> exact State.bump_pfl _ _ _ _

/-! ## The restart of a region -/

/-- A region whose restart nothing stands against restarts at once (01 R15): the core rails are on, no dump runs, no restart runs or
waits, and it has not reported ready before. -/
structure RestartsFreely (s : State) (r : Nat) : Prop where
  core : s.coreOn = true
  notFenced : s.isFenced r = false
  restarts : s.fab.restarts = []
  queue : s.fab.queue = []
  noDump : s.pfl.dump = none
  notA : r ≠ 0
  noReady : Tab.find s.fab.ready r = none

theorem not_restarting {s : State} (h : s.fab.restarts = []) (r : Nat) : s.restarting r = false := by
  unfold State.restarting
  rw [h]
  rfl

theorem beginRestart_of_free {s : State} {r cause : Nat} (h : RestartsFreely s r) :
    s.beginRestart r cause = { s with fab := { s.fab with restarts := [⟨r, false, s.now⟩] } } := by
  unfold State.beginRestart State.startRestart
  simp only [if_neg h.notA, h.notFenced, not_restarting h.restarts, h.queue, h.core, h.noDump, h.restarts, h.noReady,
    List.contains_nil, Bool.not_true, Bool.false_and, Bool.or_false, Bool.false_eq_true, if_false, Option.isSome_none,
    List.any_nil, List.nil_append]

theorem RestartsFreely.of_eq {s t : State} {r : Nat} (h : RestartsFreely s r) (hp : t.pwr = s.pwr) (hd : t.pfl = s.pfl)
    (hf : t.fab.fenced = s.fab.fenced) (hr : t.fab.restarts = s.fab.restarts) (hq : t.fab.queue = s.fab.queue)
    (hy : t.fab.ready = s.fab.ready) : RestartsFreely t r where
  core := (congrArg (fun p : Power => ((p.rails.drop 1).take 3).all (fun r => r.enabled && r.pg)) hp).trans h.core
  notFenced := (congrArg (fun f => f.getLsbD r) hf).trans h.notFenced
  restarts := hr.trans h.restarts
  queue := hq.trans h.queue
  noDump := (congrArg Persist.dump hd).trans h.noDump
  notA := h.notA
  noReady := (congrArg (fun f => Tab.find f r) hy).trans h.noReady

theorem RestartsFreely.tick {s : State} {r : Nat} (h : RestartsFreely s r) (t : Nat) : RestartsFreely (s.tick t) r :=
  h.of_eq rfl rfl rfl rfl rfl rfl

/-! ## The escalation of a fault (01 R12, Table 1-2) -/

section
variable {t : Nat} {r : Fin 9} {b : Nat} {s : State}

/-- A block of a region that runs. -/
structure Escalates (s : State) (r : Fin 9) (b : Nat) : Prop where
  core : s.coreOn = true
  block : b < 64
  notFenced : s.isFenced r.val = false
  notRestarting : s.restarting r.val = false

theorem Escalates.guard (h : Escalates s r b) (t : Nat) :
    ¬(!(s.tick t).coreOn || decide (64 ≤ b) || (s.tick t).isFenced r.val || (s.tick t).restarting r.val) = true := by
  have h1 : (s.tick t).coreOn = true := h.core
  have h2 : (s.tick t).isFenced r.val = false := h.notFenced
  have h3 : (s.tick t).restarting r.val = false := h.notRestarting
  rw [h1, h2, h3, decide_eq_false (Nat.not_le.2 h.block)]
  decide

theorem exec_handshakeStall_corrected (h : Escalates s r b) :
    exec (.handshakeStall t r b .corrected) s = .next ((s.tick t).bump ECC_FABRIC.corrected) := if_neg (h.guard t)

theorem exec_handshakeStall_retrySucceeds (h : Escalates s r b) (d : Bool) :
    exec (.handshakeStall t r b (.retrySucceeds d)) s = .next ((s.tick t).noteFault d) := if_neg (h.guard t)

/-- What a fault on a block leads to that faults again within 1 ms of its last reset. -/
def restartAfterFault (s : State) (r b : Nat) (d : Bool) : State :=
  ((ev 0x56B 0 [b, 4] r (s.noteFault d)).clearBlock r b).beginRestart r 0x56B

theorem exec_handshakeStall_reissueSucceeds (h : Escalates s r b) (d : Bool) :
    exec (.handshakeStall t r b (.reissueSucceeds d)) s =
      .next (if ((s.tick t).noteFault d).faultsAgain r.val b then restartAfterFault (s.tick t) r.val b d
        else ev 0x56B 0 [b, 2] r.val ((s.tick t).noteFault d)) := if_neg (h.guard t)

theorem exec_handshakeStall_blockReset (h : Escalates s r b) (d : Bool) :
    exec (.handshakeStall t r b (.blockReset d)) s =
      .next (if ((s.tick t).noteFault d).faultsAgain r.val b then restartAfterFault (s.tick t) r.val b d
        else (ev 0x56B 0 [b, 3] r.val ((s.tick t).noteFault d)).resetBlock r.val b) := if_neg (h.guard t)

theorem exec_handshakeStall_domainReset (h : Escalates s r b) (d : Bool) :
    exec (.handshakeStall t r b (.domainReset d)) s =
      .next ((ev 0x56B 0 [b, 6] r.val ((s.tick t).noteFault d)).fatalHandling r.val 0x56B) := if_neg (h.guard t)

end

theorem faultsAgain_of_find_none {s : State} {r b : Nat} (h : Tab.find s.fab.blocks (blockKey r b) = none) :
    s.faultsAgain r b = false := by
  unfold State.faultsAgain
  rw [h]

theorem faultsAgain_of_recent {s : State} {r b n a e : Nat} (h : Tab.find s.fab.blocks (blockKey r b) = some ⟨n, a, some e⟩)
    (hl : s.now < e + msec) : s.faultsAgain r b = true := by
  unfold State.faultsAgain
  simp only [h, decide_eq_true hl]

/-- An event about a fault that has been counted. -/
theorem changesOnly_ev_noteFault (s : State) (r : Nat) (data : List Nat) (d : Bool) :
    changesOnly [.out, .events, .regs] s (ev 0x56B 0 data r (s.noteFault d)) :=
  changesOnly_mono (by decide) (changesOnly_append (changesOnly_noteFault s d) (changesOnly_ev _ _ _ _ _))

/-- Step 3 begins the reset of the block. -/
theorem resetBlock_blocks (s : State) (r b : Nat) :
    (s.resetBlock r b).fab.blocks = Tab.put s.fab.blocks (blockKey r b) ⟨3, s.now, none⟩ := rfl

theorem resetBlock_restarts (s : State) (r b : Nat) : (s.resetBlock r b).fab.restarts = s.fab.restarts := rfl

theorem changesOnly_resetBlock (s : State) (r b : Nat) : changesOnly [.out, .events, .fab] s (s.resetBlock r b) :=
  changesOnly_ev_setFab _ _ _ _ s _ rfl

theorem changesOnly_clearBlock (s : State) (r b : Nat) : changesOnly [.fab] s (s.clearBlock r b) := changesOnly_setFab s _ rfl

theorem RestartsFreely.clearBlock {s : State} {r : Nat} (h : RestartsFreely s r) (b : Nat) : RestartsFreely (s.clearBlock r b) r :=
  h.of_eq rfl rfl rfl rfl rfl rfl

/-- Step 4 gives up the block's own escalation and restarts its region. -/
theorem restartAfterFault_spec {s : State} {r : Nat} (b : Nat) (d : Bool) (h : RestartsFreely s r) :
    (restartAfterFault s r b d).fab.blocks = Tab.del s.fab.blocks (blockKey r b) ∧
    (restartAfterFault s r b d).fab.restarts = [⟨r, false, s.now⟩] ∧
    changesOnly [.out, .events, .regs, .fab] s (restartAfterFault s r b d) := by
  have hn : RestartsFreely (s.noteFault d) r := by
    refine h.of_eq (noteFault_pwr s d) (noteFault_pfl s d) ?_ ?_ ?_ ?_ <;> rw [noteFault_fab]
  have he : RestartsFreely (ev 0x56B 0 [b, 4] r (s.noteFault d)) r := hn.of_eq rfl rfl rfl rfl rfl rfl
  unfold restartAfterFault
  rw [beginRestart_of_free (he.clearBlock b)]
  refine ⟨?_, ?_, ?_⟩
  · change Tab.del (s.noteFault d).fab.blocks (blockKey r b) = _
    rw [noteFault_fab]
  · change [(⟨r, false, (s.noteFault d).now⟩ : Restart)] = _
    rw [noteFault_now]
  · exact changesOnly_mono (by decide) (changesOnly_append (changesOnly_ev_noteFault s r [b, 4] d)
      (changesOnly_append (changesOnly_clearBlock _ r b) (changesOnly_setFab _ _ rfl)))

/-! ## The end of a block's reset -/

section
variable {t : Nat} {r : Fin 9} {b n a : Nat} {k : Bool} {s : State}

theorem exec_blockResetComplete_unknown (h : Tab.find s.fab.blocks (blockKey r.val b) = none) :
    exec (.blockResetComplete t r b k) s = .next (s.tick t) := by
  dsimp only [exec, execBlockResetComplete]
  rw [State.tick_fab, h]

theorem exec_blockResetComplete (h : Tab.find s.fab.blocks (blockKey r.val b) = some ⟨n, a, none⟩) :
    exec (.blockResetComplete t r b k) s =
      if k && decide (max s.now t ≤ a + 20 * usec) then
        .next { s.tick t with
          fab := { s.fab with blocks := Tab.put s.fab.blocks (blockKey r.val b) ⟨3, a, some (max s.now t)⟩ } }
      else .next (((s.tick t).clearBlock r.val b).beginRestart r.val 0x56C) := by
  dsimp only [exec, execBlockResetComplete]
  rw [State.tick_fab, h]
  exact if_neg Bool.false_ne_true

end

/-! ## Engine watchdogs -/

/-- The region of an engine is K, G or a media region, never A. -/
theorem engineRegion_ne_zero (e : Nat) : engineRegion e ≠ 0 := by
  unfold engineRegion mediaRegion
  split
  · omega
  · split <;> decide

section
variable {t : Nat} {e : Fin 64} {s : State}

theorem watchdog_guard (hc : s.coreOn = true) (hf : s.isFenced (engineRegion e.val) = false)
    (hr : s.restarting (engineRegion e.val) = false) :
    ¬(!(s.tick t).coreOn || (s.tick t).isFenced (engineRegion e.val) || (s.tick t).restarting (engineRegion e.val)) = true := by
  have h1 : (s.tick t).coreOn = true := hc
  have h2 : (s.tick t).isFenced (engineRegion e.val) = false := hf
  have h3 : (s.tick t).restarting (engineRegion e.val) = false := hr
  rw [h1, h2, h3]
  decide

/-- The expiries that count after one of engine e at s.now (R29: those of the last second). -/
def expiriesWith (s : State) (e : Nat) : List (Nat × Nat) :=
  (s.fab.expiries.filter (fun x => decide (s.now < x.2 + sec))) ++ [(e, s.now)]

theorem expiriesWith_of_recent {l : List (Nat × Nat)} {e : Nat} {s : State} (hx : s.fab.expiries = l)
    (h : ∀ x ∈ l, s.now < x.2 + sec) : expiriesWith s e = l ++ [(e, s.now)] := by
  unfold expiriesWith
  rw [hx, List.filter_eq_self.2 (fun x hx => decide_eq_true (h x hx))]

/-- An expiry is noted, with its event; the standby coordinator takes over from the active one. -/
def noteExpiry (s : State) (e : Nat) : State :=
  ev 0x56A 1 [e, ((expiriesWith s e).filter (fun x => x.1 == e)).length] (engineRegion e)
    { s with fab := { s.fab with
      expiries := expiriesWith s e, coordinator := if e = s.fab.coordinator then 125 - e else s.fab.coordinator } }

/-- The third expiry of an engine within 1 s restarts its region, and its expiries count no longer. -/
def restartForExpiries (s : State) (e : Nat) : State :=
  State.beginRestart { noteExpiry s e with
    fab := { (noteExpiry s e).fab with expiries := (expiriesWith s e).filter (fun x => x.1 != e) } } (engineRegion e) 0x56A

theorem exec_engineWatchdogExpiry (hc : s.coreOn = true) (hf : s.isFenced (engineRegion e.val) = false)
    (hr : s.restarting (engineRegion e.val) = false) :
    exec (.engineWatchdogExpiry t e) s =
      if 3 ≤ ((expiriesWith (s.tick t) e.val).filter (fun x => x.1 == e.val)).length then
        .next (restartForExpiries (s.tick t) e.val)
      else .next (noteExpiry (s.tick t) e.val) := if_neg (watchdog_guard hc hf hr)

theorem changesOnly_noteExpiry (s : State) (e : Nat) : changesOnly [.out, .events, .fab] s (noteExpiry s e) :=
  changesOnly_ev_setFab _ _ _ _ s _ rfl

theorem restartForExpiries_eq {s : State} {e : Nat} (h : RestartsFreely s (engineRegion e)) :
    restartForExpiries s e = { noteExpiry s e with
      fab := { (noteExpiry s e).fab with
        expiries := (expiriesWith s e).filter (fun x => x.1 != e), restarts := [⟨engineRegion e, false, s.now⟩] } } :=
  beginRestart_of_free (h.of_eq rfl rfl rfl rfl rfl rfl)

theorem changesOnly_restartForExpiries {s : State} {e : Nat} (h : RestartsFreely s (engineRegion e)) :
    changesOnly [.out, .events, .fab] s (restartForExpiries s e) := by
  rw [restartForExpiries_eq h]
  exact changesOnly_mono (by decide) (changesOnly_append (changesOnly_noteExpiry s e) (changesOnly_setFab (noteExpiry s e) _ rfl))

end

/-! ## Fatal handling and fences -/

theorem fab_linkDown (s : State) : s.linkDown.fab = s.fab := by
  unfold State.linkDown
  split <;> rfl

theorem fab_tearDie (s : State) (i : Nat) : (tearDie s i).fab = s.fab := by
  unfold tearDie
  split
  · rfl
  · split
    · split <;> rfl
    · rfl
    · rfl

theorem fab_foldl_tearDie (l : List Nat) (s : State) : (l.foldl tearDie s).fab = s.fab := by
  induction l generalizing s with
  | nil => rfl
  | cons i l ih => exact (ih _).trans (fab_tearDie s i)

theorem fab_abandonPrograms (s : State) : s.abandonPrograms.fab = s.fab := by
  dsimp only [State.abandonPrograms]
  exact fab_foldl_tearDie _ s

theorem fab_abandonCommands (s : State) : s.abandonCommands.fab = s.fab := rfl

theorem fab_freeContexts (s : State) : s.freeContexts.fab = s.fab := rfl

theorem fab_mergeFills (s : State) : s.mergeFills.fab = s.fab := rfl

theorem fab_quiesce (s : State) : s.quiesce.fab = s.fab := by
  dsimp only [State.quiesce]
  rw [fab_abandonPrograms, fab_abandonCommands, fab_linkDown, fab_freeContexts, fab_mergeFills]

theorem fab_powerFailed (s : State) (b : Bool) (c : Nat) : (s.powerFailed b c).fab = s.fab := by
  unfold State.powerFailed
  split <;> rfl

/-- A dump begins with no change of the fabric. -/
theorem same_fab_beginDump (s : State) (cause : Nat) : same .fab s (s.beginDump cause) := by
  unfold State.beginDump
  split
  · exact same_refl .fab s
  · extract_lets z p q
    have hq : q.fab = s.fab := (fab_powerFailed _ _ _).trans (fab_quiesce s)
    have hs : same .fab s q := same_fab_of_eq hq
    clear_value q
    split
    · split
      · exact hs
      · exact hs
    · exact hs

/-- Fatal handling sets its mark in the fabric. -/
theorem fab_fatalHandling (s : State) (region cause : Nat) :
    ∃ x, (s.fatalHandling region cause).fab = { s.fab with fatal := true, crossing := x } := by
  unfold State.fatalHandling
  split
  next h =>
    refine ⟨s.fab.crossing, ?_⟩
    rw [← h]
  next => exact ⟨_, fab_eq_of_same (same_fab_beginDump _ 1)⟩

/-- Settles O41: one equation per kind of stall, and the spec of the restart that they lead to. -/
theorem fabricEscalation : Obligations.FabricEscalation := by
  unfold Obligations.FabricEscalation
  refine ⟨?_, ?_, ?_, ?_, ?_, ?_, ?_, ?_, ?_, ?_⟩
  · intro t r b d s hc hb hf hr
    have h : Escalates s r b := ⟨hc, hb, hf, hr⟩
    refine ⟨exec_handshakeStall_corrected h, (exec_handshakeStall_retrySucceeds h d).trans ?_⟩
    cases d <;> rfl
  · intro t r b d s hc hb hf hr hn
    have h : Escalates s r b := ⟨hc, hb, hf, hr⟩
    have hfab : ((s.tick t).noteFault d).fab = s.fab := noteFault_fab _ d
    have hnow : ((s.tick t).noteFault d).now = max s.now t := noteFault_now _ d
    have hfa : ((s.tick t).noteFault d).faultsAgain r.val b = false := faultsAgain_of_find_none (by rw [hfab]; exact hn)
    have hev := fun data => changesOnly_ev_noteFault (s.tick t) r.val data d
    constructor
    · refine ⟨_, exec_handshakeStall_reissueSucceeds h d, ?_⟩
      rw [hfa, if_neg Bool.false_ne_true]
      exact changesOnly_mono (by decide) (changesOnly_of_tick (hev _))
    · refine ⟨_, exec_handshakeStall_blockReset h d, ?_⟩
      rw [hfa, if_neg Bool.false_ne_true]
      refine ⟨?_, ?_, ?_⟩
      · rw [resetBlock_blocks, ← hnow, ← hfab]
        rfl
      · rw [resetBlock_restarts, ← hfab]
        rfl
      · exact changesOnly_mono (by decide) (changesOnly_of_tick
          (changesOnly_append (hev _) (changesOnly_resetBlock _ r.val b)))
  · intro t r b n a e d s hc hb hf hr hq hd h0 hy hs hl
    have h : Escalates s r b := ⟨hc, hb, hf, not_restarting hr _⟩
    have hfa : ((s.tick t).noteFault d).faultsAgain r.val b = true := by
      refine faultsAgain_of_recent (n := n) (a := a) (e := e) ?_ ?_
      · rw [noteFault_fab]
        exact hs
      · rw [noteFault_now]
        exact hl
    obtain ⟨h1, h2, h3⟩ := restartAfterFault_spec b d (RestartsFreely.tick ⟨hc, hf, hr, hq, hd, h0, hy⟩ t)
    have hall := And.intro h1 (And.intro h2 (changesOnly_of_tick h3))
    exact ⟨⟨_, (exec_handshakeStall_reissueSucceeds h d).trans (by rw [hfa, if_pos rfl]), hall⟩,
      ⟨_, (exec_handshakeStall_blockReset h d).trans (by rw [hfa, if_pos rfl]), hall⟩⟩
  · intro t r b n a s hs hl
    rw [exec_blockResetComplete hs, decide_eq_true hl, Bool.and_true, if_pos rfl]
  · intro t r b n a k s hs hk hc hf hr hq hd h0 hy
    have hlate : (k && decide (max s.now t ≤ a + 20 * usec)) = false := by
      rcases hk with rfl | hk
      · rfl
      · rw [decide_eq_false (Nat.not_le.2 hk), Bool.and_false]
    rw [exec_blockResetComplete hs, hlate, if_neg Bool.false_ne_true,
      beginRestart_of_free ((RestartsFreely.tick ⟨hc, hf, hr, hq, hd, h0, hy⟩ t).clearBlock b)]
    rfl
  · intro t e s hc hf hr hx
    have hl : expiriesWith (s.tick t) e.val = [(e.val, max s.now t)] :=
      expiriesWith_of_recent (s := s.tick t) hx (fun z hz => absurd hz List.not_mem_nil)
    refine ⟨_, (exec_engineWatchdogExpiry hc hf hr).trans (if_neg ?_), hl, rfl, rfl, ?_⟩
    · rw [hl]
      simp
    · exact changesOnly_mono (by decide) (changesOnly_of_tick (changesOnly_noteExpiry _ _))
  · intro t x y e s hc hf hr hq hd hy hx h1 h2
    have hl : expiriesWith (s.tick t) e.val = [(e.val, x), (e.val, y), (e.val, max s.now t)] := by
      refine expiriesWith_of_recent (s := s.tick t) hx (fun z hz => ?_)
      rcases List.mem_pair.1 hz with rfl | rfl
      · exact h1
      · exact h2
    have hfree : RestartsFreely (s.tick t) (engineRegion e.val) :=
      RestartsFreely.tick ⟨hc, hf, hr, hq, hd, engineRegion_ne_zero _, hy⟩ t
    refine ⟨_, (exec_engineWatchdogExpiry hc hf (not_restarting hr _)).trans (if_pos ?_), ?_⟩
    · rw [hl]
      simp
    · refine ⟨?_, ?_, changesOnly_mono (by decide) (changesOnly_of_tick (changesOnly_restartForExpiries hfree))⟩
      · rw [restartForExpiries_eq hfree]
        change (expiriesWith (s.tick t) e.val).filter (fun x => x.1 != e.val) = []
        rw [hl]
        simp
      · rw [restartForExpiries_eq hfree]
        rfl
  · intro t r b k e s hc
    have hg : (s.tick t).coreOn = false := hc
    refine ⟨if_pos ?_, if_pos ?_⟩ <;> simp only [hg, Bool.not_false, Bool.true_or]
  · intro t r b k s hs
    exact exec_blockResetComplete_unknown hs
  · intro t r b d s hc hb hf hr
    obtain ⟨x, hx⟩ := fab_fatalHandling (ev 0x56B 0 [b, 6] r.val ((s.tick t).noteFault d)) r.val 0x56B
    refine ⟨_, exec_handshakeStall_domainReset ⟨hc, hb, hf, hr⟩ d, ?_, ?_⟩
    · rw [hx]
    · rw [hx]
      change ((s.tick t).noteFault d).fab.restarts = s.fab.restarts
      rw [noteFault_fab, State.tick_fab]

/-! ## Operations that log what they raise -/

/-- A state reached by raising events, whatever they change among the registers that it may not. -/
theorem changesOnly_of_onlyEvents {s t : State} (h : t = s.onlyEvents t) (hr : regsBut [] s t) : changesOnly [.out, .events] s t := by
  intro g hg
  have h0 := same_refl g s
  cases g
  case out | events => cases hg
  case regs => exact hr
  all_goals
    rw [h]
    exact h0

/-- The card went from s to t by raising events and held none of them back (12 R350). -/
structure Logs (s t : State) : Prop where
  frame : t = s.onlyEvents t
  deferred : t.evt.deferred = s.evt.deferred

theorem Logs.refl (s : State) : Logs s s := ⟨rfl, rfl⟩

theorem Logs.trans {s t u : State} (h : Logs s t) (k : Logs t u) : Logs s u :=
  ⟨k.frame.trans (congrArg (fun z => z.onlyEvents u) h.frame), k.deferred.trans h.deferred⟩

theorem Logs.canLog {s t : State} (h : Logs s t) : t.canLog = s.canLog := (congrArg State.canLog h.frame).trans rfl

theorem Logs.foldl_fst {α β : Type} {f : State × β → α → State × β} (hf : ∀ a x, Logs a.1 (f a x).1) (l : List α)
    (a : State × β) : Logs a.1 (l.foldl f a).1 := by
  induction l generalizing a with
  | nil => exact Logs.refl _
  | cons x l ih => exact (hf a x).trans (ih (f a x))

theorem logs_setReg (s : State) (f : Fld) (v i : Nat) : Logs s (s.setReg f v i) := ⟨rfl, rfl⟩

theorem logs_bump (s : State) (f : Fld) (k i : Nat) : Logs s (s.bump f k i) := by
  unfold State.bump
  split <;> exact ⟨rfl, rfl⟩

theorem logs_pmuMeet (code k : Nat) (q : Option PmuReq) (a : State × List Ev) (n : Nat) : Logs a.1 (pmuMeet code k q a n).1 := by
  unfold pmuMeet State.pmuAdd
  split
  · split
    · exact ⟨rfl, rfl⟩
    · dsimp only
      split <;> exact ⟨rfl, rfl⟩
  · exact Logs.refl _

theorem logs_pmuEdge (s : State) (code k : Nat) (q : Option PmuReq) : Logs s (s.pmuEdge code k q).1 := by
  unfold State.pmuEdge
  split
  · exact Logs.foldl_fst (logs_pmuMeet code k q) (List.range 64) (s, [])
  · exact Logs.refl s

theorem logs_fireOne (e : Ev) (a : State × Nat) (it : Nat × Trigger) : Logs a.1 (fireOne e a it).1 := by
  unfold fireOne
  extract_lets s snaps b r s1 seq recorded
  have h1 : Logs s s1 := by
    dsimp only [s1]
    split
    · exact ⟨rfl, rfl⟩
    · split
      · exact logs_bump s _ 1 0
      · split
        · exact (logs_bump s REC_LOST.staging_overflow 1 0).trans ⟨rfl, rfl⟩
        · exact ⟨rfl, rfl⟩
  clear_value s1 seq recorded
  split
  · exact Logs.refl _
  · split
    · exact Logs.refl _
    · split
      · exact logs_bump s _ 1 0
      · split
        · exact h1.trans ((logs_setReg _ _ _ _).trans (logs_setReg _ _ _ _))
        · exact h1

theorem logs_fireAll (s : State) (e : Ev) : Logs s (s.fireAll e).1 := Logs.foldl_fst (logs_fireOne e) _ (s, 0)

theorem logs_sendMsix (s : State) (v : Nat) : Logs s (s.sendMsix v) := by
  unfold State.sendMsix
  split
  · exact Logs.refl s
  · split <;> exact ⟨rfl, rfl⟩

theorem logs_interrupt (s : State) (v : Nat) : Logs s (s.interrupt v) := by
  unfold State.interrupt
  split
  · exact ⟨rfl, rfl⟩
  · exact logs_sendMsix s v

theorem logs_logRecord (s : State) (kind src sev region seq : Nat) (data : List Nat) :
    Logs s (s.logRecord kind src sev region seq data) := by
  unfold State.logRecord
  split
  · exact (logs_bump s EVT_STATUS.log_full 1 0).trans ⟨rfl, rfl⟩
  · extract_lets r b e c
    have hc : Logs s c := ⟨rfl, rfl⟩
    split
    · exact hc.trans (logs_sendMsix c sev)
    · exact hc

theorem logs_record {s : State} (h : s.canLog = true) (e : Ev) (n : Nat) : Logs s (s.record e n) := by
  unfold State.record
  split
  · exact logs_bump s _ 1 0
  · rw [h, if_neg (by decide)]
    exact (logs_logRecord s _ _ _ _ _ _).trans (logs_interrupt _ _)

theorem logs_raiseOne {s : State} (h : s.canLog = true) (e : Ev) : Logs s (raiseOne s e).1 := by
  unfold raiseOne
  extract_lets p f q v r
  have hf : Logs s f.1 := (logs_pmuEdge s _ 1 none).trans (logs_fireAll p.1 e)
  have hq : Logs s q := hf.trans (logs_record (hf.canLog.trans h) e f.2)
  clear_value q
  dsimp only [r]
  split
  · exact hq.trans ⟨rfl, rfl⟩
  · exact hq

theorem logs_raiseAll (n : Nat) (l : List Ev) {s : State} (h : s.canLog = true) : Logs s (raiseAll n l s) := by
  induction n generalizing l s with
  | zero => exact Logs.refl s
  | succ n ih =>
    cases l with
    | nil => exact Logs.refl s
    | cons e l =>
      have h1 := logs_raiseOne h e
      exact h1.trans (ih _ (h1.canLog.trans h))

/-- An event is not held back while a log can be written. -/
theorem deferred_ev {s : State} (h : s.canLog = true) (src sev : Nat) (data : List Nat) (region : Nat) :
    (ev src sev data region s).evt.deferred = s.evt.deferred := (logs_raiseAll 130 _ h).deferred

/-- What logging the events held so far does for one of them. -/
def logHeld (s : State) (d : Nat × Nat × Nat × Nat × List Nat) : State :=
  (s.logRecord (recordKind d.1 d.2.2.2.2) d.1 d.2.1 d.2.2.1 d.2.2.2.1 d.2.2.2.2).interrupt (s.route d.1).2

theorem logDeferred_eq_foldl (s : State) :
    s.logDeferred = s.evt.deferred.foldl logHeld { s with evt := { s.evt with deferred := [] } } := rfl

theorem logs_logHeld (s : State) (d : Nat × Nat × Nat × Nat × List Nat) : Logs s (logHeld s d) :=
  (logs_logRecord s _ _ _ _ _ _).trans (logs_interrupt _ _)

theorem deferred_foldl_logHeld (l : List (Nat × Nat × Nat × Nat × List Nat)) (s : State) :
    (l.foldl logHeld s).evt.deferred = s.evt.deferred := by
  induction l generalizing s with
  | nil => rfl
  | cons d l ih => exact (ih _).trans (logs_logHeld s d).deferred

theorem deferred_logDeferred (s : State) : s.logDeferred.evt.deferred = [] := by
  rw [logDeferred_eq_foldl]
  exact deferred_foldl_logHeld _ _

theorem changesOnly_logHeld (s : State) (d : Nat × Nat × Nat × Nat × List Nat) : changesOnly [.out, .events] s (logHeld s d) :=
  changesOnly_of_onlyEvents (logs_logHeld s d).frame (regsBut_trans regsBut_logRecord regsBut_interrupt)

theorem changesOnly_setEvt (s : State) (e : Events) : changesOnly [.events] s { s with evt := e } := by
  intro g hg
  have h0 := same_refl g s
  cases g
  case events => cases hg
  all_goals exact h0

theorem changesOnly_logDeferred (s : State) : changesOnly [.out, .events] s s.logDeferred := by
  rw [logDeferred_eq_foldl]
  exact changesOnly_mono (by decide) (changesOnly_append (changesOnly_setEvt s _) (changesOnly_foldl changesOnly_logHeld _ _))

/-- Whether a log can be written depends on the start, the rails, the regions and the dump. -/
theorem canLog_of_same {s t : State} (hb : same .boot s t) (hw : same .pwr s t) (hp : same .pfl s t) (hf : same .fab s t) :
    t.canLog = s.canLog := by
  have hb : t.boot = s.boot := hb
  have hw : t.pwr = s.pwr := hw
  have hp : t.pfl = s.pfl := hp
  unfold State.canLog State.gRuns State.coreOn State.restarting State.isFenced
  rw [hb, hw, hp, fab_eq_of_same hf]

/-! ## What a region takes up again -/

/-- A change of the link or of the map. -/
theorem changesOnly_setLink (s : State) (l : Link) : changesOnly [.link] s { s with link := l } := by
  intro g hg
  have h0 := same_refl g s
  cases g
  case link => cases hg
  all_goals exact h0

theorem changesOnly_setMap (s : State) (m : Map) : changesOnly [.map] s { s with map := m } := by
  intro g hg
  have h0 := same_refl g s
  cases g
  case map => cases hg
  all_goals exact h0

/-- A foreground mailbox command that waits for its row writes ends. -/
def endWait (s : State) : State :=
  match s.link.wait with
  | some c => s.dropWait.reply c.path c.opcode .retryRequired
  | none => s

/-- An Epoch Resolve that waits ends. -/
def endResolve (s : State) : State :=
  match s.link.resolve with | some p => s.reply p 0xC040 .retryRequired | none => s

/-- The commands of a maintenance end. -/
def endMaint (s : State) : State := s.link.maint.foldl (fun s m => s.reply m.path m.opcode .retryRequired) s

/-- Nothing is left of the commands that have ended. -/
def forgetCommands (s : State) : State :=
  { s with map := { s.map with discard := none },
           link := { s.link with resolve := none, scan := none, maint := [], transfer := none, cfgTransfer := none } }

theorem managementBack_eq (s : State) :
    s.managementBack = ((forgetCommands (endMaint (endResolve (endWait s)))).endBackground .retryRequired).logDeferred := rfl

theorem changesOnly_dropWait (s : State) : changesOnly [.link, .tly] s s.dropWait := by
  intro g hg
  have h0 := same_refl g s
  cases g
  case link | tly => cases hg
  all_goals exact h0

theorem changesOnly_endWait (s : State) : changesOnly [.out, .link, .tly] s (endWait s) := by
  unfold endWait
  split
  · exact changesOnly_mono (by decide) (changesOnly_append (changesOnly_dropWait s) (changesOnly_out _ _))
  · exact changesOnly_refl _ s

/-- Only the wait goes from the link. -/
theorem link_endWait (s : State) : (endWait s).link = { s.link with wait := none } := by
  unfold endWait
  split
  · rfl
  next h => rw [← h]

theorem changesOnly_endResolve (s : State) : changesOnly [.out] s (endResolve s) := by
  unfold endResolve
  split
  · exact changesOnly_out s _
  · exact changesOnly_refl _ s

theorem changesOnly_endMaint (s : State) : changesOnly [.out] s (endMaint s) := changesOnly_foldl (fun s _ => changesOnly_out s _) _ s

theorem changesOnly_forgetCommands (s : State) : changesOnly [.link, .map] s (forgetCommands s) :=
  changesOnly_mono (by decide) (changesOnly_append (changesOnly_setMap s { s.map with discard := none }) (changesOnly_setLink _ _))

theorem changesOnly_endBackground (s : State) (rc : Rc) : changesOnly [.out, .events, .link] s (s.endBackground rc) := by
  unfold State.endBackground
  split
  · exact changesOnly_refl _ s
  · exact changesOnly_mono (by decide) (changesOnly_append (changesOnly_setLink s _)
      (changesOnly_append (changesOnly_out _ _) (changesOnly_sendMsix _ 4)))

/-- Only the background command and its return code change in the link. -/
theorem link_endBackground (s : State) (rc : Rc) :
    ∃ c, (s.endBackground rc).link = { s.link with background := none, backgroundRc := c } := by
  unfold State.endBackground
  split
  next h =>
    refine ⟨s.link.backgroundRc, ?_⟩
    rw [← h]
  · exact ⟨rc, changesOnly_sendMsix _ 4 .link rfl⟩

/-- The mailbox and the background once region G is ready: no command is under way, and those that wait stay. -/
theorem link_managementBack (s : State) : ∃ c, s.managementBack.link =
    { s.link with
      wait := none, resolve := none, scan := none, maint := [], transfer := none, cfgTransfer := none, background := none,
      backgroundRc := c } := by
  have h1 : (endMaint (endResolve (endWait s))).link = { s.link with wait := none } :=
    (changesOnly_endMaint _ .link rfl).trans ((changesOnly_endResolve _ .link rfl).trans (link_endWait s))
  obtain ⟨c, hc⟩ := link_endBackground (forgetCommands (endMaint (endResolve (endWait s)))) .retryRequired
  refine ⟨c, ?_⟩
  rw [managementBack_eq]
  refine (changesOnly_logDeferred _ .link rfl).trans (hc.trans ?_)
  unfold forgetCommands
  rw [h1]

theorem map_managementBack (s : State) : s.managementBack.map = { s.map with discard := none } := by
  have h1 : (endMaint (endResolve (endWait s))).map = s.map :=
    (changesOnly_endMaint _ .map rfl).trans ((changesOnly_endResolve _ .map rfl).trans (changesOnly_endWait s .map rfl))
  rw [managementBack_eq]
  refine (changesOnly_logDeferred _ .map rfl).trans ((changesOnly_endBackground _ _ .map rfl).trans ?_)
  unfold forgetCommands
  rw [h1]

theorem changesOnly_managementBack (s : State) : changesOnly [.out, .events, .link, .map, .tly] s s.managementBack := by
  rw [managementBack_eq]
  exact changesOnly_mono (by decide) (changesOnly_append (changesOnly_endWait s) (changesOnly_append (changesOnly_endResolve _)
    (changesOnly_append (changesOnly_endMaint _) (changesOnly_append (changesOnly_forgetCommands _)
    (changesOnly_append (changesOnly_endBackground _ _) (changesOnly_logDeferred _))))))

theorem deferred_managementBack (s : State) : s.managementBack.evt.deferred = [] := deferred_logDeferred _

/-- A change of the crossings of interrupts. -/
theorem changesOnly_setCrossing (s : State) (c : Tab Nat) :
    changesOnly [.events] s { s with fab := { s.fab with crossing := c } } := by
  intro g hg
  have h0 := same_refl g s
  cases g
  case events => cases hg
  all_goals exact h0

theorem changesOnly_hostBack (s : State) (x : Restart) : changesOnly [.out, .events] s (s.hostBack x) :=
  changesOnly_mono (by decide) (changesOnly_append (changesOnly_setCrossing s _)
    (changesOnly_foldl (fun s (e : Nat × Nat) => changesOnly_sendMsix s e.1) _ _))

theorem changesOnly_reissueOps (s : State) (r : Nat) : changesOnly [.med] s (s.reissueOps r) := by
  intro g hg
  have h0 := same_refl g s
  cases g
  case med => cases hg
  all_goals exact h0

theorem changesOnly_mirrorTables (s : State) (r : Nat) : changesOnly [.cal] s (s.mirrorTables r) := by
  intro g hg
  have h0 := same_refl g s
  cases g
  case cal => cases hg
  all_goals exact h0

/-- A media region takes up its tables and its operations. -/
theorem regionBack_of_media {s : State} {r : Nat} {x : Restart} (h : 5 ≤ r) :
    s.regionBack r x = (s.mirrorTables r).reissueOps r := by
  unfold State.regionBack
  rw [if_neg (by omega), if_neg (by omega), if_pos h]

/-- The regions before them, but for region G, make interrupts again at most. -/
theorem changesOnly_regionBack_of_lt {s : State} {r : Nat} {x : Restart} (h : r < 5) (h1 : r ≠ 1) :
    changesOnly [.out, .events] s (s.regionBack r x) := by
  unfold State.regionBack
  rw [if_neg h1]
  split
  · exact changesOnly_hostBack s x
  · rw [if_neg (by omega)]
    exact changesOnly_refl _ s

theorem changesOnly_regionBack {s : State} {r : Nat} {x : Restart} (h1 : r ≠ 1) :
    changesOnly [.out, .events, .cal, .med] s (s.regionBack r x) := by
  by_cases h : 5 ≤ r
  · rw [regionBack_of_media h]
    exact changesOnly_mono (by decide) (changesOnly_append (changesOnly_mirrorTables s r) (changesOnly_reissueOps _ r))
  · exact changesOnly_mono (by decide) (changesOnly_regionBack_of_lt (Nat.not_le.1 h) h1)

/-! ## The end of a restart -/

theorem startQueued_of_no_queue {s : State} (h : s.fab.queue = []) : s.startQueued = s := by
  unfold State.startQueued
  rw [h]
  rfl

/-- Queued restarts that begin change the queue and the restarts alone. -/
theorem startQueued_eq (s : State) : ∃ q l, s.startQueued = { s with fab := { s.fab with queue := q, restarts := l } } := by
  unfold State.startQueued
  generalize s.fab.queue = w
  induction w generalizing s with
  | nil => exact ⟨s.fab.queue, s.fab.restarts, rfl⟩
  | cons r w ih =>
    rw [List.foldl_cons]
    split
    · exact ih s
    · obtain ⟨q, l, h⟩ := ih (State.startRestart { s with fab := { s.fab with queue := s.fab.queue.filter (fun q => q != r) } } r)
      exact ⟨q, l, h⟩

/-- Region r's restart ends, and it has reported ready. -/
def reportsReady (s : State) (r : Nat) : State :=
  { s.endRestart r with fab := { (s.endRestart r).fab with ready := Tab.put s.fab.ready r s.now } }

theorem changesOnly_endRestart (s : State) (r : Nat) : changesOnly [.fab] s (s.endRestart r) := changesOnly_setFab s _ rfl

theorem changesOnly_reportsReady (s : State) (r : Nat) : changesOnly [.fab] s (reportsReady s r) := changesOnly_setFab s _ rfl

section
variable {t a : Nat} {r : Fin 9} {s : State}

theorem find_restart (r a : Nat) : [(⟨r, false, a⟩ : Restart)].find? (fun x => x.region == r) = some ⟨r, false, a⟩ := by simp

theorem restarts_endRestart {r : Nat} (h : s.fab.restarts = [⟨r, false, a⟩]) : (s.endRestart r).fab.restarts = [] := by
  unfold State.endRestart
  simp [h]

/-- The state after a region's report, the restarts that it lets begin left out. -/
def backInTime (s : State) (r a : Nat) : State :=
  ev (0x560 + r) 1 [(s.now - a) / usec, s.replayed ⟨r, false, a⟩, s.waited ⟨r, false, a⟩] r
    ((reportsReady s r).regionBack r ⟨r, false, a⟩)

theorem exec_regionRestartReady (h : s.fab.restarts = [⟨r.val, false, a⟩]) (hl : max s.now t ≤ a + 200 * usec) :
    exec (.regionRestartReady t r) s = .next (backInTime (s.tick t) r.val a).startQueued := by
  dsimp only [exec, execRegionRestartReady]
  rw [State.tick_fab, h, find_restart]
  exact if_neg (Nat.not_lt.2 hl)

theorem exec_regionRestartDeadline (h : s.fab.restarts = [⟨r.val, false, a⟩]) (hl : a + 200 * usec ≤ max s.now t) :
    exec (.regionRestartDeadline t r) s =
      if 2 ≤ (((s.tick t).endRestart r.val).noteFailed r.val).failures r.val then
        .next ((((s.tick t).endRestart r.val).noteFailed r.val).fence r.val (0x560 + r.val)).startQueued
      else .next ((((s.tick t).endRestart r.val).noteFailed r.val).startRestart r.val) := by
  dsimp only [exec, execRegionRestartDeadline]
  rw [State.tick_fab, h, find_restart]
  exact (if_neg (Nat.not_lt.2 hl)).trans (if_neg Bool.false_ne_true)

theorem exec_regionRestartReady_none (h : s.fab.restarts = []) : exec (.regionRestartReady t r) s = .next (s.tick t) := by
  dsimp only [exec, execRegionRestartReady]
  rw [State.tick_fab, h, List.find?_nil]

theorem exec_regionRestartDeadline_none (h : s.fab.restarts = []) : exec (.regionRestartDeadline t r) s = .next (s.tick t) := by
  dsimp only [exec, execRegionRestartDeadline]
  rw [State.tick_fab, h, List.find?_nil]

end

/-! ## Failed restarts -/

/-- The failed restarts that count after one of region r at s.now (R15: those of the last 60 minutes). -/
def failuresWith (s : State) (r : Nat) : List (Nat × Nat) :=
  (s.fab.failed.filter (fun e => decide (s.now < e.2 + 3600 * sec))) ++ [(r, s.now)]

theorem failuresWith_of_recent {l : List (Nat × Nat)} {r : Nat} {s : State} (hx : s.fab.failed = l)
    (h : ∀ e ∈ l, s.now < e.2 + 3600 * sec) : failuresWith s r = l ++ [(r, s.now)] := by
  unfold failuresWith
  rw [hx, List.filter_eq_self.2 (fun e he => decide_eq_true (h e he))]

theorem noteFailed_eq (s : State) (r : Nat) : ∃ data row, s.noteFailed r =
    ev 0x56D 2 data r (State.ownRow { s with fab := { s.fab with failed := failuresWith s r } } 1 5 failRow row) := ⟨_, _, rfl⟩

theorem changesOnly_noteFailed_from (s : State) (r : Nat) :
    changesOnly [.out, .events, .regs, .tly] { s with fab := { s.fab with failed := failuresWith s r } } (s.noteFailed r) := by
  obtain ⟨data, row, h⟩ := noteFailed_eq s r
  rw [h]
  exact changesOnly_mono (by decide) (changesOnly_append (changesOnly_ownRow _ _ _ _ _) (changesOnly_ev _ _ _ _ _))

theorem changesOnly_noteFailed (s : State) (r : Nat) : changesOnly [.out, .events, .regs, .tly, .fab] s (s.noteFailed r) :=
  changesOnly_mono (by decide) (changesOnly_append
    (changesOnly_setFab s { s.fab with failed := failuresWith s r } rfl) (changesOnly_noteFailed_from s r))

theorem fab_noteFailed (s : State) (r : Nat) :
    (s.noteFailed r).fab = { s.fab with failed := failuresWith s r, crossing := (s.noteFailed r).fab.crossing } :=
  fab_eq_of_same (changesOnly_noteFailed_from s r .fab rfl)

theorem now_noteFailed (s : State) (r : Nat) : (s.noteFailed r).now = s.now := changesOnly_noteFailed s r .time rfl

/-- Failed restarts of one region within 60 minutes all count. -/
theorem failures_noteFailed {l : List (Nat × Nat)} {r : Nat} {s : State} (h : failuresWith s r = l)
    (hl : ∀ e ∈ l, e.1 = r ∧ s.now < e.2 + 3600 * sec) : (s.noteFailed r).failures r = l.length := by
  unfold State.failures
  rw [now_noteFailed, fab_noteFailed, h, List.filter_eq_self.2 (fun e he => ?_)]
  obtain ⟨h1, h2⟩ := hl e he
  rw [h1, beq_self_eq_true, decide_eq_true h2]
  rfl

/-! ## Fencing -/

theorem fro_enterFro (s : State) (c : Nat) : (s.enterFro c).fro = true := by
  have hadd : ∀ l : List Nat, (!(l ++ [c]).isEmpty) = true := fun l => by simp
  unfold State.enterFro
  split
  next h =>
    unfold State.fro
    cases he : s.med.froCauses with
    | nil => rw [he] at h; cases h
    | cons x l => rfl
  next =>
    split
    · exact hadd _
    · exact hadd _

theorem changesOnly_setMed (s : State) (m : Media) : changesOnly [.med] s { s with med := m } := by
  intro g hg
  have h0 := same_refl g s
  cases g
  case med => cases hg
  all_goals exact h0

theorem changesOnly_enterFro (s : State) (c : Nat) : changesOnly [.out, .events, .med] s (s.enterFro c) := by
  have h1 := changesOnly_setMed s { s.med with froCauses := s.med.froCauses ++ [c] }
  unfold State.enterFro
  split
  · exact changesOnly_refl _ s
  · split
    · exact changesOnly_mono (by decide) h1
    · exact changesOnly_mono (by decide) (changesOnly_append h1 (changesOnly_ev _ _ _ _ _))

theorem changesOnly_recalcLimit (s : State) : changesOnly [.out, .events, .map] s s.recalcLimit := by
  unfold State.recalcLimit
  extract_lets n m s1
  have h1 : changesOnly [.out, .events, .map] s s1 := changesOnly_mono (by decide) (changesOnly_setMap s _)
  split
  · exact changesOnly_trans h1 (changesOnly_mono (by decide) (changesOnly_ev _ _ _ _ _))
  · exact h1

theorem changesOnly_afterU (s : State) : changesOnly [.out, .events, .map] s s.afterU := by
  unfold State.afterU
  dsimp only
  split
  · exact changesOnly_recalcLimit s
  · exact changesOnly_refl _ s

theorem changesOnly_journalled (s : State) (c : Change) : changesOnly [.out, .events, .map] s (s.journalled c) :=
  changesOnly_mono (by decide) (changesOnly_append (changesOnly_setMap s _) (changesOnly_afterU _))

theorem changesOnly_mapChange (s : State) (f : Nat) (e : Option MapEntry) (kind : Nat) :
    changesOnly [.out, .events, .map] s (s.mapChange f e kind) := by
  unfold State.mapChange
  split
  · exact changesOnly_mono (by decide) (changesOnly_setMap s _)
  · exact changesOnly_journalled s _

theorem changesOnly_listFull (s : State) : changesOnly [.out, .events, .map] s s.listFull := by
  unfold State.listFull
  split
  · exact changesOnly_refl _ s
  · exact changesOnly_mono (by decide) (changesOnly_append (changesOnly_setMap s _) (changesOnly_ev _ _ _ _ _))

theorem changesOnly_addListed (s : State) (k src : Nat) : changesOnly [.out, .events, .regs, .map] s (s.addListed k src).1 := by
  unfold State.addListed
  split
  · exact changesOnly_refl _ s
  · split
    · exact changesOnly_mono (by decide) (changesOnly_setMap s _)
    · split
      · exact changesOnly_mono (by decide) (changesOnly_listFull s)
      · exact changesOnly_mono (by decide) (changesOnly_append (changesOnly_setMap s _)
          (changesOnly_bump _ CAL_POISON.additions 1 0 (by decide)))

theorem changesOnly_listLine (s : State) (k src : Nat) : changesOnly [.out, .events, .regs, .map, .tly] s (s.listLine k src) := by
  have h := changesOnly_mono (m := [.out, .events, .regs, .map, .tly]) (by decide) (changesOnly_addListed s k src)
  unfold State.listLine
  split
  next s1 i e =>
    rw [e] at h
    exact changesOnly_trans h (changesOnly_mono (by decide) (changesOnly_ownRow s1 _ _ _ _))
  next s1 e =>
    rw [e] at h
    exact h

/-- Listing a line that is lost leaves the regions and the medium. -/
theorem changesOnly_losePoison (s : State) (k : Nat) : changesOnly [.out, .events, .regs, .map, .tly] s (s.losePoison k) := by
  have h := changesOnly_listLine s k 0
  unfold State.losePoison
  dsimp only
  split
  · exact h
  · exact changesOnly_trans h (changesOnly_mono (by decide) (changesOnly_mapChange _ _ _ _))

/-- The bit of a fenced region. -/
theorem getLsbD_fenced {r : Nat} (h : r < 9) (f : BitVec 9) : (f ||| BitVec.twoPow 9 r).getLsbD r = true := by
  simp [h]

/-- A media region that is fenced leaves the card failed-read-only (01 R18). -/
theorem fence_of_media {s : State} {r cause : Nat} (h9 : r < 9) (h5 : 5 ≤ r) (hf : s.isFenced r = false) :
    (s.fence r cause).isFenced r = true ∧ (s.fence r cause).fro = true := by
  unfold State.fence
  rw [hf, if_neg Bool.false_ne_true]
  extract_lets f s1 g s2 lost gone fills c s3
  rw [if_neg (Nat.not_lt.2 h5)]
  have hlost := changesOnly_foldl changesOnly_losePoison (gone.flatMap (fun l => [4 * l, 4 * l + 1, 4 * l + 2, 4 * l + 3])) s3
  have hbit : s3.fab.fenced.getLsbD r = true := by
    rw [fab_eq_of_same (changesOnly_enterFro _ r .fab rfl)]
    exact getLsbD_fenced h9 s.fab.fenced
  have hfro : s3.fro = true := fro_enterFro _ r
  clear_value s3 gone
  constructor
  · unfold State.isFenced
    rw [fab_eq_of_same (hlost .fab rfl)]
    exact hbit
  · exact (congrArg (fun m : Media => !m.froCauses.isEmpty) (hlost .med rfl)).trans hfro

/-- Another region that is fenced leads to fatal handling. -/
theorem fence_of_core {s : State} {r cause : Nat} (h5 : r < 5) (hf : s.isFenced r = false) :
    (s.fence r cause).isFenced r = true ∧ (s.fence r cause).fab.fatal = true := by
  unfold State.fence
  rw [hf, if_neg Bool.false_ne_true]
  extract_lets f s1 g s2
  rw [if_pos h5]
  have hbit : s2.fab.fenced.getLsbD r = true := by
    dsimp only [s2]
    split <;> exact getLsbD_fenced (by omega) s.fab.fenced
  clear_value s2
  obtain ⟨x, hx⟩ := fab_fatalHandling (ev (0x570 + r) 3 [r, cause] r s2) r cause
  unfold State.isFenced
  rw [hx]
  exact ⟨hbit, rfl⟩

/-- Settles O42: what a region takes up again, the count of its failed restarts, and what a fence leaves. -/
theorem regionRestarts : Obligations.RegionRestarts := by
  unfold Obligations.RegionRestarts
  refine ⟨?_, ?_, ?_, ?_, ?_⟩
  · intro t r a s hr hq h1 hl
    have hb : changesOnly [.out, .events, .cal, .med] (reportsReady (s.tick t) r.val) (backInTime (s.tick t) r.val a) :=
      changesOnly_mono (by decide) (changesOnly_append (changesOnly_regionBack h1) (changesOnly_ev _ _ _ _ _))
    have hfab := fab_eq_of_same (hb .fab rfl)
    have hq' : (backInTime (s.tick t) r.val a).fab.queue = [] := (congrArg Fabric.queue hfab).trans hq
    have hexec := exec_regionRestartReady (t := t) hr hl
    rw [startQueued_of_no_queue hq'] at hexec
    refine ⟨_, hexec, (congrArg Fabric.restarts hfab).trans (restarts_endRestart (s := s.tick t) hr),
      (congrArg Fabric.ready hfab :), (congrArg Fabric.fenced hfab :), ?_, ?_, ?_⟩
    · split
      next h => exact (congrArg State.cal (regionBack_of_media h) :)
      next h => exact changesOnly_regionBack_of_lt (Nat.not_le.1 h) h1 .cal rfl
    · split
      next h => exact (congrArg State.med (regionBack_of_media h) :)
      next h => exact changesOnly_regionBack_of_lt (Nat.not_le.1 h) h1 .med rfl
    · exact changesOnly_mono (by decide) (changesOnly_of_tick (changesOnly_append (changesOnly_reportsReady _ r.val) hb))
  · intro t a s hr hq hl
    have hm := changesOnly_managementBack (reportsReady (s.tick t) 1)
    have hb : changesOnly [.out, .events, .link, .map, .tly] (reportsReady (s.tick t) 1) (backInTime (s.tick t) 1 a) :=
      changesOnly_trans hm (changesOnly_mono (by decide) (changesOnly_ev _ _ _ _ _))
    have hfab := fab_eq_of_same (hb .fab rfl)
    have hq' : (backInTime (s.tick t) 1 a).fab.queue = [] := (congrArg Fabric.queue hfab).trans hq
    obtain ⟨c, hc⟩ := link_managementBack (reportsReady (s.tick t) 1)
    have hlink : (backInTime (s.tick t) 1 a).link = _ := hc
    have hmap : (backInTime (s.tick t) 1 a).map = _ := map_managementBack (reportsReady (s.tick t) 1)
    have hexec : exec (.regionRestartReady t 1) s = .next (backInTime (s.tick t) 1 a).startQueued :=
      exec_regionRestartReady (r := 1) hr hl
    rw [startQueued_of_no_queue hq'] at hexec
    refine ⟨_, hexec, (congrArg Fabric.restarts hfab).trans (restarts_endRestart (s := s.tick t) hr),
      (congrArg Link.background hlink :), (congrArg Link.wait hlink :), (congrArg Link.maint hlink :),
      (congrArg Link.resolve hlink :), (congrArg Link.transfer hlink :), (congrArg Map.discard hmap :), ?_,
      (congrArg Map.entries hmap :), (congrArg Link.held hlink :), ?_⟩
    · intro hcan
      have hcan' := (canLog_of_same (hm .boot rfl) (hm .pwr rfl) (hm .pfl rfl) (hm .fab rfl)).trans hcan
      exact (deferred_ev hcan' _ _ _ _).trans (deferred_managementBack _)
    · exact changesOnly_mono (by decide) (changesOnly_of_tick (changesOnly_append (changesOnly_reportsReady _ 1) hb))
  · intro t r a s hr hf hl
    have hfail : failuresWith ((s.tick t).endRestart r.val) r.val = [(r.val, max s.now t)] :=
      failuresWith_of_recent (s := (s.tick t).endRestart r.val) hf (fun e he => absurd he List.not_mem_nil)
    have hone : (((s.tick t).endRestart r.val).noteFailed r.val).failures r.val = 1 := by
      refine failures_noteFailed hfail (fun e he => ?_)
      rw [List.mem_singleton.1 he]
      exact ⟨rfl, Nat.lt_add_of_pos_right (by decide)⟩
    have hfab := fab_noteFailed ((s.tick t).endRestart r.val) r.val
    refine ⟨_, (exec_regionRestartDeadline hr hl).trans (if_neg (by rw [hone]; decide)), ?_, ?_, (congrArg Fabric.fenced hfab :), ?_⟩
    · have h0 := (congrArg Fabric.restarts hfab).trans (restarts_endRestart (s := s.tick t) hr)
      unfold State.startRestart
      rw [h0, now_noteFailed]
      rfl
    · exact (congrArg Fabric.failed hfab).trans hfail
    · exact changesOnly_mono (by decide) (changesOnly_of_tick (changesOnly_append (changesOnly_endRestart _ r.val)
        (changesOnly_append (changesOnly_noteFailed _ r.val) (changesOnly_setFab _ _ rfl))))
  · intro t r a f s hn hr hf hlate hl
    have hfail : failuresWith ((s.tick t).endRestart r.val) r.val = [(r.val, f), (r.val, max s.now t)] := by
      refine failuresWith_of_recent (s := (s.tick t).endRestart r.val) hf (fun e he => ?_)
      rw [List.mem_singleton.1 he]
      exact hlate
    have htwo : (((s.tick t).endRestart r.val).noteFailed r.val).failures r.val = 2 := by
      refine failures_noteFailed hfail (fun e he => ?_)
      rcases List.mem_pair.1 he with rfl | rfl
      · exact ⟨rfl, hlate⟩
      · exact ⟨rfl, Nat.lt_add_of_pos_right (by decide)⟩
    have hn' : (((s.tick t).endRestart r.val).noteFailed r.val).isFenced r.val = false := by
      unfold State.isFenced
      rw [fab_noteFailed]
      exact hn
    refine ⟨_, (exec_regionRestartDeadline hr hl).trans (if_pos (by rw [htwo])), ?_⟩
    obtain ⟨q, l, hs⟩ := startQueued_eq ((((s.tick t).endRestart r.val).noteFailed r.val).fence r.val (0x560 + r.val))
    rw [hs]
    rcases Nat.lt_or_ge r.val 5 with h5 | h5
    · obtain ⟨h1, h2⟩ := fence_of_core (cause := 0x560 + r.val) h5 hn'
      exact ⟨h1, fun h => absurd h (Nat.not_le.2 h5), fun _ => h2⟩
    · obtain ⟨h1, h2⟩ := fence_of_media (cause := 0x560 + r.val) r.isLt h5 hn'
      exact ⟨h1, fun _ => h2, fun h => absurd h (Nat.not_lt.2 h5)⟩
  · intro t r s hr
    exact ⟨exec_regionRestartReady_none hr, exec_regionRestartDeadline_none hr⟩

end Sys2Proof.Proofs
end

section
/-! PROOFS of the statements about events, the link and its management paths, requests and the mailbox (02_cxl_attachment). -/

namespace Sys2Proof.Proofs

open Sys2Proof Sys2Proof.Machine Sys2Proof.Safety Sys2Proof.Laws

/-! ## Bounded buffers and events -/

/-- Settles O4: each operation of the card keeps every log, the staging and the poison list within their sizes. -/
theorem buffersStayBounded : Obligations.BuffersStayBounded := by
  intro s t h hs
  exact (keeps_of_step h).bounded hs

/-- Settles O8: raising an event is an operation of the card, and its frame is the output and the event state. -/
theorem eventsStayInTheirPlace : Obligations.EventsStayInTheirPlace := by
  intro src sev data region s
  have hkeeps : Keeps s (ev src sev data region s) := Keeps.of_ev (Keeps.refl s)
  exact ⟨changesOnly_ev src sev data region s, hkeeps.sent, hkeeps.bounded⟩

theorem record_of_masked {s : State} {e : Ev} (n : Nat) (h : s.srcMasked e.src = true) :
    s.record e n = s.bump EVT_STATUS.masked := if_pos h

theorem record_of_not_canLog {s : State} {e : Ev} (n : Nat) (hm : s.srcMasked e.src = false) (hc : s.canLog = false) :
    s.record e n = { s with evt := { s.evt with
      deferred := s.evt.deferred ++ [(e.src, e.sev, e.region, n, e.data)] } } := by
  unfold State.record
  rw [hm, hc]
  rfl

theorem record_of_canLog {s : State} {e : Ev} (n : Nat) (hm : s.srcMasked e.src = false) (hc : s.canLog = true) :
    s.record e n =
      (s.logRecord (recordKind e.src e.data) e.src e.sev e.region n e.data).interrupt (s.route e.src).2 := by
  unfold State.record
  rw [hm, hc]
  rfl

/-- An interrupt leaves the logs: on a masked vector it waits, else it is sent. -/
theorem interrupt_evt (s : State) (v : Nat) : ∃ p, (s.interrupt v).evt = { s.evt with pending := p } := by
  unfold State.interrupt
  split
  · exact ⟨_, rfl⟩
  · exact ⟨_, sendMsix_evt s v⟩

/-- The entry that logRecord makes where the log has room (02 R45). -/
theorem logRecord_evt_of_room {s : State} {kind src sev region seq : Nat} {data : List Nat}
    (h : (s.evt.logs.getD sev []).length < logSize sev) :
    (s.logRecord kind src sev region seq data).evt = { s.evt with
      logs := setAt s.evt.logs sev (s.evt.logs.getD sev [] ++
        [{ handle := s.evt.nextHandle, source := src, severity := sev, region := region, recorder := seq, data := data,
           kind := kind, time := s.time }]),
      nextHandle := if s.evt.nextHandle = 65535 then 1 else s.evt.nextHandle + 1 } := by
  unfold State.logRecord
  rw [if_neg (Nat.not_le.2 h)]
  extract_lets r b e c
  split
  · exact sendMsix_evt c sev
  · rfl

/-- Where the log is full, only the overflow counts change (02 R45). -/
theorem logRecord_evt_of_full {s : State} {kind src sev region seq : Nat} {data : List Nat}
    (h : logSize sev ≤ (s.evt.logs.getD sev []).length) :
    ∃ at', (s.logRecord kind src sev region seq data).evt = { s.evt with
      overflow := setAt s.evt.overflow sev (s.evt.overflow.getD sev 0 + 1), overflowAt := at' } := by
  unfold State.logRecord
  rw [if_pos h]
  simp only [State.bump_evt]
  exact ⟨_, rfl⟩

theorem getD_setAt_same {α : Type} {l : List α} {i : Nat} (h : i < l.length) (a d : α) : (setAt l i a).getD i d = a := by
  simp [setAt, h]

/-- Settles O9: the four ways of State.record. -/
theorem eventRecords : Obligations.EventRecords := by
  refine ⟨?room, ?masked, ?held, ?full⟩
  case room =>
    intro e n s hm hc hsev hlen hroom
    rw [record_of_canLog n hm hc]
    obtain ⟨p, hp⟩ := interrupt_evt (s.logRecord (recordKind e.src e.data) e.src e.sev e.region n e.data) (s.route e.src).2
    rw [hp, logRecord_evt_of_room hroom]
    dsimp only
    rw [getD_setAt_same (hlen ▸ hsev)]
    simp
  case masked =>
    intro e n s hm
    rw [record_of_masked n hm]
    exact ⟨State.bump_evt _ _ _ _, rfl⟩
  case held =>
    intro e n s hm hc
    rw [record_of_not_canLog n hm hc]
    exact ⟨rfl, rfl⟩
  case full =>
    intro e n s hm hc hsev hlen hfull
    rw [record_of_canLog n hm hc]
    obtain ⟨p, hp⟩ := interrupt_evt (s.logRecord (recordKind e.src e.data) e.src e.sev e.region n e.data) (s.route e.src).2
    obtain ⟨w, hw⟩ := logRecord_evt_of_full (kind := recordKind e.src e.data) (src := e.src) (region := e.region) (seq := n)
      (data := e.data) hfull
    rw [hp, hw]
    exact ⟨rfl, getD_setAt_same (hlen ▸ hsev) _ _⟩

/-! ## Training -/

/-- What training sets of the link (02 R34, R49). -/
theorem trained_eq (s : State) (o : LinkOffer) :
    s.trained o = { s with link := { s.link with
      protocol := (outcomeOf o).1, rate := o.rate, width := o.width, flit256 := (outcomeOf o).2.1,
      degraded := (outcomeOf o).2.2, cdat := cdatOf (outcomeOf o).1 o.rate o.width (outcomeOf o).2.1,
      cdatChanged := s.link.cdat != cdatOf (outcomeOf o).1 o.rate o.width (outcomeOf o).2.1, l1 := false } } := rfl

theorem changesOnly_trainedEvents (s : State) (o : LinkOffer) : changesOnly [.out, .events] s (s.trainedEvents o) := by
  unfold State.trainedEvents
  extract_lets s1
  have h1 : changesOnly [.out, .events] s s1 := changesOnly_ev _ _ _ _ _
  split
  · exact changesOnly_trans h1 (changesOnly_ev _ _ _ _ _)
  · split
    · exact changesOnly_trans h1 (changesOnly_ev _ _ _ _ _)
    · exact h1

theorem changesOnly_setMemActive (s : State) : changesOnly [.link, .med, .qos, .pfl] s s.setMemActive := by
  intro g hg
  have h0 := same_refl g s
  cases g
  case link | med | qos | pfl => cases hg
  all_goals exact h0

/-- The state in which a trained link's events have been raised. -/
def afterTraining (s : State) (o : LinkOffer) : State := ((s.trained o).out (.link true)).trainedEvents o

theorem afterTraining_link (s : State) (o : LinkOffer) : (afterTraining s o).link = (s.trained o).link :=
  changesOnly_trainedEvents _ o .link rfl

theorem changesOnly_afterTraining (s : State) (o : LinkOffer) : changesOnly [.link, .out, .events] s (afterTraining s o) :=
  changesOnly_mono (by decide) (changesOnly_append (changesOnly_append (changesOnly_setLink s _) (changesOnly_out _ _))
    (changesOnly_trainedEvents _ o))

theorem exec_linkTrainingComplete {t : Nat} {o : LinkOffer} {s : State} (h : (s.tick t).trains = true) :
    exec (.linkTrainingComplete t o) s = .next
      (if (afterTraining (s.tick t) o).boot.complete && (afterTraining (s.tick t) o).cxlUp && !(afterTraining (s.tick t) o).replayDue
        then (afterTraining (s.tick t) o).setMemActive else afterTraining (s.tick t) o) := if_pos h

/-- The offers that train CXL: CXL.mem on four lanes or more; with 68-byte flits or below 32 GT/s the outcome is another (02 Table 2-2). -/
theorem outcomeOf_of_mem {o : LinkOffer} (hm : o.mem = true) (hw : 4 ≤ o.width) :
    outcomeOf o = if 3 ≤ o.rate then (if o.flit256 then (4, true, false) else (if o.root11 then 2 else 3, false, false))
      else (if o.root11 then 2 else 3, false, true) := by
  unfold outcomeOf
  by_cases hr : 3 ≤ o.rate
  · cases hf : o.flit256 <;> simp [hm, hw, hr]
  · have hr' : o.rate ≤ 2 := by omega
    simp [hm, hw, hr, hr']

theorem outcomeOf_of_no_mem {o : LinkOffer} (h : o.mem = false ∨ o.width < 4) : outcomeOf o = (1, false, true) := by
  unfold outcomeOf
  rcases h with h | h
  · simp [h]
  · simp [Nat.not_le.2 h]

/-- Settles O12. -/
theorem linkTrainingOutcome : Obligations.LinkTrainingOutcome := by
  refine ⟨?trains, ?stays, ?retry, ?noRetry, ?cxl31, ?noMem, ?narrow, ?slow, ?latency, ?pcie⟩
  case trains =>
    intro t o s h
    refine ⟨_, exec_linkTrainingComplete h, ?_⟩
    have hl := afterTraining_link (s.tick t) o
    have hf := changesOnly_of_tick (changesOnly_afterTraining (s.tick t) o)
    generalize afterTraining (s.tick t) o = u at hl hf ⊢
    rw [trained_eq] at hl
    dsimp only at hl
    split
    · have hl' : u.setMemActive.link = { u.link with memActive := true } := rfl
      dsimp only
      rw [hl', hl]
      exact ⟨rfl, rfl, rfl, rfl, rfl, rfl, changesOnly_mono (by decide) (changesOnly_append hf (changesOnly_setMemActive u))⟩
    · dsimp only
      rw [hl]
      exact ⟨rfl, rfl, rfl, rfl, rfl, rfl, changesOnly_mono (by decide) hf⟩
  case stays => exact fun t o s h => if_neg (by rw [h]; decide)
  case retry => exact fun s h => congrArg Host.Outcome.next (if_pos h)
  case noRetry => exact fun s h => congrArg Host.Outcome.next (if_neg (by rw [h]; decide))
  case cxl31 =>
    intro o hm hf hr hw
    rw [outcomeOf_of_mem hm hw, if_pos hr, hf]
    rfl
  case noMem => exact fun o h => outcomeOf_of_no_mem (.inl h)
  case narrow => exact fun o h => outcomeOf_of_no_mem (.inr h)
  case slow =>
    intro o hm hr hw
    rw [outcomeOf_of_mem hm hw, if_neg (by omega)]
    refine ⟨rfl, ?_⟩
    dsimp only
    split <;> decide
  case latency => exact fun p w f => ⟨rfl, rfl, rfl, rfl, rfl⟩
  case pcie =>
    intro r w f
    simp [cdatOf, payload16]

/-! ## HDM decoders and IDE -/

/-- Settles O13. -/
theorem decoderCommit : Obligations.DecoderCommit := by
  intro dec base size skip ways gran pos s hp
  have hways : (if ways = 0 then 1 else ways) = max 1 ways := by
    split <;> omega
  refine ⟨_, congrArg Host.Outcome.next (if_neg hp), changesOnly_setLink s _, ?_⟩
  dsimp only
  rw [hways]

theorem sent_prefix_ev (src sev : Nat) (data : List Nat) (region : Nat) (s : State) : s.sent <+: (ev src sev data region s).sent :=
  (Keeps.of_ev (Keeps.refl s)).sent

theorem changesOnly_reported (s : State) (l : Link) (region cause : Nat) :
    changesOnly [.link, .out] s (({ s with link := l }.reportRas 2).reportUnc region cause) :=
  changesOnly_mono (by decide) (changesOnly_append (changesOnly_append (changesOnly_append (changesOnly_setLink s _) (changesOnly_out _ _))
    (changesOnly_setLink _ _)) (changesOnly_out _ _))

/-- The reports of a failure that leaves the stream's marks in l, before event 0x003. -/
def ideReported (s : State) (l : Link) : State := ({ s with link := l }.reportRas 2).reportUnc 2 0x003

theorem ideReported_sent {s : State} {l : Link} (hsev : l.aerSeverity = s.link.aerSeverity) :
    (ideReported s l).sent =
      s.sent ++ [.ras 2, .aer (if s.link.aerSeverity.getLsbD 22 then .fatal else .nonFatal) 2 3] := by
  rw [← hsev]
  exact List.append_assoc s.sent [.ras 2] _

theorem exec_ideIntegrityFailure_mem {t : Nat} {s : State} (hk : s.link.ideMem.isSome = true) (hs : s.link.ideInsecureMem = false) :
    exec (.ideIntegrityFailure t true) s = .next (ev 0x003 3 [1] 2
      (ideReported (s.tick t) { s.link with ideInsecureMem := true, ideLostMem := true })) :=
  if_pos (by simp [hk, hs])

theorem exec_ideIntegrityFailure_io {t : Nat} {s : State} (hk : s.link.ideIo.isSome = true) (hs : s.link.ideInsecureIo = false) :
    exec (.ideIntegrityFailure t false) s = .next (ev 0x003 3 [0] 2
      (ideReported (s.tick t) { s.link with ideInsecureIo := true, ideLostIo := true })) :=
  if_pos (by simp [hk, hs])

/-- What a failure does to the card. -/
theorem ideFailure_spec {t src : Nat} {s : State} {l : Link} (hsev : l.aerSeverity = s.link.aerSeverity) :
    (ev 0x003 3 [src] 2 (ideReported (s.tick t) l)).link =
      { l with rasUnc := l.rasUnc ||| 0x10000#32, aerUnc := l.aerUnc ||| BitVec.twoPow 32 22, rasHeader := (2, 3) } ∧
    s.sent ++ [.ras 2, .aer (if s.link.aerSeverity.getLsbD 22 then .fatal else .nonFatal) 2 3] <+:
      (ev 0x003 3 [src] 2 (ideReported (s.tick t) l)).sent ∧
    changesOnly [.time, .out, .events, .link] s (ev 0x003 3 [src] 2 (ideReported (s.tick t) l)) := by
  refine ⟨rfl, ?_, ?_⟩
  · have h := sent_prefix_ev 0x003 3 [src] 2 (ideReported (s.tick t) l)
    rw [ideReported_sent (s := s.tick t) hsev] at h
    exact h
  · exact changesOnly_mono (by decide) (changesOnly_of_tick (changesOnly_append (changesOnly_reported (s.tick t) l 2 0x003)
      (changesOnly_ev _ _ _ _ _)))

theorem exec_ideKeyProgram {m : Bool} {key : Option IdeKey} {s : State} (hs : 0 < s.link.spdmSessions) (hp : s.link.protocol = 4)
    (hi : s.run.link.ide = true) :
    exec (.ideKeyProgram m key true) s = .next { s with link :=
      if m then { s.link with
        ideMem := key.map (·.key), ideContained := if s.link.ideMem.isSome then s.link.ideContained else key.any (·.contained),
        ideLostMem := s.link.ideLostMem && (key.isNone || s.link.ideInsecureMem) }
      else { s.link with ideIo := key.map (·.key), ideLostIo := s.link.ideLostIo && (key.isNone || s.link.ideInsecureIo) } } :=
  if_pos (by simp [hs, hp, hi])

/-- Settles O14. -/
theorem ideStreams : Obligations.IdeStreams := by
  refine ⟨?mem, ?io, ?key, ?unsecured⟩
  case mem =>
    intro t s hk hs
    obtain ⟨hlink, hsent, hframe⟩ := ideFailure_spec (t := t) (src := 1) (s := s)
      (l := { s.link with ideInsecureMem := true, ideLostMem := true }) rfl
    exact ⟨_, exec_ideIntegrityFailure_mem hk hs, hlink, hsent, by rw [hlink]; exact Bool.or_true _, hframe⟩
  case io =>
    intro t s hk hs
    obtain ⟨hlink, hsent, hframe⟩ := ideFailure_spec (t := t) (src := 0) (s := s)
      (l := { s.link with ideInsecureIo := true, ideLostIo := true }) rfl
    exact ⟨_, exec_ideIntegrityFailure_io hk hs, hlink, hsent, by rw [hlink]; exact Bool.true_or _, hframe⟩
  case key => exact fun key s hs hp hi => ⟨exec_ideKeyProgram hs hp hi, exec_ideKeyProgram hs hp hi⟩
  case unsecured => exact fun m key s => rfl

/-! ## SPDM, DOE and CDAT -/

/-- Over a trained link region G answers; over an untrained one nothing does (02 R48, R53). -/
theorem attest_primary_of_up {s : State} (run : State → State) (hp : s.link.protocol ≠ 0) (hg : s.gRuns = true) :
    s.attest .primary run = run s := if_neg (by simp [hp, hg])

theorem attest_primary_of_down {s : State} (run : State → State) (hp : s.link.protocol = 0) : s.attest .primary run = s :=
  if_pos (by simp [hp])

/-- Settles O15. -/
theorem attestationAnswers : Obligations.AttestationAnswers := by
  constructor
  · intro s hp hg
    have up : ∀ run, Host.Outcome.next (s.attest .primary run) = (.next (run s) : Res) :=
      fun run => congrArg Host.Outcome.next (attest_primary_of_up run hp hg)
    refine ⟨up _, ?certificate, up _, up _, up _, ⟨_, up _, rfl, ?_⟩, ⟨_, up _, rfl, ?_⟩, ?one, ?none, ⟨_, up _, rfl, changesOnly_out s _⟩,
      fun e => up _⟩
    case certificate =>
      intro n hn
      exact (up _).trans (congrArg Host.Outcome.next (if_neg hn))
    case one =>
      intro i h1 h6
      refine (up _).trans ?_
      dsimp only
      rw [if_pos (.inr ⟨h1, h6⟩), if_neg (by omega)]
      simp
    case none =>
      intro i b hi
      refine (up _).trans (congrArg Host.Outcome.next (if_neg ?_))
      omega
    all_goals exact changesOnly_mono (by decide) (changesOnly_append (changesOnly_setLink s _) (changesOnly_out _ _))
  · intro s hp r i e b
    have down : ∀ run, Host.Outcome.next (s.attest .primary run) = (.next s : Res) :=
      fun run => congrArg Host.Outcome.next (attest_primary_of_down run hp)
    exact ⟨down _, down _, down _, down _⟩

/-! ## The errors of the link -/

/-- A receiver error is counted and reported. -/
theorem exec_linkError_receiver {s : State} (hp : s.link.protocol ≠ 0) :
    exec (.linkError .receiver) s = .next ((s.bump ECC_LINK.receiver).reportCor 0) := by
  refine (if_neg hp).trans (congrArg Host.Outcome.next (if_neg ?_))
  exact fun h => h.1 rfl

/-- A field that would pass its largest value takes a free value. -/
theorem bump_fresh_of_full {s : State} {f : Fld} {k i : Nat} (h : f.size ≤ s.reg f i + k) : (s.bump f k i).fresh = s.fresh + 1 := by
  unfold State.bump
  rw [if_neg (Nat.not_lt.2 h)]
  rfl

/-- A card on a trained link whose count of receiver errors stands at its largest value. -/
def receiverErrorsFull : State :=
  { State.reset with obs := [(ECC_LINK.receiver.key 0, 65535)], link := { State.reset.link with protocol := 4 } }

/-- Refutes O16: the next receiver error on such a card takes a free value for the count (log entry 7), and the count of free values is
of the events, which the statement's frame does not list. -/
theorem not_managementBus : ¬ Obligations.ManagementBus := by
  intro h
  obtain ⟨_, herr, _⟩ := h
  have hp : receiverErrorsFull.link.protocol ≠ 0 := by decide
  have hfull : ECC_LINK.receiver.size ≤ receiverErrorsFull.reg ECC_LINK.receiver 0 + 1 := by decide
  obtain ⟨⟨u, hu, _, _, _, hframe⟩, _⟩ := herr receiverErrorsFull hp
  rw [exec_linkError_receiver hp] at hu
  cases hu
  obtain ⟨_, _, hfresh, _⟩ := hframe .events rfl
  have hone : ((receiverErrorsFull.bump ECC_LINK.receiver).reportCor 0).fresh = receiverErrorsFull.fresh + 1 := bump_fresh_of_full hfull
  omega

/-! ## Cards that refute a statement -/

/-- A card that serves: its rails are on, its start is complete, its link runs CXL 3.1 and Memory_Active is set. -/
def serving : State :=
  { State.reset with
    pwr := { State.reset.pwr with rails := List.replicate 14 { Rail.atReset with enabled := true, pg := true } },
    boot := { State.reset.boot with complete := true, step := 12, perst := false },
    link := { State.reset.link with protocol := 4, rate := 4, width := 16, memActive := true, mboxReady := true } }

/-- What a meaning answers holds of the next state; of a stop nothing does. -/
def nextSat (p : State → Bool) (r : Res) : Bool :=
  match r with
  | .next u => p u
  | .fault _ => false
  | .refused _ => false

theorem nextSat_of_eq {p : State → Bool} {r : Res} {u : State} (h : r = .next u) : nextSat p r = p u := by
  rw [h]
  rfl

/-! ## Discard Range beyond the folio map -/

/-- A Discard Range that has come to folio 2^31, whose change records are those of integrity folio 0 (log entry 44). -/
def discardsIntegrity : State :=
  { serving with map := { serving.map with discard := some ⟨0, 0, integMark, 1, 0⟩ } }

/-- The step leaves the folio's entry never-written: the change went to the integrity map. -/
theorem discardRangeFolio_integrity :
    nextSat (fun u => u.entry integMark == MapEntry.blank) (exec (.discardRangeFolio 0) discardsIntegrity) = true := by
  decide +kernel

/-- Refutes O55: the statement's first clause takes every folio number, and from 2^31 on a change is one of the integrity map. -/
theorem not_backgroundEnds : ¬ Obligations.BackgroundEnds := by
  intro h
  obtain ⟨hfolio, _⟩ := h
  obtain ⟨u, hu, _, hentry, _⟩ :=
    hfolio 0 ⟨0, 0, integMark, 1, 0⟩ discardsIntegrity rfl (by decide) (by decide) rfl
  have hblank := (nextSat_of_eq hu).symm.trans discardRangeFolio_integrity
  rw [hentry] at hblank
  exact absurd hblank (by decide)

/-! ## A held request that time alone makes admissible -/

/-- A clean copy of a 256-byte line. -/
def cleanCopy (l : BitVec 35) : Copy :=
  { l := l, dirty := 0, poison := 0, reuse := 0, epochMode := false, epochTag := 0, keyGen := false, data := 0 }

/-- A read of 64-byte line 0 is held. Its near slot holds 256-byte line 2^17, and the eviction buffer is full of lines that the board
cache declined at this very time: they go as soon as time moves on (log entry 70). -/
def heldBehindDeclined : State :=
  { serving with
    cch := { serving.cch with
      near := [(0, ⟨cleanCopy 131072, none, false, 0, 0, 0, 0⟩)],
      evict := List.replicate 128 ⟨cleanCopy 5, 0, 0, some 0⟩ },
    qos := { serving.qos with nextId := 1, ingress := [⟨0, 0, false, 7, 0, 0, 0, false⟩] } }

/-- Nothing that is held can be admitted at time 0. -/
theorem nextHeld_heldBehindDeclined : heldBehindDeclined.nextHeld = none := by decide +kernel

/-- At time 1 the read is taken in. -/
theorem admitHeldRequest_heldBehindDeclined :
    nextSat (fun u => u.qos.ingress.isEmpty) (exec (.admitHeldRequest 1) heldBehindDeclined) = true := by decide +kernel

/-- Refutes O45: the clause that a command with nothing to admit takes its time alone judges the held requests before time moves,
and ADMIT_HELD_REQUEST judges them after. -/
theorem not_memoryReads : ¬ Obligations.MemoryReads := by
  intro h
  obtain ⟨_, _, _, _, _, _, _, _, hnone, _⟩ := h
  have hu := hnone 1 heldBehindDeclined rfl rfl (.inr nextHeld_heldBehindDeclined)
  have hempty := (nextSat_of_eq hu).symm.trans admitHeldRequest_heldBehindDeclined
  exact absurd hempty (by decide)

/-! ## Inject Poison while a block is in reset -/

/-- Line 0 lies in the near cache, and a block of region 2 is in reset. -/
def cachedBehindReset : State :=
  { serving with
    cch := { serving.cch with near := [(0, ⟨cleanCopy 0, none, false, 0, 0, 0, 0⟩)] },
    fab := { serving.fab with blocks := [(blockKey 2 0, ⟨3, 0, none⟩)] } }

/-- The command waits for the block: it is no row write yet. -/
theorem injectPoison_cachedBehindReset :
    nextSat (fun u => u.link.wait.isNone) (exec (.injectPoison 0 .primary 0) cachedBehindReset) = true := by decide +kernel

/-- Refutes O57: the clause on Inject Poison asks that regions 2 and 4 do not restart, and a block in reset holds the work of its
region too (01 R13, log entry 65). -/
theorem not_mailboxStandard : ¬ Obligations.MailboxStandard := by
  intro h
  obtain ⟨_, _, _, _, _, _, _, _, _, _, _, _, _, _, _, _, _, _, _, hinject, _⟩ := h
  obtain ⟨u, hu, _, _, _, hlink, _⟩ := hinject 0 0 .primary ⟨cleanCopy 0, none, false, 0, 0, 0, 0⟩ cachedBehindReset
    (by decide +kernel) rfl (by decide +kernel) rfl rfl (by decide +kernel) (by decide +kernel) (by decide +kernel) (by decide +kernel)
    (by decide +kernel) (by decide +kernel) rfl rfl (by decide +kernel) rfl (by decide)
  have hwait := (nextSat_of_eq hu).symm.trans injectPoison_cachedBehindReset
  rw [hlink] at hwait
  exact absurd hwait (by decide)

/-! ## Answers of the mailbox -/

theorem mailbox_of_pass {s : State} {c : Instr} {p : Path} {op : Nat} {a b : Bool} {run : State → State}
    (h : s.gate p op a b = .pass) : s.mailbox c p op a b run = run s := by
  unfold State.mailbox
  rw [h]

theorem mailbox_of_refuse {s : State} {c : Instr} {p : Path} {op : Nat} {a b : Bool} {rc : Rc} {run : State → State}
    (h : s.gate p op a b = .refuse rc) : s.mailbox c p op a b run = s.reply p op rc := by
  unfold State.mailbox
  rw [h]

theorem mailbox_of_silent {s : State} {c : Instr} {p : Path} {op : Nat} {a b : Bool} {run : State → State}
    (h : s.gate p op a b = .silent) : s.mailbox c p op a b run = s := by
  unfold State.mailbox
  rw [h]

/-- The gate does not look at the time. -/
theorem gate_tick (s : State) (t : Nat) (p : Path) (op : Nat) (a b : Bool) : (s.tick t).gate p op a b = s.gate p op a b := rfl

/-- A command that passes the gate as one on memory contents passes it as any. -/
theorem gate_pass_of_medium {s : State} {p : Path} {op : Nat} {a : Bool} (h : s.gate p op a true = .pass) :
    s.gate p op a false = .pass := by
  unfold State.gate at h ⊢
  split at h
  · rename_i hr
    rw [if_pos hr]
    exact h
  · rename_i hr
    rw [if_neg hr]
    split_ifs at h ⊢ <;> simp_all

theorem answers_of_sent {s u : State} {p : Path} {op : Nat} {rc : Rc} {b : Bytes} {l : List Nat}
    (h : u.sent = s.sent ++ l.map .msix ++ [.reply p op rc b]) : answers s u p op = [(rc, b)] := by
  unfold answers
  rw [h, List.append_assoc, List.drop_left, List.filterMap_append, List.filterMap_map]
  simp

theorem answers_reply (s : State) (p : Path) (op : Nat) (rc : Rc) (b : Bytes) : answers s (s.reply p op rc b) p op = [(rc, b)] :=
  answers_of_sent (l := []) (by simp)

theorem lengths_reply (s : State) (p : Path) (op : Nat) (rc : Rc) (b : Bytes) :
    lengths s (s.reply p op rc b) p op = [(rc, b.length)] := by
  unfold lengths
  rw [answers_reply]
  rfl

theorem changesOnly_reply (s : State) (p : Path) (op : Nat) (rc : Rc) (b : Bytes) : changesOnly [.out] s (s.reply p op rc b) :=
  changesOnly_out s _

/-- A command that only replies, with a payload of n bytes. -/
theorem completes_report {c : Instr} {s : State} {p : Path} {op n : Nat} {b : Bytes}
    (hx : exec c s = .next (s.reply p op .success b)) (hb : b.length = n) :
    completes c s (fun u => lengths s u p op = [(.success, n)] ∧ changesOnly [.out] s u) :=
  ⟨_, hx, by rw [lengths_reply, hb], changesOnly_reply s p op _ b⟩

/-- A command that only replies, with a payload told in full. -/
theorem completes_answer {c : Instr} {s : State} {p : Path} {op : Nat} {b : Bytes} (hx : exec c s = .next (s.reply p op .success b)) :
    completes c s (fun u => answers s u p op = [(.success, b)] ∧ changesOnly [.out] s u) :=
  ⟨_, hx, answers_reply s p op _ b, changesOnly_reply s p op _ b⟩

/-! ## Lengths of payloads -/

@[simp] theorem length_le (n v : Nat) : (le n v).length = n := by
  induction n generalizing v with
  | zero => rfl
  | succ n ih => exact congrArg (· + 1) (ih _)

@[simp] theorem length_zeros (n : Nat) : (zeros n).length = n := List.length_replicate

@[simp] theorem length_fit (n : Nat) (b : Bytes) : (fit n b).length = n := by
  unfold fit
  rw [List.length_take, List.length_append, length_zeros]
  omega

@[simp] theorem length_uuid (n : Nat) : (uuid n).length = 16 := by simp [uuid]

@[simp] theorem length_temp16 (n : Int) : (temp16 n).length = 2 := by simp [temp16]

/-- Entries of one length follow one another. -/
theorem length_flatMap_of_const {α β : Type} {f : α → List β} {l : List α} {n : Nat} (h : ∀ x ∈ l, (f x).length = n) :
    (l.flatMap f).length = n * l.length := by
  rw [List.length_flatMap, List.map_congr_left h, List.map_const', List.sum_replicate, smul_eq_mul, Nat.mul_comm]

@[simp] theorem length_eventRec_bytes (r : EventRec) : r.bytes.length = 128 := by
  have hbody : r.body.length = 80 := by
    unfold EventRec.body
    split <;> simp
  have hkind : (kindUuid r.kind).length = 16 := by
    unfold kindUuid
    split <;> exact length_uuid _
  simp [EventRec.bytes, hbody, hkind]

@[simp] theorem length_revision (x : FwSlot) : (revision x).length = 16 := by
  unfold revision
  extract_lets v
  split
  · exact length_zeros 16
  · exact length_fit 16 _

@[simp] theorem length_effectsLog : effectsLog.length = 4 * commandTable.length :=
  length_flatMap_of_const (fun c _ => by simp)

@[simp] theorem length_errorRecord (line length source : Nat) : (errorRecord line length source).length = 16 := by
  simp [errorRecord]

@[simp] theorem length_cfgInfo (s : State) (i : Nat) : (s.cfgInfo i).length = 64 := by
  unfold State.cfgInfo
  extract_lets x signed flags
  split <;> simp

@[simp] theorem length_extentBytes (s : State) (e : ExtentEntry) : (s.extentBytes e).length = 32 := by simp [State.extentBytes]

@[simp] theorem length_keyHeader (s : State) (n : Nat) : (s.keyHeader n).length = 32 := by simp [State.keyHeader]

@[simp] theorem length_keyBytes (s : State) (k : Nat) : (s.keyBytes k).length = 16 := by simp [State.keyBytes]

@[simp] theorem length_memberBytes (s : State) (i : Nat) (m : Member) : (s.memberBytes i m).length = 32 := by
  simp [State.memberBytes]

@[simp] theorem length_rec_bytes (r : Rec) : r.bytes.length = 64 := by simp [Rec.bytes]

@[simp] theorem length_rowOut (s : State) (p row : Nat) : (s.rowOut p row).length = 264 := by simp [State.rowOut]

/-- One entry for each number below m. -/
theorem length_flatMap_range {β : Type} {f : Nat → List β} {n : Nat} (m : Nat) (h : ∀ i, (f i).length = n) :
    ((List.range m).flatMap f).length = n * m := by
  rw [length_flatMap_of_const (fun i _ => h i), List.length_range]

@[simp] theorem length_summary (s : State) : s.summary.length = 256 := by
  have hp99 := length_flatMap_range 8 (fun n => length_le 4 (s.clsState n).p99)
  have hlevel := length_flatMap_range 8 (fun n => length_le 1 (s.clsState n).level)
  unfold State.summary
  simp only [List.length_append, length_le, length_zeros]
  rw [hp99, hlevel]

@[simp] theorem length_dieRecord (s : State) (i : Nat) : (s.dieRecord i).length = 256 := by
  unfold State.dieRecord
  extract_lets d w all
  have hall : all.length = 16 * 3 := length_flatMap_range 3 (fun band => by rw [List.length_map, List.length_range])
  have hrates : (all.flatMap (fun e => le 2 e.rate)).length = 2 * (16 * 3) := hall ▸ length_flatMap_of_const (fun e _ => length_le 2 _)
  have hoffsets : (all.flatMap (fun e => [signed8 (e.offsets.getD 7 0), signed8 (e.offsets.getD 14 0)])).length = 2 * (16 * 3) :=
    hall ▸ length_flatMap_of_const (fun e _ => rfl)
  simp only [List.length_append, length_le, length_zeros, hrates, hoffsets, List.length_map, List.length_range]

/-- Every fourth position of a channel, or every second of a half-fitted part, holds a die (Table 0-2). -/
theorem length_fittedDies (s : State) : s.fittedDies.length = 16 * s.groups := by
  unfold State.fittedDies State.fitted State.groups
  cases s.part <;> decide

@[simp] theorem length_memberTable (s : State) : ((s.ring.members.mapIdx (fun i m => s.memberBytes i m)).flatten).length =
    32 * s.ring.members.length := by
  have h : ∀ x ∈ s.ring.members.mapIdx (fun i m => s.memberBytes i m), (id x).length = 32 := by
    intro x hx
    obtain ⟨i, hi, rfl⟩ := List.mem_mapIdx.1 hx
    exact length_memberBytes s i _
  have hflat := length_flatMap_of_const h
  rwa [List.flatMap_id, List.length_mapIdx] at hflat

/-! ## What raising events sends -/

/-- Between s and t the card sent MSI-X messages alone. -/
def SendsMsix (s t : State) : Prop := ∃ l : List Nat, t.sent = s.sent ++ l.map .msix

theorem SendsMsix.of_eq {s t : State} (h : t.sent = s.sent) : SendsMsix s t := ⟨[], by rw [h, List.map_nil, List.append_nil]⟩

theorem SendsMsix.trans {s t u : State} (h : SendsMsix s t) (k : SendsMsix t u) : SendsMsix s u := by
  obtain ⟨l, hl⟩ := h
  obtain ⟨m, hm⟩ := k
  exact ⟨l ++ m, by rw [hm, hl, List.map_append, List.append_assoc]⟩

theorem SendsMsix.foldl {α : Type} {f : State → α → State} (hf : ∀ s a, SendsMsix s (f s a)) (l : List α) (s : State) :
    SendsMsix s (l.foldl f s) := by
  induction l generalizing s with
  | nil => exact .of_eq rfl
  | cons a l ih => exact (hf s a).trans (ih _)

theorem SendsMsix.foldl_fst {α β : Type} {f : State × β → α → State × β} (hf : ∀ a x, SendsMsix a.1 (f a x).1) (l : List α)
    (a : State × β) : SendsMsix a.1 (l.foldl f a).1 := by
  induction l generalizing a with
  | nil => exact .of_eq rfl
  | cons x l ih => exact (hf a x).trans (ih _)

theorem sendsMsix_sendMsix (s : State) (v : Nat) : SendsMsix s (s.sendMsix v) := by
  unfold State.sendMsix
  split
  · exact .of_eq rfl
  · split
    · exact .of_eq rfl
    · exact ⟨[v], rfl⟩

theorem sendsMsix_interrupt (s : State) (v : Nat) : SendsMsix s (s.interrupt v) := by
  unfold State.interrupt
  split
  · exact .of_eq rfl
  · exact sendsMsix_sendMsix s v

theorem sendsMsix_pmuEdge (s : State) (code k : Nat) (q : Option PmuReq) : SendsMsix s (s.pmuEdge code k q).1 := by
  have hmeet : ∀ (a : State × List Ev) (n : Nat), SendsMsix a.1 (pmuMeet code k q a n).1 := by
    intro a n
    unfold pmuMeet State.pmuAdd
    split
    · split
      · exact .of_eq rfl
      · dsimp only
        split <;> exact .of_eq rfl
    · exact .of_eq rfl
  unfold State.pmuEdge
  split
  · exact SendsMsix.foldl_fst hmeet _ (s, [])
  · exact .of_eq rfl

theorem sendsMsix_fireOne (e : Ev) (a : State × Nat) (it : Nat × Trigger) : SendsMsix a.1 (fireOne e a it).1 := by
  unfold fireOne
  extract_lets s snaps b r s1 seq recorded
  have h1 : SendsMsix s s1 := by
    dsimp only [s1]
    split
    · exact .of_eq rfl
    · split
      · exact .of_eq (State.bump_sent _ _ _ _)
      · split
        · exact .of_eq (State.bump_sent _ _ _ _)
        · exact .of_eq rfl
  clear_value s1 seq recorded
  split
  · exact .of_eq rfl
  · split
    · exact .of_eq rfl
    · split
      · exact .of_eq (State.bump_sent _ _ _ _)
      · split
        · exact h1.trans (.of_eq rfl)
        · exact h1

theorem sendsMsix_logRecord (s : State) (kind src sev region seq : Nat) (data : List Nat) :
    SendsMsix s (s.logRecord kind src sev region seq data) := by
  unfold State.logRecord
  split
  · exact .of_eq (State.bump_sent _ _ _ _)
  · extract_lets r b e c
    have h : SendsMsix s c := .of_eq rfl
    split
    · exact h.trans (sendsMsix_sendMsix c sev)
    · exact h

theorem sendsMsix_record (s : State) (e : Ev) (n : Nat) : SendsMsix s (s.record e n) := by
  unfold State.record
  split
  · exact .of_eq (State.bump_sent _ _ _ _)
  · split
    · exact .of_eq rfl
    · exact (sendsMsix_logRecord s _ _ _ _ _ _).trans (sendsMsix_interrupt _ _)

theorem sendsMsix_raiseOne (s : State) (e : Ev) : SendsMsix s (raiseOne s e).1 := by
  unfold raiseOne
  extract_lets p f q v r
  have hf : SendsMsix p.1 f.1 := SendsMsix.foldl_fst (sendsMsix_fireOne e) _ (p.1, 0)
  have hq : SendsMsix s q := ((sendsMsix_pmuEdge s _ _ _).trans hf).trans (sendsMsix_record f.1 e f.2)
  clear_value q
  dsimp only [r]
  split
  · exact hq.trans (.of_eq rfl)
  · exact hq

theorem sendsMsix_raiseAll (n : Nat) (l : List Ev) (s : State) : SendsMsix s (raiseAll n l s) := by
  induction n generalizing l s with
  | zero => exact .of_eq rfl
  | succ n ih =>
    cases l with
    | nil => exact .of_eq rfl
    | cons e r => exact (sendsMsix_raiseOne s e).trans (ih _ _)

/-- An event sends its interrupts and nothing else. -/
theorem sendsMsix_ev (src sev : Nat) (data : List Nat) (region : Nat) (s : State) : SendsMsix s (ev src sev data region s) :=
  sendsMsix_raiseAll 130 _ s

theorem sendsMsix_count (code k : Nat) (q : Option PmuReq) (s : State) : SendsMsix s (count code k q s) :=
  (sendsMsix_pmuEdge s code k q).trans (sendsMsix_raiseAll 130 _ _)

/-- A command that replies after events answers with that reply alone. -/
theorem answers_reply_of_sendsMsix {s t : State} (h : SendsMsix s t) (p : Path) (op : Nat) (rc : Rc) (b : Bytes) :
    answers s (t.reply p op rc b) p op = [(rc, b)] := by
  obtain ⟨l, hl⟩ := h
  exact answers_of_sent (by rw [State.reply_sent, hl])

/-! ## Reports -/

/-- Reading a row of the tally store marks it and may raise its event. -/
theorem changesOnly_noteRow (s : State) (part row : Nat) : changesOnly [.out, .events, .tly] s (s.noteRow part row) := by
  unfold State.noteRow
  extract_lets r x mark
  have hmark : changesOnly [.tly] s mark := changesOnly_setTly s _
  have hev : ∀ src sev, changesOnly [.out, .events, .tly] s (ev src sev [part, row] 255 mark) := fun src sev =>
    changesOnly_mono (by decide) (changesOnly_append hmark (changesOnly_ev _ _ _ _ mark))
  split
  · exact changesOnly_refl _ s
  · split
    · exact hev 0x5A0 1
    · split
      · exact hev 0x5A1 2
      · exact changesOnly_refl _ s

theorem sendsMsix_noteRow (s : State) (part row : Nat) : SendsMsix s (s.noteRow part row) := by
  unfold State.noteRow
  extract_lets r x mark
  have hmark : SendsMsix s mark := .of_eq rfl
  split
  · exact .of_eq rfl
  · split
    · exact hmark.trans (sendsMsix_ev _ _ _ _ _)
    · split
      · exact hmark.trans (sendsMsix_ev _ _ _ _ _)
      · exact .of_eq rfl

/-- The byte of the interrupt policy that a log's setting and vector make (02 Table 2-13). -/
theorem policy_byte (a : BitVec 8) (i : Nat) (h : i < 4) :
    BitVec.ofNat 8 (a.toNat % 4 + 16 * i) = (a &&& 3) ||| BitVec.ofNat 8 (16 * i) := by
  have hall : ∀ i : Fin 4, ∀ a : BitVec 8, BitVec.ofNat 8 (a.toNat % 4 + 16 * i.val) = (a &&& 3) ||| BitVec.ofNat 8 (16 * i.val) := by
    decide +kernel
  exact hall ⟨i, h⟩ a

/-- A range that lies in the card has nothing wrong with it. -/
theorem onRange_of_ok {s : State} {p : Path} {op dpa n : Nat} {run : State → State} (h64 : dpa % 64 = 0) (hn : n ≠ 0)
    (hc : dpa + 64 * n ≤ s.capacity) : s.onRange p op dpa n run = run s := by
  unfold State.onRange State.rangeBad
  rw [if_neg (by omega), if_neg (by omega)]

theorem onRange_of_unaligned {s : State} {p : Path} {op dpa n : Nat} {run : State → State} (h64 : dpa % 64 ≠ 0) :
    s.onRange p op dpa n run = s.reply p op .invalidInput := by
  unfold State.onRange State.rangeBad
  rw [if_pos (.inl h64)]

theorem onRange_of_beyond {s : State} {p : Path} {op dpa n : Nat} {run : State → State} (h64 : dpa % 64 = 0) (hn : n ≠ 0)
    (hc : s.capacity < dpa + 64 * n) : s.onRange p op dpa n run = s.reply p op .invalidPhysicalAddress := by
  unfold State.onRange State.rangeBad
  rw [if_neg (by omega), if_pos hc]

section
variable {s : State} {p : Path}

theorem exec_getEventRecords {log count : Nat} (h : s.gate p 0x0100 false false = .pass) (hlog : log ≤ 3) :
    ∃ b : Bytes, b.length = 32 + 128 * min (min count 511) (s.evt.logs.getD log []).length ∧
      exec (.getEventRecords p log count) s = .next (s.reply p 0x0100 .success b) := by
  refine ⟨_, ?_, congrArg Host.Outcome.next ((mailbox_of_pass h).trans (if_neg (Nat.not_lt.2 hlog)))⟩
  simp only [List.length_append, length_le, length_zeros, length_flatMap_of_const (fun r _ => length_eventRec_bytes r), List.length_take]

theorem exec_getPoisonList {dpa n : Nat} (h : s.gate p 0x4300 false false = .pass) (h64 : dpa % 64 = 0) (hn : n ≠ 0)
    (hc : dpa + 64 * n ≤ s.capacity) (hnext : s.link.poisonNext = none)
    (hk : (s.map.poison.filter (fun r => decide (r.line < dpa / 64 + n) && decide (dpa / 64 < r.line + r.length))).length ≤ 4094) :
    ∃ b : Bytes, b.length = 32 + 16 *
        (s.map.poison.filter (fun r => decide (r.line < dpa / 64 + n) && decide (dpa / 64 < r.line + r.length))).length ∧
      exec (.getPoisonList p dpa n) s = .next (s.reply p 0x4300 .success b) := by
  have hx : exec (.getPoisonList p dpa n) s = _ := congrArg Host.Outcome.next ((mailbox_of_pass h).trans (onRange_of_ok h64 hn hc))
  generalize s.map.poison.filter (fun r => decide (r.line < dpa / 64 + n) && decide (dpa / 64 < r.line + r.length)) = mine at hk hx ⊢
  have hall : mine.take errorsPerPage = mine := List.take_of_length_le hk
  have hlink : { s.link with poisonNext := none } = s.link := by rw [← hnext]
  simp only [hnext, List.drop_zero, hall, Nat.zero_add, Nat.lt_irrefl, decide_false, Bool.false_eq_true, if_false, hlink] at hx
  refine ⟨_, ?_, hx⟩
  simp only [List.length_append, length_le, length_zeros, length_flatMap_of_const (fun _ _ => length_errorRecord _ _ _)]

end
section
variable {s : State} {p : Path}

theorem exec_getScanMediaResults (h : s.gate p 0x4305 false true = .pass) :
    ∃ b : Bytes, b.length = 32 + 16 * min 4094 s.link.scanResults.length ∧
      exec (.getScanMediaResults p) s =
        .next (State.reply { s with link := { s.link with scanResults := s.link.scanResults.drop 4094 } } p 0x4305 .success b) := by
  refine ⟨_, ?_, congrArg Host.Outcome.next (mailbox_of_pass (gate_pass_of_medium h))⟩
  simp only [List.length_append, length_le, length_zeros, length_flatMap_of_const (fun _ _ => length_errorRecord _ _ _), List.length_take]

theorem exec_getExtentTable {a n : Nat} (h : s.gate p 0xC021 false false = .pass) (ha : a < s.key.extents.length) (hn : n ≠ 0)
    (hmax : n ≤ 2047) :
    ∃ b : Bytes, b.length = 16 + 32 * min n (s.key.extents.length - a) ∧
      exec (.getExtentTable p a n) s = .next (s.reply p 0xC021 .success b) := by
  refine ⟨_, ?_, congrArg Host.Outcome.next ((mailbox_of_pass h).trans (if_neg (by omega)))⟩
  simp only [List.length_append, length_le, length_zeros, length_flatMap_of_const (fun e _ => length_extentBytes s e), List.length_take,
    List.length_drop]

theorem exec_getKeyStatus {a n : Nat} (h : s.gate p 0xC033 false false = .pass) (ha : a ≤ 4095) (hn : n ≠ 0) (hmax : n ≤ 4094) :
    ∃ b : Bytes, b.length = 32 + 16 * min n (4096 - a) ∧ exec (.getKeyStatus p a n) s = .next (s.reply p 0xC033 .success b) := by
  refine ⟨_, ?_, congrArg Host.Outcome.next ((mailbox_of_pass h).trans (if_neg (by omega)))⟩
  rw [List.length_append, length_keyHeader, length_flatMap_range _ (fun i => length_keyBytes s (a + i))]

theorem exec_readRecorder {q n : Nat} (h : s.gate p 0xC050 true false = .pass) (hn : n ≠ 0) (hmax : n ≤ 1024)
    (hstored : s.recd.stored = []) :
    ∃ b : Bytes, b.length = 64 * min n (s.recd.staging.filter (fun r => decide (q ≤ r.seq) && decide (s.recd.base ≤ r.seq))).length ∧
      exec (.readRecorder p q n) s = .next (s.reply p 0xC050 .success b) := by
  refine ⟨_, ?_, congrArg Host.Outcome.next ((mailbox_of_pass h).trans (if_neg (by omega)))⟩
  rw [length_flatMap_of_const (fun r _ => length_rec_bytes r), List.length_take, hstored]
  rfl

theorem exec_getBootLedger {i : Nat} (h : s.gate p 0xC060 true false = .pass) :
    exec (.getBootLedger p i) s = .next (match s.boot.ledger[i]? with
      | some a => if i < 16 then s.reply p 0xC060 .success a.bytes else s.reply p 0xC060 .invalidInput
      | none => s.reply p 0xC060 .invalidInput) := by
  refine congrArg Host.Outcome.next ((mailbox_of_pass h).trans ?_)
  rcases Nat.lt_or_ge i s.boot.ledger.length with hi | hi
  · rw [List.getElem?_eq_getElem hi, List.drop_eq_getElem_cons hi]
  · rw [List.getElem?_eq_none hi, List.drop_of_length_le hi]

theorem exec_getWearAndDriftReport {d : Nat} (h : s.gate p 0xC080 false false = .pass) (hd : d = 255 ∨ s.fitted d = true) :
    ∃ b : Bytes, b.length = 16 + 256 * (if d = 255 then s.fittedDies else [d]).length ∧
      exec (.getWearAndDriftReport p d true) s = .next (s.reply p 0xC080 .success b) := by
  have hok : ¬(!true || (d != 255 && !s.fitted d)) = true := by
    rcases hd with rfl | hd
    · simp
    · simp [hd]
  refine ⟨_, ?_, congrArg Host.Outcome.next ((mailbox_of_pass h).trans (if_neg hok))⟩
  simp only [List.length_append, length_le, length_zeros, length_flatMap_of_const (fun i _ => length_dieRecord s i)]

/-- The rows that a read of the tally store notes, one after another. -/
def noteRows (s : State) (part row n : Nat) : State := (List.range n).foldl (fun s k => s.noteRow part (row + k)) s

theorem exec_readTallyRecords {t part row n : Nat} {w : BitVec 128} (h : s.gate p 0xC001 true false = .pass) (hpart : part < 5)
    (hrow : row < partRows part) (hn : n ≠ 0) (hmax : n ≤ 240) :
    ∃ b : Bytes, b.length = 16 + 264 * min n (partRows part - row) ∧
      exec (.readTallyRecords t p part row n w) s =
        .next ((noteRows (s.tick t) part row (min n (partRows part - row))).reply p 0xC001 .success b) := by
  refine ⟨_, ?_, congrArg Host.Outcome.next ((mailbox_of_pass (s := s.tick t) h).trans
    ((if_neg (by omega)).trans (if_neg (by omega))))⟩
  rw [List.length_append, List.length_append, length_le, length_zeros, length_flatMap_range _ (fun k => length_rowOut _ part (row + k))]

theorem sendsMsix_noteRows (s : State) (part row n : Nat) : SendsMsix s (noteRows s part row n) :=
  SendsMsix.foldl (fun s k => sendsMsix_noteRow s part (row + k)) _ s

theorem changesOnly_noteRows (s : State) (part row n : Nat) : changesOnly [.out, .events, .tly] s (noteRows s part row n) :=
  changesOnly_foldl (fun s k => changesOnly_noteRow s part (row + k)) _ s

end

theorem changesOnly_setFresh (s : State) (n : Nat) : changesOnly [.events] s { s with fresh := n } := by
  intro g hg
  have h0 := same_refl g s
  cases g
  case events => cases hg
  all_goals exact h0

/-- Settles O56: each command's reply, and the length of its payload. -/
theorem mailboxReports : Obligations.MailboxReports := by
  have ran : ∀ {s : State} {c : Instr} {p : Path} {op : Nat} {a b : Bool} {run : State → State}, s.gate p op a b = .pass →
      (Host.Outcome.next (s.mailbox c p op a b run) : Res) = .next (run s) :=
    fun h => congrArg Host.Outcome.next (mailbox_of_pass h)
  refine ⟨?events, ?noLog, ?policy, ?fw, ?timestamp, ?logs, ?log, ?identity, ?lsa, ?health, ?alerts, ?shutdown, ?poison, ?poisonBad,
    ?scanTime, ?scanResults, ?summary, ?image, ?extents, ?keys, ?ring, ?recorder, ?attempt, ?noAttempt, ?wear, ?wearAll, ?tally,
    ?tallySecret, ?refused, ?silent⟩
  case events =>
    intro p log count s h hlog
    obtain ⟨b, hb, hx⟩ := exec_getEventRecords (count := count) h hlog
    exact completes_report hx hb
  case noLog => exact fun p log count s h hlog => (ran h).trans (congrArg Host.Outcome.next (if_pos hlog))
  case policy =>
    intro p a b c d s h hpolicy
    refine completes_answer ((ran h).trans (congrArg (fun l => Host.Outcome.next (s.reply p 0x0102 .success l)) ?_))
    rw [hpolicy]
    exact congrArg₂ List.cons ((policy_byte a 0 (by decide)).trans (BitVec.or_zero)) (congrArg₂ List.cons (policy_byte b 1 (by decide))
      (congrArg₂ List.cons (policy_byte c 2 (by decide)) (congrArg₂ List.cons (policy_byte d 3 (by decide)) rfl)))
  case fw =>
    intro p s h hfw
    refine completes_report (ran h) ?_
    simp only [List.length_append, length_le, length_zeros, length_flatMap_of_const (fun x _ => length_revision x), List.length_take, hfw]
    decide
  case timestamp => exact fun p s h => completes_answer (ran h)
  case logs => exact fun p s h => completes_report (ran h) (by simp)
  case log =>
    intro p o n s h hn
    refine ⟨completes_report ((ran h).trans (congrArg Host.Outcome.next (if_neg ?_))) ?_, ran h⟩
    · simpa using hn
    · rw [List.length_take, List.length_drop, length_effectsLog]
      omega
  case identity =>
    intro p s h
    refine ⟨_, ran h, ?_, ?_, changesOnly_reply _ _ _ _ _⟩
    · rw [lengths_reply]
      simp [State.identity]
    · rw [answers_reply]
      simp only [State.identity, List.append_assoc, List.map_cons, List.map_nil]
      rw [List.drop_left' (length_revision _), List.take_left' (length_le 8 _)]
  case lsa =>
    intro p o n s h ho hn
    refine ⟨_, (ran h).trans (congrArg Host.Outcome.next (if_neg (by omega))), ?_, ?_, changesOnly_reply _ _ _ _ _⟩
    · rw [lengths_reply, List.length_map, List.length_range]
    · rw [answers_reply]
      simp only [List.all_eq_true, List.mem_range, List.mem_singleton, forall_eq, beq_iff_eq]
      intro i hi
      rw [List.getD_eq_getElem?_getD, List.getElem?_map, List.getElem?_range hi]
      rfl
  case health => exact fun p s h => completes_report (ran h) (by simp)
  case alerts => exact fun p s h => completes_report (ran h) (by simp)
  case shutdown => exact fun p s h => completes_answer (ran h)
  case poison =>
    intro p dpa n k s h h64 hn hc hnext hk hlen
    obtain ⟨b, hb, hx⟩ := exec_getPoisonList h h64 hn hc hnext (hlen ▸ hk)
    exact completes_report hx (hlen ▸ hb)
  case poisonBad =>
    exact fun p dpa n s h hn => ⟨fun h64 => (ran h).trans (congrArg Host.Outcome.next (onRange_of_unaligned h64)),
      fun h64 hc => (ran h).trans (congrArg Host.Outcome.next (onRange_of_beyond h64 hn hc))⟩
  case scanTime =>
    intro p dpa n s h h64 hn hc
    refine ⟨_, (ran (gate_pass_of_medium h)).trans (congrArg Host.Outcome.next (onRange_of_ok h64 hn hc)), ?_, rfl, rfl, rfl, ?_⟩
    · exact answers_reply_of_sendsMsix (t := { s with fresh := s.fresh + 1 }) (.of_eq rfl) p 0x4303 .success _
    · exact changesOnly_mono (by decide) (changesOnly_append (changesOnly_setFresh s (s.fresh + 1)) (changesOnly_reply _ p 0x4303 .success _))
  case scanResults =>
    intro p s h
    obtain ⟨b, hb, hx⟩ := exec_getScanMediaResults h
    refine ⟨_, hx, ?_, rfl, changesOnly_mono (by decide) (changesOnly_append (changesOnly_setLink s _) (changesOnly_reply _ p 0x4305 .success b))⟩
    rw [← hb]
    exact congrArg (List.map _) (answers_reply_of_sendsMsix
      (t := { s with link := { s.link with scanResults := s.link.scanResults.drop 4094 } }) (.of_eq rfl) p 0x4305 .success b)
  case summary =>
    intro t p s h
    have ha := answers_reply_of_sendsMsix (s := s) (t := s.tick t) (.of_eq rfl) p 0xC000 .success (s.tick t).summary
    refine ⟨_, ran (s := s.tick t) h, ?_, ha, changesOnly_of_tick (changesOnly_reply _ p 0xC000 .success _)⟩
    exact (congrArg (List.map _) ha).trans (by simp only [List.map_cons, List.map_nil, length_summary])
  case image => exact fun p s h => completes_report (ran h) (by simp)
  case extents =>
    intro p a n s h ha hn hmax
    obtain ⟨b, hb, hx⟩ := exec_getExtentTable h ha hn hmax
    exact completes_report hx hb
  case keys =>
    intro p a n s h ha hn hmax
    obtain ⟨b, hb, hx⟩ := exec_getKeyStatus h ha hn hmax
    exact completes_report hx hb
  case ring =>
    intro p s h
    refine completes_report (ran h) ?_
    rw [List.length_append, length_memberTable]
    simp
  case recorder =>
    intro p q n s h hn hmax hstored
    obtain ⟨b, hb, hx⟩ := exec_readRecorder h hn hmax hstored
    exact completes_report hx hb
  case attempt =>
    intro p i a s h hi ha
    have hx := exec_getBootLedger (i := i) h
    rw [ha] at hx
    exact completes_answer (hx.trans (congrArg Host.Outcome.next (if_pos hi)))
  case noAttempt =>
    intro p i s h ha
    have hx := exec_getBootLedger (i := i) h
    rwa [ha] at hx
  case wear =>
    intro p d s h hd
    obtain ⟨b, hb, hx⟩ := exec_getWearAndDriftReport h (.inr hd)
    have h255 : d ≠ 255 := by
      rintro rfl
      exact absurd hd (by simp [State.fitted])
    exact completes_report hx (hb.trans (by rw [if_neg h255]; rfl))
  case wearAll =>
    intro p s h
    obtain ⟨b, hb, hx⟩ := exec_getWearAndDriftReport (d := 255) h (.inl rfl)
    exact completes_report hx (hb.trans (by rw [if_pos rfl, length_fittedDies]))
  case tally =>
    intro t p part row n w s h hpart hrow hn hmax
    obtain ⟨b, hb, hx⟩ := exec_readTallyRecords (t := t) (w := w) h hpart hrow hn hmax
    refine ⟨_, hx, ?_, ?_⟩
    · rw [← hb]
      exact congrArg (List.map _) (answers_reply_of_sendsMsix (SendsMsix.trans (t := s.tick t) (.of_eq rfl) (sendsMsix_noteRows _ _ _ _))
        p 0xC001 .success b)
    · exact changesOnly_mono (by decide) (changesOnly_of_tick (changesOnly_append (changesOnly_noteRows _ _ _ _)
        (changesOnly_reply _ p 0xC001 .success b)))
  case tallySecret =>
    exact fun t p row n w s h => (ran (s := s.tick t) h).trans (congrArg Host.Outcome.next (if_pos (.inr (.inl rfl))))
  case refused => exact fun p rc s h => congrArg Host.Outcome.next (mailbox_of_refuse h)
  case silent => exact fun p s h => congrArg Host.Outcome.next (mailbox_of_silent h)

/-! ## Operations that only count and report -/

/-- Only registers, events and output may differ. -/
def Quiet (s t : State) : Prop := changesOnly [.out, .events, .regs] s t

theorem Quiet.eq_onlyEvents {s t : State} (h : Quiet s t) : t = s.onlyEvents t := by
  have hfab : t.fab = { s.fab with crossing := t.fab.crossing } := fab_eq_of_same (h .fab rfl)
  have htq : t.tq = { s.tq with levelSeen := t.tq.levelSeen } :=
    congrArg (fun q : Telemetry => { q with levelSeen := t.tq.levelSeen }) (h .tq rfl)
  obtain ⟨hpending, hpart, hserial⟩ := h .card rfl
  have hnow : t.now = s.now := h .time rfl
  have hlink : t.link = s.link := h .link rfl
  have hqos : t.qos = s.qos := h .qos rfl
  have hcch : t.cch = s.cch := h .cch rfl
  have hmed : t.med = s.med := h .med rfl
  have hmap : t.map = s.map := h .map rfl
  have hcal : t.cal = s.cal := h .cal rfl
  have hkey : t.key = s.key := h .key rfl
  have hpfl : t.pfl = s.pfl := h .pfl rfl
  have hring : t.ring = s.ring := h .ring rfl
  have hpwr : t.pwr = s.pwr := h .pwr rfl
  have hthm : t.thm = s.thm := h .thm rfl
  have hboot : t.boot = s.boot := h .boot rfl
  have hrun : t.run = s.run := h .run rfl
  have htly : t.tly = s.tly := h .tly rfl
  have hflip : t.flip = s.flip := h .flip rfl
  unfold State.onlyEvents
  rw [← hfab, ← htq, ← hpending, ← hpart, ← hserial, ← hnow, ← hlink, ← hqos, ← hcch, ← hmed, ← hmap, ← hcal, ← hkey, ← hpfl,
    ← hring, ← hpwr, ← hthm, ← hboot, ← hrun, ← htly, ← hflip]

/-- What is read of the groups that a quiet operation leaves is as before. -/
theorem Quiet.keeps {α : Type} {s t : State} (h : Quiet s t) (f : State → α) (hf : ∀ r, f (s.onlyEvents r) = f s) : f t = f s :=
  (congrArg f h.eq_onlyEvents).trans (hf t)

theorem Quiet.trans {s t u : State} (h : Quiet s t) (k : Quiet t u) : Quiet s u := changesOnly_trans h k

theorem Quiet.setMap {s t : State} (h : Quiet s t) (m : Map) : Quiet { s with map := m } { t with map := m } := by
  intro g hg
  have h0 := h g hg
  cases g
  case map => rfl
  all_goals exact h0

theorem quiet_count (code k : Nat) (q : Option PmuReq) (s : State) : Quiet s (count code k q s) :=
  changesOnly_mono (by decide) (changesOnly_of_onlyEvents rfl (regsBut_count code k q s))

theorem quiet_setReg (s : State) (f : Fld) (v i : Nat) : Quiet s (s.setReg f v i) := by
  intro g hg
  have h0 := same_refl g s
  cases g
  case regs | events => cases hg
  all_goals exact h0

theorem quiet_bump (s : State) (f : Fld) (k i : Nat) : Quiet s (s.bump f k i) := by
  have hfresh : Quiet s { s with fresh := s.fresh + 1 } := changesOnly_mono (by decide) (changesOnly_setFresh s _)
  unfold State.bump
  split
  · exact quiet_setReg s f _ i
  · exact hfresh.trans (quiet_setReg _ f _ i)

theorem quiet_high (s : State) (f : Fld) (v i : Nat) : Quiet s (s.high f v i) := by
  unfold State.high
  split
  · exact quiet_setReg s f v i
  · exact changesOnly_refl _ s

theorem quiet_ev (src sev : Nat) (data : List Nat) (region : Nat) (s : State) : Quiet s (ev src sev data region s) :=
  changesOnly_mono (by decide) (changesOnly_ev src sev data region s)

theorem quiet_nearHit (s : State) : Quiet s s.nearHit := (quiet_bump s _ 1 0).trans (quiet_count _ 1 none _)
theorem quiet_nearMiss (s : State) : Quiet s s.nearMiss := (quiet_bump s _ 1 0).trans (quiet_count _ 1 none _)
theorem quiet_boardMiss (s : State) : Quiet s s.boardMiss := (quiet_bump s _ 1 0).trans (quiet_count _ 1 none _)

/-- Looking an entry up changes the on-chip cache, and counts. -/
theorem quiet_mapLookup (s : State) (f : Nat) :
    Quiet { s with map := { s.map with onChip := (s.mapLookup f).1.map.onChip } } (s.mapLookup f).1 := by
  unfold State.mapLookup
  dsimp only
  split
  · rw [State.bump_map]
    exact quiet_bump _ _ 1 0
  · rw [count_map, State.bump_map]
    exact (quiet_bump _ _ 1 0).trans (quiet_count _ 1 none _)

/-! ## A write that arrives and is admitted at once -/

/-- The card as a request that has arrived at time t finds it: the request's number is taken. -/
def arrived (s : State) (t : Nat) : State :=
  { s.tick t with qos := { s.qos with nextId := s.qos.nextId + 1, lastReqAt := max s.now t } }

theorem changesOnly_arrived (s : State) (t : Nat) : changesOnly [.time, .qos] s (arrived s t) := by
  intro g hg
  have h0 := same_refl g s
  cases g
  case time | qos => cases hg
  all_goals exact h0

/-- No rule on epochs makes a write to the line wait: it is discarded, or its extent is in line mode. -/
def PastEpochs (s : State) (r : Req) : Prop :=
  s.writeDiscarded r.dpa.toNat = true ∨ s.lineEpochMode (r.dpa.toNat / 64 / 4) = false

/-- Time moves on and a number is taken: a request that could be admitted still can be, if its slot is ready. -/
theorem admissible_arrived {s : State} {t : Nat} {r : Req} (h : s.admissible r = true) (hw : PastEpochs s r)
    (hslot : (arrived s t).slotReady (r.dpa.toNat / 64) = true) : (arrived s t).admissible r = true := by
  unfold State.admissible at h ⊢
  dsimp only at h ⊢
  rw [hslot]
  simp only [Bool.and_eq_true] at h ⊢
  obtain ⟨⟨⟨⟨⟨⟨hlimit, h2⟩, h4⟩, _⟩, hrebuild⟩, hmaint⟩, hwrite⟩ := h
  refine ⟨⟨⟨⟨⟨⟨hlimit, h2⟩, h4⟩, trivial⟩, hrebuild⟩, hmaint⟩, ?_⟩
  have hdis : (arrived s t).writeDiscarded r.dpa.toNat = s.writeDiscarded r.dpa.toNat := rfl
  have hmode : (arrived s t).lineEpochMode (r.dpa.toNat / 64 / 4) = s.lineEpochMode (r.dpa.toNat / 64 / 4) := rfl
  have hroom : (if (arrived s t).writeThrough then (arrived s t).logReady && !(arrived s t).logFull else (arrived s t).stagingOk r.cls) =
      (if s.writeThrough then s.logReady && !s.logFull else s.stagingOk r.cls) := rfl
  rw [hdis, hmode, hroom]
  obtain hd | hm := hw
  · rw [hd, Bool.or_true, Bool.true_or]
  · rw [hm] at hwrite ⊢
    exact hwrite

theorem slotReady_of_nearAt {s : State} {k : Nat} {x : NearSlot} (h : s.nearAt (k / 4) = some x) : s.slotReady k = true := by
  unfold State.slotReady
  dsimp only
  rw [h]

theorem nearAt_of_empty {s : State} {l : Nat} (h : Tab.find s.cch.near (nearIx l) = none) : s.nearAt l = none := by
  unfold State.nearAt
  rw [h]

theorem slotReady_of_empty {s : State} {k : Nat} (h : Tab.find s.cch.near (nearIx (k / 4)) = none) : s.slotReady k = true := by
  have halloc : s.canAlloc (k / 4) = true := by
    unfold State.canAlloc
    rw [h]
  unfold State.slotReady
  dsimp only
  rw [nearAt_of_empty h, halloc]
  split
  · rfl
  · rfl
  · exact Bool.or_true _

theorem wakeGddr_of_awake {s : State} (h : s.link.selfRefresh = false) : s.wakeGddr = s := by
  unfold State.wakeGddr
  rw [h]
  rfl

/-- A CXL link with credit takes a write in any case; what becomes of it depends on the card. -/
structure TakesWrites (s : State) : Prop where
  up : s.cxlUp = true
  ide : s.link.ideBlocked = false
  room : s.heldKind true < 512
  stays : s.thm.stopping = none

theorem TakesWrites.gate {s : State} (h : TakesWrites s) (t : Nat) :
    ¬ (!(s.tick t).cxlUp || (s.tick t).link.ideBlocked || decide (ingressSize true ≤ (s.tick t).heldKind true)) = true := by
  have hup : (s.tick t).cxlUp = true := h.up
  have hide : (s.tick t).link.ideBlocked = false := h.ide
  have hroom : ¬ ingressSize true ≤ (s.tick t).heldKind true := Nat.not_le.2 h.room
  rw [hup, hide, decide_eq_false hroom]
  exact Bool.false_ne_true

theorem TakesWrites.not_stopping {s : State} (h : TakesWrites s) (t : Nat) : ¬ (arrived s t).thm.stopping.isSome = true := by
  have hs : (arrived s t).thm.stopping = none := h.stays
  rw [hs]
  exact Bool.false_ne_true

theorem not_early {s : State} (h : s.memReady = true) (t : Nat) : ¬ (!(arrived s t).memReady) = true := by
  change ¬ (!s.memReady) = true
  rw [h]
  exact Bool.false_ne_true

/-- What becomes of a request that a decoder claims. -/
def admitOrHold (s : State) (r : Req) : State :=
  if !s.qos.ingress.any (fun q => q.cls == r.cls) && s.admissible r then (s.takeIn r).wakeGddr else s.hold r

section
variable {s : State} (hs : TakesWrites s) (t : Nat) (hpa : BitVec 64) (d : Line) (e : Enables) (p : Bool)
include hs

theorem exec_cxlMemWrite_early (h : s.memReady = false) :
    exec (.cxlMemWrite t hpa d e p) s = .next ((arrived s t).noteEarly.turnAway s.qos.nextId true) := by
  have hready : (!(arrived s t).memReady) = true := by
    change (!s.memReady) = true
    rw [h]
    rfl
  exact congrArg Host.Outcome.next ((if_neg (hs.gate t)).trans ((if_neg (hs.not_stopping t)).trans (if_pos hready)))

theorem exec_cxlMemWrite_unclaimed (h : s.memReady = true) (hd : s.decodeHpa hpa.toNat = none) :
    exec (.cxlMemWrite t hpa d e p) s = .next (((arrived s t).noteUnclaimed hpa.toNat true).turnAway s.qos.nextId true) := by
  have hd' : (arrived s t).decodeHpa hpa.toNat = none := hd
  refine congrArg Host.Outcome.next ((if_neg (hs.gate t)).trans ((if_neg (hs.not_stopping t)).trans
    ((if_neg (not_early h t)).trans ?_)))
  split
  · rfl
  · next a ha => exact absurd (hd'.symm.trans ha) (by simp)

theorem exec_cxlMemWrite_claimed (h : s.memReady = true) {a : Nat} (hd : s.decodeHpa hpa.toNat = some a) :
    exec (.cxlMemWrite t hpa d e p) s = .next (admitOrHold (arrived s t)
      ⟨s.qos.nextId, max s.now t, true, s.classAt (a / 64 * 64), BitVec.ofNat 43 (a / 64 * 64), d, e, p⟩) := by
  have hd' : (arrived s t).decodeHpa hpa.toNat = some a := hd
  refine congrArg Host.Outcome.next ((if_neg (hs.gate t)).trans ((if_neg (hs.not_stopping t)).trans
    ((if_neg (not_early h t)).trans ?_)))
  split
  · next ha => exact absurd (hd'.symm.trans ha) (by simp)
  · next b hb =>
    cases hd'.symm.trans hb
    rfl

end

/-- A write that is admitted when it arrives is taken in. -/
theorem exec_cxlMemWrite_admitted {s : State} {t : Nat} {hpa : BitVec 64} {r : Req} (h : admits s t hpa.toNat r = true)
    (hr : r.write = true) (hw : PastEpochs s r) (hslot : (arrived s t).slotReady (r.dpa.toNat / 64) = true) :
    exec (.cxlMemWrite t hpa r.data r.enables r.poison) s = .next ((arrived s t).takeIn r).wakeGddr := by
  unfold admits at h
  simp only [Bool.and_eq_true, Bool.not_eq_true', decide_eq_true_eq, beq_iff_eq] at h
  obtain ⟨⟨⟨⟨⟨⟨⟨⟨⟨⟨⟨⟨hup, hide⟩, hroom⟩, hstop⟩, hready⟩, hdpa⟩, hid⟩, ht0⟩, hcls⟩, _⟩, hqueue⟩, hadm⟩, _⟩ := h
  rw [hr] at hroom
  obtain ⟨a, ha, hline⟩ := (Option.any_eq_true _ _).1 hdpa
  rw [beq_iff_eq] at hline
  have hreq : r = ⟨s.qos.nextId, max s.now t, true, s.classAt (a / 64 * 64), BitVec.ofNat 43 (a / 64 * 64), r.data, r.enables, r.poison⟩ := by
    rw [hline, ← hid, ← ht0, ← hcls, ← hr, BitVec.ofNat_toNat, BitVec.setWidth_eq]
  rw [exec_cxlMemWrite_claimed ⟨hup, hide, hroom, Option.isNone_iff_eq_none.1 hstop⟩ t hpa _ _ _ hready ha, ← hreq]
  refine congrArg Host.Outcome.next (if_pos ?_)
  have hqueue' : (arrived s t).qos.ingress.any (fun q => q.cls == r.cls) = false := hqueue
  rw [hqueue', admissible_arrived hadm hw hslot]
  rfl

/-! ## A write that is served -/

/-- The card at the tests of a write: the request is counted and its folio's entry looked up. -/
def lookedUp (s : State) (t : Nat) (r : Req) : State :=
  ((count (b2n r.write) 1 (some r.pmu) ((arrived s t).high QOS_TRACKER.host_high (s.qos.ctxs.length + 1))).mapLookup
    (r.dpa.toNat / 64 / 256)).1

section
variable (s : State) (t : Nat) (r : Req)

theorem quiet_lookedUp :
    Quiet { arrived s t with map := { s.map with onChip := (lookedUp s t r).map.onChip } } (lookedUp s t r) := by
  have hcount := (quiet_high (arrived s t) QOS_TRACKER.host_high (s.qos.ctxs.length + 1) 0).trans
    (quiet_count (b2n r.write) 1 (some r.pmu) _)
  have hmap := hcount.keeps State.map (fun _ => rfl)
  have hlook := quiet_mapLookup (count (b2n r.write) 1 (some r.pmu)
    ((arrived s t).high QOS_TRACKER.host_high (s.qos.ctxs.length + 1))) (r.dpa.toNat / 64 / 256)
  rw [hmap] at hlook
  exact (hcount.setMap _).trans hlook

/-- What depends on neither the time, the queues, the on-chip map nor events is as it was. -/
theorem lookedUp_keeps {α : Type} (f : State → α)
    (hf : ∀ x v, f (State.onlyEvents { arrived s t with map := { s.map with onChip := x } } v) = f s) : f (lookedUp s t r) = f s :=
  (congrArg f (quiet_lookedUp s t r).eq_onlyEvents).trans (hf _ _)

theorem changesOnly_lookedUp : changesOnly [.time, .out, .events, .regs, .qos, .map] s (lookedUp s t r) :=
  changesOnly_mono (by decide) (changesOnly_append (changesOnly_append (changesOnly_arrived s t) (changesOnly_setMap _ _))
    (quiet_lookedUp s t r))

theorem lookedUp_now : (lookedUp s t r).now = max s.now t := (quiet_lookedUp s t r).keeps State.now (fun _ => rfl)

theorem lookedUp_qos : (lookedUp s t r).qos = { s.qos with nextId := s.qos.nextId + 1, lastReqAt := max s.now t } :=
  (quiet_lookedUp s t r).keeps State.qos (fun _ => rfl)

theorem lookedUp_map : (lookedUp s t r).map = { s.map with onChip := (lookedUp s t r).map.onChip } :=
  (quiet_lookedUp s t r).keeps State.map (fun _ => rfl)

end

theorem nearTags_of_empty {s : State} {ix : Nat} (h : Tab.find s.cch.near ix = none) : s.nearTags ix = s := by
  unfold State.nearTags
  rw [h]

theorem nearTags_of_good {s : State} {ix : Nat} {x : NearSlot} (h : Tab.find s.cch.near ix = some x) (hx : x.badTags = 0) :
    s.nearTags ix = s := by
  unfold State.nearTags
  rw [h]
  exact if_pos hx

/-- What follows the merge of an accepted write. -/
def accepted (s : State) (r : Req) : State :=
  let s1 := s.merged (r.dpa.toNat / 64) r.enables r.poison
  let s2 := if r.poison then s1.reportRas 1 else s1
  State.judgeWriteback { s2 with qos := { s2.qos with
    ctxs := s2.qos.ctxs ++ [⟨r, some (max s2.now (r.t0 + 15)), .none, 0, 0, s2.writeThrough⟩],
    epochWaiters := s2.qos.epochWaiters.filter (fun n => n != r.id) } }

/-- What is made of a write once its line's tags are judged. -/
def serveTested (s : State) (r : Req) : State :=
  let k := r.dpa.toNat / 64
  if s.fab.fatal then s
  else if s.lockedUnit (unitOfLine k) then (s.noteLocked (unitOfLine k)).discard r
  else if s.fro then s.noteFro.discard r (s.fencedSector (k / 4))
  else if s.lineEpochMode (k / 4) && (s.ring.pending || s.ring.provisional) then s.notePending.discard r
  else accepted (s.unclean.mergeWrite r k) r

theorem takeIn_of_write {s : State} {t : Nat} {r : Req} (hw : r.write = true)
    (htags : (lookedUp s t r).nearTags (nearIx (r.dpa.toNat / 64 / 4)) = lookedUp s t r) :
    (arrived s t).takeIn r = serveTested (lookedUp s t r) r := by
  have htake : (arrived s t).takeIn r =
      serveTested ((lookedUp s t r).nearTags (nearIx (r.dpa.toNat / 64 / 4))) r := if_pos hw
  rw [htake, htags]

section
variable {s : State} {r : Req} (hfatal : s.fab.fatal = false)
include hfatal

theorem serveTested_of_locked (hl : s.lockedUnit (unitOfLine (r.dpa.toNat / 64)) = true) :
    serveTested s r = (s.noteLocked (unitOfLine (r.dpa.toNat / 64))).discard r :=
  (if_neg (by simp [hfatal])).trans (if_pos hl)

variable (hl : s.lockedUnit (unitOfLine (r.dpa.toNat / 64)) = false)
include hl

theorem serveTested_of_fro (hf : s.fro = true) :
    serveTested s r = s.noteFro.discard r (s.fencedSector (r.dpa.toNat / 64 / 4)) :=
  (if_neg (by simp [hfatal])).trans ((if_neg (by simp [hl])).trans (if_pos hf))

theorem serveTested_of_plain (hf : s.fro = false) (he : s.lineEpochMode (r.dpa.toNat / 64 / 4) = false)
    (hc : s.pfl.clean = false) : serveTested s r = accepted (s.mergeWrite r (r.dpa.toNat / 64)) r := by
  have hunclean : s.unclean = s := if_neg (by simp [hc])
  refine (if_neg (by simp [hfatal])).trans ((if_neg (by simp [hl])).trans ((if_neg (by simp [hf])).trans
    ((if_neg (by simp [he])).trans ?_)))
  rw [hunclean]

end

/-! ## Merging a write into a near line -/

theorem put_put {α : Type} (m : Tab α) (k : Nat) (x y : α) : Tab.put (Tab.put m k x) k y = Tab.put m k y := by
  induction m with
  | nil => simp [Tab.put]
  | cons e m ih =>
    obtain ⟨i, b⟩ := e
    by_cases hlt : k < i
    · simp [Tab.put, hlt]
    · by_cases heq : k = i
      · simp [Tab.put, heq]
      · simp [Tab.put, hlt, heq, ih]

theorem setNear_setNear (s : State) (l : Nat) (x y : NearSlot) : (s.setNear l x).setNear l y = s.setNear l y := by
  unfold State.setNear
  dsimp only
  rw [put_put]

theorem nearAt_setNear {s : State} {l : Nat} {x : NearSlot} (h : x.copy.l.toNat = l) : (s.setNear l x).nearAt l = some x := by
  unfold State.nearAt State.setNear
  dsimp only
  rw [Tab.find_put_same]
  exact if_pos h

theorem find_near_of_nearAt {s : State} {l : Nat} {x : NearSlot} (h : s.nearAt l = some x) :
    Tab.find s.cch.near (nearIx l) = some x ∧ x.copy.l.toNat = l := by
  unfold State.nearAt at h
  split at h
  next y hy =>
    split at h
    next hl =>
      cases h
      exact ⟨hy, hl⟩
    next => cases h
  next => cases h

/-- A near line with a write's enabled bytes. -/
def writtenSlot (s : State) (x : NearSlot) (r : Req) (i : Nat) : NearSlot :=
  { x with
    copy := s.writeCopy x.copy i r.data r.enables r.poison, dirtySince := some (x.dirtySince.getD s.now),
    mask := if x.filling then x.mask ||| maskOf i r.enables else x.mask,
    badData := if r.enables = BitVec.allOnes 64 then clearBad x.badData i else x.badData }

theorem flipsLine_of_disarmed {s : State} (h : s.flip.armed = none) (target k : Nat) : s.flipsLine target k = false := by
  unfold State.flipsLine
  rw [h]

theorem writeNear_of_nearAt {s : State} {l i : Nat} {x : NearSlot} (r : Req) (h : s.nearAt l = some x) (hf : s.flip.armed = none) :
    s.writeNear l i r.data r.enables r.poison = s.setNear l (writtenSlot s x r i) := by
  unfold State.writeNear
  rw [h]
  dsimp only
  rw [flipsLine_of_disarmed hf]
  rfl

/-- A near line whose reuse a host hit raises. -/
def warmer (x : NearSlot) : NearSlot := { x with copy := { x.copy with reuse := min 7 (x.copy.reuse + 1) } }

theorem raiseNear_of_nearAt {s : State} {l : Nat} {x : NearSlot} (h : s.nearAt l = some x) :
    s.raiseNear l = s.setNear l (warmer x) := by
  unfold State.raiseNear
  rw [h]
  rfl

section
variable {s : State} {r : Req} {k : Nat} (he : s.lineEpochMode (k / 4) = false) (hf : s.flip.armed = none)
include he hf

/-- A write to a line of the near cache raises its reuse and merges there. -/
theorem mergeWrite_of_nearAt {x : NearSlot} (h : s.nearAt (k / 4) = some x) :
    s.mergeWrite r k = s.nearHit.setNear (k / 4) (writtenSlot s (warmer x) r (k % 4)) := by
  have hq := quiet_nearHit s
  have hnear : s.nearHit.nearAt (k / 4) = some x := (hq.keeps (fun v => v.nearAt (k / 4)) (fun _ => rfl)).trans h
  have hflip : s.nearHit.flip.armed = none := (hq.keeps (fun v => v.flip.armed) (fun _ => rfl)).trans hf
  have hslot : writtenSlot s.nearHit (warmer x) r (k % 4) = writtenSlot s (warmer x) r (k % 4) :=
    hq.keeps (fun v => writtenSlot v (warmer x) r (k % 4)) (fun _ => rfl)
  have hwarm : (s.nearHit.setNear (k / 4) (warmer x)).nearAt (k / 4) = some (warmer x) := nearAt_setNear (find_near_of_nearAt h).2
  unfold State.mergeWrite
  dsimp only
  rw [he, Bool.false_and, if_neg Bool.false_ne_true, h]
  dsimp only
  rw [raiseNear_of_nearAt hnear, writeNear_of_nearAt r hwarm hflip, setNear_setNear, ← hslot]
  rfl

end

theorem evictNear_of_empty {s : State} {ix : Nat} (h : Tab.find s.cch.near ix = none) : s.evictNear ix = s := by
  unfold State.evictNear
  dsimp only
  rw [nearTags_of_empty h, h]

theorem alloc_of_empty {s : State} {l : Nat} (c : Copy) (filling : Bool) (h : Tab.find s.cch.near (nearIx l) = none) :
    s.alloc l c filling = s.setNear l ⟨c, none, filling, 0, 0, 0, 0⟩ := by
  unfold State.alloc
  dsimp only
  rw [nearAt_of_empty h, evictNear_of_empty h]
  rfl

theorem boardRead_of_empty {s : State} {ix : Nat} (h : Tab.find s.cch.board ix = none) : s.boardRead ix = s := by
  unfold State.boardRead
  rw [h]

/-- The line is stored nowhere, and its near slot is free. -/
structure Unwritten (s : State) (l : Nat) : Prop where
  near : Tab.find s.cch.near (nearIx l) = none
  evict : s.evictAt l = none
  board : Tab.find s.cch.board (s.boardIx l) = none
  wb : s.wbAt l = none
  overlay : s.inOverlay l = false
  medium : s.noData (l / 64) = true

theorem Unwritten.boardAt {s : State} {l : Nat} (h : Unwritten s l) : s.boardAt l = none := by
  unfold State.boardAt
  rw [h.board]

theorem Unwritten.lowerSource {s : State} {l : Nat} (h : Unwritten s l) (i : Nat) : s.lowerSource l i = .zeros := by
  unfold State.lowerSource
  rw [h.boardAt, h.wb, h.overlay, h.medium]
  rfl

/-- A quiet operation stores no line. -/
theorem Unwritten.of_quiet {s u : State} {l : Nat} (h : Unwritten s l) (hq : Quiet s u) : Unwritten u l where
  near := (hq.keeps (fun v => Tab.find v.cch.near (nearIx l)) (fun _ => rfl)).trans h.near
  evict := (hq.keeps (fun v => v.evictAt l) (fun _ => rfl)).trans h.evict
  board := (hq.keeps (fun v => Tab.find v.cch.board (v.boardIx l)) (fun _ => rfl)).trans h.board
  wb := (hq.keeps (fun v => v.wbAt l) (fun _ => rfl)).trans h.wb
  overlay := (hq.keeps (fun v => v.inOverlay l) (fun _ => rfl)).trans h.overlay
  medium := (hq.keeps (fun v => v.noData (l / 64)) (fun _ => rfl)).trans h.medium

/-- The near slot that a first write of line l takes. -/
def freshSlot (s : State) (l : Nat) : NearSlot := ⟨s.blankCopy l 0, none, false, 0, 0, 0, 0⟩

/-- A write into a slot that is taken for it. -/
theorem writeNear_alloc {s : State} {l : Nat} {c : Copy} (r : Req) (i : Nat) (hn : Tab.find s.cch.near (nearIx l) = none)
    (hf : s.flip.armed = none) (hc : c.l.toNat = l) :
    (s.alloc l c false).writeNear l i r.data r.enables r.poison =
      s.setNear l (writtenSlot s ⟨c, none, false, 0, 0, 0, 0⟩ r i) := by
  rw [alloc_of_empty c false hn, writeNear_of_nearAt r (nearAt_setNear hc) hf, setNear_setNear]
  rfl

theorem blankCopy_tag {s : State} {l : Nat} (hl : l < 2 ^ 35) (reuse : Nat) : (s.blankCopy l reuse).l.toNat = l :=
  (BitVec.toNat_ofNat l 35).trans (Nat.mod_eq_of_lt hl)

/-- A write to a line that is stored nowhere takes the empty near slot. -/
theorem mergeWrite_of_unwritten {s : State} {r : Req} {k : Nat} (he : s.lineEpochMode (k / 4) = false) (hf : s.flip.armed = none)
    (hl : k / 4 < 2 ^ 35) (h : Unwritten s (k / 4)) :
    s.mergeWrite r k = s.nearMiss.boardMiss.setNear (k / 4) (writtenSlot s (freshSlot s (k / 4)) r (k % 4)) := by
  have hm := quiet_nearMiss s
  have hq := hm.trans (quiet_boardMiss _)
  have hix : s.nearMiss.boardIx (k / 4) = s.boardIx (k / 4) := hm.keeps (fun v => v.boardIx (k / 4)) (fun _ => rfl)
  have hblank : s.nearMiss.blankCopy (k / 4) 0 = s.blankCopy (k / 4) 0 := hm.keeps (fun v => v.blankCopy (k / 4) 0) (fun _ => rfl)
  have hflip : s.nearMiss.boardMiss.flip.armed = none := (hq.keeps (fun v => v.flip.armed) (fun _ => rfl)).trans hf
  have hslot : writtenSlot s.nearMiss.boardMiss (freshSlot s (k / 4)) r (k % 4) = writtenSlot s (freshSlot s (k / 4)) r (k % 4) :=
    hq.keeps (fun v => writtenSlot v (freshSlot s (k / 4)) r (k % 4)) (fun _ => rfl)
  have hread : s.nearMiss.boardRead (s.boardIx (k / 4)) = s.nearMiss := boardRead_of_empty (by rw [← hix]; exact (h.of_quiet hm).board)
  unfold State.mergeWrite
  dsimp only
  rw [he, Bool.false_and, if_neg Bool.false_ne_true, nearAt_of_empty h.near, h.evict]
  dsimp only
  rw [hread, (h.of_quiet hm).lowerSource]
  dsimp only
  rw [hblank, writeNear_alloc r _ (h.of_quiet hq).near hflip (blankCopy_tag hl 0)]
  exact congrArg _ hslot

/-! ## What an accepted write leaves -/

theorem changesOnly_settleFlag (s : State) (f : Nat) : changesOnly [.out, .events, .map] s (s.settleFlag f) := by
  unfold State.settleFlag
  dsimp only
  split
  · exact changesOnly_mapChange s f _ 0
  · exact changesOnly_refl _ s

/-- A changed list of poisoned lines is written out, and its folio's flag settled. -/
theorem changesOnly_settleRow {s u : State} (h : changesOnly [.out, .events, .map] s u) (row f : Nat) :
    changesOnly [.out, .events, .regs, .map, .tly] s ((u.ownRow 3 2 row (u.poisonRow row)).settleFlag f) :=
  changesOnly_mono (by decide) (changesOnly_append (changesOnly_append h (changesOnly_ownRow u 3 2 row _)) (changesOnly_settleFlag _ f))

theorem changesOnly_unlist (s : State) (k : Nat) : changesOnly [.out, .events, .regs, .map, .tly] s (s.unlist k) := by
  unfold State.unlist
  split
  · refine changesOnly_settleRow ?_ _ (k / 256)
    split
    · exact changesOnly_mono (by decide) (changesOnly_setMap s _)
    · exact changesOnly_trans (changesOnly_mono (by decide) (changesOnly_setMap s _)) (changesOnly_listFull _)
  · exact changesOnly_refl _ s

theorem changesOnly_setPfl (s : State) (y : Persist) : changesOnly [.pfl] s { s with pfl := y } := by
  intro g hg
  have h0 := same_refl g s
  cases g
  case pfl => cases hg
  all_goals exact h0

theorem changesOnly_setQos (s : State) (y : Qos) : changesOnly [.qos] s { s with qos := y } := by
  intro g hg
  have h0 := same_refl g s
  cases g
  case qos => cases hg
  all_goals exact h0

theorem changesOnly_setCch (s : State) (y : Caches) : changesOnly [.cch] s { s with cch := y } := by
  intro g hg
  have h0 := same_refl g s
  cases g
  case cch => cases hg
  all_goals exact h0

theorem changesOnly_reportRas (s : State) (bit : Nat) : changesOnly [.link, .out] s (s.reportRas bit) :=
  changesOnly_append (changesOnly_setLink s _) (changesOnly_out _ _)

/-- The poison list takes note of a write: it strikes a line that is written whole, and lists one that is written with poison. -/
def poisonNoted (s : State) (k : Nat) (e : Enables) (poison : Bool) : State :=
  let s1 := if e = BitVec.allOnes 64 ∧ !poison then s.unlist k else s
  if poison then s1.listLine k 1 else s1

theorem changesOnly_poisonNoted (s : State) (k : Nat) (e : Enables) (poison : Bool) :
    changesOnly [.out, .events, .regs, .map, .tly] s (poisonNoted s k e poison) := by
  unfold poisonNoted
  extract_lets s1
  have h1 : changesOnly [.out, .events, .regs, .map, .tly] s s1 := by
    dsimp only [s1]
    split
    · exact changesOnly_unlist s k
    · exact changesOnly_refl _ s
  split
  · exact changesOnly_trans h1 (changesOnly_listLine s1 k 1)
  · exact h1

/-- A write that is neither whole nor poisoned leaves the list. -/
theorem poisonNoted_of_partial {s : State} {k : Nat} {e : Enables} (he : e ≠ BitVec.allOnes 64) : poisonNoted s k e false = s := by
  have hwhole : ¬ (e = BitVec.allOnes 64 ∧ (!false) = true) := fun h => he h.1
  unfold poisonNoted
  exact (if_neg Bool.false_ne_true).trans (if_neg hwhole)

/-- Once a write has merged, the overlay's line goes at most. -/
theorem merged_eq (s : State) (k : Nat) (e : Enables) (poison : Bool) : ∃ o,
    s.merged k e poison = { poisonNoted s k e poison with pfl := { (poisonNoted s k e poison).pfl with overlay := o } } := by
  change ∃ o, (if (Tab.find (poisonNoted s k e poison).pfl.overlay k).isSome && !(poisonNoted s k e poison).keptAside k then
    { poisonNoted s k e poison with pfl := { (poisonNoted s k e poison).pfl with
        overlay := Tab.del (poisonNoted s k e poison).pfl.overlay k } } else poisonNoted s k e poison) = _
  split
  · exact ⟨_, rfl⟩
  · exact ⟨_, rfl⟩

theorem changesOnly_merged (s : State) (k : Nat) (e : Enables) (poison : Bool) :
    changesOnly [.out, .events, .regs, .map, .tly, .pfl] s (s.merged k e poison) := by
  obtain ⟨o, ho⟩ := merged_eq s k e poison
  rw [ho]
  exact changesOnly_mono (by decide) (changesOnly_append (changesOnly_poisonNoted s k e poison) (changesOnly_setPfl _ _))

theorem merged_writeThrough (s : State) (k : Nat) (e : Enables) (poison : Bool) :
    (s.merged k e poison).writeThrough = s.writeThrough := by
  obtain ⟨o, ho⟩ := merged_eq s k e poison
  have hpfl : (poisonNoted s k e poison).pfl = s.pfl := changesOnly_poisonNoted s k e poison .pfl rfl
  have hwt : (poisonNoted s k e poison).writeThrough = s.writeThrough := congrArg (fun p : Persist => p.wt.isSome) hpfl
  rw [ho, ← hwt]
  rfl

theorem merged_map_of_partial {s : State} {k : Nat} {e : Enables} (he : e ≠ BitVec.allOnes 64) :
    (s.merged k e false).map = s.map := by
  obtain ⟨o, ho⟩ := merged_eq s k e false
  rw [ho, poisonNoted_of_partial he]

/-- The RAS capability records a write's poison. -/
def poisonReported (s : State) (poison : Bool) : State := if poison then s.reportRas 1 else s

theorem changesOnly_poisonReported (s : State) (poison : Bool) : changesOnly [.link, .out] s (poisonReported s poison) := by
  unfold poisonReported
  split
  · exact changesOnly_reportRas s 1
  · exact changesOnly_refl _ s

theorem poisonReported_selfRefresh (s : State) (poison : Bool) :
    (poisonReported s poison).link.selfRefresh = s.link.selfRefresh := by
  unfold poisonReported
  split
  · rfl
  · rfl

/-- The state of an accepted write before its context is entered. -/
def noted (s : State) (r : Req) : State := poisonReported (s.merged (r.dpa.toNat / 64) r.enables r.poison) r.poison

theorem changesOnly_noted (s : State) (r : Req) : changesOnly [.out, .events, .regs, .map, .tly, .pfl, .link] s (noted s r) :=
  changesOnly_mono (by decide) (changesOnly_append (changesOnly_merged s _ _ _) (changesOnly_poisonReported _ r.poison))

theorem noted_writeThrough (s : State) (r : Req) : (noted s r).writeThrough = s.writeThrough :=
  have hpfl : (noted s r).pfl = (s.merged (r.dpa.toNat / 64) r.enables r.poison).pfl := changesOnly_poisonReported _ r.poison .pfl rfl
  (congrArg (fun p : Persist => p.wt.isSome) hpfl).trans (merged_writeThrough s _ _ _)

theorem accepted_eq (s : State) (r : Req) : accepted s r = State.judgeWriteback { noted s r with qos := { (noted s r).qos with
    ctxs := (noted s r).qos.ctxs ++ [⟨r, some (max (noted s r).now (r.t0 + 15)), .none, 0, 0, (noted s r).writeThrough⟩],
    epochWaiters := (noted s r).qos.epochWaiters.filter (fun n => n != r.id) } } := rfl

theorem accepted_cch (s : State) (r : Req) : (accepted s r).cch = { s.cch with writeback := (accepted s r).cch.writeback } := by
  have h : (noted s r).cch = s.cch := changesOnly_noted s r .cch rfl
  rw [← h]
  rfl

theorem accepted_ctxs (s : State) (r : Req) :
    (accepted s r).qos.ctxs = s.qos.ctxs ++ [⟨r, some (max s.now (r.t0 + 15)), .none, 0, 0, s.writeThrough⟩] := by
  have hqos : (noted s r).qos = s.qos := changesOnly_noted s r .qos rfl
  have hnow : (noted s r).now = s.now := changesOnly_noted s r .time rfl
  rw [← hqos, ← hnow, ← noted_writeThrough s r]
  rfl

theorem accepted_link_of_clean {s : State} {r : Req} (hp : r.poison = false) : (accepted s r).link = s.link := by
  have h : (accepted s r).link = (poisonReported (s.merged (r.dpa.toNat / 64) r.enables r.poison) r.poison).link := rfl
  rw [h, hp]
  exact changesOnly_merged s _ _ false .link rfl

theorem accepted_selfRefresh (s : State) (r : Req) : (accepted s r).link.selfRefresh = s.link.selfRefresh :=
  (poisonReported_selfRefresh _ r.poison).trans
    (congrArg Link.selfRefresh (changesOnly_merged s (r.dpa.toNat / 64) r.enables r.poison .link rfl))

theorem accepted_map_of_partial {s : State} {r : Req} (hp : r.poison = false) (he : r.enables ≠ BitVec.allOnes 64) :
    (accepted s r).map = s.map := by
  have h : (accepted s r).map = (poisonReported (s.merged (r.dpa.toNat / 64) r.enables r.poison) r.poison).map := rfl
  rw [h, hp]
  exact merged_map_of_partial he

theorem changesOnly_accepted (s : State) (r : Req) :
    changesOnly [.out, .events, .regs, .map, .tly, .pfl, .link, .qos, .cch] s (accepted s r) :=
  changesOnly_mono (by decide) (changesOnly_append (changesOnly_append (changesOnly_noted s r) (changesOnly_setQos _ _))
    (changesOnly_setCch _ _))

/-! ## A write that is accepted at once -/

/-- What an admitted write is sure of. -/
structure Admitted (s : State) (t : Nat) (r : Req) : Prop where
  t0 : r.t0 = max s.now t
  write : r.write = true
  awake : s.link.selfRefresh = false

theorem Admitted.of_admits {s : State} {t hpa : Nat} {r : Req} (h : admits s t hpa r = true) (hw : r.write = true) : Admitted s t r := by
  unfold admits at h
  simp only [Bool.and_eq_true, Bool.not_eq_true', decide_eq_true_eq, beq_iff_eq] at h
  obtain ⟨⟨⟨⟨⟨⟨_, ht0⟩, _⟩, _⟩, _⟩, _⟩, hawake⟩ := h
  exact ⟨ht0, hw, hawake⟩

/-- Nothing about the line makes a write to it fail or wait. -/
structure PlainLine (s : State) (k : Nat) : Prop where
  working : s.fab.fatal = false
  unlocked : s.lockedUnit (unitOfLine k) = false
  writable : s.fro = false
  lineMode : s.lineEpochMode (k / 4) = false

theorem PlainLine.of_plainLine {s : State} {k : Nat} (h : plainLine s k = true) : PlainLine s k := by
  unfold plainLine at h
  simp only [Bool.and_eq_true, Bool.not_eq_true'] at h
  obtain ⟨⟨⟨⟨hfatal, hlocked⟩, _⟩, hfro⟩, hmode⟩ := h
  exact ⟨hfatal, hlocked, hfro, hmode⟩

theorem sectorOf_line (d : Nat) : d / 64 / 4 = d / 256 := Nat.div_div_eq_div_mul d 64 4
theorem folioOf_sector (d : Nat) : d / 256 / 64 = d / 16384 := Nat.div_div_eq_div_mul d 256 64

/-- The write r has been accepted into the near slot y of its line. -/
structure AcceptedInto (s : State) (r : Req) (y : NearSlot) (u : State) : Prop where
  cch : u.cch = { s.cch with near := Tab.put s.cch.near (nearIx (r.dpa.toNat / 64 / 4)) y, writeback := u.cch.writeback }
  ctxs : u.qos.ctxs = s.qos.ctxs ++ [⟨r, some (r.t0 + 15), .none, 0, 0, s.writeThrough⟩]
  med : u.med = s.med
  link : r.poison = false → u.link = s.link
  map : r.poison = false → r.enables ≠ BitVec.allOnes 64 → u.map = { s.map with onChip := u.map.onChip }
  frame : changesOnly [.time, .out, .events, .regs, .link, .qos, .cch, .map, .pfl, .tly] s u

section
variable {s : State} {t : Nat} {hpa : BitVec 64} {r : Req} (ha : admits s t hpa.toNat r = true) (hw : r.write = true)
  (hline : PlainLine s (r.dpa.toNat / 64)) (hc : s.pfl.clean = false)
  (hslot : (arrived s t).slotReady (r.dpa.toNat / 64) = true)
  (htags : (lookedUp s t r).nearTags (nearIx (r.dpa.toNat / 64 / 4)) = lookedUp s t r)
include ha hw hline hc hslot htags

/-- A write that merges into a near slot, and what it leaves as it was. -/
theorem completes_accepted {a : State} {y : NearSlot} (hq : Quiet (lookedUp s t r) a)
    (hm : (lookedUp s t r).mergeWrite r (r.dpa.toNat / 64) = a.setNear (r.dpa.toNat / 64 / 4) y) :
    completes (.cxlMemWrite t hpa r.data r.enables r.poison) s (AcceptedInto s r y) := by
  obtain ⟨ht0, _, hawake⟩ := Admitted.of_admits ha hw
  have hserve : serveTested (lookedUp s t r) r = accepted (a.setNear (r.dpa.toNat / 64 / 4) y) r := by
    rw [serveTested_of_plain ((lookedUp_keeps s t r (fun v => v.fab.fatal) (fun _ _ => rfl)).trans hline.working)
      ((lookedUp_keeps s t r (fun v => v.lockedUnit _) (fun _ _ => rfl)).trans hline.unlocked)
      ((lookedUp_keeps s t r (fun v => v.fro) (fun _ _ => rfl)).trans hline.writable)
      ((lookedUp_keeps s t r (fun v => v.lineEpochMode _) (fun _ _ => rfl)).trans hline.lineMode)
      ((lookedUp_keeps s t r (fun v => v.pfl.clean) (fun _ _ => rfl)).trans hc), hm]
  generalize hb : a.setNear (r.dpa.toNat / 64 / 4) y = b at hserve
  have hframe : changesOnly [.time, .out, .events, .regs, .qos, .map, .cch] s b := by
    rw [← hb]
    exact changesOnly_mono (by decide) (changesOnly_append (changesOnly_append (changesOnly_lookedUp s t r) hq) (changesOnly_setCch a _))
  have hcch : b.cch = { s.cch with near := Tab.put s.cch.near (nearIx (r.dpa.toNat / 64 / 4)) y } := by
    have h1 : a.cch = s.cch := (hq .cch rfl : a.cch = _).trans (changesOnly_lookedUp s t r .cch rfl)
    rw [← hb, ← h1]
    rfl
  have hnow : b.now = r.t0 := by
    rw [ht0, ← lookedUp_now s t r, ← hb]
    exact (hq .time rfl : a.now = _)
  have hctxs : b.qos.ctxs = s.qos.ctxs := by
    have h1 : a.qos = (lookedUp s t r).qos := hq .qos rfl
    rw [← hb]
    change a.qos.ctxs = _
    rw [h1, lookedUp_qos]
  have hmap : b.map = { s.map with onChip := b.map.onChip } := by
    have h1 : a.map = (lookedUp s t r).map := hq .map rfl
    rw [← hb]
    change a.map = { s.map with onChip := a.map.onChip }
    rw [h1]
    exact lookedUp_map s t r
  have hlink : b.link = s.link := hframe .link rfl
  have hwt : b.writeThrough = s.writeThrough := congrArg (fun p : Persist => p.wt.isSome) (hframe .pfl rfl : b.pfl = s.pfl)
  refine ⟨accepted b r, ?_, ?_, ?_, ?_, ?_, ?_, ?_⟩
  · rw [exec_cxlMemWrite_admitted ha hw (.inr hline.lineMode) hslot, takeIn_of_write hw htags, hserve, wakeGddr_of_awake]
    rw [accepted_selfRefresh, hlink]
    exact hawake
  · rw [accepted_cch, hcch]
  · rw [accepted_ctxs, hctxs, hnow, hwt, Nat.max_eq_right (Nat.le_add_right _ _)]
  · exact (changesOnly_accepted b r .med rfl : (accepted b r).med = b.med).trans (hframe .med rfl)
  · exact fun hp => (accepted_link_of_clean hp).trans hlink
  · intro hp he
    rw [accepted_map_of_partial hp he]
    exact hmap
  · exact changesOnly_mono (by decide) (changesOnly_append hframe (changesOnly_accepted b r))

end

/-- A near line with a write that request r has brought it at time r.t0. -/
def hitSlot (s : State) (x : NearSlot) (r : Req) : NearSlot :=
  { x with
    copy := s.writeCopy x.copy (r.dpa.toNat / 64 % 4) r.data r.enables r.poison, dirtySince := some (x.dirtySince.getD r.t0),
    mask := if x.filling then x.mask ||| maskOf (r.dpa.toNat / 64 % 4) r.enables else x.mask,
    badData := if r.enables = BitVec.allOnes 64 then clearBad x.badData (r.dpa.toNat / 64 % 4) else x.badData }

/-- A written slot takes the write's time from the request. -/
theorem writtenSlot_lookedUp {s : State} {t : Nat} {r : Req} (ht : r.t0 = max s.now t) (x : NearSlot) :
    writtenSlot (lookedUp s t r) x r (r.dpa.toNat / 64 % 4) = hitSlot s x r := by
  have hcopy : (lookedUp s t r).writeCopy x.copy (r.dpa.toNat / 64 % 4) r.data r.enables r.poison =
      s.writeCopy x.copy (r.dpa.toNat / 64 % 4) r.data r.enables r.poison :=
    lookedUp_keeps s t r (fun v => v.writeCopy x.copy (r.dpa.toNat / 64 % 4) r.data r.enables r.poison) (fun _ _ => rfl)
  unfold writtenSlot hitSlot
  rw [hcopy, lookedUp_now, ht]

section
variable {s : State} {t : Nat} {hpa : BitVec 64} {r : Req} (ha : admits s t hpa.toNat r = true) (hw : r.write = true)
  (hline : PlainLine s (r.dpa.toNat / 64)) (hc : s.pfl.clean = false) (hf : s.flip.armed = none)
include ha hw hline hc hf

/-- A write to a line of the near cache. -/
theorem completes_write_near {x : NearSlot} (hx : s.nearAt (r.dpa.toNat / 64 / 4) = some x) (hb : x.badTags = 0) :
    completes (.cxlMemWrite t hpa r.data r.enables r.poison) s (AcceptedInto s r (hitSlot s (warmer x) r)) := by
  have hslot : (arrived s t).slotReady (r.dpa.toNat / 64) = true := slotReady_of_nearAt (s := arrived s t) (x := x) hx
  have htags := nearTags_of_good (s := lookedUp s t r)
    ((lookedUp_keeps s t r (fun v => Tab.find v.cch.near (nearIx (r.dpa.toNat / 64 / 4))) (fun _ _ => rfl)).trans
      (find_near_of_nearAt hx).1) hb
  have hmerge := mergeWrite_of_nearAt (s := lookedUp s t r) (r := r) (k := r.dpa.toNat / 64) (x := x)
    ((lookedUp_keeps s t r (fun v => v.lineEpochMode _) (fun _ _ => rfl)).trans hline.lineMode)
    ((lookedUp_keeps s t r (fun v => v.flip.armed) (fun _ _ => rfl)).trans hf)
    ((lookedUp_keeps s t r (fun v => v.nearAt _) (fun _ _ => rfl)).trans hx)
  rw [writtenSlot_lookedUp (Admitted.of_admits ha hw).t0] at hmerge
  exact completes_accepted ha hw hline hc hslot htags (quiet_nearHit _) hmerge

/-- A write to a line that is stored nowhere. The eviction buffer is as empty of it when the write arrives as before: an entry is
released with time, and comes back with none. -/
theorem completes_write_unwritten (hu : Unwritten s (r.dpa.toNat / 64 / 4)) (hev : (arrived s t).evictAt (r.dpa.toNat / 64 / 4) = none) :
    completes (.cxlMemWrite t hpa r.data r.enables r.poison) s
      (AcceptedInto s r (hitSlot s (freshSlot s (r.dpa.toNat / 64 / 4)) r)) := by
  have hslot : (arrived s t).slotReady (r.dpa.toNat / 64) = true := slotReady_of_empty (s := arrived s t) hu.near
  have hnear : Tab.find (lookedUp s t r).cch.near (nearIx (r.dpa.toNat / 64 / 4)) = none :=
    (lookedUp_keeps s t r (fun v => Tab.find v.cch.near (nearIx (r.dpa.toNat / 64 / 4))) (fun _ _ => rfl)).trans hu.near
  have hlooked : Unwritten (lookedUp s t r) (r.dpa.toNat / 64 / 4) :=
    ⟨hnear, ((quiet_lookedUp s t r).keeps (fun v => v.evictAt _) (fun _ => rfl)).trans hev,
      (lookedUp_keeps s t r (fun v => Tab.find v.cch.board (v.boardIx _)) (fun _ _ => rfl)).trans hu.board,
      (lookedUp_keeps s t r (fun v => v.wbAt _) (fun _ _ => rfl)).trans hu.wb,
      (lookedUp_keeps s t r (fun v => v.inOverlay _) (fun _ _ => rfl)).trans hu.overlay,
      (lookedUp_keeps s t r (fun v => v.noData _) (fun _ _ => rfl)).trans hu.medium⟩
  have hfresh : freshSlot (lookedUp s t r) (r.dpa.toNat / 64 / 4) = freshSlot s (r.dpa.toNat / 64 / 4) :=
    lookedUp_keeps s t r (fun v => freshSlot v _) (fun _ _ => rfl)
  have hl : r.dpa.toNat / 64 / 4 < 2 ^ 35 := by
    have := r.dpa.isLt
    omega
  have hmerge := mergeWrite_of_unwritten (s := lookedUp s t r) (r := r) (k := r.dpa.toNat / 64)
    ((lookedUp_keeps s t r (fun v => v.lineEpochMode _) (fun _ _ => rfl)).trans hline.lineMode)
    ((lookedUp_keeps s t r (fun v => v.flip.armed) (fun _ _ => rfl)).trans hf) hl hlooked
  rw [hfresh, writtenSlot_lookedUp (Admitted.of_admits ha hw).t0] at hmerge
  exact completes_accepted ha hw hline hc hslot (nearTags_of_empty hnear)
    ((quiet_nearMiss _).trans (quiet_boardMiss _)) hmerge

end

/-- Time releases entries of the near eviction buffer, and brings none back. -/
theorem evictAt_arrived_of_none {s : State} {l : Nat} (t : Nat) (h : s.evictAt l = none) : (arrived s t).evictAt l = none := by
  unfold State.evictAt at h ⊢
  rw [List.find?_eq_none] at h ⊢
  intro e he hheld
  refine h e he ?_
  rw [Bool.and_eq_true] at hheld ⊢
  refine ⟨hheld.1, ?_⟩
  have hlate := hheld.2
  unfold State.heldEvict at hlate ⊢
  split
  next d hd =>
    rw [hd] at hlate
    have hle : max s.now t ≤ d := of_decide_eq_true hlate
    exact decide_eq_true (le_trans (le_max_left _ _) hle)
  next => rfl

/-! ## Completions -/

theorem changesOnly_setTq (s : State) (y : Telemetry) : changesOnly [.events, .tq] s { s with tq := y } := by
  intro g hg
  have h0 := same_refl g s
  cases g
  case events | tq => cases hg
  all_goals exact h0

theorem changesOnly_closeLine (s : State) (flush timeout : Bool) : changesOnly [.out, .events, .regs, .tq] s (s.closeLine flush timeout) := by
  unfold State.closeLine
  dsimp only
  split
  · exact changesOnly_refl _ s
  · refine changesOnly_trans (t := if s.tq.openWords.length < 7 then s.bump TQ_STATUS.remainders else s) ?_
      (changesOnly_mono (by decide) (changesOnly_setTq _ _))
    split
    · exact changesOnly_mono (by decide) (quiet_bump s TQ_STATUS.remainders 1 0)
    · exact changesOnly_refl _ s

theorem changesOnly_tqWord (s : State) (w : Word64) (rest : Nat) : changesOnly [.out, .events, .regs, .tq] s (s.tqWord w rest) := by
  have hset : ∀ q, changesOnly [.out, .events, .regs, .tq] s { s with tq := q } :=
    fun q => changesOnly_mono (by decide) (changesOnly_setTq s q)
  unfold State.tqWord
  dsimp only
  split
  · exact changesOnly_trans (hset _) (changesOnly_closeLine _ false false)
  · exact hset _

theorem changesOnly_dropSample (s : State) : changesOnly [.out, .events, .regs, .tq] s s.dropSample := by
  have hdrop : changesOnly [.out, .events, .regs, .tq] s { s.bump TQ_STATUS.dropped with tq :=
      { (s.bump TQ_STATUS.dropped).tq with lostFlag := true, drops := (s.bump TQ_STATUS.dropped).tq.drops + 1 } } :=
    changesOnly_mono (by decide) (changesOnly_append (quiet_bump s TQ_STATUS.dropped 1 0) (changesOnly_setTq _ _))
  unfold State.dropSample
  dsimp only
  split
  · exact changesOnly_trans hdrop (changesOnly_mono (by decide) (changesOnly_append (changesOnly_setTq _ _) (quiet_ev 0x5AB 0 _ 4 _)))
  · exact hdrop

theorem changesOnly_placeSample (s : State) (w0 w1 w2 : Word64) : changesOnly [.out, .events, .regs, .tq] s (s.placeSample w0 w1 w2) := by
  unfold State.placeSample
  split
  · exact changesOnly_trans (changesOnly_trans (changesOnly_tqWord s w0 3) (changesOnly_tqWord _ w1 2)) (changesOnly_tqWord _ w2 1)
  · exact changesOnly_dropSample s

theorem changesOnly_setSample (s : State) (n : Nat) (y : Telemetry) :
    changesOnly [.out, .events, .regs, .tq] s { s with fresh := n, tq := y } :=
  changesOnly_mono (by decide) (changesOnly_append (changesOnly_setFresh s n) (changesOnly_setTq _ y))

theorem changesOnly_sampleReq (s : State) (r : Req) (src : Src) (ns : Nat) :
    changesOnly [.out, .events, .regs, .tq] s (s.sampleReq r src ns) := by
  unfold State.sampleReq
  extract_lets n sampled
  split
  · exact changesOnly_refl _ s
  · split
    · exact changesOnly_mono (by decide) (changesOnly_setTq s _)
    · exact changesOnly_trans (changesOnly_setSample s _ _) (changesOnly_placeSample _ _ _ _)

/-- A request leaves its class's measure and its context. -/
def freed (s : State) (r : Req) (ns : Nat) : State :=
  let c := s.clsState r.cls
  let s1 := s.setCls r.cls { c with recent := c.recent ++ [⟨max s.now (r.t0 + ns), ns, r.write⟩] }
  { s1 with qos := { s1.qos with ctxs := s1.qos.ctxs.filter (fun x => x.req.id != r.id) } }

/-- A completed write's bytes are counted. -/
def bytesWritten (s : State) (r : Req) : State :=
  let w := s.bump QOS_CLASS_WRBYTES.bytes 64 r.cls
  count 3 64 (some r.pmu) { w with tly := { w.tly with bytesWr := w.tly.bytesWr + 64 } }

theorem complete_of_write {s : State} {r : Req} (hw : r.write = true) (src : Src) (ns : Nat) :
    s.complete r src ns = (bytesWritten (freed s r ns) r).sampleReq r src ns := by
  have hthen : (if r.write then bytesWritten (freed s r ns) r
      else count (0x10 + pathCode src) 1 (some r.pmu) (count 2 64 (some r.pmu)
        { (freed s r ns).bump QOS_CLASS_RDBYTES.bytes 64 r.cls with tly :=
          { ((freed s r ns).bump QOS_CLASS_RDBYTES.bytes 64 r.cls).tly with
            bytesRd := ((freed s r ns).bump QOS_CLASS_RDBYTES.bytes 64 r.cls).tly.bytesRd + 64 } })) =
      bytesWritten (freed s r ns) r := if_pos hw
  rw [← hthen]
  rfl

theorem changesOnly_bytesWritten (s : State) (r : Req) : changesOnly [.out, .events, .regs, .tly] s (bytesWritten s r) :=
  changesOnly_mono (by decide) (changesOnly_append (changesOnly_append (quiet_bump s QOS_CLASS_WRBYTES.bytes 64 r.cls)
    (changesOnly_setTly _ _)) (quiet_count 3 64 (some r.pmu) _))

section
variable {s : State} {r : Req} (hw : r.write = true) (src : Src) (ns : Nat)
include hw

theorem changesOnly_complete : changesOnly [.qos, .out, .events, .regs, .tly, .tq] s (s.complete r src ns) := by
  rw [complete_of_write hw]
  exact changesOnly_mono (by decide) (changesOnly_append (changesOnly_append (changesOnly_setQos s (freed s r ns).qos)
    (changesOnly_bytesWritten _ r)) (changesOnly_sampleReq _ r src ns))

theorem complete_ctxs : (s.complete r src ns).qos.ctxs = s.qos.ctxs.filter (fun x => x.req.id != r.id) := by
  have h1 : ((bytesWritten (freed s r ns) r).sampleReq r src ns).qos = (bytesWritten (freed s r ns) r).qos :=
    changesOnly_sampleReq _ r src ns .qos rfl
  have h2 : (bytesWritten (freed s r ns) r).qos = (freed s r ns).qos := changesOnly_bytesWritten _ r .qos rfl
  rw [complete_of_write hw, h1, h2]
  rfl

theorem complete_tly : (s.complete r src ns).tly = { s.tly with bytesWr := s.tly.bytesWr + 64 } := by
  have h1 : ((bytesWritten (freed s r ns) r).sampleReq r src ns).tly = (bytesWritten (freed s r ns) r).tly :=
    changesOnly_sampleReq _ r src ns .tly rfl
  rw [complete_of_write hw, h1]
  unfold bytesWritten
  dsimp only
  rw [count_tly, State.bump_tly]
  rfl

end

/-! ## Writes that are discarded by design -/

theorem changesOnly_setKey (s : State) (y : Keys) : changesOnly [.key] s { s with key := y } := by
  intro g hg
  have h0 := same_refl g s
  cases g
  case key => cases hg
  all_goals exact h0

theorem changesOnly_noteLocked (s : State) (u : Nat) : changesOnly [.out, .events, .regs, .key] s (s.noteLocked u) := by
  unfold State.noteLocked
  dsimp only
  split
  · exact changesOnly_mono (by decide) (changesOnly_append (changesOnly_setKey s _) (quiet_ev 0x40F 1 _ 3 _))
  · exact changesOnly_mono (by decide) (changesOnly_setKey s _)

theorem changesOnly_noteFro (s : State) : changesOnly [.out, .events, .regs, .med] s s.noteFro := by
  have hb := quiet_bump s MED_FRO_DROPS.writes 1 0
  unfold State.noteFro
  dsimp only
  split
  · exact changesOnly_mono (by decide) (changesOnly_append (changesOnly_append hb (changesOnly_setMed _ _)) (quiet_ev 0x186 1 _ 4 _))
  · exact changesOnly_mono (by decide) (changesOnly_append hb (changesOnly_setMed _ _))

theorem noteFro_store (s : State) : s.noteFro.med.store = s.med.store := by
  unfold State.noteFro
  dsimp only
  split
  · change (s.bump MED_FRO_DROPS.writes).med.store = _
    rw [State.bump_med]
  · change (s.bump MED_FRO_DROPS.writes).med.store = _
    rw [State.bump_med]

theorem changesOnly_noteEarly (s : State) : changesOnly [.out, .events, .link] s s.noteEarly := by
  unfold State.noteEarly
  dsimp only
  split
  · exact changesOnly_mono (by decide) (changesOnly_append (changesOnly_setLink s _) (changesOnly_ev 0x011 1 _ 2 _))
  · exact changesOnly_mono (by decide) (changesOnly_setLink s _)

theorem changesOnly_noteUnclaimed (s : State) (hpa : Nat) (write : Bool) :
    changesOnly [.out, .events, .link] s (s.noteUnclaimed hpa write) := by
  unfold State.noteUnclaimed
  dsimp only
  split
  · exact changesOnly_mono (by decide) (changesOnly_append (changesOnly_setLink s _) (changesOnly_ev 0x010 1 _ 2 _))
  · exact changesOnly_mono (by decide) (changesOnly_setLink s _)

theorem changesOnly_discard {s : State} {r : Req} (hw : r.write = true) (poison : Bool) :
    changesOnly [.qos, .out, .events, .regs, .tly, .tq] s (s.discard r poison) :=
  changesOnly_mono (by decide) (changesOnly_append (changesOnly_complete hw _ _) (changesOnly_out _ _))

theorem discard_sent (s : State) (r : Req) (poison : Bool) :
    (s.discard r poison).sent.getLast? = some (.writeDone r.id false poison .lightLoad) := List.getLast?_concat

theorem turnAway_sent (s : State) (id : Nat) : (s.turnAway id true).sent.getLast? = some (.writeDone id false false .lightLoad) :=
  List.getLast?_concat

theorem pastEpochs_of_discarded {s : State} {r : Req} (h : s.fro = true ∨ s.lockedUnit (unitOfLine (r.dpa.toNat / 64)) = true) :
    PastEpochs s r := by
  have hunit : unitOf r.dpa.toNat = unitOfLine (r.dpa.toNat / 64) := (Nat.div_div_eq_div_mul r.dpa.toNat 64 4194304).symm
  refine .inl ?_
  unfold State.writeDiscarded
  rw [hunit]
  obtain h | h := h
  · rw [h, Bool.or_true, Bool.true_or]
  · rw [h, Bool.true_or, Bool.true_or]

/-- An admitted write whose tests end in a discard. -/
theorem exec_cxlMemWrite_discard {s x : State} {t : Nat} {hpa : BitVec 64} {r : Req} {p : Bool} (ha : admits s t hpa.toNat r = true)
    (hw : r.write = true) (hn : Tab.find s.cch.near (nearIx (r.dpa.toNat / 64 / 4)) = none) (hpast : PastEpochs s r)
    (hx : serveTested (lookedUp s t r) r = x.discard r p) (hlink : x.link = s.link) :
    exec (.cxlMemWrite t hpa r.data r.enables r.poison) s = .next (x.discard r p) := by
  have htags := nearTags_of_empty (s := lookedUp s t r) (ix := nearIx (r.dpa.toNat / 64 / 4))
    ((lookedUp_keeps s t r (fun v => Tab.find v.cch.near _) (fun _ _ => rfl)).trans hn)
  have hlink' : (x.discard r p).link = s.link := (changesOnly_discard hw p .link rfl : (x.discard r p).link = x.link).trans hlink
  rw [exec_cxlMemWrite_admitted ha hw hpast (slotReady_of_empty (s := arrived s t) hn), takeIn_of_write hw htags, hx, wakeGddr_of_awake]
  rw [hlink']
  exact (Admitted.of_admits ha hw).awake

/-- A write that is discarded by design completes last, and stores nothing. -/
theorem completes_discarded {s : State} {t : Nat} {hpa : BitVec 64} {r : Req} (ha : admits s t hpa.toNat r = true) (hw : r.write = true)
    (hf : s.fab.fatal = false) (hn : Tab.find s.cch.near (nearIx (r.dpa.toNat / 64 / 4)) = none)
    (hd : s.fro = true ∨ s.lockedUnit (unitOfLine (r.dpa.toNat / 64)) = true) :
    completes (.cxlMemWrite t hpa r.data r.enables r.poison) s (fun u => u.sent.getLast? = some (.writeDone r.id false
      (s.fro && !s.lockedUnit (unitOfLine (r.dpa.toNat / 64)) && s.fencedSector (r.dpa.toNat / 64 / 4)) .lightLoad) ∧
      u.med.store = s.med.store ∧ changesOnly [.time, .out, .events, .regs, .qos, .map, .med, .key, .tly, .tq] s u) := by
  have hlooked := changesOnly_lookedUp s t r
  have hpast := pastEpochs_of_discarded hd
  have hfatal : (lookedUp s t r).fab.fatal = false := (lookedUp_keeps s t r (fun v => v.fab.fatal) (fun _ _ => rfl)).trans hf
  have hlock := lookedUp_keeps s t r (fun v => v.lockedUnit (unitOfLine (r.dpa.toNat / 64))) (fun _ _ => rfl)
  have hstore : ∀ (x : State) (p : Bool), x.med.store = s.med.store → (x.discard r p).med.store = s.med.store :=
    fun x p hx => (congrArg Media.store (changesOnly_discard hw p .med rfl : (x.discard r p).med = x.med)).trans hx
  have hmed : (lookedUp s t r).med.store = s.med.store := congrArg Media.store (hlooked .med rfl)
  cases hl : s.lockedUnit (unitOfLine (r.dpa.toNat / 64)) with
  | true =>
    have hnote := changesOnly_noteLocked (lookedUp s t r) (unitOfLine (r.dpa.toNat / 64))
    refine ⟨_, exec_cxlMemWrite_discard ha hw hn hpast (serveTested_of_locked hfatal (hlock.trans hl)) ((hnote .link rfl).trans (hlooked .link rfl)),
      ?_, hstore _ false ((congrArg Media.store (hnote .med rfl)).trans hmed), ?_⟩
    · rw [discard_sent, Bool.not_true, Bool.and_false, Bool.false_and]
    · exact changesOnly_mono (by decide) (changesOnly_append (changesOnly_append hlooked hnote) (changesOnly_discard hw false))
  | false =>
    have hfro : s.fro = true := hd.resolve_right (by rw [hl]; exact Bool.false_ne_true)
    have hnote := changesOnly_noteFro (lookedUp s t r)
    refine ⟨_, exec_cxlMemWrite_discard ha hw hn hpast (serveTested_of_fro hfatal (hlock.trans hl)
      ((lookedUp_keeps s t r (fun v => v.fro) (fun _ _ => rfl)).trans hfro)) ((hnote .link rfl).trans (hlooked .link rfl)),
      ?_, hstore _ _ ((noteFro_store _).trans hmed), ?_⟩
    · rw [discard_sent, hfro, lookedUp_keeps s t r (fun v => v.fencedSector (r.dpa.toNat / 64 / 4)) (fun _ _ => rfl)]
      rfl
    · exact changesOnly_mono (by decide) (changesOnly_append (changesOnly_append hlooked hnote) (changesOnly_discard hw _))

/-- A write that no context serves is turned away. -/
theorem completes_turnedAway {s : State} (hs : TakesWrites s) (t : Nat) (hpa : BitVec 64) (d : Line) (e : Enables) (p : Bool)
    (h : s.memReady = false ∨ s.decodeHpa hpa.toNat = none) :
    completes (.cxlMemWrite t hpa d e p) s (fun u => u.sent.getLast? = some (.writeDone s.qos.nextId false false .lightLoad) ∧
      changesOnly [.time, .out, .events, .qos, .link] s u) := by
  have hframe : ∀ x, changesOnly [.out, .events, .link] (arrived s t) x →
      changesOnly [.time, .out, .events, .qos, .link] s (x.turnAway s.qos.nextId true) := fun x hx =>
    changesOnly_mono (by decide) (changesOnly_append (changesOnly_append (changesOnly_arrived s t) hx) (changesOnly_out x _))
  cases hready : s.memReady with
  | false => exact ⟨_, exec_cxlMemWrite_early hs t hpa d e p hready, turnAway_sent _ _, hframe _ (changesOnly_noteEarly _)⟩
  | true =>
    have hdec : s.decodeHpa hpa.toNat = none := h.resolve_left (by rw [hready]; exact Bool.noConfusion)
    exact ⟨_, exec_cxlMemWrite_unclaimed hs t hpa d e p hready hdec, turnAway_sent _ _, hframe _ (changesOnly_noteUnclaimed _ _ _)⟩

/-- Without credit, or with the link closed to it, a write does not arrive. -/
theorem exec_cxlMemWrite_noCredit {s : State} (t : Nat) (hpa : BitVec 64) (d : Line) (e : Enables) (p : Bool)
    (h : s.cxlUp = false ∨ s.link.ideBlocked = true ∨ 512 ≤ s.heldKind true) :
    exec (.cxlMemWrite t hpa d e p) s = .next (s.tick t) := by
  refine congrArg Host.Outcome.next (if_pos ?_)
  change (!s.cxlUp || s.link.ideBlocked || decide (512 ≤ s.heldKind true)) = true
  obtain h | h | h := h
  · rw [h, Bool.not_false, Bool.true_or, Bool.true_or]
  · rw [h, Bool.or_true, Bool.true_or]
  · rw [decide_eq_true h, Bool.or_true]

/-! ## Write completions -/

section
variable {s : State} {t id a : Nat} {c : Ctx} (hc : s.qos.ctxs.find? (fun c => c.req.id == id && c.req.write) = some c)
  (ha : c.acceptedAt = some a)
include hc ha

theorem exec_writeCompletion_early (h : max s.now t < s.dueAt a ∨ c.logWait = true) :
    exec (.writeCompletion t id) s = .next (s.tick t) := by
  have hwait : (decide ((s.tick t).now < (s.tick t).dueAt a) || c.logWait) = true := by
    obtain h | h := h
    · have hlt : (s.tick t).now < (s.tick t).dueAt a := h
      rw [decide_eq_true hlt, Bool.true_or]
    · rw [h, Bool.or_true]
  change execWriteCompletion t id s = _
  unfold execWriteCompletion
  dsimp only
  rw [State.tick_qos, hc]
  dsimp only
  rw [ha]
  exact if_pos hwait

theorem exec_writeCompletion_due (hl : c.logWait = false) (h : s.dueAt a ≤ max s.now t) :
    exec (.writeCompletion t id) s =
      .next (((s.tick t).complete c.req .none (max s.now t - c.req.t0)).out (.writeDone id true false devLoad)) := by
  have hdue : ¬ (decide ((s.tick t).now < (s.tick t).dueAt a) || c.logWait) = true := by
    have hge : ¬ (s.tick t).now < (s.tick t).dueAt a := Nat.not_lt.2 h
    rw [decide_eq_false hge, hl]
    exact Bool.false_ne_true
  change execWriteCompletion t id s = _
  unfold execWriteCompletion
  dsimp only
  rw [State.tick_qos, hc]
  dsimp only
  rw [ha]
  exact if_neg hdue

end

theorem exec_writeCompletion_none {s : State} (t id : Nat) (h : s.qos.ctxs = []) : exec (.writeCompletion t id) s = .next (s.tick t) := by
  change execWriteCompletion t id s = _
  unfold execWriteCompletion
  dsimp only
  rw [State.tick_qos, h]
  rfl

theorem clearBad_zero (i : Nat) : clearBad 0 i = 0 := BitVec.zero_and

/-- The slot of a first write holds the written line, dirty since the write arrived. -/
theorem hitSlot_freshSlot (s : State) (r : Req) (l : Nat) : hitSlot s (freshSlot s l) r =
    ⟨s.writeCopy (s.blankCopy l 0) (r.dpa.toNat / 64 % 4) r.data r.enables r.poison, some r.t0, false, 0, 0, 0, 0⟩ := by
  unfold hitSlot freshSlot
  dsimp only
  rw [clearBad_zero, ite_self]
  rfl

/-- Settles O46: an admitted write is served on a card that only the request's own counts tell from the one it was sent to, so the
slot that it merges into is the statement's; the completions follow from the rules of a context's end. -/
theorem memoryWrites : Obligations.MemoryWrites := by
  refine ⟨?_, ?_, ?_, ?_, ?_, ?_, ?_, ?_⟩
  · intro t hpa r x s ha hw hp hx hb hc hf
    rw [← sectorOf_line] at hx ⊢
    obtain ⟨u, hu, h⟩ := completes_write_near ha hw (.of_plainLine hp) hc hf hx hb
    exact ⟨u, hu, h.cch, h.ctxs, h.med, h.link, h.map, h.frame⟩
  · intro t hpa r s ha hw hp hn hev hbd hwb ho hd hc hf
    rw [← folioOf_sector] at hd
    rw [← sectorOf_line] at hn hev hbd hwb ho hd ⊢
    obtain ⟨u, hu, h⟩ := completes_write_unwritten ha hw (.of_plainLine hp) hc hf ⟨hn, hev, hbd, hwb, ho, hd⟩
      (evictAt_arrived_of_none t hev)
    rw [hitSlot_freshSlot] at h
    exact ⟨u, hu, h.cch, h.ctxs, h.link, h.frame⟩
  · intro t hpa r s ha hw hf hn hd
    rw [← sectorOf_line] at hn ⊢
    obtain ⟨u, hu, hsent, hstore, hframe⟩ := completes_discarded ha hw hf hn hd
    exact ⟨u, hu, hsent, hframe .cch rfl, hstore, hframe .pfl rfl, hframe⟩
  · intro t hpa d e p s hup hide hroom hstop h
    exact completes_turnedAway ⟨hup, hide, hroom, hstop⟩ t hpa d e p h
  · exact fun t hpa d e p s h => exec_cxlMemWrite_noCredit t hpa d e p h
  · intro t id a c s hc ha hl hdue
    have hfound := List.find?_some hc
    rw [Bool.and_eq_true, beq_iff_eq] at hfound
    obtain ⟨hid, hw⟩ := hfound
    refine ⟨_, exec_writeCompletion_due hc ha hl hdue, List.getLast?_concat, ?_, ?_, ?_⟩
    · rw [State.out_qos, complete_ctxs hw, hid, State.tick_qos]
    · rw [State.out_tly, complete_tly hw, State.tick_tly]
    · exact changesOnly_mono (by decide) (changesOnly_of_tick (changesOnly_append (changesOnly_complete hw _ _) (changesOnly_out _ _)))
  · exact fun t id a c s hc ha h => exec_writeCompletion_early hc ha h
  · exact fun t id s h => exec_writeCompletion_none t id h

end Sys2Proof.Proofs
end

section
/-! PROOFS of the statements about the request path and the guarantees of the classes (03_request_path_and_guarantees). -/

namespace Sys2Proof.Proofs

open Sys2Proof Sys2Proof.Machine Sys2Proof.Safety Sys2Proof.Laws

/-! ## The state of a class -/

@[simp] theorem length_setCls (s : State) (n : Nat) (c : ClsState) : (s.setCls n c).qos.cls.length = s.qos.cls.length :=
  List.length_set

theorem reg_setCls (s : State) (n : Nat) (c : ClsState) (f : Fld) (i : Nat) : (s.setCls n c).reg f i = s.reg f i := rfl

theorem clsState_setCls_same {s : State} {n : Nat} (h : n < s.qos.cls.length) (c : ClsState) : (s.setCls n c).clsState n = c :=
  getD_setAt_same h c _

theorem clsState_setCls_other {s : State} {m n : Nat} (h : m ≠ n) (c : ClsState) : (s.setCls n c).clsState m = s.clsState m := by
  simp [State.clsState, State.setCls, setAt, List.getD_eq_getElem?_getD, List.getElem?_set_ne h.symm]

/-- An operation on the classes: it raises events, and of the request path it changes the states of the classes alone. -/
structure OnlyClasses (s u : State) : Prop where
  qos : u.qos = { s.qos with cls := u.qos.cls }
  frame : changesOnly [.out, .events, .qos] s u

theorem OnlyClasses.refl (s : State) : OnlyClasses s s := ⟨rfl, changesOnly_refl _ s⟩

theorem OnlyClasses.trans {s t u : State} (h : OnlyClasses s t) (k : OnlyClasses t u) : OnlyClasses s u where
  qos := k.qos.trans (congrArg (fun q : Qos => { q with cls := u.qos.cls }) h.qos)
  frame := changesOnly_trans h.frame k.frame

/-- A class's state is set, and an event tells of it. -/
theorem OnlyClasses.ev_setCls (src sev : Nat) (data : List Nat) (region : Nat) (s : State) (n : Nat) (c : ClsState) :
    OnlyClasses s (ev src sev data region (s.setCls n c)) where
  qos := rfl
  frame := changesOnly_mono (by decide) (changesOnly_append (changesOnly_setQos s _) (changesOnly_ev _ _ _ _ _))

/-! ## Escalation (R66, Table 3-4) -/

theorem nextLevel_le (level p99 target : Nat) : nextLevel level p99 target ≤ level + 1 := by
  unfold nextLevel
  extract_lets rise fall
  split
  · exact Nat.le_refl _
  · split <;> omega

/-- What an evaluation makes of class n. -/
def escalated (s : State) (n : Nat) : ClsState :=
  { s.clsState n with
    p99 := s.trailing n
    level := if (s.clsState n).suspended then 0 else nextLevel (s.clsState n).level (s.trailing n) (s.classEntry n).target }

theorem escalateOne_eq (s : State) (n : Nat) : escalateOne s n = s.setCls n (escalated s n) := rfl

theorem escalated_level_le (s : State) (n : Nat) : (escalated s n).level ≤ (s.clsState n).level + 1 := by
  dsimp only [escalated]
  split
  · exact Nat.zero_le _
  · exact nextLevel_le _ _ _

/-- The evaluation of a class looks at no other class. -/
theorem escalated_setCls_other {s : State} {m n : Nat} (h : m ≠ n) (c : ClsState) : escalated (s.setCls n c) m = escalated s m := by
  have hcls := clsState_setCls_other (s := s) h c
  have htrail : (s.setCls n c).trailing m = s.trailing m := by
    unfold State.trailing
    rw [hcls]
    rfl
  unfold escalated
  rw [hcls, htrail]
  rfl

theorem clsState_foldl_escalateOne_of_notMem {l : List Nat} {n : Nat} (h : n ∉ l) (s : State) :
    (l.foldl escalateOne s).clsState n = s.clsState n := by
  induction l generalizing s with
  | nil => rfl
  | cons m l ih =>
    rw [List.mem_cons, not_or] at h
    obtain ⟨hm, hl⟩ := h
    exact (ih hl _).trans (clsState_setCls_other hm _)

/-- Classes that are evaluated in turn end as each would on its own. -/
theorem clsState_foldl_escalateOne_of_mem {l : List Nat} {n : Nat} {s : State} (hl : l.Nodup) (hn : n ∈ l) (h : n < s.qos.cls.length) :
    (l.foldl escalateOne s).clsState n = escalated s n := by
  induction l generalizing s with
  | nil => cases hn
  | cons m l ih =>
    obtain ⟨hm, hl⟩ := List.nodup_cons.1 hl
    rw [List.foldl_cons, escalateOne_eq]
    by_cases e : n = m
    · subst e
      rw [clsState_foldl_escalateOne_of_notMem hm, clsState_setCls_same h]
    · rw [ih hl (List.mem_of_ne_of_mem e hn) (by rwa [length_setCls]), escalated_setCls_other e]

/-- An evaluation changes nothing but the states of the classes. -/
theorem foldl_escalateOne_eq (l : List Nat) (s : State) :
    l.foldl escalateOne s = { s with qos := { s.qos with cls := (l.foldl escalateOne s).qos.cls } } := by
  induction l generalizing s with
  | nil => rfl
  | cons n l ih => exact ih (escalateOne s n)

/-- The dies that start an operation are all that a scheduling round changes. -/
theorem kick_eq (s : State) :
    s.kick = { s with med := { s.med with dies := s.kick.med.dies, usedAt := s.kick.med.usedAt, waking := s.kick.med.waking } } := by
  unfold State.kick
  split <;> rfl

/-- The evaluation of all classes, and the operations that start after it. -/
def escalatedAll (s : State) : State := ((List.range 8).foldl escalateOne s).kick

theorem exec_escalationEvaluation {s : State} (t : Nat) (h : s.link.memActive = true) :
    exec (.escalationEvaluation t) s = .next (escalatedAll (s.tick t)) := congrArg Host.Outcome.next (if_pos h)

theorem clsState_escalatedAll {s : State} (n : Fin 8) (h : s.qos.cls.length = 8) :
    (escalatedAll s).clsState n.val = escalated s n.val := by
  have hkick : (escalatedAll s).clsState n.val = ((List.range 8).foldl escalateOne s).clsState n.val := by
    unfold escalatedAll
    rw [kick_eq]
    rfl
  exact hkick.trans (clsState_foldl_escalateOne_of_mem List.nodup_range (List.mem_range.2 n.isLt) (n.isLt.trans_eq h.symm))

theorem escalatedAll_eq (s : State) :
    escalatedAll s = { s with
      qos := { s.qos with cls := (escalatedAll s).qos.cls }
      med := { s.med with
        dies := (escalatedAll s).med.dies, usedAt := (escalatedAll s).med.usedAt, waking := (escalatedAll s).med.waking } } := by
  have hkick := kick_eq ((List.range 8).foldl escalateOne s)
  rw [foldl_escalateOne_eq] at hkick
  unfold escalatedAll
  rw [foldl_escalateOne_eq, hkick]

theorem changesOnly_escalatedAll (s : State) : changesOnly [.qos, .med] s (escalatedAll s) := by
  rw [escalatedAll_eq]
  exact changesOnly_append (changesOnly_setQos s _) (changesOnly_setMed { s with qos := { s.qos with cls := (escalatedAll s).qos.cls } } _)

/-! ## Class windows (R65, R67, R71) -/

theorem reg_bump {s : State} {f : Fld} {k i : Nat} (h : s.reg f i + k < f.size) : (s.bump f k i).reg f i = s.reg f i + k := by
  unfold State.bump
  rw [if_pos h, reg_setReg, Nat.mod_eq_of_lt h]

theorem reg_bump_other {s : State} {f g : Fld} {k i j : Nat} (h : g.key j ≠ f.key i) : (s.bump f k i).reg g j = s.reg g j := by
  unfold State.bump
  split
  · exact reg_setReg_other _ _ _ _ _ _ h
  · exact reg_setReg_other { s with fresh := s.fresh + 1 } _ _ _ _ _ h

/-- A field that is no event register is left by an event. -/
theorem reg_ev {f : Fld} {i : Nat} (h : eventKey (f.key i) = false) (src sev : Nat) (data : List Nat) (region : Nat) (s : State) :
    (ev src sev data region s).reg f i = s.reg f i := by
  unfold State.reg Tab.findD
  rw [regsBut_ev src sev data region s _ h rfl]

/-- The completions of class n in its present window. -/
def inWindow (s : State) (n : Nat) : List Meas :=
  (s.clsState n).recent.filter
    (fun m => decide ((s.clsState n).winStart ≤ m.at_) && decide (m.at_ < (s.clsState n).winStart + s.windowNs n))

/-- Class n with its next window begun. -/
def nextWindow (s : State) (n : Nat) : ClsState :=
  { s.clsState n with
    winStart := (s.clsState n).winStart + s.windowNs n
    recent := (s.clsState n).recent.filter
      (fun m => decide ((s.clsState n).winStart + s.windowNs n ≤ m.at_ + s.windowNs n)) }

/-- The window's bandwidths are in their registers, and the next window has begun. -/
def windowClosed (s : State) (n : Nat) : State :=
  ((s.setReg QOS_CLASS_WINBW.win_read_mbps (lineMbps ((inWindow s n).filter (fun m => !m.write)).length (s.windowNs n)) n).setReg
    QOS_CLASS_WINBW.win_write_mbps (lineMbps ((inWindow s n).filter (fun m => m.write)).length (s.windowNs n)) n).setCls
    n (nextWindow s n)

/-- The window is counted as one that missed the target. -/
def windowMissed (s : State) (n : Nat) : State := (windowClosed s n).bump QOS_CLASS_MISSED.missed_windows 1 n

/-- The miss of class n is marked, in QOS_SUSPEND and with its time. -/
def missMarked (s : State) (n : Nat) : State :=
  ((windowMissed s n).setReg QOS_SUSPEND.missed ((windowMissed s n).reg QOS_SUSPEND.missed ||| 2 ^ n)).setCls
    n { nextWindow s n with missedAt := some s.now }

section
variable {t : Nat} {n : Fin 8} {s : State}

/-- The window of class n has run its length. -/
structure WindowOver (s : State) (n t : Nat) : Prop where
  active : s.link.memActive = true
  due : (s.clsState n).winStart + s.windowNs n ≤ max s.now t

theorem WindowOver.guard (h : WindowOver s n.val t) :
    ¬(!(s.tick t).link.memActive ||
      decide ((s.tick t).now < ((s.tick t).clsState n.val).winStart + (s.tick t).windowNs n.val)) = true := by
  have hdue : ¬ (s.tick t).now < ((s.tick t).clsState n.val).winStart + (s.tick t).windowNs n.val := Nat.not_lt.2 h.due
  rw [State.tick_link, h.active, decide_eq_false hdue]
  decide

theorem exec_classWindowClose_thin (h : WindowOver s n.val t) (hthin : (inWindow (s.tick t) n.val).length < 100) :
    exec (.classWindowClose t n) s = .next ((windowClosed (s.tick t) n.val).bump QOS_CLASS_MISSED.thin_windows 1 n.val) :=
  (if_neg h.guard).trans (if_pos hthin)

theorem exec_classWindowClose_missed (h : WindowOver s n.val t) (hfull : 100 ≤ (inWindow (s.tick t) n.val).length)
    (hmiss : (s.classEntry n.val).target < p99Of ((inWindow (s.tick t) n.val).map (·.ns)))
    (hs : (s.clsState n.val).suspended = false) :
    exec (.classWindowClose t n) s = .next (ev (0x080 + n.val) 1
      [p99Of ((inWindow (s.tick t) n.val).map (·.ns)), (s.classEntry n.val).target, (inWindow (s.tick t) n.val).length] 4
      (missMarked (s.tick t) n.val)) := by
  have hs : ¬ ((s.tick t).clsState n.val).suspended = true := ne_true_of_eq_false hs
  exact (if_neg h.guard).trans ((if_neg (Nat.not_lt.2 hfull)).trans ((if_neg (Nat.not_le.2 hmiss)).trans (if_neg hs)))

end

theorem eventKey_win_read_mbps : ∀ n : Fin 8, eventKey (QOS_CLASS_WINBW.win_read_mbps.key n.val) = false := by decide

theorem eventKey_win_write_mbps : ∀ n : Fin 8, eventKey (QOS_CLASS_WINBW.win_write_mbps.key n.val) = false := by decide

theorem eventKey_thin_windows : ∀ n : Fin 8, eventKey (QOS_CLASS_MISSED.thin_windows.key n.val) = false := by decide

theorem eventKey_missed_windows : ∀ n : Fin 8, eventKey (QOS_CLASS_MISSED.missed_windows.key n.val) = false := by decide

theorem changesOnly_windowClosed (s : State) (n : Fin 8) : changesOnly [.regs, .qos] s (windowClosed s n.val) :=
  changesOnly_mono (by decide) (changesOnly_append (changesOnly_append (changesOnly_setReg s _ _ _ (eventKey_win_read_mbps n))
    (changesOnly_setReg _ _ _ _ (eventKey_win_write_mbps n))) (changesOnly_setQos _ _))

theorem changesOnly_windowMissed (s : State) (n : Fin 8) : changesOnly [.regs, .events, .qos] s (windowMissed s n.val) :=
  changesOnly_mono (by decide) (changesOnly_append (changesOnly_windowClosed s n)
    (changesOnly_bump _ _ _ _ (eventKey_missed_windows n)))

theorem changesOnly_missMarked (s : State) (n : Fin 8) : changesOnly [.regs, .events, .qos] s (missMarked s n.val) :=
  changesOnly_mono (by decide) (changesOnly_append (changesOnly_append (changesOnly_windowMissed s n)
    (changesOnly_setReg _ _ _ _ (by decide))) (changesOnly_setQos _ _))

theorem clsState_windowClosed {s : State} {n : Nat} (h : n < s.qos.cls.length) : (windowClosed s n).clsState n = nextWindow s n :=
  clsState_setCls_same h _

theorem clsState_missMarked {s : State} {n : Nat} (h : n < s.qos.cls.length) :
    (missMarked s n).clsState n = { nextWindow s n with missedAt := some s.now } := by
  refine clsState_setCls_same ?_ _
  rw [State.setReg_qos, windowMissed, State.bump_qos]
  exact (length_setCls _ _ _).symm ▸ h

theorem thin_windows_windowClosed (s : State) (n : Nat) :
    (windowClosed s n).reg QOS_CLASS_MISSED.thin_windows n = s.reg QOS_CLASS_MISSED.thin_windows n := by
  have hread : QOS_CLASS_MISSED.thin_windows.key n ≠ QOS_CLASS_WINBW.win_read_mbps.key n := by
    simp only [Fld.key, QOS_CLASS_MISSED.thin_windows, QOS_CLASS_WINBW.win_read_mbps]
    omega
  have hwrite : QOS_CLASS_MISSED.thin_windows.key n ≠ QOS_CLASS_WINBW.win_write_mbps.key n := by
    simp only [Fld.key, QOS_CLASS_MISSED.thin_windows, QOS_CLASS_WINBW.win_write_mbps]
    omega
  unfold windowClosed
  rw [reg_setCls, reg_setReg_other _ _ _ _ _ _ hwrite, reg_setReg_other _ _ _ _ _ _ hread]

theorem win_read_mbps_windowClosed (s : State) (n : Nat) :
    (windowClosed s n).reg QOS_CLASS_WINBW.win_read_mbps n =
      lineMbps ((inWindow s n).filter (fun m => !m.write)).length (s.windowNs n) % QOS_CLASS_WINBW.win_read_mbps.size := by
  have hwrite : QOS_CLASS_WINBW.win_read_mbps.key n ≠ QOS_CLASS_WINBW.win_write_mbps.key n := by
    simp only [Fld.key, QOS_CLASS_WINBW.win_read_mbps, QOS_CLASS_WINBW.win_write_mbps]
    omega
  unfold windowClosed
  rw [reg_setCls, reg_setReg_other _ _ _ _ _ _ hwrite, reg_setReg]

theorem lineMbps_zero (w : Nat) : lineMbps 0 w = 0 := by simp [lineMbps]

/-- An empty window gave no bandwidth, and that stands when the window has been counted as thin. -/
theorem win_read_mbps_of_empty {s : State} {n : Nat} (h : inWindow s n = []) :
    ((windowClosed s n).bump QOS_CLASS_MISSED.thin_windows 1 n).reg QOS_CLASS_WINBW.win_read_mbps n = 0 := by
  have hkey : QOS_CLASS_WINBW.win_read_mbps.key n ≠ QOS_CLASS_MISSED.thin_windows.key n := by
    simp only [Fld.key, QOS_CLASS_WINBW.win_read_mbps, QOS_CLASS_MISSED.thin_windows]
    omega
  rw [reg_bump_other hkey, win_read_mbps_windowClosed, h]
  exact (congrArg (· % _) (lineMbps_zero _)).trans (Nat.zero_mod _)

/-- The mark of class n in QOS_SUSPEND. -/
theorem missed_missMarked (s : State) (n : Fin 8) : ((missMarked s n.val).reg QOS_SUSPEND.missed).testBit n.val = true := by
  have hreg : (missMarked s n.val).reg QOS_SUSPEND.missed =
      ((windowMissed s n.val).reg QOS_SUSPEND.missed ||| 2 ^ n.val) % 2 ^ 8 := reg_setReg _ _ _ _
  rw [hreg, Nat.testBit_mod_two_pow, Nat.testBit_or, Nat.testBit_two_pow_self, Bool.or_true, Bool.and_true]
  exact decide_eq_true n.isLt

theorem rank99_le_p99Of (l : List Nat) : rank99 l ≤ p99Of l := Nat.le_add_right _ _

theorem rank99_replicate (x : Nat) : rank99 (List.replicate 100 x) = x := by
  have hsort : (List.replicate 100 x).insertionSort (· ≤ ·) = List.replicate 100 x :=
    List.perm_replicate.1 (List.perm_insertionSort _ _)
  unfold rank99
  rw [hsort]
  simp [divUp]

/-- Completions at a time within the window all count in it. -/
theorem inWindow_of_replicate {s : State} {n a x : Nat} (h : (s.clsState n).recent = List.replicate 100 ⟨a, x, false⟩)
    (h1 : (s.clsState n).winStart ≤ a) (h2 : a < (s.clsState n).winStart + s.windowNs n) :
    inWindow s n = List.replicate 100 ⟨a, x, false⟩ := by
  unfold inWindow
  rw [h, List.filter_eq_self]
  intro m hm
  rw [List.eq_of_mem_replicate hm]
  exact Bool.and_eq_true_iff.2 ⟨decide_eq_true h1, decide_eq_true h2⟩

/-! ## Guarantees that fit (R72, R75) -/

theorem fits_iff (s : State) (l : List Nat) (r w : Nat) : s.fits l r w = true ↔ s.sumRead l ≤ r ∧ s.sumWrite l ≤ w := by
  simp [State.fits]

/-- The order of the classes does not matter. -/
theorem fits_of_perm {s : State} {l m : List Nat} {r w : Nat} (h : l.Perm m) : s.fits l r w = s.fits m r w := by
  have hsum : ∀ f : Nat → Nat, total (l.map f) = total (m.map f) := by
    intro f
    simp only [total, ← List.sum_eq_foldl]
    exact (h.map f).sum_eq
  unfold State.fits State.sumRead State.sumWrite
  rw [hsum, hsum]

/-- Best-effort classes need nothing. -/
theorem fits_of_bestEffort {s : State} {l : List Nat} (r w : Nat) (h : ∀ n ∈ l, bestEffort (s.classEntry n) = true) :
    s.fits l r w = true := by
  have hzero : ∀ f : Nat → Nat, (∀ n ∈ l, f n = 0) → total (l.map f) = 0 := by
    intro f hf
    rw [total, ← List.sum_eq_foldl, List.map_congr_left hf, List.map_const', List.sum_replicate, smul_zero]
  have hguar : ∀ n ∈ l, (s.classEntry n).guarRead = 0 ∧ (s.classEntry n).guarWrite = 0 := by
    intro n hn
    have hbest := h n hn
    simp only [bestEffort, Bool.and_eq_true, beq_iff_eq] at hbest
    exact hbest.1
  have hread : s.sumRead l = 0 := hzero _ (fun n hn => (hguar n hn).1)
  have hwrite : s.sumWrite l = 0 := hzero _ (fun n hn => (hguar n hn).2)
  rw [fits_iff, hread, hwrite]
  exact ⟨Nat.zero_le r, Nat.zero_le w⟩

theorem mem_unsuspended {s : State} {n : Nat} : n ∈ s.unsuspended ↔ n < 8 ∧ (s.clsState n).suspended = false := by
  simp [State.unsuspended]

theorem nodup_unsuspended (s : State) : s.unsuspended.Nodup := List.nodup_range.filter _

/-! ## Suspension (R75, Table 3-7) -/

theorem suspendFrom_of_fits {s : State} {r w : Nat} (h : s.fits s.unsuspended r w = true) (l : List Nat) : suspendFrom r w l s = s := by
  cases l with
  | nil => rfl
  | cons n l => exact if_pos h

theorem onlyClasses_suspendFrom (r w : Nat) (l : List Nat) (s : State) : OnlyClasses s (suspendFrom r w l s) := by
  induction l generalizing s with
  | nil => exact .refl s
  | cons n l ih =>
    unfold suspendFrom
    split
    · exact .refl s
    · split
      · exact ih s
      · exact (OnlyClasses.ev_setCls _ _ _ _ s n _).trans (ih _)

/-- Every class outside l is suspended or best-effort. -/
def Considered (s : State) (l : List Nat) : Prop :=
  ∀ n < 8, n ∉ l → (s.clsState n).suspended = true ∨ bestEffort (s.classEntry n) = true

theorem fits_of_considered {s : State} (h : Considered s []) (r w : Nat) : s.fits s.unsuspended r w = true := by
  refine fits_of_bestEffort r w (fun n hn => ?_)
  obtain ⟨hlt, hrun⟩ := mem_unsuspended.1 hn
  exact (h n hlt List.not_mem_nil).resolve_left (ne_true_of_eq_false hrun)

theorem Considered.skip {s : State} {n : Nat} {l : List Nat} (h : Considered s (n :: l))
    (hn : (s.clsState n).suspended = true ∨ bestEffort (s.classEntry n) = true) : Considered s l := by
  intro m hm hl
  by_cases e : m = n
  · exact e ▸ hn
  · exact h m hm (List.not_mem_cons_of_ne_of_not_mem e hl)

theorem Considered.suspend {s : State} {n : Nat} {l : List Nat} (h : Considered s (n :: l)) (hlen : n < s.qos.cls.length) {c : ClsState}
    (hc : c.suspended = true) : Considered (s.setCls n c) l := by
  intro m hm hl
  by_cases e : m = n
  · rw [e, clsState_setCls_same hlen]
    exact .inl hc
  · rw [clsState_setCls_other e]
    exact h m hm (List.not_mem_cons_of_ne_of_not_mem e hl)

/-- Once every class has been considered, the guarantees that are left fit. -/
theorem fits_suspendFrom {r w : Nat} {l : List Nat} {s : State} (hl : ∀ n ∈ l, n < s.qos.cls.length) (h : Considered s l) :
    (suspendFrom r w l s).fits (suspendFrom r w l s).unsuspended r w = true := by
  induction l generalizing s with
  | nil => exact fits_of_considered h r w
  | cons n l ih =>
    have hrest := fun m hm => hl m (List.mem_cons_of_mem n hm)
    unfold suspendFrom
    split
    next hfits => exact hfits
    next =>
      split
      next hskip => exact ih hrest (h.skip (Bool.or_eq_true_iff.1 hskip).symm)
      next =>
        refine ih (fun m hm => ?_) (h.suspend (c := { s.clsState n with suspended := true, level := 0 }) (hl n List.mem_cons_self) rfl)
        rw [ev_qos, length_setCls]
        exact hrest m hm

/-! ## The envelope (R72, R77) -/

/-- The new envelope is in force and its change has been told. -/
def envelopeNoted (s : State) : State :=
  let changed := s.envRead != s.qos.rEnv || s.envWrite != s.qos.wEnv
  let s1 := { s with qos := { s.qos with rEnv := s.envRead, wEnv := s.envWrite, cause := s.envCause,
                                         envChanged := if changed then s.now else s.qos.envChanged } }
  if changed then ev 0x098 0 [s.qos.rEnv, s.envRead, s.qos.wEnv, s.envWrite, s.envCause] 4 s1 else s1

/-- The classes that no longer fit are suspended. -/
def envelopeMet (s : State) : State :=
  if s.link.memActive then suspendFrom s.envRead s.envWrite [7, 6, 5, 4, 3, 2, 1, 0] (envelopeNoted s) else envelopeNoted s

theorem exec_envelopeRecompute (t : Nat) (s : State) : ∃ hold, exec (.envelopeRecompute t) s =
    .next { envelopeMet (s.tick t) with qos := { (envelopeMet (s.tick t)).qos with holdStart := hold } } := ⟨_, rfl⟩

theorem envelopeNoted_qos (s : State) : ∃ c, (envelopeNoted s).qos =
    { s.qos with rEnv := s.envRead, wEnv := s.envWrite, cause := s.envCause, envChanged := c } := by
  unfold envelopeNoted
  extract_lets changed q s1
  split <;> exact ⟨_, rfl⟩

theorem envelopeNoted_run (s : State) : (envelopeNoted s).run = s.run := by
  unfold envelopeNoted
  extract_lets changed q s1
  split <;> rfl

theorem changesOnly_envelopeNoted (s : State) : changesOnly [.out, .events, .qos] s (envelopeNoted s) := by
  unfold envelopeNoted
  extract_lets changed q s1
  have hset : changesOnly [.qos] s s1 := changesOnly_setQos s _
  split
  · exact changesOnly_mono (by decide) (changesOnly_append hset (changesOnly_ev _ _ _ _ _))
  · exact changesOnly_mono (by decide) hset

/-- The classes are as before, so what fits fits as before. -/
theorem fits_envelopeNoted (s : State) (r w : Nat) :
    (envelopeNoted s).fits (envelopeNoted s).unsuspended r w = s.fits s.unsuspended r w := by
  obtain ⟨c, hq⟩ := envelopeNoted_qos s
  unfold State.fits State.unsuspended State.sumRead State.sumWrite State.classEntry State.clsState
  rw [hq, envelopeNoted_run]

theorem onlyClasses_envelopeMet (s : State) : OnlyClasses (envelopeNoted s) (envelopeMet s) := by
  unfold envelopeMet
  split
  · exact onlyClasses_suspendFrom _ _ _ _
  · exact .refl _

theorem envelopeMet_of_inactive {s : State} (h : s.link.memActive = false) : envelopeMet s = envelopeNoted s :=
  if_neg (ne_true_of_eq_false h)

theorem envelopeMet_of_fits {s : State} (h : s.fits s.unsuspended s.envRead s.envWrite = true) : envelopeMet s = envelopeNoted s := by
  unfold envelopeMet
  split
  · exact suspendFrom_of_fits ((fits_envelopeNoted s _ _).trans h) _
  · rfl

theorem fits_envelopeMet {s : State} (hlen : s.qos.cls.length = 8) (h : s.link.memActive = true) :
    (envelopeMet s).fits (envelopeMet s).unsuspended s.envRead s.envWrite = true := by
  obtain ⟨c, hq⟩ := envelopeNoted_qos s
  unfold envelopeMet
  rw [if_pos h]
  refine fits_suspendFrom ?_ ?_
  · rw [hq]
    dsimp only
    rw [hlen]
    decide
  · intro n hn hl
    simp only [List.mem_cons, List.not_mem_nil, or_false] at hl
    omega

/-! ## Restoration (R77) -/

theorem onlyClasses_restoreFrom (r w : Nat) (l : List Nat) (s : State) : OnlyClasses s (restoreFrom r w l s) := by
  induction l generalizing s with
  | nil => exact .refl s
  | cons n l ih =>
    unfold restoreFrom
    split
    · exact ih s
    · split
      · exact (OnlyClasses.ev_setCls _ _ _ _ s n _).trans (ih _)
      · exact .refl s

/-- A restored class joins those whose guarantees hold. -/
theorem unsuspended_setCls_perm {s : State} {n : Nat} {c : ClsState} (h8 : n < 8) (hlen : n < s.qos.cls.length)
    (hn : (s.clsState n).suspended = true) (hc : c.suspended = false) : (s.setCls n c).unsuspended.Perm (n :: s.unsuspended) := by
  have hnot : n ∉ s.unsuspended := fun h => by simp [(mem_unsuspended.1 h).2] at hn
  refine (List.perm_ext_iff_of_nodup (nodup_unsuspended _) (List.nodup_cons.2 ⟨hnot, nodup_unsuspended s⟩)).2 (fun m => ?_)
  rw [List.mem_cons, mem_unsuspended, mem_unsuspended]
  by_cases e : m = n
  · subst e
    simp [clsState_setCls_same hlen, hc, h8]
  · simp [clsState_setCls_other e, e]

/-- So where the sums with it fitted, they fit once it is restored. -/
theorem fits_restored {s : State} {n r w : Nat} {c : ClsState} (h8 : n < 8) (hlen : n < s.qos.cls.length)
    (hn : (s.clsState n).suspended = true) (hc : c.suspended = false) (h : s.fits (n :: s.unsuspended) r w = true) :
    (s.setCls n c).fits (s.setCls n c).unsuspended r w = true :=
  (fits_of_perm (unsuspended_setCls_perm h8 hlen hn hc)).trans h

theorem suspended_setCls_of_not {s : State} {m n : Nat} {c : ClsState} (hm : (s.clsState m).suspended = false)
    (hn : (s.clsState n).suspended = true) : ((s.setCls n c).clsState m).suspended = false := by
  have e : m ≠ n := fun e => by simp [← e, hm] at hn
  rwa [clsState_setCls_other e]

/-- Restoring classes keeps the guarantees within the envelope, and suspends none. -/
theorem restoreFrom_keeps {r w : Nat} {l : List Nat} {s : State} {m : Nat} (hl : ∀ n ∈ l, n < 8) (hlen : s.qos.cls.length = 8)
    (h : s.fits s.unsuspended r w = true) (hm : (s.clsState m).suspended = false) :
    (restoreFrom r w l s).fits (restoreFrom r w l s).unsuspended r w = true ∧
      ((restoreFrom r w l s).clsState m).suspended = false := by
  induction l generalizing s with
  | nil => exact ⟨h, hm⟩
  | cons n l ih =>
    have hrest := fun k hk => hl k (List.mem_cons_of_mem n hk)
    have h8 := hl n List.mem_cons_self
    unfold restoreFrom
    split
    next => exact ih hrest hlen h hm
    next hsus =>
      have hsus : (s.clsState n).suspended = true := by simpa using hsus
      split
      next hfits =>
        exact ih hrest ((length_setCls s n _).trans hlen) (fits_restored (s := s) h8 (hlen ▸ h8) hsus rfl hfits)
          (suspended_setCls_of_not hm hsus)
      next => exact ⟨h, hm⟩

/-- The lowest suspended class is restored where the sums with it fit. -/
theorem restoreFrom_restores {r w : Nat} {l : List Nat} {s : State} {m : Nat} (hl : ∀ n ∈ l, n < 8) (hlen : s.qos.cls.length = 8)
    (hm : l.find? (fun n => (s.clsState n).suspended) = some m) (h : s.fits (m :: s.unsuspended) r w = true) :
    (restoreFrom r w l s).fits (restoreFrom r w l s).unsuspended r w = true ∧
      ((restoreFrom r w l s).clsState m).suspended = false := by
  induction l with
  | nil => cases hm
  | cons n l ih =>
    have hrest := fun k hk => hl k (List.mem_cons_of_mem n hk)
    have h8 := hl n List.mem_cons_self
    cases hn : (s.clsState n).suspended with
    | false =>
      rw [restoreFrom, if_pos (by rw [hn]; rfl)]
      exact ih hrest (by rwa [List.find?_cons_of_neg (by simp [hn])] at hm)
    | true =>
      rw [List.find?_cons_of_pos (by simpa using hn), Option.some.injEq] at hm
      subst hm
      rw [restoreFrom, if_neg (by rw [hn]; decide), if_pos h]
      refine restoreFrom_keeps hrest ((length_setCls s n _).trans hlen) (fits_restored (s := s) h8 (hlen ▸ h8) hn rfl h) ?_
      exact congrArg ClsState.suspended (clsState_setCls_same (hlen ▸ h8) _)

theorem fits_of_candidateFits {s : State} {n : Nat} (hc : s.candidate = some n) (h : s.candidateFits = true) :
    s.fits (n :: s.unsuspended) s.qos.rEnv s.qos.wEnv = true := by
  unfold State.candidateFits at h
  rwa [hc] at h

theorem exec_restorationHoldExpiry_none {s : State} (t : Nat) (h : s.qos.holdStart = none) :
    exec (.restorationHoldExpiry t) s = .next (s.tick t) := by
  change execRestorationHoldExpiry t s = _
  unfold execRestorationHoldExpiry
  dsimp only
  rw [State.tick_qos, h]

/-- The classes that fit are restored. -/
def restored (s : State) : State := restoreFrom s.qos.rEnv s.qos.wEnv (List.range 8) s

theorem exec_restorationHoldExpiry {s : State} {t h : Nat} (hh : s.qos.holdStart = some h) (hdue : h + 100 * msec ≤ max s.now t)
    (hf : s.candidateFits = true) : ∃ hold, exec (.restorationHoldExpiry t) s =
      .next { restored (s.tick t) with qos := { (restored (s.tick t)).qos with holdStart := hold } } := by
  have hf : (s.tick t).candidateFits = true := hf
  have hgo : ¬ ((s.tick t).now < h + 100 * msec ∨ (!(s.tick t).candidateFits) = true) := by
    rw [hf]
    exact not_or.2 ⟨Nat.not_lt.2 hdue, by decide⟩
  refine ⟨if (restored (s.tick t)).candidateFits then some (restored (s.tick t)).now else none, ?_⟩
  change execRestorationHoldExpiry t s = _
  unfold execRestorationHoldExpiry
  dsimp only
  rw [State.tick_qos, hh]
  exact if_neg hgo

/-! ## The statement -/

/-- Settles O44: each command's effect is that of the named operation, and the guarantees fit because suspension ends only when they
fit or when no class is left, and a restored class's share fitted before it was added. -/
theorem classesAndEnvelope : Obligations.ClassesAndEnvelope := by
  refine ⟨?escalation, ?thin, ?missed, ?envelope, ?restoration, ?inactive, ?noHold⟩
  case escalation =>
    intro t n s ha hlen
    refine ⟨_, exec_escalationEvaluation t ha, ?_⟩
    have hcls := clsState_escalatedAll (s := s.tick t) n hlen
    have heq := escalatedAll_eq (s.tick t)
    refine ⟨congrArg ClsState.p99 hcls, congrArg ClsState.level hcls, ?_, (congrArg ClsState.suspended hcls).trans rfl, congrArg State.qos heq,
      congrArg State.med heq, changesOnly_of_tick (changesOnly_escalatedAll _)⟩
    rw [hcls]
    exact escalated_level_le (s.tick t) n.val
  case thin =>
    intro t n s ha hlen hrecent hdue
    have hempty : inWindow (s.tick t) n.val = [] := congrArg (List.filter _) hrecent
    refine ⟨_, exec_classWindowClose_thin ⟨ha, hdue⟩ (by rw [hempty]; decide), ?_, ?_, win_read_mbps_of_empty hempty, ?_⟩
    · unfold State.clsState
      rw [State.bump_qos]
      exact congrArg ClsState.winStart (clsState_windowClosed (s := s.tick t) (n.isLt.trans_eq hlen.symm))
    · intro hroom
      have hreg : (windowClosed (s.tick t) n.val).reg QOS_CLASS_MISSED.thin_windows n.val = s.reg QOS_CLASS_MISSED.thin_windows n.val :=
        thin_windows_windowClosed (s.tick t) n.val
      have hsize : QOS_CLASS_MISSED.thin_windows.size = 4294967296 := rfl
      rw [reg_bump (by omega), hreg]
    · exact changesOnly_mono (by decide) (changesOnly_of_tick (changesOnly_append (changesOnly_windowClosed (s.tick t) n)
        (changesOnly_bump _ _ _ _ (eventKey_thin_windows n))))
  case missed =>
    intro t a x n s ha hlen hrecent h1 h2 hdue hmiss hs
    have hwin : inWindow (s.tick t) n.val = List.replicate 100 ⟨a, x, false⟩ := inWindow_of_replicate (s := s.tick t) hrecent h1 h2
    have hp99 : (s.classEntry n.val).target < p99Of ((inWindow (s.tick t) n.val).map (·.ns)) := by
      rw [hwin, List.map_replicate]
      exact Nat.lt_of_lt_of_le hmiss ((rank99_replicate x).symm.le.trans (rank99_le_p99Of _))
    refine ⟨_, exec_classWindowClose_missed ⟨ha, hdue⟩ (by rw [hwin, List.length_replicate]) hp99 hs, ?_, ?_, ?_⟩
    · exact congrArg ClsState.missedAt (clsState_missMarked (s := s.tick t) (n.isLt.trans_eq hlen.symm))
    · rw [reg_ev (by decide)]
      exact missed_missMarked (s.tick t) n
    · exact changesOnly_mono (by decide) (changesOnly_of_tick (changesOnly_append (changesOnly_missMarked (s.tick t) n)
        (changesOnly_ev _ _ _ _ _)))
  case envelope =>
    intro t s hlen
    obtain ⟨hold, hexec⟩ := exec_envelopeRecompute t s
    obtain ⟨c, hnoted⟩ := envelopeNoted_qos (s.tick t)
    have hmet := onlyClasses_envelopeMet (s.tick t)
    have hqos := hmet.qos
    have hcls : (envelopeNoted (s.tick t)).qos.cls = s.qos.cls := by rw [hnoted]; rfl
    rw [hnoted] at hqos
    have hr : (envelopeMet (s.tick t)).qos.rEnv = s.envRead := congrArg Qos.rEnv hqos
    have hw : (envelopeMet (s.tick t)).qos.wEnv = s.envWrite := congrArg Qos.wEnv hqos
    refine ⟨_, hexec, hr, hw, congrArg Qos.cause hqos, fun ha => ?_, fun ha => ?_, fun hf => ?_, ?_⟩
    · dsimp only
      rw [hr, hw]
      exact fits_envelopeMet (s := s.tick t) hlen ha
    · dsimp only
      rw [envelopeMet_of_inactive (s := s.tick t) ha, hcls]
    · dsimp only
      rw [envelopeMet_of_fits (s := s.tick t) hf, hcls]
    · exact changesOnly_mono (by decide) (changesOnly_of_tick (changesOnly_append (changesOnly_append
        (changesOnly_envelopeNoted (s.tick t)) hmet.frame) (changesOnly_setQos _ _)))
  case restoration =>
    intro t h n s hlen hh hdue hc hf
    obtain ⟨hold, hexec⟩ := exec_restorationHoldExpiry hh hdue hf
    have honly : OnlyClasses (s.tick t) (restored (s.tick t)) := onlyClasses_restoreFrom _ _ _ _
    obtain ⟨hfits, hn⟩ := restoreFrom_restores (s := s.tick t) (fun m hm => List.mem_range.1 hm) hlen hc (fits_of_candidateFits hc hf)
    have hr : (restored (s.tick t)).qos.rEnv = s.qos.rEnv := by rw [honly.qos]; rfl
    have hw : (restored (s.tick t)).qos.wEnv = s.qos.wEnv := by rw [honly.qos]; rfl
    refine ⟨_, hexec, hn, ?_, hr, hw, changesOnly_mono (by decide) (changesOnly_of_tick (changesOnly_append honly.frame
      (changesOnly_setQos _ _)))⟩
    dsimp only
    rw [hr, hw]
    exact hfits
  case inactive =>
    intro t n s h
    have hoff : (s.tick t).link.memActive = false := h
    refine ⟨congrArg Host.Outcome.next (if_neg (ne_true_of_eq_false hoff)), if_pos ?_⟩
    rw [hoff]
    rfl
  case noHold => exact fun t s h => exec_restorationHoldExpiry_none t h

end Sys2Proof.Proofs
end

section
/-! PROOFS of the statements about the near and board caches and the way home of their lines (04_near_and_board_caches). -/

namespace Sys2Proof.Proofs

open Sys2Proof Sys2Proof.Machine Sys2Proof.Safety Sys2Proof.Laws

/-! ## A clean line whose board slot holds it already -/

/-- A clean 256-byte line 1 leaves the near cache, and its board slot holds the same line. -/
def cleanOverResident : State :=
  { serving with
    cch := { serving.cch with evict := [⟨cleanCopy 1, 0, 0, none⟩], board := [(1, boardOf (cleanCopy 1) 0)] } }

/-- The offer is declined (Table 4-6): the entry stays in the near eviction buffer until time moves on (log entry 70). -/
theorem boardOffer_cleanOverResident :
    nextSat (fun u => u.cch.evict == [⟨cleanCopy 1, 0, 0, some 0⟩])
      (exec (.boardOffer 0 ⟨1, ⟨false, 0, 0, 0, false, 0, false⟩⟩) cleanOverResident) = true := by decide +kernel

/-- Refutes O47: the clause on a line that the slot holds already takes a clean one too, and says that the entry leaves the near eviction
buffer. The board cache declines a clean line that it holds, and a declined entry stays. -/
theorem not_cacheMotion : ¬ Obligations.CacheMotion := by
  intro h
  obtain ⟨_, hresident, _⟩ := h
  obtain ⟨u, hu, hgone, _⟩ := hresident 0 1 ⟨cleanCopy 1, 0, 0, none⟩ (boardOf (cleanCopy 1) 0) cleanOverResident
    (by decide +kernel) rfl rfl (by decide +kernel) rfl (by decide +kernel) rfl rfl rfl rfl rfl
  have hstays := (nextSat_of_eq hu).symm.trans boardOffer_cleanOverResident
  rw [hgone] at hstays
  exact absurd hstays (by decide)

/-! ## A lost overlay line above a shadow of a committed epoch -/

/-- Folio 0 of an epoch-mode extent has its base in slot 0 and a shadow of the committed epoch 4 in slot 1 of a one-bead stripe block.
Line 3 of the folio, written in epoch 5, drains from a dump slot. -/
def drainsAboveShadow : State :=
  { serving with
    med := { serving.med with
      blocks := [(0, { StripeBlock.blank with bead := true, isOpen := true, members := (List.range 16).map (fun c => (c, 0)) })] },
    map := { serving.map with entries := [(0, ⟨some ⟨0, 0, 0⟩, true, true, false, false, false⟩)] },
    key := { serving.key with
      extents := [{ noExtent with units := 1, epoch := true }],
      units := [(0, ⟨0, 0, false, false, true, true, false, false⟩)] },
    ring := { serving.ring with committed := 4, shadows := [(0, ⟨⟨0, 0, 1⟩, true, 4⟩)] },
    pfl := { serving.pfl with
      overlay := [(3, ⟨3, 8, false, true, false, 1, 1, false⟩)], overlaySlot := some 0,
      slots := setAt serving.pfl.slots 0 { DumpSlot.atReset with st := 3, seq := 1 } } }

/-- The line is lost, and goes home as poison to a shadow of its own epoch: the committed one becomes the base first (10 R284). -/
theorem replayHomeWrite_drainsAboveShadow :
    nextSat (fun u => u.ring.shadows.isEmpty) (exec (.replayHomeWrite 0 0 8) drainsAboveShadow) = true := by decide +kernel

/-- Refutes O48: the clause on lost overlay lines takes folios of epoch-mode extents too, and its frame leaves the ring out. There the
write home settles a shadow of a committed epoch, and the shadow table is of the ring. -/
theorem not_writeHomePath : ¬ Obligations.WriteHomePath := by
  intro h
  obtain ⟨_, _, _, _, _, hlost, _⟩ := h
  obtain ⟨u, hu, _, _, hframe⟩ := hlost 0 0 3 8 ⟨3, 8, false, true, false, 1, 1, false⟩ drainsAboveShadow (by decide +kernel) rfl
    (by decide +kernel) rfl (by decide +kernel) (by decide +kernel) (by decide +kernel)
  have hring : u.ring = drainsAboveShadow.ring := hframe .ring rfl
  have hsettled := (nextSat_of_eq hu).symm.trans replayHomeWrite_drainsAboveShadow
  rw [hring] at hsettled
  exact absurd hsettled (by decide)

end Sys2Proof.Proofs
end

section
/-! PROOFS of the statements about the medium, its beads and its stripes (05_medium_beads_and_stripes). -/

namespace Sys2Proof.Proofs

open Sys2Proof Sys2Proof.Machine Sys2Proof.Safety

/-! ## A page that a reclaim move fills -/

/-- A four-bead stripe block with a member on each channel's die of its group. -/
def fourBeadBlock : StripeBlock := { StripeBlock.blank with members := (List.range 16).map (fun c => (c, 0)) }

/-- Reclaim of stripe block 1 of group 1 has copied folio 7 to the first slot of the group's open page, in block 0, at time 0. Folio 9, the
source's other one, waits for a slot. -/
def moveWaitsForPage : State :=
  { serving with
    med := { serving.med with
      blocks := [(blkKey 1 0, { fourBeadBlock with isOpen := true }), (blkKey 1 1, { fourBeadBlock with sealedAt := some 0 })] },
    map := { serving.map with
      entries := [(7, { MapEntry.blank with loc := some ⟨1, 1, 0⟩ }), (9, { MapEntry.blank with loc := some ⟨1, 1, 1⟩ })],
      pages := [(1, ⟨0, 0, [some 7], some 0⟩)],
      reclaim := [(1, ⟨1, 0, [(7, ⟨1, 0, 0⟩)]⟩)] } }

/-- Folio 9 takes a slot of the page that is programmed (06 R154). -/
theorem stripePageFillTimeout_moveWaitsForPage :
    nextSat (fun u => u.map.progs.any (fun p => p.folios.contains (some 9)))
      (exec (.stripePageFillTimeout (2 * msec) 1) moveWaitsForPage) = true := by decide +kernel

/-- Refutes O49: the clause on a page that is not full after 2 ms has every slot left taken by padding. Reclaim moves that wait come first
(06 R154), and no premise of the clause says that none waits. -/
theorem not_dieOperations : ¬ Obligations.DieOperations := by
  intro h
  obtain ⟨_, _, _, _, _, _, _, _, _, _, _, _, _, _, hfill, _⟩ := h
  obtain ⟨u, hu, hprogs, _⟩ := hfill (2 * msec) 0 1 ⟨0, 0, [some 7], some 0⟩ moveWaitsForPage rfl rfl (by decide) (by decide)
    (by decide +kernel) (by decide +kernel) (by decide +kernel)
  have hmoved := (nextSat_of_eq hu).symm.trans stripePageFillTimeout_moveWaitsForPage
  rw [hprogs] at hmoved
  exact absurd hmoved (by decide +kernel)

end Sys2Proof.Proofs
end

section
/-! PROOFS of the statement about the vendor's mailbox commands. -/

namespace Sys2Proof.Proofs

open Sys2Proof Sys2Proof.Machine Sys2Proof.Safety

/-! ## A key slot that a background rotation works in -/

/-- A Start Key Rotation of extent 0 to key 5 runs in the background: its unit 0 is bound to key 5 and swept from key 0. -/
def rotatesToKey5 : State :=
  { serving with
    link := { serving.link with background := some ⟨0xC031, 0, .primary⟩ },
    key := { serving.key with
      extents := [{ noExtent with units := 1 }],
      units := [(0, ⟨5, 0, true, true, true, true, false, false⟩)],
      slots := [(0, ⟨2, 0, 0, 0⟩), (5, ⟨1, 1, 0, 1⟩)],
      sweep := some ⟨1, 0, [0], 0, 5, true, true, 0, 0, 0, 0⟩ } }

/-- Generate Key ID of the slot that the rotation works in answers Busy (02 Table 2-15). -/
theorem generateKey_rotatesToKey5 :
    nextSat (fun u => u.sent == rotatesToKey5.sent ++ [.reply .primary 0xC030 .busy []]) (exec (.generateKey .primary 5) rotatesToKey5) = true := by
  decide +kernel

/-- Refutes O58: the clause on Generate Key ID of a slot that a bound unit names says Invalid Input always. While a background rotation
works in that slot the answer is Busy, and no premise of the clause says that none runs. -/
theorem not_mailboxVendor : ¬ Obligations.MailboxVendor := by
  intro h
  obtain ⟨_, _, _, _, _, _, _, _, _, _, _, _, hnamed, _⟩ := h
  have hinvalid := hnamed .primary 5 rotatesToKey5 (by decide +kernel) (.inr (.inr (by decide +kernel)))
  have hbusy := (nextSat_of_eq hinvalid).symm.trans generateKey_rotatesToKey5
  exact absurd hbusy (by decide +kernel)

end Sys2Proof.Proofs
end

section
/-! PROOFS: what the map's commands rest on, the journal, its checkpoints and lost map words (06_map_placement_reclaim). -/

namespace Sys2Proof.Proofs

open Sys2Proof Sys2Proof.Machine Sys2Proof.Safety Sys2Proof.Laws

/-! ## The journal and its checkpoints -/

theorem judgeCkpt_eq (s : State) : ∃ c, s.judgeCkpt = { s with map := { s.map with ckptWriting := c } } := by
  unfold State.judgeCkpt
  split
  · exact ⟨_, rfl⟩
  · exact ⟨s.map.ckptWriting, rfl⟩

/-- A checkpoint begins only when the journal has passed the threshold. -/
theorem judgeCkpt_of_short {s : State} (h : s.map.committed + 1 - s.map.ckptStart ≤ s.ckptThreshold) : s.judgeCkpt = s := by
  unfold State.judgeCkpt
  rw [decide_eq_false (Nat.not_lt.2 h), Bool.and_false, if_neg Bool.false_ne_true]

theorem judgeJournal_map (s : State) : ∃ w, s.judgeJournal.map = { s.map with waiting := w } := by
  unfold State.judgeJournal
  dsimp only
  split
  · exact ⟨true, rfl⟩
  · exact ⟨_, rfl⟩

theorem changesOnly_judgeJournal (s : State) : changesOnly [.out, .events, .map] s s.judgeJournal := by
  unfold State.judgeJournal
  dsimp only
  split
  · have hwaits : changesOnly [.events, .map] s { s with fresh := s.fresh + 1, map := { s.map with waiting := true } } :=
      changesOnly_append (changesOnly_setFresh s (s.fresh + 1)) (changesOnly_setMap _ { s.map with waiting := true })
    exact changesOnly_mono (by decide) (changesOnly_append hwaits (changesOnly_ev 0x302 1 _ 4 _))
  · exact changesOnly_mono (by decide) (changesOnly_setMap s _)

/-- Whether map changes flow is read of the placements, the pages and the stripe blocks. -/
theorem mapFlows_congr {s t : State} (hmed : t.med = s.med) (hheld : t.map.held = s.map.held) (hhomes : t.map.homes = s.map.homes)
    (hpages : t.map.pages = s.map.pages) (hprogs : t.map.progs = s.map.progs) : mapFlows t = mapFlows s := by
  unfold mapFlows State.pageOpen State.block
  rw [hmed, hheld, hhomes, hpages, hprogs]

/-- Where map changes flow, nothing waits to go on. -/
theorem changesGo_of_mapFlows {s : State} (h : mapFlows s = true) : s.changesGo = s := by
  unfold mapFlows at h
  rw [Bool.and_eq_true, List.isEmpty_iff, List.all_eq_true] at h
  obtain ⟨hheld, hhomes⟩ := h
  have hnone : s.map.homes.filter (fun e => !e.2.committed && !e.2.bead && !s.pageOpen e.2.loc) = [] := by
    refine List.filter_eq_nil_iff.2 (fun e he => ?_)
    have := hhomes e he
    simp only [Bool.or_eq_true] at this
    obtain (h | h) | h := this <;> simp [h]
  unfold State.changesGo
  rw [hheld]
  change (List.map _ (s.map.homes.filter (fun e => !e.2.committed && !e.2.bead && !s.pageOpen e.2.loc))).foldl State.commitHome s = s
  rw [hnone]
  rfl

/-- The map when a sector of the tail has gone to the journal. -/
def flushedMap (m : Map) (now : Nat) : Map :=
  Map.retain { m with
    journal := m.journal ++ [JSector.mk (m.committed + 1) (m.tail.take 15) (!(m.tail.take 15).any (fun c => c.kind == 4))],
    tail := m.tail.drop 15, tailSince := if (m.tail.drop 15).isEmpty then none else some now, committed := m.committed + 1 }

theorem flushSector_eq {s : State} (ht : s.map.tail ≠ []) (hw : s.map.waiting = false) :
    s.flushSector = (State.judgeCkpt { s with map := flushedMap s.map s.now }).judgeJournal := by
  unfold State.flushSector
  rw [hw, Bool.or_false, if_neg (by simpa using ht)]
  rfl

theorem flushSector_map {s : State} (ht : s.map.tail ≠ []) (hw : s.map.waiting = false) :
    ∃ c w, s.flushSector.map = { flushedMap s.map s.now with ckptWriting := c, waiting := w } := by
  obtain ⟨c, hc⟩ := judgeCkpt_eq { s with map := flushedMap s.map s.now }
  obtain ⟨w, hj⟩ := judgeJournal_map (State.judgeCkpt { s with map := flushedMap s.map s.now })
  refine ⟨c, w, ?_⟩
  rw [flushSector_eq ht hw, hj, hc]

theorem changesOnly_flushSector {s : State} (ht : s.map.tail ≠ []) (hw : s.map.waiting = false) :
    changesOnly [.out, .events, .map] s s.flushSector := by
  obtain ⟨c, hc⟩ := judgeCkpt_eq { s with map := flushedMap s.map s.now }
  rw [flushSector_eq ht hw, hc]
  exact changesOnly_mono (by decide) (changesOnly_append (changesOnly_setMap s _) (changesOnly_judgeJournal _))

theorem exec_journalTailFlush (t : Nat) (s : State) : exec (.journalTailFlush t) s =
    .next (if s.railsOn && s.pfl.dump.isNone && (decide (15 ≤ s.map.tail.length) ||
        (match s.map.tailSince with | some a => decide (a + 50 * usec ≤ max s.now t) | none => false) ||
        (s.map.tail.any (fun c => c.kind == 4) || (match s.map.discard with | some d => d.left == 0 | none => false)))
      then (s.tick t).flushSector.changesGo else s.tick t) := rfl

/-- A tail that is due goes to the journal. -/
theorem exec_journalTailFlush_due {t a : Nat} {s : State} (hr : s.railsOn = true) (hd : s.pfl.dump = none)
    (ha : s.map.tailSince = some a) (h : 15 ≤ s.map.tail.length ∨ a + 50 * usec ≤ max s.now t) :
    exec (.journalTailFlush t) s = .next (s.tick t).flushSector.changesGo := by
  rw [exec_journalTailFlush, if_pos]
  rw [hr, hd, ha]
  obtain h | h := h <;> simp [h]

/-- What the flush leaves where map changes flow. -/
theorem changesGo_flushSector {s : State} (ht : s.map.tail ≠ []) (hw : s.map.waiting = false) (hf : mapFlows s = true) :
    s.flushSector.changesGo = s.flushSector := by
  obtain ⟨c, w, hm⟩ := flushSector_map ht hw
  refine changesGo_of_mapFlows ((mapFlows_congr (changesOnly_flushSector ht hw .med rfl) ?_ ?_ ?_ ?_).trans hf)
  all_goals
    rw [hm]
    rfl

theorem exec_journalTailFlush_off {t : Nat} {s : State} (h : s.railsOn = false ∨ s.pfl.dump ≠ none ∨
    (s.map.tail = [] ∧ s.map.tailSince = none ∧ s.map.discard = none)) : exec (.journalTailFlush t) s = .next (s.tick t) := by
  rw [exec_journalTailFlush, if_neg]
  obtain hr | hd | ⟨ht, hs, hd⟩ := h
  · rw [hr]
    exact Bool.false_ne_true
  · simp [hd]
  · rw [ht, hs, hd]
    simp

theorem exec_journalTailFlush_early {t a : Nat} {s : State} (hl : s.map.tail.length < 15) (ha : s.map.tailSince = some a)
    (hn : max s.now t < a + 50 * usec) (hk : s.map.tail.any (fun c => c.kind == 4) = false) (hd : s.map.discard = none) :
    exec (.journalTailFlush t) s = .next (s.tick t) := by
  rw [exec_journalTailFlush, if_neg]
  rw [ha, hk, hd, decide_eq_false (Nat.not_le.2 hl)]
  dsimp only
  rw [decide_eq_false (Nat.not_le.2 hn)]
  simp

/-- The map when a checkpoint in slot k with start b is sealed. -/
def sealedMap (m : Map) (k b : Nat) : Map :=
  Map.retain { m with ckptOlder := m.ckptStart, ckptStart := b, ckptSlot := k, ckptWriting := none,
                      ckpts := setAt m.ckpts k ⟨true, b, m.committed, m.replay m.ckptSlot, m.beads⟩ }

theorem exec_checkpointSealed {t n k b : Nat} {s : State} (hw : s.map.ckptWriting = some (k, b))
    (hj : s.map.journal.any (fun x => !x.settled && decide (x.seq < b)) = false) :
    exec (.checkpointSealed t n) s = .next (State.judgeJournal (ev 0x303 0 [k, b, s.map.committed, n] 4
      { s.tick t with map := sealedMap s.map k b })).judgeCkpt.changesGo := by
  change execCheckpointSealed t n s = _
  unfold execCheckpointSealed
  dsimp only [State.tick_map]
  rw [hw]
  exact if_neg (by rw [hj]; exact Bool.false_ne_true)

theorem exec_checkpointSealed_none {t n : Nat} {s : State} (h : s.map.ckptWriting = none) :
    exec (.checkpointSealed t n) s = .next (s.tick t) := by
  change execCheckpointSealed t n s = _
  unfold execCheckpointSealed
  dsimp only [State.tick_map]
  rw [h]

theorem exec_checkpointWriteFailed {t k b : Nat} {i : Fin 64} {s : State} (hf : s.fitted i.val = true)
    (hw : s.map.ckptWriting = some (k, b)) : exec (.checkpointWriteFailed t i) s =
      .next (ev 0x304 1 [k, i.val] 4 { s.tick t with map := { s.map with ckptWriting := some (k, s.map.committed + 1) } }) := by
  refine Eq.trans (b := if (!s.fitted i) = true then Host.Outcome.fault Fault.noSuchUnit else match s.map.ckptWriting with
    | none => .next (s.tick t)
    | some (k, _) => .next (ev 0x304 1 [k, i.val] 4
        { s.tick t with map := { s.map with ckptWriting := some (k, s.map.committed + 1) } })) rfl ?_
  rw [hf, hw]
  rfl

/-- What a sealed checkpoint leaves where map changes flow and the journal since it is short. -/
theorem checkpoint_goes {s : State} {k b : Nat} (hb : s.map.committed + 1 - b ≤ s.ckptThreshold) (hf : mapFlows s = true) (n t : Nat) :
    ∃ w, ∃ u : State, (State.judgeJournal (ev 0x303 0 [k, b, s.map.committed, n] 4
        { s.tick t with map := sealedMap s.map k b })).judgeCkpt.changesGo = u ∧
      u.map = { sealedMap s.map k b with waiting := w } ∧ changesOnly [.time, .out, .events, .map] s u := by
  have hsealed : changesOnly [.map, .out, .events] (s.tick t)
      (ev 0x303 0 [k, b, s.map.committed, n] 4 { s.tick t with map := sealedMap s.map k b }) :=
    changesOnly_append (changesOnly_setMap (s.tick t) (sealedMap s.map k b)) (changesOnly_ev 0x303 0 _ 4 _)
  have hmap : (ev 0x303 0 [k, b, s.map.committed, n] 4 { s.tick t with map := sealedMap s.map k b }).map = sealedMap s.map k b := rfl
  generalize ev 0x303 0 [k, b, s.map.committed, n] 4 { s.tick t with map := sealedMap s.map k b } = v at hsealed hmap ⊢
  have hjudged := changesOnly_judgeJournal v
  obtain ⟨w, hw⟩ := judgeJournal_map v
  rw [hmap] at hw
  have hshort : v.judgeJournal.judgeCkpt = v.judgeJournal := by
    refine judgeCkpt_of_short ?_
    have hpart : v.judgeJournal.part = s.part := (hjudged .card rfl).2.1.trans (hsealed .card rfl).2.1
    have hsize : v.judgeJournal.ckptThreshold = s.ckptThreshold := by
      unfold State.ckptThreshold
      rw [hpart]
    rw [hw, hsize]
    exact hb
  have hmed : v.judgeJournal.med = s.med := (hjudged .med rfl).trans (hsealed .med rfl)
  have hflows : mapFlows v.judgeJournal = true := by
    refine (mapFlows_congr hmed ?_ ?_ ?_ ?_).trans hf
    all_goals
      rw [hw]
      rfl
  refine ⟨w, v.judgeJournal, ?_, hw, ?_⟩
  · rw [hshort, changesGo_of_mapFlows hflows]
  · exact changesOnly_mono (by decide) (changesOnly_of_tick (changesOnly_append hsealed hjudged))

/-! ## Map changes -/

theorem recalcLimit_map (s : State) : ∃ b u, s.recalcLimit.map = { s.map with beadLimit := b, limitAtU := u } := by
  refine ⟨s.newLimit, s.heldFolios, ?_⟩
  unfold State.recalcLimit
  dsimp only
  split <;> rfl

theorem afterU_map (s : State) : ∃ b u, s.afterU.map = { s.map with beadLimit := b, limitAtU := u } := by
  unfold State.afterU
  dsimp only
  split
  · exact recalcLimit_map s
  · exact ⟨s.map.beadLimit, s.map.limitAtU, rfl⟩

/-- A change of a folio's entry takes effect: the entry, and its record at the end of the tail. -/
theorem mapChange_map {s : State} {f : Nat} (hf : f < integMark) (hw : s.changesWait = false) (e : MapEntry) (kind : Nat) :
    ∃ b u, (s.mapChange f (some e) kind).map = { s.map with
      entries := Tab.put s.map.entries f e, tail := s.map.tail ++ [⟨f, some e, kind⟩],
      tailSince := some (s.map.tailSince.getD s.now), beadLimit := b, limitAtU := u } := by
  obtain ⟨b, u, h⟩ := afterU_map { s with map := { s.map.change ⟨f, some e, kind⟩ with
    tail := s.map.tail ++ [⟨f, some e, kind⟩], tailSince := some (s.map.tailSince.getD s.now) } }
  refine ⟨b, u, ?_⟩
  unfold State.mapChange
  rw [hw, if_neg Bool.false_ne_true]
  refine h.trans ?_
  unfold Map.change
  rw [if_pos hf]
  rfl

theorem entry_of_put {s t : State} {f : Nat} {e : MapEntry} (h : t.map.entries = Tab.put s.map.entries f e) (j : Nat) :
    t.entry j = if j = f then e else s.entry j := by
  unfold State.entry
  rw [h]
  split
  next hj =>
    subst hj
    exact Tab.findD_put_same _ _ _ _
  next hj => exact Tab.findD_put_other _ _ _ _ _ hj

/-! ## Folios whose map entries are lost -/

/-- The poison list can take n records and the journal's tail c changes, and none waits. -/
structure HasRoom (s : State) (n c : Nat) : Prop where
  poison : s.map.poison.length + n ≤ 8192
  waiting : s.map.waiting = false
  held : s.map.held = []
  tail : s.map.tail.length + c ≤ tailMax

/-- From s to t lines were listed as poisoned and folios marked so: nothing listed or marked went, and no folio moved. -/
structure Poisons (s t : State) : Prop where
  frame : changesOnly [.out, .events, .regs, .map, .tly] s t
  listed : ∀ k, s.listed k = true → t.listed k = true
  flagged : ∀ f, (s.entry f).poisonedRange = true → (t.entry f).poisonedRange = true
  loc : ∀ f, (t.entry f).loc = (s.entry f).loc
  rebuilding : t.map.rebuilding = s.map.rebuilding

theorem Poisons.refl (s : State) : Poisons s s := ⟨changesOnly_refl _ s, fun _ h => h, fun _ h => h, fun _ => rfl, rfl⟩

theorem Poisons.trans {s t u : State} (h : Poisons s t) (k : Poisons t u) : Poisons s u where
  frame := changesOnly_trans h.frame k.frame
  listed := fun j hj => k.listed j (h.listed j hj)
  flagged := fun f hf => k.flagged f (h.flagged f hf)
  loc := fun f => (k.loc f).trans (h.loc f)
  rebuilding := k.rebuilding.trans h.rebuilding

/-- A record that grows by one line holds what it held, and the line. -/
theorem has_extended {k src : Nat} {r : PoisonRec} (h : extends? k src r = true) (j : Nat) :
    PoisonRec.has { r with length := r.length + 1 } j = (r.has j || j == k) := by
  unfold extends? at h
  simp only [Bool.and_eq_true, beq_iff_eq] at h
  obtain ⟨⟨⟨hend, _⟩, _⟩, _⟩ := h
  unfold PoisonRec.has
  rw [Bool.eq_iff_iff]
  simp only [Bool.or_eq_true, Bool.and_eq_true, decide_eq_true_eq, beq_iff_eq]
  omega

/-- While the list has room, adding a line keeps what is listed and lists the line, in one record more at most. -/
theorem addListed_map {s : State} {k : Nat} (src : Nat) (h : s.map.poison.length < 8192) :
    ∃ p, (s.addListed k src).1.map = { s.map with poison := p } ∧ p.length ≤ s.map.poison.length + 1 ∧
      (∀ j, s.listed j = true → p.any (fun r => r.has j) = true) ∧ p.any (fun r => r.has k) = true := by
  unfold State.addListed
  split
  next hk => exact ⟨s.map.poison, rfl, Nat.le_succ _, fun _ hj => hj, hk⟩
  next =>
    split
    next i hi =>
      obtain ⟨hlt, hext, _⟩ := List.findIdx?_eq_some_iff_getElem.1 hi
      refine ⟨_, rfl, by simp, fun j hj => ?_, ?_⟩
      · obtain ⟨r, hr, hrj⟩ := List.any_eq_true.1 hj
        obtain ⟨n, hn, rfl⟩ := List.getElem_of_mem hr
        refine List.any_eq_true.2 ⟨_, List.mem_mapIdx.2 ⟨n, hn, rfl⟩, ?_⟩
        split
        next hni =>
          subst hni
          rw [has_extended hext, hrj, Bool.true_or]
        next => exact hrj
      · refine List.any_eq_true.2 ⟨_, List.mem_mapIdx.2 ⟨i, hlt, rfl⟩, ?_⟩
        rw [if_pos rfl, has_extended hext, beq_self_eq_true, Bool.or_true]
    next =>
      rw [if_neg (Nat.not_le.2 h)]
      refine ⟨s.map.poison ++ [⟨k, 1, src⟩], State.bump_map _ _ _ _, by simp, fun j hj => ?_, ?_⟩
      · rw [List.any_append, Bool.or_eq_true]
        exact .inl hj
      · simp [PoisonRec.has]

theorem listLine_map {s : State} {k : Nat} (src : Nat) (h : s.map.poison.length < 8192) :
    ∃ p, (s.listLine k src).map = { s.map with poison := p } ∧ p.length ≤ s.map.poison.length + 1 ∧
      (∀ j, s.listed j = true → p.any (fun r => r.has j) = true) ∧ p.any (fun r => r.has k) = true := by
  obtain ⟨p, hp, hrest⟩ := addListed_map (k := k) src h
  refine ⟨p, ?_, hrest⟩
  unfold State.listLine
  split
  next s1 i e =>
    rw [e] at hp
    exact (changesOnly_ownRow s1 _ _ _ _ .map rfl).trans hp
  next s1 e =>
    rw [e] at hp
    exact hp

/-- Whether marking folio f as poisoned is a map change still to be made. -/
def markLeft (s : State) (f : Nat) : Nat := if (s.entry f).poisonedRange then 0 else 1

theorem markLeft_of_flagged {s : State} {f : Nat} (h : (s.entry f).poisonedRange = true) : markLeft s f = 0 := if_pos h

theorem HasRoom.changesWait {s : State} {n c : Nat} (h : HasRoom s n (c + 1)) : s.changesWait = false := by
  unfold State.changesWait
  have := h.tail
  rw [h.waiting, h.held, decide_eq_false (by omega)]
  rfl

/-- A line is listed while there is room. -/
theorem listLine_spec {s : State} {n c : Nat} (k src : Nat) (h : HasRoom s (n + 1) c) :
    Poisons s (s.listLine k src) ∧ HasRoom (s.listLine k src) n c ∧ (s.listLine k src).listed k = true ∧
      ∀ j, (s.listLine k src).entry j = s.entry j := by
  have hpoison := h.poison
  obtain ⟨p, hp, hlen, hkept, hk⟩ := listLine_map (s := s) (k := k) src (by omega)
  have hentry : ∀ j, (s.listLine k src).entry j = s.entry j := fun j => by
    unfold State.entry
    rw [hp]
  have hlisted : ∀ j, (s.listLine k src).listed j = p.any (fun r => r.has j) := fun j => by
    unfold State.listed
    rw [hp]
  refine ⟨⟨changesOnly_listLine s k src, fun j hj => ?_, fun j hj => ?_, fun j => by rw [hentry], by rw [hp]⟩,
    ⟨?_, by rw [hp, h.waiting], by rw [hp, h.held], ?_⟩, ?_, hentry⟩
  · rw [hlisted]
    exact hkept j hj
  · rw [hentry]
    exact hj
  · rw [hp]
    dsimp only
    omega
  · rw [hp]
    exact h.tail
  · rw [hlisted]
    exact hk

/-- A folio is marked as poisoned while there is room. -/
theorem mark_spec {s : State} {f n c : Nat} (hf : f < integMark) (h : HasRoom s n (c + 1)) :
    Poisons s (s.mapChange f (some { s.entry f with poisonedRange := true }) 0) ∧
      HasRoom (s.mapChange f (some { s.entry f with poisonedRange := true }) 0) n c ∧
      ((s.mapChange f (some { s.entry f with poisonedRange := true }) 0).entry f).poisonedRange = true := by
  obtain ⟨b, u, hm⟩ := mapChange_map hf h.changesWait { s.entry f with poisonedRange := true } 0
  have hentry := entry_of_put (congrArg Map.entries hm)
  have htail := h.tail
  refine ⟨⟨changesOnly_mono (by decide) (changesOnly_mapChange s f _ 0), fun j hj => ?_, fun j hj => ?_, fun j => ?_, by rw [hm]⟩,
    ⟨by rw [hm]; exact h.poison, by rw [hm]; exact h.waiting, by rw [hm]; exact h.held, ?_⟩, ?_⟩
  · unfold State.listed
    rw [hm]
    exact hj
  · rw [hentry]
    split
    · rfl
    · exact hj
  · rw [hentry]
    split
    next hj => rw [hj]
    next => rfl
  · rw [hm]
    dsimp only
    rw [List.length_append, List.length_singleton]
    omega
  · rw [hentry, if_pos rfl]

/-- A line of folio f reads as poison from now on: it is listed, and the folio is marked. -/
theorem losePoison_spec {s : State} {k f n c : Nat} (hk : k / 256 = f) (hf : f < integMark) (h : HasRoom s (n + 1) (c + markLeft s f)) :
    Poisons s (s.losePoison k) ∧ HasRoom (s.losePoison k) n c ∧ (s.losePoison k).listed k = true ∧
      ((s.losePoison k).entry f).poisonedRange = true := by
  obtain ⟨hp, hroom, hlisted, hentry⟩ := listLine_spec k 0 h
  unfold State.losePoison
  rw [hk]
  dsimp only
  by_cases hflag : ((s.listLine k 0).entry f).poisonedRange = true
  · rw [if_pos hflag]
    rw [markLeft_of_flagged (by rw [← hentry]; exact hflag)] at hroom
    exact ⟨hp, hroom, hlisted, hflag⟩
  · rw [if_neg hflag]
    have hleft : markLeft s f = 1 := if_neg (by rw [← hentry]; exact hflag)
    rw [hleft] at hroom
    obtain ⟨hp', hroom', hflag'⟩ := mark_spec hf hroom
    exact ⟨hp.trans hp', hroom', hp'.listed k hlisted, hflag'⟩

theorem losePoison_fold {f c n : Nat} (hf : f < integMark) (is : List Nat) (his : ∀ i ∈ is, i < 256) (s : State)
    (h : HasRoom s (is.length + n) (c + markLeft s f)) :
    Poisons s (is.foldl (fun s i => s.losePoison (f * 256 + i)) s) ∧
      HasRoom (is.foldl (fun s i => s.losePoison (f * 256 + i)) s) n
        (c + markLeft (is.foldl (fun s i => s.losePoison (f * 256 + i)) s) f) ∧
      ∀ i ∈ is, (is.foldl (fun s i => s.losePoison (f * 256 + i)) s).listed (f * 256 + i) = true ∧
        ((is.foldl (fun s i => s.losePoison (f * 256 + i)) s).entry f).poisonedRange = true := by
  induction is generalizing s with
  | nil =>
    rw [List.length_nil, Nat.zero_add] at h
    exact ⟨Poisons.refl s, h, fun i hi => absurd hi List.not_mem_nil⟩
  | cons i is ih =>
    have hi : i < 256 := his i List.mem_cons_self
    rw [List.length_cons, Nat.add_right_comm] at h
    obtain ⟨hp, hroom, hlisted, hflag⟩ := losePoison_spec (k := f * 256 + i) (by omega) hf h
    obtain ⟨hps, hrooms, hall⟩ := ih (fun j hj => his j (List.mem_cons_of_mem _ hj)) (s.losePoison (f * 256 + i))
      (by rw [markLeft_of_flagged hflag]; exact hroom)
    refine ⟨hp.trans hps, hrooms, fun j hj => ?_⟩
    obtain rfl | hj := List.mem_cons.1 hj
    · exact ⟨hps.listed _ hlisted, hps.flagged f hflag⟩
    · exact hall j hj

/-- Every line of folio f is listed as poisoned, and the folio marked. -/
def WhollyPoisoned (s : State) (f : Nat) : Prop := (∀ i < 256, s.listed (f * 256 + i) = true) ∧ (s.entry f).poisonedRange = true

theorem WhollyPoisoned.of_poisons {s t : State} {f : Nat} (h : WhollyPoisoned s f) (hp : Poisons s t) : WhollyPoisoned t f :=
  ⟨fun i hi => hp.listed _ (h.1 i hi), hp.flagged f h.2⟩

/-- An event about what was marked. -/
theorem Poisons.ev {s t : State} (h : Poisons s t) (src sev : Nat) (data : List Nat) (region : Nat) :
    Poisons s (ev src sev data region t) where
  frame := changesOnly_trans h.frame (changesOnly_mono (by decide) (changesOnly_ev src sev data region t))
  listed := h.listed
  flagged := h.flagged
  loc := h.loc
  rebuilding := h.rebuilding

/-- What the loss of a folio's entry comes to before its event. -/
theorem folioLines_spec {s : State} {f n c : Nat} (hf : f < integMark) (h : HasRoom s (n + 256) (c + 1)) :
    ∃ v, s.entryLost f = ev 0x301 2 [f] 4 v ∧ Poisons s v ∧ HasRoom v n c ∧ WhollyPoisoned v f := by
  have hleft : markLeft s f ≤ 1 := by
    unfold markLeft
    split <;> omega
  have hpoison := h.poison
  have htail := h.tail
  have hroom : HasRoom s ((List.range 256).length + n) (c + markLeft s f) :=
    ⟨by rw [List.length_range]; omega, h.waiting, h.held, by omega⟩
  obtain ⟨hp, hleaves, hall⟩ := losePoison_fold hf (List.range 256) (fun i hi => List.mem_range.1 hi) s hroom
  exact ⟨_, rfl, hp, ⟨hleaves.poison, hleaves.waiting, hleaves.held, Nat.le_trans (Nat.add_le_add_left (Nat.le_add_right c _) _) hleaves.tail⟩,
    fun i hi => (hall i (List.mem_range.2 hi)).1, (hall 0 (List.mem_range.2 (by omega))).2⟩

theorem entryLost_spec {s : State} {f n c : Nat} (hf : f < integMark) (h : HasRoom s (n + 256) (c + 1)) :
    Poisons s (s.entryLost f) ∧ HasRoom (s.entryLost f) n c ∧ WhollyPoisoned (s.entryLost f) f := by
  obtain ⟨v, hv, hp, hroom, hwhole⟩ := folioLines_spec hf h
  rw [hv]
  exact ⟨hp.ev _ _ _ _, ⟨hroom.poison, hroom.waiting, hroom.held, hroom.tail⟩, hwhole⟩

theorem entriesLost_spec {c : Nat} (fs : List Nat) (hfs : ∀ f ∈ fs, f < integMark) (s : State)
    (h : HasRoom s (256 * fs.length) (c + fs.length)) :
    Poisons s (fs.foldl State.entryLost s) ∧ ∀ f ∈ fs, WhollyPoisoned (fs.foldl State.entryLost s) f := by
  induction fs generalizing s with
  | nil => exact ⟨Poisons.refl s, fun f hf => absurd hf List.not_mem_nil⟩
  | cons f fs ih =>
    rw [List.length_cons, Nat.mul_add, Nat.mul_one, ← Nat.add_assoc] at h
    obtain ⟨hp, hroom, hwhole⟩ := entryLost_spec (hfs f List.mem_cons_self) h
    obtain ⟨hps, hall⟩ := ih (fun g hg => hfs g (List.mem_cons_of_mem _ hg)) (s.entryLost f) hroom
    rw [List.foldl_cons]
    refine ⟨hp.trans hps, fun g hg => ?_⟩
    obtain rfl | hg := List.mem_cons.1 hg
    · exact hwhole.of_poisons hps
    · exact hall g hg

/-! ## The folios of a map word -/

/-- A data word of 8 bytes has entries of two folios at most. -/
theorem length_wordFolios_le (s : State) (d w : Nat) : (s.wordFolios d w).length ≤ 2 := by
  unfold State.wordFolios
  refine (List.length_filter_le _ _).trans ?_
  rw [List.length_map, List.length_range]
  omega

theorem lt_of_mem_wordFolios {s : State} {d w f : Nat} (h : f ∈ s.wordFolios d w) : f < integMark := by
  have hlt : f < s.folios := of_decide_eq_true (List.mem_filter.1 h).2
  have hle : s.folios ≤ 536870912 := by
    unfold State.folios State.capGib
    split <;> omega
  unfold integMark
  omega

section
variable (t w n : Nat) (d : Fin 4) (s : State)

/-- The map when the folios of a word no longer wait for their entries. -/
def wordDone (s : State) (d w : Nat) : Map :=
  { s.map with rebuilding := s.map.rebuilding.filter (fun f => !(s.wordFolios d w).contains f) }

theorem exec_mapWordRebuildComplete_rebuilt (h : (s.wordFolios d.val w).any (fun f => s.map.rebuilding.contains f) = true) :
    exec (.mapWordRebuildComplete t d w (some (true, n))) s =
      .next (ev 0x300 1 (s.wordFolios d.val w ++ [n]) 4 { s.tick t with map := wordDone s d.val w }) :=
  if_neg (by
    change ¬(!(s.wordFolios d.val w).any (fun f => s.map.rebuilding.contains f)) = true
    rw [h]
    exact Bool.false_ne_true)

theorem exec_mapWordRebuildComplete_lost (h : (s.wordFolios d.val w).any (fun f => s.map.rebuilding.contains f) = true) :
    exec (.mapWordRebuildComplete t d w (some (false, n))) s =
      .next ((s.wordFolios d.val w).foldl State.entryLost { s.tick t with map := wordDone s d.val w }) :=
  if_neg (by
    change ¬(!(s.wordFolios d.val w).any (fun f => s.map.rebuilding.contains f)) = true
    rw [h]
    exact Bool.false_ne_true)

theorem exec_mapWordRebuildComplete_unknown (r : Bool × Nat)
    (h : (s.wordFolios d.val w).any (fun f => s.map.rebuilding.contains f) = false) :
    exec (.mapWordRebuildComplete t d w (some r)) s = .next (s.tick t) :=
  if_pos (by
    change (!(s.wordFolios d.val w).any (fun f => s.map.rebuilding.contains f)) = true
    rw [h]
    rfl)

end

/-- Every folio of a word whose entries no sealed checkpoint gives is poisoned where it lies. -/
theorem wordLost_spec {s : State} (t d w : Nat) (hp : s.map.poison.length ≤ 7424) (hc : s.changesWait = false)
    (htail : s.map.tail.length ≤ 4093) :
    Poisons { s.tick t with map := wordDone s d w } ((s.wordFolios d w).foldl State.entryLost { s.tick t with map := wordDone s d w }) ∧
      ∀ f ∈ s.wordFolios d w, WhollyPoisoned ((s.wordFolios d w).foldl State.entryLost { s.tick t with map := wordDone s d w }) f := by
  have hlen := length_wordFolios_le s d w
  unfold State.changesWait at hc
  rw [Bool.or_eq_false_iff, Bool.or_eq_false_iff, Bool.not_eq_false', List.isEmpty_iff] at hc
  obtain ⟨⟨hwaiting, hheld⟩, _⟩ := hc
  exact entriesLost_spec (c := 0) _ (fun f hf => lt_of_mem_wordFolios hf) _
    ⟨by change s.map.poison.length + _ ≤ 8192; omega, hwaiting, hheld, by change s.map.tail.length + _ ≤ 4096; omega⟩

end Sys2Proof.Proofs
end

section
/-! PROOFS: what the map's commands rest on, the medium's own reads and copies (06_map_placement_reclaim). -/

namespace Sys2Proof.Proofs

open Sys2Proof Sys2Proof.Machine Sys2Proof.Safety Sys2Proof.Laws

/-! ## What the medium's own reads and writes leave -/

theorem changesOnly_setCal (s : State) (y : Cal) : changesOnly [.cal] s { s with cal := y } := by
  intro g hg
  have h0 := same_refl g s
  cases g
  case cal => cases hg
  all_goals exact h0

/-- From s to t the medium worked: stripe blocks kept their members, no die was retired, and no update began or ended. -/
structure MediumWork (s t : State) : Prop where
  frame : changesOnly [.out, .events, .regs, .med, .cal] s t
  members : ∀ g b, (t.block g b).members = (s.block g b).members
  retired : ∀ i, (t.die i).retired = (s.die i).retired
  updates : t.med.updates = s.med.updates

theorem MediumWork.refl (s : State) : MediumWork s s := ⟨changesOnly_refl _ s, fun _ _ => rfl, fun _ => rfl, rfl⟩

theorem MediumWork.trans {s t u : State} (h : MediumWork s t) (k : MediumWork t u) : MediumWork s u where
  frame := changesOnly_trans h.frame k.frame
  members := fun g b => (k.members g b).trans (h.members g b)
  retired := fun i => (k.retired i).trans (h.retired i)
  updates := k.updates.trans h.updates

theorem MediumWork.foldl {α : Type} {f : State → α → State} (hf : ∀ s a, MediumWork s (f s a)) (as : List α) (s : State) :
    MediumWork s (as.foldl f s) := by
  induction as generalizing s with
  | nil => exact MediumWork.refl s
  | cons a as ih => exact (hf s a).trans (ih (f s a))

theorem MediumWork.dieAt {s t : State} (h : MediumWork s t) (l : Loc) (n : Nat) : t.dieAt l n = s.dieAt l n := by
  unfold State.dieAt sectorPlace
  rw [h.members]

theorem MediumWork.map {s t : State} (h : MediumWork s t) : t.map = s.map := h.frame .map rfl

theorem MediumWork.of_quiet {s t : State} (h : Quiet s t) : MediumWork s t where
  frame := changesOnly_mono (by decide) h
  members := fun g b => h.keeps (fun u => (u.block g b).members) (fun _ => rfl)
  retired := fun i => h.keeps (fun u => (u.die i).retired) (fun _ => rfl)
  updates := h.keeps (fun u => u.med.updates) (fun _ => rfl)

/-- A change of the medium that leaves stripe blocks, dies and updates. -/
theorem MediumWork.setMed {s : State} {m : Media} (hb : m.blocks = s.med.blocks) (hd : m.dies = s.med.dies)
    (hu : m.updates = s.med.updates) : MediumWork s { s with med := m } where
  frame := changesOnly_mono (by decide) (changesOnly_setMed s m)
  members := fun g b => by
    unfold State.block
    rw [hb]
  retired := fun i => by
    unfold State.die
    rw [hd]
  updates := hu

theorem MediumWork.setCal (s : State) (y : Cal) : MediumWork s { s with cal := y } :=
  ⟨changesOnly_mono (by decide) (changesOnly_setCal s y), fun _ _ => rfl, fun _ => rfl, rfl⟩

theorem MediumWork.setFresh (s : State) (n : Nat) : MediumWork s { s with fresh := n } :=
  ⟨changesOnly_mono (by decide) (changesOnly_setFresh s n), fun _ _ => rfl, fun _ => rfl, rfl⟩

theorem retired_setAt {ds : List Die} {i : Nat} {d : Die} (h : d.retired = (ds.getD i Die.atReset).retired) (j : Nat) :
    ((setAt ds i d).getD j Die.atReset).retired = (ds.getD j Die.atReset).retired := by
  unfold setAt
  rw [List.getD_eq_getElem?_getD, List.getElem?_set]
  split
  next hij =>
    subst hij
    split
    next hlt => exact h
    next hlt => rw [List.getD_eq_getElem?_getD, List.getElem?_eq_none (Nat.not_lt.1 hlt)]
  next => rw [List.getD_eq_getElem?_getD]

theorem MediumWork.setDie {s : State} {i : Nat} {d : Die} (h : d.retired = (s.die i).retired) : MediumWork s (s.setDie i d) where
  frame := changesOnly_mono (by decide) (changesOnly_setMed s _)
  members := fun _ _ => rfl
  retired := retired_setAt h
  updates := rfl

theorem members_put {t : Tab StripeBlock} {k : Nat} {x y : StripeBlock} (hx : Tab.find t k = some x) (h : y.members = x.members) (j : Nat) :
    (Tab.findD (Tab.put t k y) j StripeBlock.blank).members = (Tab.findD t j StripeBlock.blank).members := by
  by_cases hj : j = k
  · subst hj
    rw [Tab.findD_put_same]
    unfold Tab.findD
    rw [hx]
    exact h
  · rw [Tab.findD_put_other _ _ _ _ _ hj]

/-- A stripe block is changed and keeps its members. -/
theorem MediumWork.putBlock {s : State} {k : Nat} {x y : StripeBlock} (hx : Tab.find s.med.blocks k = some x)
    (h : y.members = x.members) : MediumWork s { s with med := { s.med with blocks := Tab.put s.med.blocks k y } } where
  frame := changesOnly_mono (by decide) (changesOnly_setMed s _)
  members := fun _ _ => members_put hx h _
  retired := fun _ => rfl
  updates := rfl

/-! ## Reads of the card's own -/

/-- The medium was read: what its sectors hold is as before. -/
structure MediumRead (s t : State) : Prop extends MediumWork s t where
  secs : t.med.secs = s.med.secs

theorem MediumRead.refl (s : State) : MediumRead s s := ⟨MediumWork.refl s, rfl⟩

theorem MediumRead.trans {s t u : State} (h : MediumRead s t) (k : MediumRead t u) : MediumRead s u :=
  ⟨h.toMediumWork.trans k.toMediumWork, k.secs.trans h.secs⟩

theorem MediumRead.foldl {α : Type} {f : State → α → State} (hf : ∀ s a, MediumRead s (f s a)) (as : List α) (s : State) :
    MediumRead s (as.foldl f s) := by
  induction as generalizing s with
  | nil => exact MediumRead.refl s
  | cons a as ih => exact (hf s a).trans (ih (f s a))

theorem MediumRead.of_quiet {s t : State} (h : Quiet s t) : MediumRead s t :=
  ⟨.of_quiet h, h.keeps (fun u => u.med.secs) (fun _ => rfl)⟩

theorem mediumRead_reach (s : State) (c : Nat) : MediumRead s (s.reach c) := ⟨.setMed rfl rfl rfl, rfl⟩

theorem mediumRead_touch (s : State) (i : Nat) : MediumRead s (s.touch i) :=
  (mediumRead_reach s (dieChannel i)).trans ⟨.setDie rfl, rfl⟩

theorem mediumRead_sense (s : State) (i : Nat) : MediumRead s (s.sense i) :=
  ((mediumRead_touch s i).trans (.of_quiet (quiet_bump _ _ 1 i))).trans ⟨.setMed rfl rfl rfl, rfl⟩

theorem mediumRead_setMargin {s : State} {k : Nat} {x y : StripeBlock} (hx : Tab.find s.med.blocks k = some x)
    (h : y.members = x.members) (m : Int) (cause : Option Nat) : MediumRead s (s.setMargin k y m cause) := by
  have hput : MediumRead s { s with med := { s.med with blocks := Tab.put s.med.blocks k { y with
      margin := m, due := if cause.isSome && y.due.isNone then cause else y.due,
      dueSeq := if cause.isSome && y.due.isNone then s.cal.dueCount else y.dueSeq } } } := ⟨.putBlock hx h, rfl⟩
  exact (hput.trans ⟨.setFresh _ (s.fresh + 1), rfl⟩).trans ⟨.setCal _ _, rfl⟩

theorem mediumRead_noteCount (s : State) (k i bin corrected : Nat) : MediumRead s (s.noteCount k i bin corrected) := by
  unfold State.noteCount
  split
  · exact .refl s
  next x hx =>
    extract_lets new y m
    exact mediumRead_setMargin (y := y) hx rfl _ _

theorem mediumRead_noteOld (s : State) (k i w : Nat) : MediumRead s (s.noteOld k i w) := by
  unfold State.noteOld
  split
  · exact .refl s
  next x hx =>
    split
    · have hput : MediumRead s { s with med := { s.med with blocks := Tab.put s.med.blocks k { x with oldStamp := true } } } :=
        ⟨.putBlock hx rfl, rfl⟩
      exact hput.trans (.of_quiet (quiet_ev 0x38A 0 _ 4 _))
    · exact .refl s

theorem mediumRead_countCorrected (s : State) (n : Nat) : MediumRead s (s.countCorrected n) := by
  unfold State.countCorrected
  split
  · exact .refl s
  · exact .of_quiet (((quiet_bump s _ 1 0).trans (quiet_bump _ _ 1 0)).trans (quiet_count _ 1 none _))

theorem mediumRead_decoded (s : State) (k i key w corrected : Nat) (reports : List (Nat × Bool)) :
    MediumRead s (s.decoded k i key w corrected reports) := by
  have hreport : MediumRead s (s.report key corrected reports) := ⟨.setCal s _, rfl⟩
  exact ((hreport.trans (mediumRead_countCorrected _ _)).trans (mediumRead_noteCount _ _ _ _ _)).trans (mediumRead_noteOld _ _ _ _)

theorem mediumRead_selfDecoded (s : State) (l : Loc) (n flips : Nat) : MediumRead s (s.selfDecoded l n flips) :=
  MediumRead.trans ⟨.setFresh s (s.fresh + 1), rfl⟩ (mediumRead_decoded _ _ _ _ _ _ _)

/-! ## Copies of folios whose sectors decode -/

/-- Sector n at a location lies on a die that answers, and decodes where it is stored. -/
def CleanSector (s : State) (l : Loc) (n : Nat) : Prop :=
  (s.die (s.dieAt l n)).retired = false ∧ ∀ x, s.sectorAt l n = some x → x.lost = false ∧ x.bad 21 = false

theorem sourceClean_iff {s : State} {l : Loc} : sourceClean s l = true ↔ ∀ n < 64, CleanSector s l n := by
  unfold sourceClean CleanSector
  rw [List.all_eq_true]
  simp only [List.mem_range, Bool.and_eq_true, Bool.not_eq_true']
  refine forall₂_congr fun n _ => and_congr_right fun _ => ?_
  cases s.sectorAt l n with
  | none => simp
  | some x => simp

theorem CleanSector.of_read {s t : State} {l : Loc} {n : Nat} (h : CleanSector s l n) (k : MediumRead s t) : CleanSector t l n := by
  unfold CleanSector State.sectorAt
  rw [k.dieAt, k.retired, k.secs]
  exact h

/-- A sector that decodes is read with no recovery. -/
theorem mediumRead_readSource {s : State} {l : Loc} {n : Nat} (h : CleanSector s l n) : MediumRead s (State.readSource l s n) := by
  unfold State.readSource
  dsimp only
  split
  · exact .refl s
  next x hx =>
    obtain ⟨hlost, hbad⟩ := h.2 x hx
    rw [hlost, h.1, hbad]
    exact (mediumRead_sense s _).trans (mediumRead_selfDecoded _ l n x.flips)

theorem mediumRead_readSources {l : Loc} (ns : List Nat) (s : State) (h : ∀ n ∈ ns, CleanSector s l n) :
    MediumRead s (ns.foldl (State.readSource l) s) := by
  induction ns generalizing s with
  | nil => exact .refl s
  | cons n ns ih =>
    have hn := mediumRead_readSource (h n List.mem_cons_self)
    exact hn.trans (ih _ (fun m hm => (h m (List.mem_cons_of_mem n hm)).of_read hn))

theorem mediumWork_stampSector (s : State) (f : Nat) (l : Loc) (kind flips n : Nat) : MediumWork s (s.stampSector f l kind flips n) :=
  .setMed rfl rfl rfl

theorem mediumWork_keepStored (s : State) (l : Loc) (ix : Nat) (x : Stored) : MediumWork s (s.keepStored l ix x) := .setMed rfl rfl rfl

theorem mediumWork_clearSlot (s : State) (l : Loc) : MediumWork s (s.clearSlot l) := .setMed rfl rfl rfl

theorem mediumWork_copyFolio {s : State} {old : Loc} (h : sourceClean s old = true) (new : Loc) : MediumWork s (s.copyFolio old new) := by
  unfold State.copyFolio
  extract_lets s1 lost s2
  have hread : MediumRead s s1 :=
    mediumRead_readSources (List.range 64) s (fun n hn => sourceClean_iff.1 h n (List.mem_range.1 hn))
  clear_value s1
  have hstored : MediumWork s s2 := (hread.toMediumWork.trans (mediumWork_clearSlot s1 new)).trans
    (MediumWork.foldl (fun s e => mediumWork_keepStored s new e.1 _) (s1.linesAt old) _)
  refine hstored.trans (MediumWork.foldl (fun s n => ?_) (List.range 64) s2)
  split
  · exact mediumWork_stampSector s _ new _ 0 n
  · exact .refl s

end Sys2Proof.Proofs
end

section
/-! PROOFS: what the map's commands rest on, demotion and rotation (06_map_placement_reclaim). -/

namespace Sys2Proof.Proofs

open Sys2Proof Sys2Proof.Machine Sys2Proof.Safety Sys2Proof.Laws

/-! ## Internal operations, and slots of open pages -/

theorem changesOnly_internalOp (m o n : Nat) (dpa : Option Nat) (s : State) :
    changesOnly [.out, .events, .regs, .qos] s (internalOp m o n dpa s) := by
  unfold internalOp
  split
  · exact changesOnly_refl _ s
  · extract_lets b s1
    have hcounted : Quiet s s1 := (quiet_bump s _ b m).trans (quiet_high _ _ _ 0)
    clear_value s1
    exact changesOnly_mono (by decide) (changesOnly_append hcounted (changesOnly_append (changesOnly_setQos s1 _) (quiet_count _ n _ _)))

/-- The map when folio f has taken the next slot of group g's open page p at a time. -/
def slotTaken (m : Map) (g next now : Nat) (p : OpenPage) (f : Nat) : Map :=
  { m with nextGroup := next,
           pages := Tab.put m.pages g { p with folios := p.folios ++ [some f], since := some (p.since.getD now) } }

/-- The next slot of group g's open page p. -/
def nextSlot (s : State) (g : Nat) (p : OpenPage) : Loc :=
  ⟨g, p.block, p.page * ((s.block g p.block).members.length - 1) + p.folios.length⟩

section
variable {s : State} {g : Nat} {r : List Nat} {p : OpenPage} (hturn : (s.turn s.map.nextGroup).filter s.groupOpen = g :: r)
  (hpage : Tab.find s.map.pages g = some p) (hroom : p.folios.length + 2 < (s.block g p.block).members.length)
include hturn hpage hroom

/-- A folio takes a slot of a page that it does not fill. -/
theorem pageSlot_of_room (f : Nat) : s.pageSlot f =
    ({ s with map := slotTaken s.map g ((g + 1) % s.groups) s.now p f }, some (nextSlot s g p)) := by
  have hblock : State.block { s with map := { s.map with nextGroup := (g + 1) % s.groups } } g p.block = s.block g p.block := rfl
  unfold State.pageSlot
  rw [hturn]
  unfold State.fillPage
  dsimp only
  rw [hpage]
  dsimp only
  rw [hblock, List.length_append, List.length_singleton, if_neg (by omega)]
  rfl

/-- A folio moves to an open page: a copy of it lies there, and waits for the page. -/
theorem moveToPage_of_room {f : Nat} {o : Loc} (ho : (s.entry f).loc = some o) (kind : Nat) : s.moveToPage f kind =
    (State.copyFolio { s with map := slotTaken s.map g ((g + 1) % s.groups) s.now p f } o (nextSlot s g p)).setHome f
      ⟨kind, nextSlot s g p, false, [], 0, 0, s.epochMode f, false, false, some o⟩ := by
  unfold State.moveToPage
  rw [ho, pageSlot_of_room hturn hpage hroom]

end

@[simp] theorem setHome_med (s : State) (f : Nat) (h : Home) : (s.setHome f h).med = s.med := rfl
@[simp] theorem setHome_map (s : State) (f : Nat) (h : Home) : (s.setHome f h).map = { s.map with homes := Tab.put s.map.homes f h } := rfl
@[simp] theorem setHome_dieAt (s : State) (f : Nat) (h : Home) (l : Loc) (n : Nat) : (s.setHome f h).dieAt l n = s.dieAt l n := rfl
@[simp] theorem setHome_die (s : State) (f : Nat) (h : Home) (i : Nat) : (s.setHome f h).die i = s.die i := rfl

theorem changesOnly_setHome (s : State) (f : Nat) (h : Home) : changesOnly [.map] s (s.setHome f h) := changesOnly_setMap s _

/-- A copy of a folio begins: its sectors decode at their old place, and its placement is noted. -/
theorem copy_setHome {s : State} {o : Loc} (hclean : sourceClean s o = true) (l : Loc) (f : Nat) (h : Home) :
    ((s.copyFolio o l).setHome f h).map = { s.map with homes := Tab.put s.map.homes f h } ∧
      changesOnly [.out, .events, .regs, .med, .cal, .map] s ((s.copyFolio o l).setHome f h) := by
  have hwork := mediumWork_copyFolio hclean l
  refine ⟨?_, changesOnly_mono (by decide) (changesOnly_append hwork.frame (changesOnly_setHome _ f h))⟩
  rw [setHome_map, hwork.map]

/-! ## Demotion -/

section
variable {t : Nat} {f : BitVec 29} {s : State}

theorem exec_demotion (hstop : s.movesStop = false) (hfull : s.beadFull = true) (hfree : s.icFree 1 = true)
    (hcold : s.coldest = some f.toNat) :
    exec (.demotion t f) s = .next (internalOp 1 0 64 (some (f.toNat * 16384)) ((s.tick t).moveToPage f.toNat 2)) := by
  have hstop' : (s.tick t).movesStop = false := hstop
  have hfull' : (s.tick t).beadFull = true := hfull
  have hfree' : (s.tick t).icFree 1 = true := hfree
  have hcold' : (s.tick t).coldest = some f.toNat := hcold
  change execDemotion t f s = _
  unfold execDemotion
  dsimp only
  rw [hstop', hfull', hfree', hcold']
  exact congrArg Host.Outcome.next (if_pos rfl)

theorem exec_demotion_off (h : s.movesStop = true ∨ s.beadFull = false) : exec (.demotion t f) s = .next (s.tick t) := by
  refine if_pos ?_
  change (s.movesStop || !s.beadFull || !s.icFree 1) = true
  obtain h | h := h <;> simp [h]

/-- The coldest bead folio moves to an open page. -/
theorem completes_demotion {g : Nat} {r : List Nat} {o : Loc} {p : OpenPage} (hstop : s.movesStop = false) (hfull : s.beadFull = true)
    (hfree : s.icFree 1 = true) (hcold : s.coldest = some f.toNat) (ho : (s.entry f.toNat).loc = some o)
    (hclean : sourceClean s o = true) (hturn : (s.turn s.map.nextGroup).filter s.groupOpen = g :: r)
    (hpage : Tab.find s.map.pages g = some p) (hroom : p.folios.length + 2 < (s.block g p.block).members.length) :
    completes (.demotion t f) s (fun u => u.map = { slotTaken s.map g ((g + 1) % s.groups) (max s.now t) p f.toNat with
        homes := Tab.put s.map.homes f.toNat ⟨2, nextSlot s g p, false, [], 0, 0, s.epochMode f.toNat, false, false, some o⟩ } ∧
      changesOnly [.time, .out, .events, .regs, .qos, .med, .map, .cal] s u) := by
  refine ⟨_, exec_demotion hstop hfull hfree hcold, ?_⟩
  rw [moveToPage_of_room (s := s.tick t) hturn hpage hroom ho]
  have hslot : changesOnly [.map] (s.tick t) { s.tick t with map := slotTaken s.map g ((g + 1) % s.groups) (max s.now t) p f.toNat } :=
    changesOnly_setMap _ _
  obtain ⟨hmap, hcopy⟩ := copy_setHome (s := { s.tick t with map := slotTaken s.map g ((g + 1) % s.groups) (max s.now t) p f.toNat })
    hclean (nextSlot s g p) f.toNat ⟨2, nextSlot s g p, false, [], 0, 0, s.epochMode f.toNat, false, false, some o⟩
  have hop := changesOnly_internalOp 1 0 64 (some (f.toNat * 16384)) (State.setHome
    (State.copyFolio { s.tick t with map := slotTaken s.map g ((g + 1) % s.groups) (max s.now t) p f.toNat } o (nextSlot s g p)) f.toNat
    ⟨2, nextSlot s g p, false, [], 0, 0, s.epochMode f.toNat, false, false, some o⟩)
  exact ⟨(hop .map rfl).trans hmap, changesOnly_mono (by decide)
    (changesOnly_of_tick (changesOnly_append hslot (changesOnly_append hcopy hop)))⟩

end

/-! ## Dies that take operations, and updates that begin -/

/-- Dies that start operations stay in service. -/
theorem retired_foldl_started (s : State) (run : List (Nat × Waiting)) (ds : List Die)
    (h : ∀ i, (ds.getD i Die.atReset).retired = (s.die i).retired) (i : Nat) :
    ((run.foldl (fun ds e => setAt ds e.1 (s.started (s.die e.1) e.2)) ds).getD i Die.atReset).retired = (s.die i).retired := by
  induction run generalizing ds with
  | nil => exact h i
  | cons e run ih =>
    refine ih _ (fun j => ?_)
    exact (retired_setAt (d := s.started (s.die e.1) e.2) (h e.1).symm j).trans (h j)

theorem mediumWork_kick (s : State) : MediumWork s s.kick := by
  unfold State.kick
  split
  · exact .refl s
  · exact ⟨changesOnly_mono (by decide) (changesOnly_setMed s _), fun _ _ => rfl, retired_foldl_started s _ s.med.dies (fun _ => rfl), rfl⟩

theorem kick_blocks (s : State) : s.kick.med.blocks = s.med.blocks := by
  unfold State.kick
  split <;> rfl

theorem mediumRead_readStripe (l : Loc) (ns again : List Nat) (s : State) (k : Nat) : MediumRead s (State.readStripe l ns again s k) := by
  unfold State.readStripe
  dsimp only
  refine MediumRead.foldl (fun s d => ?_) _ s
  split
  · exact .refl s
  · exact mediumRead_sense s d

/-- While every update has something left to write, none is over. -/
theorem endUpdates_of_busy {s : State} (h : ∀ u ∈ s.med.updates, u.data ≠ []) : s.endUpdates = s := by
  have hbusy : ∀ u ∈ s.med.updates, (u.data.isEmpty && u.parity.isEmpty) = false := fun u hu => by
    rw [List.isEmpty_eq_false_iff.2 (h u hu), Bool.false_and]
  have hended : s.med.updates.filter (fun u => u.data.isEmpty && u.parity.isEmpty) = [] :=
    List.filter_eq_nil_iff.2 (fun u hu => by rw [hbusy u hu]; exact Bool.false_ne_true)
  have hkept : s.med.updates.filter (fun u => !(u.data.isEmpty && u.parity.isEmpty)) = s.med.updates :=
    List.filter_eq_self.2 (fun u hu => by rw [hbusy u hu]; rfl)
  unfold State.endUpdates
  rw [hended, hkept]
  rfl

/-- The first update of all begins, of a folio whose first sector lies on a die that answers. -/
theorem startUpdate_first {s : State} {l : Loc} (hnone : s.med.updates = []) (hdie : (s.die (s.dieAt l 0)).retired = false) (f : Nat) :
    (s.startUpdate f l (List.range 64)).med.updates.map (fun x => (x.folio, x.loc)) = [(f, l)] ∧
      changesOnly [.out, .events, .regs, .med, .cal] s (s.startUpdate f l (List.range 64)) := by
  have hwrite : ∀ n, s.stillToWrite l n = false := fun n => by
    unfold State.stillToWrite
    rw [hnone]
    exact Bool.and_false _
  have hall : (List.range 64).filter (fun n => !s.stillToWrite l n) = List.range 64 :=
    List.filter_eq_self.2 (fun n _ => by rw [hwrite]; rfl)
  unfold State.startUpdate
  rw [hall]
  extract_lets ns ks s1 u
  have hread : MediumRead s s1 := MediumRead.foldl (mediumRead_readStripe l ns []) ks s
  have hdata : u.data ≠ [] := List.ne_nil_of_mem (List.mem_filter.2 ⟨List.mem_range.2 (by decide : 0 < 64), by rw [hdie]; rfl⟩)
  have hloc : (u.folio, u.loc) = (f, l) := rfl
  clear_value s1 u
  have hone : s1.med.updates ++ [u] = [u] := by rw [hread.updates, hnone, List.nil_append]
  rw [hone, endUpdates_of_busy (by simpa using hdata)]
  have hkick := mediumWork_kick { s1 with med := { s1.med with updates := [u] } }
  constructor
  · rw [hkick.updates]
    exact congrArg (fun x => [x]) hloc
  · exact changesOnly_trans (changesOnly_trans hread.frame (changesOnly_mono (by decide) (changesOnly_setMed s1 _))) hkick.frame

/-! ## Rotation -/

theorem beadSlot_of_beadFree {s : State} {integrity : Bool} {avoid : Option Nat} {l : Loc} (h : s.beadFree integrity avoid = some l) :
    s.beadSlot integrity avoid = (s, some l) := by
  unfold State.beadSlot
  rw [h]

theorem sourceClean_congr {s t : State} (h : t.med = s.med) (l : Loc) : sourceClean t l = sourceClean s l := by
  unfold sourceClean State.dieAt State.die State.block State.sectorAt
  rw [h]

theorem epochMode_congr {s t : State} (h : t.key = s.key) (f : Nat) : t.epochMode f = s.epochMode f := by
  unfold State.epochMode State.extentAt State.extentOf
  rw [h]

/-- A folio moves to a bead slot while no update runs. -/
theorem moveBead_first {s : State} {o l : Loc} (hclean : sourceClean s o = true) (hidle : s.med.updates = [])
    (hdie : (s.die (s.dieAt l 0)).retired = false) (f kind : Nat) :
    (s.moveBead f kind o l).map =
        { s.map with homes := Tab.put s.map.homes f ⟨kind, l, true, [], 0, 0, s.epochMode f, false, false, some o⟩ } ∧
      (s.moveBead f kind o l).med.updates.map (fun x => (x.folio, x.loc)) = [(f, l)] ∧
      changesOnly [.out, .events, .regs, .med, .cal, .map] s (s.moveBead f kind o l) := by
  unfold State.moveBead
  have hwork := mediumWork_copyFolio hclean l
  obtain ⟨hmap, hcopy⟩ := copy_setHome hclean l f ⟨kind, l, true, [], 0, 0, s.epochMode f, false, false, some o⟩
  obtain ⟨hupdates, hstart⟩ := startUpdate_first
    (s := (s.copyFolio o l).setHome f ⟨kind, l, true, [], 0, 0, s.epochMode f, false, false, some o⟩) (l := l)
    (by rw [setHome_med, hwork.updates, hidle]) (by rw [setHome_dieAt, setHome_die, hwork.dieAt, hwork.retired, hdie]) f
  generalize (s.copyFolio o l).setHome f ⟨kind, l, true, [], 0, 0, s.epochMode f, false, false, some o⟩ = v at hmap hcopy hstart hupdates ⊢
  exact ⟨(hstart .map rfl).trans hmap, hupdates, changesOnly_trans hcopy (changesOnly_mono (by decide) hstart)⟩

section
variable {t : Nat} {f : BitVec 29} {b : Bead} {s : State}

theorem exec_beadRotation_early (hb : Tab.find s.map.beads f.toNat = some b) (h : b.homes < 1048576) :
    exec (.beadRotation t f) s = .next (s.tick t) := by
  change execBeadRotation t f s = _
  unfold execBeadRotation
  dsimp only [State.tick_map]
  rw [hb]
  split
  next b' o hb' ho =>
    cases hb'
    exact if_pos (by simp [rotateAt, h])
  next => rfl

theorem exec_beadRotation {o l : Loc} (hstop : s.movesStop = false) (hb : Tab.find s.map.beads f.toNat = some b)
    (ho : (s.entry f.toNat).loc = some o) (hbead : (s.entry f.toNat).bead = true) (hhomes : 1048576 ≤ b.homes)
    (hnone : Tab.find s.map.homes f.toNat = none) (hfree : s.icFree 1 = true)
    (hslot : s.beadFree false (some (blkKey o.group o.block)) = some l) : exec (.beadRotation t f) s =
      .next ((internalOp 1 1 64 (some (f.toNat * 16384)) (s.tick t)).moveBead f.toNat 3 o l) := by
  have hguard : ((s.tick t).movesStop || !(s.tick t).icFree 1 || !((s.tick t).entry f.toNat).bead || decide (b.homes < rotateAt) ||
      (Tab.find (s.tick t).map.homes f.toNat).isSome) = false := by
    change (s.movesStop || !s.icFree 1 || !(s.entry f.toNat).bead || decide (b.homes < rotateAt) ||
      (Tab.find s.map.homes f.toNat).isSome) = false
    rw [hstop, hfree, hbead, hnone, decide_eq_false (Nat.not_lt.2 hhomes)]
    rfl
  have ho' : ((s.tick t).entry f.toNat).loc = some o := ho
  change execBeadRotation t f s = _
  unfold execBeadRotation
  dsimp only
  rw [State.tick_map, hb, ho']
  dsimp only
  rw [if_neg (by simpa using hguard), beadSlot_of_beadFree (s := s.tick t) hslot]

/-- A bead folio moves to a slot of another bead block, and is written there before the map follows. -/
theorem completes_beadRotation {o l : Loc} (hstop : s.movesStop = false) (hb : Tab.find s.map.beads f.toNat = some b)
    (ho : (s.entry f.toNat).loc = some o) (hbead : (s.entry f.toNat).bead = true) (hhomes : 1048576 ≤ b.homes)
    (hnone : Tab.find s.map.homes f.toNat = none) (hfree : s.icFree 1 = true) (hclean : sourceClean s o = true)
    (hidle : s.med.updates = []) (hslot : s.beadFree false (some (blkKey o.group o.block)) = some l)
    (hdie : (s.die (s.dieAt l 0)).retired = false) :
    completes (.beadRotation t f) s (fun u =>
      u.map = { s.map with
        homes := Tab.put s.map.homes f.toNat ⟨3, l, true, [], 0, 0, s.epochMode f.toNat, false, false, some o⟩ } ∧
      u.med.updates.map (fun x => (x.folio, x.loc)) = [(f.toNat, l)] ∧
      changesOnly [.time, .out, .events, .regs, .qos, .med, .map, .cal] s u) := by
  refine ⟨_, exec_beadRotation hstop hb ho hbead hhomes hnone hfree hslot, ?_⟩
  have hop := changesOnly_internalOp 1 1 64 (some (f.toNat * 16384)) (s.tick t)
  generalize internalOp 1 1 64 (some (f.toNat * 16384)) (s.tick t) = v at hop ⊢
  have hmed : v.med = s.med := hop .med rfl
  have hmap : v.map = s.map := hop .map rfl
  have hmode : v.epochMode f.toNat = s.epochMode f.toNat := epochMode_congr (hop .key rfl) _
  have hdie' : (v.die (v.dieAt l 0)).retired = false := by
    unfold State.dieAt State.die State.block at hdie ⊢
    rw [hmed]
    exact hdie
  obtain ⟨hmoved, hupdates, hframe⟩ := moveBead_first ((sourceClean_congr hmed o).trans hclean) (by rw [hmed]; exact hidle) hdie' f.toNat 3
  rw [hmap, hmode] at hmoved
  exact ⟨hmoved, hupdates, changesOnly_mono (by decide) (changesOnly_of_tick (changesOnly_append hop hframe))⟩

end

end Sys2Proof.Proofs
end

section
/-! PROOFS: what the map's commands rest on, reclaim (06_map_placement_reclaim). -/

namespace Sys2Proof.Proofs

open Sys2Proof Sys2Proof.Machine Sys2Proof.Safety Sys2Proof.Laws

/-! ## Reclaim -/

section
variable {t : Nat} {g : Fin 4} {s : State}

/-- Reclaim of group g places the one version of its source in an open page. -/
theorem reclaimCopies_one {f b h : Nat} {l : Loc} {k : List Nat} {p : OpenPage} (hf : f < 2 ^ 29) (hinteg : s.integIn g.val b = [])
    (hturn : (s.turn s.map.nextGroup).filter s.groupOpen = h :: k) (hpage : Tab.find s.map.pages h = some p)
    (hroom : p.folios.length + 2 < (s.block h p.block).members.length) (hclean : sourceClean s l = true) :
    (s.reclaimCopies g.val ⟨b, 0, []⟩ [(f, l)]).map = { slotTaken s.map h ((h + 1) % s.groups) s.now p f with
        reclaim := Tab.put s.map.reclaim g.val ⟨b, 0, [(f, nextSlot s h p)]⟩ } ∧
      changesOnly [.out, .events, .regs, .qos, .med, .map, .cal] s (s.reclaimCopies g.val ⟨b, 0, []⟩ [(f, l)]) := by
  have hcopied : reclaimCopy (s, []) (f, l) =
      (State.copyFolio { s with map := slotTaken s.map h ((h + 1) % s.groups) s.now p f } l (nextSlot s h p), [(f, nextSlot s h p)]) := by
    unfold reclaimCopy
    dsimp only
    rw [Nat.mod_eq_of_lt hf, pageSlot_of_room hturn hpage hroom]
    rfl
  have hslot : changesOnly [.map] s { s with map := slotTaken s.map h ((h + 1) % s.groups) s.now p f } := changesOnly_setMap _ _
  have hwork := mediumWork_copyFolio (s := { s with map := slotTaken s.map h ((h + 1) % s.groups) s.now p f }) hclean (nextSlot s h p)
  unfold State.reclaimCopies
  rw [List.foldl_cons, List.foldl_nil, hcopied]
  generalize State.copyFolio { s with map := slotTaken s.map h ((h + 1) % s.groups) s.now p f } l (nextSlot s h p) = v at hwork ⊢
  have hnone : v.integIn g.val b = [] := by
    unfold State.integIn
    rw [hwork.map]
    exact hinteg
  dsimp only
  rw [hnone]
  have hput := changesOnly_setMap v { v.map with reclaim := Tab.put v.map.reclaim g.val ⟨b, 0, [(f, nextSlot s h p)]⟩ }
  have hop := changesOnly_internalOp 0 0 64 none { v with
    map := { v.map with reclaim := Tab.put v.map.reclaim g.val ⟨b, 0, [(f, nextSlot s h p)]⟩ } }
  have hmap := hop .map rfl
  constructor
  · refine hmap.trans ?_
    dsimp only
    rw [hwork.map]
    rfl
  · exact changesOnly_mono (by decide) (changesOnly_append hslot (changesOnly_append hwork.frame (changesOnly_append hput hop)))

theorem exec_reclaimSourceChosen {b : Nat} (hstop : s.movesStop = false) (hnone : Tab.find s.map.reclaim g.val = none)
    (hfree : s.icFree 0 = true) (hdue : s.map.floorOn.getLsbD g.val = true ∨ s.idleNow = true) (hsource : s.source g.val = some b) :
    exec (.reclaimSourceChosen t g) s = .next ((s.tick t).reclaimCopies g.val ⟨b, 0, []⟩ (s.versionsIn g.val b)) := by
  have hguard : (s.movesStop || !s.icFree 0 || (!s.map.floorOn.getLsbD g.val && !s.idleNow)) = false := by
    rw [hstop, hfree]
    obtain h | h := hdue <;> rw [h] <;> simp
  have hsource' : (s.tick t).source g.val = some b := hsource
  refine (if_neg (Bool.eq_false_iff.1 hguard)).trans ?_
  rw [State.tick_map, hnone, hsource']
  rfl

theorem exec_reclaimSourceChosen_off (h : s.movesStop = true ∨ (s.source g.val = none ∧ Tab.find s.map.reclaim g.val = none) ∨
    (s.map.floorOn.getLsbD g.val = false ∧ s.idleNow = false)) : exec (.reclaimSourceChosen t g) s = .next (s.tick t) := by
  change (if (s.movesStop || !s.icFree 0 || (!s.map.floorOn.getLsbD g.val && !s.idleNow)) = true then Host.Outcome.next (s.tick t)
    else _) = _
  split
  · rfl
  next hgo =>
    obtain h | ⟨hsource, hnone⟩ | ⟨hfloor, hidle⟩ := h
    · rw [h] at hgo
      exact absurd rfl hgo
    · have hsource' : (s.tick t).source g.val = none := hsource
      rw [State.tick_map, hnone, hsource']
    · rw [hfloor, hidle] at hgo
      simp at hgo

/-- A group without a job has nothing to complete, commit or free. -/
theorem exec_reclaim_none (h : Tab.find s.map.reclaim g.val = none) :
    exec (.reclaimCopyComplete t g) s = .next (s.tick t) ∧ exec (.reclaimCommitDurable t g) s = .next (s.tick t) ∧
    exec (.reclaimDrainComplete t g) s = .next (s.tick t) := by
  refine ⟨?_, ?_, ?_⟩
  · change execReclaimCopyComplete t g s = _
    unfold execReclaimCopyComplete
    dsimp only
    rw [State.tick_map, h]
  · change execReclaimCommitDurable t g s = _
    unfold execReclaimCommitDurable
    dsimp only
    rw [State.tick_map, h]
  · change execReclaimDrainComplete t g s = _
    unfold execReclaimDrainComplete
    dsimp only
    rw [State.tick_map, h]

/-- A copy of a folio's base is committed where the base still lies in the source. -/
theorem commitCopy_base {b f : Nat} (hf : f < 2 ^ 29) (l : Loc) (g : Nat) : commitCopy g b s (f, l) =
    if inBlock g b (s.entry f).loc then s.mapChange f (some { s.entry f with loc := some l }) 4 else s.bump MAP_RECLAIM.moves_dropped := by
  unfold commitCopy
  dsimp only
  rw [Nat.mod_eq_of_lt hf, if_pos hf]

/-- What the commit of a folio's base leaves. -/
theorem commitCopy_base_spec {b f : Nat} (hf : f < 2 ^ 29) (hw : s.changesWait = false) (l : Loc) (g : Nat) :
    (commitCopy g b s (f, l)).entry f = (if inBlock g b (s.entry f).loc then { s.entry f with loc := some l } else s.entry f) ∧
      (commitCopy g b s (f, l)).map.tail =
        (if inBlock g b (s.entry f).loc then s.map.tail ++ [⟨f, some { s.entry f with loc := some l }, 4⟩] else s.map.tail) ∧
      changesOnly [.out, .events, .regs, .map] s (commitCopy g b s (f, l)) := by
  have hmark : f < integMark := by
    unfold integMark
    omega
  rw [commitCopy_base hf]
  split
  next =>
    obtain ⟨n, u, hm⟩ := mapChange_map hmark hw { s.entry f with loc := some l } 4
    refine ⟨?_, by rw [hm], changesOnly_mono (by decide) (changesOnly_mapChange s f _ 4)⟩
    rw [entry_of_put (congrArg Map.entries hm), if_pos rfl]
  next =>
    refine ⟨?_, by rw [State.bump_map], changesOnly_mono (by decide) (quiet_bump s _ 1 0)⟩
    unfold State.entry
    rw [State.bump_map]

theorem changesWait_of_not_movesStop (h : s.movesStop = false) : s.changesWait = false := by
  unfold State.movesStop at h
  simp only [Bool.or_eq_false_iff] at h
  exact h.1.1.2

section
variable {r : Reclaim} {f : Nat} {l : Loc} (hr : Tab.find s.map.reclaim g.val = some r) (hcopies : r.copies = [(f, l)])
include hr hcopies

/-- The one copy of a job lies in a complete page: it is committed. -/
theorem exec_reclaimCopyComplete (hphase : r.phase = 0) (hstop : s.movesStop = false) (htail : s.map.tail.length ≤ 4095)
    (hall : s.toCopy g.val r = []) (hopen : s.pageOpen l = false) : exec (.reclaimCopyComplete t g) s =
      .next (let s2 := (commitCopy g.val r.source (s.tick t) (f, l)).bump MAP_COPIED.folios 1
        { s2 with map := { s2.map with reclaim := Tab.put s2.map.reclaim g.val { r with phase := 1 } } }) := by
  have hguard : (decide (r.phase ≠ 0) || s.movesStop || !decide (s.map.tail.length + r.copies.length ≤ tailMax) ||
      !(s.toCopy g.val r).isEmpty || r.copies.any (fun c => s.pageOpen c.2)) = false := by
    have hroom : s.map.tail.length + 1 ≤ tailMax := Nat.succ_le_succ htail
    rw [hstop, hall, hcopies]
    simp [hphase, hopen, hroom]
  change execReclaimCopyComplete t g s = _
  unfold execReclaimCopyComplete
  dsimp only
  rw [State.tick_map, hr]
  refine (if_neg (Bool.eq_false_iff.1 hguard)).trans ?_
  rw [hcopies]
  rfl

/-- It waits while its page is open, or while moves stop. -/
theorem exec_reclaimCopyComplete_waits (h : s.pageOpen l = true ∨ s.movesStop = true) :
    exec (.reclaimCopyComplete t g) s = .next (s.tick t) := by
  have hguard : (decide (r.phase ≠ 0) || s.movesStop || !decide (s.map.tail.length + r.copies.length ≤ tailMax) ||
      !(s.toCopy g.val r).isEmpty || r.copies.any (fun c => s.pageOpen c.2)) = true := by
    rw [hcopies]
    obtain h | h := h <;> simp [h]
  change execReclaimCopyComplete t g s = _
  unfold execReclaimCopyComplete
  dsimp only
  rw [State.tick_map, hr]
  exact if_pos hguard

theorem completes_reclaimCopyComplete (hphase : r.phase = 0) (hstop : s.movesStop = false) (htail : s.map.tail.length ≤ 4095)
    (hall : s.toCopy g.val r = []) (hf : f < 2 ^ 29) (hopen : s.pageOpen l = false) :
    completes (.reclaimCopyComplete t g) s (fun u => Tab.find u.map.reclaim g.val = some { r with phase := 1 } ∧
      u.entry f = (if inBlock g.val r.source (s.entry f).loc then { s.entry f with loc := some l } else s.entry f) ∧
      u.map.tail = (if inBlock g.val r.source (s.entry f).loc then s.map.tail ++ [⟨f, some { s.entry f with loc := some l }, 4⟩]
        else s.map.tail) ∧
      changesOnly [.time, .out, .events, .regs, .map] s u) := by
  refine ⟨_, exec_reclaimCopyComplete hr hcopies hphase hstop htail hall hopen, ?_⟩
  have hwait : (s.tick t).changesWait = false := changesWait_of_not_movesStop hstop
  obtain ⟨hentry, htail', hframe⟩ := commitCopy_base_spec (b := r.source) hf hwait l g.val
  generalize commitCopy g.val r.source (s.tick t) (f, l) = v at hentry htail' hframe ⊢
  have hbump := quiet_bump v MAP_COPIED.folios 1 0
  have hmap := State.bump_map v MAP_COPIED.folios 1 0
  generalize v.bump MAP_COPIED.folios 1 = w at hbump hmap ⊢
  have hput := changesOnly_setMap w { w.map with reclaim := Tab.put w.map.reclaim g.val { r with phase := 1 } }
  refine ⟨Tab.find_put_same _ _ _, ?_, ?_, changesOnly_mono (by decide) (changesOnly_of_tick (changesOnly_append hframe
    (changesOnly_append hbump hput)))⟩
  · refine Eq.trans ?_ hentry
    unfold State.entry
    dsimp only
    rw [hmap]
  · dsimp only
    rw [hmap]
    exact htail'

end

/-- A job's commit is durable when no record of a reclaim commit waits in the tail. -/
theorem exec_reclaimCommitDurable {r : Reclaim} (hr : Tab.find s.map.reclaim g.val = some r) (hphase : r.phase = 1) :
    exec (.reclaimCommitDurable t g) s = (if s.map.tail.any (fun c => c.kind == 4) then .next (s.tick t)
      else .next { s.tick t with
        map := { s.map with
          reclaim := Tab.put s.map.reclaim g.val { r with phase := 2 }, journal := s.map.journal.map (fun x => { x with settled := true }) } }) := by
  change execReclaimCommitDurable t g s = _
  unfold execReclaimCommitDurable
  dsimp only
  rw [State.tick_map, hr]
  cases s.map.tail.any (fun c => c.kind == 4) with
  | true => exact congrArg Host.Outcome.next (if_neg (by simp))
  | false => exact congrArg Host.Outcome.next (if_pos (by simp [hphase]))

end

/-! ## Stripe blocks that are freed -/

theorem setFree_med (s : State) (g n : Nat) : (s.setFree g n).med = { s.med with free := setAt s.med.free g n } := by
  unfold State.setFree
  dsimp only
  split
  · rfl
  · split <;> rfl

theorem setFree_map (s : State) (g n : Nat) : ∃ on, (s.setFree g n).map = { s.map with floorOn := on } := by
  unfold State.setFree
  dsimp only
  split
  · exact ⟨_, rfl⟩
  · split
    · exact ⟨_, rfl⟩
    · exact ⟨s.map.floorOn, rfl⟩

theorem changesOnly_setFree (s : State) (g n : Nat) : changesOnly [.out, .events, .med, .map] s (s.setFree g n) := by
  have hfree := changesOnly_setMed s { s.med with free := setAt s.med.free g n }
  have hfloor : ∀ on, changesOnly [.map] { s with med := { s.med with free := setAt s.med.free g n } }
      { s with med := { s.med with free := setAt s.med.free g n }, map := { s.map with floorOn := on } } := fun _ => changesOnly_setMap _ _
  unfold State.setFree
  dsimp only
  split
  · exact changesOnly_mono (by decide) (changesOnly_append hfree (changesOnly_append (hfloor _) (changesOnly_ev 0x305 0 [g, n] 4 _)))
  · split
    · exact changesOnly_mono (by decide) (changesOnly_append hfree (changesOnly_append (hfloor _) (changesOnly_ev 0x306 0 [g, n] 4 _)))
    · exact changesOnly_mono (by decide) hfree

/-- The member blocks of a four-bead stripe block are free: only their dies change. -/
theorem freeMembers_eq (g : Nat) (ms : List (Nat × Nat)) (s : State) :
    ∃ ds, ms.foldl (freeMember g 0) s = { s with med := { s.med with dies := ds } } := by
  induction ms generalizing s with
  | nil => exact ⟨s.med.dies, rfl⟩
  | cons m ms ih =>
    have hone : ∃ ds, freeMember g 0 s m = { s with med := { s.med with dies := ds } } := by
      unfold freeMember
      dsimp only
      split
      · exact ⟨s.med.dies, rfl⟩
      · exact ⟨_, rfl⟩
    obtain ⟨ds, hds⟩ := hone
    obtain ⟨ds', hds'⟩ := ih (freeMember g 0 s m)
    refine ⟨ds', ?_⟩
    rw [List.foldl_cons, hds', hds]

/-- A four-bead stripe block joins the free ones. -/
theorem freeBlock_spec {s : State} {g b : Nat} (h : (s.block g b).bead = false) :
    (∃ ds, (s.freeBlock g b).med = { s.med with
      dies := ds, blocks := Tab.del s.med.blocks (blkKey g b), freed := s.med.freed ++ [blkKey g b],
      free := setAt s.med.free g (s.med.free.getD g 0 + 1) }) ∧
    (∃ on, (s.freeBlock g b).map = { s.map with floorOn := on }) ∧
    changesOnly [.out, .events, .med, .map] s (s.freeBlock g b) := by
  obtain ⟨ds, hds⟩ := freeMembers_eq g (s.block g b).members s
  unfold State.freeBlock
  dsimp only
  rw [h, if_neg Bool.false_ne_true, hds]
  refine ⟨⟨ds, setFree_med _ g _⟩, setFree_map _ g _, ?_⟩
  exact changesOnly_mono (by decide) (changesOnly_append (changesOnly_setMed s { s.med with
    dies := ds, blocks := Tab.del s.med.blocks (blkKey g b), freed := s.med.freed ++ [blkKey g b] }) (changesOnly_setFree _ g _))

/-- A sealed four-bead stripe block that nothing references joins the free ones. -/
theorem freeIfEmpty_of_unused {s : State} {g b : Nat} (hopen : (s.block g b).isOpen = false) (hm : (s.block g b).members ≠ [])
    (hused : s.blockUsed g b = false) (hjobs : s.map.reclaim = []) : s.freeIfEmpty ⟨g, b, 0⟩ = s.freeBlock g b := by
  unfold State.freeIfEmpty
  dsimp only
  rw [hopen, hused, hjobs, List.isEmpty_eq_false_iff.2 hm]
  simp

section
variable {t : Nat} {g : Fin 4} {r : Reclaim} {s : State}

theorem exec_reclaimDrainComplete (hr : s.map.reclaim = [(g.val, r)]) (hphase : r.phase = 2) (hfills : s.cch.fills = [])
    (hinteg : s.integIn g.val r.source = []) : exec (.reclaimDrainComplete t g) s =
      .next ((State.bump { s.tick t with map := { s.map with reclaim := [] } } MAP_RECLAIM.blocks_reclaimed).freeIfEmpty
        ⟨g.val, r.source, 0⟩) := by
  have hfind : Tab.find s.map.reclaim g.val = some r := by
    rw [hr]
    exact if_pos rfl
  have hdel : Tab.del s.map.reclaim g.val = [] := by
    rw [hr]
    exact if_pos rfl
  have hinteg' : (s.tick t).integIn g.val r.source = [] := hinteg
  change execReclaimDrainComplete t g s = _
  unfold execReclaimDrainComplete
  dsimp only
  rw [State.tick_map, hfind]
  dsimp only
  rw [State.tick_cch, hfills, hinteg', hdel]
  exact if_neg (by simp [hphase])

/-- The source of a job that no read needs is free. -/
theorem completes_reclaimDrainComplete (hr : s.map.reclaim = [(g.val, r)]) (hphase : r.phase = 2)
    (hused : s.usedSlots g.val r.source = []) (hfills : s.cch.fills = []) (hinteg : s.integIn g.val r.source = [])
    (hm : (s.block g.val r.source).members ≠ []) (hopen : (s.block g.val r.source).isOpen = false)
    (hbead : (s.block g.val r.source).bead = false) :
    completes (.reclaimDrainComplete t g) s (fun u => u.map.reclaim = [] ∧ Tab.find u.med.blocks (blkKey g.val r.source) = none ∧
      u.med.freed = s.med.freed ++ [blkKey g.val r.source] ∧ u.med.free = setAt s.med.free g.val (s.med.free.getD g.val 0 + 1) ∧
      u.map.entries = s.map.entries ∧ changesOnly [.time, .out, .events, .regs, .med, .map] s u) := by
  refine ⟨_, exec_reclaimDrainComplete hr hphase hfills hinteg, ?_⟩
  have hdone : changesOnly [.map] (s.tick t) { s.tick t with map := { s.map with reclaim := [] } } := changesOnly_setMap _ _
  have hbump := quiet_bump { s.tick t with map := { s.map with reclaim := [] } } MAP_RECLAIM.blocks_reclaimed 1 0
  have hmed : (State.bump { s.tick t with map := { s.map with reclaim := [] } } MAP_RECLAIM.blocks_reclaimed).med = s.med :=
    State.bump_med _ _ _ _
  have hmap : (State.bump { s.tick t with map := { s.map with reclaim := [] } } MAP_RECLAIM.blocks_reclaimed).map =
    { s.map with reclaim := [] } := State.bump_map _ _ _ _
  have hring : (State.bump { s.tick t with map := { s.map with reclaim := [] } } MAP_RECLAIM.blocks_reclaimed).ring = s.ring :=
    State.bump_ring _ _ _ _
  generalize State.bump { s.tick t with map := { s.map with reclaim := [] } } MAP_RECLAIM.blocks_reclaimed = v at *
  have hblock : v.block g.val r.source = s.block g.val r.source := by
    unfold State.block
    rw [hmed]
  have hslots : v.usedSlots g.val r.source = [] := by
    unfold State.usedSlots at hused ⊢
    rw [hmap, hring]
    exact hused
  have hunused : v.blockUsed g.val r.source = false := by
    unfold State.blockUsed
    rw [hslots, hmap]
    rfl
  rw [freeIfEmpty_of_unused (by rw [hblock, hopen]) (by rw [hblock]; exact hm) hunused (by rw [hmap])]
  obtain ⟨⟨ds, hfreed⟩, ⟨on, hfloor⟩, hframe⟩ := freeBlock_spec (s := v) (by rw [hblock, hbead])
  rw [hmed] at hfreed
  rw [hmap] at hfloor
  refine ⟨by rw [hfloor], ?_, by rw [hfreed], by rw [hfreed], by rw [hfloor],
    changesOnly_mono (by decide) (changesOnly_of_tick (changesOnly_append hdone (changesOnly_append hbump hframe)))⟩
  rw [hfreed]
  exact Tab.find_del_same _ _

end

end Sys2Proof.Proofs
end

section
/-! PROOFS: what the map's commands rest on, wear levelling (06_map_placement_reclaim). -/

namespace Sys2Proof.Proofs

open Sys2Proof Sys2Proof.Machine Sys2Proof.Safety Sys2Proof.Laws

/-! ## Wear that the time of a check does not change -/

/-- A die but for the time of its last wear check. -/
def unchecked (d : Die) : Die := { d with wearCheckAt := 0 }

/-- The two states have the same wear: their dies differ at most in the times of their wear checks. -/
structure SameWear (s t : State) : Prop where
  dies : t.med.dies.map unchecked = s.med.dies.map unchecked
  slotMax : t.med.slotMax = s.med.slotMax

theorem map_unchecked_setAt (ds : List Die) (i : Nat) (d : Die) :
    (setAt ds i d).map unchecked = setAt (ds.map unchecked) i (unchecked d) := List.map_set

/-- Putting back what a list's entry maps to changes nothing. -/
theorem setAt_map_getD {α β : Type} (f : α → β) (as : List α) (i : Nat) (d : α) : setAt (as.map f) i (f (as.getD i d)) = as.map f := by
  unfold setAt
  by_cases hi : i < as.length
  · rw [List.getD_eq_getElem as d hi, ← List.getElem_map f (h := by simpa using hi), List.set_getElem_self]
  · exact List.set_eq_of_length_le (by simpa using hi)

namespace SameWear

variable {s t : State}

theorem die (h : SameWear s t) (i : Nat) : unchecked (t.die i) = unchecked (s.die i) := by
  have hget : ∀ ds : List Die, unchecked (ds.getD i Die.atReset) = (ds.map unchecked).getD i (unchecked Die.atReset) := fun ds => by
    rw [List.getD_eq_getElem?_getD, List.getD_eq_getElem?_getD, List.getElem?_map]
    cases ds[i]? <;> rfl
  unfold State.die
  rw [hget, hget, h.dies]

theorem retired (h : SameWear s t) (i : Nat) : (t.die i).retired = (s.die i).retired := by
  change (unchecked (t.die i)).retired = (unchecked (s.die i)).retired
  rw [h.die]

theorem wearOf_eq (h : SameWear s t) (i ix n : Nat) : wearOf t i ix n = wearOf s i ix n := by
  have hwear : ∀ u : State, wearOf u i ix n = (match (u.med.dies.map unchecked)[i]? with
      | some d => (3 * Tab.findD d.cycles4 ix 0 + Tab.findD d.cycles1 ix 0 + n) / 300
      | none => 0) := fun u => by
    unfold wearOf
    rw [List.getElem?_map]
    cases u.med.dies[i]? <;> rfl
  rw [hwear, hwear, h.dies]

theorem pickMember (h : SameWear s t) (i : Nat) (most : Bool) : t.pickMember i most = s.pickMember i most := by
  have hfreed : (t.die i).freed = (s.die i).freed := by
    change (unchecked (t.die i)).freed = (unchecked (s.die i)).freed
    rw [h.die]
  have hnext : (t.die i).nextIx = (s.die i).nextIx := by
    change (unchecked (t.die i)).nextIx = (unchecked (s.die i)).nextIx
    rw [h.die]
  have hwear : t.freeWear i = s.freeWear i := funext fun ix => by
    unfold State.freeWear
    rw [h.wearOf_eq, h.slotMax]
  unfold State.pickMember
  dsimp only
  rw [hfreed, hnext, hwear]

theorem takeMember (h : SameWear s t) (i ix : Nat) (bead : Bool) : SameWear (s.takeMember i ix bead) (t.takeMember i ix bead) where
  slotMax := congrArg (fun m => Tab.del m (memberKey i ix)) h.slotMax
  dies := by
    have hd := h.die i
    change (setAt t.med.dies i _).map unchecked = (setAt s.med.dies i _).map unchecked
    rw [map_unchecked_setAt, map_unchecked_setAt, h.dies, h.slotMax]
    exact congrArg (setAt (s.med.dies.map unchecked) i) (congrArg (fun d : Die => { d with
      freed := d.freed.filter (fun b => b != ix), nextIx := max d.nextIx (ix + 1),
      cycles4 := if b2n (!bead) = 0 then d.cycles4 else Tab.put d.cycles4 ix (Tab.findD d.cycles4 ix 0 + b2n (!bead)),
      cycles1 := if Tab.findD s.med.slotMax (memberKey i ix) 0 = 0 then d.cycles1
        else Tab.put d.cycles1 ix (Tab.findD d.cycles1 ix 0 + Tab.findD s.med.slotMax (memberKey i ix) 0) }) hd)

theorem takeMembers (g : Nat) (bead most : Bool) (cs : List Nat) (h : SameWear s t) :
    (takeMembers g bead most t cs).2 = (takeMembers g bead most s cs).2 := by
  induction cs generalizing s t with
  | nil => rfl
  | cons c cs ih =>
    unfold Machine.takeMembers
    rw [h.pickMember]
    split
    · exact ih h
    next ix _ => exact congrArg ((c, ix) :: ·) (ih (h.takeMember (4 * c + g) ix bead))

theorem groupChannels (h : SameWear s t) (g : Nat) : t.groupChannels g = s.groupChannels g := by
  unfold State.groupChannels
  simp only [h.retired]

end SameWear

/-- The card when the wear of die i has been looked at. -/
def wearChecked (s : State) (t i : Nat) : State := (s.tick t).setDie i { s.die i with wearCheckAt := s.cal.powerOnS }

theorem sameWear_wearChecked (s : State) (t i : Nat) : SameWear s (wearChecked s t i) where
  slotMax := rfl
  dies := by
    change (setAt s.med.dies i { s.die i with wearCheckAt := s.cal.powerOnS }).map unchecked = s.med.dies.map unchecked
    rw [map_unchecked_setAt]
    have hget : unchecked { s.die i with wearCheckAt := s.cal.powerOnS } = unchecked (s.die i) := rfl
    rw [hget]
    exact setAt_map_getD unchecked s.med.dies i Die.atReset

theorem mediumRead_wearChecked (s : State) (t i : Nat) : MediumRead (s.tick t) (wearChecked s t i) := ⟨.setDie rfl, rfl⟩

theorem wearOn_wearChecked (s : State) (t i j : Nat) : (wearChecked s t i).wearOn j = s.wearOn j := by
  unfold State.wearOn
  simp only [(sameWear_wearChecked s t i).wearOf_eq]
  rfl

theorem coldOn_wearChecked (s : State) (t i j : Nat) : (wearChecked s t i).coldOn j = s.coldOn j := by
  unfold State.coldOn
  rw [wearOn_wearChecked]
  rfl

/-! ## Stripe blocks that are taken -/

theorem mediumRead_takeMember (s : State) (i ix : Nat) (bead : Bool) : MediumRead s (s.takeMember i ix bead) := by
  unfold State.takeMember
  extract_lets d up s1
  have hdie : MediumRead s s1 := ⟨.setDie rfl, rfl⟩
  exact hdie.trans ⟨.setMed rfl rfl rfl, rfl⟩

theorem mediumRead_takeMembers (g : Nat) (bead most : Bool) (cs : List Nat) (s : State) :
    MediumRead s (takeMembers g bead most s cs).1 := by
  induction cs generalizing s with
  | nil => exact .refl s
  | cons c cs ih =>
    unfold takeMembers
    split
    · exact ih s
    next ix _ => exact (mediumRead_takeMember s _ ix bead).trans (ih _)

theorem channel_of_mem_takeMembers {g : Nat} {bead most : Bool} {cs : List Nat} {s : State} {m : Nat × Nat}
    (h : m ∈ (takeMembers g bead most s cs).2) : m.1 ∈ cs := by
  induction cs generalizing s with
  | nil => cases h
  | cons c cs ih =>
    unfold takeMembers at h
    split at h
    · exact List.mem_cons_of_mem c (ih h)
    · obtain rfl | h := List.mem_cons.1 h
      · exact List.mem_cons_self
      · exact List.mem_cons_of_mem c (ih h)

theorem die_setFree (s : State) (g n i : Nat) : (s.setFree g n).die i = s.die i := by
  unfold State.die
  rw [setFree_med]

/-- Of the entries kept by their number one is found as before, if its number is kept. -/
theorem find_keep {α : Type} (m : Tab α) (p : Nat → Bool) (k : Nat) :
    Tab.find (Tab.keep m (fun e _ => p e)) k = if p k then Tab.find m k else none := by
  unfold Tab.keep
  induction m with
  | nil => simp
  | cons e m ih =>
    obtain ⟨i, b⟩ := e
    by_cases hik : i = k
    · subst hik
      cases hp : p i <;> simp [Tab.find, hp, ih]
    · cases hp : p i <;> simp [Tab.find, hp, hik, ih]

/-- From s to u number b of group g was taken for a stripe block of the members ms. -/
structure Taken (s u : State) (g b : Nat) (ms : List (Nat × Nat)) : Prop where
  map : ∃ on, u.map = { s.map with floorOn := on }
  own : (u.block g b).members = ms
  other : ∀ h c, blkKey h c ≠ blkKey g b → (u.block h c).members = (s.block h c).members
  retired : ∀ i, (u.die i).retired = (s.die i).retired
  secs : u.med.secs = Tab.keep s.med.secs (fun e _ => e / 65536 != blkKey g b)
  frame : changesOnly [.out, .events, .regs, .med, .cal, .map] s u

theorem taken_takeNumber (s : State) (g b : Nat) (bead integrity most : Bool) :
    Taken s (s.takeNumber g b bead integrity most) g b (takeMembers g bead most s (s.groupChannels g)).2 := by
  unfold State.takeNumber
  extract_lets r s1 blank x wiped s2
  have hread : MediumRead s s1 := mediumRead_takeMembers g bead most (s.groupChannels g) s
  have hmembers : x.members = r.2 := rfl
  have hset : changesOnly [.med] s1 (s2.setBlock g b x) := changesOnly_setMed s1 _
  have hsetMap : (s2.setBlock g b x).map = s1.map := rfl
  have hsetBlocks : (s2.setBlock g b x).med.blocks = Tab.put s1.med.blocks (blkKey g b) x := rfl
  have hsetDie : ∀ i, (s2.setBlock g b x).die i = s1.die i := fun _ => rfl
  have hsetSecs : (s2.setBlock g b x).med.secs = Tab.keep s1.med.secs (fun e _ => e / 65536 != blkKey g b) := rfl
  clear_value s1 x
  generalize s2.setBlock g b x = v at hset hsetMap hsetBlocks hsetDie hsetSecs ⊢
  generalize s2.med.free.getD g 0 - 1 = n
  obtain ⟨on, hfloor⟩ := setFree_map v g n
  have hkick := mediumWork_kick (v.setFree g n)
  have hblocks : (v.setFree g n).kick.med.blocks = Tab.put s1.med.blocks (blkKey g b) x := by
    rw [kick_blocks, setFree_med]
    exact hsetBlocks
  refine ⟨⟨on, ?_⟩, ?_, fun h c hne => ?_, fun i => ?_, ?_, ?_⟩
  · rw [hkick.map, hfloor, hsetMap, hread.map]
  · unfold State.block
    rw [hblocks, Tab.findD_put_same, hmembers]
  · rw [← hread.members]
    unfold State.block
    rw [hblocks, Tab.findD_put_other _ _ _ _ _ hne]
  · rw [hkick.retired, die_setFree, hsetDie, hread.retired]
  · rw [← hread.secs, ← hsetSecs]
    unfold State.kick
    split <;> rw [setFree_med]
  · exact changesOnly_mono (by decide) (changesOnly_append hread.frame (changesOnly_append hset (changesOnly_append
      (changesOnly_setFree v g n) hkick.frame)))

/-- A data sector of a stripe block of at least two members lies on one of them. -/
theorem sectorPlace_mem {x : StripeBlock} (h : 1 < x.members.length) (n : Nat) : ∃ m ∈ x.members, (sectorPlace x n).2 = m.1 := by
  unfold sectorPlace
  dsimp only
  have hj : n % (x.members.length - 1) < x.members.length - 1 := Nat.mod_lt n (by omega)
  have hix : (if n % (x.members.length - 1) < n / (x.members.length - 1) % x.members.length then n % (x.members.length - 1)
      else n % (x.members.length - 1) + 1) < x.members.length := by
    split <;> omega
  refine ⟨_, List.getElem_mem hix, ?_⟩
  rw [List.getD_eq_getElem _ _ hix]

/-- What a folio's sectors held is as clean after a stripe block of their group was taken, even over them. -/
theorem Taken.sourceClean {s u : State} {g b : Nat} {bead most : Bool}
    (h : Taken s u g b (takeMembers g bead most s (s.groupChannels g)).2)
    (hwide : 1 < (takeMembers g bead most s (s.groupChannels g)).2.length) {l : Loc} (hgroup : l.group = g)
    (hclean : sourceClean s l = true) : sourceClean u l = true := by
  rw [sourceClean_iff] at hclean ⊢
  intro n hn
  obtain ⟨hdie, hsec⟩ := hclean n hn
  constructor
  · rw [h.retired]
    by_cases hkey : blkKey l.group l.block = blkKey g b
    · have hblock : (u.block l.group l.block).members = (takeMembers g bead most s (s.groupChannels g)).2 := by
        rw [← h.own]
        unfold State.block
        rw [hkey]
      obtain ⟨m, hm, hplace⟩ := sectorPlace_mem (x := u.block l.group l.block) (by rw [hblock]; exact hwide) (64 * l.index + n)
      rw [hblock] at hm
      have hserves := (List.mem_filter.1 (channel_of_mem_takeMembers hm)).2
      unfold State.dieAt
      rw [hplace, hgroup]
      simpa using hserves
    · have hsame : u.dieAt l n = s.dieAt l n := by
        unfold State.dieAt sectorPlace
        rw [h.other _ _ hkey]
      rw [hsame]
      exact hdie
  · intro x hx
    refine hsec x ?_
    unfold State.sectorAt at hx ⊢
    rw [h.secs, find_keep _ (fun e => e / 65536 != blkKey g b)] at hx
    split at hx
    · exact hx
    · cases hx

/-! ## Moves of wear levelling -/

theorem pieces_singleton {α : Type} {n : Nat} (h : 0 < n) (k : Nat) (a : α) : pieces (k + 1) n [a] = [[a]] := by
  obtain ⟨m, rfl⟩ := Nat.exists_eq_succ_of_ne_zero h.ne'
  have hnil : pieces k (m + 1) ([] : List α) = [] := by cases k <;> rfl
  simp [pieces, hnil]

theorem moveTo_base {s : State} {g b f : Nat} {o : Loc} (hf : f < 2 ^ 29) (ho : (s.entry f).loc = some o)
    (hin : inBlock g b (some o) = true) (l : Loc) : s.moveTo g b f l false =
      (s.copyFolio o l).setHome f ⟨7, l, false, [], 0, 0, s.epochMode f, false, false, some o⟩ := by
  have hmark : ¬ integMark ≤ f := by
    unfold integMark
    omega
  unfold State.moveTo
  rw [if_neg hmark, ho, if_pos hin]
  exact if_neg Bool.false_ne_true

/-- A sealed stripe block is closed. -/
theorem isOpen_sealBlock (s : State) (g b : Nat) : ((s.sealBlock g b).block g b).isOpen = false := by
  unfold State.sealBlock State.setBlock State.block
  dsimp only
  rw [Tab.findD_put_same]

theorem isOpen_kick (s : State) (g b : Nat) : (s.kick.block g b).isOpen = (s.block g b).isOpen := by
  unfold State.block
  rw [kick_blocks]

/-- The home that wear levelling gives folio f, which lay at o: the first slot of stripe block d. -/
def levelled (s : State) (g d f : Nat) (o : Loc) : Home := ⟨7, ⟨g, d, 0⟩, false, [], 0, 0, s.epochMode f, false, false, some o⟩

/-- The page that wear levelling programs in stripe block d of w members: folio f alone. -/
def levelledPage (g d f w : Nat) : PageProg := ⟨g, d, 0, some f :: List.replicate (w - 2) none, []⟩

section
variable {s : State} {g b d f : Nat} {o : Loc} (hbead : (s.block g b).bead = false) (hmovable : s.movable g b = [f]) (hf : f < 2 ^ 29)
  (ho : (s.entry f).loc = some o) (hin : inBlock g b (some o) = true) (hclean : sourceClean s o = true)
  (hwide : 1 < (takeMembers g false true s (s.groupChannels g)).2.length)
include hbead hmovable hf ho hin hclean hwide

/-- The one folio of a four-bead stripe block moves into a new one. -/
theorem moveInto_one : (∃ on, (s.moveInto g b d).map = { s.map with
      floorOn := on, homes := Tab.put s.map.homes f (levelled s g d f o),
      progs := s.map.progs ++ [levelledPage g d f (takeMembers g false true s (s.groupChannels g)).2.length] }) ∧
    ((s.moveInto g b d).block g d).isOpen = false ∧
    changesOnly [.out, .events, .regs, .med, .map, .cal] s (s.moveInto g b d) := by
  have htaken := taken_takeNumber s g d false (s.block g b).integrity true
  unfold State.moveInto
  dsimp only
  rw [hbead, hmovable]
  generalize s.takeNumber g d false (s.block g b).integrity true = v at htaken ⊢
  rw [if_neg Bool.false_ne_true, htaken.own]
  have hgroup : o.group = g := by
    unfold inBlock at hin
    simpa using (Bool.and_eq_true_iff.1 hin).1
  have hclean' : sourceClean v o = true := htaken.sourceClean hwide hgroup hclean
  generalize (takeMembers g false true s (s.groupChannels g)).2 = ms at hwide htaken ⊢
  have hw : 0 < ms.length - 1 := by omega
  rw [pieces_singleton hw]
  obtain ⟨on, hmap⟩ := htaken.map
  have ho' : (v.entry f).loc = some o := by
    unfold State.entry
    rw [hmap]
    exact ho
  have hmode : v.epochMode f = s.epochMode f := epochMode_congr (htaken.frame .key rfl) f
  have hmoved : v.moveTo g b f ⟨g, d, 0⟩ false = (v.copyFolio o ⟨g, d, 0⟩).setHome f (levelled s g d f o) := by
    rw [moveTo_base hf ho' hin, hmode]
    rfl
  simp only [List.zipIdx_cons, List.zipIdx_nil, List.foldl_cons, List.foldl_nil, List.map_cons, List.map_nil, Nat.zero_mul, Nat.add_zero,
    List.length_singleton, List.singleton_append]
  rw [hmoved]
  obtain ⟨hcopied, hcopy⟩ := copy_setHome hclean' ⟨g, d, 0⟩ f (levelled s g d f o)
  rw [hmap] at hcopied
  generalize (v.copyFolio o ⟨g, d, 0⟩).setHome f (levelled s g d f o) = u at hcopied hcopy ⊢
  have hprog := changesOnly_setMap u { u.map with progs := u.map.progs ++ [levelledPage g d f ms.length] }
  have hseal : changesOnly [.med] { u with map := { u.map with progs := u.map.progs ++ [levelledPage g d f ms.length] } }
      (State.sealBlock { u with map := { u.map with progs := u.map.progs ++ [levelledPage g d f ms.length] } } g d) :=
    changesOnly_setMed _ _
  have hkick := mediumWork_kick (State.sealBlock { u with map := { u.map with progs := u.map.progs ++ [levelledPage g d f ms.length] } } g d)
  refine ⟨⟨on, ?_⟩, ?_, ?_⟩
  · refine hkick.map.trans ?_
    change { u.map with progs := u.map.progs ++ [levelledPage g d f ms.length] } = _
    rw [hcopied]
  · exact (isOpen_kick _ g d).trans (isOpen_sealBlock _ g d)
  · exact changesOnly_mono (by decide) (changesOnly_append htaken.frame (changesOnly_append hcopy (changesOnly_append hprog
      (changesOnly_append hseal hkick.frame))))

end

/-! ## The check of a die's wear -/

theorem MediumRead.sourceClean {s t : State} (h : MediumRead s t) {l : Loc} (hclean : sourceClean s l = true) : sourceClean t l = true :=
  sourceClean_iff.2 (fun n hn => (sourceClean_iff.1 hclean n hn).of_read h)

theorem takeMembers_wearChecked (s : State) (t i g : Nat) (bead most : Bool) :
    (takeMembers g bead most (wearChecked s t i) ((wearChecked s t i).groupChannels g)).2 =
      (takeMembers g bead most s (s.groupChannels g)).2 := by
  rw [(sameWear_wearChecked s t i).groupChannels, (sameWear_wearChecked s t i).takeMembers]

section
variable {t : Nat} {i : Fin 64} {s : State}

/-- A die that was looked at within 24 hours of power-on, or whose moves stop, is not looked at. -/
theorem exec_wearLevelCheck_off (hfit : s.fitted i.val = true)
    (h : s.movesStop = true ∨ s.cal.powerOnS < (s.die i.val).wearCheckAt + 86400) : exec (.wearLevelCheck t i) s = .next (s.tick t) := by
  have hunit : ¬ (!s.fitted i.val) = true := by simp [hfit]
  have hguard : (s.movesStop || !s.icFree 1 || s.rebuildingGroup (dieGroup i.val) ||
      decide (s.cal.powerOnS < (s.die i.val).wearCheckAt + 86400)) = true := by
    obtain h | h := h <;> simp [h]
  exact (if_neg hunit).trans (if_pos hguard)

theorem exec_wearLevelCheck {k c d : Nat} (hfit : s.fitted i.val = true) (hstop : s.movesStop = false)
    (hrebuild : s.rebuildingGroup (dieGroup i.val) = false) (hfree : s.icFree 1 = true)
    (hdue : (s.die i.val).wearCheckAt + 86400 ≤ s.cal.powerOnS) (hcold : s.coldOn i.val = some (k, c))
    (hpick : s.pickBlock (dieGroup i.val) = some d) (hspread : c + 20000 < largest ((s.wearOn i.val).map (·.2))) :
    exec (.wearLevelCheck t i) s = .next (ev 0x310 0 [i.val, k % perGroup, d, largest ((s.wearOn i.val).map (·.2)) - c] 4
      (internalOp 1 0 (64 * (s.movable (dieGroup i.val) (k % perGroup)).length) none
        ((wearChecked s t i.val).moveInto (dieGroup i.val) (k % perGroup) d))) := by
  have hunit : ¬ (!s.fitted i.val) = true := by simp [hfit]
  have hguard : ¬ (s.movesStop || !s.icFree 1 || s.rebuildingGroup (dieGroup i.val) ||
      decide (s.cal.powerOnS < (s.die i.val).wearCheckAt + 86400)) = true := by
    simpa [hstop, hrebuild, hfree] using hdue
  have hpick' : (wearChecked s t i.val).pickBlock (dieGroup i.val) = some d := hpick
  have hmove : ¬ largest ((s.wearOn i.val).map (·.2)) - c ≤ 20000 := by omega
  refine (if_neg hunit).trans ((if_neg hguard).trans ?_)
  have hcold' : (wearChecked s t i.val).coldOn i.val = some (k, c) := (coldOn_wearChecked s t i.val i.val).trans hcold
  have hwear := wearOn_wearChecked s t i.val i.val
  have hmovable : (wearChecked s t i.val).movable (dieGroup i.val) (k % perGroup) = s.movable (dieGroup i.val) (k % perGroup) := rfl
  extract_lets d0 s1
  have hs1 : s1 = wearChecked s t i.val := rfl
  clear_value s1
  subst hs1
  rw [hcold', hpick']
  dsimp only
  rw [hwear, hmovable]
  exact if_neg hmove

/-- The coldest stripe block's one folio moves into a new stripe block. -/
theorem completes_wearLevelCheck {k c d f : Nat} {o : Loc} (hfit : s.fitted i.val = true) (hstop : s.movesStop = false)
    (hrebuild : s.rebuildingGroup (dieGroup i.val) = false) (hfree : s.icFree 1 = true)
    (hdue : (s.die i.val).wearCheckAt + 86400 ≤ s.cal.powerOnS) (hcold : s.coldOn i.val = some (k, c))
    (hpick : s.pickBlock (dieGroup i.val) = some d) (hspread : c + 20000 < largest ((s.wearOn i.val).map (·.2)))
    (hbead : (s.block (dieGroup i.val) (k % perGroup)).bead = false) (hmovable : s.movable (dieGroup i.val) (k % perGroup) = [f])
    (hf : f < 2 ^ 29) (ho : (s.entry f).loc = some o) (hin : inBlock (dieGroup i.val) (k % perGroup) (some o) = true)
    (hclean : sourceClean s o = true)
    (hwide : 1 < (takeMembers (dieGroup i.val) false true s (s.groupChannels (dieGroup i.val))).2.length) :
    completes (.wearLevelCheck t i) s (fun u => (∃ on, u.map = { s.map with
        floorOn := on, homes := Tab.put s.map.homes f (levelled s (dieGroup i.val) d f o),
        progs := s.map.progs ++ [levelledPage (dieGroup i.val) d f
          (takeMembers (dieGroup i.val) false true s (s.groupChannels (dieGroup i.val))).2.length] }) ∧
      (u.block (dieGroup i.val) d).isOpen = false ∧ changesOnly [.time, .out, .events, .regs, .qos, .med, .map, .cal] s u) := by
  refine ⟨_, exec_wearLevelCheck hfit hstop hrebuild hfree hdue hcold hpick hspread, ?_⟩
  have hread := mediumRead_wearChecked s t i.val
  obtain ⟨⟨on, hmap⟩, hclosed, hframe⟩ := moveInto_one (s := wearChecked s t i.val) (d := d) hbead hmovable hf ho hin
    (hread.sourceClean hclean) (by rw [takeMembers_wearChecked]; exact hwide)
  rw [takeMembers_wearChecked] at hmap
  generalize (wearChecked s t i.val).moveInto (dieGroup i.val) (k % perGroup) d = v at hmap hclosed hframe ⊢
  have hop := changesOnly_internalOp 1 0 (64 * (s.movable (dieGroup i.val) (k % perGroup)).length) none v
  generalize internalOp 1 0 (64 * (s.movable (dieGroup i.val) (k % perGroup)).length) none v = w at hop ⊢
  have hev := changesOnly_ev 0x310 0 [i.val, k % perGroup, d, largest ((s.wearOn i.val).map (·.2)) - c] 4 w
  generalize ev 0x310 0 [i.val, k % perGroup, d, largest ((s.wearOn i.val).map (·.2)) - c] 4 w = u at hev ⊢
  have hmed : u.med = v.med := (hev .med rfl).trans (hop .med rfl)
  refine ⟨⟨on, ?_⟩, ?_, changesOnly_mono (by decide) (changesOnly_of_tick (changesOnly_append hread.frame (changesOnly_append hframe
    (changesOnly_append hop hev))))⟩
  · exact (hev .map rfl).trans ((hop .map rfl).trans hmap)
  · unfold State.block at hclosed ⊢
    rw [hmed]
    exact hclosed

end

end Sys2Proof.Proofs
end

section
/-! PROOFS of the statement about the map's commands (06_map_placement_reclaim). -/

namespace Sys2Proof.Proofs

open Sys2Proof Sys2Proof.Machine Sys2Proof.Safety Sys2Proof.Laws

/-! ## The map's commands -/

theorem completes_mono {c : Instr} {s : State} {P Q : State → Prop} (h : completes c s P) (hPQ : ∀ u, P u → Q u) : completes c s Q :=
  h.imp (fun u hu => ⟨hu.1, hPQ u hu.2⟩)

theorem completes_journalTailFlush {t a : Nat} {s : State} (hr : s.railsOn = true) (hd : s.pfl.dump = none) (hne : s.map.tail ≠ [])
    (ha : s.map.tailSince = some a) (hdue : 15 ≤ s.map.tail.length ∨ a + 50 * usec ≤ max s.now t) (hw : s.map.waiting = false)
    (hf : mapFlows s = true) : completes (.journalTailFlush t) s (fun u =>
      (∃ c w, u.map = { flushedMap s.map (max s.now t) with ckptWriting := c, waiting := w }) ∧
      changesOnly [.time, .out, .events, .map] s u) := by
  refine ⟨_, exec_journalTailFlush_due hr hd ha hdue, ?_⟩
  rw [changesGo_flushSector (s := s.tick t) hne hw hf]
  exact ⟨flushSector_map (s := s.tick t) hne hw, changesOnly_mono (by decide)
    (changesOnly_of_tick (changesOnly_flushSector (s := s.tick t) hne hw))⟩

theorem completes_checkpointSealed {t n k b : Nat} {s : State} (hw : s.map.ckptWriting = some (k, b))
    (hb : s.map.committed + 1 - b ≤ s.ckptThreshold) (hj : s.map.journal.any (fun x => !x.settled && decide (x.seq < b)) = false)
    (hf : mapFlows s = true) : completes (.checkpointSealed t n) s (fun u =>
      (∃ w, u.map = { sealedMap s.map k b with waiting := w }) ∧ changesOnly [.time, .out, .events, .map] s u) := by
  obtain ⟨w, u, hu, hmap, hframe⟩ := checkpoint_goes hb hf n t
  exact ⟨u, (exec_checkpointSealed hw hj).trans (congrArg Host.Outcome.next hu), ⟨w, hmap⟩, hframe⟩

/-- A checkpoint's write that failed begins again at the journal's end. -/
theorem completes_checkpointWriteFailed {t k b : Nat} {i : Fin 64} {s : State} (hfit : s.fitted i.val = true)
    (hw : s.map.ckptWriting = some (k, b)) : completes (.checkpointWriteFailed t i) s (fun u =>
      u.map = { s.map with ckptWriting := some (k, s.map.committed + 1) } ∧ changesOnly [.time, .out, .events, .map] s u) := by
  refine ⟨_, exec_checkpointWriteFailed hfit hw, rfl, ?_⟩
  have hmap : changesOnly [.map] (s.tick t) { s.tick t with map := { s.map with ckptWriting := some (k, s.map.committed + 1) } } :=
    changesOnly_setMap _ _
  exact changesOnly_mono (by decide) (changesOnly_of_tick (changesOnly_append hmap (changesOnly_ev 0x304 1 [k, i.val] 4 _)))

/-- With no checkpoint being written there is nothing to seal and nothing to begin again. -/
theorem exec_checkpoint_none {t n : Nat} {i : Fin 64} {s : State} (hfit : s.fitted i.val = true) (h : s.map.ckptWriting = none) :
    exec (.checkpointSealed t n) s = .next (s.tick t) ∧ exec (.checkpointWriteFailed t i) s = .next (s.tick t) := by
  refine ⟨exec_checkpointSealed_none h, ?_⟩
  change execCheckpointWriteFailed t i s = _
  unfold execCheckpointWriteFailed
  dsimp only
  rw [State.tick_map, h]
  have hunit : ¬ (!s.fitted i) = true := by simp [hfit]
  exact if_neg hunit

theorem completes_mapWordRebuilt {t n w : Nat} {d : Fin 4} {s : State}
    (h : (s.wordFolios d.val w).any (fun f => s.map.rebuilding.contains f) = true) :
    completes (.mapWordRebuildComplete t d w (some (true, n))) s (fun u =>
      u.map = wordDone s d.val w ∧ changesOnly [.time, .out, .events, .map] s u) := by
  refine ⟨_, exec_mapWordRebuildComplete_rebuilt t w n d s h, rfl, ?_⟩
  have hmap : changesOnly [.map] (s.tick t) { s.tick t with map := wordDone s d.val w } := changesOnly_setMap _ _
  exact changesOnly_mono (by decide) (changesOnly_of_tick (changesOnly_append hmap (changesOnly_ev 0x300 1 _ 4 _)))

theorem completes_mapWordLost {t n w : Nat} {d : Fin 4} {s : State}
    (h : (s.wordFolios d.val w).any (fun f => s.map.rebuilding.contains f) = true) (hp : s.map.poison.length ≤ 7424)
    (hc : s.changesWait = false) (htail : s.map.tail.length ≤ 4093) :
    completes (.mapWordRebuildComplete t d w (some (false, n))) s (fun u =>
      (s.wordFolios d.val w).all (fun f => (List.range 256).all (fun i => u.listed (f * 256 + i)) && (u.entry f).poisonedRange &&
        (u.entry f).loc == (s.entry f).loc) = true ∧
      u.map.rebuilding = s.map.rebuilding.filter (fun f => !(s.wordFolios d.val w).contains f) ∧
      changesOnly [.time, .out, .events, .regs, .map, .tly] s u) := by
  refine ⟨_, exec_mapWordRebuildComplete_lost t w n d s h, ?_⟩
  obtain ⟨hps, hall⟩ := wordLost_spec (s := s) t d.val w hp hc htail
  generalize (s.wordFolios d.val w).foldl State.entryLost { s.tick t with map := wordDone s d.val w } = u at hps hall ⊢
  have hmap : changesOnly [.map] (s.tick t) { s.tick t with map := wordDone s d.val w } := changesOnly_setMap _ _
  refine ⟨List.all_eq_true.2 (fun f hf => ?_), hps.rebuilding, changesOnly_mono (by decide)
    (changesOnly_of_tick (changesOnly_append hmap hps.frame))⟩
  obtain ⟨hlisted, hflag⟩ := hall f hf
  have hloc : (u.entry f).loc = (s.entry f).loc := hps.loc f
  have hlines : (List.range 256).all (fun i => u.listed (f * 256 + i)) = true :=
    List.all_eq_true.2 (fun i hi => hlisted i (List.mem_range.1 hi))
  rw [hlines, hflag, hloc]
  exact beq_self_eq_true _

/-- Reclaim of a source with one version copies it to an open page. -/
theorem completes_reclaimSourceChosen {t b f h : Nat} {g : Fin 4} {l : Loc} {r : List Nat} {p : OpenPage} {s : State}
    (hstop : s.movesStop = false) (hnone : Tab.find s.map.reclaim g.val = none) (hfree : s.icFree 0 = true)
    (hdue : s.map.floorOn.getLsbD g.val = true ∨ s.idleNow = true) (hsource : s.source g.val = some b)
    (hversions : s.versionsIn g.val b = [(f, l)]) (hinteg : s.integIn g.val b = []) (hf : f < 2 ^ 29) (hclean : sourceClean s l = true)
    (hturn : (s.turn s.map.nextGroup).filter s.groupOpen = h :: r) (hpage : Tab.find s.map.pages h = some p)
    (hroom : p.folios.length + 2 < (s.block h p.block).members.length) :
    completes (.reclaimSourceChosen t g) s (fun u =>
      u.map = { slotTaken s.map h ((h + 1) % s.groups) (max s.now t) p f with
        reclaim := Tab.put s.map.reclaim g.val ⟨b, 0, [(f, nextSlot s h p)]⟩ } ∧
      changesOnly [.time, .out, .events, .regs, .qos, .med, .map, .cal] s u) := by
  refine ⟨_, exec_reclaimSourceChosen hstop hnone hfree hdue hsource, ?_⟩
  rw [hversions]
  obtain ⟨hmap, hframe⟩ := reclaimCopies_one (s := s.tick t) (g := g) hf hinteg hturn hpage hroom hclean
  exact ⟨hmap, changesOnly_mono (by decide) (changesOnly_of_tick hframe)⟩

/-- Settles O51, clause by clause: what the command's lemma says of the map after it, read field by field. -/
theorem mapAndReclaim : Obligations.MapAndReclaim := by
  unfold Obligations.MapAndReclaim
  refine ⟨?flush, ?noFlush, ?earlyFlush, ?sealed, ?failed, ?noCheckpoint, ?wordRead, ?wordRebuilt, ?wordLost, ?wordKnown, ?sweep,
    ?demotion, ?noDemotion, ?rotation, ?noRotation, ?source, ?noSource, ?copied, ?notCopied, ?durable, ?drained, ?noJob, ?wear, ?noWear⟩
  case flush =>
    intro t a s hr hd hne ha hdue hw hf
    refine completes_mono (completes_journalTailFlush hr hd hne ha hdue hw hf) (fun u ⟨⟨c, w, hmap⟩, hframe⟩ => ?_)
    rw [hmap]
    exact ⟨rfl, rfl, rfl, rfl, rfl, hframe⟩
  case noFlush => exact fun t s h => exec_journalTailFlush_off h
  case earlyFlush => exact fun t a s hl ha hn hk hd => exec_journalTailFlush_early hl ha hn hk hd
  case sealed =>
    intro t n k b s hw hb hj hf
    refine completes_mono (completes_checkpointSealed hw hb hj hf) (fun u ⟨⟨w, hmap⟩, hframe⟩ => ?_)
    rw [hmap]
    exact ⟨rfl, rfl, rfl, rfl, rfl, rfl, rfl, hframe⟩
  case failed => exact fun t k b i s hfit hw => completes_checkpointWriteFailed hfit hw
  case noCheckpoint => exact fun t n i s hfit h => exec_checkpoint_none hfit h
  case wordRead => exact fun t w d s => rfl
  case wordRebuilt => exact fun t n w d s h => completes_mapWordRebuilt h
  case wordLost => exact fun t n w d s h hp hc htail => completes_mapWordLost h hp hc htail
  case wordKnown => exact fun t w d r s h => exec_mapWordRebuildComplete_unknown t w d s r h
  case sweep => exact fun s => rfl
  case demotion =>
    intro t g r f o p s hstop hfull hfree hcold ho hclean hturn hpage hroom
    refine completes_mono (completes_demotion hstop hfull hfree hcold ho hclean hturn hpage hroom) (fun u ⟨hmap, hframe⟩ => ?_)
    rw [hmap]
    exact ⟨Tab.find_put_same _ _ _, Tab.find_put_same _ _ _, rfl, hframe⟩
  case noDemotion => exact fun t f s h => exec_demotion_off h
  case rotation =>
    intro t f b o l s hstop hb ho hbead hhomes hnone hfree hclean hidle hslot hdie
    refine completes_mono (completes_beadRotation hstop hb ho hbead hhomes hnone hfree hclean hidle hslot hdie)
      (fun u ⟨hmap, hupdates, hframe⟩ => ?_)
    rw [hmap]
    exact ⟨Tab.find_put_same _ _ _, hupdates, rfl, rfl, hframe⟩
  case noRotation => exact fun t f b s hb h => exec_beadRotation_early hb h
  case source =>
    intro t b f g h r l p s hstop hnone hfree hdue hsource hversions hinteg hf hclean hturn hpage hroom
    refine completes_mono (completes_reclaimSourceChosen hstop hnone hfree hdue hsource hversions hinteg hf hclean hturn hpage hroom)
      (fun u ⟨hmap, hframe⟩ => ?_)
    rw [hmap]
    exact ⟨Tab.find_put_same _ _ _, rfl, rfl, hframe⟩
  case noSource => exact fun t g s h => exec_reclaimSourceChosen_off h
  case copied =>
    exact fun t f g l r s hr hphase hstop htail hall hcopies hf hopen =>
      completes_reclaimCopyComplete hr hcopies hphase hstop htail hall hf hopen
  case notCopied => exact fun t f g l r s hr hcopies h => exec_reclaimCopyComplete_waits hr hcopies h
  case durable => exact fun t g r s hr hphase => exec_reclaimCommitDurable hr hphase
  case drained =>
    exact fun t g r s hr hphase hused hfills hinteg _ hm hopen hbead =>
      completes_reclaimDrainComplete hr hphase hused hfills hinteg hm hopen hbead
  case noJob => exact fun t g s h => exec_reclaim_none h
  case wear =>
    intro t k c d f i o s hfit hstop hrebuild hfree hdue hcold hpick hspread hbead hmovable hf ho hin hclean hwide
    refine completes_mono (completes_wearLevelCheck hfit hstop hrebuild hfree hdue hcold hpick hspread hbead hmovable hf ho hin hclean hwide)
      (fun u ⟨⟨on, hmap⟩, hclosed, hframe⟩ => ?_)
    rw [hmap]
    exact ⟨Tab.find_put_same _ _ _, rfl, hclosed, rfl, hframe⟩
  case noWear => exact fun t i s hfit h => exec_wearLevelCheck_off hfit h

end Sys2Proof.Proofs
end

section
/-! PROOFS: what the statement about the calendar and the threshold tables rests on (07_drift_and_live_calibration). -/

namespace Sys2Proof.Proofs

open Sys2Proof Sys2Proof.Machine Sys2Proof.Safety Sys2Proof.Laws

/-! ## The calendar (R177) -/

theorem calTick_of_steady {c : Cal} (hslew : c.slew = none) (hmax : c.calendar < calendarMax) :
    c.tick = ({ c with calendar := c.calendar + 1 }, true) := by
  unfold Cal.tick
  rw [hslew]
  dsimp only
  rw [Nat.min_eq_right hmax]

/-- The first half of a slewed second: the host time goes on, the calendar waits. -/
theorem calTick_of_slew {c : Cal} {h : Nat} (hslew : c.slew = some h) (hhalf : c.slewHalf = false) (hahead : h + 1 < c.calendar)
    (hmax : c.calendar ≤ calendarMax) : c.tick = ({ c with slew := some (h + 1), slewHalf := true }, false) := by
  have hstays : min calendarMax (c.calendar + b2n false) = c.calendar := Nat.min_eq_right hmax
  unfold Cal.tick
  rw [hslew, hhalf]
  dsimp only
  rw [hstays, if_neg (Nat.not_le.2 hahead), decide_eq_true hahead]
  rfl

/-- The second half: both go on, and the slew ends when the host time has caught up. -/
theorem calTick_of_slewHalf {c : Cal} {h : Nat} (hslew : c.slew = some h) (hhalf : c.slewHalf = true) (hmax : c.calendar < calendarMax) :
    c.tick = ({ c with calendar := c.calendar + 1, slew := if c.calendar ≤ h then none else some (h + 1), slewHalf := false }, true) := by
  have hnext : min calendarMax (c.calendar + b2n true) = c.calendar + 1 := Nat.min_eq_right hmax
  unfold Cal.tick
  rw [hslew, hhalf]
  dsimp only
  rw [hnext]
  simp only [Nat.add_le_add_iff_right, Bool.not_true, Bool.false_and]

theorem changesOnly_powerSecond (s : State) : changesOnly [.cal, .tly, .thm] s s.powerSecond := by
  intro g hg
  have h0 := same_refl g s
  cases g
  case cal | tly | thm => cases hg
  all_goals exact h0

theorem changesOnly_ageDies (s : State) : changesOnly [.med] s s.ageDies := changesOnly_setMed s _

/-- A change of every die reaches each by its position. -/
theorem die_mapIdx {s : State} {i : Nat} (hi : i < s.med.dies.length) (f : Nat → Die → Die) :
    State.die { s with med := { s.med with dies := s.med.dies.mapIdx f } } i = f i (s.die i) := by
  unfold State.die
  rw [List.getD_eq_getElem _ _ (by simpa using hi), List.getD_eq_getElem _ _ hi, List.getElem_mapIdx]

section
variable {t : Nat} {s : State}

/-- With card power a second of the calendar is a power-on second, and the dies age as it advances. -/
theorem exec_calendarTick (hvaux : s.pwr.inputs.vaux ≠ 0) {c : Cal × Bool} (hc : s.cal.tick = c) : exec (.calendarTick t) s =
    .next (if s.pwr.inputs.slot12 = 0 then { s.tick t with cal := c.1 }
      else if c.2 then (State.powerSecond { s.tick t with cal := c.1 }).ageDies else State.powerSecond { s.tick t with cal := c.1 }) := by
  subst hc
  have hunfold : exec (.calendarTick t) s = if s.pwr.inputs.vaux = 0 then .next (s.tick t)
      else if s.pwr.inputs.slot12 = 0 then .next { s.tick t with cal := s.cal.tick.1 }
      else .next (if s.cal.tick.2 then (State.powerSecond { s.tick t with cal := s.cal.tick.1 }).ageDies
        else State.powerSecond { s.tick t with cal := s.cal.tick.1 }) := rfl
  rw [hunfold, if_neg hvaux]
  split <;> rfl

/-- Without card power the calendar alone goes on, while the always-on timer runs. -/
theorem exec_calendarTick_unpowered (hslot : s.pwr.inputs.slot12 = 0) : exec (.calendarTick t) s =
    .next (if s.pwr.inputs.vaux = 0 then s.tick t else { s.tick t with cal := s.cal.tick.1 }) := by
  split
  next hvaux => exact if_pos hvaux
  next hvaux =>
    rw [exec_calendarTick hvaux rfl]
    exact congrArg Host.Outcome.next (if_pos hslot)

/-- The card after a second in which the calendar advances under power. -/
theorem completes_calendarTick (hvaux : s.pwr.inputs.vaux ≠ 0) (hslot : s.pwr.inputs.slot12 ≠ 0) (hslew : s.cal.slew = none)
    (hmax : s.cal.calendar < calendarMax) (hdies : s.med.dies.length = 64) (i : Fin 64) :
    completes (.calendarTick t) s (fun u => u.cal.calendar = s.cal.calendar + 1 ∧ u.cal.powerOnS = s.cal.powerOnS + 1 ∧
      u.cal.thrMirror = s.cal.thr ∧
      u.die i.val = (if s.fitted i.val && !(s.die i.val).retired
        then { s.die i.val with age := (s.die i.val).age + ageRate (s.die i.val).tempC } else s.die i.val) ∧
      u.thm = { s.thm with hist := u.thm.hist } ∧ u.tly = { s.tly with lapHours := u.tly.lapHours } ∧
      changesOnly [.time, .cal, .med, .tly, .thm] s u) := by
  refine ⟨_, exec_calendarTick hvaux (calTick_of_steady hslew hmax), ?_⟩
  rw [if_neg hslot, if_pos rfl]
  have hcal := changesOnly_setCal (s.tick t) { s.cal with calendar := s.cal.calendar + 1 }
  have hpower := changesOnly_powerSecond { s.tick t with cal := { s.cal with calendar := s.cal.calendar + 1 } }
  have hmed : (State.powerSecond { s.tick t with cal := { s.cal with calendar := s.cal.calendar + 1 } }).med = s.med := rfl
  refine ⟨rfl, rfl, rfl, ?_, rfl, rfl, changesOnly_mono (by decide) (changesOnly_of_tick (changesOnly_append hcal
    (changesOnly_append hpower (changesOnly_ageDies _))))⟩
  exact die_mapIdx (by rw [hmed, hdies]; exact i.isLt) _

theorem completes_calendarTick_slew {h : Nat} (hvaux : s.pwr.inputs.vaux ≠ 0) (hslew : s.cal.slew = some h)
    (hhalf : s.cal.slewHalf = false) (hahead : h + 1 < s.cal.calendar) (hmax : s.cal.calendar ≤ calendarMax) :
    completes (.calendarTick t) s (fun u => u.cal.calendar = s.cal.calendar ∧ u.cal.slew = some (h + 1) ∧ u.cal.slewHalf = true ∧
      u.med = s.med ∧ changesOnly [.time, .cal, .tly, .thm] s u) := by
  refine ⟨_, exec_calendarTick hvaux (calTick_of_slew hslew hhalf hahead hmax), ?_⟩
  have hcal := changesOnly_setCal (s.tick t) { s.cal with slew := some (h + 1), slewHalf := true }
  split
  · exact ⟨rfl, rfl, rfl, rfl, changesOnly_mono (by decide) (changesOnly_of_tick hcal)⟩
  · exact ⟨rfl, rfl, rfl, rfl, changesOnly_mono (by decide) (changesOnly_of_tick (changesOnly_append hcal (changesOnly_powerSecond _)))⟩

theorem completes_calendarTick_slewHalf {h : Nat} (hvaux : s.pwr.inputs.vaux ≠ 0) (hslew : s.cal.slew = some h)
    (hhalf : s.cal.slewHalf = true) (hmax : s.cal.calendar < calendarMax) :
    completes (.calendarTick t) s (fun u => u.cal.calendar = s.cal.calendar + 1 ∧ u.cal.slewHalf = false ∧
      u.cal.slew = (if s.cal.calendar ≤ h then none else some (h + 1)) ∧ changesOnly [.time, .cal, .med, .tly, .thm] s u) := by
  refine ⟨_, exec_calendarTick hvaux (calTick_of_slewHalf hslew hhalf hmax), ?_⟩
  have hcal := changesOnly_setCal (s.tick t) { s.cal with
    calendar := s.cal.calendar + 1, slew := if s.cal.calendar ≤ h then none else some (h + 1), slewHalf := false }
  split
  · exact ⟨rfl, rfl, rfl, changesOnly_mono (by decide) (changesOnly_of_tick hcal)⟩
  · rw [if_pos rfl]
    exact ⟨rfl, rfl, rfl, changesOnly_mono (by decide) (changesOnly_of_tick (changesOnly_append hcal
      (changesOnly_append (changesOnly_powerSecond _) (changesOnly_ageDies _))))⟩

end

/-! ## The drift ledger and the reference groups (R179, R181) -/

/-- A die but for the operation that it is at and the times that pace its operations. -/
def atRest (d : Die) : Die := { d with op := none, lastAt := 0, opAt := 0, floorAt := [], ceilAt := [] }

/-- What a new entry of a list shares with the one that it takes the place of, every entry shares. -/
theorem getD_setAt_congr {α β : Type} (f : α → β) {as : List α} {i : Nat} {a d : α} (h : f a = f (as.getD i d)) (j : Nat) :
    f ((setAt as i a).getD j d) = f (as.getD j d) := by
  by_cases hij : i = j
  · subst hij
    by_cases hi : i < as.length
    · rw [getD_setAt_same hi, h]
    · rw [setAt, List.set_eq_of_length_le (Nat.not_lt.1 hi)]
  · unfold setAt
    rw [List.getD_eq_getElem?_getD, List.getElem?_set_ne hij, List.getD_eq_getElem?_getD]

theorem atRest_foldl_started (s : State) (run : List (Nat × Waiting)) (ds : List Die)
    (h : ∀ i, atRest (ds.getD i Die.atReset) = atRest (s.die i)) (i : Nat) :
    atRest ((run.foldl (fun ds e => setAt ds e.1 (s.started (s.die e.1) e.2)) ds).getD i Die.atReset) = atRest (s.die i) := by
  induction run generalizing ds with
  | nil => exact h i
  | cons e run ih =>
    refine ih _ (fun j => ?_)
    have hstarted : atRest (s.started (s.die e.1) e.2) = atRest (ds.getD e.1 Die.atReset) := (h e.1).symm
    exact (getD_setAt_congr atRest hstarted j).trans (h j)

/-- Dies that take up operations are otherwise as they were. -/
theorem atRest_kick (s : State) (i : Nat) : atRest (s.kick.die i) = atRest (s.die i) := by
  unfold State.kick
  split
  · rfl
  · exact atRest_foldl_started s _ s.med.dies (fun _ => rfl) i

theorem changesOnly_kick (s : State) : changesOnly [.med] s s.kick := by
  unfold State.kick
  split
  · exact changesOnly_refl _ s
  · exact changesOnly_setMed s _

theorem changesOnly_eachDie (s : State) (f : Die → Die) : changesOnly [.med] s (s.eachDie f) := changesOnly_setMed s _

theorem die_eachDie {s : State} {i : Fin 64} (hfit : s.fitted i.val = true) (hserves : (s.die i.val).retired = false)
    (hdies : s.med.dies.length = 64) (f : Die → Die) : (s.eachDie f).die i.val = f (s.die i.val) := by
  refine (die_mapIdx (by rw [hdies]; exact i.isLt) _).trans ?_
  rw [hfit, hserves]
  rfl

/-- The first hour that a die's ledger closes. -/
theorem closeHour_first {d : Die} {h : Nat} (hnone : d.hourly = []) (hnew : d.hourAt.1 ≠ h) :
    (d.closeHour h).hourly = [(d.hourAt.1, d.hourAt.2 / 64)] ∧ (d.closeHour h).hourAt = (h, d.age / 65536) ∧
      (d.closeHour h).refWrite = d.refWrite + 1 ∧ (d.closeHour h).age = d.age := by
  unfold Die.closeHour
  rw [if_neg hnew]
  refine ⟨?_, rfl, rfl, rfl⟩
  unfold Die.ledgerHour
  rw [hnone]
  simp

/-- The card when the hour of each die's ledger is closed, before a die writes its entry. -/
def hourClosed (s : State) : State :=
  { s.eachDie (fun d => d.closeHour (s.cal.calendar / 3600)) with cal := { s.cal with saved := s.cal.calendar } }

theorem changesOnly_hourClosed (s : State) : changesOnly [.med, .cal] s (hourClosed s) :=
  changesOnly_append (changesOnly_eachDie s _) (changesOnly_setCal _ _)

section
variable {i : Fin 64} {s : State} (hrails : s.railsOn = true) (hfit : s.fitted i.val = true) (hserves : (s.die i.val).retired = false)
  (hdies : s.med.dies.length = 64)
include hrails hfit hserves hdies

theorem completes_driftLedgerHourly (hnone : (s.die i.val).hourly = []) (hnew : (s.die i.val).hourAt.1 ≠ s.cal.calendar / 3600) :
    completes .driftLedgerHourly s (fun u => (u.die i.val).hourly = [((s.die i.val).hourAt.1, (s.die i.val).hourAt.2 / 64)] ∧
      (u.die i.val).hourAt = (s.cal.calendar / 3600, (s.die i.val).age / 65536) ∧ (u.die i.val).refWrite = (s.die i.val).refWrite + 1 ∧
      (u.die i.val).age = (s.die i.val).age ∧ u.cal = { s.cal with saved := s.cal.calendar } ∧ changesOnly [.cal, .med] s u) := by
  have hrest := atRest_kick (hourClosed s) i.val
  have hdie : (hourClosed s).die i.val = (s.die i.val).closeHour (s.cal.calendar / 3600) := die_eachDie hfit hserves hdies _
  rw [hdie] at hrest
  have hkick := changesOnly_kick (hourClosed s)
  obtain ⟨hhourly, hhour, hwrites, hage⟩ := closeHour_first hnone hnew
  exact ⟨(hourClosed s).kick, congrArg Host.Outcome.next (if_pos hrails), (congrArg Die.hourly hrest).trans hhourly,
    (congrArg Die.hourAt hrest).trans hhour, (congrArg Die.refWrite hrest).trans hwrites, (congrArg Die.age hrest).trans hage,
    hkick .cal rfl, changesOnly_mono (by decide) (changesOnly_append (changesOnly_hourClosed s) hkick)⟩

theorem completes_referenceGroupWrite : completes .referenceGroupWrite s (fun u =>
    (u.die i.val).refs = ((s.cal.calendar, (s.die i.val).age / 65536) :: (s.die i.val).refs).take 64 ∧
    u.cal = { s.cal with saved := s.cal.calendar } ∧ changesOnly [.cal, .med] s u) := by
  refine ⟨_, congrArg Host.Outcome.next (if_pos hrails), congrArg Die.refs (die_eachDie hfit hserves hdies _), rfl, ?_⟩
  exact changesOnly_mono (by decide) (changesOnly_append (changesOnly_eachDie s _) (changesOnly_setCal _ _))

end

/-! ## The threshold tables (R183 to R185) -/

theorem not_unfitted {s : State} {i : Nat} (hfit : s.fitted i = true) : ¬ (!s.fitted i) = true := by
  rw [hfit]
  exact Bool.false_ne_true

theorem changesOnly_summaries (s : State) (is : List Nat) (data : Nat → Bytes) :
    changesOnly [.regs, .tly, .events] s (is.foldl (fun x i => x.ownRow 6 2 (512 + i) (data i)) s) :=
  changesOnly_foldl (fun x _ => changesOnly_ownRow x _ _ _ _) is s

/-- The live tables are saved, and the dies' summaries asked for. -/
theorem completes_thresholdTableSave {s : State} (hrails : s.railsOn = true) : completes .thresholdTableSave s (fun u =>
    u.cal = { s.cal with thrSaved := s.cal.thr } ∧ changesOnly [.cal, .tly, .regs, .events] s u) := by
  have hsaved := changesOnly_setCal s { s.cal with thrSaved := s.cal.thr }
  refine ⟨_, congrArg Host.Outcome.next (if_pos hrails), ?_⟩
  unfold State.saveTables
  dsimp only
  split
  · have hrows := changesOnly_summaries { s with cal := { s.cal with thrSaved := s.cal.thr } }
      (State.fittedDies { s with cal := { s.cal with thrSaved := s.cal.thr } })
      (State.dieRecord { s with cal := { s.cal with thrSaved := s.cal.thr } })
    exact ⟨hrows .cal rfl, changesOnly_mono (by decide) (changesOnly_append hsaved hrows)⟩
  · exact ⟨rfl, changesOnly_mono (by decide) hsaved⟩

theorem exec_tables_off {s : State} (hrails : s.railsOn = false) : exec .driftLedgerHourly s = .next s ∧
    exec .referenceGroupWrite s = .next s ∧ exec .thresholdTableSave s = .next s := by
  have hoff : ¬ s.railsOn = true := by rw [hrails]; exact Bool.false_ne_true
  exact ⟨congrArg Host.Outcome.next (if_neg hoff), congrArg Host.Outcome.next (if_neg hoff), congrArg Host.Outcome.next (if_neg hoff)⟩

/-- An entry after an evaluation of threshold j: its offset is o, its counts are halved, and it has been held at a limit so often. -/
def evaluated (e : ThrEntry) (j : Nat) (o : Int) (held : Nat) : ThrEntry :=
  { e with offsets := setAt e.offsets j o, up := setAt e.up j (e.up.getD j 0 / 2), down := setAt e.down j (e.down.getD j 0 / 2),
           clamped := setAt e.clamped j held }

/-- The live tables after an evaluation of threshold j of an entry: the other bins' offsets stay ordered about it. -/
def evaluatedTables (s : State) (die band bin j : Nat) (o : Int) (held : Nat) : Tab ThrEntry :=
  (List.range 16).foldl (monotone die band bin j o)
    (Tab.put s.cal.thr (thrKey die band bin) (evaluated (s.thrEntry die band bin) j o held))

theorem find_monotone (die band bin j : Nat) (o : Int) (m : Tab ThrEntry) (b : Nat) :
    Tab.find (monotone die band bin j o m b) (thrKey die band bin) = Tab.find m (thrKey die band bin) := by
  unfold monotone
  extract_lets k e x y
  by_cases hb : b = bin
  · have hstays : y = x := by
      dsimp only [y]
      rw [hb, if_neg (Nat.lt_irrefl bin), if_neg (Nat.lt_irrefl bin)]
    rw [if_pos hstays.symm]
  · have hkey : thrKey die band bin ≠ k := by
      dsimp only [k]
      unfold thrKey
      omega
    split
    · rfl
    · exact Tab.find_put_other _ _ _ _ hkey

/-- The evaluated entry itself is not moved again. -/
theorem find_evaluatedTables (s : State) (die band bin j : Nat) (o : Int) (held : Nat) :
    Tab.find (evaluatedTables s die band bin j o held) (thrKey die band bin) =
      some (evaluated (s.thrEntry die band bin) j o held) := by
  have hfold : ∀ (bs : List Nat) (m : Tab ThrEntry), Tab.find (bs.foldl (monotone die band bin j o) m) (thrKey die band bin) =
      Tab.find m (thrKey die band bin) := fun bs => by
    induction bs with
    | nil => exact fun _ => rfl
    | cons b bs ih => exact fun m => (ih _).trans (find_monotone die band bin j o m b)
  exact (hfold _ _).trans (Tab.find_put_same _ _ _)

/-- The card with the evaluated tables. -/
def tablesSet (s : State) (die band bin j : Nat) (o : Int) (held : Nat) : State :=
  { s with cal := { s.cal with thr := evaluatedTables s die band bin j o held } }

theorem changesOnly_tablesSet (s : State) (die band bin j : Nat) (o : Int) (held : Nat) :
    changesOnly [.cal] s (tablesSet s die band bin j o held) := changesOnly_setCal s _

theorem find_tablesSet (s : State) (die band bin j : Nat) (o : Int) (held : Nat) :
    Tab.find (tablesSet s die band bin j o held).cal.thr (thrKey die band bin) =
      some (evaluated (s.thrEntry die band bin) j o held) := by
  unfold tablesSet
  dsimp only
  rw [find_evaluatedTables]

theorem eventKey_limitHits : ∀ i : Fin 64, eventKey (CAL_DIE_STATE.limit_hits.key i.val) = false := by decide

section
variable {t : Nat} {i : Fin 64} {n : Fin 16} {m : Fin 4} {h : Fin 15} {s : State} (hfit : s.fitted i.val = true)
include hfit

/-- The counts of a threshold move it by `raw`, its limits leave `o` of that, and it has been held at one of them `held` times. -/
theorem exec_thresholdCountEvaluation {raw o : Int} {held : Nat}
    (hcounts : 256 ≤ (s.thrEntry i.val m.val n.val).up.getD h.val 0 + (s.thrEntry i.val m.val n.val).down.getD h.val 0)
    (hraw : moved ((s.thrEntry i.val m.val n.val).offsets.getD h.val 0) ((s.thrEntry i.val m.val n.val).up.getD h.val 0)
      ((s.thrEntry i.val m.val n.val).down.getD h.val 0) = raw)
    (ho : clamp60 raw = o) (hheld : (if o = 60 ∨ o = -60 then (s.thrEntry i.val m.val n.val).clamped.getD h.val 0 + 1 else 0) = held) :
    exec (.thresholdCountEvaluation t i n m h) s = .next (
      let s2 := if raw = o then tablesSet (s.tick t) i.val m.val n.val h.val o held
        else (tablesSet (s.tick t) i.val m.val n.val h.val o held).bump CAL_DIE_STATE.limit_hits 1 i.val
      if held = 1024 then ev 0x383 1 [i.val, n.val, m.val, h.val] 4 s2 else s2) := by
  subst hheld ho hraw
  exact (if_neg (not_unfitted hfit)).trans (if_neg (Nat.not_lt.2 hcounts))

theorem exec_thresholdCountEvaluation_early
    (hcounts : (s.thrEntry i.val m.val n.val).up.getD h.val 0 + (s.thrEntry i.val m.val n.val).down.getD h.val 0 < 256) :
    exec (.thresholdCountEvaluation t i n m h) s = .next (s.tick t) := by
  exact (if_neg (not_unfitted hfit)).trans (if_pos hcounts)

/-- A threshold within its limits moves by what its counts say. -/
theorem completes_threshold_moves {x o : Int} (hx : (s.thrEntry i.val m.val n.val).offsets.getD h.val 0 = x) (hlow : -59 < x) (hhigh : x < 59)
    (hcounts : 256 ≤ (s.thrEntry i.val m.val n.val).up.getD h.val 0 + (s.thrEntry i.val m.val n.val).down.getD h.val 0)
    (ho : moved x ((s.thrEntry i.val m.val n.val).up.getD h.val 0) ((s.thrEntry i.val m.val n.val).down.getD h.val 0) = o) :
    completes (.thresholdCountEvaluation t i n m h) s (fun u => Tab.find u.cal.thr (thrKey i.val m.val n.val) =
        some (evaluated (s.thrEntry i.val m.val n.val) h.val o 0) ∧ changesOnly [.time, .cal] s u) := by
  have hrange : -59 ≤ o ∧ o ≤ 59 := by
    subst ho
    unfold moved
    split
    · omega
    · split <;> omega
  have hwithin : clamp60 o = o := by
    unfold clamp60
    omega
  refine ⟨tablesSet (s.tick t) i.val m.val n.val h.val o 0, ?_, find_tablesSet (s.tick t) i.val m.val n.val h.val o 0,
    changesOnly_of_tick (changesOnly_tablesSet (s.tick t) i.val m.val n.val h.val o 0)⟩
  rw [exec_thresholdCountEvaluation hfit hcounts (by rw [hx, ho]) hwithin (if_neg (by omega))]
  dsimp only
  rw [if_neg (by decide), if_pos rfl]

/-- A threshold that would pass its upper limit for the 1,024th time in a row stays there, and is reported. -/
theorem completes_threshold_held (hup : (s.thrEntry i.val m.val n.val).up.getD h.val 0 = 256)
    (hdown : (s.thrEntry i.val m.val n.val).down.getD h.val 0 = 0) (hx : (s.thrEntry i.val m.val n.val).offsets.getD h.val 0 = 60)
    (hclamped : (s.thrEntry i.val m.val n.val).clamped.getD h.val 0 = 1023) :
    completes (.thresholdCountEvaluation t i n m h) s (fun u => Tab.find u.cal.thr (thrKey i.val m.val n.val) =
        some (evaluated (s.thrEntry i.val m.val n.val) h.val 60 1024) ∧
      (s.reg CAL_DIE_STATE.limit_hits i.val + 1 < CAL_DIE_STATE.limit_hits.size →
        u.reg CAL_DIE_STATE.limit_hits i.val = s.reg CAL_DIE_STATE.limit_hits i.val + 1) ∧
      changesOnly [.time, .out, .events, .regs, .cal] s u) := by
  have hset := changesOnly_tablesSet (s.tick t) i.val m.val n.val h.val 60 1024
  have hfind := find_tablesSet (s.tick t) i.val m.val n.val h.val 60 1024
  have hreg : (tablesSet (s.tick t) i.val m.val n.val h.val 60 1024).reg CAL_DIE_STATE.limit_hits i.val =
    s.reg CAL_DIE_STATE.limit_hits i.val := rfl
  have hexec := exec_thresholdCountEvaluation (t := t) (n := n) (m := m) (h := h) (o := 60) (held := 1024) hfit (by omega) (by rw [hx, hup, hdown]) rfl
    (by rw [hclamped, if_pos (.inl rfl)])
  generalize tablesSet (s.tick t) i.val m.val n.val h.val 60 1024 = v at hset hfind hreg hexec
  refine ⟨_, hexec.trans (congrArg Host.Outcome.next (if_pos rfl)), ?_⟩
  rw [if_neg (by decide : ¬ moved 60 256 0 = 60)]
  refine ⟨?_, fun hroom => ?_, ?_⟩
  · rw [ev_cal, State.bump_cal]
    exact hfind
  · rw [reg_ev (eventKey_limitHits i), reg_bump (by rw [hreg]; exact hroom), hreg]
  · exact changesOnly_mono (by decide) (changesOnly_of_tick (changesOnly_append hset ((quiet_bump _ _ 1 i.val).trans (quiet_ev 0x383 1 _ 4 _))))

end

theorem changesOnly_calibrationWindow (s : State) : changesOnly [.out, .events] s
    ((List.range 64).foldl (fun x i => if s.thinOf i = 0 then x else ev 0x38B 0 [i, s.thinOf i] 4 x) s) :=
  changesOnly_foldl (fun x i => by
    split
    · exact changesOnly_refl _ x
    · exact changesOnly_ev 0x38B 0 [i, s.thinOf i] 4 x) _ s

theorem completes_calibrationWindowEnd (t : Nat) (s : State) :
    completes (.calibrationWindowEnd t) s (fun u => changesOnly [.time, .out, .events] s u) :=
  ⟨_, rfl, changesOnly_of_tick (changesOnly_calibrationWindow (s.tick t))⟩

/-! ## Margins (R186) -/

/-- A note of an old stamp marks its stripe block at most. -/
theorem noteOld_spec {s : State} {k : Nat} {x : StripeBlock} (hx : Tab.find s.med.blocks k = some x) (i w : Nat) :
    (∃ o, Tab.find (s.noteOld k i w).med.blocks k = some { x with oldStamp := o }) ∧
      (s.noteOld k i w).med.store = s.med.store ∧ changesOnly [.out, .events, .med] s (s.noteOld k i w) := by
  unfold State.noteOld
  rw [hx]
  dsimp only
  split
  · refine ⟨⟨true, Tab.find_put_same _ _ _⟩, rfl, ?_⟩
    exact changesOnly_mono (by decide) (changesOnly_append (changesOnly_setMed s _) (changesOnly_ev 0x38A 0 _ 4 _))
  · exact ⟨⟨x.oldStamp, hx⟩, rfl, changesOnly_refl _ s⟩

theorem noteOlds_spec {k : Nat} (die : Nat × Nat → Nat) (written : State → Nat) (ms : List (Nat × Nat)) {s : State} {x : StripeBlock}
    (hx : Tab.find s.med.blocks k = some x) :
    (∃ o, Tab.find (ms.foldl (fun s e => s.noteOld k (die e) (written s)) s).med.blocks k = some { x with oldStamp := o }) ∧
      (ms.foldl (fun s e => s.noteOld k (die e) (written s)) s).med.store = s.med.store ∧
      changesOnly [.out, .events, .med] s (ms.foldl (fun s e => s.noteOld k (die e) (written s)) s) := by
  induction ms generalizing s x with
  | nil => exact ⟨⟨x.oldStamp, hx⟩, rfl, changesOnly_refl _ s⟩
  | cons e ms ih =>
    obtain ⟨⟨o, ho⟩, hstore, hframe⟩ := noteOld_spec hx (die e) (written s)
    obtain ⟨⟨p, hp⟩, hstore', hframe'⟩ := ih ho
    exact ⟨⟨p, hp⟩, hstore'.trans hstore, changesOnly_trans hframe hframe'⟩

theorem changesOnly_setMargin (s : State) (k : Nat) (x : StripeBlock) (m : Int) (cause : Option Nat) :
    changesOnly [.events, .med, .cal] s (s.setMargin k x m cause) :=
  changesOnly_append (changesOnly_setFresh s (s.fresh + 1)) (changesOnly_append (changesOnly_setMed _ _) (changesOnly_setCal _ _))

/-- The margin of a stripe block that the tables count, and whether it is due with it. -/
theorem evalMargin_spec {s : State} {k : Nat} {x : StripeBlock} (hx : Tab.find s.med.blocks k = some x) (hcounted : x.counted = true)
    (hdue : x.due = none) :
    (Tab.find (s.evalMargin k).med.blocks k).map (fun y => (y.margin, y.due)) =
        some ((5376 : Int) - s.projected k x, if (5376 : Int) - s.projected k x < 1792 then some 0 else none) ∧
      (s.evalMargin k).med.store = s.med.store ∧ changesOnly [.out, .events, .med, .cal] s (s.evalMargin k) := by
  unfold State.evalMargin
  rw [hx]
  dsimp only
  rw [hcounted, if_neg (by decide)]
  generalize (5376 : Int) - s.projected k x = margin
  have hset := changesOnly_setMargin s k x margin (if margin < 1792 then some 0 else none)
  have hblock : Tab.find (s.setMargin k x margin (if margin < 1792 then some 0 else none)).med.blocks k = _ := Tab.find_put_same _ _ _
  have hstore : (s.setMargin k x margin (if margin < 1792 then some 0 else none)).med.store = s.med.store := rfl
  generalize s.setMargin k x margin (if margin < 1792 then some 0 else none) = v at hset hblock hstore ⊢
  obtain ⟨⟨o, ho⟩, hstore', hframe⟩ := noteOlds_spec (memberDie k) (fun s => s.blockTime k x) x.members hblock
  refine ⟨?_, hstore'.trans hstore, changesOnly_mono (by decide) (changesOnly_append hset hframe)⟩
  rw [ho, hdue]
  split <;> rfl

theorem completes_marginEvaluation {t : Nat} {g : Fin 4} {b : BitVec 20} {x : StripeBlock} {s : State}
    (hx : Tab.find s.med.blocks (blkKey g.val b.toNat) = some x) (hcounted : x.counted = true) (hdue : x.due = none) :
    completes (.marginEvaluation t g b) s (fun u =>
      (Tab.find u.med.blocks (blkKey g.val b.toNat)).map (fun y => (y.margin, y.due)) =
        some ((5376 : Int) - s.projected (blkKey g.val b.toNat) x,
          if (5376 : Int) - s.projected (blkKey g.val b.toNat) x < 1792 then some 0 else none) ∧
      u.med.store = s.med.store ∧ changesOnly [.time, .out, .events, .med, .cal] s u) := by
  obtain ⟨hmargin, hstore, hframe⟩ := evalMargin_spec (s := s.tick t) hx hcounted hdue
  exact ⟨_, rfl, hmargin, hstore, changesOnly_of_tick hframe⟩

theorem exec_marginEvaluation_none {t : Nat} {g : Fin 4} {b : BitVec 20} {s : State}
    (hnone : Tab.find s.med.blocks (blkKey g.val b.toNat) = none) : exec (.marginEvaluation t g b) s = .next (s.tick t) := by
  change Host.Outcome.next ((s.tick t).evalMargin (blkKey g.val b.toNat)) = _
  unfold State.evalMargin
  rw [State.tick_med, hnone]

/-! ## Margin reads (R185) -/

theorem countCorrected_cal (s : State) (n : Nat) : (s.countCorrected n).cal = s.cal := by
  unfold State.countCorrected
  split
  · rfl
  · rw [count_cal, State.bump_cal, State.bump_cal]

theorem noteCount_cal (s : State) (k i bin corrected : Nat) : ∃ d, (s.noteCount k i bin corrected).cal = { s.cal with dueCount := d } := by
  unfold State.noteCount
  split
  · exact ⟨s.cal.dueCount, rfl⟩
  · exact ⟨_, rfl⟩

theorem noteOld_cal (s : State) (k i w : Nat) : (s.noteOld k i w).cal = s.cal := by
  unfold State.noteOld
  split
  · rfl
  · split <;> rfl

/-- A hard decode reports to the entry that its sector was sensed with. -/
theorem decoded_cal (s : State) (k i key w corrected : Nat) (reports : List (Nat × Bool)) :
    ∃ d, (s.decoded k i key w corrected reports).cal = { s.cal with
      thr := Tab.put s.cal.thr key ((Tab.findD s.cal.thr key ThrEntry.blank).report s.cal.powerOnS corrected reports), dueCount := d } := by
  obtain ⟨d, hd⟩ := noteCount_cal ((s.report key corrected reports).countCorrected corrected) k i (key % 16) corrected
  refine ⟨d, ?_⟩
  unfold State.decoded
  rw [noteOld_cal, hd, countCorrected_cal]
  rfl

/-- The card when a margin read of line l, from a sector on die i, has sensed it. -/
def marginSensed (s : State) (i l : Nat) : State :=
  let v := count 0x3003 1 none ((s.sense i).bump CAL_MARGIN.margin_reads)
  internalOp 2 0 1 (some (l * 256)) { v with cal := { v.cal with marginAt := setAt v.cal.marginAt (dieChannel i) (some s.now) } }

theorem marginSensed_spec (s : State) (i l : Nat) :
    (marginSensed s i l).cal = { s.cal with marginAt := setAt s.cal.marginAt (dieChannel i) (some s.now) } ∧
      changesOnly [.out, .events, .regs, .qos, .med, .cal] s (marginSensed s i l) := by
  have hsense := mediumRead_sense s i
  have hcal : (s.sense i).cal = s.cal := State.bump_cal (s.touch i) MED_DIE_READS.sectors 1 i
  have hcounted : Quiet (s.sense i) (count 0x3003 1 none ((s.sense i).bump CAL_MARGIN.margin_reads)) :=
    (quiet_bump _ _ 1 0).trans (quiet_count 0x3003 1 none _)
  unfold marginSensed
  generalize count 0x3003 1 none ((s.sense i).bump CAL_MARGIN.margin_reads) = v at hcounted ⊢
  have hset := changesOnly_setCal v { v.cal with marginAt := setAt v.cal.marginAt (dieChannel i) (some s.now) }
  have hop := changesOnly_internalOp 2 0 1 (some (l * 256))
    { v with cal := { v.cal with marginAt := setAt v.cal.marginAt (dieChannel i) (some s.now) } }
  have hnoted := congrArg (fun c : Cal => { c with marginAt := setAt c.marginAt (dieChannel i) (some s.now) })
    ((hcounted .cal rfl).trans hcal)
  exact ⟨(hop .cal rfl).trans hnoted, changesOnly_mono (by decide) (changesOnly_append hsense.frame (changesOnly_append hcounted
    (changesOnly_append hset hop)))⟩

section
variable {t c : Nat} {i : Fin 64} {l : BitVec 35} {r : List (Nat × Bool)} {s : State} (hfit : s.fitted i.val = true)
include hfit

theorem exec_marginRead_off {e : ReadEnd} (h : s.link.memActive = false ∨ s.readLoc (l.toNat / 64) = none) :
    exec (.marginRead t i l c r e) s = .next (s.tick t) := by
  refine (if_neg (not_unfitted hfit)).trans ?_
  dsimp only
  split
  next => rfl
  next x hx =>
    obtain h | h := h
    · exact if_pos (by simp [h])
    · exact absurd (h.symm.trans hx) nofun

section
variable {x : Loc} (hx : s.readLoc (l.toNat / 64) = some x) (hlies : s.liesOn l.toNat (blkKey x.group x.block) i.val = true)
  (hmem : s.link.memActive = true) (hserves : (s.die i.val).retired = false) (hheld : s.dieHeld i.val = false)
  (hgate : s.med.gated.getLsbD (dieChannel i.val) = false) (hgone : s.sectorGone l.toNat = false)
  (htime : (s.tick t).marginTime (dieChannel i.val) (if s.beadAt (l.toNat / 64) then 250 else 500) = true)
  (hthin : (Tab.findD s.cal.thr (s.sectorEntry x (l.toNat % 64)) ThrEntry.blank).window s.cal.powerOnS < 2048)
  (hentry : (s.heldEntries i.val).contains (s.sectorEntry x (l.toNat % 64)) = true) (hfew : c + s.flipsIn l.toNat ≤ 21)
include hx hlies hmem hserves hheld hgate hgone htime hthin hentry hfew

theorem exec_marginRead : exec (.marginRead t i l c r .hard) s =
    .next ((marginSensed (s.tick t) i.val l.toNat).decoded (blkKey x.group x.block) i.val (s.sectorEntry x (l.toNat % 64))
      (s.sectorTime x (l.toNat % 64)) (c + s.flipsIn l.toNat) r) := by
  have hguard : (!(decide ((Tab.findD s.cal.thr (s.sectorEntry x (l.toNat % 64)) ThrEntry.blank).window s.cal.powerOnS < 2048) &&
      (s.heldEntries i.val).contains (s.sectorEntry x (l.toNat % 64))) || !s.liesOn l.toNat (blkKey x.group x.block) i.val ||
      !s.link.memActive || (s.die i.val).retired || s.dieHeld i.val || s.med.gated.getLsbD (dieChannel i.val) || s.sectorGone l.toNat ||
      !(s.tick t).marginTime (dieChannel i.val) (if s.beadAt (l.toNat / 64) then 250 else 500)) = false := by
    rw [decide_eq_true hthin, hentry, hlies, hmem, hserves, hheld, hgate, hgone, htime]
    rfl
  have hx' : (s.tick t).readLoc (l.toNat / 64) = some x := hx
  refine (if_neg (not_unfitted hfit)).trans ?_
  rw [hx']
  exact (if_neg (Bool.eq_false_iff.1 hguard)).trans (congrArg Host.Outcome.next (if_pos hfew))

/-- A margin read that decodes reports to its thin entry. -/
theorem completes_marginRead : completes (.marginRead t i l c r .hard) s (fun u =>
    Tab.find u.cal.thr (s.sectorEntry x (l.toNat % 64)) = some ((Tab.findD s.cal.thr (s.sectorEntry x (l.toNat % 64)) ThrEntry.blank).report
      s.cal.powerOnS (c + s.flipsIn l.toNat) r) ∧
    u.cal.marginAt = setAt s.cal.marginAt (dieChannel i.val) (some (max s.now t)) ∧
    changesOnly [.time, .out, .events, .regs, .qos, .med, .cal] s u) := by
  refine ⟨_, exec_marginRead hfit hx hlies hmem hserves hheld hgate hgone htime hthin hentry hfew, ?_⟩
  obtain ⟨hcal, hframe⟩ := marginSensed_spec (s.tick t) i.val l.toNat
  generalize marginSensed (s.tick t) i.val l.toNat = v at hcal hframe ⊢
  obtain ⟨d, hd⟩ := decoded_cal v (blkKey x.group x.block) i.val (s.sectorEntry x (l.toNat % 64)) (s.sectorTime x (l.toNat % 64))
    (c + s.flipsIn l.toNat) r
  have hread := mediumRead_decoded v (blkKey x.group x.block) i.val (s.sectorEntry x (l.toNat % 64)) (s.sectorTime x (l.toNat % 64))
    (c + s.flipsIn l.toNat) r
  rw [hcal] at hd
  rw [hd]
  exact ⟨Tab.find_put_same _ _ _, rfl, changesOnly_mono (by decide) (changesOnly_of_tick (changesOnly_append hframe hread.frame))⟩

end

end

end Sys2Proof.Proofs
end

section
/-! PROOFS of the statements about drift and live calibration (07_drift_and_live_calibration). -/

namespace Sys2Proof.Proofs

open Sys2Proof Sys2Proof.Machine Sys2Proof.Safety Sys2Proof.Laws

/-- Settles O52, clause by clause: what the command's lemma says of the card after it. -/
theorem calendarAndCalibration : Obligations.CalendarAndCalibration := by
  unfold Obligations.CalendarAndCalibration
  refine ⟨?second, ?slewWaits, ?slewGoes, ?unpowered, ?ledger, ?saved, ?railsOff, ?moves, ?held, ?early, ?window, ?margin, ?noBlock,
    ?marginRead, ?noRead⟩
  case second => exact fun t i s hvaux hslot hslew hmax hdies => completes_calendarTick hvaux hslot hslew hmax hdies i
  case slewWaits => exact fun t h s hvaux hslew hhalf hahead hmax => completes_calendarTick_slew hvaux hslew hhalf hahead hmax
  case slewGoes => exact fun t h s hvaux hslew hhalf hmax => completes_calendarTick_slewHalf hvaux hslew hhalf hmax
  case unpowered => exact fun t s hslot => exec_calendarTick_unpowered hslot
  case ledger =>
    exact fun i s hrails hfit hserves hdies =>
      ⟨completes_driftLedgerHourly hrails hfit hserves hdies, completes_referenceGroupWrite hrails hfit hserves hdies⟩
  case saved => exact fun s hrails => completes_thresholdTableSave hrails
  case railsOff => exact fun s hrails => exec_tables_off hrails
  case moves =>
    rintro t a b x i n m h s hfit rfl rfl hcounts hx hlow hhigh
    exact completes_threshold_moves hfit hx hlow hhigh hcounts rfl
  case held =>
    intro t i n m h s hfit hup hdown hx hclamped
    have heval : evaluated (s.thrEntry i.val m.val n.val) h.val 60 1024 = { s.thrEntry i.val m.val n.val with
        offsets := setAt (s.thrEntry i.val m.val n.val).offsets h.val 60, up := setAt (s.thrEntry i.val m.val n.val).up h.val 128,
        down := setAt (s.thrEntry i.val m.val n.val).down h.val 0, clamped := setAt (s.thrEntry i.val m.val n.val).clamped h.val 1024 } := by
      unfold evaluated
      rw [hup, hdown]
    rw [← heval]
    exact completes_threshold_held hfit hup hdown hx hclamped
  case early => exact fun t i n m h s hfit hcounts => exec_thresholdCountEvaluation_early hfit hcounts
  case window => exact fun t s => completes_calibrationWindowEnd t s
  case margin => exact fun t g b x s hx hcounted hdue => completes_marginEvaluation hx hcounted hdue
  case noBlock => exact fun t g b s hnone => exec_marginEvaluation_none hnone
  case marginRead =>
    exact fun t c i l r x s hfit hx hlies hmem hserves hheld hgate hgone htime hthin hentry hfew =>
      completes_marginRead hfit hx hlies hmem hserves hheld hgate hgone htime hthin hentry hfew
  case noRead => exact fun t c i l r e s hfit h => exec_marginRead_off hfit h

/-! ## A slot that two references name -/

/-- Folio 0 lies in slot 0 of one-bead stripe block 0 of group 0, which is due for rewrite, and a rotation of it that has not committed
names the same slot. Every channel is gated. -/
def dueNamedTwice : State :=
  { serving with
    med := { serving.med with
      gated := BitVec.allOnes 16,
      blocks := [(0, { StripeBlock.blank with
        bead := true, isOpen := true, members := (List.range 16).map (fun c => (c, 0)), due := some 0 })] },
    map := { serving.map with
      entries := [(0, ⟨some ⟨0, 0, 0⟩, true, false, false, false, false⟩)],
      homes := [(0, ⟨3, ⟨0, 0, 0⟩, true, [], 0, 0, false, false, false, some ⟨0, 0, 0⟩⟩)] } }

/-- The refresh takes slot 0 twice. The second time every sector of it is still to be written, so the second update is over as it begins, and
with it the rotation commits. -/
theorem stripeBlockRefresh_dueNamedTwice :
    nextSat (fun u => u.map.homes.isEmpty) (exec (.stripeBlockRefresh 0 0 0) dueNamedTwice) = true := by decide +kernel

/-- Refutes O53: the clause on the refresh of a one-bead stripe block says that the map stays, and no premise of it has the slots in use named
once each. Of a slot that is named twice, while its dies take no operation, the second update ends at once, and a move of the folio
commits. -/
theorem not_rewritesAndScrub : ¬ Obligations.RewritesAndScrub := by
  intro h
  obtain ⟨_, hrefresh, _⟩ := h
  obtain ⟨u, hu, hmap, _⟩ := hrefresh 0 0 0 { StripeBlock.blank with
    bead := true, isOpen := true, members := (List.range 16).map (fun c => (c, 0)), due := some 0 } dueNamedTwice (by decide +kernel) rfl
    (by decide +kernel) (by decide +kernel) rfl (by decide +kernel)
  have hcommitted := (nextSat_of_eq hu).symm.trans stripeBlockRefresh_dueNamedTwice
  rw [hmap] at hcommitted
  exact absurd hcommitted (by decide)

end Sys2Proof.Proofs
end

section
/-! PROOFS of the statements about extents and about key limits and the carry sweep (08_extents_keys_integrity). -/

namespace Sys2Proof.Proofs

open Sys2Proof Sys2Proof.Machine Sys2Proof.Safety

/-! ## A DPA in no extent -/

/-- The search for a unit's extent finds nothing where no entry holds the unit. -/
theorem extentIx_eq_none {es : List ExtentEntry} {u : Nat} (h : ∀ e ∈ es, extHas e u = false) (i : Nat) : extentIx es u i = none := by
  induction es generalizing i with
  | nil => rfl
  | cons e es ih =>
    obtain ⟨he, hes⟩ := List.forall_mem_cons.mp h
    rw [extentIx, he]
    exact ih hes (i + 1)

theorem extentAt_eq_noExtent {s : State} {dpa : Nat} (h : ∀ e ∈ s.key.extents, extHas e (unitOf dpa) = false) :
    s.extentAt dpa = noExtent := by
  unfold State.extentAt State.extentOf
  rw [extentIx_eq_none h]

/-- Settles O10: no entry is found, so the attributes are those of noExtent. -/
theorem defaultExtent : Obligations.DefaultExtent := by
  intro dpa s h
  unfold State.classAt
  rw [extentAt_eq_noExtent h]
  exact ⟨rfl, rfl, rfl, rfl, rfl, rfl, rfl, rfl⟩

/-! ## A sweep that waits at an epoch-mode folio -/

/-- The background rotation to key 5 stands at folio 0 of extent 0, which is epoch mode, and an epoch is pending. -/
def sweepsPendingEpoch : State :=
  { rotatesToKey5 with
    key := { rotatesToKey5.key with extents := [{ noExtent with units := 1, epoch := true }] },
    ring := { rotatesToKey5.ring with pending := true } }

/-- The boundary does not move: Table 10-8 holds the sweep at it until the pending state ends. -/
theorem carrySweepFolio_sweepsPendingEpoch :
    nextSat (fun u => u.key.sweep.map (·.boundary) == some 0) (exec (.carrySweepFolio 0 0) sweepsPendingEpoch) = true := by decide +kernel

/-- Refutes O54: the clause on a folio with nothing under the old key says that the boundary passes it, and no premise of it says that no
epoch is pending. At an epoch-mode folio the sweep then waits (10 R292, Table 10-8). -/
theorem not_keysAndSweeps : ¬ Obligations.KeysAndSweeps := by
  intro h
  obtain ⟨_, _, _, _, _, _, _, _, hpasses, _⟩ := h
  obtain ⟨u, hu, hsweep, _⟩ := hpasses 0 0 ⟨1, 0, [0], 0, 5, true, true, 0, 0, 0, 0⟩ sweepsPendingEpoch rfl rfl (by decide)
    (by decide +kernel) rfl (by decide +kernel) rfl (by decide) (by decide +kernel) (by decide +kernel)
  have hwaits := (nextSat_of_eq hu).symm.trans carrySweepFolio_sweepsPendingEpoch
  rw [hsweep] at hwaits
  exact absurd hwaits (by decide)

end Sys2Proof.Proofs
end

section
/-! PROOFS of the statement about PERST_N and START (12_start_reset_update). -/

namespace Sys2Proof.Proofs

open Sys2Proof Sys2Proof.Machine Sys2Proof.Safety

/-! ## An on request before a power-down's end -/

/-- A power-down began at time 0 and its last rail went off at time 1; by Table 11-5 it runs until its latest off_delay and pg_timeout are
over. The inputs qualify, and no on request is held. -/
def railsJustOff : State :=
  { State.reset with
    pwr := { State.reset.pwr with
      rails := setAt State.reset.pwr.rails 13 { Rail.atReset with disabledAt := 1 },
      inputs := ⟨12000, 12000, 3300, 3300⟩, qualified := true } }

/-- START at time 1 holds its request for the minimum off time. -/
theorem start_railsJustOff : nextSat (fun u => u.pwr.sequence == 0 && u.pwr.onHeld) (exec (.start 1) railsJustOff) = true := by
  decide +kernel

/-- Refutes O24: the clause on a start with the rails off says that a power-up begins at once, and no premise of it says that the
power-down before is over. While that lasts the request is held (11 R305, Table 11-5). -/
theorem not_perstAndStart : ¬ Obligations.PerstAndStart := by
  intro h
  obtain ⟨_, _, _, _, hrequest, _⟩ := h
  obtain ⟨u, hu, _, hsequence, _⟩ :=
    hrequest 1 railsJustOff rfl rfl rfl (by decide +kernel) (by decide +kernel) rfl (by decide +kernel) rfl rfl rfl
  have hheld := (nextSat_of_eq hu).symm.trans start_railsJustOff
  rw [hsequence] at hheld
  exact absurd hheld Bool.false_ne_true

end Sys2Proof.Proofs
end

section
/-! PROOFS: what the operations of persistence leave (09_persistence_and_power_fail). -/

namespace Sys2Proof.Proofs

open Sys2Proof Sys2Proof.Machine Sys2Proof.Safety Sys2Proof.Laws

/-! ## Frames -/

theorem changesOnly_setPwr (s : State) (y : Power) : changesOnly [.pwr] s { s with pwr := y } := by
  intro g hg
  have h0 := same_refl g s
  cases g
  case pwr => cases hg
  all_goals exact h0

theorem changesOnly_setRing (s : State) (y : Ring) : changesOnly [.ring] s { s with ring := y } := by
  intro g hg
  have h0 := same_refl g s
  cases g
  case ring => cases hg
  all_goals exact h0

theorem changesOnly_setRecd (s : State) (y : Recorder) : changesOnly [.events] s { s with recd := y } := by
  intro g hg
  have h0 := same_refl g s
  cases g
  case events => cases hg
  all_goals exact h0

theorem changesOnly_setSlotD (s : State) (i : Nat) (x : DumpSlot) : changesOnly [.pfl] s (s.setSlotD i x) := changesOnly_setPfl s _

theorem changesOnly_beginPowerDown (s : State) : changesOnly [.pwr] s s.beginPowerDown := changesOnly_setPwr s _

@[simp] theorem ownRow_pfl (s : State) (rank part row : Nat) (data : Bytes) : (s.ownRow rank part row data).pfl = s.pfl :=
  changesOnly_ownRow s rank part row data .pfl rfl

/-! ## The recorder's drain -/

theorem changesOnly_drainRow (s : State) : changesOnly [.regs, .tly, .events] s s.drainRow := by
  unfold State.drainRow
  split
  · exact changesOnly_refl _ s
  · exact changesOnly_mono (by decide) (changesOnly_append (changesOnly_setRecd s _) (changesOnly_ownRow _ 5 4 _ _))

theorem changesOnly_drainAll (s : State) : changesOnly [.regs, .tly, .events] s s.drainAll :=
  changesOnly_foldl (fun s _ => changesOnly_drainRow s) _ s

end Sys2Proof.Proofs
end

section
/-! PROOFS of the statement about the dump's writes (09_persistence_and_power_fail). -/

namespace Sys2Proof.Proofs

open Sys2Proof Sys2Proof.Machine Sys2Proof.Safety Sys2Proof.Laws

/-! ## What a dump reads -/

/-- No tag and no word of the near cache is struck. -/
def NearClean (s : State) : Prop := ∀ e ∈ s.cch.near, e.2.badTags = 0 ∧ e.2.badData = 0

theorem nearClean_of_all {s : State} (h : s.cch.near.all (fun e => e.2.badTags == 0 && e.2.badData == 0) = true) : NearClean s := by
  intro e he
  simpa using List.all_eq_true.1 h e he

theorem mem_of_find {α : Type} {m : Tab α} {k : Nat} {x : α} (h : Tab.find m k = some x) : (k, x) ∈ m := by
  induction m with
  | nil => cases h
  | cons e m ih =>
    obtain ⟨i, b⟩ := e
    rw [Tab.find] at h
    split at h
    next hik =>
      cases h
      rw [hik]
      exact List.mem_cons_self
    next => exact List.mem_cons_of_mem _ (ih h)

theorem nearTags_of_clean {s : State} (h : NearClean s) (ix : Nat) : s.nearTags ix = s := by
  cases hx : Tab.find s.cch.near ix with
  | none => exact nearTags_of_empty hx
  | some x => exact nearTags_of_good hx (h _ (mem_of_find hx)).1

theorem badIn_zero (i : Nat) : badIn 0 i = [] := by simp [badIn]

theorem nearData_of_clean {s : State} (h : NearClean s) (l i : Nat) : s.nearData l i = s := by
  unfold State.nearData
  split
  · rfl
  next x hx =>
    have hgood : x.badData = 0 := (h _ (mem_of_find (find_near_of_nearAt hx).1)).2
    rw [hgood, badIn_zero]

/-- A dump that finds no error changes nothing as it reads. -/
theorem dumpReads_of_clean {s : State} (h : NearClean s) (p : DumpPart) : s.dumpReads p = s := by
  have hslot : ∀ e : Nat × NearSlot, [0, 1, 2, 3].foldl
      (fun s i => if e.2.copy.isDirty i then s.nearData e.2.copy.l.toNat i else s) s = s :=
    fun e => List.foldl_fixed' (fun i => by rw [nearData_of_clean h, ite_self]) _
  cases p with
  | headDirectory => exact List.foldl_fixed' (fun e => nearTags_of_clean h e.1) _
  | nearLines => exact List.foldl_fixed' hslot _
  | header | boardLines | journalTail | epochState | integrity | tailDirectory => rfl

/-! ## The parts -/

/-- Part p of dump d is in its slot, and the next is its turn. -/
def partWritten (s : State) (d : Dump) (p : DumpPart) : State :=
  { s with pfl := { s.pfl with
      dump := some { d with stage := d.stage + 1 }, slots := setAt s.pfl.slots d.slot (s.dumpPart d (s.slotD d.slot) p) } }

section
variable {t : Nat} {p : DumpPart} {d : Dump} {s : State} (hd : s.pfl.dump = some d)
include hd

theorem exec_dumpPartWritten (hp : d.stage = dumpStage p) :
    exec (.dumpPartWritten t p) s = .next (partWritten ((s.tick t).dumpReads p) d p) := by
  dsimp only [exec, execDumpPartWritten]
  rw [State.tick_pfl, hd]
  exact if_pos hp

theorem exec_dumpPartWritten_outOfTurn (hp : d.stage ≠ dumpStage p) : exec (.dumpPartWritten t p) s = .next (s.tick t) := by
  dsimp only [exec, execDumpPartWritten]
  rw [State.tick_pfl, hd]
  exact if_neg hp

theorem completes_dumpPartWritten (hp : d.stage = dumpStage p) : completes (.dumpPartWritten t p) s (fun u =>
    u.pfl.dump = some { d with stage := d.stage + 1 } ∧
    (s.cch.near.all (fun e => e.2.badTags == 0 && e.2.badData == 0) = true → changesOnly [.time, .pfl] s u ∧
      u.pfl = { s.pfl with
        dump := some { d with stage := d.stage + 1 }, slots := setAt s.pfl.slots d.slot (s.dumpPart d (s.slotD d.slot) p) })) := by
  refine ⟨_, exec_dumpPartWritten hd hp, rfl, fun hall => ?_⟩
  have hclean : NearClean (s.tick t) := nearClean_of_all hall
  rw [dumpReads_of_clean hclean]
  refine ⟨changesOnly_of_tick (changesOnly_setPfl _ _), ?_⟩
  cases p <;> rfl

end

/-! ## The trailer -/

/-- The recorder has drained and the trailer is in the slot of dump d: the slot is Holding. -/
def trailerInSlot (s : State) (d : Dump) : State := s.drainAll.setSlotD d.slot { s.slotD d.slot with st := 2, trailer := true }

/-- What the registers say of the dump. -/
def dumpReported (s : State) (d : Dump) (now lines energy : Nat) : State :=
  ((((s.setReg PFL_LAST_DUMP.lines lines).setReg PFL_LAST_DUMP.duration_ms ((now - d.t0) / msec)).setReg
    PFL_LAST_DUMP.energy energy).setReg PFL_LAST_DUMP.outcome 1).bump PFL_COUNTS.dumps

theorem changesOnly_trailerInSlot (s : State) (d : Dump) : changesOnly [.regs, .tly, .events, .pfl] s (trailerInSlot s d) :=
  changesOnly_append (changesOnly_drainAll s) (changesOnly_setSlotD _ _ _)

theorem trailerInSlot_slots (s : State) (d : Dump) :
    (trailerInSlot s d).pfl.slots = setAt s.pfl.slots d.slot { s.slotD d.slot with st := 2, trailer := true } := by
  have hdrain : s.drainAll.pfl = s.pfl := changesOnly_drainAll s .pfl rfl
  unfold trailerInSlot State.setSlotD
  rw [hdrain]

theorem changesOnly_dumpReported (s : State) (d : Dump) (now lines energy : Nat) :
    changesOnly [.regs, .events] s (dumpReported s d now lines energy) := by
  have hset : ∀ (u : State) (f : Fld) (v : Nat), eventKey (f.key 0) = false → changesOnly [.regs, .events] u (u.setReg f v) :=
    fun u f v hf => changesOnly_mono (by decide) (changesOnly_setReg u f v 0 hf)
  have hlines := hset s PFL_LAST_DUMP.lines lines (by decide)
  have htime := changesOnly_trans hlines (hset _ PFL_LAST_DUMP.duration_ms ((now - d.t0) / msec) (by decide))
  have henergy := changesOnly_trans htime (hset _ PFL_LAST_DUMP.energy energy (by decide))
  exact changesOnly_trans (changesOnly_trans henergy (hset _ PFL_LAST_DUMP.outcome 1 (by decide)))
    (changesOnly_bump _ PFL_COUNTS.dumps 1 0 (by decide))

theorem dumpReported_outcome (s : State) (d : Dump) (now lines energy : Nat) :
    (dumpReported s d now lines energy).reg PFL_LAST_DUMP.outcome = 1 :=
  (reg_bump_other (by decide)).trans (reg_setReg _ _ _ _)

/-- The dump is over: the store is discharged and the rails go off. -/
def dumpOver (s : State) (back : Bool) : State :=
  State.beginPowerDown { s with pfl := { s.pfl with dump := none, discharging := true }, pwr := { s.pwr with onHeld := back } }

theorem changesOnly_dumpOver (s : State) (back : Bool) : changesOnly [.pfl, .pwr] s (dumpOver s back) := by
  have hpfl := changesOnly_setPfl s { s.pfl with dump := none, discharging := true }
  have hpwr := changesOnly_append hpfl (changesOnly_setPwr _ { s.pwr with onHeld := back })
  exact changesOnly_mono (by decide) (changesOnly_append hpwr (changesOnly_beginPowerDown _))

/-- What the trailer's writing leaves. -/
def afterTrailer (s : State) (d : Dump) (energy : Nat) (back : Bool) : State :=
  dumpOver (dumpReported (trailerInSlot s d) d s.now (s.slotD d.slot).lines.length energy) back

theorem changesOnly_afterTrailer (s : State) (d : Dump) (energy : Nat) (back : Bool) :
    changesOnly [.pfl, .pwr, .regs, .events, .tly] s (afterTrailer s d energy back) := by
  have hslot := changesOnly_trailerInSlot s d
  have hregs := changesOnly_append hslot (changesOnly_dumpReported _ d s.now (s.slotD d.slot).lines.length energy)
  exact changesOnly_mono (by decide) (changesOnly_append hregs (changesOnly_dumpOver _ back))

theorem afterTrailer_slots (s : State) (d : Dump) (energy : Nat) (back : Bool) :
    (afterTrailer s d energy back).pfl.slots = setAt s.pfl.slots d.slot { s.slotD d.slot with st := 2, trailer := true } := by
  have hpfl : (dumpReported (trailerInSlot s d) d s.now (s.slotD d.slot).lines.length energy).pfl = (trailerInSlot s d).pfl :=
    changesOnly_dumpReported _ d _ _ _ .pfl rfl
  exact (congrArg Persist.slots hpfl).trans (trailerInSlot_slots s d)

section
variable {t : Nat} {d : Dump} {s : State} (hd : s.pfl.dump = some d)
include hd

theorem exec_dumpTrailerWritten {e : Nat} (h8 : d.stage = 8) :
    ∃ back, exec (.dumpTrailerWritten t e) s = .next (afterTrailer (s.tick t) d e back) := by
  refine ⟨d.inputBack.isSome || (!s.boot.perst && s.inputsOk && !s.pwr.needPerst), ?_⟩
  dsimp only [exec, execDumpTrailerWritten]
  rw [State.tick_pfl, hd]
  exact if_neg (not_not.2 h8)

theorem exec_dumpTrailerWritten_early {e : Nat} (h8 : d.stage ≠ 8) : exec (.dumpTrailerWritten t e) s = .next (s.tick t) := by
  dsimp only [exec, execDumpTrailerWritten]
  rw [State.tick_pfl, hd]
  exact if_pos h8

theorem completes_dumpTrailerWritten {e : Nat} (h8 : d.stage = 8) : completes (.dumpTrailerWritten t e) s (fun u =>
    u.pfl.dump = none ∧ u.pfl.discharging = true ∧ u.pwr.sequence = 2 ∧
    u.pfl.slots = setAt s.pfl.slots d.slot { s.slotD d.slot with st := 2, trailer := true } ∧
    u.reg PFL_LAST_DUMP.outcome = 1 ∧ changesOnly [.time, .pfl, .pwr, .regs, .events, .tly] s u) := by
  obtain ⟨back, hx⟩ := exec_dumpTrailerWritten (t := t) (e := e) hd h8
  exact ⟨_, hx, rfl, rfl, rfl, afterTrailer_slots (s.tick t) d e back, dumpReported_outcome _ d _ _ e,
    changesOnly_of_tick (changesOnly_afterTrailer (s.tick t) d e back)⟩

/-! ## The input's return -/

/-- The input is back during dump d. -/
def inputNoted (s : State) (d : Dump) : State :=
  { s with pfl := { s.pfl with dump := some { d with inputBack := some s.now } }, pwr := { s.pwr with okSince := some s.now } }

theorem exec_inputReturn (hcause : d.cause = 0) (hback : d.inputBack = none) : exec (.inputReturnDuringDump t) s =
    .next (ev 0x48E 0 [(max s.now t - d.t0) / msec] 1 (inputNoted (s.tick t) d)) := by
  have hfirst : ¬ (d.cause ≠ 0 ∨ d.inputBack.isSome = true) := by simp [hcause, hback]
  dsimp only [exec, execInputReturnDuringDump]
  rw [State.tick_pfl, hd]
  exact if_neg hfirst

theorem completes_inputReturn (hcause : d.cause = 0) (hback : d.inputBack = none) : completes (.inputReturnDuringDump t) s (fun u =>
    u.pfl = { s.pfl with dump := some { d with inputBack := some (max s.now t) } } ∧
    u.pwr = { s.pwr with okSince := some (max s.now t) } ∧ changesOnly [.time, .pfl, .pwr, .out, .events] s u) := by
  refine ⟨_, exec_inputReturn hd hcause hback, rfl, rfl, changesOnly_of_tick (t := t) ?_⟩
  have hpfl := changesOnly_setPfl (s.tick t) { s.pfl with dump := some { d with inputBack := some (max s.now t) } }
  have hpwr : changesOnly [.pfl, .pwr] (s.tick t) (inputNoted (s.tick t) d) := changesOnly_append hpfl (changesOnly_setPwr _ _)
  exact changesOnly_append hpwr (changesOnly_ev 0x48E 0 _ 1 _)

end

theorem exec_inputReturn_none {t : Nat} {s : State} (h : s.pfl.dump = none) : exec (.inputReturnDuringDump t) s = .next (s.tick t) := by
  dsimp only [exec, execInputReturnDuringDump]
  rw [State.tick_pfl, h]

/-- Settles O28, clause by clause. -/
theorem dumpWrites : Obligations.DumpWrites := by
  unfold Obligations.DumpWrites
  refine ⟨?part, ?outOfTurn, ?contents, ?trailer, ?early, ?inputBack, ?noDump⟩
  case part => exact fun t p d s hd hp => completes_dumpPartWritten hd hp
  case outOfTurn => exact fun t p d s hd hp => exec_dumpPartWritten_outOfTurn hd hp
  case contents => exact fun d x s => ⟨rfl, rfl, rfl, rfl, rfl⟩
  case trailer => exact fun t e d s hd h8 => completes_dumpTrailerWritten hd h8
  case early => exact fun t e d s hd h8 => exec_dumpTrailerWritten_early hd h8
  case inputBack => exact fun t d s hd hcause hback => completes_inputReturn hd hcause hback
  case noDump => exact fun t s h => exec_inputReturn_none h

end Sys2Proof.Proofs
end

section
/-! PROOFS of the statement about flush-home, arming and GPF (09_persistence_and_power_fail; 08 R215). -/

namespace Sys2Proof.Proofs

open Sys2Proof Sys2Proof.Machine Sys2Proof.Safety Sys2Proof.Laws

/-! ## Work that goes home -/

/-- From s to t counters and map went home: only the medium, the map, the keys, the calibration, the registers and the events changed. -/
def HomeWork (s t : State) : Prop := changesOnly [.out, .events, .regs, .med, .map, .key, .cal] s t

theorem HomeWork.refl (s : State) : HomeWork s s := changesOnly_refl _ s

theorem HomeWork.trans {s t u : State} (h : HomeWork s t) (k : HomeWork t u) : HomeWork s u := changesOnly_trans h k

theorem HomeWork.of_changesOnly {l : List Grp} {s t : State} (h : changesOnly l s t)
    (hl : l ⊆ [.out, .events, .regs, .med, .map, .key, .cal] := by decide) : HomeWork s t := changesOnly_mono hl h

theorem HomeWork.of_mediumWork {s t : State} (h : MediumWork s t) : HomeWork s t := .of_changesOnly h.frame

theorem HomeWork.foldl {α : Type} {f : State → α → State} (hf : ∀ s a, HomeWork s (f s a)) (as : List α) (s : State) :
    HomeWork s (as.foldl f s) := changesOnly_foldl hf as s

theorem homeWork_setKey (s : State) (k : Keys) : HomeWork s { s with key := k } := .of_changesOnly (changesOnly_setKey s k)

theorem homeWork_setMap (s : State) (m : Map) : HomeWork s { s with map := m } := .of_changesOnly (changesOnly_setMap s m)

/-! ## Integrity folios placed -/

theorem homeWork_takeBlock (s : State) (g : Nat) (bead integrity : Bool) : HomeWork s (s.takeBlock g bead integrity).1 := by
  unfold State.takeBlock
  split
  · exact .refl s
  next b hb => exact .of_changesOnly (taken_takeNumber s g b bead integrity false).frame

theorem homeWork_startPage (s : State) (g : Nat) (p : OpenPage) : HomeWork s (s.startPage g p) :=
  (homeWork_setMap s _).trans (.of_changesOnly (changesOnly_kick _))

theorem homeWork_fillPage (s : State) (g : Nat) (f : Option Nat) : HomeWork s (s.fillPage g f).1 := by
  unfold State.fillPage
  extract_lets a
  have hpage : HomeWork s a.1 := by
    dsimp only [a]
    split
    · exact .refl s
    · have htaken := homeWork_takeBlock s g false false
      split
      next hb => rwa [hb] at htaken
      next hb => rwa [hb] at htaken
  clear_value a
  split
  · exact hpage
  · extract_lets w q l s1
    have hslot : HomeWork s s1 := hpage.trans (homeWork_setMap a.1 _)
    dsimp only
    split
    · exact hslot.trans (homeWork_startPage s1 g q)
    · exact hslot

theorem homeWork_pageSlot (s : State) (f : Nat) : HomeWork s (s.pageSlot f).1 := by
  unfold State.pageSlot
  split
  · exact .refl s
  · exact (homeWork_setMap s _).trans (homeWork_fillPage _ _ _)

theorem homeWork_beadSlot (s : State) (integrity : Bool) (avoid : Option Nat) : HomeWork s (s.beadSlot integrity avoid).1 := by
  unfold State.beadSlot
  split
  · exact .refl s
  · split
    · exact .refl s
    next g r hturn =>
      have htaken := (homeWork_setMap s { s.map with nextBead := (g + 1) % s.groups }).trans (homeWork_takeBlock _ g true integrity)
      split
      next hb => rwa [hb] at htaken
      next hb => rwa [hb] at htaken

theorem homeWork_freeMember (g wear : Nat) (s : State) (m : Nat × Nat) : HomeWork s (freeMember g wear s m) := by
  unfold freeMember
  dsimp only
  split
  · exact .refl s
  · split
    · exact .of_changesOnly (changesOnly_setMed s _)
    · exact .of_changesOnly (changesOnly_setMed s _)

theorem homeWork_freeBlock (s : State) (g b : Nat) : HomeWork s (s.freeBlock g b) := by
  have hmembers := HomeWork.foldl (homeWork_freeMember g (if (s.block g b).bead then State.bead1 (s.block g b) else 0))
    (s.block g b).members s
  exact (hmembers.trans (.of_changesOnly (changesOnly_setMed _ _))).trans (.of_changesOnly (changesOnly_setFree _ g _))

theorem homeWork_freeIfEmpty (s : State) (l : Loc) : HomeWork s (s.freeIfEmpty l) := by
  unfold State.freeIfEmpty
  dsimp only
  split
  · exact .refl s
  · exact homeWork_freeBlock s _ _

theorem homeWork_stampSector (s : State) (f : Nat) (l : Loc) (kind flips n : Nat) : HomeWork s (s.stampSector f l kind flips n) :=
  .of_mediumWork (mediumWork_stampSector s f l kind flips n)

theorem homeWork_stampInteg (s : State) (n : Nat) (l : Loc) : HomeWork s (s.stampInteg n l) :=
  (HomeWork.of_mediumWork (mediumWork_clearSlot s l)).trans (.foldl (fun s i => homeWork_stampSector s _ l 3 0 i) _ _)

theorem homeWork_integPlace (s : State) (n : Nat) (old : Option Loc) : HomeWork s (s.integPlace n old) := by
  unfold State.integPlace
  split
  · exact .refl s
  · split
    · have hslot := homeWork_beadSlot s true none
      split
      next hb => rwa [hb] at hslot
      next s1 l hb =>
        rw [hb] at hslot
        have hplaced := (hslot.trans (homeWork_stampInteg s1 n l)).trans
          (.of_changesOnly (changesOnly_mapChange _ (integMark + n) (some ⟨some l, true, false, false, false, false⟩) 1))
        dsimp only
        split
        · exact hplaced.trans (homeWork_freeIfEmpty _ _)
        · exact hplaced
    · have hslot := homeWork_pageSlot s (integMark + n)
      split
      next hb => rwa [hb] at hslot
      next s1 l hb =>
        rw [hb] at hslot
        exact (hslot.trans (homeWork_stampInteg s1 n l)).trans (homeWork_setMap _ _)

theorem homeWork_integHome (s : State) (lvl ix : Nat) : HomeWork s (s.integHome lvl ix) := by
  unfold State.integHome
  dsimp only
  split
  · exact homeWork_integPlace s _ none
  · split
    · exact (HomeWork.of_changesOnly (changesOnly_setMed s _)).trans (homeWork_stampSector _ _ _ 3 0 _)
    · exact homeWork_integPlace s _ _

/-! ## Counter blocks and nodes -/

theorem homeWork_raiseMinor (s : State) (lvl ix child : Nat) : HomeWork s (s.raiseMinor lvl ix child) := by
  unfold State.raiseMinor
  dsimp only
  split
  · exact homeWork_setKey s _
  · exact (HomeWork.of_changesOnly (changesOnly_bump s KEY_OVERFLOW.node_overflows 1 0 (by decide))).trans (homeWork_setKey _ _)

theorem homeWork_keepNode (n k : Nat) (dirty : Bool) (s : State) : HomeWork s (keepNode n k dirty s) := by
  induction n generalizing k dirty s with
  | zero => exact .refl s
  | succ n ih =>
    rw [keepNode]
    split
    · exact .refl s
    · extract_lets c left k1 s1
      have hkept : HomeWork s s1 := homeWork_setKey s _
      split
      · exact hkept
      next v hv =>
        split
        · extract_lets lvl ix s2
          have hhome : HomeWork s s2 := hkept.trans (homeWork_setKey s1 _)
          exact ((hhome.trans (homeWork_integHome s2 lvl ix)).trans (homeWork_raiseMinor _ _ _ _)).trans (ih _ _ _)
        · exact hkept

theorem homeWork_bumpNode (s : State) (lvl ix child : Nat) : HomeWork s (s.bumpNode lvl ix child) :=
  (homeWork_raiseMinor s lvl ix child).trans (homeWork_keepNode 4 _ true _)

theorem homeWork_ctrHome (s : State) (p : Nat) : HomeWork s (s.ctrHome p) :=
  ((homeWork_setKey s _).trans (homeWork_integHome _ 0 p)).trans (homeWork_bumpNode _ 1 _ _)

theorem homeWork_nodeHome (s : State) (v : Nat) : HomeWork s (s.nodeHome v) :=
  ((homeWork_setKey s _).trans (homeWork_integHome _ _ _)).trans (homeWork_bumpNode _ _ _ _)

theorem homeWork_nodesToHome (s : State) : HomeWork s s.nodesToHome := by
  unfold State.nodesToHome
  exact .foldl (fun s _ => .foldl homeWork_nodeHome _ s) [1, 2, 3] s

/-! ## The journal tail -/

theorem homeWork_flushSector (s : State) : HomeWork s s.flushSector := by
  by_cases h : (s.map.tail.isEmpty || s.map.waiting) = true
  · have hstay : s.flushSector = s := if_pos h
    rw [hstay]
    exact .refl s
  · obtain ⟨ht, hw⟩ := Bool.or_eq_false_iff.1 (Bool.not_eq_true _ ▸ h)
    exact .of_changesOnly (changesOnly_flushSector (List.isEmpty_eq_false_iff.1 ht) hw)

theorem homeWork_flushSectors (n : Nat) (s : State) : HomeWork s (flushSectors n s) := by
  induction n generalizing s with
  | zero => exact .refl s
  | succ n ih => exact (homeWork_flushSector s).trans (ih _)

theorem homeWork_metadataHome (s : State) : HomeWork s s.metadataHome := by
  have hkeys := (HomeWork.foldl homeWork_ctrHome s.key.dirtyCtrs s).trans (homeWork_nodesToHome _)
  unfold State.metadataHome State.flushTail
  exact hkeys.trans (homeWork_flushSectors _ _)

/-! ## Flush-home is complete -/

/-- What flush-home writes of the card's own tables before the tree top. -/
def tablesHome (s : State) : State := s.metadataHome.saveBoundary.flushRepeats.writeRefs.saveTables.savePosition

theorem changesOnly_saveBoundary (s : State) : changesOnly [.key, .regs, .tly, .events] s s.saveBoundary := by
  unfold State.saveBoundary
  split
  · exact changesOnly_refl _ s
  · exact changesOnly_append (changesOnly_setKey s _) (changesOnly_ownRow _ 1 5 boundaryRow _)

theorem changesOnly_flushRepeats (s : State) : changesOnly [.regs, .tly, .events] s s.flushRepeats := by
  unfold State.flushRepeats
  split
  · exact changesOnly_refl _ s
  · split
    · exact changesOnly_mono (by decide) (changesOnly_append (changesOnly_setRecd s _) (changesOnly_ownRow _ 5 4 _ _))
    · exact changesOnly_refl _ s

theorem changesOnly_writeRefs (s : State) : changesOnly [.med, .cal] s s.writeRefs :=
  changesOnly_append (changesOnly_eachDie s _) (changesOnly_setCal _ _)

theorem changesOnly_saveTables (s : State) : changesOnly [.cal, .regs, .tly, .events] s s.saveTables := by
  have hsaved := changesOnly_setCal s { s.cal with thrSaved := s.cal.thr }
  unfold State.saveTables
  dsimp only
  split
  · exact changesOnly_append hsaved (changesOnly_foldl (fun x i => changesOnly_ownRow x 6 2 (512 + i) _) _ _)
  · exact changesOnly_mono (by decide) hsaved

theorem changesOnly_savePosition (s : State) : changesOnly [.cal, .regs, .tly, .events] s s.savePosition :=
  changesOnly_append (changesOnly_setCal s _) (changesOnly_ownRow _ 6 2 576 _)

theorem changesOnly_tablesHome (s : State) : changesOnly [.out, .events, .regs, .med, .map, .key, .cal, .tly] s (tablesHome s) := by
  have hkeys := changesOnly_append (homeWork_metadataHome s) (changesOnly_saveBoundary _)
  have hrefs := changesOnly_append (changesOnly_append hkeys (changesOnly_flushRepeats _)) (changesOnly_writeRefs _)
  exact changesOnly_mono (by decide)
    (changesOnly_append (changesOnly_append hrefs (changesOnly_saveTables _)) (changesOnly_savePosition _))

/-- The tree top with its next sequence goes to the tally store. -/
def topSaved (s : State) : State :=
  State.ownRow { s with key := { s.key with topSeq := s.key.topSeq + 1, tallyTop := some (s.key.topSeq + 1) } } 1 5 topRow
    (le 8 (s.key.topSeq + 1))

/-- Flush-home has ended at a time: the clean mark is set, and the committed epoch goes to the tally store. -/
def flushEnded (s : State) (now : Nat) : State :=
  State.ownRow { s with
    pfl := { s.pfl with flush := none, flushStart := now, clean := true }, cch := { s.cch with writeback := false },
    ring := { s.ring with tallyEpoch := some s.ring.committed } } 1 5 epochRow (le 8 s.ring.committed)

/-- The clean mark and the lifetime counts go to the tally store. -/
def markSaved (s : State) : State := (s.ownRow 6 1 2 s.shutdownRow).saveLifetime

theorem changesOnly_topSaved (s : State) : changesOnly [.key, .regs, .tly, .events] s (topSaved s) :=
  changesOnly_append (changesOnly_setKey s _) (changesOnly_ownRow _ 1 5 topRow _)

theorem topSaved_key (s : State) : (topSaved s).key.tallyTop = some (topSaved s).key.topSeq := by
  have hkey : (topSaved s).key = { s.key with topSeq := s.key.topSeq + 1, tallyTop := some (s.key.topSeq + 1) } :=
    changesOnly_ownRow _ 1 5 topRow _ .key rfl
  rw [hkey]

theorem changesOnly_tablesAndTop (s : State) :
    changesOnly [.out, .events, .regs, .med, .map, .key, .cal, .tly] s (topSaved (tablesHome s)) :=
  changesOnly_trans (changesOnly_tablesHome s) (changesOnly_mono (by decide) (changesOnly_topSaved _))

theorem changesOnly_markSaved (s : State) : changesOnly [.regs, .tly, .events] s (markSaved s) :=
  changesOnly_trans (changesOnly_ownRow s 6 1 2 _) (changesOnly_ownRow _ 6 1 0 _)

theorem changesOnly_flushEnded (s : State) (now : Nat) : changesOnly [.pfl, .cch, .ring, .regs, .tly, .events] s (flushEnded s now) := by
  have hpfl := changesOnly_setPfl s { s.pfl with flush := none, flushStart := now, clean := true }
  have hcch := changesOnly_append hpfl (changesOnly_setCch _ { s.cch with writeback := false })
  have hring := changesOnly_append hcch (changesOnly_setRing _ { s.ring with tallyEpoch := some s.ring.committed })
  exact changesOnly_append hring (changesOnly_ownRow _ 1 5 epochRow _)

theorem flushEnded_pfl (s : State) (now : Nat) :
    (flushEnded s now).pfl = { s.pfl with flush := none, flushStart := now, clean := true } := changesOnly_ownRow _ 1 5 epochRow _ .pfl rfl

theorem flushEnded_cch (s : State) (now : Nat) : (flushEnded s now).cch = { s.cch with writeback := false } :=
  changesOnly_ownRow _ 1 5 epochRow _ .cch rfl

theorem flushEnded_ring (s : State) (now : Nat) : (flushEnded s now).ring = { s.ring with tallyEpoch := some s.ring.committed } :=
  changesOnly_ownRow _ 1 5 epochRow _ .ring rfl

/-- What the end of flush-home leaves, its event left out. -/
def flushedHome (s : State) : State := markSaved (flushEnded (topSaved (tablesHome s)) s.now)

theorem changesOnly_flushedHome (s : State) : changesOnly [.out, .events, .regs, .med, .map, .key, .cal, .tly, .pfl, .cch, .ring] s
    (flushedHome s) :=
  changesOnly_mono (by decide) (changesOnly_append (changesOnly_tablesAndTop s)
    (changesOnly_append (changesOnly_flushEnded _ s.now) (changesOnly_markSaved _)))

section
variable {t f : Nat} {s : State} (hf : s.pfl.flush = some f)
include hf

theorem exec_flushHomeComplete (hflushed : s.flushed = true) : exec (.flushHomeComplete t) s =
    .next (ev 0x48D 0 [s.pfl.flushBytes, (max s.now t - f) / msec] 1 (flushedHome (s.tick t))) := by
  have hgo : ¬ (!(s.tick t).flushed) = true := by
    rw [Bool.not_eq_true, Bool.not_eq_false']
    exact hflushed
  dsimp only [exec, execFlushHomeComplete]
  rw [State.tick_pfl, hf]
  exact if_neg hgo

theorem exec_flushHomeComplete_staged (hflushed : s.flushed = false) : exec (.flushHomeComplete t) s = .next (s.tick t) := by
  have hstay : (!(s.tick t).flushed) = true := by
    rw [Bool.not_eq_true']
    exact hflushed
  dsimp only [exec, execFlushHomeComplete]
  rw [State.tick_pfl, hf]
  exact if_pos hstay

theorem completes_flushHomeComplete (hflushed : s.flushed = true) : completes (.flushHomeComplete t) s (fun u =>
    u.pfl.flush = none ∧ u.pfl.clean = true ∧ u.pfl.flushStart = max s.now t ∧
    u.cch.writeback = false ∧ u.key.tallyTop = some u.key.topSeq ∧ u.ring.tallyEpoch = some s.ring.committed ∧
    u.link = s.link ∧ u.pwr = s.pwr ∧ u.boot = s.boot ∧ u.now = max s.now t) := by
  have hmark {g : Grp} (hg : [.regs, .tly, .events].contains g = false) :
      same g (flushEnded (topSaved (tablesHome (s.tick t))) (max s.now t)) (flushedHome (s.tick t)) := changesOnly_markSaved _ g hg
  have hframe := changesOnly_flushedHome (s.tick t)
  have hpfl := (hmark (g := .pfl) rfl).trans (flushEnded_pfl _ _)
  have hcch := (hmark (g := .cch) rfl).trans (flushEnded_cch _ _)
  have hring := (hmark (g := .ring) rfl).trans (flushEnded_ring _ _)
  have hepoch : (topSaved (tablesHome (s.tick t))).ring = s.ring := changesOnly_tablesAndTop (s.tick t) .ring rfl
  have hkey : (flushedHome (s.tick t)).key = (topSaved (tablesHome (s.tick t))).key :=
    (hmark (g := .key) rfl).trans (changesOnly_flushEnded _ _ .key rfl)
  refine ⟨_, exec_flushHomeComplete hf hflushed, congrArg Persist.flush hpfl, congrArg Persist.clean hpfl,
    congrArg Persist.flushStart hpfl, congrArg Caches.writeback hcch, ?_, ?_, hframe .link rfl, hframe .pwr rfl, hframe .boot rfl,
    hframe .time rfl⟩
  · rw [ev_key, hkey]
    exact topSaved_key _
  · rw [ev_ring, hring, hepoch]

end

/-! ## Arming a slot -/

section
variable {t : Nat} {i : Fin 2} {s : State}

theorem exec_slotArmed (hblank : (s.slotD i.val).st = 0) (hboot : s.boot.complete = true) (hrails : s.railsOn = true)
    (hdump : s.pfl.dump = none) : exec (.slotArmed t i) s = .next ((s.tick t).armSlot i.val 1) := by
  have hgo : ((s.tick t).slotD i.val).st = 0 ∧ ((s.tick t).boot.running = true ∨ (s.tick t).boot.complete = true) ∧
      (s.tick t).railsOn = true ∧ (s.tick t).pfl.dump.isNone = true :=
    ⟨hblank, .inr hboot, hrails, Option.isNone_iff_eq_none.2 hdump⟩
  exact congrArg Host.Outcome.next (if_pos hgo)

theorem exec_slotArmed_used (hused : (s.slotD i.val).st ≠ 0) : exec (.slotArmed t i) s = .next (s.tick t) :=
  congrArg Host.Outcome.next (if_neg (fun h => hused h.1))

theorem changesOnly_armSlot (s : State) (i st : Nat) : changesOnly [.pfl, .tly, .regs, .events] s (s.armSlot i st) := by
  have hfresh := changesOnly_setFresh s (s.fresh + 1)
  have hslot := changesOnly_append hfresh (changesOnly_setSlotD _ i
    { DumpSlot.atReset with st := st, seq := s.nextDumpSeq, key := s.fresh, drainStart := s.now })
  exact changesOnly_mono (by decide) (changesOnly_append hslot (changesOnly_ownRow _ 1 5 (slotRow i) _))

theorem armSlot_pfl (s : State) (i st : Nat) : (s.armSlot i st).pfl = { s.pfl with
    slots := setAt s.pfl.slots i { DumpSlot.atReset with st := st, seq := s.nextDumpSeq, key := s.fresh, drainStart := s.now } } :=
  ownRow_pfl _ 1 5 (slotRow i) _

theorem completes_slotArmed (hblank : (s.slotD i.val).st = 0) (hboot : s.boot.complete = true) (hrails : s.railsOn = true)
    (hdump : s.pfl.dump = none) : completes (.slotArmed t i) s (fun u =>
      u.pfl.slots = setAt s.pfl.slots i.val
        { DumpSlot.atReset with st := 1, seq := s.nextDumpSeq, key := s.fresh, drainStart := max s.now t } ∧
      changesOnly [.time, .pfl, .tly, .regs, .events] s u) :=
  ⟨_, exec_slotArmed hblank hboot hrails hdump, congrArg Persist.slots (armSlot_pfl (s.tick t) i.val 1),
    changesOnly_of_tick (changesOnly_armSlot (s.tick t) i.val 1)⟩

end

/-! ## GPF -/

section
variable {s : State}

theorem exec_gpfPhase1 (h : s.cxlUp = true) : exec .gpfPhase1 s = .next (s.out (.answer 12 [])) :=
  congrArg Host.Outcome.next (if_pos h)

theorem completes_gpfPhase2 (h : s.cxlUp = true) : completes .gpfPhase2 s (fun u => u.pfl = { s.pfl with gpf := true } ∧
    u.sent = s.sent ++ [.answer 13 []] ∧ changesOnly [.out, .pfl] s u) := by
  refine ⟨_, congrArg Host.Outcome.next (if_pos h), rfl, rfl, ?_⟩
  exact changesOnly_mono (by decide) (changesOnly_append (changesOnly_setPfl s { s.pfl with gpf := true }) (changesOnly_out _ _))

theorem exec_gpf_down (h : s.cxlUp = false) : exec .gpfPhase1 s = .next s ∧ exec .gpfPhase2 s = .next s := by
  have hdown : ¬ s.cxlUp = true := Bool.not_eq_true _ ▸ h
  exact ⟨congrArg Host.Outcome.next (if_neg hdown), congrArg Host.Outcome.next (if_neg hdown)⟩

end

/-- Settles O29, clause by clause. -/
theorem flushHomeAndGpf : Obligations.FlushHomeAndGpf := by
  unfold Obligations.FlushHomeAndGpf
  refine ⟨?flushed, ?staged, ?armed, ?used, ?gpf, ?down⟩
  case flushed => exact fun t f s hf hflushed => completes_flushHomeComplete hf hflushed
  case staged => exact fun t f s hf hflushed => exec_flushHomeComplete_staged hf hflushed
  case armed => exact fun t i s hblank hboot hrails hdump => completes_slotArmed hblank hboot hrails hdump
  case used => exact fun t i s hused => exec_slotArmed_used hused
  case gpf => exact fun s h => ⟨exec_gpfPhase1 h, completes_gpfPhase2 h⟩
  case down => exact fun s h => exec_gpf_down h

end Sys2Proof.Proofs
end

section
/-! PROOFS of the statement about a power failure (09 R249, R259, R263; 11 R304). -/

namespace Sys2Proof.Proofs

open Sys2Proof Sys2Proof.Machine Sys2Proof.Safety Sys2Proof.Laws

/-! ## What the card gives up before a dump -/

theorem changesOnly_setThm (s : State) (y : Thermal) : changesOnly [.thm] s { s with thm := y } := by
  intro g hg
  have h0 := same_refl g s
  cases g
  case thm => cases hg
  all_goals exact h0

theorem changesOnly_linkDown (s : State) : changesOnly [.link, .out] s s.linkDown := by
  unfold State.linkDown
  split
  · exact changesOnly_refl _ s
  · exact changesOnly_append (changesOnly_setLink s _) (changesOnly_out _ _)

theorem linkDown_protocol (s : State) : s.linkDown.link.protocol = 0 := by
  unfold State.linkDown
  split
  next h => exact h
  next => rfl

theorem changesOnly_abandonCommands (s : State) : changesOnly [.link, .tly, .key] s s.abandonCommands := by
  have hlink := changesOnly_append (changesOnly_dropWait s) (changesOnly_setLink s.dropWait { s.dropWait.link with
    background := none, transfer := none, cfgTransfer := none, scan := none, maint := [], resolve := none, held := [] })
  exact changesOnly_mono (by decide) (changesOnly_append hlink (changesOnly_setKey _ _))

/-- A die that loses power tears a sector: which sectors hold what they should is all that changes. -/
theorem tearDie_spec (s : State) (i : Nat) : changesOnly [.med] s (tearDie s i) ∧ (tearDie s i).med.store = s.med.store := by
  have hmed : ∀ m : Media, m.store = s.med.store → changesOnly [.med] s { s with med := m } ∧ m.store = s.med.store :=
    fun m hm => ⟨changesOnly_setMed s m, hm⟩
  unfold tearDie
  split
  · exact ⟨changesOnly_refl _ s, rfl⟩
  · split
    · split
      · exact hmed _ rfl
      · exact ⟨changesOnly_refl _ s, rfl⟩
    · exact hmed _ rfl
    · exact ⟨changesOnly_refl _ s, rfl⟩

theorem tearDies_store (l : List Nat) (s : State) : (l.foldl tearDie s).med.store = s.med.store := by
  induction l generalizing s with
  | nil => rfl
  | cons i l ih => exact (ih _).trans (tearDie_spec s i).2

theorem changesOnly_abandonPrograms (s : State) : changesOnly [.med, .map] s s.abandonPrograms := by
  have htorn := changesOnly_foldl (fun s i => (tearDie_spec s i).1) (List.range 64) s
  unfold State.abandonPrograms
  dsimp only
  generalize (List.range 64).foldl tearDie s = u at htorn ⊢
  have hmed := changesOnly_trans htorn (changesOnly_setMed u { u.med with
    dies := u.med.dies.map (fun d => { d with op := none }),
    blocks := Tab.mapV u.med.blocks (fun _ b => b.close u.cal.calendar), updates := [] })
  exact changesOnly_append hmed (changesOnly_setMap _ _)

theorem abandonPrograms_store (s : State) : s.abandonPrograms.med.store = s.med.store := by
  unfold State.abandonPrograms
  dsimp only
  exact tearDies_store _ s

/-- Requests, link, commands and programs are given up, and writes that waited for a fill have merged. -/
def gaveUp (s : State) : State := s.mergeFills.freeContexts.linkDown.abandonCommands.abandonPrograms

theorem changesOnly_gaveUp (s : State) : changesOnly [.cch, .qos, .link, .out, .tly, .key, .med, .map] s (gaveUp s) := by
  have hqos := changesOnly_append (changesOnly_setCch s s.mergeFills.cch) (changesOnly_setQos s.mergeFills s.mergeFills.freeContexts.qos)
  have hlink := changesOnly_append hqos (changesOnly_linkDown _)
  have hcommands := changesOnly_append hlink (changesOnly_abandonCommands _)
  exact changesOnly_mono (by decide) (changesOnly_append hcommands (changesOnly_abandonPrograms _))

theorem gaveUp_link (s : State) : (gaveUp s).link.protocol = 0 := by
  have hlink : (gaveUp s).link = s.mergeFills.freeContexts.linkDown.abandonCommands.link := changesOnly_abandonPrograms _ .link rfl
  rw [hlink]
  exact linkDown_protocol _

theorem gaveUp_qos (s : State) : (gaveUp s).qos = s.freeContexts.qos :=
  changesOnly_append (changesOnly_linkDown s.mergeFills.freeContexts)
    (changesOnly_append (changesOnly_abandonCommands _) (changesOnly_abandonPrograms _)) .qos rfl

theorem gaveUp_cch (s : State) : (gaveUp s).cch = s.mergeFills.cch :=
  changesOnly_append (changesOnly_linkDown s.mergeFills.freeContexts)
    (changesOnly_append (changesOnly_abandonCommands _) (changesOnly_abandonPrograms _)) .cch rfl

theorem gaveUp_store (s : State) : (gaveUp s).med.store = s.med.store := by
  have hmed : s.mergeFills.freeContexts.linkDown.abandonCommands.med = s.med :=
    changesOnly_append (changesOnly_linkDown s.mergeFills.freeContexts) (changesOnly_abandonCommands _) .med rfl
  exact (abandonPrograms_store _).trans (congrArg Media.store hmed)

theorem gaveUp_slots (s : State) : (gaveUp s).key.slots = s.key.slots := by
  have hprograms : (gaveUp s).key = s.mergeFills.freeContexts.linkDown.abandonCommands.key := changesOnly_abandonPrograms _ .key rfl
  have hlink : s.mergeFills.freeContexts.linkDown.key = s.key := changesOnly_linkDown s.mergeFills.freeContexts .key rfl
  have hcommands := congrArg Keys.slots hlink
  rw [hprograms]
  exact hcommands

/-- What follows for supplies, store and stop leaves what the card gave up. -/
theorem after_gaveUp {s z : State} (h : changesOnly [.pwr, .pfl, .thm] (gaveUp s) z) : z.link.protocol = 0 ∧
    z.qos = s.freeContexts.qos ∧ z.cch = s.mergeFills.cch ∧ z.key.slots = s.key.slots ∧ z.med.store = s.med.store := by
  have hlink : z.link = (gaveUp s).link := h .link rfl
  have hqos : z.qos = (gaveUp s).qos := h .qos rfl
  have hcch : z.cch = (gaveUp s).cch := h .cch rfl
  have hkey : z.key = (gaveUp s).key := h .key rfl
  have hmed : z.med = (gaveUp s).med := h .med rfl
  rw [hlink, hqos, hcch, hkey, hmed]
  exact ⟨gaveUp_link s, gaveUp_qos s, gaveUp_cch s, gaveUp_slots s, gaveUp_store s⟩

/-- With no fill on its way the caches are as they were. -/
theorem mergeFills_cch_of_idle {s : State} (hf : s.cch.fills = []) (hn : s.cch.near.all (fun e => !e.2.filling) = true) :
    s.mergeFills.cch = s.cch := by
  have hnear : Tab.mapV s.cch.near (fun _ x =>
      if x.filling then x.merge (s.lowerData x.copy.l.toNat).1 (s.lowerData x.copy.l.toNat).2 else x) = s.cch.near := by
    refine (List.map_congr_left fun e he => ?_).trans (List.map_id _)
    have hidle : e.2.filling = false := by simpa using List.all_eq_true.1 hn e he
    simp [hidle]
  unfold State.mergeFills
  rw [hnear, ← hf]

theorem dropTest_slots (p : Persist) : p.dropTest.slots = p.slots := by
  unfold Persist.dropTest
  split <;> rfl

theorem dropTest_dump (p : Persist) : p.dropTest.dump = p.dump := by
  unfold Persist.dropTest
  split <;> rfl

/-- Rails 4 and 5 off at a time. -/
def mediaRailsOff (rails : List Rail) (now : Nat) : List Rail := rails.mapIdx (fun i r => if i = 4 ∨ i = 5 then r.off now else r)

theorem mediaRailsOff_drop (rails : List Rail) (now : Nat) : (mediaRailsOff rails now).drop 6 = rails.drop 6 := by
  unfold mediaRailsOff
  refine List.ext_getElem (by simp) fun n h1 h2 => ?_
  have hother : ¬ (6 + n = 4 ∨ 6 + n = 5) := by omega
  rw [List.getElem_drop, List.getElem_drop, List.getElem_mapIdx, if_neg hother]

theorem enabled_mediaRailsOff (rails : List Rail) (now : Nat) : ∀ r ∈ ((mediaRailsOff rails now).drop 4).take 2, r.enabled = false := by
  intro r hr
  obtain ⟨n, hn, rfl⟩ := List.mem_iff_getElem.1 hr
  have h2 : n < 2 := by
    rw [List.length_take] at hn
    omega
  have hrail : 4 + n = 4 ∨ 4 + n = 5 := by omega
  simp only [mediaRailsOff, List.getElem_take, List.getElem_drop, List.getElem_mapIdx, if_pos hrail, Rail.off]

theorem quiesce_pwr (s : State) : s.quiesce.pwr = { s.pwr with rails := mediaRailsOff s.pwr.rails s.now, sequence := 3 } := by
  have hpwr : (gaveUp s).pwr = s.pwr := changesOnly_gaveUp s .pwr rfl
  have hnow : (gaveUp s).now = s.now := changesOnly_gaveUp s .time rfl
  rw [← hpwr, ← hnow]
  rfl

theorem quiesce_pfl (s : State) : s.quiesce.pfl = { s.pfl.dropTest with charging := false, flush := none } := by
  have hpfl : (gaveUp s).pfl = s.pfl := changesOnly_gaveUp s .pfl rfl
  rw [← hpfl]
  rfl

/-- With requests, link, commands and programs given up, only supplies, store and stop are left. -/
theorem changesOnly_gaveUp_quiesce (s : State) : changesOnly [.pwr, .pfl, .thm] (gaveUp s) s.quiesce := by
  have hstop : ∀ (u : State) (w : Power) (p : Persist) (y : Thermal),
      changesOnly [.pwr, .pfl, .thm] u { u with pwr := w, pfl := p, thm := y } := fun u w p y =>
    changesOnly_append (changesOnly_setPwr u w) (changesOnly_append (changesOnly_setPfl { u with pwr := w } p)
      (changesOnly_setThm { u with pwr := w, pfl := p } y))
  exact hstop (gaveUp s) _ _ _

/-! ## The start of a dump -/

theorem changesOnly_powerFailed (s : State) (served : Bool) (cause : Nat) : changesOnly [.pfl] s (s.powerFailed served cause) := by
  unfold State.powerFailed
  split
  · exact changesOnly_setPfl s _
  · exact changesOnly_refl _ s

/-- The mark for the next start leaves the slots and the dump. -/
theorem powerFailed_keeps (s : State) (served : Bool) (cause : Nat) :
    (s.powerFailed served cause).pfl.slots = s.pfl.slots ∧ (s.powerFailed served cause).pfl.dump = s.pfl.dump := by
  unfold State.powerFailed
  split
  · exact ⟨rfl, rfl⟩
  · exact ⟨rfl, rfl⟩

/-- The dump of slot i has begun. -/
def dumpBegun (s : State) (cause i : Nat) : State :=
  { s.quiesce.powerFailed true cause with
    pwr := { (s.quiesce.powerFailed true cause).pwr with needPerst := (s.quiesce.powerFailed true cause).pwr.needPerst || cause != 0 },
    pfl := { (s.quiesce.powerFailed true cause).pfl with dump := some ⟨i, cause, s.now, 0, s.staged, none⟩ } }

theorem dumpBegun_pwr (s : State) (cause i : Nat) : (dumpBegun s cause i).pwr = { s.pwr with
    rails := mediaRailsOff s.pwr.rails s.now, sequence := 3, needPerst := s.pwr.needPerst || cause != 0 } := by
  have hpwr : (s.quiesce.powerFailed true cause).pwr = s.quiesce.pwr := changesOnly_powerFailed _ true cause .pwr rfl
  unfold dumpBegun
  rw [hpwr, quiesce_pwr]

theorem dumpBegun_pfl (s : State) (cause i : Nat) : (dumpBegun s cause i).pfl = { s.pfl.dropTest with
    charging := false, flush := none, failedPower := true, failCause := cause, dump := some ⟨i, cause, s.now, 0, s.staged, none⟩ } := by
  have hpfl : (s.quiesce.powerFailed true cause).pfl = { s.quiesce.pfl with failedPower := true, failCause := cause } := rfl
  unfold dumpBegun
  rw [hpfl, quiesce_pfl]

theorem changesOnly_gaveUp_dumpBegun (s : State) (cause i : Nat) : changesOnly [.pwr, .pfl, .thm] (gaveUp s) (dumpBegun s cause i) := by
  have hset : ∀ (u : State) (w : Power) (p : Persist), changesOnly [.pwr, .pfl, .thm] u { u with pwr := w, pfl := p } := fun u w p =>
    changesOnly_mono (by decide) (changesOnly_append (changesOnly_setPwr u w) (changesOnly_setPfl { u with pwr := w } p))
  have hfailed := changesOnly_mono (m := [.pwr, .pfl, .thm]) (by decide) (changesOnly_powerFailed s.quiesce true cause)
  exact changesOnly_trans (changesOnly_trans (changesOnly_gaveUp_quiesce s) hfailed) (hset _ _ _)

theorem beginDump_of_slot {s : State} {cause i : Nat} (hd : s.pfl.dump = none) (hi : s.dumpSlot = some i) (hc : s.boot.complete = true) :
    s.beginDump cause = ev 0x480 1 [cause, s.pfl.budget, s.staged] 1 (dumpBegun s cause i) := by
  unfold State.beginDump
  simp only [hd, hi, hc, Option.isSome_none, Bool.false_eq_true, if_false, Bool.true_or, Bool.not_true, Bool.false_and]
  rfl

/-- With no slot to dump into the power-down begins. -/
theorem beginDump_of_no_slot {s : State} {cause : Nat} (hd : s.pfl.dump = none) (hi : s.dumpSlot = none) :
    ∃ z, changesOnly [.pwr, .pfl, .thm] (gaveUp s) z ∧ (z.pfl.slots = s.quiesce.pfl.slots ∧ z.pfl.dump = s.quiesce.pfl.dump) ∧
      s.beginDump cause = State.beginPowerDown { z with pwr := { z.pwr with needPerst := z.pwr.needPerst || cause != 0 } } := by
  refine ⟨s.quiesce.powerFailed (s.boot.complete || s.pfl.flush.isSome) cause, ?_, powerFailed_keeps _ _ _, ?_⟩
  · exact changesOnly_trans (changesOnly_gaveUp_quiesce s) (changesOnly_mono (by decide) (changesOnly_powerFailed _ _ _))
  · unfold State.beginDump
    simp only [hd, hi, Option.isSome_none, Bool.false_eq_true, if_false]

/-! ## The command -/

/-- The input is no longer qualified. -/
def inputLost (s : State) : State := { s with pwr := { s.pwr with qualified := false, okSince := none } }

/-- Every restart holds the dump back until it ends. -/
def dumpWaits (s : State) : State :=
  { s with fab := { s.fab with restarts := s.fab.restarts.map (fun x => { x with dumpWaits := true }), queue := [] } }

section
variable {t : Nat} {s : State}

theorem exec_powerFailure_dumping (hd : s.pfl.dump.isSome = true) : exec (.powerFailure t) s = .next (inputLost (s.tick t)) := by
  have hstop : ((s.tick t).pfl.dump.isSome || (s.tick t).pwr.sequence == 2 || (inputLost (s.tick t)).railsOff) = true := by
    rw [State.tick_pfl, hd, Bool.true_or, Bool.true_or]
  exact if_pos hstop

variable (hd : s.pfl.dump = none) (hseq : s.pwr.sequence = 0) (hrails : s.railsOff = false)
include hd hseq hrails

theorem powerFailure_goes : ¬ ((inputLost (s.tick t)).pfl.dump.isSome || (inputLost (s.tick t)).pwr.sequence == 2 ||
    (inputLost (s.tick t)).railsOff) = true ∧ ¬ (inputLost (s.tick t)).pwr.sequence = 1 := by
  have hdump : (inputLost (s.tick t)).pfl.dump = none := hd
  have hsequence : (inputLost (s.tick t)).pwr.sequence = 0 := hseq
  have hoff : (inputLost (s.tick t)).railsOff = false := hrails
  simp [hdump, hsequence, hoff]

theorem exec_powerFailure (hr : s.fab.restarts = []) : exec (.powerFailure t) s = .next ((inputLost (s.tick t)).beginDump 0) := by
  obtain ⟨hgo, hup⟩ := powerFailure_goes (t := t) hd hseq hrails
  refine (if_neg hgo).trans ((if_neg hup).trans ?_)
  dsimp only
  split
  next h => rfl
  next h => exact absurd hr h

theorem exec_powerFailure_restarting (hr : s.fab.restarts ≠ []) : exec (.powerFailure t) s = .next (dumpWaits (inputLost (s.tick t))) := by
  obtain ⟨hgo, hup⟩ := powerFailure_goes (t := t) hd hseq hrails
  refine (if_neg hgo).trans ((if_neg hup).trans ?_)
  dsimp only
  split
  next h => exact absurd h hr
  next h => rfl

theorem completes_powerFailure {i : Nat} (hr : s.fab.restarts = []) (hi : s.dumpSlot = some i) (hc : s.boot.complete = true)
    (hfills : s.cch.fills = []) : completes (.powerFailure t) s (fun u =>
      u.pfl.dump = some ⟨i, 0, max s.now t, 0, s.staged, none⟩ ∧ u.pwr.sequence = 3 ∧
      u.pwr.rails.drop 6 = s.pwr.rails.drop 6 ∧ (∀ r ∈ (u.pwr.rails.drop 4).take 2, r.enabled = false) ∧
      u.pwr.qualified = false ∧ u.link.protocol = 0 ∧ u.qos.ctxs = [] ∧ u.pfl.charging = false ∧ u.pfl.failedPower = true ∧
      (s.cch.near.all (fun e => !e.2.filling) = true → u.cch = s.cch) ∧ u.key.slots = s.key.slots ∧ u.med.store = s.med.store) := by
  have hbegun := beginDump_of_slot (s := inputLost (s.tick t)) (cause := 0) hd hi hc
  have hpwr := dumpBegun_pwr (inputLost (s.tick t)) 0 i
  have hpfl := dumpBegun_pfl (inputLost (s.tick t)) 0 i
  refine ⟨_, (exec_powerFailure hd hseq hrails hr).trans (congrArg Host.Outcome.next hbegun), ?_⟩
  obtain ⟨hlink, hqos, hcch, hslots, hstore⟩ := after_gaveUp (changesOnly_gaveUp_dumpBegun (inputLost (s.tick t)) 0 i)
  rw [ev_pfl, ev_pwr, ev_link, ev_qos, ev_cch, ev_key, ev_med, hpwr, hpfl, hqos, hcch]
  exact ⟨rfl, rfl, mediaRailsOff_drop _ _, enabled_mediaRailsOff _ _, rfl, hlink, rfl, rfl, rfl,
    fun hidle => mergeFills_cch_of_idle hfills hidle, hslots, hstore⟩

theorem completes_powerFailure_noSlot (hr : s.fab.restarts = []) (hi : s.dumpSlot = none) : completes (.powerFailure t) s (fun u =>
    u.pfl.dump = none ∧ u.pwr.sequence = 2 ∧ u.pwr.common = max s.now t ∧ u.link.protocol = 0 ∧ u.pfl.slots = s.pfl.slots) := by
  obtain ⟨z, hframe, ⟨hslots, hdump⟩, hdown⟩ := beginDump_of_no_slot (s := inputLost (s.tick t)) (cause := 0) hd hi
  have hpfl := quiesce_pfl (inputLost (s.tick t))
  have hnow : z.now = max s.now t := (hframe .time rfl).trans (changesOnly_gaveUp (inputLost (s.tick t)) .time rfl)
  obtain ⟨hlink, _⟩ := after_gaveUp hframe
  refine ⟨_, (exec_powerFailure hd hseq hrails hr).trans (congrArg Host.Outcome.next hdown), ?_, rfl, hnow, hlink, ?_⟩
  · change z.pfl.dump = none
    rw [hdump, hpfl]
    exact (dropTest_dump _).trans hd
  · change z.pfl.slots = _
    rw [hslots, hpfl]
    exact dropTest_slots _

theorem completes_powerFailure_restarting (hr : s.fab.restarts ≠ []) : completes (.powerFailure t) s (fun u => u.pfl = s.pfl ∧
    (∀ r ∈ u.fab.restarts, r.dumpWaits = true) ∧ u.fab.restarts.length = s.fab.restarts.length ∧
    changesOnly [.time, .pwr, .fab] s u) := by
  refine ⟨_, exec_powerFailure_restarting hd hseq hrails hr, rfl, fun r h => ?_, List.length_map _, changesOnly_of_tick (t := t) ?_⟩
  · obtain ⟨x, _, rfl⟩ := List.mem_map.1 h
    rfl
  · exact changesOnly_append (changesOnly_setPwr _ _) (changesOnly_setFab _ _ rfl)

end

/-- Settles O27, clause by clause. -/
theorem powerFailureBegins : Obligations.PowerFailureBegins := by
  unfold Obligations.PowerFailureBegins
  refine ⟨?slot, ?noSlot, ?restarting, ?dumping⟩
  case slot => exact fun t i s hd hseq hrails hr hi hc hfills => completes_powerFailure hd hseq hrails hr hi hc hfills
  case noSlot => exact fun t s hd hseq hrails hr hi => completes_powerFailure_noSlot hd hseq hrails hr hi
  case restarting => exact fun t s hd hseq hrails hr => completes_powerFailure_restarting hd hseq hrails hr
  case dumping => exact fun t s hd => exec_powerFailure_dumping hd

end Sys2Proof.Proofs
end

section
/-! PROOFS of the statement about the write-through log and the dirty budget (04 Table 4-8; 09 R242, R243, R260). -/

namespace Sys2Proof.Proofs

open Sys2Proof Sys2Proof.Machine Sys2Proof.Safety

/-! ## A clean offer declined before the log's sector -/

/-- 256-byte line 0, clean, in the near eviction buffer. The board cache has declined its offer just now, so that the entry is held until time
goes on (04 Table 4-8). -/
def offerDeclined : EvictEntry :=
  { copy := { l := 0, dirty := 0, poison := 0, reuse := 0, epochMode := false, epochTag := 0, keyGen := false, data := 5 },
    refetch := 0, mask := 0, declinedAt := some 0 }

/-- The log runs in slot 0 and a write of line 0 waits for its sector; the declined offer is the only copy of the line. -/
def logWaitsForDeclined : State :=
  { State.reset with
    pfl := { State.reset.pfl with wt := some (1, 0), slots := setAt State.reset.pfl.slots 0 { DumpSlot.atReset with st := 4, seq := 1 } },
    cch := { State.reset.cch with evict := [offerDeclined] },
    qos := { State.reset.qos with
      ctxs := [{ (default : Ctx) with req := { (default : Req) with write := true }, acceptedAt := some 0, logWait := true }] } }

/-- LOG_SECTOR_WRITTEN at time 1 finds no copy of line 0 and writes no sector. -/
theorem logSectorWritten_declined : nextSat (fun u => (u.slotD 0).logUsed == 0) (exec (.logSectorWritten 1 [0]) logWaitsForDeclined) = true := by
  decide +kernel

/-- Refutes O30: the clause on a log sector asks for the line's copy before the command's time. A near eviction entry whose clean offer was
declined is a copy then, and at the command's own later time it is released (04 Table 4-8, log entry 70). -/
theorem not_writeThroughAndBudget : ¬ Obligations.WriteThroughAndBudget := by
  intro h
  obtain ⟨hsector, _⟩ := h
  obtain ⟨u, hu, hslots, _⟩ := hsector 1 0 0 ⟨0, 5, false, false, false, 0, 1, false⟩ logWaitsForDeclined rfl (by decide +kernel) rfl rfl
    (by decide +kernel) (by decide +kernel) (by decide +kernel)
  have hused : (u.slotD 0).logUsed = 256 := by
    unfold State.slotD
    rw [hslots]
    rfl
  have hnone := (nextSat_of_eq hu).symm.trans logSectorWritten_declined
  rw [hused] at hnone
  exact absurd hnone (by decide)

end Sys2Proof.Proofs
end

section
/-! PROOFS of the statement about the store test (09 R239 to R241, R243, R263, R266). -/

namespace Sys2Proof.Proofs

open Sys2Proof Sys2Proof.Machine Sys2Proof.Safety Sys2Proof.Laws

/-! ## What the budget and the mode leave unchanged -/

/-- The persistence state without the dirty budget, the mode, the slots and the overlay. -/
def besidesMode (p : Persist) : Persist :=
  { p with bEnergy := 0, bCharge := 0, budget := 0, reported := 0, wt := none, wtPre := false, slots := [], overlay := [], overlayHeld := [],
           overlaySlot := none }

/-- From s to u the budget and the mode may have changed, and what reports and counts them. -/
def ModeChange (s u : State) : Prop :=
  changesOnly [.out, .events, .regs, .pfl, .cch, .tly] s u ∧ besidesMode u.pfl = besidesMode s.pfl

theorem ModeChange.refl (s : State) : ModeChange s s := ⟨changesOnly_refl _ s, rfl⟩

theorem ModeChange.trans {s u w : State} (h : ModeChange s u) (k : ModeChange u w) : ModeChange s w :=
  ⟨changesOnly_trans h.1 k.1, k.2.trans h.2⟩

/-- A field besides the budget and the mode is as it was. -/
theorem ModeChange.field {s u : State} {α : Type} (h : ModeChange s u) (f : Persist → α) (hf : ∀ p, f (besidesMode p) = f p := by intro; rfl) :
    f u.pfl = f s.pfl := (hf u.pfl).symm.trans ((congrArg f h.2).trans (hf s.pfl))

theorem modeChange_of_pfl {s u : State} (h : changesOnly [.pfl] s u) (hp : besidesMode u.pfl = besidesMode s.pfl) : ModeChange s u :=
  ⟨changesOnly_mono (by decide) h, hp⟩

theorem modeChange_ev (e sev : Nat) (data : List Nat) (region : Nat) (s : State) : ModeChange s (ev e sev data region s) :=
  ⟨changesOnly_mono (by decide) (changesOnly_ev e sev data region s), rfl⟩

/-! ## The budget -/

theorem setBudget_pfl (s : State) : ∃ r, s.setBudget.pfl =
    { s.pfl with bEnergy := s.energyMib, bCharge := s.chargeMib, budget := s.newBudget, reported := r } := by
  unfold State.setBudget State.reportBudget
  dsimp only
  split
  · exact ⟨s.newBudget, rfl⟩
  · exact ⟨s.pfl.reported, rfl⟩

theorem changesOnly_reportBudget (s : State) (old : Nat) : changesOnly [.out, .events, .pfl] s (s.reportBudget old) := by
  unfold State.reportBudget
  dsimp only
  split
  · have hfresh := changesOnly_setFresh s (s.fresh + 1)
    exact changesOnly_mono (by decide) (changesOnly_append (changesOnly_append hfresh
      (changesOnly_setPfl _ { s.pfl with reported := s.pfl.budget })) (changesOnly_ev 0x488 0 _ 1 _))
  · exact changesOnly_refl _ s

theorem changesOnly_setBudget (s : State) : changesOnly [.out, .events, .pfl] s s.setBudget :=
  changesOnly_mono (by decide) (changesOnly_append (changesOnly_setPfl s _) (changesOnly_reportBudget _ s.pfl.budget))

theorem modeChange_setBudget (s : State) : ModeChange s s.setBudget := by
  obtain ⟨r, hr⟩ := setBudget_pfl s
  refine ⟨changesOnly_mono (by decide) (changesOnly_setBudget s), ?_⟩
  rw [hr]
  rfl

/-! ## Write-through mode -/

theorem enterWt_of_none {s : State} {cause : Nat} (h : s.pfl.wt = none) : ∃ data w, s.enterWt cause = ev 0x489 1 data 1
    { s.bump PFL_COUNTS.write_through with
      pfl := { s.pfl with wt := some (cause, s.now), wtPre := decide (0 < s.staged) }, cch := { s.cch with writeback := w } } := by
  refine ⟨[cause], decide (0 < s.staged) || s.cch.writeback, ?_⟩
  unfold State.enterWt
  simp only [h, State.bump_pfl, State.bump_cch]

theorem enterWt_pfl {s : State} {cause : Nat} (h : s.pfl.wt = none) :
    (s.enterWt cause).pfl = { s.pfl with wt := some (cause, s.now), wtPre := decide (0 < s.staged) } := by
  obtain ⟨data, w, hw⟩ := enterWt_of_none (cause := cause) h
  rw [hw]
  rfl

theorem modeChange_enterWt {s : State} {cause : Nat} (h : s.pfl.wt = none) : ModeChange s (s.enterWt cause) := by
  constructor
  · obtain ⟨data, w, hw⟩ := enterWt_of_none (cause := cause) h
    rw [hw]
    have hcount := changesOnly_bump s PFL_COUNTS.write_through 1 0 (by decide)
    have hpfl := changesOnly_append hcount (changesOnly_setPfl _ { s.pfl with wt := some (cause, s.now), wtPre := decide (0 < s.staged) })
    exact changesOnly_mono (by decide) (changesOnly_append (changesOnly_append hpfl (changesOnly_setCch _ { s.cch with writeback := w }))
      (changesOnly_ev 0x489 1 data 1 _))
  · rw [enterWt_pfl h]
    rfl

theorem modeChange_setSlotD (s : State) (i : Nat) (d : DumpSlot) : ModeChange s (s.setSlotD i d) :=
  modeChange_of_pfl (changesOnly_setSlotD s i d) rfl

theorem modeChange_armSlot (s : State) (i st : Nat) : ModeChange s (s.armSlot i st) := by
  refine ⟨changesOnly_mono (by decide) (changesOnly_armSlot s i st), ?_⟩
  rw [armSlot_pfl]
  rfl

theorem modeChange_startLog (s : State) : ModeChange s s.startLog := by
  have hpre : ModeChange s { s with pfl := { s.pfl with wtPre := false } } := modeChange_of_pfl (changesOnly_setPfl s _) rfl
  unfold State.startLog
  split
  · exact ModeChange.refl s
  · split
    · exact ModeChange.refl s
    · dsimp only
      split
      · exact hpre.trans (modeChange_setSlotD _ _ _)
      · exact hpre.trans (modeChange_armSlot _ _ 4)

theorem modeChange_drainSlot (s : State) (i : Nat) (ls : List DumpLine) (later : Bool) : ModeChange s (s.drainSlot i ls later) :=
  modeChange_of_pfl (changesOnly_trans (changesOnly_setSlotD s i _) (changesOnly_setPfl _ _)) rfl

/-- The mode ends, with its event. -/
def modeLeft (s : State) (data : List Nat) : State := ev 0x48A 0 data 1 { s with pfl := { s.pfl with wt := none, wtPre := false } }

theorem modeChange_modeLeft (s : State) (data : List Nat) : ModeChange s (modeLeft s data) :=
  (modeChange_of_pfl (changesOnly_setPfl s { s.pfl with wt := none, wtPre := false }) rfl).trans (modeChange_ev 0x48A 0 data 1 _)

theorem modeChange_leaveWt (s : State) : ModeChange s s.leaveWt := by
  unfold State.leaveWt
  split
  · exact ModeChange.refl s
  next c t h =>
    have hleft := modeChange_modeLeft s [(s.now - t) / sec]
    dsimp only
    split
    · exact hleft
    · split
      · exact hleft.trans (modeChange_setSlotD (modeLeft s [(s.now - t) / sec]) _ _)
      · exact hleft.trans (modeChange_drainSlot (modeLeft s [(s.now - t) / sec]) _ _ true)

theorem modeChange_judgeWt (s : State) : ModeChange s s.judgeWt := by
  have henter : ∀ c, s.pfl.wt = none → ModeChange s (s.enterWt c).startLog := fun c h =>
    (modeChange_enterWt h).trans (modeChange_startLog _)
  unfold State.judgeWt
  split
  · exact ModeChange.refl s
  · split
    · split
      · exact modeChange_leaveWt s
      · exact modeChange_startLog s
    next h =>
      split
      · exact ModeChange.refl s
      · split
        · exact henter 0 h
        · split
          · exact henter 2 h
          · exact ModeChange.refl s

/-! ## The end of a test -/

/-- The result of a test, stored. -/
def testResult (s : State) (result : Nat) : Persist :=
  { s.pfl with test := none, charging := true, lastResult := result, lastCal := s.cal.calendar, lastPowerS := s.cal.powerOnS,
               tests := min 65535 (s.pfl.tests + 1) }

/-- The result is in the tally store's row 1. -/
def resultStored (s : State) (result : Nat) : State :=
  State.ownRow { s with pfl := testResult s result } 6 1 1 (State.testRow { s with pfl := testResult s result })

theorem resultStored_spec (s : State) (result : Nat) : (resultStored s result).pfl = testResult s result ∧
    changesOnly [.pfl, .regs, .tly, .events] s (resultStored s result) :=
  ⟨ownRow_pfl _ 6 1 1 _, changesOnly_append (changesOnly_setPfl s (testResult s result)) (changesOnly_ownRow _ 6 1 1 _)⟩

/-- A host's test also ends its background command. -/
theorem finishTest_eq (s : State) (x : StoreTest) (result : Nat) : s.finishTest x result =
    if x.cause = 1 then (resultStored s result).endBackground .success else resultStored s result := rfl

theorem finishTest_spec (s : State) (x : StoreTest) (result : Nat) : (s.finishTest x result).pfl = testResult s result ∧
    changesOnly [.pfl, .regs, .tly, .events, .out, .link] s (s.finishTest x result) := by
  obtain ⟨hpfl, hrow⟩ := resultStored_spec s result
  rw [finishTest_eq]
  split
  · have hend := changesOnly_endBackground (resultStored s result) .success
    exact ⟨(hend .pfl rfl).trans hpfl, changesOnly_mono (by decide) (changesOnly_append hrow hend)⟩
  · exact ⟨hpfl, changesOnly_mono (by decide) hrow⟩

theorem modeChange_noteAging (s : State) (e : Nat) : ModeChange s (s.noteAging e) := by
  unfold State.noteAging
  split
  · exact modeChange_ev 0x48B 1 [e] 1 s
  · exact ModeChange.refl s

/-! ## The test's commands -/

theorem exec_storeTest_none {t mv : Nat} {s : State} (h : s.pfl.test = none) : exec (.storeTestLoadApplied t mv) s = .next (s.tick t) ∧
    exec (.storeTestEsrMeasure t mv) s = .next (s.tick t) ∧ exec (.storeTestDischargeEnd t) s = .next (s.tick t) ∧
    exec (.storeTestRechargeEnd t mv) s = .next (s.tick t) ∧ exec (.storeTestTimeout t) s = .next (s.tick t) := by
  dsimp only [exec, execStoreTestLoadApplied, execStoreTestEsrMeasure, execStoreTestDischargeEnd, execStoreTestRechargeEnd, execStoreTestTimeout]
  rw [State.tick_pfl, h]
  exact ⟨rfl, rfl, rfl, rfl, rfl⟩

theorem exec_storeTestDue {t : Nat} {s : State} (hc : s.boot.complete = true) (hd : s.pfl.dump = none) (hx : s.pfl.test = none)
    (hdue : s.testIsDue = true) (hgo : s.testDefers = false) :
    exec (.storeTestDue t) s = .next ((s.tick t).beginTest (if s.storeFailed then 2 else 0)) := by
  have hdue' : (s.tick t).testIsDue = true := hdue
  have hgo' : (s.tick t).testDefers = false := hgo
  have hrun : ¬ (!(s.tick t).boot.complete || (s.tick t).pfl.dump.isSome || (s.tick t).pfl.test.isSome || !(s.tick t).testIsDue) = true := by
    simp [hc, hd, hx, hdue']
  have hnow : (!(s.tick t).testDefers) = true := by rw [hgo', Bool.not_false]
  exact (if_neg hrun).trans (if_pos hnow)

theorem changesOnly_beginTest (s : State) (cause : Nat) : changesOnly [.pfl, .cch, .out, .events] s (s.beginTest cause) := by
  have hpfl := changesOnly_setPfl s
    { s.pfl with test := some ⟨0, cause, s.now, 0, 0, 0, 0⟩, dueSince := none, deferredAt := none, deferEvent := false }
  have hcch := changesOnly_append hpfl (changesOnly_setCch _ { s.cch with writeback := true })
  exact changesOnly_mono (by decide) (changesOnly_append hcch (changesOnly_setBudget _))

theorem beginTest_spec (s : State) (cause : Nat) : (s.beginTest cause).pfl.test = some ⟨0, cause, s.now, 0, 0, 0, 0⟩ ∧
    (s.beginTest cause).pfl.dueSince = none ∧ (s.beginTest cause).cch = { s.cch with writeback := true } := by
  have hbudget := modeChange_setBudget { s with
    pfl := { s.pfl with test := some ⟨0, cause, s.now, 0, 0, 0, 0⟩, dueSince := none, deferredAt := none, deferEvent := false },
    cch := { s.cch with writeback := true } }
  exact ⟨hbudget.field Persist.test, hbudget.field Persist.dueSince, changesOnly_setBudget _ .cch rfl⟩

theorem completes_storeTestDue {t : Nat} {s : State} (hc : s.boot.complete = true) (hd : s.pfl.dump = none) (hx : s.pfl.test = none)
    (hdue : s.testIsDue = true) (hgo : s.testDefers = false) : completes (.storeTestDue t) s (fun u =>
      u.pfl.test = some ⟨0, if s.storeFailed = true then 2 else 0, max s.now t, 0, 0, 0, 0⟩ ∧ u.pfl.dueSince = none ∧
      u.cch = { s.cch with writeback := true } ∧ changesOnly [.time, .pfl, .cch, .out, .events] s u) := by
  obtain ⟨htest, hsince, hcch⟩ := beginTest_spec (s.tick t) (if s.storeFailed then 2 else 0)
  exact ⟨_, exec_storeTestDue hc hd hx hdue hgo, htest, hsince, hcch, changesOnly_of_tick (t := t) (changesOnly_beginTest _ _)⟩

section
variable {t mv : Nat} {x : StoreTest} {s : State} (hx : s.pfl.test = some x)
include hx

theorem completes_storeTestLoadApplied (h0 : x.phase = 0) (hstaged : s.staged ≤ s.pfl.budget) (hmv : 24000 ≤ mv) :
    completes (.storeTestLoadApplied t mv) s (fun u => changesOnly [.time, .pfl] s u ∧
      u.pfl = { s.pfl with
        vstore := mv, charging := false, test := some { x with phase := 1, loadAt := max s.now t, before := mv } }) := by
  have hstaged' : (s.tick t).staged ≤ s.pfl.budget := hstaged
  have hgo : ¬ (x.phase ≠ 0 ∨ (s.tick t).pfl.budget < (s.tick t).staged ∨ mv < 24000) := by
    rintro (h | h | h)
    · exact h h0
    · exact Nat.not_lt.2 hstaged' h
    · exact Nat.not_lt.2 hmv h
  refine ⟨{ s.tick t with pfl := { s.pfl with
    vstore := mv, charging := false, test := some { x with phase := 1, loadAt := max s.now t, before := mv } } }, ?_,
    changesOnly_of_tick (t := t) (changesOnly_setPfl _ _), rfl⟩
  dsimp only [exec, execStoreTestLoadApplied]
  rw [State.tick_pfl, hx]
  exact if_neg hgo

theorem completes_storeTestEsrMeasure (h1 : x.phase = 1) (hload : x.loadAt + 1000000 ≤ max s.now t) :
    completes (.storeTestEsrMeasure t mv) s (fun u => changesOnly [.time, .pfl] s u ∧
      u.pfl = { s.pfl with vstore := mv, test := some { x with phase := 2, esr := (x.before - mv) * 5 } }) := by
  have hgo : ¬ (x.phase ≠ 1 ∨ (s.tick t).now < x.loadAt + msec) := by
    rintro (h | h)
    · exact h h1
    · exact Nat.not_lt.2 hload h
  refine ⟨{ s.tick t with pfl := { s.pfl with vstore := mv, test := some { x with phase := 2, esr := (x.before - mv) * 5 } } }, ?_,
    changesOnly_of_tick (t := t) (changesOnly_setPfl _ _), rfl⟩
  dsimp only [exec, execStoreTestEsrMeasure]
  rw [State.tick_pfl, hx]
  exact if_neg hgo

theorem completes_storeTestDischargeEnd (h2 : x.phase = 2) : completes (.storeTestDischargeEnd t) s (fun u => changesOnly [.time, .pfl] s u ∧
    u.pfl = { s.pfl with
      vstore := 21000, charging := true,
      test := some { x with phase := 3, cap := 2 * (max s.now t - x.loadAt) / 300000, loadAt := max s.now t } }) := by
  refine ⟨{ s.tick t with pfl := { s.pfl with
    vstore := 21000, charging := true,
    test := some { x with phase := 3, cap := 2 * (max s.now t - x.loadAt) / 300000, loadAt := max s.now t } } }, ?_,
    changesOnly_of_tick (t := t) (changesOnly_setPfl _ _), rfl⟩
  dsimp only [exec, execStoreTestDischargeEnd]
  rw [State.tick_pfl, hx]
  exact if_neg (not_not.2 h2)

/-- The figures of a test that passes, with VSTORE as measured. -/
def passedFigures (s : State) (mv : Nat) (x : StoreTest) : State :=
  { s with pfl := { s.pfl with vstore := mv, cap := x.cap, esr := x.esr, energy := storeEnergy x.cap x.esr 24000,
                               health := if storeEnergy x.cap x.esr 24000 < 30000 then 1 else 0 } }

/-- A test has passed: the budget is computed anew, event 0x486 is raised, and an aged store and the mode are judged. -/
def passJudged (s : State) (x : StoreTest) (e : Nat) : State :=
  ((ev 0x486 0 [x.cap, x.esr, e, s.setBudget.pfl.bEnergy] 1 s.setBudget).noteAging e).judgeWt

omit hx in
theorem modeChange_passJudged (s : State) (x : StoreTest) (e : Nat) : ModeChange s (passJudged s x e) :=
  (((modeChange_setBudget s).trans (modeChange_ev 0x486 0 _ 1 _)).trans (modeChange_noteAging _ e)).trans (modeChange_judgeWt _)

theorem exec_storeTestRechargeEnd (h3 : x.phase = 3) (hmv : 24000 ≤ mv) (hesr : x.esr ≤ 3000)
    (hb : 256 ≤ budgetMib s.coef (storeEnergy x.cap x.esr 24000) (derate s.pfl.tempC)) : exec (.storeTestRechargeEnd t mv) s =
    .next (passJudged ((passedFigures (s.tick t) mv x).finishTest x 1) x (storeEnergy x.cap x.esr 24000)) := by
  have hgo : ¬ (x.phase ≠ 3 ∨ mv < 24000) := by
    rintro (h | h)
    · exact h h3
    · exact Nat.not_lt.2 hmv h
  dsimp only [exec, execStoreTestRechargeEnd]
  rw [State.tick_pfl, hx]
  exact (if_neg hgo).trans ((if_neg (Nat.not_lt.2 hb)).trans (if_neg (Nat.not_lt.2 hesr)))

theorem completes_storeTestRechargeEnd (h3 : x.phase = 3) (hmv : 24000 ≤ mv) (hesr : x.esr ≤ 3000)
    (hb : 256 ≤ budgetMib s.coef (storeEnergy x.cap x.esr 24000) (derate s.pfl.tempC)) :
    completes (.storeTestRechargeEnd t mv) s (fun u => u.pfl.test = none ∧ u.pfl.lastResult = 1 ∧ u.pfl.cap = x.cap ∧
      u.pfl.esr = x.esr ∧ u.pfl.energy = storeEnergy x.cap x.esr 24000 ∧
      u.pfl.health = (if storeEnergy x.cap x.esr 24000 < 30000 then 1 else 0) ∧ u.pfl.lastCal = s.cal.calendar ∧
      u.pfl.tests = min 65535 (s.pfl.tests + 1) ∧ u.med = s.med ∧ u.map = s.map) := by
  obtain ⟨hpfl, hfinish⟩ := finishTest_spec (passedFigures (s.tick t) mv x) x 1
  have hjudge := modeChange_passJudged ((passedFigures (s.tick t) mv x).finishTest x 1) x (storeEnergy x.cap x.esr 24000)
  refine ⟨_, exec_storeTestRechargeEnd hx h3 hmv hesr hb, ?test, ?result, ?cap, ?esr, ?energy, ?health, ?calendar, ?tests,
    (hjudge.1 .med rfl).trans (hfinish .med rfl), (hjudge.1 .map rfl).trans (hfinish .map rfl)⟩
  case test => exact (hjudge.field Persist.test).trans (congrArg Persist.test hpfl)
  case result => exact (hjudge.field Persist.lastResult).trans (congrArg Persist.lastResult hpfl)
  case cap => exact (hjudge.field Persist.cap).trans (congrArg Persist.cap hpfl)
  case esr => exact (hjudge.field Persist.esr).trans (congrArg Persist.esr hpfl)
  case energy => exact (hjudge.field Persist.energy).trans (congrArg Persist.energy hpfl)
  case health => exact (hjudge.field Persist.health).trans (congrArg Persist.health hpfl)
  case calendar => exact (hjudge.field Persist.lastCal).trans (congrArg Persist.lastCal hpfl)
  case tests => exact (hjudge.field Persist.tests).trans (congrArg Persist.tests hpfl)

/-- A test that failed is over: its result is stored and the store's health is 2. -/
def testFailed (s : State) (x : StoreTest) (criterion : Nat) : State :=
  { s.finishTest x criterion with pfl := { (s.finishTest x criterion).pfl with health := 2 } }

omit hx in
theorem modeChange_failTest (e criterion : Nat) (hwt : (testFailed s x criterion).pfl.wt = none) :
    ModeChange (testFailed s x criterion) (s.failTest x e criterion) :=
  ((modeChange_enterWt hwt).trans (modeChange_setBudget _)).trans (modeChange_ev 0x487 2 _ 1 _)

omit hx in
theorem failTest_wt (e criterion : Nat) (hwt : (testFailed s x criterion).pfl.wt = none) :
    (s.failTest x e criterion).pfl.wt = some (1, (testFailed s x criterion).now) := by
  obtain ⟨r, hr⟩ := setBudget_pfl ((testFailed s x criterion).enterWt 1)
  exact (congrArg Persist.wt hr).trans (congrArg Persist.wt (enterWt_pfl hwt))

theorem exec_storeTestTimeout (h0 : x.phase = 0) (hlate : x.t0 + 30000000000 ≤ max s.now t) :
    exec (.storeTestTimeout t) s = .next ((s.tick t).failTest x s.pfl.energy 4) := by
  dsimp only [exec, execStoreTestTimeout]
  rw [State.tick_pfl, hx]
  exact if_pos ⟨h0, hlate⟩

theorem completes_storeTestTimeout (h0 : x.phase = 0) (hlate : x.t0 + 30000000000 ≤ max s.now t) (hwt : s.pfl.wt = none) :
    completes (.storeTestTimeout t) s (fun u => u.pfl.test = none ∧ u.pfl.lastResult = 4 ∧ u.pfl.health = 2 ∧
      u.pfl.wt = some (1, max s.now t) ∧ u.pfl.energy = s.pfl.energy) := by
  obtain ⟨hpfl, hfinish⟩ := finishTest_spec (s.tick t) x 4
  have hnow : (testFailed (s.tick t) x 4).now = max s.now t := hfinish .time rfl
  have hmode : (testFailed (s.tick t) x 4).pfl.wt = none := (congrArg Persist.wt hpfl).trans hwt
  have hfail := modeChange_failTest s.pfl.energy 4 hmode
  refine ⟨_, exec_storeTestTimeout hx h0 hlate, ?test, ?result, hfail.field Persist.health, ?wt, ?energy⟩
  case test => exact (hfail.field Persist.test).trans (congrArg Persist.test hpfl)
  case result => exact (hfail.field Persist.lastResult).trans (congrArg Persist.lastResult hpfl)
  case wt => exact (failTest_wt s.pfl.energy 4 hmode).trans (by rw [hnow])
  case energy =>
    have hkept : ((s.tick t).finishTest x 4).pfl.energy = (testResult (s.tick t) 4).energy := congrArg Persist.energy hpfl
    exact (hfail.field Persist.energy).trans hkept

end

/-- Settles O31, clause by clause. -/
theorem storeTestRuns : Obligations.StoreTestRuns := by
  unfold Obligations.StoreTestRuns
  refine ⟨?due, ?load, ?esr, ?discharge, ?recharge, ?timeout, ?noTest⟩
  case due => exact fun t s hc hd hx hdue hgo => completes_storeTestDue hc hd hx hdue hgo
  case load => exact fun t mv x s hx h0 hstaged hmv => completes_storeTestLoadApplied hx h0 hstaged hmv
  case esr => exact fun t mv x s hx h1 hload => completes_storeTestEsrMeasure hx h1 hload
  case discharge => exact fun t x s hx h2 => completes_storeTestDischargeEnd hx h2
  case recharge => exact fun t mv x s hx h3 hmv hesr hb => completes_storeTestRechargeEnd hx h3 hmv hesr hb
  case timeout => exact fun t x s hx h0 hlate hwt => completes_storeTestTimeout hx h0 hlate hwt
  case noTest => exact fun t mv s h => exec_storeTest_none h

end Sys2Proof.Proofs
end

section
/-! PROOFS of the statement about how an epoch closes, commits and is resolved on the ring (10 R281 to R295, R404). -/

namespace Sys2Proof.Proofs

open Sys2Proof Sys2Proof.Machine Sys2Proof.Safety Sys2Proof.Laws

/-! ## Frames sent and received -/

/-- A frame and then interrupts: the command sent that frame alone. -/
theorem frames_of_sent {s u : State} {f : Frame} {l : List Nat} (h : u.sent = s.sent ++ [.frame f] ++ l.map .msix) : frames s u = [f] := by
  unfold frames
  rw [h, List.append_assoc, List.drop_left, List.filterMap_append, List.filterMap_map]
  simp

theorem frames_of_sendsMsix {s u : State} (h : SendsMsix s u) : frames s u = [] := by
  obtain ⟨l, hl⟩ := h
  unfold frames
  rw [hl, List.drop_left, List.filterMap_map]
  simp

theorem frames_out (s : State) (f : Frame) : frames s (s.out (.frame f)) = [f] := frames_of_sent (l := []) (by simp)

theorem answers_out_frame (s : State) (f : Frame) (p : Path) (op : Nat) : answers s (s.out (.frame f)) p op = [] := by
  unfold answers
  rw [State.out_sent, List.drop_left]
  rfl

theorem changesOnly_interrupt (s : State) (v : Nat) : changesOnly [.out, .events] s (s.interrupt v) := by
  unfold State.interrupt
  split
  · exact changesOnly_mono (by decide) (changesOnly_setEvt s _)
  · exact changesOnly_sendMsix s v

/-- A card on the ring sends its frame, and notes a PREPARE or a COMMIT as its last (10 R291). -/
theorem send_of_onRing {s : State} (h : s.onRing = true) (head : FrameHead) (ty : FrameType) (n mask : Nat) :
    ∃ x, (ty = .prepare ∨ ty = .commit → x = some ⟨head, ty, n, mask⟩) ∧
      s.send head ty n mask = { s with ring := { s.ring with lastFrame := x } }.out (.frame ⟨head, ty, n, mask⟩) := by
  unfold State.send
  rw [if_pos h]
  refine ⟨_, ?_, rfl⟩
  rintro (rfl | rfl) <;> rfl

/-- A PREPARE or a COMMIT has been sent, and is the last one. -/
def closeSent (s : State) (f : Frame) : State := { s with ring := { s.ring with lastFrame := some f } }.out (.frame f)

theorem send_close {s : State} (h : s.onRing = true) {ty : FrameType} (hty : ty = .prepare ∨ ty = .commit) (head : FrameHead) (n mask : Nat) :
    s.send head ty n mask = closeSent s ⟨head, ty, n, mask⟩ := by
  obtain ⟨x, hx, hsend⟩ := send_of_onRing h head ty n mask
  rw [hsend, hx hty]
  rfl

theorem changesOnly_setRing_out (s : State) (y : Ring) (o : Out) : changesOnly [.ring, .out] s ({ s with ring := y }.out o) :=
  changesOnly_append (changesOnly_setRing s y) (changesOnly_out _ o)

theorem changesOnly_closeSent (s : State) (f : Frame) : changesOnly [.ring, .out] s (closeSent s f) := changesOnly_setRing_out s _ _

theorem changesOnly_send (s : State) (head : FrameHead) (ty : FrameType) (n mask : Nat) :
    changesOnly [.ring, .out] s (s.send head ty n mask) := by
  unfold State.send
  split
  · exact changesOnly_setRing_out s _ _
  · exact changesOnly_refl _ s

theorem changesOnly_forward (s : State) (h : FrameHead) (ty : FrameType) (n mask : Nat) : changesOnly [.out] s (s.forward h ty n mask) :=
  changesOnly_out s _

/-- A good frame of the card's own ring is taken up (10 R276). -/
theorem receive_of_known {s : State} {h : FrameHead} (hon : s.onRing = true) (hcrc : h.crcOk = true) (hid : h.ringId = s.ring.ringId)
    (ty : FrameType) (n mask : Nat) (run : State → State) : s.receive h ty n mask run = run s := by
  unfold State.receive
  simp [hon, hcrc, hid]

/-! ## A close on its card -/

/-- A close of epoch n that began at the time given. -/
def closeFrom (n now : Nat) (held : Bool) : Close := ⟨n, 1, now, now, false, false, false, 0, 0, now, held, false⟩

/-- The close that runs, set. -/
def withClose (s : State) (c : Close) : State := { s with ring := { s.ring with close := some c } }

theorem beginClose_tick (s : State) (t n : Nat) :
    (s.tick t).beginClose n = withClose (s.tick t) (closeFrom n (max s.now t) (s.tagBusy n)) := rfl

theorem changesOnly_withClose (s : State) (c : Close) : changesOnly [.ring] s (withClose s c) := changesOnly_setRing s _

/-! ## The doorbell (10 R285, Table 10-4) -/

section
variable {t : Nat} {v : Word64} {s : State} (hp : s.link.protocol ≠ 0)
include hp

theorem exec_ringDoorbellWrite_size {n : Nat} (hn : n ≠ 8) :
    exec (.ringDoorbellWrite t n v) s = .next ((s.tick t).bump RING_ERR.bad_doorbells) :=
  (if_neg hp).trans (if_pos hn)

theorem exec_ringDoorbellWrite_refused (hr : s.refusal v.toNat ≠ 0) : exec (.ringDoorbellWrite t 8 v) s =
    .next { s.tick t with ring := { s.ring with refusal := s.refusal v.toNat } } :=
  (if_neg hp).trans ((if_neg (not_not.2 rfl)).trans (if_pos hr))

/-- A close that is not refused begins; a held one, and one that no other card takes part in, sends nothing. -/
theorem exec_ringDoorbellWrite_taken (hr : s.refusal v.toNat = 0) : exec (.ringDoorbellWrite t 8 v) s =
    .next (if s.tagBusy v.toNat || s.localClose then (s.tick t).beginClose v.toNat
      else ((s.tick t).beginClose v.toNat).sendLap1 v.toNat) :=
  (if_neg hp).trans ((if_neg (not_not.2 rfl)).trans (if_neg (not_not.2 hr)))

end

theorem completes_ringDoorbellWrite {t : Nat} {v : Word64} {s : State} (hp : s.link.protocol ≠ 0) (hr : s.refusal v.toNat = 0)
    (hl : s.localClose = false) (hb : s.tagBusy v.toNat = false) (hon : s.onRing = true) :
    completes (.ringDoorbellWrite t 8 v) s (fun u => frames s u = [⟨s.ownHead, .prepare, v.toNat, 0⟩] ∧
      u.ring = { s.ring with
        close := some (closeFrom v.toNat (max s.now t) false), lastFrame := some ⟨s.ownHead, .prepare, v.toNat, 0⟩ } ∧
      changesOnly [.time, .out, .ring] s u) := by
  have hloud : ¬ (s.tagBusy v.toNat || s.localClose) = true := by rw [hb, hl]; exact Bool.false_ne_true
  have hbegun : ((s.tick t).beginClose v.toNat).ring = { s.ring with close := some (closeFrom v.toNat (max s.now t) false) } := by
    rw [beginClose_tick, hb]
    rfl
  have hsend : ((s.tick t).beginClose v.toNat).sendLap1 v.toNat = _ :=
    send_close (s := (s.tick t).beginClose v.toNat) hon (.inl rfl) s.ownHead v.toNat 0
  refine ⟨_, (exec_ringDoorbellWrite_taken hp hr).trans (congrArg Host.Outcome.next ((if_neg hloud).trans hsend)), frames_out _ _,
    ?_, changesOnly_mono (by decide) (changesOnly_of_tick (t := t) (changesOnly_setRing_out _ _ _))⟩
  exact congrArg (fun r : Ring => { r with lastFrame := some ⟨s.ownHead, .prepare, v.toNat, 0⟩ }) hbegun

theorem completes_ringDoorbellWrite_silent {t : Nat} {v : Word64} {s : State} (hp : s.link.protocol ≠ 0) (hr : s.refusal v.toNat = 0)
    (h : s.localClose = true ∨ s.tagBusy v.toNat = true) : completes (.ringDoorbellWrite t 8 v) s (fun u =>
      u.ring = { s.ring with close := some (closeFrom v.toNat (max s.now t) (s.tagBusy v.toNat)) } ∧ changesOnly [.time, .ring] s u) := by
  have hsilent : (s.tagBusy v.toNat || s.localClose) = true := Bool.or_eq_true_iff.2 h.symm
  exact ⟨_, (exec_ringDoorbellWrite_taken hp hr).trans (congrArg Host.Outcome.next (if_pos hsilent)), rfl,
    changesOnly_of_tick (t := t) (changesOnly_setRing _ _)⟩

section
variable {v : Nat} {s : State}

theorem refusal_of_not_joined (hj : s.ring.joined = false) : s.refusal v = 4 := by
  unfold State.refusal
  rw [hj, Bool.not_false, if_pos rfl]

theorem refusal_of_not_master (hj : s.ring.joined = true) (hl : s.localClose = false) (hm : s.isMaster = false) : s.refusal v = 1 := by
  unfold State.refusal
  rw [hj, hl, hm, Bool.not_true, Bool.not_false, Bool.and_self, if_neg Bool.false_ne_true, if_pos rfl]

variable (hj : s.ring.joined = true) (hm : s.isMaster = true)
include hj hm

theorem refusal_of_wrong_epoch (hv : v ≠ s.openEpoch) : s.refusal v = 2 := by
  unfold State.refusal
  rw [hj, hm, Bool.not_true, Bool.and_false, if_neg Bool.false_ne_true, if_neg Bool.false_ne_true, if_pos (.inl hv)]

/-- The open epoch may be closed where no close runs, no member is missing and no epoch is pending. -/
theorem refusal_of_openEpoch (hv : v = s.openEpoch) (hlt : v < 2 ^ 48) : s.refusal v =
    if s.ring.close.isSome then 3 else if s.ring.st ≠ 1 ∧ s.ring.st ≠ 3 then 4 else if s.ring.pending then 5 else 0 := by
  have hin : ¬ (v ≠ s.openEpoch ∨ 2 ^ 48 ≤ v) := by omega
  unfold State.refusal
  rw [hj, hm, Bool.not_true, Bool.and_false, if_neg Bool.false_ne_true, if_neg Bool.false_ne_true, if_neg hin]

end

/-! ## The close on its card: records, lap 2, resends, the stall -/

/-- A frame of the close is about to leave again: it is counted, and its time is taken. -/
def resending (s : State) (t : Nat) (c : Close) : State :=
  withClose ((s.tick t).bump RING_ERR.retransmits) { c with lastSent := max s.now t }

section
variable {t : Nat} {s : State}

theorem exec_close_none (h : s.ring.close = none) : exec (.preparedRecordWritten t) s = .next (s.tick t) ∧
    exec (.prepareLap2Send t) s = .next (s.tick t) ∧ exec (.decisionRecordWritten t) s = .next (s.tick t) ∧
    exec (.closeResend t) s = .next (s.tick t) ∧ exec (.closeStall t) s = .next (s.tick t) := by
  dsimp only [exec, execPreparedRecordWritten, execPrepareLap2Send, execDecisionRecordWritten, execCloseResend, execCloseStall]
  rw [State.tick_ring, h]
  exact ⟨rfl, rfl, rfl, rfl, rfl⟩

variable {c : Close} (h : s.ring.close = some c)
include h

theorem exec_preparedRecordWritten : exec (.preparedRecordWritten t) s =
    .next (if c.held || c.recordDone || decide (c.n ≠ s.ring.committed + 1) then s.tick t
      else { s.tick t with ring := { s.ring with prepared := true, close := some { c with recordDone := true } } }) := by
  dsimp only [exec, execPreparedRecordWritten]
  rw [State.tick_ring, h]

theorem completes_preparedRecordWritten (hheld : c.held = false) (hrec : c.recordDone = false) (hn : c.n = s.ring.committed + 1) :
    completes (.preparedRecordWritten t) s (fun u =>
      u.ring = { s.ring with prepared := true, close := some { c with recordDone := true } } ∧ changesOnly [.time, .ring] s u) := by
  have hgo : ¬ (c.held || c.recordDone || decide (c.n ≠ s.ring.committed + 1)) = true := by simp [hheld, hrec, hn]
  exact ⟨_, (exec_preparedRecordWritten h).trans (congrArg Host.Outcome.next (if_neg hgo)), rfl,
    changesOnly_of_tick (t := t) (changesOnly_setRing _ _)⟩

theorem exec_preparedRecordWritten_stays (hstay : c.held = true ∨ c.recordDone = true) :
    exec (.preparedRecordWritten t) s = .next (s.tick t) := by
  have hstay' : (c.held || c.recordDone || decide (c.n ≠ s.ring.committed + 1)) = true := by
    rw [Bool.or_eq_true_iff, Bool.or_eq_true_iff]
    exact .inl hstay
  exact (exec_preparedRecordWritten h).trans (congrArg Host.Outcome.next (if_pos hstay'))

theorem exec_prepareLap2Send : exec (.prepareLap2Send t) s =
    .next (if s.isMaster && c.lap2Due (max s.now t) then (s.tick t).sendLap2 c else s.tick t) := by
  dsimp only [exec, execPrepareLap2Send]
  rw [State.tick_ring, h]
  rfl

theorem completes_prepareLap2Send (hm : s.isMaster = true) (hdue : c.lap2Due (max s.now t) = true) (hon : s.onRing = true) :
    completes (.prepareLap2Send t) s (fun u => frames s u = [⟨{ s.ownHead with lap2 := true }, .prepare, c.n, 2 ^ s.ringPos⟩] ∧
      u.ring.close = some { c with lap2Sent := true, lastSent := max s.now t } ∧
      { u.ring with close := s.ring.close, lastFrame := s.ring.lastFrame } = s.ring ∧ changesOnly [.time, .out, .ring] s u) := by
  have hgo : (s.isMaster && c.lap2Due (max s.now t)) = true := by rw [hm, hdue, Bool.and_self]
  have hsend : (s.tick t).sendLap2 c = _ :=
    send_close (s := withClose (s.tick t) { c with lap2Sent := true, lastSent := max s.now t }) hon (.inl rfl) _ _ _
  exact ⟨_, (exec_prepareLap2Send h).trans (congrArg Host.Outcome.next ((if_pos hgo).trans hsend)), frames_out _ _, rfl, rfl,
    changesOnly_mono (by decide) (changesOnly_of_tick (t := t) (changesOnly_setRing_out _ _ _))⟩

theorem exec_prepareLap2Send_early
    (hearly : s.isMaster = false ∨ c.lap1Back = false ∨ c.recordDone = false ∨ max s.now t < c.lap1Sent + 3500) :
    exec (.prepareLap2Send t) s = .next (s.tick t) := by
  have hstay : ¬ (s.isMaster && c.lap2Due (max s.now t)) = true := by
    unfold Close.lap2Due
    simp only [Bool.and_eq_true, decide_eq_true_eq]
    rintro ⟨hm, ⟨⟨⟨⟨_, _⟩, hback⟩, hrec⟩, _⟩, hlate⟩
    simp only [hm, hback, hrec, Bool.true_eq_false, false_or] at hearly
    omega
  exact (exec_prepareLap2Send h).trans (congrArg Host.Outcome.next (if_neg hstay))

/-- The frame of the close's phase leaves again, and is counted. -/
theorem exec_closeResend (hm : s.isMaster = true) (hl : s.localClose = false) (hst : s.ring.st = 1) (hheld : c.held = false)
    (hphase : c.phase ≠ 2) (hwait : ¬ (c.phase = 1 ∧ c.lap1Back ∧ !c.lap2Sent)) (hlate : c.lastSent + 20 * usec ≤ max s.now t) :
    exec (.closeResend t) s = .next (if c.phase = 1 then
        (resending s t c).send { s.ownHead with retrans := true, lap2 := c.phase == 1 && c.lap2Sent } .prepare c.n
          (if c.lap2Sent then 2 ^ s.ringPos else 0)
      else
        (resending s t c).send { s.ownHead with retrans := true, lap2 := c.phase == 1 && c.lap2Sent } .commit c.n (2 ^ s.ringPos)) := by
  have hm' : (s.tick t).isMaster = true := hm
  have hl' : (s.tick t).localClose = false := hl
  have hlate' : ¬ (s.tick t).now < c.lastSent + 20 * usec := Nat.not_lt.2 hlate
  dsimp only [exec, execCloseResend]
  rw [State.tick_ring, h]
  refine (if_neg ?_).trans (if_neg hwait)
  simp only [hm', hl', hst, hheld, hphase, hlate', Bool.not_true, Bool.or_self, ne_eq, not_true_eq_false, decide_false,
    Bool.false_eq_true, not_false_eq_true]

omit h in
theorem onRing_resending : (resending s t c).onRing = s.onRing := by
  unfold State.onRing State.restarting resending withClose
  rw [State.bump_ring, State.bump_fab]
  rfl

omit h in
/-- What a resend leaves, whatever the frame. -/
theorem resent_spec (f : Frame) : frames s (closeSent (resending s t c) f) = [f] ∧
    (closeSent (resending s t c) f).ring.close = some { c with lastSent := max s.now t } ∧
    { (closeSent (resending s t c) f).ring with close := s.ring.close, lastFrame := s.ring.lastFrame } = s.ring ∧
    regsBut [(RING_ERR.retransmits, 0)] s (closeSent (resending s t c) f) ∧
    changesOnly [.time, .out, .events, .regs, .ring] s (closeSent (resending s t c) f) := by
  have hsent : (closeSent (resending s t c) f).sent = s.sent ++ [.frame f] :=
    congrArg (· ++ [Out.frame f]) (State.bump_sent (s.tick t) RING_ERR.retransmits 1 0)
  have hring : (resending s t c).ring = { s.ring with close := some { c with lastSent := max s.now t } } :=
    congrArg (fun r : Ring => { r with close := some { c with lastSent := max s.now t } })
      (State.bump_ring (s.tick t) RING_ERR.retransmits 1 0)
  have hregs : regsBut [(RING_ERR.retransmits, 0)] (s.tick t) ((s.tick t).bump RING_ERR.retransmits) :=
    regsBut_bump (.inr List.mem_cons_self)
  have hcount := changesOnly_bump (s.tick t) RING_ERR.retransmits 1 0 (by decide)
  refine ⟨frames_of_sent (l := []) (by rw [hsent, List.map_nil, List.append_nil]), congrArg Ring.close hring, ?_, hregs, ?_⟩
  · exact congrArg (fun r : Ring => { r with close := s.ring.close, lastFrame := s.ring.lastFrame }) hring
  · exact changesOnly_mono (by decide) (changesOnly_of_tick (changesOnly_append (changesOnly_append hcount (changesOnly_withClose _ _))
      (changesOnly_closeSent _ f)))

theorem exec_closeResend_prepare (hm : s.isMaster = true) (hl : s.localClose = false) (hon : s.onRing = true) (hst : s.ring.st = 1)
    (hheld : c.held = false) (hphase : c.phase = 1) (hlap2 : c.lap2Sent = false) (hback : c.lap1Back = false)
    (hlate : c.lastSent + 20 * usec ≤ max s.now t) : exec (.closeResend t) s =
    .next (closeSent (resending s t c) ⟨{ s.ownHead with retrans := true }, .prepare, c.n, 0⟩) := by
  have hx := exec_closeResend h hm hl hst hheld (by omega) (by simp [hback]) hlate
  rw [if_pos hphase, hlap2, Bool.and_false] at hx
  exact hx.trans (congrArg Host.Outcome.next (send_close (onRing_resending.trans hon) (.inl rfl) _ _ _))

theorem exec_closeResend_commit (hm : s.isMaster = true) (hl : s.localClose = false) (hon : s.onRing = true) (hst : s.ring.st = 1)
    (hheld : c.held = false) (hphase : c.phase = 3) (hlate : c.lastSent + 20 * usec ≤ max s.now t) : exec (.closeResend t) s =
    .next (closeSent (resending s t c) ⟨{ s.ownHead with retrans := true }, .commit, c.n, 2 ^ s.ringPos⟩) := by
  have hx := exec_closeResend h hm hl hst hheld (by omega) (by simp [hphase]) hlate
  rw [if_neg (by omega), hphase] at hx
  exact hx.trans (congrArg Host.Outcome.next (send_close (onRing_resending.trans hon) (.inr rfl) _ _ _))

theorem exec_closeResend_early (hearly : s.isMaster = false ∨ c.held = true ∨ max s.now t < c.lastSent + 20 * usec) :
    exec (.closeResend t) s = .next (s.tick t) := by
  have hearly' : (s.tick t).isMaster = false ∨ c.held = true ∨ (s.tick t).now < c.lastSent + 20 * usec := hearly
  dsimp only [exec, execCloseResend]
  rw [State.tick_ring, h]
  refine if_pos ?_
  rcases hearly' with hm | hheld | hnow
  · simp only [hm, Bool.not_false, Bool.true_or]
  · simp only [hheld, Bool.or_true, Bool.true_or]
  · simp only [hnow, decide_true, Bool.or_true]

theorem exec_closeStall : exec (.closeStall t) s = .next (
    if c.stalled || decide (3 ≤ c.phase) || decide (max s.now t < c.t0 + msec) || !(s.isMaster || s.localClose) then s.tick t
    else ev 0x4A9 1 [c.n, s.allMask - (s.allMask &&& c.mask)] 1 (withClose (s.tick t) { c with stalled := true })) := by
  dsimp only [exec, execCloseStall]
  rw [State.tick_ring, h]
  rfl

theorem completes_closeStall (hm : s.isMaster = true) (hst : c.stalled = false) (hphase : c.phase < 3) (hlate : c.t0 + msec ≤ max s.now t) :
    completes (.closeStall t) s (fun u => u.ring = { s.ring with close := some { c with stalled := true } } ∧
      changesOnly [.time, .out, .events, .ring] s u) := by
  have hgo : ¬ (c.stalled || decide (3 ≤ c.phase) || decide (max s.now t < c.t0 + msec) || !(s.isMaster || s.localClose)) = true := by
    simp only [hst, hm, Nat.not_le.2 hphase, Nat.not_lt.2 hlate, decide_false, Bool.true_or, Bool.not_true, Bool.or_self, Bool.false_eq_true,
      not_false_eq_true]
  exact ⟨_, (exec_closeStall h).trans (congrArg Host.Outcome.next (if_neg hgo)), rfl,
    changesOnly_mono (by decide) (changesOnly_of_tick (t := t) (changesOnly_append (changesOnly_withClose _ _) (changesOnly_ev 0x4A9 1 _ 1 _)))⟩

theorem exec_closeStall_stays (hstay : c.stalled = true ∨ max s.now t < c.t0 + msec) : exec (.closeStall t) s = .next (s.tick t) := by
  refine (exec_closeStall h).trans (congrArg Host.Outcome.next (if_pos ?_))
  rcases hstay with hst | hnow
  · simp only [hst, Bool.true_or]
  · simp only [hnow, decide_true, Bool.or_true, Bool.true_or]

end

/-! ## The decision (10 R286) -/

/-- The close's epoch is committed here, and COMMIT is due where other cards take part. -/
def decided (s : State) (c : Close) : State :=
  { s.commitEpoch c.n with ring := { s.ring with
      committed := c.n, prepared := false, lastCloseNs := s.now - c.t0, lastPhase := 3, holds := !s.localClose,
      close := if s.localClose then none else some { c with phase := 3, lastSent := s.now, applied := 2 ^ s.ringPos } } }

theorem decided_ring_alone {s : State} {c : Close} (hl : s.localClose = true) : (decided s c).ring = { s.ring with
    committed := c.n, prepared := false, holds := false, close := none, lastPhase := 3, lastCloseNs := s.now - c.t0 } := by
  unfold decided
  rw [hl]
  rfl

theorem decided_ring_shared {s : State} {c : Close} (hl : s.localClose = false) : (decided s c).ring = { s.ring with
    committed := c.n, prepared := false, holds := true, lastPhase := 3, lastCloseNs := s.now - c.t0,
    close := some { c with phase := 3, lastSent := s.now, applied := 2 ^ s.ringPos } } := by
  unfold decided
  rw [hl]
  rfl

theorem changesOnly_closeShadows (s : State) (n : Nat) : changesOnly [.map] s (s.closeShadows n) := changesOnly_setMap s _

theorem changesOnly_commitEpoch (s : State) (n : Nat) : changesOnly [.ring, .map] s (s.commitEpoch n) :=
  changesOnly_append (changesOnly_setRing s _) (changesOnly_closeShadows _ n)

theorem changesOnly_decided (s : State) (c : Close) : changesOnly [.ring, .map] s (decided s c) :=
  changesOnly_mono (by decide) (changesOnly_append (changesOnly_commitEpoch s c.n) (changesOnly_setRing _ _))

theorem map_interrupt (s : State) (v : Nat) : (s.interrupt v).map = s.map := changesOnly_interrupt s v .map rfl

theorem ring_interrupt (s : State) (v : Nat) : (s.interrupt v).ring = s.ring := changesOnly_interrupt s v .ring rfl

section
variable {t : Nat} {c : Close} {s : State} (h : s.ring.close = some c)
include h

theorem exec_decisionRecordWritten : exec (.decisionRecordWritten t) s = .next (
    if !(c.n == s.ring.committed + 1 && (if s.localClose then c.recordDone else s.isMaster && c.phase == 2)) then s.tick t
    else (if s.localClose then decided (s.tick t) c
      else (decided (s.tick t) c).send s.ownHead .commit c.n (2 ^ s.ringPos)).interrupt 31) := by
  dsimp only [exec, execDecisionRecordWritten]
  rw [State.tick_ring, h]
  exact (apply_ite Host.Outcome.next _ _ _).symm

theorem completes_decisionRecordWritten_local (hl : s.localClose = true) (hrec : c.recordDone = true) (hn : c.n = s.ring.committed + 1) :
    completes (.decisionRecordWritten t) s (fun u => u.ring = { s.ring with
        committed := c.n, prepared := false, holds := false, close := none, lastPhase := 3, lastCloseNs := max s.now t - c.t0 } ∧
      { u.map with entries := s.map.entries } = s.map ∧ frames s u = [] ∧ changesOnly [.time, .out, .events, .ring, .map] s u) := by
  have hgo : ¬ (!(c.n == s.ring.committed + 1 && (if s.localClose then c.recordDone else s.isMaster && c.phase == 2))) = true := by
    simp [hl, hrec, hn]
  have hx := (exec_decisionRecordWritten (t := t) h).trans (congrArg Host.Outcome.next (if_neg hgo))
  rw [if_pos hl] at hx
  have hsends : SendsMsix s ((decided (s.tick t) c).interrupt 31) :=
    SendsMsix.trans (t := decided (s.tick t) c) (.of_eq rfl) (sendsMsix_interrupt _ 31)
  refine ⟨_, hx, (ring_interrupt _ 31).trans (decided_ring_alone (s := s.tick t) hl), ?_, frames_of_sendsMsix hsends, ?_⟩
  · rw [map_interrupt]
    rfl
  · exact changesOnly_mono (by decide) (changesOnly_of_tick (changesOnly_append (changesOnly_decided (s.tick t) c) (changesOnly_interrupt _ 31)))

theorem completes_decisionRecordWritten_ring (hl : s.localClose = false) (hm : s.isMaster = true) (hphase : c.phase = 2)
    (hn : c.n = s.ring.committed + 1) (hon : s.onRing = true) :
    completes (.decisionRecordWritten t) s (fun u => frames s u = [⟨s.ownHead, .commit, c.n, 2 ^ s.ringPos⟩] ∧
      u.ring = { s.ring with
        committed := c.n, prepared := false, holds := true, lastPhase := 3, lastCloseNs := max s.now t - c.t0,
        close := some { c with phase := 3, lastSent := max s.now t, applied := 2 ^ s.ringPos },
        lastFrame := some ⟨s.ownHead, .commit, c.n, 2 ^ s.ringPos⟩ } ∧
      { u.map with entries := s.map.entries } = s.map ∧ changesOnly [.time, .out, .events, .ring, .map] s u) := by
  have hgo : ¬ (!(c.n == s.ring.committed + 1 && (if s.localClose then c.recordDone else s.isMaster && c.phase == 2))) = true := by
    simp [hl, hm, hphase, hn]
  have hsend := send_close (s := decided (s.tick t) c) hon (.inr rfl) s.ownHead c.n (2 ^ s.ringPos)
  have hx := (exec_decisionRecordWritten (t := t) h).trans (congrArg Host.Outcome.next (if_neg hgo))
  rw [hl, if_neg Bool.false_ne_true, hsend] at hx
  obtain ⟨l, hsent⟩ := sendsMsix_interrupt (closeSent (decided (s.tick t) c) ⟨s.ownHead, .commit, c.n, 2 ^ s.ringPos⟩) 31
  refine ⟨_, hx, frames_of_sent hsent, (ring_interrupt _ 31).trans ?_, ?_, ?_⟩
  · exact congrArg (fun r : Ring => { r with lastFrame := some ⟨s.ownHead, .commit, c.n, 2 ^ s.ringPos⟩ })
      (decided_ring_shared (s := s.tick t) hl)
  · rw [map_interrupt]
    rfl
  · exact changesOnly_mono (by decide) (changesOnly_of_tick (changesOnly_append (changesOnly_append (changesOnly_decided (s.tick t) c)
      (changesOnly_closeSent _ _)) (changesOnly_interrupt _ 31)))

theorem exec_decisionRecordWritten_stays (hstay : c.n ≠ s.ring.committed + 1 ∨ (s.localClose = false ∧ c.phase ≠ 2)) :
    exec (.decisionRecordWritten t) s = .next (s.tick t) := by
  refine (exec_decisionRecordWritten h).trans (congrArg Host.Outcome.next (if_pos ?_))
  rcases hstay with hn | ⟨hl, hphase⟩
  · simp [hn]
  · simp [hl, hphase]

end

/-! ## Dropping what an epoch left (10 R286, R288) -/

/-- What a recovery decision may change on its card. -/
abbrev epochGroups : List Grp := [.out, .events, .regs, .ring, .cch, .map, .med, .pfl, .tly]

/-- The ring without its shadows. -/
def besidesShadows (r : Ring) : Ring := { r with shadows := [] }

/-- From s to t shadows, lines and records of an epoch may have changed, and interrupts may have been sent. -/
structure ShadowWork (s t : State) : Prop where
  frame : changesOnly epochGroups s t
  sends : SendsMsix s t
  ring : besidesShadows t.ring = besidesShadows s.ring

theorem ShadowWork.refl (s : State) : ShadowWork s s := ⟨changesOnly_refl _ s, .of_eq rfl, rfl⟩

theorem ShadowWork.trans {s t u : State} (h : ShadowWork s t) (k : ShadowWork t u) : ShadowWork s u :=
  ⟨changesOnly_trans h.frame k.frame, h.sends.trans k.sends, k.ring.trans h.ring⟩

theorem ShadowWork.foldl {α : Type} {f : State → α → State} (hf : ∀ s a, ShadowWork s (f s a)) (l : List α) (s : State) :
    ShadowWork s (l.foldl f s) := by
  induction l generalizing s with
  | nil => exact .refl s
  | cons a l ih => exact (hf s a).trans (ih _)

/-- What leaves the ring alone. -/
theorem ShadowWork.of_changesOnly {l : List Grp} {s t : State} (h : changesOnly l s t) (hsends : SendsMsix s t)
    (hl : l ⊆ epochGroups := by decide) (hr : l.contains .ring = false := by decide) : ShadowWork s t :=
  ⟨changesOnly_mono hl h, hsends, congrArg besidesShadows (h .ring hr)⟩

theorem shadowWork_ev (src sev : Nat) (data : List Nat) (region : Nat) (s : State) : ShadowWork s (ev src sev data region s) :=
  .of_changesOnly (changesOnly_ev src sev data region s) (sendsMsix_ev src sev data region s)

theorem shadowWork_interrupt (s : State) (v : Nat) : ShadowWork s (s.interrupt v) :=
  .of_changesOnly (changesOnly_interrupt s v) (sendsMsix_interrupt s v)

theorem shadowWork_setMap (s : State) (m : Map) : ShadowWork s { s with map := m } := .of_changesOnly (changesOnly_setMap s m) (.of_eq rfl)

theorem shadowWork_setMed (s : State) (m : Media) : ShadowWork s { s with med := m } := .of_changesOnly (changesOnly_setMed s m) (.of_eq rfl)

theorem shadowWork_setReg (s : State) (f : Fld) (v i : Nat) : ShadowWork s (s.setReg f v i) := by
  have hset : changesOnly [.regs, .events] s (s.setReg f v i) := by
    intro g hg
    have h0 := same_refl g s
    cases g
    case regs | events => cases hg
    all_goals exact h0
  exact .of_changesOnly hset (.of_eq rfl)

theorem sendsMsix_ownRow (s : State) (rank part row : Nat) (data : Bytes) : SendsMsix s (s.ownRow rank part row data) :=
  .of_eq (changesOnly_ownRow s rank part row data .out rfl)

theorem shadowWork_ownRow (s : State) (rank part row : Nat) (data : Bytes) : ShadowWork s (s.ownRow rank part row data) :=
  .of_changesOnly (changesOnly_ownRow s rank part row data) (sendsMsix_ownRow s rank part row data)

theorem shadowWork_recalcLimit (s : State) : ShadowWork s s.recalcLimit := by
  unfold State.recalcLimit
  dsimp only
  split
  · exact (shadowWork_setMap s _).trans (shadowWork_ev 0x309 0 _ 4 _)
  · exact shadowWork_setMap s _

theorem shadowWork_afterU (s : State) : ShadowWork s s.afterU := by
  unfold State.afterU
  dsimp only
  split
  · exact shadowWork_recalcLimit s
  · exact .refl s

theorem shadowWork_mapChange (s : State) (f : Nat) (e : Option MapEntry) (kind : Nat) : ShadowWork s (s.mapChange f e kind) := by
  unfold State.mapChange
  split
  · exact shadowWork_setMap s _
  · exact (shadowWork_setMap s _).trans (shadowWork_afterU _)

theorem shadowWork_freeMember (g wear : Nat) (s : State) (m : Nat × Nat) : ShadowWork s (freeMember g wear s m) := by
  unfold freeMember
  dsimp only
  split
  · exact .refl s
  · split
    · exact shadowWork_setMed s _
    · exact shadowWork_setMed s _

theorem shadowWork_setFree (s : State) (g n : Nat) : ShadowWork s (s.setFree g n) := by
  have hfree := shadowWork_setMed s { s.med with free := setAt s.med.free g n }
  unfold State.setFree
  dsimp only
  split
  · exact (hfree.trans (shadowWork_setMap _ _)).trans (shadowWork_ev 0x305 0 [g, n] 4 _)
  · split
    · exact (hfree.trans (shadowWork_setMap _ _)).trans (shadowWork_ev 0x306 0 [g, n] 4 _)
    · exact hfree

theorem shadowWork_freeBlock (s : State) (g b : Nat) : ShadowWork s (s.freeBlock g b) := by
  have hmembers := ShadowWork.foldl (shadowWork_freeMember g (if (s.block g b).bead then State.bead1 (s.block g b) else 0))
    (s.block g b).members s
  exact (hmembers.trans (shadowWork_setMed _ _)).trans (shadowWork_setFree _ g _)

theorem shadowWork_freeIfEmpty (s : State) (l : Loc) : ShadowWork s (s.freeIfEmpty l) := by
  unfold State.freeIfEmpty
  dsimp only
  split
  · exact .refl s
  · exact shadowWork_freeBlock s _ _

theorem shadowWork_setShadows (s : State) (x : Tab Shadow) : ShadowWork s { s with ring := { s.ring with shadows := x } } :=
  ⟨changesOnly_mono (by decide) (changesOnly_setRing s _), .of_eq rfl, rfl⟩

theorem shadowWork_dropShadow (s : State) (f : Nat) : ShadowWork s (s.dropShadow f) := by
  unfold State.dropShadow
  split
  · exact .refl s
  · exact ((shadowWork_setShadows s _).trans (shadowWork_mapChange _ _ _ 9)).trans (shadowWork_freeIfEmpty _ _)

theorem shadowWork_closeShadows (s : State) (n : Nat) : ShadowWork s (s.closeShadows n) := shadowWork_setMap s _

theorem shadowWork_dropCached (s : State) (gone : Copy → Bool) : ShadowWork s (s.dropCached gone) :=
  .of_changesOnly (changesOnly_setCch s _) (.of_eq rfl)

theorem shadowWork_dropDumped (s : State) (late : BitVec 2 → Bool) : ShadowWork s (s.dropDumped late) :=
  .of_changesOnly (changesOnly_setPfl s _) (.of_eq rfl)

theorem shadowWork_markSuspect (s : State) (p : ExtentEntry → Bool) : ShadowWork s (s.markSuspect p) := by
  have hflag : ∀ (s : State) (i : Nat), ShadowWork s (if p (s.key.extents.getD i noExtent) then
      s.setReg PFL_SUSPECT.suspect (s.reg PFL_SUSPECT.suspect (i / 64) ||| 2 ^ (i % 64)) (i / 64) else s) := by
    intro s i
    split
    · exact shadowWork_setReg s _ _ _
    · exact .refl s
  have hflags := ShadowWork.foldl hflag (List.range s.key.extents.length) s
  unfold State.markSuspect
  dsimp only
  split
  · exact hflags
  · exact (hflags.trans (shadowWork_ownRow _ 6 1 4 _)).trans (shadowWork_ownRow _ 6 1 5 _)

theorem shadowWork_judgeOwn (s : State) (c : Nat) : ShadowWork s (s.judgeOwn c) := by
  unfold State.judgeOwn
  extract_lets own
  split
  · exact .refl s
  · split
    · exact (shadowWork_ev 0x4AB 1 _ 1 s).trans (shadowWork_markSuspect _ _)
    · exact .refl s

theorem shadowWork_endPending (s : State) (was : Bool) : ShadowWork s (s.endPending was) := by
  unfold State.endPending
  split
  · exact shadowWork_interrupt s 31
  · exact .refl s

/-! ## A recovery decision taken (10 R288) -/

/-- The ring of a card that has just taken c as its last committed epoch. -/
def tookEpoch (c : Nat) (r : Ring) : Ring :=
  { r with committed := c, prepared := false, holds := false, close := none, pending := false, provisional := false, lost := false }

theorem shadowWork_takeEpoch (s : State) (c : Nat) : ShadowWork { s with ring := tookEpoch c s.ring } (s.takeEpoch c) := by
  have hshadows := ShadowWork.foldl shadowWork_dropShadow ((s.ring.shadows.filter (fun e => decide (c < e.2.epoch))).map (·.1))
    { s with ring := tookEpoch c s.ring }
  exact (((hshadows.trans (shadowWork_setMap _ _)).trans (shadowWork_dropCached _ _)).trans (shadowWork_dropDumped _ _)).trans
    (shadowWork_closeShadows _ c)

/-- The card went from s to t by taking c as its last committed epoch. -/
structure TakesEpoch (c : Nat) (s t : State) : Prop where
  frame : changesOnly epochGroups s t
  sends : SendsMsix s t
  committed : t.ring.committed = c
  pending : t.ring.pending = false

theorem takesEpoch_takeEpoch (s : State) (c : Nat) : TakesEpoch c s (s.takeEpoch c) := by
  have hwork := shadowWork_takeEpoch s c
  have hset : changesOnly epochGroups s { s with ring := tookEpoch c s.ring } := changesOnly_mono (by decide) (changesOnly_setRing s _)
  exact ⟨changesOnly_trans hset hwork.frame, hwork.sends, congrArg Ring.committed hwork.ring, congrArg Ring.pending hwork.ring⟩

theorem TakesEpoch.after {c : Nat} {s t u : State} (h : ShadowWork s t) (k : TakesEpoch c t u) : TakesEpoch c s u :=
  ⟨changesOnly_trans h.frame k.frame, h.sends.trans k.sends, k.committed, k.pending⟩

theorem TakesEpoch.before {c : Nat} {s t u : State} (h : TakesEpoch c s t) (k : ShadowWork t u) : TakesEpoch c s u :=
  ⟨changesOnly_trans h.frame k.frame, h.sends.trans k.sends, (congrArg Ring.committed k.ring).trans h.committed,
    (congrArg Ring.pending k.ring).trans h.pending⟩

/-- The own record is judged, the epoch is taken, and its event is raised. -/
theorem takesEpoch_reported (s : State) (c src sev : Nat) (data : List Nat) (was : Bool) :
    TakesEpoch c s ((ev src sev data 1 ((s.judgeOwn c).takeEpoch c)).endPending was) :=
  ((TakesEpoch.after (shadowWork_judgeOwn s c) (takesEpoch_takeEpoch _ c)).before (shadowWork_ev src sev data 1 _)).before
    (shadowWork_endPending _ was)

theorem takesEpoch_recoverCommit (s : State) (n : Nat) : TakesEpoch n s (s.recoverCommit n) := takesEpoch_reported s n 0x4A5 0 _ _

theorem takesEpoch_recoverBack (s : State) (n : Nat) : TakesEpoch (n - 1) s (s.recoverBack n) :=
  takesEpoch_reported s (n - 1) 0x4A6 1 _ _

theorem changesOnly_enterPending (s : State) (n : Nat) : changesOnly epochGroups s (s.enterPending n) := by
  unfold State.enterPending
  split
  · exact changesOnly_refl _ s
  · exact changesOnly_mono (by decide) (changesOnly_append (changesOnly_append (changesOnly_setRing s _) (changesOnly_ev 0x4A7 2 _ 1 _))
      (changesOnly_interrupt _ 31))

/-- Table 10-7 and what follows from it. -/
theorem changesOnly_judgeEpoch (s : State) : changesOnly epochGroups s s.judgeEpoch := by
  have hsent : ∀ head ty n mask, changesOnly epochGroups s (s.send head ty n mask) := fun head ty n mask =>
    changesOnly_mono (by decide) (changesOnly_send s head ty n mask)
  unfold State.judgeEpoch
  dsimp only
  split
  · exact (takesEpoch_takeEpoch s _).frame
  · split
    case h_1 c _ => exact (TakesEpoch.after (shadowWork_judgeOwn s c) (takesEpoch_takeEpoch _ c)).frame
    case h_2 n _ =>
      split
      · exact changesOnly_trans (hsent _ _ _ _) (takesEpoch_recoverCommit _ n).frame
      · exact changesOnly_refl _ s
    case h_3 n _ =>
      split
      · exact changesOnly_trans (hsent _ _ _ _) (takesEpoch_recoverBack _ n).frame
      · exact changesOnly_refl _ s
    case h_4 n _ => exact changesOnly_enterPending s n

theorem changesOnly_join (s : State) : changesOnly epochGroups s s.join :=
  changesOnly_trans (changesOnly_judgeEpoch s) (changesOnly_mono (by decide) (changesOnly_setRing _ _))

/-- Epoch Resolve ends: event 0x4A8 is raised, and the waiting command answers (10 R293). -/
theorem finishResolve_spec {c : Nat} {s v : State} {p : Path} (h : TakesEpoch c s v) (hp : s.link.resolve = some p) (n a m : Nat) :
    answers s (v.finishResolve n a m) p 0xC040 = [(.success, le 8 c ++ le 2 m ++ zeros 6)] ∧
    (v.finishResolve n a m).ring.committed = c ∧ (v.finishResolve n a m).ring.pending = false ∧
    (v.finishResolve n a m).ring.resolving = false ∧ (v.finishResolve n a m).link = { s.link with resolve := none } ∧
    changesOnly [.out, .events, .regs, .link, .ring, .cch, .map, .med, .pfl, .tly] s (v.finishResolve n a m) := by
  have hlink : v.link = s.link := h.frame .link rfl
  have hwaits : v.link.resolve = some p := (congrArg Link.resolve hlink).trans hp
  have hraised := changesOnly_append (changesOnly_append (changesOnly_setLink v { v.link with resolve := none })
    (changesOnly_setRing _ { v.ring with resolving := false })) (changesOnly_ev 0x4A8 0 [n, a, m] 1 _)
  have hsends := SendsMsix.trans (t := { v with link := { v.link with resolve := none }, ring := { v.ring with resolving := false } })
    h.sends (sendsMsix_ev 0x4A8 0 [n, a, m] 1 _)
  unfold State.finishResolve
  dsimp only
  rw [hwaits]
  refine ⟨?_, h.committed, h.pending, rfl, congrArg (fun l : Link => { l with resolve := none }) hlink, ?_⟩
  · rw [answers_reply_of_sendsMsix hsends, ev_ring, h.committed]
  · exact changesOnly_mono (by decide) (changesOnly_append h.frame (changesOnly_append hraised (changesOnly_reply _ p 0xC040 .success _)))

/-! ## Frames of the close on the ring (10 R286, R288) -/

/-- What COMMIT of epoch n does on a card that it passes. -/
def commitMet (s : State) (f : FrameHead) (n : Nat) : State :=
  if n ≤ s.ring.committed then s
  else if f.recovery || f.resolve then State.join (s.recoverCommit n)
  else if n = s.ring.committed + 1 ∧ s.ring.prepared then
    { s.commitEpoch n with ring := { (s.commitEpoch n).ring with close := none, lastPhase := 3 } }
  else s

/-- What ROLLBACK of epoch n does on a card that it passes. -/
def rollbackMet (s : State) (f : FrameHead) (n : Nat) : State :=
  if (f.recovery || f.resolve) && (s.ring.prepared || s.ring.pending || decide (n ≤ s.ring.committed) || !s.ring.joined) then
    State.join (s.recoverBack n)
  else s

/-- A good frame of the card's own ring, on a card of ring version 2. -/
structure Heard (f : FrameHead) (s : State) : Prop where
  on : s.onRing = true
  crc : f.crcOk = true
  ring : f.ringId = s.ring.ringId
  version : s.ring.version = 2

section
variable {t : Nat} {f : FrameHead} {e : BitVec 48} {k : BitVec 16} {s : State}

/-- A ring of another version has no coordinated close: the frames are forwarded as they came (10 R277). -/
theorem exec_close_version (hon : s.onRing = true) (hcrc : f.crcOk = true) (hid : f.ringId = s.ring.ringId) (hv : s.ring.version ≠ 2) :
    exec (.prepare t f e k) s = .next ((s.tick t).forward f .prepare e.toNat k.toNat) ∧
    exec (.commit t f e k) s = .next ((s.tick t).forward f .commit e.toNat k.toNat) ∧
    exec (.rollback t f e k) s = .next ((s.tick t).forward f .rollback e.toNat k.toNat) := by
  have hreceive := receive_of_known (s := s.tick t) hon hcrc hid
  exact ⟨congrArg Host.Outcome.next ((hreceive _ _ _ _).trans (if_pos hv)), congrArg Host.Outcome.next ((hreceive _ _ _ _).trans (if_pos hv)),
    congrArg Host.Outcome.next ((hreceive _ _ _ _).trans (if_pos hv))⟩

variable (h : Heard f s)
include h

theorem Heard.receive (ty : FrameType) (n mask : Nat) (run : State → State) : (s.tick t).receive f ty n mask run = run (s.tick t) :=
  receive_of_known (s := s.tick t) h.on h.crc h.ring ty n mask run

theorem exec_prepare : exec (.prepare t f e k) s = .next (
    if s.mine f then (s.tick t).prepareBack f e.toNat k.toNat else (s.tick t).preparePass f e.toNat k.toNat) :=
  congrArg Host.Outcome.next ((h.receive _ _ _ _).trans (if_neg (not_not.2 h.version)))

/-- PREPARE opens the next epoch on another card as lap 1 passes. -/
theorem completes_prepare_opens (hmine : s.mine f = false) (hlap : f.lap2 = false) (hn : e.toNat = s.ring.committed + 1)
    (hclose : s.ring.close = none) (hprep : s.ring.prepared = false) :
    completes (.prepare t f e k) s (fun u => frames s u = [⟨{ f with hops := f.hops + 1 }, .prepare, e.toNat, k.toNat⟩] ∧
      u.ring = { s.ring with close := some (closeFrom e.toNat (max s.now t) (s.tagBusy e.toNat)) } ∧
      changesOnly [.time, .out, .ring] s u) := by
  have hpass : (s.tick t).preparePass f e.toNat k.toNat = ((s.tick t).beginClose e.toNat).forward f .prepare e.toNat k.toNat := by
    unfold State.preparePass
    simp [hlap, hn, hclose, hprep]
  refine ⟨_, (exec_prepare h).trans (congrArg Host.Outcome.next ((if_neg (Bool.eq_false_iff.1 hmine)).trans hpass)), frames_out _ _,
    rfl, ?_⟩
  exact changesOnly_mono (by decide) (changesOnly_of_tick (t := t) (changesOnly_append (changesOnly_withClose _ _) (changesOnly_out _ _)))

/-- A card whose record is written sets its bit in lap 2. -/
theorem exec_prepare_lap2 (hmine : s.mine f = false) (hlap : f.lap2 = true) (hn : e.toNat = s.ring.committed + 1)
    (hprep : s.ring.prepared = true) : exec (.prepare t f e k) s =
    .next ((s.tick t).forward f .prepare e.toNat (k.toNat ||| 2 ^ s.ringPos)) := by
  have hpass : (s.tick t).preparePass f e.toNat k.toNat = (s.tick t).forward f .prepare e.toNat (k.toNat ||| 2 ^ (s.tick t).ringPos) := by
    unfold State.preparePass
    simp [hlap, hn, hprep]
  exact (exec_prepare h).trans (congrArg Host.Outcome.next ((if_neg (Bool.eq_false_iff.1 hmine)).trans hpass))

variable {c : Close}

theorem completes_prepare_lap1Back (hmine : s.mine f = true) (hlap : f.lap2 = false) (hc : s.ring.close = some c) (hn : c.n = e.toNat)
    (hrec : c.recordDone = false) : completes (.prepare t f e k) s (fun u =>
      u.ring = { s.ring with close := some { c with lap1Back := true } } ∧ changesOnly [.time, .ring] s u) := by
  have hback : (s.tick t).prepareBack f e.toNat k.toNat = withClose (s.tick t) { c with lap1Back := true } := by
    unfold State.prepareBack
    rw [State.tick_ring, hc]
    simp [hn, hlap, Close.lap2Due, hrec, withClose]
  exact ⟨_, (exec_prepare h).trans (congrArg Host.Outcome.next ((if_pos hmine).trans hback)), rfl,
    changesOnly_of_tick (t := t) (changesOnly_withClose _ _)⟩

theorem completes_prepare_lap2Back (hmine : s.mine f = true) (hlap : f.lap2 = true) (hc : s.ring.close = some c) (hn : c.n = e.toNat)
    (hphase : c.phase = 1) : completes (.prepare t f e k) s (fun u => changesOnly [.time, .ring] s u ∧ u.ring = { s.ring with
      close := some { c with mask := k.toNat, phase := if k.toNat &&& s.allMask = s.allMask then 2 else 1 } }) := by
  have hback : (s.tick t).prepareBack f e.toNat k.toNat = withClose (s.tick t)
      { c with mask := k.toNat, phase := if k.toNat &&& (s.tick t).allMask = (s.tick t).allMask then 2 else 1 } := by
    unfold State.prepareBack
    rw [State.tick_ring, hc]
    simp [hn, hlap, hphase, withClose]
  exact ⟨_, (exec_prepare h).trans (congrArg Host.Outcome.next ((if_pos hmine).trans hback)),
    changesOnly_of_tick (t := t) (changesOnly_withClose _ _), rfl⟩

/-! ### COMMIT -/

theorem exec_commit_passes (hmine : s.mine f = false) : exec (.commit t f e k) s = .next (
    (commitMet (s.tick t) f e.toNat).forward f .commit e.toNat
      (k.toNat ||| if e.toNat ≤ (commitMet (s.tick t) f e.toNat).ring.committed then 2 ^ s.ringPos else 0)) :=
  congrArg Host.Outcome.next ((h.receive _ _ _ _).trans ((if_neg (not_not.2 h.version)).trans (if_neg (Bool.eq_false_iff.1 hmine))))

theorem completes_commit_prepared (hmine : s.mine f = false) (hrec : f.recovery = false) (hres : f.resolve = false)
    (hn : e.toNat = s.ring.committed + 1) (hprep : s.ring.prepared = true) :
    completes (.commit t f e k) s (fun u => frames s u = [⟨{ f with hops := f.hops + 1 }, .commit, e.toNat, k.toNat ||| 2 ^ s.ringPos⟩] ∧
      u.ring = { s.ring with committed := e.toNat, prepared := false, close := none, lastPhase := 3 } ∧
      { u.map with entries := s.map.entries } = s.map ∧ changesOnly [.time, .out, .ring, .map] s u) := by
  have hmet : commitMet (s.tick t) f e.toNat = { (s.tick t).commitEpoch e.toNat with
      ring := { s.ring with committed := e.toNat, prepared := false, close := none, lastPhase := 3 } } := by
    unfold commitMet
    rw [if_neg (by rw [State.tick_ring]; omega), hrec, hres, Bool.or_self, if_neg Bool.false_ne_true, if_pos ⟨hn, hprep⟩]
    rfl
  have hx := exec_commit_passes (t := t) (e := e) (k := k) h hmine
  rw [hmet, if_pos (le_refl e.toNat)] at hx
  have hframe := changesOnly_append (changesOnly_commitEpoch (s.tick t) e.toNat)
    (changesOnly_setRing _ { s.ring with committed := e.toNat, prepared := false, close := none, lastPhase := 3 })
  exact ⟨_, hx, frames_out _ _, rfl, rfl, changesOnly_mono (by decide) (changesOnly_of_tick (changesOnly_append hframe
    (changesOnly_forward _ f .commit _ _)))⟩

theorem exec_commit_committed (hmine : s.mine f = false) (hn : e.toNat ≤ s.ring.committed) : exec (.commit t f e k) s =
    .next ((s.tick t).forward f .commit e.toNat (k.toNat ||| 2 ^ s.ringPos)) := by
  have hmet : commitMet (s.tick t) f e.toNat = s.tick t := if_pos hn
  rw [exec_commit_passes h hmine, hmet, State.tick_ring, if_pos hn]

theorem exec_commit_unprepared (hmine : s.mine f = false) (hrec : f.recovery = false) (hres : f.resolve = false)
    (hn : s.ring.committed < e.toNat) (hprep : s.ring.prepared = false) : exec (.commit t f e k) s =
    .next ((s.tick t).forward f .commit e.toNat k.toNat) := by
  have hmet : commitMet (s.tick t) f e.toNat = s.tick t := by
    unfold commitMet
    simp [hrec, hres, hprep]
  rw [exec_commit_passes h hmine, hmet, State.tick_ring, if_neg (Nat.not_le.2 hn), Nat.or_zero]

theorem completes_commit_back (hmine : s.mine f = true) (hres : f.resolve = false) (hall : k.toNat &&& s.allMask = s.allMask)
    (hc : s.ring.close = some c) (hn : c.n = e.toNat) : completes (.commit t f e k) s (fun u =>
      u.ring = { s.ring with close := none, holds := false, lastPhase := 3 } ∧ changesOnly [.time, .ring] s u) := by
  have hdone : k.toNat &&& (s.tick t).allMask = (s.tick t).allMask ∧ ((s.tick t).ring.close.map (·.n)) = some e.toNat :=
    ⟨hall, by rw [State.tick_ring, hc, Option.map_some, hn]⟩
  exact ⟨_, congrArg Host.Outcome.next ((h.receive _ _ _ _).trans ((if_neg (not_not.2 h.version)).trans ((if_pos hmine).trans
    ((if_neg (Bool.eq_false_iff.1 hres)).trans (if_pos hdone))))), rfl, changesOnly_of_tick (t := t) (changesOnly_setRing _ _)⟩

/-! ### The host's decision is back (10 R293) -/

theorem exec_commit_resolved (hmine : s.mine f = true) (hres : f.resolve = true) (hwait : s.ring.resolving = true) :
    exec (.commit t f e k) s = .next (((s.tick t).recoverCommit e.toNat).finishResolve e.toNat 1 (k.toNat ||| 2 ^ s.ringPos)) :=
  congrArg Host.Outcome.next ((h.receive _ _ _ _).trans ((if_neg (not_not.2 h.version)).trans ((if_pos hmine).trans
    ((if_pos hres).trans (if_pos hwait)))))

theorem exec_rollback_resolved (hmine : s.mine f = true) (hres : f.resolve = true) (hwait : s.ring.resolving = true) :
    exec (.rollback t f e k) s = .next (((s.tick t).recoverBack e.toNat).finishResolve e.toNat 0 (k.toNat ||| 2 ^ s.ringPos)) :=
  congrArg Host.Outcome.next ((h.receive _ _ _ _).trans ((if_neg (not_not.2 h.version)).trans ((if_pos hmine).trans
    (if_pos ((Bool.and_eq_true _ _).mpr ⟨hres, hwait⟩)))))

/-! ### ROLLBACK -/

theorem exec_rollback_passes (hmine : s.mine f = false) : exec (.rollback t f e k) s =
    .next ((rollbackMet (s.tick t) f e.toNat).forward f .rollback e.toNat (k.toNat ||| 2 ^ s.ringPos)) :=
  congrArg Host.Outcome.next ((h.receive _ _ _ _).trans ((if_neg (not_not.2 h.version)).trans
    (if_neg (Bool.eq_false_iff.1 hmine))))

theorem exec_rollback_plain (hmine : s.mine f = false) (hrec : f.recovery = false) (hres : f.resolve = false) :
    exec (.rollback t f e k) s = .next ((s.tick t).forward f .rollback e.toNat (k.toNat ||| 2 ^ s.ringPos)) := by
  have hmet : rollbackMet (s.tick t) f e.toNat = s.tick t := by
    unfold rollbackMet
    rw [hrec, hres, Bool.or_self, Bool.false_and, if_neg Bool.false_ne_true]
  rw [exec_rollback_passes h hmine, hmet]

theorem completes_rollback_decided (hmine : s.mine f = false) (hdec : f.recovery = true ∨ f.resolve = true) (hprep : s.ring.prepared = true) :
    completes (.rollback t f e k) s (fun u => u.ring.joined = true ∧ changesOnly (.time :: epochGroups) s u) := by
  have hmet : rollbackMet (s.tick t) f e.toNat = State.join ((s.tick t).recoverBack e.toNat) := by
    have hgo : (f.recovery || f.resolve) = true := Bool.or_eq_true_iff.2 hdec
    unfold rollbackMet
    rw [hgo, State.tick_ring, hprep, Bool.true_or, Bool.true_or, Bool.true_or, Bool.and_self, if_pos rfl]
  have hx := exec_rollback_passes (t := t) (e := e) (k := k) h hmine
  rw [hmet] at hx
  have hjoin := changesOnly_trans (takesEpoch_recoverBack (s.tick t) e.toNat).frame (changesOnly_join _)
  exact ⟨_, hx, rfl, changesOnly_of_tick (changesOnly_trans hjoin (changesOnly_mono (by decide) (changesOnly_forward _ f .rollback _ _)))⟩

end

/-! ## Epoch Resolve (10 R293) -/

/-- The command is under way: it waits for the round of its decision. -/
def resolveBegun (s : State) (p : Path) : State :=
  { s with link := { s.link with resolve := some p }, ring := { s.ring with resolving := true } }

section
variable {t a : Nat} {p : Path} {s : State} (hgate : s.gate p 0xC040 false false = .pass) (hj : s.ring.joined = true)
include hgate hj

theorem exec_epochResolve_refused {n : Nat} (h : s.ring.pending = false ∨ n ≠ s.ring.committed + 1 ∨ 1 < a) :
    exec (.epochResolve t p n a) s = .next ((s.tick t).reply p 0xC040 .invalidInput) := by
  have hready : ¬ ((s.tick t).boot.step = 0x0B ∧ !(s.tick t).ring.joined) := by simp [hj]
  have hbad : (!s.ring.pending || s.ring.resolving || decide (n ≠ s.ring.committed + 1) || decide (1 < a)) = true := by
    rcases h with h | h | h <;> simp [h]
  exact congrArg Host.Outcome.next ((mailbox_of_pass (s := s.tick t) hgate).trans ((if_neg hready).trans (if_pos hbad)))

theorem exec_epochResolve (hpend : s.ring.pending = true) (hidle : s.ring.resolving = false) (ha : a ≤ 1) :
    exec (.epochResolve t p (s.ring.committed + 1) a) s = .next (
      if s.presentCount ≤ 1 then
        (if a = 1 then (resolveBegun (s.tick t) p).recoverCommit (s.ring.committed + 1)
          else (resolveBegun (s.tick t) p).recoverBack (s.ring.committed + 1)).finishResolve (s.ring.committed + 1) a (2 ^ s.ringPos)
      else (resolveBegun (s.tick t) p).send { s.ownHead with resolve := true } (if a = 1 then .commit else .rollback)
        (s.ring.committed + 1) (2 ^ s.ringPos)) := by
  have hready : ¬ ((s.tick t).boot.step = 0x0B ∧ !(s.tick t).ring.joined) := by simp [hj]
  have hgood : ¬ (!s.ring.pending || s.ring.resolving || decide (s.ring.committed + 1 ≠ s.ring.committed + 1) || decide (1 < a)) = true := by
    simp [hpend, hidle, ha]
  rw [apply_ite (fun ty => (resolveBegun (s.tick t) p).send { s.ownHead with resolve := true } ty (s.ring.committed + 1) (2 ^ s.ringPos))]
  exact congrArg Host.Outcome.next ((mailbox_of_pass (s := s.tick t) hgate).trans ((if_neg hready).trans (if_neg hgood)))

theorem completes_epochResolve_round (hpend : s.ring.pending = true) (hidle : s.ring.resolving = false) (ha : a ≤ 1)
    (hmany : 1 < s.presentCount) (hon : s.onRing = true) :
    completes (.epochResolve t p (s.ring.committed + 1) a) s (fun u => answers s u p 0xC040 = [] ∧
      frames s u = [⟨{ s.ownHead with resolve := true }, if a = 1 then .commit else .rollback, s.ring.committed + 1, 2 ^ s.ringPos⟩] ∧
      u.link = { s.link with resolve := some p } ∧ u.ring = { s.ring with resolving := true, lastFrame := u.ring.lastFrame } ∧
      changesOnly [.time, .out, .link, .ring] s u) := by
  obtain ⟨x, _, hsend⟩ := send_of_onRing (s := resolveBegun (s.tick t) p) hon { s.ownHead with resolve := true }
    (if a = 1 then .commit else .rollback) (s.ring.committed + 1) (2 ^ s.ringPos)
  have hx := exec_epochResolve (t := t) hgate hj hpend hidle ha
  rw [if_neg (Nat.not_le.2 hmany), hsend] at hx
  have hbegun := changesOnly_append (changesOnly_setLink (s.tick t) { s.link with resolve := some p })
    (changesOnly_setRing _ { s.ring with resolving := true })
  exact ⟨_, hx, answers_out_frame _ _ _ _, frames_out _ _, rfl, rfl,
    changesOnly_mono (by decide) (changesOnly_of_tick (changesOnly_append hbegun (changesOnly_setRing_out _ _ _)))⟩

theorem completes_epochResolve_alone (hpend : s.ring.pending = true) (hidle : s.ring.resolving = false) (ha : a ≤ 1)
    (halone : s.presentCount ≤ 1) :
    completes (.epochResolve t p (s.ring.committed + 1) a) s (fun u => u.ring.committed = s.ring.committed + a ∧ u.ring.pending = false ∧
      u.ring.resolving = false ∧ answers s u p 0xC040 = [(.success, le 8 (s.ring.committed + a) ++ le 2 (2 ^ s.ringPos) ++ zeros 6)] ∧
      changesOnly [.time, .out, .events, .regs, .link, .ring, .cch, .map, .med, .pfl, .tly] s u) := by
  have hx := exec_epochResolve (t := t) hgate hj hpend hidle ha
  rw [if_pos halone] at hx
  have htaken : TakesEpoch (s.ring.committed + a) (resolveBegun (s.tick t) p)
      (if a = 1 then (resolveBegun (s.tick t) p).recoverCommit (s.ring.committed + 1)
        else (resolveBegun (s.tick t) p).recoverBack (s.ring.committed + 1)) := by
    split
    next h1 => exact h1 ▸ takesEpoch_recoverCommit _ _
    next h1 =>
      obtain rfl : a = 0 := by omega
      exact takesEpoch_recoverBack _ (s.ring.committed + 1)
  obtain ⟨hanswer, hcommitted, hpending, hresolving, _, hframe⟩ :=
    finishResolve_spec htaken rfl (s.ring.committed + 1) a (2 ^ s.ringPos)
  have hbegun := changesOnly_append (changesOnly_setLink (s.tick t) { s.link with resolve := some p })
    (changesOnly_setRing _ { s.ring with resolving := true })
  exact ⟨_, hx, hcommitted, hpending, hresolving, hanswer,
    changesOnly_mono (by decide) (changesOnly_of_tick (changesOnly_append hbegun hframe))⟩

end

/-- Settles O60, clause by clause. -/
theorem ringEpoch : Obligations.RingEpoch := by
  unfold Obligations.RingEpoch
  refine ⟨?doorbell, ?silent, ?refused, ?table, ?size, ?untrained, ?record, ?recordStays, ?lap2Sent, ?lap2Early, ?opens, ?lap2Bit,
    ?lap1Back, ?lap2Back, ?version, ?decidedAlone, ?decidedRing, ?undecided, ?commitPrepared, ?commitAgain, ?commitUnprepared, ?commitBack,
    ?resolved, ?rollbackPlain, ?rollbackDecided, ?resendPrepare, ?resendCommit, ?resendEarly, ?stall, ?stallStays, ?noClose,
    ?resolveRound, ?resolveAlone, ?resolveRefused⟩
  case doorbell => exact fun t v s hp hr hl hb hon => completes_ringDoorbellWrite hp hr hl hb hon
  case silent => exact fun t v s hp hr h => completes_ringDoorbellWrite_silent hp hr h
  case refused =>
    exact fun t v s hp hr => ⟨_, exec_ringDoorbellWrite_refused hp hr, rfl, changesOnly_of_tick (t := t) (changesOnly_setRing _ _)⟩
  case table =>
    intro v s
    refine ⟨refusal_of_not_joined, refusal_of_not_master, refusal_of_wrong_epoch, fun hj hm hv hlt hc => ?_,
      fun hj hm hv hlt hc hst => ?_, fun hj hm hv hlt hc hst hp => ?_, fun hj hm hv hlt hc hst hp => ?_⟩
    · exact (refusal_of_openEpoch hj hm hv hlt).trans (if_pos hc)
    · exact (refusal_of_openEpoch hj hm hv hlt).trans (by simp [hc, hst])
    · exact (refusal_of_openEpoch hj hm hv hlt).trans (by simp [hc, hst, hp])
    · exact (refusal_of_openEpoch hj hm hv hlt).trans (by simp [hc, hst, hp])
  case size => exact fun t n v s hp hn => exec_ringDoorbellWrite_size hp hn
  case untrained => exact fun t n v s hp => if_pos hp
  case record => exact fun t c s h hheld hrec hn => completes_preparedRecordWritten h hheld hrec hn
  case recordStays => exact fun t c s h hstay => exec_preparedRecordWritten_stays h hstay
  case lap2Sent => exact fun t c s h hm hdue hon => completes_prepareLap2Send h hm hdue hon
  case lap2Early => exact fun t c s h hearly => exec_prepareLap2Send_early h hearly
  case opens =>
    exact fun t f e k s hon hcrc hid hv hmine hlap hn hc hp => completes_prepare_opens ⟨hon, hcrc, hid, hv⟩ hmine hlap hn hc hp
  case lap2Bit => exact fun t f e k s hon hcrc hid hv hmine hlap hn hp => exec_prepare_lap2 ⟨hon, hcrc, hid, hv⟩ hmine hlap hn hp
  case lap1Back =>
    exact fun t f e k c s hon hcrc hid hv hmine hlap hc hn hrec => completes_prepare_lap1Back ⟨hon, hcrc, hid, hv⟩ hmine hlap hc hn hrec
  case lap2Back =>
    exact fun t f e k c s hon hcrc hid hv hmine hlap hc hn hp => completes_prepare_lap2Back ⟨hon, hcrc, hid, hv⟩ hmine hlap hc hn hp
  case version => exact fun t f e k s hon hcrc hid hv => exec_close_version hon hcrc hid hv
  case decidedAlone => exact fun t c s h hl hrec hn => completes_decisionRecordWritten_local h hl hrec hn
  case decidedRing => exact fun t c s h hl hm hp hn hon => completes_decisionRecordWritten_ring h hl hm hp hn hon
  case undecided => exact fun t c s h hstay => exec_decisionRecordWritten_stays h hstay
  case commitPrepared =>
    exact fun t f e k s hon hcrc hid hv hmine hrec hres hn hp => completes_commit_prepared ⟨hon, hcrc, hid, hv⟩ hmine hrec hres hn hp
  case commitAgain => exact fun t f e k s hon hcrc hid hv hmine hn => exec_commit_committed ⟨hon, hcrc, hid, hv⟩ hmine hn
  case commitUnprepared =>
    exact fun t f e k s hon hcrc hid hv hmine hrec hres hn hp => exec_commit_unprepared ⟨hon, hcrc, hid, hv⟩ hmine hrec hres hn hp
  case commitBack =>
    exact fun t f e k c s hon hcrc hid hv hmine hres hall hc hn => completes_commit_back ⟨hon, hcrc, hid, hv⟩ hmine hres hall hc hn
  case resolved =>
    intro t f e k p s hon hcrc hid hv hmine hres hwait hp
    have hback := finishResolve_spec (takesEpoch_recoverBack (s.tick t) e.toNat) hp e.toNat 0 (k.toNat ||| 2 ^ s.ringPos)
    have hcommit := finishResolve_spec (takesEpoch_recoverCommit (s.tick t) e.toNat) hp e.toNat 1 (k.toNat ||| 2 ^ s.ringPos)
    obtain ⟨ha, hc, hp, hr, hl, hframe⟩ := hcommit
    obtain ⟨ka, kc, kp, kr, kl, kframe⟩ := hback
    exact ⟨⟨_, exec_commit_resolved ⟨hon, hcrc, hid, hv⟩ hmine hres hwait, ha, hc, hp, hr, hl, changesOnly_of_tick hframe⟩,
      ⟨_, exec_rollback_resolved ⟨hon, hcrc, hid, hv⟩ hmine hres hwait, ka, kc, kp, kr, kl, changesOnly_of_tick kframe⟩⟩
  case rollbackPlain =>
    exact fun t f e k s hon hcrc hid hv hmine hrec hres => exec_rollback_plain ⟨hon, hcrc, hid, hv⟩ hmine hrec hres
  case rollbackDecided =>
    exact fun t f e k s hon hcrc hid hv hmine hdec hp => completes_rollback_decided ⟨hon, hcrc, hid, hv⟩ hmine hdec hp
  case resendPrepare =>
    exact fun t c s h hm hl hon hst hheld hp hlap2 hback hlate =>
      ⟨_, exec_closeResend_prepare h hm hl hon hst hheld hp hlap2 hback hlate, resent_spec _⟩
  case resendCommit =>
    exact fun t c s h hm hl hon hst hheld hp hlate => ⟨_, exec_closeResend_commit h hm hl hon hst hheld hp hlate, resent_spec _⟩
  case resendEarly => exact fun t c s h hearly => exec_closeResend_early h hearly
  case stall => exact fun t c s h hm hst hp hlate => completes_closeStall h hm hst hp hlate
  case stallStays => exact fun t c s h hstay => exec_closeStall_stays h hstay
  case noClose => exact fun t s h => exec_close_none h
  case resolveRound =>
    exact fun t a p s hgate hj hpend hidle ha hmany hon => completes_epochResolve_round hgate hj hpend hidle ha hmany hon
  case resolveAlone => exact fun t a p s hgate hj hpend hidle ha halone => completes_epochResolve_alone hgate hj hpend hidle ha halone
  case resolveRefused => exact fun t a n p s hgate hj h => exec_epochResolve_refused hgate hj h

end Sys2Proof.Proofs
end

section
/-! PROOFS of the statement about a step and the queue (00_scope). -/

namespace Sys2Proof.Proofs

open Sys2Proof Sys2Proof.Machine Sys2Proof.Safety Sys2Proof.Laws

/-! ## The front of the queue, and the mailbox commands that wait -/

theorem idle_of_held {s u : State} {c : Instr} {r : List Instr} (hheld : s.link.held = c :: r) (hfree : s.mbFree = true)
    (hrun : exec c { s with link := { s.link with held := [] } } = .next u) : idle s = .next (u.holdMore r) := by
  unfold idle
  simp only [hheld, hfree, if_true, hrun]

theorem idle_of_none_or_busy {s : State} (h : s.link.held = [] ∨ s.mbFree = false) : idle s = .next s := by
  unfold idle
  cases hheld : s.link.held with
  | nil => rfl
  | cons c r =>
    have hbusy : s.mbFree = false := h.resolve_left (by simp [hheld])
    simp [hbusy]

/-- Settles O1: the step's two cases, and the idle block's. -/
theorem stepTakesFront : Obligations.StepTakesFront := by
  unfold Obligations.StepTakesFront
  refine ⟨?front, ?held, ?idles⟩
  case front => exact fun c r s => rfl
  case held => exact fun c r s u hheld hfree hrun => idle_of_held (s := { s with pending := [] }) hheld hfree hrun
  case idles => exact fun s h => idle_of_none_or_busy (s := { s with pending := [] }) h

end Sys2Proof.Proofs
end

section
/-! PROOFS of the statements about host and management resets and about what follows a start (12_start_reset_update). -/

namespace Sys2Proof.Proofs

open Sys2Proof Sys2Proof.Machine Sys2Proof.Safety

/-! ## The ring's history and resets of the function -/

/-- A card that serves and has timed a close: LAST_CLOSE_NS of the ring, a register of survival class Function, is 1. -/
def timedAClose : State := { serving with ring := { serving.ring with lastCloseNs := 1 } }

theorem hotReset_timedAClose : nextSat (fun u => u.ring.lastCloseNs == 0) (exec (.hotReset 0) timedAClose) = true := by
  decide +kernel

/-- Refutes O22: the frame of a hot reset leaves the ring out, and the ring's registers of survival class Function go back to their reset
values (10 R296). -/
theorem not_hostResets : ¬ Obligations.HostResets := by
  intro h
  obtain ⟨hhot, _⟩ := h
  obtain ⟨u, hu, _, _, _, _, _, _, _, _, _, _, hframe⟩ := hhot 0 timedAClose (by decide) rfl
  have hring : u.ring = timedAClose.ring := hframe .ring rfl
  have hzero := (nextSat_of_eq hu).symm.trans hotReset_timedAClose
  rw [hring] at hzero
  exact absurd hzero (by decide)

theorem chipWatchdogExpiry_timedAClose :
    nextSat (fun u => u.ring.lastCloseNs == 0) (exec (.chipWatchdogExpiry 0) timedAClose) = true := by
  decide +kernel

/-- Refutes O26: the frame of the chip watchdog's expiry leaves the ring out, and it resets the function, whose class the history of the
ring is of (10 R296, 12 R346). -/
theorem not_afterTheStart : ¬ Obligations.AfterTheStart := by
  intro h
  obtain ⟨_, _, _, _, hexpiry, _⟩ := h
  obtain ⟨u, hu, _, _, _, _, _, hframe⟩ := hexpiry 0 timedAClose rfl (by decide +kernel) rfl rfl rfl
  have hring : u.ring = timedAClose.ring := hframe .ring rfl
  have hzero := (nextSat_of_eq hu).symm.trans chipWatchdogExpiry_timedAClose
  rw [hring] at hzero
  exact absurd hzero (by decide)

end Sys2Proof.Proofs
end

section
/-! PROOFS of the statements about the recorder, the telemetry queue and the counters (13_tally_recorder_counters). -/

namespace Sys2Proof.Proofs

open Sys2Proof Sys2Proof.Machine Sys2Proof.Safety

/-! ## A level sample that wraps a counter -/

/-- A card that serves and holds one read; PMU counter 0 counts the held requests as a level, stands at 2^48 - 1 and has its overflow
interrupt enabled. -/
def levelAboutToWrap : State :=
  (((((({ serving with qos := { serving.qos with nextId := 1, ingress := [⟨0, 0, false, 7, 0, 0, 0, false⟩] } } : State).setReg
    PMU_CTRL.enable 1).setReg PMU_CFG.enable 1).setReg PMU_CFG.level 1).setReg PMU_CFG.select 0x2003).setReg PMU_CFG.ovf_irq 1).setReg
    PMU_CNT.count (2 ^ 48 - 1)

/-- The sample wraps the counter, and event 0x5AA sends the interrupt of its vector. -/
theorem pmuLevelSample_levelAboutToWrap :
    nextSat (fun u => u.sent == [.msix 14]) (exec .pmuLevelSample levelAboutToWrap) = true := by
  decide +kernel

/-- Refutes O38: the frame of a level sample with counting on leaves the output out, and a sample can wrap a counter, whose overflow event
(13 R372) sends an interrupt. -/
theorem not_counterCommands : ¬ Obligations.CounterCommands := by
  intro h
  obtain ⟨_, _, _, _, hsample, _⟩ := h
  obtain ⟨u, hu, hframe⟩ := hsample levelAboutToWrap (by decide +kernel)
  have hsent : u.sent = levelAboutToWrap.sent := hframe .out rfl
  have hmsix := (nextSat_of_eq hu).symm.trans pmuLevelSample_levelAboutToWrap
  rw [hsent] at hmsix
  exact absurd hmsix (by decide)

end Sys2Proof.Proofs
end

section
/-! PROOFS of the statements about the recorder and the telemetry queue (13_tally_recorder_counters). -/

namespace Sys2Proof.Proofs

open Sys2Proof Sys2Proof.Machine Sys2Proof.Safety Sys2Proof.Laws

/-! ## What asking for a row write leaves -/

/-- The check of the supply leaves every row and the recorder. -/
theorem tallyKick_keeps (s : State) : s.tallyKick.tly.rows = s.tly.rows ∧ s.tallyKick.recd = s.recd := by
  have hcount : (s.bump TLY_STATUS.deferrals).tly.rows = s.tly.rows := congrArg Tally.rows (State.bump_tly s _ _ _)
  unfold State.tallyKick
  split
  · exact ⟨rfl, rfl⟩
  · split
    · split <;> exact ⟨rfl, rfl⟩
    · split
      · exact ⟨rfl, rfl⟩
      · exact ⟨hcount, State.bump_recd s TLY_STATUS.deferrals 1 0⟩

@[simp] theorem ownRow_rows (s : State) (rank part row : Nat) (data : Bytes) : (s.ownRow rank part row data).tly.rows = s.tly.rows :=
  (tallyKick_keeps _).1

@[simp] theorem ownRow_recd (s : State) (rank part row : Nat) (data : Bytes) : (s.ownRow rank part row data).recd = s.recd :=
  (tallyKick_keeps _).2

/-! ## The drain (R366) -/

/-- The recorder from which a row is drained: held repeats of the row are in their stored copy. -/
def settledFor (r : Recorder) (row : Nat) : Recorder :=
  match r.newest with
  | some n => if r.rowOf n.seq = row then r.settle else r
  | none => r

theorem settle_keeps (r : Recorder) : r.settle.stored.length = r.stored.length ∧ r.settle.nextSeq = r.nextSeq := by
  unfold Recorder.settle
  split
  · exact ⟨List.length_map _, rfl⟩
  · exact ⟨rfl, rfl⟩

theorem settledFor_keeps (r : Recorder) (row : Nat) :
    (settledFor r row).stored.length = r.stored.length ∧ (settledFor r row).nextSeq = r.nextSeq := by
  unfold settledFor
  split
  · split
    · exact settle_keeps r
    · exact ⟨rfl, rfl⟩
  · exact ⟨rfl, rfl⟩

/-- The staged records of a row lie in partition 4. -/
def drainedRow (r : Recorder) (row : Nat) : Recorder :=
  { settledFor r row with staging := r.staging.filter (fun y => r.rowOf y.seq != row),
                          stored := (settledFor r row).stored ++ r.staging.filter (fun y => r.rowOf y.seq == row) }

theorem drainRow_of_staged {s : State} {x : Rec} {r : List Rec} (h : s.recd.staging = x :: r) :
    s.drainRow = { s with recd := drainedRow s.recd (s.recd.rowOf x.seq) }.ownRow 5 4 (s.recd.rowOf x.seq)
      ((drainedRow s.recd (s.recd.rowOf x.seq)).rowData (s.recd.rowOf x.seq)) := by
  unfold State.drainRow drainedRow settledFor
  split
  next h' => exact absurd (h.symm.trans h') (List.cons_ne_nil x r)
  next y l h' =>
    obtain ⟨rfl, rfl⟩ := List.cons.inj (h.symm.trans h')
    rfl

theorem completes_recorderDrain {x : Rec} {r : List Rec} {s : State} (h : s.recd.staging = x :: r) (hlog : s.canLog = true) :
    completes .recorderDrain s (fun u =>
      u.recd.staging = s.recd.staging.filter (fun y => s.recd.rowOf y.seq != s.recd.rowOf x.seq) ∧
      u.recd.stored.length = s.recd.stored.length + (s.recd.staging.filter (fun y => s.recd.rowOf y.seq == s.recd.rowOf x.seq)).length ∧
      u.recd.nextSeq = s.recd.nextSeq ∧ u.tly.rows = s.tly.rows ∧ changesOnly [.regs, .tly, .events] s u) := by
  obtain ⟨hlength, hseq⟩ := settledFor_keeps s.recd (s.recd.rowOf x.seq)
  have hframe := changesOnly_drainRow s
  have hstored : (drainedRow s.recd (s.recd.rowOf x.seq)).stored.length = s.recd.stored.length +
      (s.recd.staging.filter (fun y => s.recd.rowOf y.seq == s.recd.rowOf x.seq)).length := by
    rw [drainedRow, List.length_append, hlength]
  refine ⟨s.drainRow, congrArg Host.Outcome.next (if_pos hlog), ?_⟩
  rw [drainRow_of_staged h, ownRow_recd, ownRow_rows] at *
  exact ⟨rfl, hstored, hseq, rfl, hframe⟩

theorem exec_recorderDrain_empty {s : State} (h : s.recd.staging = []) : exec .recorderDrain s = .next s := by
  have hnone : s.drainRow = s := by
    unfold State.drainRow
    rw [h]
  exact congrArg Host.Outcome.next ((congrArg (fun z => if s.canLog then z else s) hnone).trans (ite_self s))

/-! ## Held repeats (R367) -/

theorem exec_recorderRepeatFlush_none {s : State} (hlog : s.canLog = true) (h : s.recd.heldRepeats = 0) :
    exec .recorderRepeatFlush s = .next s :=
  congrArg Host.Outcome.next ((if_pos hlog).trans (if_pos h))

/-- The newest record's stored copy takes its held repeats. -/
def repeatsStored (r : Recorder) (n : Rec) : Recorder :=
  { r with stored := r.stored.map (fun x => if x.seq == n.seq then n else x), heldRepeats := 0 }

theorem flushRepeats_of_held {s : State} {n : Rec} (hnew : s.recd.newest = some n) (h : s.recd.heldRepeats ≠ 0) :
    s.flushRepeats = { s with recd := repeatsStored s.recd n }.ownRow 5 4 ((repeatsStored s.recd n).rowOf n.seq)
      ((repeatsStored s.recd n).rowData ((repeatsStored s.recd n).rowOf n.seq)) := by
  have hsettle : s.recd.settle = repeatsStored s.recd n := by
    unfold Recorder.settle repeatsStored
    simp only [hnew]
  unfold State.flushRepeats
  rw [if_neg h, hnew, hsettle]

theorem completes_recorderRepeatFlush {n : Rec} {s : State} (hlog : s.canLog = true) (hnew : s.recd.newest = some n)
    (h : s.recd.heldRepeats ≠ 0) : completes .recorderRepeatFlush s (fun u => u.recd.heldRepeats = 0 ∧
      u.recd.staging = s.recd.staging ∧ u.recd.stored = s.recd.stored.map (fun x => if x.seq == n.seq then n else x) ∧
      changesOnly [.regs, .tly, .events] s u) := by
  have hframe := changesOnly_flushRepeats s
  refine ⟨s.flushRepeats, congrArg Host.Outcome.next (if_pos hlog), ?_⟩
  rw [flushRepeats_of_held hnew h, ownRow_recd] at *
  exact ⟨rfl, rfl, rfl, hframe⟩

/-- Settles O36, clause by clause. -/
theorem recorderCommands : Obligations.RecorderCommands := by
  unfold Obligations.RecorderCommands
  refine ⟨?drain, ?empty, ?closed, ?repeats, ?noRepeats⟩
  case drain => exact fun x r s h hlog => completes_recorderDrain h hlog
  case empty => exact fun s h => exec_recorderDrain_empty h
  case closed =>
    intro s hlog
    have hoff : ¬ s.canLog = true := ne_true_of_eq_false hlog
    exact ⟨congrArg Host.Outcome.next (if_neg hoff), congrArg Host.Outcome.next (if_neg hoff)⟩
  case repeats => exact fun n s hlog hnew h => completes_recorderRepeatFlush hlog hnew h
  case noRepeats => exact fun s hlog h => exec_recorderRepeatFlush_none hlog h

/-! ## Lines that close (R375, R376) -/

/-- The open line as it goes into the queue. -/
def openLine (q : Telemetry) (flush timeout : Bool) : TqLine :=
  ⟨q.seq, 8 * q.openWords.length, q.openLead, q.lostFlag, flush, timeout, q.openWords⟩

/-- The open line stands at the head of the queue, and the next line is open. -/
def lineQueued (q : Telemetry) (flush timeout : Bool) : Telemetry :=
  { q with lines := Tab.put q.lines q.head (openLine q flush timeout), head := (q.head + 1) % 1048576, seq := (q.seq + 1) % 2 ^ 32,
           openWords := [], openLead := 0, openSince := none, lostFlag := false }

theorem closeLine_tq {s : State} (h : s.tq.openWords ≠ []) (flush timeout : Bool) :
    (s.closeLine flush timeout).tq = lineQueued s.tq flush timeout := by
  have hopen : ¬ s.tq.openWords.isEmpty = true := by simpa using h
  have hcount : (if s.tq.openWords.length < 7 then s.bump TQ_STATUS.remainders else s).tq = s.tq := by
    split
    · exact State.bump_tq s _ _ _
    · rfl
  unfold State.closeLine
  rw [if_neg hopen]
  dsimp only
  rw [hcount]
  rfl

theorem closeLine_empty {s : State} (h : s.tq.openWords = []) (flush timeout : Bool) : s.closeLine flush timeout = s := by
  unfold State.closeLine
  rw [h]
  rfl

/-- A line that closes counts as a remainder at most. -/
theorem changesOnly_closed (s : State) (flush timeout : Bool) : changesOnly [.tq, .regs, .events] s (s.closeLine flush timeout) ∧
    regsBut [(TQ_STATUS.remainders, 0)] s (s.closeLine flush timeout) := by
  have hcount : ∀ y : Telemetry, changesOnly [.tq, .regs, .events] s { s.bump TQ_STATUS.remainders with tq := y } := fun y =>
    changesOnly_mono (by decide) (changesOnly_append (changesOnly_bump s TQ_STATUS.remainders 1 0 (by decide)) (changesOnly_setTq _ y))
  unfold State.closeLine
  split
  · exact ⟨changesOnly_refl _ s, regsBut_refl _ s⟩
  · dsimp only
    split
    · exact ⟨hcount _, regsBut_bump (.inr (List.mem_singleton.2 rfl))⟩
    · exact ⟨changesOnly_mono (by decide) (changesOnly_setTq s _), regsBut_refl _ s⟩

theorem completes_tqFlush {s : State} (hp : s.link.protocol ≠ 0) (h : s.tq.openWords ≠ []) :
    completes .tqFlush s (fun u => u.tq.head = (s.tq.head + 1) % 1048576 ∧ u.tq.seq = (s.tq.seq + 1) % 2 ^ 32 ∧ u.tq.openWords = [] ∧
      Tab.find u.tq.lines s.tq.head =
        some ⟨s.tq.seq, 8 * s.tq.openWords.length, s.tq.openLead, s.tq.lostFlag, true, false, s.tq.openWords⟩ ∧
      regsBut [(TQ_STATUS.remainders, 0)] s u ∧ changesOnly [.tq, .regs, .events] s u) := by
  obtain ⟨hframe, hregs⟩ := changesOnly_closed s true false
  refine ⟨s.closeLine true false, congrArg Host.Outcome.next (if_neg hp), ?_⟩
  dsimp only
  rw [closeLine_tq h]
  exact ⟨rfl, rfl, rfl, Tab.find_put_same _ _ _, hregs, hframe⟩

/-- TQ_TIMEOUT reads what is written there, or the image's value (R376). -/
theorem live_timeout_us (s : State) : live s TQ_TIMEOUT.timeout_us 0 =
    some (if s.reg TQ_TIMEOUT.timeout_us = 0 then s.run.policy.tqTimeout else s.reg TQ_TIMEOUT.timeout_us) := rfl

theorem readFld_timeout_us_tick (s : State) (t : Nat) :
    (s.tick t).readFld TQ_TIMEOUT.timeout_us 0 = s.readFld TQ_TIMEOUT.timeout_us 0 := by
  unfold State.readFld
  rw [live_timeout_us, live_timeout_us]
  rfl

theorem exec_telemetryTimeout_due {t t0 : Nat} {s : State} (ht0 : s.tq.openSince = some t0)
    (hdue : t0 + s.readFld TQ_TIMEOUT.timeout_us 0 * 1000 ≤ max s.now t) :
    exec (.telemetryTimeout t) s = .next ((s.tick t).closeLine false true) := by
  change execTelemetryTimeout t s = _
  unfold execTelemetryTimeout
  dsimp only
  rw [State.tick_tq, ht0, readFld_timeout_us_tick]
  exact congrArg Host.Outcome.next (if_pos hdue)

theorem completes_telemetryTimeout {t t0 : Nat} {s : State} (ht0 : s.tq.openSince = some t0) (h : s.tq.openWords ≠ [])
    (hdue : t0 + s.readFld TQ_TIMEOUT.timeout_us 0 * 1000 ≤ max s.now t) :
    completes (.telemetryTimeout t) s (fun u => u.tq.head = (s.tq.head + 1) % 1048576 ∧ u.tq.openWords = [] ∧ u.tq.openSince = none ∧
      Tab.find u.tq.lines s.tq.head =
        some ⟨s.tq.seq, 8 * s.tq.openWords.length, s.tq.openLead, s.tq.lostFlag, false, true, s.tq.openWords⟩ ∧
      changesOnly [.time, .tq, .regs, .events] s u) := by
  refine ⟨_, exec_telemetryTimeout_due ht0 hdue, ?_⟩
  dsimp only
  rw [closeLine_tq (s := s.tick t) h]
  exact ⟨rfl, rfl, rfl, Tab.find_put_same _ _ _, changesOnly_of_tick (changesOnly_closed (s.tick t) false true).1⟩

/-! ## A new tail (R374) -/

/-- The lines before the new tail are released. -/
def tailMoved (q : Telemetry) (n : Nat) : Telemetry :=
  { q with tail := n, lines := Tab.keep q.lines (fun k _ =>
      decide ((n + tqLines - q.tail) % tqLines ≤ (k + tqLines - q.tail) % tqLines)) }

/-- How far a line is past the tail, where neither has wrapped. -/
theorem sub_tail_mod {a k : Nat} (h : a ≤ k) (hk : k < 1048576) : (k + tqLines - a) % tqLines = k - a := by
  have hsum : k + 1048576 - a = k - a + 1048576 := by omega
  rw [hsum, Nat.add_mod_right, Nat.mod_eq_of_lt (by omega)]

section
variable {n : Nat} {s : State} (hn : n < 1048576) (hlow : s.tq.tail ≤ n)
include hn hlow

theorem exec_tqTailWrite (hp : s.link.protocol ≠ 0) (hhigh : n ≤ s.tq.head) (hhead : s.tq.head < 1048576) :
    exec (.tqTailWrite n) s = .next { s with tq := tailMoved s.tq n } := by
  have hreadable : ¬ (s.link.protocol = 0 ∨ tqLines ≤ n ∨
      (s.tq.head + tqLines - s.tq.tail) % tqLines < (n + tqLines - s.tq.tail) % tqLines) := by
    rw [sub_tail_mod hlow hn, sub_tail_mod (hlow.trans hhigh) hhead]
    exact not_or.2 ⟨hp, not_or.2 ⟨Nat.not_le.2 hn, by omega⟩⟩
  exact congrArg Host.Outcome.next (if_neg hreadable)

theorem find_tailMoved {k : Nat} (hk : s.tq.tail ≤ k) (hlt : k < 1048576) :
    Tab.find (tailMoved s.tq n).lines k = if n ≤ k then Tab.find s.tq.lines k else none := by
  unfold tailMoved
  rw [find_keep s.tq.lines (fun k => decide ((n + tqLines - s.tq.tail) % tqLines ≤ (k + tqLines - s.tq.tail) % tqLines)) k,
    sub_tail_mod hlow hn, sub_tail_mod hk hlt]
  simp only [decide_eq_true_eq]
  congr 1
  exact propext (by omega)

theorem completes_tqTailWrite (hp : s.link.protocol ≠ 0) (hhigh : n ≤ s.tq.head) (hhead : s.tq.head < 1048576) :
    completes (.tqTailWrite n) s (fun u => u.tq.tail = n ∧ u.tq.head = s.tq.head ∧
      (∀ k, s.tq.tail ≤ k → k < n → Tab.find u.tq.lines k = none) ∧
      (∀ k, n ≤ k → k < 1048576 → Tab.find u.tq.lines k = Tab.find s.tq.lines k) ∧ changesOnly [.tq] s u) := by
  refine ⟨_, exec_tqTailWrite hn hlow hp hhigh hhead, rfl, rfl, fun k hk hkn => ?_, fun k hnk hk => ?_, ?_⟩
  · exact (find_tailMoved hn hlow hk (hkn.trans hn)).trans (if_neg (Nat.not_le.2 hkn))
  · exact (find_tailMoved hn hlow (hlow.trans hnk) hk).trans (if_pos hnk)
  · intro g hg
    have hset := changesOnly_setTq s (tailMoved s.tq n) g
    cases g
    case tq => cases hg
    case events => exact ⟨rfl, rfl, rfl, rfl, rfl, fun _ _ => rfl⟩
    all_goals exact hset rfl

end

/-- Settles O37, clause by clause. -/
theorem telemetryQueue : Obligations.TelemetryQueue := by
  unfold Obligations.TelemetryQueue
  refine ⟨?flush, ?noLine, ?timeout, ?notOpen, ?tail, ?beyond⟩
  case flush => exact fun s hp h _ => completes_tqFlush hp h
  case noLine => exact fun s h => congrArg Host.Outcome.next ((congrArg _ (closeLine_empty h true false)).trans (ite_self s))
  case timeout => exact fun t t0 s ht0 h hdue => completes_telemetryTimeout ht0 h hdue
  case notOpen =>
    intro t s h
    change execTelemetryTimeout t s = _
    unfold execTelemetryTimeout
    dsimp only
    rw [State.tick_tq, h]
  case tail => exact fun n s hp hn hlow hhigh hhead => completes_tqTailWrite hn hlow hp hhigh hhead
  case beyond => exact fun n s hn => congrArg Host.Outcome.next (if_pos (.inr (.inl hn)))

end Sys2Proof.Proofs
end

section
/-! PROOFS of the statements about the tally store's copies and its row writes (13_tally_recorder_counters). -/

namespace Sys2Proof.Proofs

open Sys2Proof Sys2Proof.Machine Sys2Proof.Safety Sys2Proof.Laws

/-! ## Which copy a record is read from (R354) -/

section
variable {r : TallyRow}

theorem pick_of_valid (ha : r.a.valid = true) (hb : r.b.valid = true) : r.pick = if r.a.seq < r.b.seq then 1 else 0 := by
  simp [TallyRow.pick, ha, hb]

theorem pick_of_a_alone (ha : r.a.valid = true) (hb : r.b.valid = false) : r.pick = 0 := by
  simp [TallyRow.pick, ha, hb]

theorem pick_of_b_alone (ha : r.a.valid = false) (hb : r.b.valid = true) : r.pick = 1 := by
  simp [TallyRow.pick, ha, hb]

theorem pick_of_lost (ha : r.a.valid = false) (hb : r.b.valid = false) : r.pick = 255 := by
  simp [TallyRow.pick, ha, hb]

/-- A record that is not lost is read from a copy that is valid. -/
theorem pick_cases (h : r.pick ≠ 255) : (r.pick = 0 ∧ r.a.valid = true) ∨ (r.pick = 1 ∧ r.b.valid = true) := by
  cases ha : r.a.valid
  · cases hb : r.b.valid
    · exact absurd (pick_of_lost ha hb) h
    · exact .inr ⟨pick_of_b_alone ha hb, rfl⟩
  · cases hb : r.b.valid
    · exact .inl ⟨pick_of_a_alone ha hb, rfl⟩
    · rw [pick_of_valid ha hb]
      split
      · exact .inr ⟨rfl, rfl⟩
      · exact .inl ⟨rfl, rfl⟩

theorem copy_of_pick_a (h : r.pick = 0) : r.copy = r.a := if_pos h

theorem copy_of_pick_b (h : r.pick = 1) : r.copy = r.b := by
  simp [TallyRow.copy, h]

/-- Two valid copies of one sequence are of one record that is not lost. -/
theorem pick_ne_of_clash (h : r.clash = true) : r.pick ≠ 255 := by
  have hvalid : r.a.valid = true ∧ r.b.valid = true := by
    simp only [TallyRow.clash, Bool.and_eq_true] at h
    exact ⟨h.1.1.1, h.1.1.2⟩
  rw [pick_of_valid hvalid.1 hvalid.2]
  split <;> decide

/-! ## Writes into the other copy (R354, Table 13-4) -/

theorem write_of_pick_a (h : r.pick = 0) (d : Bytes) (bad : Bool) : r.write d bad = ⟨r.a, ⟨!bad, r.a.seq + 1, d⟩, false⟩ := if_pos h

theorem write_of_pick_b (h : r.pick = 1) (d : Bytes) (bad : Bool) : r.write d bad = ⟨⟨!bad, r.b.seq + 1, d⟩, r.b, false⟩ := by
  simp [TallyRow.write, h]

/-- A good write is read back, one sequence on, and the copy that was in use stays. -/
theorem write_good (h : r.pick ≠ 255) (d : Bytes) : (r.write d false).copy = ⟨true, r.copy.seq + 1, d⟩ ∧
    (r.pick = 0 → (r.write d false).a = r.a) ∧ (r.pick = 1 → (r.write d false).b = r.b) := by
  rcases pick_cases h with ⟨h0, ha⟩ | ⟨h1, hb⟩
  · have hnew : (r.write d false).pick = 1 := by
      rw [write_of_pick_a h0]
      exact (pick_of_valid (r := ⟨r.a, ⟨true, r.a.seq + 1, d⟩, false⟩) ha rfl).trans (if_pos (Nat.lt_succ_self r.a.seq))
    rw [copy_of_pick_b hnew, copy_of_pick_a h0, write_of_pick_a h0]
    exact ⟨rfl, fun _ => rfl, fun h1 => absurd (h0.symm.trans h1) (by decide)⟩
  · have hnew : (r.write d false).pick = 0 := by
      rw [write_of_pick_b h1]
      exact (pick_of_valid (r := ⟨⟨true, r.b.seq + 1, d⟩, r.b, false⟩) rfl hb).trans (if_neg (Nat.not_lt.2 (Nat.le_succ r.b.seq)))
    rw [copy_of_pick_a hnew, copy_of_pick_b h1, write_of_pick_b h1]
    exact ⟨rfl, fun h0 => absurd (h1.symm.trans h0) (by decide), fun _ => rfl⟩

/-- A torn write spoils the copy that is not in use. -/
theorem write_torn (h : r.pick ≠ 255) (d : Bytes) : (r.write d true).copy = r.copy := by
  rcases pick_cases h with ⟨h0, ha⟩ | ⟨h1, hb⟩
  · have hold : (r.write d true).pick = 0 := by
      rw [write_of_pick_a h0]
      exact pick_of_a_alone ha rfl
    rw [copy_of_pick_a hold, copy_of_pick_a h0, write_of_pick_a h0]
  · have hold : (r.write d true).pick = 1 := by
      rw [write_of_pick_b h1]
      exact pick_of_b_alone rfl hb
    rw [copy_of_pick_b hold, copy_of_pick_b h1, write_of_pick_b h1]

/-- A refresh rewrites both copies with the record's data (R357). -/
theorem refresh_spec (h : r.pick ≠ 255) : r.refresh.copy.data = r.copy.data ∧ r.refresh.a.valid = true ∧ r.refresh.b.valid = true := by
  rcases pick_cases h with ⟨h0, _⟩ | ⟨h1, _⟩
  · have hrefresh : r.refresh = ⟨⟨true, r.a.seq + 2, r.copy.data⟩, ⟨true, r.a.seq + 1, r.copy.data⟩, r.reported⟩ := if_pos h0
    have hpick : r.refresh.pick = 0 := by
      rw [hrefresh]
      exact (pick_of_valid rfl rfl).trans (if_neg (by dsimp only; omega))
    rw [copy_of_pick_a hpick, hrefresh]
    exact ⟨rfl, rfl, rfl⟩
  · have hrefresh : r.refresh = ⟨⟨true, r.b.seq + 1, r.copy.data⟩, ⟨true, r.b.seq + 2, r.copy.data⟩, r.reported⟩ := by
      simp [TallyRow.refresh, h1]
    have hpick : r.refresh.pick = 1 := by
      rw [hrefresh]
      exact (pick_of_valid rfl rfl).trans (if_pos (Nat.lt_succ_self _))
    rw [copy_of_pick_b hpick, hrefresh]
    exact ⟨rfl, rfl, rfl⟩

end

/-- Settles O39, clause by clause. -/
theorem tallyCopies : Obligations.TallyCopies := by
  unfold Obligations.TallyCopies
  refine ⟨?aAlone, ?bAlone, ?both, ?lost, ?clash, ?noCopy, ?good, ?torn⟩
  case aAlone => exact fun r ha hb => pick_of_a_alone ha hb
  case bAlone => exact fun r ha hb => pick_of_b_alone ha hb
  case both =>
    intro r ha hb
    rw [pick_of_valid ha hb]
    split
    next h => exact ⟨by simp [h], by simp [h]⟩
    next h => exact ⟨by simp [h], by simpa using h⟩
  case lost => exact fun r ha hb => pick_of_lost ha hb
  case clash =>
    intro p n s hfirst hclash
    have hseen : ¬ (s.row p n).reported = true := ne_true_of_eq_false hfirst
    exact (if_neg hseen).trans (if_pos hclash)
  case noCopy =>
    intro p n s hfirst hlost
    have hseen : ¬ (s.row p n).reported = true := ne_true_of_eq_false hfirst
    exact (if_neg hseen).trans ((if_neg (fun hclash => pick_ne_of_clash hclash hlost)).trans (if_pos hlost))
  case good => exact fun r d h => write_good h d
  case torn => exact fun r d h => write_torn h d

/-! ## The next write (R355, R356) -/

theorem tallyKick_of_empty {s : State} (h : s.tly.queue = []) : s.tallyKick = s := by
  unfold State.tallyKick
  rw [h, List.isEmpty_nil, Bool.or_true]
  exact if_pos rfl

theorem tallyKick_of_running {s : State} {w : RowWrite} (h : s.tly.running = some w) : s.tallyKick = s := by
  unfold State.tallyKick
  rw [h, Option.isSome_some, Bool.true_or]
  exact if_pos rfl

theorem tallyKick_of_deferred {s : State} (hrail : s.tly.rail0 = false) (h : s.tly.deferred = true) : s.tallyKick = s := by
  unfold State.tallyKick
  rw [hrail, Bool.false_and, h]
  split
  · rfl
  · exact (if_neg Bool.false_ne_true).trans (if_pos rfl)

/-- The one write that waits is the next of its rank. -/
theorem takeRank_singleton {w : RowWrite} (h : w.rank ≤ 6) : takeRank (nextRank [w]) [w] = some (w, []) := by
  have hrank : nextRank [w] = w.rank := Nat.min_eq_right h
  rw [hrank]
  exact if_pos rfl

theorem tallyKick_of_one {s : State} {w : RowWrite} (hnone : s.tly.running = none) (hone : s.tly.queue = [w]) (hrank : w.rank ≤ 6)
    (hrail : s.tly.rail0 = true) (hhold : s.tly.holdUp = true) :
    s.tallyKick = { s with tly := { s.tly with running := some w, queue := [], deferred := false, deferEvent := false } } := by
  unfold State.tallyKick
  rw [hnone, hone, hrail, hhold, takeRank_singleton hrank]
  rfl

/-! ## The row that ran (R354) -/

section
variable {t : Nat} {w : RowWrite} {s : State}

/-- The record of a write that ran is in its row. -/
def rowWritten (y : Tally) (w : RowWrite) (r : TallyRow) : Tally :=
  { y with running := none, rows := Tab.put y.rows (rowKey w.part w.row) (r.write w.data false) }

theorem exec_tallyRowWriteComplete (hrun : s.tly.running = some w) (hqueue : s.tly.queue = []) (hown : w.owner = 0)
    (hflip : s.flip.armed = none) :
    exec (.tallyRowWriteComplete t) s = .next { s.tick t with tly := rowWritten s.tly w (s.row w.part w.row) } := by
  have hflips : (s.tick t).flipsRow w.part = false := by
    unfold State.flipsRow
    rw [State.tick_flip, hflip]
  have hspoils : (s.tick t).maskSpoils w.part = false := by
    unfold State.maskSpoils
    rw [hflips, Bool.false_and]
  change execTallyRowWriteComplete t s = _
  unfold execTallyRowWriteComplete
  dsimp only
  rw [State.tick_tly, hrun]
  dsimp only
  rw [hspoils, hflips, if_neg Bool.false_ne_true]
  unfold State.rowOwner
  rw [hown]
  exact congrArg Host.Outcome.next (tallyKick_of_empty hqueue)

theorem exec_tallyRowWriteComplete_none (hrun : s.tly.running = none) : exec (.tallyRowWriteComplete t) s = .next (s.tick t) := by
  change execTallyRowWriteComplete t s = _
  unfold execTallyRowWriteComplete
  dsimp only
  rw [State.tick_tly, hrun]

/-! ## The supply check and the limit of deferral (R356) -/

theorem exec_tallyDeferralLimit {mv : Nat} (hdef : s.tly.deferred = true) (hfirst : s.tly.deferEvent = false) (hone : s.tly.queue = [w])
    (hrank : w.rank ≤ 6) (hwait : s.link.wait = none) (hlate : s.tly.deferredAt + 100000000 ≤ max s.now t) :
    exec (.tallyDeferralLimit t mv) s =
      .next (ev 0x5A2 1 [w.part, w.row, mv] 1 { s.tick t with tly := { s.tly with deferEvent := true } }) := by
  have hgo : ¬ (!s.tly.deferred || s.tly.deferEvent || decide (max s.now t < s.tly.deferredAt + 100 * msec)) = true := by
    have hover : ¬ max s.now t < s.tly.deferredAt + 100 * msec := Nat.not_lt.2 hlate
    rw [hdef, hfirst, decide_eq_false hover]
    decide
  have hnext : (s.tick t).nextRow = some w := by
    unfold State.nextRow
    rw [State.tick_tly, hone, takeRank_singleton hrank]
  refine (if_neg hgo).trans ?_
  rw [hnext]
  dsimp only
  rw [ev_link, State.tick_link, hwait]
  rfl

/-! ## The refresh lap (R357) -/

/-- What a lap raises after its rewrites. -/
def lapReported (s : State) (old weak : Nat) (replaced : List (Nat × Nat × Nat)) : State :=
  let s2 := replaced.foldl (fun s r => ev 0x5A4 0 [r.1, r.2.1, r.2.2] 1 s) s
  ev 0x5A3 0 [weak, replaced.length] 1 (if old ≥ 64 ∧ s2.tly.spare < 64 then ev 0x5A5 1 [s2.tly.spare] 1 s2 else s2)

theorem changesOnly_lapReported (s : State) (old weak : Nat) (replaced : List (Nat × Nat × Nat)) :
    changesOnly [.out, .events] s (lapReported s old weak replaced) := by
  have hmoved := changesOnly_foldl (fun s (r : Nat × Nat × Nat) => changesOnly_ev 0x5A4 0 [r.1, r.2.1, r.2.2] 1 s) replaced s
  unfold lapReported
  dsimp only
  refine changesOnly_trans (changesOnly_trans hmoved ?_) (changesOnly_ev 0x5A3 0 _ 1 _)
  split
  · exact changesOnly_ev 0x5A5 1 _ 1 _
  · exact changesOnly_refl _ _

/-- The weak records rewritten, and the copies that failed moved to spare rows. -/
def lapDone (y : Tally) (weak : List (Nat × Nat)) (replaced : List (Nat × Nat × Nat)) : Tally :=
  { y with
    rows := weak.foldl (fun m w => Tab.put m (rowKey w.1 w.2) (Tab.findD m (rowKey w.1 w.2) (madeRow w.1 w.2)).refresh) y.rows,
    lapHours := 0, spare := y.spare - replaced.length }

theorem exec_tallyRefreshLap {l : List (Nat × Nat)} {r : List (Nat × Nat × Nat)} (hdue : 720 ≤ s.tly.lapHours)
    (hrun : s.tly.running = none) :
    exec (.tallyRefreshLap t l r) s = .next (lapReported { s.tick t with tly := lapDone s.tly l r } s.tly.spare l.length r) := by
  have hgo : ¬ (s.tly.lapHours < 720 ∨ s.tly.running.isSome = true) := by
    rw [hrun]
    exact not_or.2 ⟨Nat.not_lt.2 hdue, Bool.false_ne_true⟩
  exact if_neg hgo

theorem completes_tallyRefreshLap {l : List (Nat × Nat)} {r : List (Nat × Nat × Nat)} (hdue : 720 ≤ s.tly.lapHours)
    (hrun : s.tly.running = none) : completes (.tallyRefreshLap t l r) s (fun u => u.tly.lapHours = 0 ∧
      u.tly.spare = s.tly.spare - r.length ∧ u.tly.queue = s.tly.queue ∧ changesOnly [.time, .tly, .out, .events] s u) := by
  have hreported := changesOnly_lapReported { s.tick t with tly := lapDone s.tly l r } s.tly.spare l.length r
  have htly : (lapReported { s.tick t with tly := lapDone s.tly l r } s.tly.spare l.length r).tly = lapDone s.tly l r :=
    hreported .tly rfl
  refine ⟨_, exec_tallyRefreshLap hdue hrun, ?_⟩
  dsimp only
  rw [htly]
  exact ⟨rfl, rfl, rfl, changesOnly_of_tick (changesOnly_append (changesOnly_setTly (s.tick t) _) hreported)⟩

end

/-! ## The lifetime counts (R353) -/

theorem ownRow_of_running {s : State} {w : RowWrite} (h : s.tly.running = some w) (rank part row : Nat) (data : Bytes) :
    s.ownRow rank part row data = { s with tly := { s.tly with queue := s.tly.queue ++ [⟨rank, part, row, data, 0, 0⟩] } } :=
  tallyKick_of_running (s := { s with tly := { s.tly with queue := s.tly.queue ++ [⟨rank, part, row, data, 0, 0⟩] } }) h

/-- From s to u, with a row write running, n rows of lifetime counts were asked for. -/
structure AsksCounts (n : Nat) (s u : State) : Prop where
  frame : changesOnly [.tly] s u
  running : u.tly.running = s.tly.running
  asked : ∃ l : List RowWrite, u.tly.queue = s.tly.queue ++ l ∧ l.length = n ∧
    ∀ x ∈ l, x.rank = 6 ∧ x.owner = 0 ∧ (x.part = 1 ∨ x.part = 3)

theorem AsksCounts.refl (s : State) : AsksCounts 0 s s :=
  ⟨changesOnly_refl _ s, rfl, [], (List.append_nil _).symm, rfl, fun _ h => absurd h List.not_mem_nil⟩

/-- One row more. -/
theorem AsksCounts.ownRow {n : Nat} {s u : State} {w : RowWrite} (h : AsksCounts n s u) (hrun : s.tly.running = some w) {part : Nat}
    (hpart : part = 1 ∨ part = 3) (row : Nat) (data : Bytes) : AsksCounts (n + 1) s (u.ownRow 6 part row data) := by
  obtain ⟨l, hqueue, hlen, hrows⟩ := h.asked
  rw [ownRow_of_running (h.running.trans hrun)]
  refine ⟨changesOnly_trans h.frame (changesOnly_setTly u _), h.running, l ++ [⟨6, part, row, data, 0, 0⟩], ?_, ?_, ?_⟩
  · dsimp only
    rw [hqueue, List.append_assoc]
  · rw [List.length_append, hlen, List.length_singleton]
  · intro x hx
    rcases List.mem_append.1 hx with hx | hx
    · exact hrows x hx
    · rw [List.mem_singleton.1 hx]
      exact ⟨rfl, rfl, hpart⟩

theorem asksCounts_lifetimeCounterSave {s : State} {w : RowWrite} (hrun : s.tly.running = some w) :
    AsksCounts 6 s ([1, 2, 3, 4].foldl (fun x k => x.ownRow 6 3 k (s.histRow (k - 1))) (s.saveLifetime.ownRow 6 3 0 s.railRow)) :=
  ((((((AsksCounts.refl s).ownRow hrun (.inl rfl) 0 _).ownRow hrun (.inr rfl) 0 _).ownRow hrun (.inr rfl) 1 _).ownRow hrun
    (.inr rfl) 2 _).ownRow hrun (.inr rfl) 3 _).ownRow hrun (.inr rfl) 4 _

theorem completes_lifetimeCounterSave {s : State} {w : RowWrite} (hlog : s.canLog = true) (hrun : s.tly.running = some w) :
    completes .lifetimeCounterSave s (fun u => changesOnly [.tly] s u ∧ u.tly.queue.length = s.tly.queue.length + 6 ∧
      s.tly.queue <+: u.tly.queue ∧
      (∀ x ∈ u.tly.queue.drop s.tly.queue.length, x.rank = 6 ∧ x.owner = 0 ∧ (x.part = 1 ∨ x.part = 3))) := by
  obtain ⟨hframe, _, l, hqueue, hlen, hrows⟩ := asksCounts_lifetimeCounterSave hrun
  refine ⟨_, congrArg Host.Outcome.next (if_pos hlog), hframe, ?_⟩
  rw [hqueue, List.length_append, hlen, List.drop_left]
  exact ⟨rfl, List.prefix_append _ l, hrows⟩

/-- Settles O40, clause by clause. -/
theorem tallyRowWrites : Obligations.TallyRowWrites := by
  unfold Obligations.TallyRowWrites
  refine ⟨?ran, ?idle, ?starts, ?defers, ?late, ?lap, ?refresh, ?noLap, ?counts, ?closed⟩
  case ran => exact fun t w s hrun hqueue hown hflip => ⟨_, exec_tallyRowWriteComplete hrun hqueue hown hflip,
    changesOnly_of_tick (changesOnly_setTly (s.tick t) _), rfl⟩
  case idle => exact fun t s hrun => exec_tallyRowWriteComplete_none hrun
  case starts =>
    intro t w s hnone hone hrank
    have hkick := tallyKick_of_one (s := { s.tick t with tly := { s.tly with rail0 := true, holdUp := true } }) hnone hone hrank rfl rfl
    exact ⟨_, congrArg Host.Outcome.next hkick, changesOnly_of_tick (changesOnly_setTly (s.tick t) _), rfl⟩
  case defers =>
    intro t b s hdef
    have hkick := tallyKick_of_deferred (s := { s.tick t with tly := { s.tly with rail0 := false, holdUp := b } }) rfl hdef
    exact ⟨_, congrArg Host.Outcome.next hkick, rfl, changesOnly_of_tick (changesOnly_setTly (s.tick t) _)⟩
  case late =>
    intro t mv w s hdef hfirst hone hrank hwait hlate
    exact ⟨_, exec_tallyDeferralLimit hdef hfirst hone hrank hwait hlate, rfl,
      changesOnly_of_tick (changesOnly_append (changesOnly_setTly (s.tick t) _) (changesOnly_ev 0x5A2 1 _ 1 _))⟩
  case lap => exact fun t l r s hdue hrun => completes_tallyRefreshLap hdue hrun
  case refresh => exact fun r h => refresh_spec h
  case noLap => exact fun t l r s h => if_pos (.inl h)
  case counts => exact fun w s hlog hrun => completes_lifetimeCounterSave hlog hrun
  case closed => exact fun s hlog => congrArg Host.Outcome.next (if_neg (ne_true_of_eq_false hlog))

end Sys2Proof.Proofs
end

section
/-! PROOFS of the statement about power-ups (11_supplies_domains_thermal). -/

namespace Sys2Proof.Proofs

open Sys2Proof Sys2Proof.Machine Sys2Proof.Safety Sys2Proof.Laws

/-! ## Rails -/

theorem changesOnly_setRail (s : State) (r : Nat) (x : Rail) : changesOnly [.pwr] s (s.setRail r x) := changesOnly_setPwr s _

theorem rail_tick (s : State) (t r : Nat) : (s.tick t).rail r = s.rail r := rfl
theorem slotOf_tick (s : State) (t r : Nat) : (s.tick t).slotOf r = s.slotOf r := rfl
theorem covers_tick (s : State) (t r : Nat) : (s.tick t).covers r = s.covers r := rfl

/-! ## Inputs that qualify, and on requests (R297, R303) -/

/-- The inputs are qualified. -/
def inputTaken (s : State) : State := { s with pwr := { s.pwr with qualified := true } }

/-- A power-up has begun: the supplies at its common start. -/
def upBegun (p : Power) (now attempt : Nat) : Power :=
  { p with sequence := 1, common := now, covered := 0, attempts := attempt, onHeld := false, offUntil := none }

theorem changesOnly_beginPowerUp (s : State) (attempt : Nat) : changesOnly [.pwr, .thm] s (s.beginPowerUp attempt) :=
  changesOnly_append (changesOnly_setPwr s (upBegun s.pwr s.now attempt)) (changesOnly_setThm _ { s.thm with heldAt := none })

theorem sequence_of_mayPowerUp {s : State} (h : s.mayPowerUp = true) : s.pwr.sequence = 0 := by
  simp only [State.mayPowerUp, Bool.and_eq_true, beq_iff_eq] at h
  exact h.1.1.2

theorem onRequest_of_mayPowerUp {s : State} (h : s.mayPowerUp = true) (hdown : s.downRuns = false) : s.onRequest = s.beginPowerUp 1 := by
  have hup : ¬ s.pwr.sequence = 2 := by
    rw [sequence_of_mayPowerUp h]
    decide
  exact (if_neg hup).trans ((if_neg (ne_true_of_eq_false hdown)).trans (if_pos h))

theorem onRequest_in_powerDown {s : State} (h : s.pwr.sequence = 2) (hfirst : s.pwr.onHeld = false) :
    s.onRequest = ev 0x515 0 [50] 255 { s with pwr := { s.pwr with onHeld := true } } :=
  (if_pos h).trans (if_neg (ne_true_of_eq_false hfirst))

/-- The levels have held for 5 ms. -/
def levelsHeld (s : State) : Bool :=
  match s.pwr.okSince with
  | some a => decide (a + 5 * msec ≤ s.now)
  | none => false

theorem levelsHeld_eq {s : State} {a : Nat} (h : s.pwr.okSince = some a) : levelsHeld s = decide (a + 5 * msec ≤ s.now) := by
  unfold levelsHeld
  rw [h]

theorem exec_inputQualified_eq (t : Nat) (s : State) : exec (.inputQualified t) s =
    .next (if s.inputsOk && levelsHeld (s.tick t) && !s.pwr.qualified then (inputTaken (s.tick t)).onRequest else s.tick t) := rfl

section
variable {t a : Nat} {s : State} (ha : s.pwr.okSince = some a)
include ha

theorem exec_inputQualified (hok : s.inputsOk = true) (hnew : s.pwr.qualified = false) (hdue : a + 5 * msec ≤ max s.now t) :
    exec (.inputQualified t) s = .next (inputTaken (s.tick t)).onRequest := by
  have hgo : (s.inputsOk && levelsHeld (s.tick t) && !s.pwr.qualified) = true := by
    rw [hok, levelsHeld_eq (s := s.tick t) ha, State.tick_now, decide_eq_true hdue, hnew]
    rfl
  exact (exec_inputQualified_eq t s).trans (congrArg Host.Outcome.next (if_pos hgo))

theorem exec_inputQualified_early (hearly : max s.now t < a + 5 * msec) : exec (.inputQualified t) s = .next (s.tick t) := by
  have hstay : ¬ (s.inputsOk && levelsHeld (s.tick t) && !s.pwr.qualified) = true := by
    rw [levelsHeld_eq (s := s.tick t) ha, State.tick_now, decide_eq_false (Nat.not_le.2 hearly), Bool.and_false]
    exact Bool.false_ne_true
  exact (exec_inputQualified_eq t s).trans (congrArg Host.Outcome.next (if_neg hstay))

theorem completes_inputQualified (hok : s.inputsOk = true) (hnew : s.pwr.qualified = false) (hdue : a + 5 * msec ≤ max s.now t)
    (hmay : s.mayPowerUp = true) (hdown : (s.tick t).downRuns = false) : completes (.inputQualified t) s (fun u =>
      changesOnly [.time, .pwr, .thm] s u ∧ u.thm.sensors = s.thm.sensors ∧ u.pwr = { s.pwr with
        qualified := true, sequence := 1, common := max s.now t, covered := 0, attempts := 1, onHeld := false, offUntil := none }) := by
  have hup := onRequest_of_mayPowerUp (s := inputTaken (s.tick t)) hmay hdown
  have htaken : changesOnly [.pwr] (s.tick t) (inputTaken (s.tick t)) := changesOnly_setPwr _ _
  refine ⟨_, (exec_inputQualified ha hok hnew hdue).trans (congrArg Host.Outcome.next hup), ?_, rfl, rfl⟩
  exact changesOnly_mono (by decide) (changesOnly_of_tick (changesOnly_append htaken (changesOnly_beginPowerUp _ 1)))

theorem completes_inputQualified_held (hok : s.inputsOk = true) (hnew : s.pwr.qualified = false) (hdue : a + 5 * msec ≤ max s.now t)
    (hseq : s.pwr.sequence = 2) (hfirst : s.pwr.onHeld = false) : completes (.inputQualified t) s (fun u =>
      u.pwr = { s.pwr with qualified := true, onHeld := true } ∧ changesOnly [.time, .pwr, .out, .events] s u) := by
  have hheld := onRequest_in_powerDown (s := inputTaken (s.tick t)) hseq hfirst
  have hpwr : changesOnly [.pwr] (s.tick t) { s.tick t with pwr := { s.pwr with qualified := true, onHeld := true } } :=
    changesOnly_setPwr _ _
  refine ⟨_, (exec_inputQualified ha hok hnew hdue).trans (congrArg Host.Outcome.next hheld), rfl, ?_⟩
  exact changesOnly_of_tick (changesOnly_append hpwr (changesOnly_ev 0x515 0 [50] 255 _))

end

/-! ## Rails that come on (R303) -/

section
variable {t : Nat} {rail : Fin 14} {s : State}

theorem exec_railEnableSlot (h0 : rail.val ≠ 0) (hseq : s.pwr.sequence = 1) (hoff : (s.rail rail.val).enabled = false)
    (hdue : s.pwr.common + 10000 * (s.slotOf rail.val).on ≤ max s.now t) :
    exec (.railEnableSlot t rail) s = .next ((s.tick t).setRail rail.val
      { s.rail rail.val with enabled := true, pg := false, enabledAt := max s.now t }) := by
  have hgo : rail.val ≠ 0 ∧ s.pwr.sequence = 1 ∧ (!(s.rail rail.val).enabled) = true ∧
      s.pwr.common + 10000 * (s.slotOf rail.val).on ≤ max s.now t := ⟨h0, hseq, by rw [hoff]; rfl, hdue⟩
  exact congrArg Host.Outcome.next (if_pos hgo)

/-- The power-good of rail r is there. -/
def railGood (s : State) (r : Nat) : State := s.setRail r { s.rail r with pg := true }

/-- With rail 13 the charger runs. -/
def chargerOn (s : State) (r : Nat) : State :=
  if r = 13 then { s with pfl := { s.pfl with charging := true, discharging := false } } else s

theorem changesOnly_chargerOn (s : State) (r : Nat) : changesOnly [.pfl] s (chargerOn s r) := by
  unfold chargerOn
  split
  · exact changesOnly_setPfl s _
  · exact changesOnly_refl _ s

theorem chargerOn_pfl (s : State) (r : Nat) :
    (chargerOn s r).pfl = if r = 13 then { s.pfl with charging := true, discharging := false } else s.pfl := by
  unfold chargerOn
  split <;> rfl

theorem chargerOn_pwr (s : State) (r : Nat) : (chargerOn s r).pwr = s.pwr := changesOnly_chargerOn s r .pwr rfl

/-- The last power-good ends the power-up. -/
def upJudged (s : State) : State := if s.railsOn then { s with pwr := { s.pwr with sequence := 0, attempts := 0 } } else s

theorem changesOnly_upJudged (s : State) : changesOnly [.pwr] s (upJudged s) := by
  unfold upJudged
  split
  · exact changesOnly_setPwr s _
  · exact changesOnly_refl _ s

theorem upJudged_rails (s : State) : (upJudged s).pwr.rails = s.pwr.rails := by
  unfold upJudged
  split <;> rfl

theorem upJudged_sequence (s : State) : (upJudged s).pwr.sequence = if (upJudged s).railsOn then 0 else s.pwr.sequence := by
  have hon : (upJudged s).railsOn = s.railsOn := by
    unfold State.railsOn
    rw [upJudged_rails]
  rw [hon]
  unfold upJudged
  split <;> rfl

theorem exec_railPowerGood (h0 : rail.val ≠ 0) (hseq : s.pwr.sequence = 1) (hon : (s.rail rail.val).enabled = true)
    (hpg : (s.rail rail.val).pg = false) (hat : (s.rail rail.val).enabledAt ≤ max s.now t)
    (htime : 2 * (max s.now t - (s.rail rail.val).enabledAt) ≤ 10000 * (s.slotOf rail.val).pg) :
    exec (.railPowerGood t rail) s = .next (upJudged (chargerOn (railGood (s.tick t) rail.val) rail.val)) := by
  have hgo : ¬ (rail.val = 0 ∨ s.pwr.sequence ≠ 1 ∨ (!(s.rail rail.val).enabled) = true ∨ (s.rail rail.val).pg = true ∨
      (s.rail rail.val).enabledAt + 10000 * (s.slotOf rail.val).pg < max s.now t) := by
    rw [hon, hpg]
    simp only [not_or]
    exact ⟨h0, not_not.2 hseq, by decide, by decide, by omega⟩
  change execRailPowerGood t rail s = _
  unfold execRailPowerGood
  dsimp only
  rw [State.tick_pwr, rail_tick, slotOf_tick, State.tick_now, if_neg hgo, decide_eq_false (Nat.not_lt.2 htime),
    if_neg Bool.false_ne_true, if_neg Bool.false_ne_true]
  rfl

theorem completes_railPowerGood (h0 : rail.val ≠ 0) (hseq : s.pwr.sequence = 1) (hon : (s.rail rail.val).enabled = true)
    (hpg : (s.rail rail.val).pg = false) (hat : (s.rail rail.val).enabledAt ≤ max s.now t)
    (htime : 2 * (max s.now t - (s.rail rail.val).enabledAt) ≤ 10000 * (s.slotOf rail.val).pg) :
    completes (.railPowerGood t rail) s (fun u =>
      u.pwr.rails = setAt s.pwr.rails rail.val { s.rail rail.val with pg := true } ∧
      (u.railsOn = true → u.pwr.sequence = 0) ∧ (u.railsOn = false → u.pwr.sequence = 1) ∧
      (rail.val = 13 → u.pfl = { s.pfl with charging := true, discharging := false }) ∧ (rail.val ≠ 13 → u.pfl = s.pfl) ∧
      changesOnly [.time, .pwr, .pfl] s u) := by
  have hgood := changesOnly_setRail (s.tick t) rail.val { s.rail rail.val with pg := true }
  have hcharger := changesOnly_append hgood (changesOnly_chargerOn (railGood (s.tick t) rail.val) rail.val)
  have hjudged := changesOnly_upJudged (chargerOn (railGood (s.tick t) rail.val) rail.val)
  have hpwr := chargerOn_pwr (railGood (s.tick t) rail.val) rail.val
  have hsequence := upJudged_sequence (chargerOn (railGood (s.tick t) rail.val) rail.val)
  have hpfl := (hjudged .pfl rfl).trans (chargerOn_pfl (railGood (s.tick t) rail.val) rail.val)
  refine ⟨_, exec_railPowerGood h0 hseq hon hpg hat htime, (upJudged_rails _).trans (congrArg Power.rails hpwr), fun h => ?_,
    fun h => ?_, fun h => hpfl.trans (if_pos h), fun h => hpfl.trans (if_neg h), ?_⟩
  · exact hsequence.trans (if_pos h)
  · exact hsequence.trans ((if_neg (ne_true_of_eq_false h)).trans ((congrArg Power.sequence hpwr).trans hseq))
  · exact changesOnly_mono (by decide) (changesOnly_of_tick (changesOnly_append hcharger hjudged))

/-! ## The minimum off time (Table 11-5) -/

/-- The minimum off time is over, and no on request is held. -/
def offTimeOver (s : State) : State := { s with pwr := { s.pwr with offUntil := none, onHeld := false } }

theorem exec_minimumOffTimeEnd {e : Nat} (he : s.pwr.offUntil = some e) (hdue : e ≤ max s.now t) :
    exec (.minimumOffTimeEnd t) s = .next (if (offTimeOver (s.tick t)).inputsOk && (offTimeOver (s.tick t)).mayPowerUp then
      (offTimeOver (s.tick t)).beginPowerUp (s.pwr.attempts + 1) else offTimeOver (s.tick t)) := by
  change execMinimumOffTimeEnd t s = _
  unfold execMinimumOffTimeEnd
  dsimp only
  rw [State.tick_pwr, he]
  exact if_neg (Nat.not_lt.2 hdue)

theorem exec_minimumOffTimeEnd_early {e : Nat} (he : s.pwr.offUntil = some e) (hearly : max s.now t < e) :
    exec (.minimumOffTimeEnd t) s = .next (s.tick t) := by
  change execMinimumOffTimeEnd t s = _
  unfold execMinimumOffTimeEnd
  dsimp only
  rw [State.tick_pwr, he]
  exact if_pos hearly

theorem completes_minimumOffTimeEnd {e : Nat} (he : s.pwr.offUntil = some e) (hdue : e ≤ max s.now t) :
    completes (.minimumOffTimeEnd t) s (fun u => u.pwr.offUntil = none ∧ u.pwr.onHeld = false ∧
      (s.inputsOk = false → u.pwr.sequence = s.pwr.sequence) ∧ changesOnly [.time, .pwr, .thm] s u) := by
  have hover : changesOnly [.pwr] (s.tick t) (offTimeOver (s.tick t)) := changesOnly_setPwr _ _
  have hup := changesOnly_append hover (changesOnly_beginPowerUp (offTimeOver (s.tick t)) (s.pwr.attempts + 1))
  refine ⟨_, exec_minimumOffTimeEnd he hdue, ?_⟩
  split
  next h =>
    have hin : s.inputsOk = true := (Bool.and_eq_true_iff.1 h).1
    exact ⟨rfl, rfl, fun hout => absurd (hin.symm.trans hout) (by decide), changesOnly_mono (by decide) (changesOnly_of_tick hup)⟩
  next => exact ⟨rfl, rfl, fun _ => rfl, changesOnly_mono (by decide) (changesOnly_of_tick hover)⟩

end

/-- Settles O17, clause by clause. -/
theorem powerUpSequence : Obligations.PowerUpSequence := by
  unfold Obligations.PowerUpSequence
  refine ⟨?qualified, ?held, ?early, ?enable, ?good, ?offTime, ?offEarly⟩
  case qualified => exact fun t a s hok hnew ha hdue hmay hdown => completes_inputQualified ha hok hnew hdue hmay hdown
  case held => exact fun t a s hok hnew ha hdue hseq hfirst => completes_inputQualified_held ha hok hnew hdue hseq hfirst
  case early => exact fun t a s ha hearly => exec_inputQualified_early ha hearly
  case enable => exact fun t rail s h0 hseq hoff hdue => exec_railEnableSlot h0 hseq hoff hdue
  case good => exact fun t rail s h0 hseq hon hpg hat htime => completes_railPowerGood h0 hseq hon hpg hat htime
  case offTime => exact fun t e s he hdue => completes_minimumOffTimeEnd he hdue
  case offEarly => exact fun t e s he hearly => exec_minimumOffTimeEnd_early he hearly

end Sys2Proof.Proofs
end

section
/-! PROOFS of the statement about power-downs (11_supplies_domains_thermal). -/

namespace Sys2Proof.Proofs

open Sys2Proof Sys2Proof.Machine Sys2Proof.Safety Sys2Proof.Laws

/-! ## Rails that go off (R304) -/

section
variable {t : Nat} {rail : Fin 14} {s : State}

/-- Rail r is disabled. -/
def railDisabled (s : State) (r : Nat) : State := s.setRail r { s.rail r with enabled := false, disabledAt := s.now }

/-- With rail 13 the charger stops and VSTORE is discharged. -/
def chargerOff (s : State) (r : Nat) : State :=
  if r = 13 then { s with pfl := { s.pfl with charging := false, discharging := true } } else s

theorem changesOnly_chargerOff (s : State) (r : Nat) : changesOnly [.pfl] s (chargerOff s r) := by
  unfold chargerOff
  split
  · exact changesOnly_setPfl s _
  · exact changesOnly_refl _ s

theorem chargerOff_pfl (s : State) (r : Nat) :
    (chargerOff s r).pfl = if r = 13 then { s.pfl with charging := false, discharging := true } else s.pfl := by
  unfold chargerOff
  split <;> rfl

theorem exec_railDisableSlot (hcov : s.covers rail.val = true) (hon : (s.rail rail.val).enabled = true)
    (hpg : (s.rail rail.val).pg = true) (hdue : s.pwr.common + 10000 * (s.slotOf rail.val).off ≤ max s.now t) :
    exec (.railDisableSlot t rail) s = .next (chargerOff (railDisabled (s.tick t) rail.val) rail.val) := by
  have hgo : ¬ (!s.covers rail.val || !(s.rail rail.val).enabled ||
      decide (max s.now t < s.pwr.common + 10000 * (s.slotOf rail.val).off)) = true := by
    rw [hcov, hon, decide_eq_false (Nat.not_lt.2 hdue)]
    decide
  exact (if_neg hgo).trans (congrArg Host.Outcome.next (if_pos hpg))

theorem completes_railDisableSlot (hcov : s.covers rail.val = true) (hon : (s.rail rail.val).enabled = true)
    (hpg : (s.rail rail.val).pg = true) (hdue : s.pwr.common + 10000 * (s.slotOf rail.val).off ≤ max s.now t) :
    completes (.railDisableSlot t rail) s (fun u =>
      u.pwr = { s.pwr with
        rails := setAt s.pwr.rails rail.val { s.rail rail.val with enabled := false, disabledAt := max s.now t } } ∧
      (rail.val = 13 → u.pfl = { s.pfl with charging := false, discharging := true }) ∧ (rail.val ≠ 13 → u.pfl = s.pfl) ∧
      changesOnly [.time, .pwr, .pfl] s u) := by
  have hoff : changesOnly [.pwr] (s.tick t) (railDisabled (s.tick t) rail.val) := changesOnly_setRail _ _ _
  have hcharger := changesOnly_chargerOff (railDisabled (s.tick t) rail.val) rail.val
  have hpfl := chargerOff_pfl (railDisabled (s.tick t) rail.val) rail.val
  exact ⟨_, exec_railDisableSlot hcov hon hpg hdue, hcharger .pwr rfl, fun h => hpfl.trans (if_pos h), fun h => hpfl.trans (if_neg h),
    changesOnly_of_tick (changesOnly_append hoff hcharger)⟩

/-! ## Power-good that falls (R304) -/

/-- A power-good fell before its rail was disabled: an early loss, counted. -/
def lossCounted (x : Rail) : Rail := { x with pg := false, pgLost := min 65535 (x.pgLost + 1) }

theorem exec_railPgDeassert_early (hcov : s.covers rail.val = true) (hon : (s.rail rail.val).enabled = true)
    (hpg : (s.rail rail.val).pg = true) : exec (.railPgDeassert t rail) s =
      .next (ev 0x50F 1 [rail.val, 0] 255 ((s.tick t).setRail rail.val (lossCounted (s.rail rail.val)))) := by
  have hgood : ¬ (!(s.rail rail.val).pg) = true := by rw [hpg]; decide
  exact (if_neg hgood).trans ((if_pos hcov).trans (if_pos hon))

/-- A rail that is disabled has done its part of the power-down, and others have not. -/
theorem exec_railPgDeassert (hcov : s.covers rail.val = true) (hoff : (s.rail rail.val).enabled = false)
    (hpg : (s.rail rail.val).pg = true) (hmore : s.pwr.covered &&& ~~~(BitVec.twoPow 14 rail.val) ≠ 0) :
    exec (.railPgDeassert t rail) s = .next { s.tick t with pwr := { s.pwr with
      rails := setAt s.pwr.rails rail.val { s.rail rail.val with pg := false },
      covered := s.pwr.covered &&& ~~~(BitVec.twoPow 14 rail.val) } } := by
  have hgood : ¬ (!(s.rail rail.val).pg) = true := by rw [hpg]; decide
  exact (if_neg hgood).trans ((if_pos hcov).trans ((if_neg (ne_true_of_eq_false hoff)).trans (congrArg Host.Outcome.next (if_neg hmore))))

/-! ## A power-up that fails (R305) -/

theorem offRequest_pwr (s : State) : ∃ c, s.offRequest.pwr = { s.pwr with sequence := 2, common := s.now, covered := c } := ⟨_, rfl⟩

theorem changesOnly_offRequest (s : State) : changesOnly [.out, .events, .pwr] s s.offRequest :=
  changesOnly_mono (by decide) (changesOnly_append (changesOnly_append (changesOnly_setFresh s (s.fresh + 1))
    (changesOnly_ev 0x514 1 [s.lastSlot, Config.free s.fresh] 255 _)) (changesOnly_beginPowerDown _))

/-- A power-good that did not come is counted. -/
def timeoutCounted (s : State) (r : Nat) : State :=
  ev 0x50E 2 [r, s.pwr.attempts] 255 (s.setRail r { s.rail r with timeouts := min 65535 ((s.rail r).timeouts + 1) })

/-- The power-up is tried again after a first failure; a second leaves the rails off. -/
def attemptFailed (s : State) : State :=
  { s with pwr := { s.pwr with onHeld := decide (s.pwr.attempts = 1), latchedOff := !decide (s.pwr.attempts = 1) } }

theorem exec_railPgTimeout (hseq : s.pwr.sequence = 1) (hon : (s.rail rail.val).enabled = true) (hpg : (s.rail rail.val).pg = false)
    (hlate : (s.rail rail.val).enabledAt + 10000 * (s.slotOf rail.val).pg ≤ max s.now t) :
    exec (.railPgTimeout t rail) s = .next (attemptFailed (timeoutCounted (s.tick t) rail.val)).offRequest := by
  have hgo : s.pwr.sequence = 1 ∧ (s.rail rail.val).enabled = true ∧ (!(s.rail rail.val).pg) = true ∧
      (s.rail rail.val).enabledAt + 10000 * (s.slotOf rail.val).pg ≤ max s.now t := ⟨hseq, hon, by rw [hpg]; rfl, hlate⟩
  exact if_pos hgo

theorem completes_railPgTimeout (hseq : s.pwr.sequence = 1) (hon : (s.rail rail.val).enabled = true) (hpg : (s.rail rail.val).pg = false)
    (hlate : (s.rail rail.val).enabledAt + 10000 * (s.slotOf rail.val).pg ≤ max s.now t) :
    completes (.railPgTimeout t rail) s (fun u =>
      u.pwr.rails = setAt s.pwr.rails rail.val { s.rail rail.val with timeouts := min 65535 ((s.rail rail.val).timeouts + 1) } ∧
      u.pwr.sequence = 2 ∧ u.pwr.common = max s.now t ∧ (u.pwr.onHeld = true ↔ s.pwr.attempts = 1) ∧
      (u.pwr.latchedOff = true ↔ s.pwr.attempts ≠ 1) ∧ changesOnly [.time, .pwr, .out, .events] s u) := by
  have hcount : changesOnly [.pwr, .out, .events] (s.tick t) (timeoutCounted (s.tick t) rail.val) :=
    changesOnly_append (changesOnly_setRail _ _ _) (changesOnly_ev 0x50E 2 _ 255 _)
  have hfail : changesOnly [.pwr] _ (attemptFailed (timeoutCounted (s.tick t) rail.val)) := changesOnly_setPwr _ _
  have hdown := changesOnly_offRequest (attemptFailed (timeoutCounted (s.tick t) rail.val))
  obtain ⟨c, hpwr⟩ := offRequest_pwr (attemptFailed (timeoutCounted (s.tick t) rail.val))
  have hlatched : (!decide (s.pwr.attempts = 1)) = true ↔ s.pwr.attempts ≠ 1 := by
    rw [Bool.not_eq_true', decide_eq_false_iff_not]
  refine ⟨_, exec_railPgTimeout hseq hon hpg hlate, ?_⟩
  dsimp only
  rw [hpwr]
  exact ⟨rfl, rfl, rfl, decide_eq_true_iff, hlatched,
    changesOnly_mono (by decide) (changesOnly_of_tick (changesOnly_append (changesOnly_append hcount hfail) hdown))⟩

/-! ## No sequence -/

theorem exec_rail_noSequence (hseq : s.pwr.sequence = 0) :
    exec (.railDisableSlot t rail) s = .next (s.tick t) ∧ exec (.railPgTimeout t rail) s = .next (s.tick t) ∧
    exec (.railPgDeassert t rail) s = .next (s.tick t) ∧ exec (.railEnableSlot t rail) s = .next (s.tick t) := by
  have hcov : s.covers rail.val = false := by
    unfold State.covers
    rw [hseq]
    rfl
  have hup : ¬ s.pwr.sequence = 1 := by
    rw [hseq]
    decide
  have hdown : (!s.covers rail.val || !(s.rail rail.val).enabled ||
      decide (max s.now t < s.pwr.common + 10000 * (s.slotOf rail.val).off)) = true := by rw [hcov]; rfl
  have hoff : ¬ s.covers rail.val = true := ne_true_of_eq_false hcov
  refine ⟨if_pos hdown, (if_neg (fun h => hup h.1)).trans (if_neg (fun h => hoff h.1)), ?_,
    congrArg Host.Outcome.next (if_neg (fun h => hup h.2.1))⟩
  exact (congrArg _ ((if_neg hoff).trans (if_neg hup))).trans (ite_self _)

end

/-- Settles O18, clause by clause. -/
theorem powerDownSequence : Obligations.PowerDownSequence := by
  unfold Obligations.PowerDownSequence
  refine ⟨?disable, ?early, ?deassert, ?timeout, ?noSequence⟩
  case disable => exact fun t rail s hcov hon hpg hdue => completes_railDisableSlot hcov hon hpg hdue
  case early =>
    exact fun t rail s hcov hon hpg => ⟨_, exec_railPgDeassert_early hcov hon hpg, rfl,
      changesOnly_of_tick (changesOnly_append (changesOnly_setRail (s.tick t) _ _) (changesOnly_ev 0x50F 1 _ 255 _))⟩
  case deassert =>
    exact fun t rail s hcov hoff hpg hmore => ⟨_, exec_railPgDeassert hcov hoff hpg hmore, rfl,
      changesOnly_of_tick (changesOnly_setPwr (s.tick t) _)⟩
  case timeout => exact fun t rail s hseq hon hpg hlate => completes_railPgTimeout hseq hon hpg hlate
  case noSequence => exact fun t rail s hseq => exec_rail_noSequence hseq

end Sys2Proof.Proofs
end

section
/-! PROOFS: what a card that stops serving leaves (09_persistence_and_power_fail, 11_supplies_domains_thermal). -/

namespace Sys2Proof.Proofs

open Sys2Proof Sys2Proof.Machine Sys2Proof.Safety Sys2Proof.Laws

/-! ## Requests, link, commands and programs are given up -/

/-- The host's requests, the link, the commands and the programs are given up. -/
def released (s : State) : State := s.freeContexts.linkDown.abandonCommands.abandonPrograms

theorem gaveUp_eq (s : State) : gaveUp s = released s.mergeFills := rfl

theorem changesOnly_freeContexts (s : State) : changesOnly [.qos] s s.freeContexts := changesOnly_setQos s _

theorem changesOnly_mergeFills (s : State) : changesOnly [.cch] s s.mergeFills := changesOnly_setCch s _

theorem changesOnly_released (s : State) : changesOnly [.qos, .link, .out, .tly, .key, .med, .map] s (released s) :=
  changesOnly_mono (by decide) (changesOnly_append (changesOnly_append (changesOnly_append (changesOnly_freeContexts s)
    (changesOnly_linkDown _)) (changesOnly_abandonCommands _)) (changesOnly_abandonPrograms _))

theorem linkDown_heldDown (s : State) : s.linkDown.link.heldDown = s.link.heldDown := by
  unfold State.linkDown
  split <;> rfl

theorem released_link (s : State) : (released s).link.protocol = 0 ∧ (released s).link.heldDown = s.link.heldDown := by
  have hlink : (released s).link = s.freeContexts.linkDown.abandonCommands.link := changesOnly_abandonPrograms _ .link rfl
  rw [hlink]
  exact ⟨linkDown_protocol _, linkDown_heldDown s.freeContexts⟩

theorem released_qos (s : State) : (released s).qos = s.freeContexts.qos :=
  changesOnly_append (changesOnly_linkDown s.freeContexts)
    (changesOnly_append (changesOnly_abandonCommands _) (changesOnly_abandonPrograms _)) .qos rfl

theorem released_slots (s : State) : (released s).key.slots = s.key.slots := by
  have hkey : (released s).key = s.freeContexts.linkDown.abandonCommands.key := changesOnly_abandonPrograms _ .key rfl
  have hlink : s.freeContexts.linkDown.key = s.key := changesOnly_linkDown s.freeContexts .key rfl
  have hcommands := congrArg Keys.slots hlink
  rw [hkey]
  exact hcommands

theorem released_rows (s : State) : (released s).tly.rows = s.tly.rows := by
  have htly : (released s).tly = s.freeContexts.linkDown.abandonCommands.tly := changesOnly_abandonPrograms _ .tly rfl
  have hlink : s.freeContexts.linkDown.tly = s.tly := changesOnly_linkDown s.freeContexts .tly rfl
  have hcommands := congrArg Tally.rows hlink
  rw [htly]
  exact hcommands

/-! ## What was accepted and stored stays -/

/-- From s to u the near cache stays but for fills that end, and the key slots and the tally rows stay. -/
structure KeepsStored (s u : State) : Prop where
  near : s.cch.near.all (fun e => !e.2.filling) = true → u.cch.near = s.cch.near
  slots : u.key.slots = s.key.slots
  rows : u.tly.rows = s.tly.rows

theorem KeepsStored.of_eq {s u : State} (hcch : u.cch = s.cch) (hkey : u.key = s.key) (htly : u.tly = s.tly) : KeepsStored s u :=
  ⟨fun _ => congrArg Caches.near hcch, congrArg Keys.slots hkey, congrArg Tally.rows htly⟩

theorem KeepsStored.trans {s t u : State} (h : KeepsStored s t) (k : KeepsStored t u) : KeepsStored s u where
  near hidle := (k.near ((h.near hidle).symm ▸ hidle)).trans (h.near hidle)
  slots := k.slots.trans h.slots
  rows := k.rows.trans h.rows

/-- Near lines that no fill is on its way to are as they were. -/
theorem mergeFills_near_of_idle {s : State} (h : s.cch.near.all (fun e => !e.2.filling) = true) :
    s.mergeFills.cch.near = s.cch.near := by
  refine (List.map_congr_left fun e he => ?_).trans (List.map_id _)
  have hidle : e.2.filling = false := by simpa using List.all_eq_true.1 h e he
  simp [hidle]

theorem keepsStored_released (s : State) : KeepsStored s (released s) :=
  ⟨fun _ => congrArg Caches.near (changesOnly_released s .cch rfl), released_slots s, released_rows s⟩

theorem keepsStored_gaveUp (s : State) : KeepsStored s (gaveUp s) :=
  KeepsStored.trans ⟨mergeFills_near_of_idle, rfl, rfl⟩ (keepsStored_released s.mergeFills)

/-! ## The card stops serving with no dump -/

theorem stopServing_eq (s : State) : s.stopServing = { released s with
    pfl := { (released s).pfl.dropTest with flush := none, charging := false },
    thm := { (released s).thm with stopping := none } } := rfl

theorem changesOnly_released_stopServing (s : State) : changesOnly [.pfl, .thm] (released s) s.stopServing := by
  have hstop : ∀ (u : State) (p : Persist) (y : Thermal), changesOnly [.pfl, .thm] u { u with pfl := p, thm := y } := fun u p y =>
    changesOnly_append (changesOnly_setPfl u p) (changesOnly_setThm { u with pfl := p } y)
  rw [stopServing_eq]
  exact hstop (released s) _ _

theorem changesOnly_stopServing (s : State) : changesOnly [.qos, .link, .out, .tly, .key, .med, .map, .pfl, .thm] s s.stopServing :=
  changesOnly_append (changesOnly_released s) (changesOnly_released_stopServing s)

theorem stopServing_pfl (s : State) : s.stopServing.pfl = { s.pfl.dropTest with flush := none, charging := false } := by
  have hpfl : (released s).pfl = s.pfl := changesOnly_released s .pfl rfl
  rw [stopServing_eq, hpfl]

theorem stopServing_thm (s : State) : s.stopServing.thm = { s.thm with stopping := none } := by
  have hthm : (released s).thm = s.thm := changesOnly_released s .thm rfl
  rw [stopServing_eq, hthm]

theorem stopServing_link (s : State) : s.stopServing.link.protocol = 0 := by
  have hlink : s.stopServing.link = (released s).link := changesOnly_released_stopServing s .link rfl
  rw [hlink]
  exact (released_link s).1

theorem stopServing_qos (s : State) : s.stopServing.qos = s.freeContexts.qos :=
  (changesOnly_released_stopServing s .qos rfl).trans (released_qos s)

theorem stopServing_cch (s : State) : s.stopServing.cch = s.cch := changesOnly_stopServing s .cch rfl

theorem keepsStored_stopServing (s : State) : KeepsStored s s.stopServing :=
  have hframe := changesOnly_released_stopServing s
  (keepsStored_released s).trans (.of_eq (hframe .cch rfl) (hframe .key rfl) (hframe .tly rfl))

/-- The power-down has begun at the present time. -/
theorem beginPowerDown_pwr (s : State) : ∃ c, s.beginPowerDown.pwr = { s.pwr with sequence := 2, common := s.now, covered := c } := ⟨_, rfl⟩

/-! ## The card stops serving with a dump, or without one for want of a slot -/

/-- What the beginning of a dump does after the card gave up what it served. -/
theorem beginDump_spec {s : State} (hd : s.pfl.dump = none) (cause : Nat) :
    changesOnly [.pwr, .pfl, .thm, .out, .events] (gaveUp s) (s.beginDump cause) ∧
      (s.beginDump cause).pwr.needPerst = (s.pwr.needPerst || cause != 0) ∧
      (s.beginDump cause).thm = { s.thm with stopping := none } := by
  have hnone : ¬ s.pfl.dump.isSome = true := by simp [hd]
  have hthm : s.quiesce.thm = { s.thm with stopping := none } := by
    have hup : (gaveUp s).thm = s.thm := changesOnly_gaveUp s .thm rfl
    rw [← hup]
    rfl
  have hquiet := changesOnly_mono (m := [.pwr, .pfl, .thm, .out, .events]) (by decide) (changesOnly_gaveUp_quiesce s)
  unfold State.beginDump
  rw [if_neg hnone]
  extract_lets z p q
  have hz : changesOnly [.pfl] s.quiesce z := changesOnly_powerFailed _ _ _
  have hzpwr : z.pwr = s.quiesce.pwr := hz .pwr rfl
  have hzneed : z.pwr.needPerst = s.pwr.needPerst := by rw [hzpwr, quiesce_pwr]
  have hq : changesOnly [.pwr, .pfl, .thm, .out, .events] (gaveUp s) q := changesOnly_trans hquiet
    (changesOnly_trans (changesOnly_mono (by decide) hz) (changesOnly_mono (by decide) (changesOnly_setPwr z _)))
  have hqthm : q.thm = { s.thm with stopping := none } := (hz .thm rfl).trans hthm
  have hqneed : q.pwr.needPerst = (s.pwr.needPerst || cause != 0) := congrArg (· || cause != 0) hzneed
  clear_value q
  have hdown : changesOnly [.pwr, .pfl, .thm, .out, .events] (gaveUp s) q.beginPowerDown :=
    changesOnly_trans hq (changesOnly_mono (by decide) (changesOnly_beginPowerDown q))
  split
  next i _ =>
    split
    · exact ⟨hdown, hqneed, hqthm⟩
    · refine ⟨changesOnly_trans hq (changesOnly_mono (by decide) (changesOnly_append (changesOnly_setPfl q
        { q.pfl with dump := some ⟨i, cause, s.now, 0, s.staged, none⟩ }) (changesOnly_ev 0x480 1 _ 1 _))), hqneed, hqthm⟩
  next => exact ⟨hdown, hqneed, hqthm⟩

theorem keepsStored_beginDump (s : State) (cause : Nat) : KeepsStored s (s.beginDump cause) := by
  cases hd : s.pfl.dump with
  | some d =>
    have hsame : s.beginDump cause = s := if_pos (by rw [hd]; rfl)
    rw [hsame]
    exact .of_eq rfl rfl rfl
  | none =>
    have hframe := (beginDump_spec hd cause).1
    exact (keepsStored_gaveUp s).trans (.of_eq (hframe .cch rfl) (hframe .key rfl) (hframe .tly rfl))

end Sys2Proof.Proofs
end

section
/-! PROOFS of the statement about rails that are lost (11_supplies_domains_thermal). -/

namespace Sys2Proof.Proofs

open Sys2Proof Sys2Proof.Machine Sys2Proof.Safety Sys2Proof.Laws

/-! ## The card stops serving without a dump (action 1) -/

/-- The card stops serving and its power-down begins; the next start judges the failure. -/
def downWithoutDump (s : State) : State := (s.stopServing.powerFailed (s.boot.complete || s.pfl.flush.isSome) 0).beginPowerDown

theorem changesOnly_downWithoutDump (s : State) :
    changesOnly [.qos, .link, .out, .tly, .key, .med, .map, .pfl, .thm, .pwr] s (downWithoutDump s) :=
  changesOnly_mono (by decide) (changesOnly_append (changesOnly_append (changesOnly_stopServing s) (changesOnly_powerFailed _ _ 0))
    (changesOnly_beginPowerDown _))

theorem keepsStored_downWithoutDump (s : State) : KeepsStored s (downWithoutDump s) := by
  have hframe := changesOnly_append (changesOnly_powerFailed s.stopServing (s.boot.complete || s.pfl.flush.isSome) 0)
    (changesOnly_beginPowerDown _)
  exact (keepsStored_stopServing s).trans (.of_eq (hframe .cch rfl) (hframe .key rfl) (hframe .tly rfl))

theorem downWithoutDump_spec (s : State) : (downWithoutDump s).pwr.sequence = 2 ∧ (downWithoutDump s).pwr.common = s.now ∧
    (downWithoutDump s).fab.fatal = s.fab.fatal ∧ (downWithoutDump s).pfl.dump = s.pfl.dump := by
  have hframe := changesOnly_append (changesOnly_stopServing s)
    (changesOnly_powerFailed s.stopServing (s.boot.complete || s.pfl.flush.isSome) 0)
  have hnow := hframe .time rfl
  have hfatal := congrArg Fabric.fatal (changesOnly_downWithoutDump s .fab rfl)
  have hdump := (powerFailed_keeps s.stopServing (s.boot.complete || s.pfl.flush.isSome) 0).2
  rw [stopServing_pfl] at hdump
  exact ⟨rfl, hnow, hfatal, hdump.trans (dropTest_dump s.pfl)⟩

/-! ## Fatal handling (actions 2 and 3) -/

/-- The marks of fatal handling, before it is reported. -/
def fatalMarks (s : State) : State :=
  { s with fab := { s.fab with fatal := true },
           link := { s.link with heldDown := true, viral := s.link.viral || s.link.viralEnabled },
           ring := { s.ring with bypass := true } }

theorem changesOnly_fatalMarks (s : State) : changesOnly [.fab, .link, .ring] s (fatalMarks s) := by
  have hmark : ∀ (f : Fabric) (l : Link) (r : Ring), f.crossing = s.fab.crossing →
      changesOnly [.fab, .link, .ring] s { s with fab := f, link := l, ring := r } := fun f l r hf =>
    changesOnly_append (changesOnly_setFab s f hf) (changesOnly_append (changesOnly_setLink { s with fab := f } l)
      (changesOnly_setRing { s with fab := f, link := l } r))
  exact hmark _ _ _ rfl

theorem changesOnly_reportUnc (s : State) (region cause : Nat) : changesOnly [.link, .out] s (s.reportUnc region cause) :=
  changesOnly_append (changesOnly_setLink s _) (changesOnly_out _ _)

theorem changesOnly_markFatal (s : State) (region cause : Nat) : changesOnly [.fab, .link, .ring, .out] s (s.markFatal region cause) :=
  changesOnly_mono (by decide) (changesOnly_append (changesOnly_append (changesOnly_fatalMarks s)
    (changesOnly_reportUnc (fatalMarks s) region cause)) (changesOnly_reportRas _ 3))

/-- Fatal handling is marked: the link is held down, and the ring's bypass closes. -/
theorem markFatal_spec (s : State) (region cause : Nat) : (s.markFatal region cause).fab.fatal = true ∧
    (s.markFatal region cause).link.heldDown = true ∧ (s.markFatal region cause).ring.bypass = true := ⟨rfl, rfl, rfl⟩

theorem keepsStored_markFatal (s : State) (region cause : Nat) : KeepsStored s (s.markFatal region cause) := by
  have hframe := changesOnly_markFatal s region cause
  exact .of_eq (hframe .cch rfl) (hframe .key rfl) (hframe .tly rfl)

theorem gaveUp_heldDown (s : State) : (gaveUp s).link.heldDown = s.link.heldDown := (released_link s.mergeFills).2

/-- A dump begins, or for want of one the power-down, with the mark of fatal handling left as it is. -/
theorem beginDump_keepsMark (s : State) (cause : Nat) : (s.beginDump cause).fab.fatal = s.fab.fatal ∧
    (s.beginDump cause).link.heldDown = s.link.heldDown ∧ (s.beginDump cause).ring.bypass = s.ring.bypass := by
  have hfatal := congrArg Fabric.fatal (same_fab_beginDump s cause)
  cases hd : s.pfl.dump with
  | some d =>
    have hsame : s.beginDump cause = s := if_pos (by rw [hd]; rfl)
    rw [hsame]
    exact ⟨rfl, rfl, rfl⟩
  | none =>
    have hframe := (beginDump_spec hd cause).1
    have hlink : (s.beginDump cause).link = (gaveUp s).link := hframe .link rfl
    have hring : (s.beginDump cause).ring = s.ring := (hframe .ring rfl).trans (changesOnly_gaveUp s .ring rfl)
    rw [hlink, hring]
    exact ⟨hfatal, gaveUp_heldDown s, rfl⟩

/-- What fatal handling leaves of the card. -/
structure Fatal (s u : State) : Prop where
  fatal : u.fab.fatal = true
  heldDown : u.link.heldDown = true
  bypass : u.ring.bypass = true
  needPerst : s.pfl.dump = none → u.pwr.needPerst = true
  stored : KeepsStored s u

theorem fatal_fatalHandling {s : State} (h : s.fab.fatal = false) (region cause : Nat) : Fatal s (s.fatalHandling region cause) := by
  have hbegin : s.fatalHandling region cause = (s.markFatal region cause).beginDump 1 := if_neg (ne_true_of_eq_false h)
  obtain ⟨hfatal, hheld, hbypass⟩ := beginDump_keepsMark (s.markFatal region cause) 1
  have hpfl : (s.markFatal region cause).pfl = s.pfl := changesOnly_markFatal s region cause .pfl rfl
  rw [hbegin]
  refine ⟨hfatal, hheld, hbypass, fun hd => ?_, (keepsStored_markFatal s region cause).trans (keepsStored_beginDump _ 1)⟩
  rw [(beginDump_spec (hpfl ▸ hd) 1).2.1]
  exact Bool.or_true _

theorem changesOnly_gaveUp_fatalNoDump {s : State} (h : s.fab.fatal = false) (region cause : Nat) :
    changesOnly [.pwr, .pfl, .thm] (gaveUp (s.markFatal region cause)) (s.fatalNoDump region cause) := by
  have hbegin : s.fatalNoDump region cause = _ := if_neg (ne_true_of_eq_false h)
  rw [hbegin]
  have hfailed := changesOnly_append (changesOnly_gaveUp_quiesce (s.markFatal region cause))
    (changesOnly_powerFailed _ (s.boot.complete || s.pfl.flush.isSome) 1)
  exact changesOnly_mono (by decide) (changesOnly_append (changesOnly_append hfailed (changesOnly_setPwr _ _)) (changesOnly_beginPowerDown _))

theorem fatalNoDump_power {s : State} (h : s.fab.fatal = false) (region cause : Nat) :
    (s.fatalNoDump region cause).pwr.sequence = 2 ∧ (s.fatalNoDump region cause).pwr.needPerst = true ∧
      (s.fatalNoDump region cause).pfl.dump = s.pfl.dump := by
  have hbegin : s.fatalNoDump region cause = _ := if_neg (ne_true_of_eq_false h)
  have hdump := (powerFailed_keeps (s.markFatal region cause).quiesce (s.boot.complete || s.pfl.flush.isSome) 1).2
  have hpfl : (s.markFatal region cause).pfl = s.pfl := changesOnly_markFatal s region cause .pfl rfl
  rw [quiesce_pfl, hpfl] at hdump
  rw [hbegin]
  exact ⟨rfl, rfl, hdump.trans (dropTest_dump s.pfl)⟩

theorem fatal_fatalNoDump {s : State} (h : s.fab.fatal = false) (region cause : Nat) : Fatal s (s.fatalNoDump region cause) := by
  have hframe := changesOnly_gaveUp_fatalNoDump h region cause
  have hgave := changesOnly_gaveUp (s.markFatal region cause)
  have hsame : same .fab (s.markFatal region cause) (s.fatalNoDump region cause) := same_trans (hgave .fab rfl) (hframe .fab rfl)
  have hfatal := congrArg Fabric.fatal hsame
  have hlink : (s.fatalNoDump region cause).link = (gaveUp (s.markFatal region cause)).link := hframe .link rfl
  have hring : (s.fatalNoDump region cause).ring = (s.markFatal region cause).ring := (hframe .ring rfl).trans (hgave .ring rfl)
  refine ⟨hfatal, ?_, congrArg Ring.bypass hring, fun _ => (fatalNoDump_power h region cause).2.1, ?_⟩
  · rw [hlink]
    exact gaveUp_heldDown _
  · exact ((keepsStored_markFatal s region cause).trans (keepsStored_gaveUp _)).trans
      (.of_eq (hframe .cch rfl) (hframe .key rfl) (hframe .tly rfl))

/-! ## Write-through mode (action 4) -/

/-- Write-through mode is entered, or goes on with a cause of rank 1: the budget and the mode change alone. -/
theorem modeChange_enterWt_one (s : State) : ModeChange s (s.enterWt 1) := by
  cases h : s.pfl.wt with
  | none => exact modeChange_enterWt h
  | some c =>
    have hset : s.enterWt 1 = { s with pfl := { s.pfl with wt := some (1, c.2) } } := by
      unfold State.enterWt
      rw [h]
      rfl
    rw [hset]
    exact modeChange_of_pfl (changesOnly_setPfl s _) rfl

theorem startLog_wt (s : State) : s.startLog.pfl.wt = s.pfl.wt := by
  unfold State.startLog
  split
  · rfl
  · split
    · rfl
    · dsimp only
      split
      · rfl
      · rw [armSlot_pfl]

/-- The store's rail is lost. -/
def storeRailLost (s : State) : State := { s with pfl := { s.pfl with health := 2, charging := false } }

theorem modeChange_logged (s : State) : ModeChange (storeRailLost s) ((storeRailLost s).enterWt 1).startLog :=
  (modeChange_enterWt_one _).trans (modeChange_startLog _)

theorem logged_wt {s : State} (h : s.pfl.wt = none) : ((storeRailLost s).enterWt 1).startLog.pfl.wt = some (1, s.now) := by
  rw [startLog_wt, enterWt_pfl (s := storeRailLost s) h]
  rfl

/-! ## RAIL_PG_LOST (R306) -/

/-- The loss is counted, and reported. -/
def railLossNoted (s : State) (r : Nat) (overTemp : Bool) : State :=
  let x := s.rail r
  let y := { x with pg := false, pgLost := sat16 x.pgLost, regOt := if overTemp then sat16 x.regOt else x.regOt }
  let s1 := ev (0x500 + r) (if r = 13 then 2 else 3) [r, railAction r] 255 (s.setRail r y)
  if overTemp then ev 0x511 1 [r] 255 s1 else s1

theorem changesOnly_railLossNoted (s : State) (r : Nat) (overTemp : Bool) :
    changesOnly [.pwr, .out, .events] s (railLossNoted s r overTemp) := by
  have hcount : ∀ y : Rail, changesOnly [.pwr, .out, .events] s
      (ev (0x500 + r) (if r = 13 then 2 else 3) [r, railAction r] 255 (s.setRail r y)) := fun y =>
    changesOnly_append (changesOnly_setRail s r y) (changesOnly_ev _ _ _ 255 _)
  unfold railLossNoted
  dsimp only
  split
  · exact changesOnly_trans (hcount _) (changesOnly_mono (by decide) (changesOnly_ev 0x511 1 [r] 255 _))
  · exact hcount _

theorem railLossNoted_sequence (s : State) (r : Nat) (overTemp : Bool) : (railLossNoted s r overTemp).pwr.sequence = s.pwr.sequence := by
  unfold railLossNoted
  dsimp only
  split <;> rfl

theorem keepsStored_railLossNoted (s : State) (r : Nat) (overTemp : Bool) : KeepsStored s (railLossNoted s r overTemp) := by
  have hframe := changesOnly_railLossNoted s r overTemp
  exact .of_eq (hframe .cch rfl) (hframe .key rfl) (hframe .tly rfl)

section
variable {t : Nat} {rail : Fin 14} {b : Bool} {s : State}

theorem exec_railPgLost (h0 : rail.val ≠ 0) (hseq : s.pwr.sequence = 0) (hon : (s.rail rail.val).enabled = true)
    (hpg : (s.rail rail.val).pg = true) :
    exec (.railPgLost t rail b) s = .next ((railLossNoted (s.tick t) rail.val b).railLost rail.val) := by
  have hlost : ¬ (!(s.rail rail.val).enabled || !(s.rail rail.val).pg) = true := by
    rw [hon, hpg]
    decide
  exact (if_neg h0).trans ((if_neg hlost).trans (if_pos hseq))

theorem exec_railPgLost_off (h0 : rail.val ≠ 0) (hoff : (s.rail rail.val).enabled = false) :
    exec (.railPgLost t rail b) s = .next (s.tick t) := by
  have hstay : (!(s.rail rail.val).enabled || !(s.rail rail.val).pg) = true := by
    rw [hoff]
    rfl
  exact (if_neg h0).trans (if_pos hstay)

theorem railLost_of_le_three {r : Nat} (h : r ≤ 3) (z : State) : z.railLost r = downWithoutDump z := by
  have haction : railAction r = 1 := if_pos h
  unfold State.railLost
  rw [haction]
  rfl

theorem railLost_of_le_five {r : Nat} (h4 : 4 ≤ r) (h5 : r ≤ 5) (z : State) : z.railLost r = z.fatalHandling 255 (0x500 + r) := by
  have haction : railAction r = 2 := (if_neg (by omega)).trans (if_pos h5)
  unfold State.railLost
  rw [haction]
  rfl

theorem railLost_of_le_twelve {r : Nat} (h6 : 6 ≤ r) (h12 : r ≤ 12) (z : State) : z.railLost r = z.fatalNoDump 255 (0x500 + r) := by
  have haction : railAction r = 3 := (if_neg (by omega)).trans ((if_neg (by omega)).trans (if_pos h12))
  unfold State.railLost
  rw [haction]
  rfl

theorem completes_railPgLost (h0 : rail.val ≠ 0) (h13 : rail.val < 13) (hseq : s.pwr.sequence = 0) (hfab : s.fab.fatal = false)
    (hon : (s.rail rail.val).enabled = true) (hpg : (s.rail rail.val).pg = true) : completes (.railPgLost t rail b) s (fun u =>
      (rail.val ≤ 3 → u.pwr.sequence = 2 ∧ u.pwr.common = max s.now t ∧ u.fab.fatal = false ∧ u.pfl.dump = s.pfl.dump) ∧
      (4 ≤ rail.val → u.fab.fatal = true ∧ u.link.heldDown = true ∧ u.ring.bypass = true ∧
        (s.pfl.dump = none → u.pwr.needPerst = true)) ∧
      (6 ≤ rail.val → u.pwr.sequence = 2 ∧ u.pwr.needPerst = true ∧ u.pfl.dump = s.pfl.dump) ∧
      (s.cch.near.all (fun e => !e.2.filling) = true → u.cch.near = s.cch.near) ∧ u.key.slots = s.key.slots ∧
      u.tly.rows = s.tly.rows) := by
  have hnoted := changesOnly_railLossNoted (s.tick t) rail.val b
  have hkept := keepsStored_railLossNoted (s.tick t) rail.val b
  refine ⟨_, exec_railPgLost h0 hseq hon hpg, ?_⟩
  generalize railLossNoted (s.tick t) rail.val b = z at hnoted hkept ⊢
  have hnow : z.now = max s.now t := hnoted .time rfl
  have hpfl : z.pfl = s.pfl := hnoted .pfl rfl
  have hfatal : z.fab.fatal = false := (congrArg Fabric.fatal (hnoted .fab rfl)).trans hfab
  by_cases h3 : rail.val ≤ 3
  · obtain ⟨hsequence, hcommon, hmark, hdump⟩ := downWithoutDump_spec z
    obtain ⟨hnear, hslots, hrows⟩ := hkept.trans (keepsStored_downWithoutDump z)
    rw [railLost_of_le_three h3]
    exact ⟨fun _ => ⟨hsequence, hcommon.trans hnow, hmark.trans hfatal, hdump.trans (congrArg Persist.dump hpfl)⟩,
      fun h4 => absurd h4 (by omega), fun h6 => absurd h6 (by omega), hnear, hslots, hrows⟩
  · by_cases h5 : rail.val ≤ 5
    · obtain ⟨hmark, hheld, hbypass, hperst, hstored⟩ := fatal_fatalHandling hfatal 255 (0x500 + rail.val)
      obtain ⟨hnear, hslots, hrows⟩ := hkept.trans hstored
      rw [railLost_of_le_five (by omega) h5]
      exact ⟨fun h => absurd h h3, fun _ => ⟨hmark, hheld, hbypass, fun hd => hperst (hpfl ▸ hd)⟩, fun h6 => absurd h6 (by omega),
        hnear, hslots, hrows⟩
    · obtain ⟨hmark, hheld, hbypass, hperst, hstored⟩ := fatal_fatalNoDump hfatal 255 (0x500 + rail.val)
      obtain ⟨hnear, hslots, hrows⟩ := hkept.trans hstored
      obtain ⟨hsequence, hneed, hdump⟩ := fatalNoDump_power hfatal 255 (0x500 + rail.val)
      rw [railLost_of_le_twelve (by omega) (by omega)]
      exact ⟨fun h => absurd h h3, fun _ => ⟨hmark, hheld, hbypass, fun _ => hneed⟩,
        fun _ => ⟨hsequence, hneed, hdump.trans (congrArg Persist.dump hpfl)⟩, hnear, hslots, hrows⟩

end

theorem completes_railPgLost_store {t : Nat} {b : Bool} {s : State} (hseq : s.pwr.sequence = 0) (hon : (s.rail 13).enabled = true)
    (hpg : (s.rail 13).pg = true) : completes (.railPgLost t 13 b) s (fun u => u.pfl.health = 2 ∧ u.pfl.charging = false ∧
      (s.pfl.wt = none → u.pfl.wt = some (1, max s.now t)) ∧ u.pwr.sequence = 0) := by
  have hnoted := changesOnly_railLossNoted (s.tick t) (13 : Fin 14).val b
  have hsequence := railLossNoted_sequence (s.tick t) (13 : Fin 14).val b
  refine ⟨_, exec_railPgLost (rail := 13) (by decide) hseq hon hpg, ?_⟩
  generalize railLossNoted (s.tick t) (13 : Fin 14).val b = z at hnoted hsequence ⊢
  have hstore : z.railLost (13 : Fin 14).val = ((storeRailLost z).enterWt 1).startLog := rfl
  have hmode := modeChange_logged z
  rw [hstore]
  have hnow : z.now = max s.now t := hnoted .time rfl
  have hpfl : z.pfl = s.pfl := hnoted .pfl rfl
  refine ⟨hmode.field Persist.health, hmode.field Persist.charging, fun hwt => ?_, ?_⟩
  · rw [← hnow]
    exact logged_wt (hpfl ▸ hwt)
  · exact (congrArg Power.sequence (hmode.1 .pwr rfl)).trans (hsequence.trans hseq)

theorem exec_railPgLost_vaux {t : Nat} {b : Bool} {s : State} (hvaux : s.pwr.inputs.vaux ≠ 0) :
    exec (.railPgLost t 0 b) s = .next (s.tick t).vauxGone :=
  congrArg Host.Outcome.next (if_neg hvaux)

/-- Settles O19, clause by clause. -/
theorem railLossActions : Obligations.RailLossActions := by
  unfold Obligations.RailLossActions
  refine ⟨?served, ?store, ?vaux, ?off⟩
  case served => exact fun t rail b s h0 h13 hseq hfatal hon hpg => completes_railPgLost h0 h13 hseq hfatal hon hpg
  case store => exact fun t b s hseq hon hpg => completes_railPgLost_store hseq hon hpg
  case vaux => exact fun t b s hvaux => ⟨_, exec_railPgLost_vaux hvaux, rfl, rfl, rfl, rfl, rfl, rfl⟩
  case off => exact fun t rail b s h0 hoff => exec_railPgLost_off h0 hoff

end Sys2Proof.Proofs
end

section
/-! PROOFS of the statement about input levels and the power brake (11_supplies_domains_thermal, 14_management_sideband). -/

namespace Sys2Proof.Proofs

open Sys2Proof Sys2Proof.Machine Sys2Proof.Safety Sys2Proof.Laws

/-! ## Input levels (R297, R304) -/

theorem changesOnly_setBoot (s : State) (y : Boot) : changesOnly [.boot] s { s with boot := y } := by
  intro g hg
  have h0 := same_refl g s
  cases g with
  | boot => exact absurd hg (by decide)
  | _ => exact h0

theorem changesOnly_endAttempt (s : State) : changesOnly [.boot] s s.endAttempt := by
  unfold State.endAttempt
  split
  · exact changesOnly_setBoot s _
  · exact changesOnly_refl _ s

/-- The levels as measured; an absent 3.3 Vaux counts as unmeasured. -/
def newInputs (s : State) (i : Inputs) : Inputs := { i with vaux := if i.vaux = 0 then s.pwr.inputs.vaux else i.vaux }

/-- Inputs that were in range no longer are. -/
def inputsLost (s : State) (j : Inputs) : Bool := s.inputsOk && !({ s with pwr := { s.pwr with inputs := j } }).inputsOk

/-- New levels are taken. -/
def levelsTaken (s : State) (j : Inputs) : State :=
  let s1 := { s with pwr := { s.pwr with inputs := j } }
  { s1 with pwr := { s1.pwr with qualified := s.pwr.qualified && s1.inputsOk,
                                 okSince := if s1.inputsOk then some (s.pwr.okSince.getD s.now) else none,
                                 latchedOff := s.pwr.latchedOff && !inputsLost s j,
                                 needPerst := s.pwr.needPerst && !(inputsLost s j && s.railsOff) } }

/-- A start that waits for the card to cool ends with the inputs. -/
def heldStartLost (s : State) (j : Inputs) : State :=
  if inputsLost s j && s.thm.heldAt.isSome then State.endAttempt { levelsTaken s j with thm := { s.thm with heldAt := none } }
  else levelsTaken s j

theorem changesOnly_heldStartLost (s : State) (j : Inputs) : changesOnly [.thm, .boot] (levelsTaken s j) (heldStartLost s j) := by
  unfold heldStartLost
  split
  · exact changesOnly_append (changesOnly_setThm (levelsTaken s j) { s.thm with heldAt := none }) (changesOnly_endAttempt _)
  · exact changesOnly_refl _ _

theorem heldStartLost_of_none {s : State} (h : s.thm.heldAt = none) (j : Inputs) : heldStartLost s j = levelsTaken s j := by
  unfold heldStartLost
  rw [h, Option.isSome_none, Bool.and_false]
  rfl

/-- What new levels start, once they are taken. -/
def levelsAct (s : State) (lost : Bool) (j : Inputs) : Res :=
  if s.railsOff || s.pfl.dump.isSome then .next (if lost && s.railsOff then s.resetRegs 3 else s)
  else if s.pwr.sequence = 2 then .next (if j.slot12 = 0 ∧ j.aux12 = 0 then s.dropRails else s)
  else if j.v33 ≤ 3000 then .next (if s.pwr.sequence = 1 then s.offRequest else s.stopServing.beginPowerDown)
  else .next s

section
variable {t : Nat} {i : Inputs} {s : State}

theorem exec_inputLevelChange_vaux (hvaux : s.pwr.inputs.vaux = 0) : exec (.inputLevelChange t i) s = .next (s.tick t) := if_pos hvaux

/-- With a rail on, the loss of the aux input alone is not told. -/
theorem exec_inputLevelChange (hvaux : s.pwr.inputs.vaux ≠ 0) (hon : s.railsOff = false) : exec (.inputLevelChange t i) s =
    levelsAct (heldStartLost (s.tick t) (newInputs s i)) (inputsLost (s.tick t) (newInputs s i)) (newInputs s i) := by
  have htold : ¬ (auxAbsent (newInputs s i) && !auxAbsent s.pwr.inputs && s.railsOff) = true := by
    rw [hon, Bool.and_false]
    decide
  refine (if_neg hvaux).trans ?_
  exact congrArg (fun z => levelsAct z (inputsLost (s.tick t) (newInputs s i)) (newInputs s i)) (if_neg htold)

theorem levelsAct_dumping {u : State} (hon : u.railsOff = false) (hdump : u.pfl.dump.isSome = true) (lost : Bool) (j : Inputs) :
    levelsAct u lost j = .next u := by
  unfold levelsAct
  rw [hon, hdump, Bool.and_false]
  rfl

theorem levelsAct_low {u : State} (hon : u.railsOff = false) (hdump : u.pfl.dump.isSome = false) (hseq : u.pwr.sequence = 0)
    (lost : Bool) {j : Inputs} (hlow : j.v33 ≤ 3000) : levelsAct u lost j = .next u.stopServing.beginPowerDown := by
  unfold levelsAct
  rw [hon, hdump, hseq, if_pos hlow]
  rfl

theorem completes_inputLevelChange_dumping (hvaux : s.pwr.inputs.vaux ≠ 0) (hdump : s.pfl.dump.isSome = true)
    (hon : s.railsOff = false) : completes (.inputLevelChange t i) s (fun u =>
      u.pwr.inputs = newInputs s i ∧ (u.pwr.qualified = true ↔ s.pwr.qualified = true ∧ u.inputsOk = true) ∧ u.pfl = s.pfl ∧
      u.pwr.sequence = s.pwr.sequence ∧ u.pwr.rails = s.pwr.rails) := by
  have hframe := changesOnly_heldStartLost (s.tick t) (newInputs s i)
  have hpwr : (heldStartLost (s.tick t) (newInputs s i)).pwr = (levelsTaken (s.tick t) (newInputs s i)).pwr := hframe .pwr rfl
  have hpfl : (heldStartLost (s.tick t) (newInputs s i)).pfl = s.pfl := hframe .pfl rfl
  have hoff : (heldStartLost (s.tick t) (newInputs s i)).railsOff = (levelsTaken (s.tick t) (newInputs s i)).railsOff :=
    congrArg (fun p : Power => (p.rails.drop 1).all (fun r => !r.enabled)) hpwr
  refine ⟨_, (exec_inputLevelChange hvaux hon).trans (levelsAct_dumping (hoff.trans hon) (hpfl ▸ hdump) _ _), ?_⟩
  unfold State.inputsOk
  dsimp only
  rw [hpwr]
  exact ⟨rfl, Bool.and_eq_true_iff, hpfl, rfl, rfl⟩

/-- The card stops serving, and its power-down begins. -/
theorem stopServing_beginPowerDown (u : State) : u.stopServing.beginPowerDown.pwr.sequence = 2 ∧
    u.stopServing.beginPowerDown.pwr.common = u.now ∧ u.stopServing.beginPowerDown.link.protocol = 0 ∧
    u.stopServing.beginPowerDown.pfl.dump = u.pfl.dump ∧ u.stopServing.beginPowerDown.qos.ctxs = [] ∧
    u.stopServing.beginPowerDown.cch.near = u.cch.near := by
  obtain ⟨c, hpwr⟩ := beginPowerDown_pwr u.stopServing
  have hnow : u.stopServing.now = u.now := changesOnly_stopServing u .time rfl
  have hdown := changesOnly_beginPowerDown u.stopServing
  have hlink : u.stopServing.beginPowerDown.link = u.stopServing.link := hdown .link rfl
  have hpfl : u.stopServing.beginPowerDown.pfl = u.stopServing.pfl := hdown .pfl rfl
  have hqos : u.stopServing.beginPowerDown.qos = u.stopServing.qos := hdown .qos rfl
  have hcch : u.stopServing.beginPowerDown.cch = u.stopServing.cch := hdown .cch rfl
  rw [hpwr, hlink, hpfl, hqos, hcch, stopServing_link, stopServing_pfl, stopServing_qos, stopServing_cch]
  dsimp only
  exact ⟨rfl, hnow, rfl, dropTest_dump u.pfl, rfl, rfl⟩

theorem completes_inputLevelChange_low (hvaux : s.pwr.inputs.vaux ≠ 0) (hdump : s.pfl.dump.isSome = false) (hon : s.railsOff = false)
    (hseq : s.pwr.sequence = 0) (hlow : i.v33 ≤ 3000) (hheld : s.thm.heldAt = none) : completes (.inputLevelChange t i) s (fun u =>
      u.pwr.sequence = 2 ∧ u.pwr.common = max s.now t ∧ u.link.protocol = 0 ∧ u.pfl.dump = none ∧ u.qos.ctxs = [] ∧
      u.cch.near = s.cch.near) := by
  have hexec := (exec_inputLevelChange (t := t) (i := i) hvaux hon).trans
    (congrArg (fun z => levelsAct z (inputsLost (s.tick t) (newInputs s i)) (newInputs s i)) (heldStartLost_of_none (s := s.tick t) hheld _))
  have hnone : s.pfl.dump = none := Option.isNone_iff_eq_none.1 (Option.isSome_eq_false_iff.1 hdump)
  obtain ⟨hsequence, hcommon, hlink, hkept, hctxs, hnear⟩ := stopServing_beginPowerDown (levelsTaken (s.tick t) (newInputs s i))
  exact ⟨_, hexec.trans (levelsAct_low (u := levelsTaken (s.tick t) (newInputs s i)) hon hdump hseq _ hlow), hsequence, hcommon, hlink,
    hkept.trans hnone, hctxs, hnear⟩

/-! ## The power brake (R392, R393) -/

theorem kindThrottle_le (s : State) (k : Nat) : s.kindThrottle k ≤ 2 := by
  unfold State.kindThrottle KindLevel.throttle
  split
  · exact le_rfl
  · split <;> decide

/-- The brake holds both throttles at level 2. -/
theorem throttles_of_brake {s : State} {b : Nat} (h : s.pwr.brake = some b) : s.asicThrottle = 2 ∧ s.mediaThrottle = 2 := by
  have hon : (if s.brakeOn then 2 else 0) = 2 := if_pos (by unfold State.brakeOn; rw [h]; rfl)
  have hhot : (if s.fab.hot30.isEmpty then 0 else 1) ≤ 1 := by split <;> decide
  have h0 := kindThrottle_le s 0
  have h1 := kindThrottle_le s 1
  have h2 := kindThrottle_le s 2
  unfold State.asicThrottle State.mediaThrottle
  rw [hon]
  omega

/-- The brake is applied, and counted. -/
def brakeApplied (s : State) : State :=
  ev 0x531 0 [1, (s.bump PWR_BRAKE.assertions).reg PWR_BRAKE.last_ms] 255
    { s.bump PWR_BRAKE.assertions with pwr := { (s.bump PWR_BRAKE.assertions).pwr with brake := some s.now } }

/-- The brake is released, and its last duration is set. -/
def brakeReleased (s : State) (b : Nat) : State :=
  ev 0x531 0 [0, (s.now - b) / msec] 255
    (State.setReg { s with pwr := { s.pwr with brake := none } } PWR_BRAKE.last_ms (min 65535 ((s.now - b) / msec)))

theorem exec_powerBrakeApply (hbrake : s.pwr.brake = none) (hdump : s.pfl.dump = none) (hstop : s.thm.stopping = none)
    (hon : s.railsOff = false) : exec (.powerBrakeApply t) s = .next (brakeApplied (s.tick t)) := by
  have hgo : ¬ (s.pwr.brake.isSome || s.pfl.dump.isSome || s.thm.stopping.isSome || s.railsOff) = true := by
    rw [hbrake, hdump, hstop, hon]
    decide
  have hnow : ((s.tick t).bump PWR_BRAKE.assertions).now = (s.tick t).now :=
    changesOnly_bump (s.tick t) PWR_BRAKE.assertions 1 0 rfl .time rfl
  refine congrArg Host.Outcome.next ((if_neg hgo).trans ?_)
  unfold brakeApplied
  rw [← hnow]

theorem exec_powerBrakeApply_ignored (h : s.pwr.brake ≠ none ∨ s.pfl.dump ≠ none ∨ s.thm.stopping ≠ none) :
    exec (.powerBrakeApply t) s = .next (s.tick t) := by
  have hstay : (s.pwr.brake.isSome || s.pfl.dump.isSome || s.thm.stopping.isSome || s.railsOff) = true := by
    simp only [Bool.or_eq_true, Option.isSome_iff_ne_none]
    tauto
  exact congrArg Host.Outcome.next (if_pos hstay)

theorem exec_powerBrakeRelease {b : Nat} (h : s.pwr.brake = some b) :
    exec (.powerBrakeRelease t) s = .next (brakeReleased (s.tick t) b) := by
  have hbrake : (s.tick t).pwr.brake = some b := h
  change execPowerBrakeRelease t s = _
  unfold execPowerBrakeRelease
  dsimp only
  rw [hbrake]
  rfl

theorem completes_powerBrakeApply (hbrake : s.pwr.brake = none) (hdump : s.pfl.dump = none) (hstop : s.thm.stopping = none)
    (hon : s.railsOff = false) : completes (.powerBrakeApply t) s (fun u => u.pwr = { s.pwr with brake := some (max s.now t) } ∧
      u.asicThrottle = 2 ∧ u.mediaThrottle = 2 ∧ regsBut [(PWR_BRAKE.assertions, 0)] s u ∧
      changesOnly [.time, .pwr, .regs, .out, .events] s u) := by
  have hcount : changesOnly [.regs, .events] (s.tick t) ((s.tick t).bump PWR_BRAKE.assertions) := changesOnly_bump _ _ 1 0 rfl
  have hpwr : (brakeApplied (s.tick t)).pwr = { s.pwr with brake := some (max s.now t) } :=
    congrArg (fun p : Power => { p with brake := some (max s.now t) }) (hcount .pwr rfl)
  have hregs : regsBut [(PWR_BRAKE.assertions, 0)] s ((s.tick t).bump PWR_BRAKE.assertions) :=
    regsBut_bump (s := s.tick t) (.inr List.mem_cons_self)
  obtain ⟨hasic, hmedia⟩ := throttles_of_brake (congrArg Power.brake hpwr)
  refine ⟨_, exec_powerBrakeApply hbrake hdump hstop hon, hpwr, hasic, hmedia, ?_, ?_⟩
  · exact regsBut_trans hregs (fun k h1 h2 => regsBut_ev _ _ _ _ { (s.tick t).bump PWR_BRAKE.assertions with pwr := _ } k h1 rfl)
  · exact changesOnly_mono (by decide) (changesOnly_of_tick (changesOnly_append (changesOnly_append hcount
      (changesOnly_setPwr _ { ((s.tick t).bump PWR_BRAKE.assertions).pwr with brake := some (max s.now t) }))
      (changesOnly_ev 0x531 0 _ 255 _)))

theorem completes_powerBrakeRelease {b : Nat} (h : s.pwr.brake = some b) : completes (.powerBrakeRelease t) s (fun u =>
      u.pwr = { s.pwr with brake := none } ∧ u.reg PWR_BRAKE.last_ms = min 65535 ((max s.now t - b) / 1000000) ∧
      regsBut [(PWR_BRAKE.last_ms, 0)] s u ∧ changesOnly [.time, .pwr, .regs, .out, .events] s u) := by
  have hwide : min 65535 ((max s.now t - b) / 1000000) < PWR_BRAKE.last_ms.size :=
    lt_of_le_of_lt (min_le_left _ _) (by decide)
  have hregs : regsBut [(PWR_BRAKE.last_ms, 0)] s (State.setReg { s.tick t with pwr := { s.pwr with brake := none } }
      PWR_BRAKE.last_ms (min 65535 ((max s.now t - b) / 1000000))) :=
    regsBut_setReg (s := { s.tick t with pwr := { s.pwr with brake := none } }) (.inr List.mem_cons_self)
  refine ⟨_, exec_powerBrakeRelease h, rfl, ?_, ?_, ?_⟩
  · exact (reg_ev rfl _ _ _ _ _).trans ((reg_setReg _ _ _ _).trans (Nat.mod_eq_of_lt hwide))
  · exact regsBut_trans hregs (fun k h1 h2 => regsBut_ev _ _ _ _ _ k h1 rfl)
  · exact changesOnly_mono (by decide) (changesOnly_of_tick (changesOnly_append (changesOnly_append (changesOnly_setPwr (s.tick t) _)
      (changesOnly_setReg _ _ _ _ rfl)) (changesOnly_ev 0x531 0 _ 255 _)))

end

/-- Settles O20, clause by clause. -/
theorem inputsAndBrake : Obligations.InputsAndBrake := by
  unfold Obligations.InputsAndBrake
  refine ⟨?dumping, ?low, ?vaux, ?apply, ?release, ?ignored⟩
  case dumping => exact fun t i s hvaux hdump hon => completes_inputLevelChange_dumping hvaux hdump hon
  case low => exact fun t i s hvaux hdump hon hseq hlow hheld => completes_inputLevelChange_low hvaux hdump hon hseq hlow hheld
  case vaux => exact fun t i s hvaux => exec_inputLevelChange_vaux hvaux
  case apply => exact fun t s hbrake hdump hstop hon => completes_powerBrakeApply hbrake hdump hstop hon
  case release => exact fun t b s h => completes_powerBrakeRelease h
  case ignored => exact fun t s h => exec_powerBrakeApply_ignored h

end Sys2Proof.Proofs
end

section
/-! PROOFS of the statement about sensors and the orderly stop (11_supplies_domains_thermal). -/

namespace Sys2Proof.Proofs

open Sys2Proof Sys2Proof.Machine Sys2Proof.Safety Sys2Proof.Laws

/-! ## What leaves every sensor as it is -/

/-- From s to u no sensor changes, and no time passes. -/
structure SensorsStay (s u : State) : Prop where
  sensors : u.thm.sensors = s.thm.sensors
  now : u.now = s.now

theorem SensorsStay.refl (s : State) : SensorsStay s s := ⟨rfl, rfl⟩

theorem SensorsStay.trans {s t u : State} (h : SensorsStay s t) (k : SensorsStay t u) : SensorsStay s u :=
  ⟨k.sensors.trans h.sensors, k.now.trans h.now⟩

/-- Sensors that stay from a state with the same sensors and time stay. -/
theorem SensorsStay.after {s t u : State} (k : SensorsStay t u) (hs : t.thm.sensors = s.thm.sensors) (hn : t.now = s.now) :
    SensorsStay s u := ⟨k.sensors.trans hs, k.now.trans hn⟩

theorem SensorsStay.of_frame {l : List Grp} {s u : State} (h : changesOnly l s u) (hthm : l.contains .thm = false)
    (htime : l.contains .time = false) : SensorsStay s u :=
  ⟨congrArg Thermal.sensors (h .thm hthm), h .time htime⟩

theorem SensorsStay.ite {s u v : State} {p : Prop} [Decidable p] (h : SensorsStay s u) (k : SensorsStay s v) :
    SensorsStay s (if p then u else v) := by
  split
  · exact h
  · exact k

theorem sensorsStay_ev (src sev : Nat) (data : List Nat) (region : Nat) (s : State) : SensorsStay s (ev src sev data region s) :=
  .of_frame (changesOnly_ev src sev data region s) rfl rfl

theorem sensorsStay_spread (s : State) (i : Nat) : SensorsStay s (s.spread i) := by
  have hkind : SensorsStay s (if sensorKind i < 4 then { s with thm := { s.thm with
      highest := setAt s.thm.highest (sensorKind i) (max (s.thm.highest.getD (sensorKind i) (-40)) (s.usedOf i)) } } else s) :=
    .ite ⟨rfl, rfl⟩ (.refl s)
  unfold State.spread
  dsimp only
  split
  · exact hkind.trans ⟨rfl, rfl⟩
  · split
    · exact hkind.trans ⟨rfl, rfl⟩
    · exact hkind

theorem sensorsStay_judgeInlet (s : State) : SensorsStay s s.judgeInlet := by
  unfold State.judgeInlet
  dsimp only
  split
  · exact .ite ((sensorsStay_ev _ _ _ _ _).after rfl rfl) (.refl s)
  · exact .ite ((sensorsStay_ev _ _ _ _ _).after rfl rfl) (.refl s)

theorem changesOnly_heatOne (s : State) (p : Nat × Nat) : changesOnly [.fab, .out, .events] s (heatOne s p) := by
  unfold heatOne
  extract_lets d y f
  split
  · exact changesOnly_mono (by decide) (changesOnly_ev_setFab 0x569 1 [p.1, p.2, d] 255 s f rfl)
  · exact changesOnly_mono (by decide) (changesOnly_setFab s f rfl)

theorem sensorsStay_heat (s : State) : SensorsStay s (pacedPairs.foldl heatOne s) :=
  .of_frame (changesOnly_foldl changesOnly_heatOne pacedPairs s) rfl rfl

theorem changesOnly_abandonTest (s : State) : changesOnly [.pfl, .regs, .tly, .events, .out, .link] s s.abandonTest := by
  have hrow : ∀ p : Persist, changesOnly [.pfl, .regs, .tly, .events, .out, .link] s
      (State.ownRow { s with pfl := p } 6 1 1 (State.testRow { s with pfl := p })) := fun p =>
    changesOnly_mono (by decide) (changesOnly_append (changesOnly_setPfl s p) (changesOnly_ownRow _ _ _ _ _))
  unfold State.abandonTest
  split
  · exact changesOnly_refl _ s
  · dsimp only
    split
    · exact changesOnly_trans (hrow _) (changesOnly_mono (by decide) (changesOnly_endBackground _ _))
    · exact hrow _

theorem changesOnly_turnAway (s : State) (id : Nat) (write : Bool) : changesOnly [.events, .out] s (s.turnAway id write) := by
  unfold State.turnAway
  split
  · exact changesOnly_mono (by decide) (changesOnly_out s _)
  · exact changesOnly_append (changesOnly_setFresh s (s.fresh + 1)) (changesOnly_out _ _)

theorem changesOnly_beginFlush (s : State) : changesOnly [.pfl, .cch] s s.beginFlush := by
  have hflush : ∀ (p : Persist) (c : Caches), changesOnly [.pfl, .cch] s { s with pfl := p, cch := c } := fun p c =>
    changesOnly_append (changesOnly_setPfl s p) (changesOnly_setCch { s with pfl := p } c)
  unfold State.beginFlush
  split
  · exact changesOnly_refl _ s
  · exact hflush _ _

/-- Admission stops. -/
def stopMarked (s : State) : State :=
  { s with thm := { s.thm with stopping := some s.now },
           qos := { s.qos with ingress := [], pause := none, epochWaiters := [] } }

theorem sensorsStay_beginStop (s : State) : SensorsStay s s.beginStop := by
  have hturn : ∀ (z : State) (r : Req), changesOnly [.events, .out] z (if r.write then z else z.turnAway r.id false) := by
    intro z r
    split
    · exact changesOnly_refl _ z
    · exact changesOnly_turnAway z r.id false
  have hframe := changesOnly_append (changesOnly_foldl hturn s.qos.ingress (stopMarked s)) (changesOnly_beginFlush _)
  exact (SensorsStay.of_frame hframe rfl rfl).after rfl rfl

theorem sensorsStay_beginDump (s : State) (cause : Nat) : SensorsStay s (s.beginDump cause) := by
  cases hd : s.pfl.dump with
  | some d =>
    have hsame : s.beginDump cause = s := if_pos (by rw [hd]; rfl)
    rw [hsame]
    exact .refl s
  | none =>
    obtain ⟨hframe, _, hthm⟩ := beginDump_spec hd cause
    have hgave : (gaveUp s).now = s.now := changesOnly_gaveUp s .time rfl
    have hnow : (s.beginDump cause).now = (gaveUp s).now := hframe .time rfl
    have hsensors := congrArg Thermal.sensors hthm
    exact ⟨hsensors, hnow.trans hgave⟩

theorem sensorsStay_enterShutdown (s : State) (i k : Nat) (slope : Int) : SensorsStay s (s.enterShutdown i k slope) := by
  have hev : ∀ (y : Thermal) (sev : Nat) (data : List Nat), y.sensors = s.thm.sensors →
      SensorsStay s (ev (0x528 + k) sev data 255 { s with thm := y }) := fun y sev data hy =>
    (sensorsStay_ev (0x528 + k) sev data 255 { s with thm := y }).after hy rfl
  unfold State.enterShutdown
  extract_lets e t left past short path data x y s1
  split
  · exact sensorsStay_ev _ _ _ _ _
  · have h1 : SensorsStay s s1 := hev { y with stop := some x, recheck := true } 3 data rfl
    exact .ite h1 (.ite (h1.trans (sensorsStay_beginDump s1 2)) (h1.trans (sensorsStay_beginStop s1)))

theorem sensorsStay_judgeStop (s : State) (i : Nat) (slope : Int) : SensorsStay s (s.judgeStop i slope) := by
  unfold State.judgeStop
  dsimp only
  split
  · exact .ite (((sensorsStay_beginDump _ 2).trans (sensorsStay_ev _ _ _ _ _)).after rfl rfl) (.refl s)
  · exact .refl s

theorem sensorsStay_judgeKind (s : State) (i : Nat) (slope : Int) : SensorsStay s (s.judgeKind i slope) := by
  unfold State.judgeKind
  extract_lets k was now t y s1 a s2 s3 p s4
  have h1 : SensorsStay s s1 := ⟨rfl, rfl⟩
  have ha : SensorsStay s a := h1.trans (sensorsStay_ev _ _ _ _ _)
  have h2 : SensorsStay s s2 := .ite (.ite (ha.trans (.of_frame (changesOnly_abandonTest a) rfl rfl)) ha) h1
  have h3 : SensorsStay s s3 := .ite (h2.trans (sensorsStay_ev _ _ _ _ _)) h2
  have h4 : SensorsStay s s4 := .ite (h3.trans ⟨rfl, rfl⟩) h3
  exact .ite (h4.trans (sensorsStay_enterShutdown _ _ _ _)) h4

theorem sensorsStay_loseVolatile (s : State) : SensorsStay s s.loseVolatile := by
  have hend := changesOnly_endAttempt s
  have hthm : s.endAttempt.thm = s.thm := hend .thm rfl
  have hnow : s.endAttempt.now = s.now := hend .time rfl
  have hsensors := congrArg Thermal.sensors hthm
  exact ⟨hsensors, hnow⟩

theorem sensorsStay_powerDownDone (s : State) : SensorsStay s s.powerDownDone := by
  have hlost := sensorsStay_loseVolatile s
  unfold State.powerDownDone
  exact .ite (hlost.trans ⟨rfl, rfl⟩) (hlost.trans ⟨rfl, rfl⟩)

theorem sensorsStay_dropRails (s : State) : SensorsStay s s.dropRails := by
  have hsensors := congrArg Thermal.sensors (stopServing_thm s)
  have hstop : SensorsStay s s.stopServing := ⟨hsensors, changesOnly_stopServing s .time rfl⟩
  have hrails : ∀ (u : State) (w : Power), SensorsStay u { u with pwr := w } := fun _ _ => ⟨rfl, rfl⟩
  unfold State.dropRails
  extract_lets rails s1 y
  exact (hstop.trans (hrails s1 { y with rails := rails })).trans (sensorsStay_powerDownDone { s1 with pwr := { y with rails := rails } })

theorem sensorsStay_judgeAbsolute (s : State) (i : Nat) (slope : Int) : SensorsStay s (s.judgeAbsolute i slope) := by
  have hfailed : ∀ (b : Bool) (c : Nat) (x : Option ThermalStop), SensorsStay s { s.powerFailed b c with
      thm := { s.thm with stop := x, recheck := true }, pwr := { s.pwr with needPerst := true },
      pfl := { (s.powerFailed b c).pfl with discharging := true } } := fun b c x => ⟨rfl, changesOnly_powerFailed s b c .time rfl⟩
  unfold State.judgeAbsolute
  extract_lets k lim
  split
  · exact (hfailed _ _ _).trans (sensorsStay_dropRails _)
  · exact .refl s

/-! ## SENSOR_SAMPLE (R310, R312) -/

/-- What follows a sample that is taken. -/
def sampleJudged (s : State) (i : Nat) (slope : Int) : State :=
  let s1 := s.spread i
  let s2 := if i = 62 then s1.judgeInlet else s1
  let s3 := if sensorKind i = 0 then pacedPairs.foldl heatOne s2 else s2
  let s4 := if s3.pfl.dump.isSome || 4 ≤ sensorKind i || s3.railsOff then s3 else (s3.judgeKind i slope).judgeStop i slope
  s4.judgeAbsolute i slope

theorem sensorsStay_sampleJudged (s : State) (i : Nat) (slope : Int) : SensorsStay s (sampleJudged s i slope) := by
  unfold sampleJudged
  extract_lets s1 s2 s3 s4
  have h1 : SensorsStay s s1 := sensorsStay_spread s i
  have h2 : SensorsStay s s2 := .ite (h1.trans (sensorsStay_judgeInlet s1)) h1
  have h3 : SensorsStay s s3 := .ite (h2.trans (sensorsStay_heat s2)) h2
  have h4 : SensorsStay s s4 := .ite h3 ((h3.trans (sensorsStay_judgeKind _ _ _)).trans (sensorsStay_judgeStop _ _ _))
  exact h4.trans (sensorsStay_judgeAbsolute _ _ _)

/-- Sensor x after a reading whose usable neighbours read l. -/
def sampleOf (x : Sensor) (l : List Int) (c slope : Int) : Sensor :=
  let run := if deviates c l then x.devRun + 1 else 0
  { x with reading := c, used := c, sampled := true, deviating := deviates c l, devRun := run,
           broken := x.broken || decide (3 ≤ run), slope := slope }

/-- The sensors after a sample, before the pace of sampling is judged: a broken sensor is stood in for. -/
def sampleTaken (s : State) (i : Nat) (c slope : Int) : State :=
  let y := sampleOf (s.sensor i) (s.usable i) c slope
  if y.broken then s.setSensor i { y with used := (s.setSensor i y).stands i } else s.setSensor i y

theorem setSensor_setSensor (s : State) (i : Nat) (x y : Sensor) : (s.setSensor i x).setSensor i y = s.setSensor i y := by
  unfold State.setSensor setAt
  dsimp only
  rw [List.set_set]

theorem takeSample_eq (s : State) (i : Nat) (c slope : Int) : s.takeSample i c slope =
    if (sampleOf (s.sensor i) (s.usable i) c slope).broken && !(s.sensor i).broken then
      ev 0x52C 1 [i, (c + 40).toNat, (median2 (s.usable i) / 2 + 40).toNat] 255 (sampleTaken s i c slope)
    else sampleTaken s i c slope := by
  unfold State.takeSample sampleTaken
  dsimp only
  rw [setSensor_setSensor]
  rfl

/-- The sample is stored as a sensor that differs from `sampleOf` in what stands for a broken one. -/
theorem sampleTaken_eq (s : State) (i : Nat) (c slope : Int) : ∃ u : Int,
    sampleTaken s i c slope = s.setSensor i { sampleOf (s.sensor i) (s.usable i) c slope with used := u } ∧
      ((sampleOf (s.sensor i) (s.usable i) c slope).broken = false → u = c) := by
  unfold sampleTaken
  dsimp only
  split
  next h => exact ⟨_, rfl, fun hb => absurd (hb.symm.trans h) (by decide)⟩
  next => exact ⟨c, rfl, fun _ => rfl⟩

theorem sensor_setSensor {s : State} {i : Nat} (h : i < s.thm.sensors.length) (x : Sensor) : (s.setSensor i x).sensor i = x := by
  have hi : i < (s.thm.sensors.set i x).length := by rw [List.length_set]; exact h
  unfold State.sensor State.setSensor setAt
  rw [List.getD_eq_getElem _ _ hi, List.getElem_set_self]

theorem takeSample_sensors (s : State) (i : Nat) (c slope : Int) : ∃ u : Int,
    (s.takeSample i c slope).thm.sensors = setAt s.thm.sensors i { sampleOf (s.sensor i) (s.usable i) c slope with used := u } ∧
      (s.takeSample i c slope).now = s.now ∧ ((sampleOf (s.sensor i) (s.usable i) c slope).broken = false → u = c) := by
  obtain ⟨u, htaken, hu⟩ := sampleTaken_eq s i c slope
  have hstay : SensorsStay (sampleTaken s i c slope) (s.takeSample i c slope) := by
    rw [takeSample_eq]
    exact .ite (sensorsStay_ev _ _ _ _ _) (.refl _)
  rw [htaken] at hstay
  exact ⟨u, hstay.sensors, hstay.now, hu⟩

theorem pacedSampling_eq (s : State) (i : Nat) (slope : Int) : ∃ (f : Bool) (n : Nat),
    s.pacedSampling i slope = s.setSensor i { s.sensor i with fast := f, calm := n } := by
  unfold State.pacedSampling
  dsimp only
  split
  · exact ⟨_, _, rfl⟩
  · exact ⟨_, _, rfl⟩

section
variable {t : Nat} {i : Fin 64} {c sl : Int} {s : State}

theorem exec_sensorSample (hvaux : s.pwr.inputs.vaux ≠ 0) (hfit : s.sensorFitted i.val = true) : exec (.sensorSample t i c sl) s =
    .next (sampleJudged (((s.tick t).takeSample i.val c sl).pacedSampling i.val sl) i.val sl) := by
  have hgo : ¬ (decide (s.pwr.inputs.vaux = 0) || !s.sensorFitted i.val) = true := by
    rw [decide_eq_false hvaux, hfit]
    decide
  exact if_neg hgo

theorem exec_sensorSample_vaux (hvaux : s.pwr.inputs.vaux = 0) : exec (.sensorSample t i c sl) s = .next (s.tick t) := by
  have hstay : (decide (s.pwr.inputs.vaux = 0) || !s.sensorFitted i.val) = true := by
    rw [decide_eq_true hvaux]
    rfl
  exact if_pos hstay

theorem completes_sensorSample (hvaux : s.pwr.inputs.vaux ≠ 0) (hfit : s.sensorFitted i.val = true) :
    completes (.sensorSample t i c sl) s (fun u => u.now = max s.now t ∧ ∃ x : Sensor,
      u.thm.sensors = setAt s.thm.sensors i.val x ∧
      (i.val < s.thm.sensors.length → x.reading = c ∧ x.slope = sl ∧ x.sampled = true ∧
        x.deviating = deviates c (s.usable i.val) ∧
        x.devRun = (if deviates c (s.usable i.val) = true then (s.sensor i.val).devRun + 1 else 0) ∧
        x.broken = ((s.sensor i.val).broken || decide (3 ≤ x.devRun)) ∧ (x.broken = false → x.used = c))) := by
  obtain ⟨u, hsensors, hnow, hused⟩ := takeSample_sensors (s.tick t) i.val c sl
  have hjudged := sensorsStay_sampleJudged (((s.tick t).takeSample i.val c sl).pacedSampling i.val sl) i.val sl
  obtain ⟨f, n, hpaced⟩ := pacedSampling_eq ((s.tick t).takeSample i.val c sl) i.val sl
  rw [hpaced] at hjudged
  refine ⟨_, exec_sensorSample hvaux hfit, ?_⟩
  rw [hpaced]
  generalize (s.tick t).takeSample i.val c sl = z at hsensors hnow hjudged ⊢
  refine ⟨hjudged.now.trans hnow, { z.sensor i.val with fast := f, calm := n }, hjudged.sensors.trans ?_, fun hlen => ?_⟩
  · have hset : setAt z.thm.sensors i.val { z.sensor i.val with fast := f, calm := n } =
        setAt s.thm.sensors i.val { z.sensor i.val with fast := f, calm := n } := by
      rw [hsensors]
      exact List.set_set _
    exact hset
  · have hz : z.sensor i.val = { sampleOf (s.sensor i.val) (s.usable i.val) c sl with used := u } :=
      (congrArg (fun l => l.getD i.val Sensor.atReset) hsensors).trans (sensor_setSensor (s := s.tick t) hlen _)
    rw [hz]
    exact ⟨rfl, rfl, rfl, rfl, rfl, rfl, hused⟩

/-- The exhaust sensor's sample acts on nothing. -/
theorem sampleJudged_exhaust (z : State) (slope : Int) : sampleJudged z 63 slope = z := by
  have hspread : z.spread 63 = z := rfl
  unfold sampleJudged
  have hkind : sensorKind 63 = 4 := rfl
  have habs : z.judgeAbsolute 63 slope = z := by
    unfold State.judgeAbsolute
    dsimp only
    exact if_neg (fun h => absurd h.1 (by decide))
  rw [hspread]
  simp [hkind, habs]

theorem completes_sensorSample_exhaust (hvaux : s.pwr.inputs.vaux ≠ 0) (hwhole : (s.sensor 63).broken = false)
    (hdev : deviates c (s.usable 63) = false) : completes (.sensorSample t 63 c sl) s (fun u => changesOnly [.time, .thm] s u) := by
  have hkept : (sampleOf (s.sensor 63) (s.usable 63) c sl).broken = false := by
    unfold sampleOf
    dsimp only
    rw [hwhole, hdev]
    rfl
  obtain ⟨u, htaken, -⟩ := sampleTaken_eq (s.tick t) 63 c sl
  obtain ⟨f, n, hpaced⟩ := pacedSampling_eq ((s.tick t).takeSample 63 c sl) 63 sl
  have hnoEvent : ¬ ((sampleOf (s.sensor 63) (s.usable 63) c sl).broken && !(s.sensor 63).broken) = true := by
    rw [hkept, Bool.false_and]
    decide
  have htake : (s.tick t).takeSample 63 c sl = sampleTaken (s.tick t) 63 c sl := (takeSample_eq _ _ _ _).trans (if_neg hnoEvent)
  refine ⟨_, exec_sensorSample hvaux rfl, ?_⟩
  change changesOnly _ s (sampleJudged (((s.tick t).takeSample 63 c sl).pacedSampling 63 sl) 63 sl)
  rw [sampleJudged_exhaust, hpaced, htake, htaken]
  exact changesOnly_of_tick (changesOnly_trans (changesOnly_setThm (s.tick t) _) (changesOnly_setThm _ _))

end

/-! ## The end of an orderly stop, and holds (R319, R320) -/

section
variable {t t0 : Nat} {s : State}

theorem dropTest_clean (p : Persist) : p.dropTest.clean = p.clean := by
  unfold Persist.dropTest
  split <;> rfl

/-- The card stops serving, and only PERST_N starts it again. -/
def stoppedForGood (s : State) : State := { s.stopServing with pwr := { s.stopServing.pwr with needPerst := true } }

/-- The orderly stop ends: the link goes down, and the power-down begins. -/
def stopEnded (s : State) (t0 : Nat) : State := ev 0x52E 0 [(s.now - t0) / msec] 255 (stoppedForGood s).beginPowerDown

theorem stopEnded_spec (s : State) (t0 : Nat) : (stopEnded s t0).pwr.sequence = 2 ∧ (stopEnded s t0).pwr.common = s.now ∧
    (stopEnded s t0).pwr.needPerst = true ∧ (stopEnded s t0).link.protocol = 0 ∧ (stopEnded s t0).thm.stopping = none ∧
    (stopEnded s t0).pfl.dump = s.pfl.dump ∧ (stopEnded s t0).pfl.clean = s.pfl.clean := by
  have hneed : changesOnly [.pwr] s.stopServing (stoppedForGood s) := changesOnly_setPwr _ _
  have hperst : (stoppedForGood s).pwr.needPerst = true := rfl
  have hstop : (stoppedForGood s).now = s.stopServing.now := hneed .time rfl
  have hnow : s.stopServing.now = s.now := changesOnly_stopServing s .time rfl
  have hev := changesOnly_ev 0x52E 0 [(s.now - t0) / msec] 255 (stoppedForGood s).beginPowerDown
  have hframe := changesOnly_append (changesOnly_append hneed (changesOnly_beginPowerDown _)) hev
  obtain ⟨v, hbegun⟩ := beginPowerDown_pwr (stoppedForGood s)
  have hpwr : (stopEnded s t0).pwr = (stoppedForGood s).beginPowerDown.pwr := hev .pwr rfl
  have hlink : (stopEnded s t0).link = s.stopServing.link := hframe .link rfl
  have hthm : (stopEnded s t0).thm = s.stopServing.thm := hframe .thm rfl
  have hpfl : (stopEnded s t0).pfl = s.stopServing.pfl := hframe .pfl rfl
  rw [hpwr, hbegun, hlink, hthm, hpfl, stopServing_link, stopServing_thm, stopServing_pfl]
  dsimp only
  exact ⟨rfl, hstop.trans hnow, hperst, rfl, rfl, dropTest_dump s.pfl, dropTest_clean s.pfl⟩

theorem exec_orderlyStopLinkDown (hstop : s.thm.stopping = some t0) (hflush : s.pfl.flush = none) (hclean : s.pfl.clean = true)
    (hdue : s.pfl.flushStart + 1000000 ≤ max s.now t) : exec (.orderlyStopLinkDown t) s = .next (stopEnded (s.tick t) t0) := by
  have hstop' : (s.tick t).thm.stopping = some t0 := hstop
  have hgo : ¬ ((s.tick t).pfl.flush.isSome || !(s.tick t).pfl.clean ||
      decide ((s.tick t).now < (s.tick t).pfl.flushStart + msec)) = true := by
    have hflush' : (s.tick t).pfl.flush = none := hflush
    have hclean' : (s.tick t).pfl.clean = true := hclean
    have hdue' : (s.tick t).pfl.flushStart + msec ≤ (s.tick t).now := hdue
    rw [hflush', hclean', decide_eq_false (Nat.not_lt.2 hdue')]
    decide
  change execOrderlyStopLinkDown t s = _
  unfold execOrderlyStopLinkDown
  dsimp only
  rw [hstop']
  exact if_neg hgo

theorem exec_orderlyStopLinkDown_flushing (hstop : s.thm.stopping = some t0) (hflush : s.pfl.flush ≠ none) :
    exec (.orderlyStopLinkDown t) s = .next (s.tick t) := by
  have hstop' : (s.tick t).thm.stopping = some t0 := hstop
  have hsome : (s.tick t).pfl.flush.isSome = true := Option.isSome_iff_ne_none.2 hflush
  change execOrderlyStopLinkDown t s = _
  unfold execOrderlyStopLinkDown
  dsimp only
  rw [hstop', hsome]
  rfl

theorem completes_orderlyStopLinkDown (hstop : s.thm.stopping = some t0) (hflush : s.pfl.flush = none) (hclean : s.pfl.clean = true)
    (hdue : s.pfl.flushStart + 1000000 ≤ max s.now t) : completes (.orderlyStopLinkDown t) s (fun u =>
      u.pwr.sequence = 2 ∧ u.pwr.common = max s.now t ∧ u.pwr.needPerst = true ∧ u.link.protocol = 0 ∧ u.thm.stopping = none ∧
      u.pfl.dump = s.pfl.dump ∧ u.pfl.clean = true) := by
  obtain ⟨hsequence, hcommon, hneed, hlink, hstopping, hdump, hkept⟩ := stopEnded_spec (s.tick t) t0
  exact ⟨_, exec_orderlyStopLinkDown hstop hflush hclean hdue, hsequence, hcommon, hneed, hlink, hstopping, hdump,
    hkept.trans hclean⟩

theorem exec_thermalHoldRetry {h : Nat} (hheld : s.thm.heldAt = some h) (hdue : h + 10000000000 ≤ max s.now t)
    (hperst : s.boot.perst = false) (hok : s.inputsOk = true) (hqual : s.pwr.qualified = true) (hseq : s.pwr.sequence = 0)
    (hoff : s.railsOff = true) : exec (.thermalHoldRetry t) s =
      .next (State.beginPowerUp { s.tick t with thm := { s.thm with heldAt := none } } 1) := by
  have hheld' : (s.tick t).thm.heldAt = some h := hheld
  have hgo : ¬ (decide ((s.tick t).now < h + 10 * sec) || s.boot.perst || !s.inputsOk || !s.pwr.qualified || s.pwr.sequence != 0 ||
      !s.railsOff) = true := by
    have hdue' : h + 10 * sec ≤ (s.tick t).now := hdue
    rw [decide_eq_false (Nat.not_lt.2 hdue'), hperst, hok, hqual, hseq, hoff]
    decide
  change execThermalHoldRetry t s = _
  unfold execThermalHoldRetry
  dsimp only
  rw [hheld']
  exact if_neg hgo

theorem changesOnly_holdEnded (s : State) :
    changesOnly [.thm, .pwr] s (State.beginPowerUp { s with thm := { s.thm with heldAt := none } } 1) :=
  changesOnly_mono (by decide) (changesOnly_append (changesOnly_setThm s _) (changesOnly_beginPowerUp _ 1))

end

/-- Settles O21, clause by clause. -/
theorem thermalCommands : Obligations.ThermalCommands := by
  unfold Obligations.ThermalCommands
  refine ⟨?sample, ?exhaust, ?vaux, ?stop, ?flushing, ?retry⟩
  case sample => exact fun t i c sl s hvaux hfit => completes_sensorSample hvaux hfit
  case exhaust => exact fun t c sl s hvaux hwhole hdev => completes_sensorSample_exhaust hvaux hwhole hdev
  case vaux => exact fun t i c sl s hvaux => exec_sensorSample_vaux hvaux
  case stop => exact fun t t0 s hstop hflush hclean hdue => completes_orderlyStopLinkDown hstop hflush hclean hdue
  case flushing => exact fun t t0 s hstop hflush => exec_orderlyStopLinkDown_flushing hstop hflush
  case retry =>
    exact fun t h s hheld hdue hperst hok hqual hseq hoff => ⟨_, exec_thermalHoldRetry hheld hdue hperst hok hqual hseq hoff,
      rfl, rfl, rfl, rfl, changesOnly_mono (by decide) (changesOnly_of_tick (changesOnly_holdEnded (s.tick t)))⟩

end Sys2Proof.Proofs
end

section
/-! PROOFS of the statement about 3.3 Vaux (12_start_reset_update). -/

namespace Sys2Proof.Proofs

open Sys2Proof Sys2Proof.Machine Sys2Proof.Safety Sys2Proof.Laws

/-! ## Vaux is applied (R343) -/

theorem changesOnly_resetRegs (s : State) (r : Nat) : changesOnly [.regs, .events] s (s.resetRegs r) := by
  intro g hg
  have h0 := same_refl g s
  cases g with
  | regs => exact absurd hg (by decide)
  | events => exact absurd hg (by decide)
  | _ => exact h0

/-- Rail 0 alone is up, with the boot slot table. -/
def regionAUp (s : State) : Power :=
  { s.pwr with inputs := { s.pwr.inputs with vaux := 3300 }, table := bootSlotTable, imageTable := false,
               rails := setAt s.pwr.rails 0 { s.rail 0 with enabled := true, pg := true, enabledAt := s.now } }

/-- Region A starts in a cold power-on. -/
def coldStart (s : State) : State :=
  { s with pwr := regionAUp s, boot := { s.boot with cold := true }, link := { s.link with smbusAddress := 0x62, eid := 0 },
           tly := { s.tly with rail0 := true, holdUp := true, wrong := [], locked := [] } }

theorem changesOnly_coldStart (s : State) : changesOnly [.pwr, .boot, .link, .tly] s (coldStart s) := by
  have hstart : ∀ (p : Power) (b : Boot) (l : Link) (y : Tally), changesOnly [.pwr, .boot, .link, .tly] s
      { s with pwr := p, boot := b, link := l, tly := y } := fun p b l y =>
    changesOnly_append (changesOnly_setPwr s p) (changesOnly_append (changesOnly_setBoot { s with pwr := p } b)
      (changesOnly_append (changesOnly_setLink { s with pwr := p, boot := b } l) (changesOnly_setTly { s with pwr := p, boot := b, link := l } y)))
  exact hstart _ _ _ _

section
variable {t : Nat} {s : State}

/-- With no row write that waits none starts. -/
theorem exec_vauxApplied (hvaux : s.pwr.inputs.vaux = 0) (hqueue : s.tly.queue = []) :
    exec (.vauxApplied t) s = .next ((coldStart (s.tick t)).resetRegs 3) :=
  (if_neg (not_not_intro hvaux)).trans
    (congrArg Host.Outcome.next (tallyKick_of_empty (s := (coldStart (s.tick t)).resetRegs 3) hqueue))

theorem completes_vauxApplied (hvaux : s.pwr.inputs.vaux = 0) (hqueue : s.tly.queue = []) : completes (.vauxApplied t) s (fun u =>
      u.pwr.inputs = { s.pwr.inputs with vaux := 3300 } ∧ u.pwr.table = bootSlotTable ∧
      u.pwr.rails.drop 1 = s.pwr.rails.drop 1 ∧ u.boot = { s.boot with cold := true } ∧
      u.link = { s.link with smbusAddress := 0x62, eid := 0 } ∧ u.tly.wrong = [] ∧ u.tly.rows = s.tly.rows ∧
      changesOnly [.time, .regs, .events, .pwr, .boot, .link, .tly] s u) := by
  have hframe := changesOnly_append (changesOnly_coldStart (s.tick t)) (changesOnly_resetRegs _ 3)
  exact ⟨_, exec_vauxApplied hvaux hqueue, rfl, rfl, List.drop_set_of_lt Nat.one_pos, rfl, rfl, rfl, rfl,
    changesOnly_mono (by decide) (changesOnly_of_tick hframe)⟩

/-! ## Vaux is removed (R343, R52) -/

/-- Every rail is off. -/
theorem vauxGone_rails (s : State) : ∀ r ∈ s.vauxGone.pwr.rails, r.enabled = false := by
  intro r hr
  obtain ⟨x, -, rfl⟩ := List.mem_map.1 hr
  rfl

theorem endAttempt_fw (s : State) : s.endAttempt.boot.fw = s.boot.fw := by
  unfold State.endAttempt
  split <;> rfl

/-- What is stored on the medium and in the key slots, the tally rows and the firmware slots stays. -/
theorem vauxGone_keeps (s : State) : s.vauxGone.med.store = s.med.store ∧ s.vauxGone.key.slots = s.key.slots ∧
    s.vauxGone.tly.rows = s.tly.rows ∧ s.vauxGone.boot.fw = s.boot.fw := by
  have hfailed := changesOnly_powerFailed s (s.boot.complete || s.pfl.flush.isSome) 0
  have hended := changesOnly_append hfailed (changesOnly_endAttempt _)
  have hmed := congrArg Media.store (hended .med rfl)
  have hkey := congrArg Keys.slots (hended .key rfl)
  have htly := congrArg Tally.rows (hended .tly rfl)
  have hfw := (endAttempt_fw _).trans (congrArg Boot.fw (hfailed .boot rfl))
  exact ⟨hmed, hkey, htly, hfw⟩

end

/-- Settles O23, clause by clause. -/
theorem vauxCommands : Obligations.VauxCommands := by
  unfold Obligations.VauxCommands
  refine ⟨?applied, ?removed, ?appliedAgain, ?removedAgain⟩
  case applied => exact fun t s hvaux hqueue => completes_vauxApplied hvaux hqueue
  case removed =>
    exact fun t s hvaux => ⟨(s.tick t).vauxGone, if_neg hvaux, rfl, vauxGone_rails _, rfl, rfl, rfl, rfl, rfl, rfl, rfl,
      vauxGone_keeps (s.tick t)⟩
  case appliedAgain => exact fun t s hvaux => if_pos hvaux
  case removedAgain => exact fun t s hvaux => if_pos hvaux

end Sys2Proof.Proofs
end

section
/-! PROOFS of the statement about the steps of a start (12_start_reset_update). -/

namespace Sys2Proof.Proofs

open Sys2Proof Sys2Proof.Machine Sys2Proof.Safety Sys2Proof.Laws

/-! ## The ledger (R328) -/

theorem changesOnly_ledgerRow (s : State) : changesOnly [.regs, .tly, .events] s s.ledgerRow := by
  unfold State.ledgerRow
  split
  · exact changesOnly_ownRow _ _ _ _ _
  · exact changesOnly_refl _ s

theorem changesOnly_setStep (s : State) (n : Nat) (g : LedgerStep → LedgerStep) : changesOnly [.boot] s (s.setStep n g) :=
  changesOnly_setBoot s _

/-! ## A step begins and ends -/

/-- Step n runs, from now on. -/
def stepRuns (s : State) (n : Nat) : State := { s with boot := { s.boot with step := n, stepStart := s.now } }

/-- The ledger's entry of a step that begins. -/
def begun (s : State) (n : Nat) : LedgerStep := ⟨4, s.boot.firstMethod n, (s.now - s.boot.startAt) / msec, 0, 0⟩

theorem beginStep_eq (s : State) (n : Nat) : s.beginStep n = ((stepRuns s n).setStep n (fun _ => begun s n)).ledgerRow := rfl

theorem changesOnly_beginStep (s : State) (n : Nat) : changesOnly [.boot, .regs, .tly, .events] s (s.beginStep n) := by
  have hruns : changesOnly [.boot] s (stepRuns s n) := changesOnly_setBoot s _
  rw [beginStep_eq]
  exact changesOnly_mono (by decide) (changesOnly_append (changesOnly_append hruns (changesOnly_setStep _ n _)) (changesOnly_ledgerRow _))

theorem beginStep_boot (s : State) (n : Nat) :
    ∃ l, (s.beginStep n).boot = { s.boot with step := n, stepStart := s.now, ledger := l } :=
  ⟨_, changesOnly_ledgerRow ((stepRuns s n).setStep n (fun _ => begun s n)) .boot rfl⟩

/-- The running step has its entry in the ledger. -/
def stepEntered (s : State) (m result detail : Nat) : State :=
  s.setStep s.boot.step (fun x => { x with result := result, method := m, duration := (s.now - s.boot.stepStart) / msec, detail := detail })

/-- The running step has its method. -/
def stepClosed (s : State) (m result detail : Nat) : State :=
  { stepEntered s m result detail with boot := { (stepEntered s m result detail).boot with
      methods := setAt s.boot.methods (s.boot.step - 1) m, alternates := s.boot.alternates || decide (result = 2) } }

/-- A step that passes by its first method raises nothing. -/
theorem closeStep_passed (s : State) (m detail : Nat) : s.closeStep m 1 detail = (stepClosed s m 1 detail).ledgerRow := rfl

theorem changesOnly_closeStep (s : State) (m detail : Nat) : changesOnly [.boot, .regs, .tly, .events] s (s.closeStep m 1 detail) := by
  have hentered : changesOnly [.boot] s (stepEntered s m 1 detail) := changesOnly_setStep s _ _
  have hclosed : changesOnly [.boot] (stepEntered s m 1 detail) (stepClosed s m 1 detail) := changesOnly_setBoot _ _
  rw [closeStep_passed]
  exact changesOnly_mono (by decide) (changesOnly_append (changesOnly_append hentered hclosed) (changesOnly_ledgerRow _))

theorem closeStep_boot (s : State) (m detail : Nat) :
    ∃ l, (s.closeStep m 1 detail).boot = { s.boot with methods := setAt s.boot.methods (s.boot.step - 1) m, ledger := l } := by
  have hrow : (s.closeStep m 1 detail).boot = (stepClosed s m 1 detail).boot := by
    rw [closeStep_passed]
    exact changesOnly_ledgerRow _ .boot rfl
  have halternates : (s.boot.alternates || decide (1 = 2)) = s.boot.alternates := Bool.or_false _
  rw [hrow]
  unfold stepClosed
  rw [halternates]
  exact ⟨_, rfl⟩

/-! ## A new attempt (R329, R343) -/

theorem functionReset_boot (s : State) : s.functionReset.boot = s.boot ∧ s.functionReset.now = s.now := ⟨rfl, rfl⟩

theorem dropClean_boot (s : State) : s.dropClean.boot = s.boot ∧ s.dropClean.now = s.now := ⟨rfl, rfl⟩

theorem clearForStart_boot (s : State) : s.clearForStart.boot = s.boot ∧ s.clearForStart.now = s.now := by
  obtain ⟨hboot, hnow⟩ := functionReset_boot s.dropClean
  obtain ⟨hboot', hnow'⟩ := dropClean_boot s
  have hregs := changesOnly_resetRegs s.dropClean.functionReset 2
  have hkept : (s.dropClean.functionReset.resetRegs 2).boot = s.boot := ((hregs .boot rfl).trans hboot).trans hboot'
  have htime : (s.dropClean.functionReset.resetRegs 2).now = s.now := ((hregs .time rfl).trans hnow).trans hnow'
  unfold State.clearForStart
  generalize s.dropClean.functionReset.resetRegs 2 = z at hkept htime ⊢
  exact ⟨hkept, htime⟩

/-- An attempt has begun, before its first step has. -/
def attemptBegun (s : State) (cause : Nat) (failure : Tab Nat) : State :=
  let a : Attempt := ⟨s.boot.attempt + 1, cause, s.boot.fwSlot, s.boot.cfgSource, 0, s.cal.calendar, 0, List.replicate 13 LedgerStep.blank⟩
  let b := { s.boot with
    startAt := s.now, running := true, complete := false, hold := false, recovery := false, alternates := false,
    migrated := false, methods := Boot.atReset.methods, attempt := s.boot.attempt + 1, cause := cause, failure := failure,
    ledger := (a :: s.boot.ledger).take 16, activeMs := 0, ended := none }
  { s with boot := b, tly := { s.tly with rows := Tab.mapV s.tly.rows (fun _ r => { r with reported := false }) },
           cal := { s.cal with restored := false } }

theorem newAttempt_boot (s : State) (cause : Nat) (failure : Tab Nat) :
    (s.newAttempt cause failure).boot = ((attemptBegun s cause failure).beginStep 1).boot := by
  unfold State.newAttempt
  dsimp only
  split
  · exact changesOnly_ev 0x58E 1 _ 1 ((attemptBegun s cause failure).beginStep 1) .boot rfl
  · rfl

theorem newAttempt_spec (s : State) (cause : Nat) (failure : Tab Nat) : (s.newAttempt cause failure).boot.running = true ∧
    (s.newAttempt cause failure).boot.step = 1 ∧ (s.newAttempt cause failure).boot.attempt = s.boot.attempt + 1 ∧
    (s.newAttempt cause failure).boot.startAt = s.now ∧ (s.newAttempt cause failure).boot.perst = s.boot.perst := by
  obtain ⟨l, hboot⟩ := beginStep_boot (attemptBegun s cause failure) 1
  rw [newAttempt_boot, hboot]
  exact ⟨rfl, rfl, rfl, rfl, rfl⟩

section
variable {t : Nat} {b : BootIn} {s : State}

theorem exec_bootStep_running (hrun : s.boot.running = true) : exec (.bootStep t b) s = .next ((s.tick t).endStep b) :=
  congrArg Host.Outcome.next (if_pos hrun)

/-- A start after a power-on or after PERST_N begins an attempt. -/
theorem exec_bootStep_starts (hrun : s.boot.running = false) (hmay : s.mayStart = true) (hrecheck : s.thm.recheck = false) :
    ∃ cause, exec (.bootStep t b) s = .next ((s.tick t).clearForStart.newAttempt cause []) := by
  have hmay' : (s.tick t).mayStart = true := hmay
  have hstart : (s.tick t).startAttempt = (s.tick t).beginAttempt (if s.boot.cold then 0 else 1) [] := by
    refine if_neg ?_
    have hrecheck' : (s.tick t).thm.recheck = false := hrecheck
    rw [hrecheck', Bool.and_false, Bool.false_and]
    decide
  have hcause : ¬ (if s.boot.cold then 0 else 1) = 2 := by split <;> decide
  have hrun' : ¬ (s.tick t).boot.running = true := ne_true_of_eq_false hrun
  have hbegin : (s.tick t).beginAttempt (if s.boot.cold then 0 else 1) [] =
      (s.tick t).clearForStart.newAttempt (if s.boot.cold then 0 else 1) [] := by
    unfold State.beginAttempt
    rw [if_neg hcause]
  refine ⟨if s.boot.cold then 0 else 1, ?_⟩
  rw [← hbegin, ← hstart]
  exact congrArg Host.Outcome.next ((if_neg hrun').trans (if_pos hmay'))

theorem perst_of_mayStart (hmay : s.mayStart = true) : s.boot.perst = false := by
  unfold State.mayStart at hmay
  simp only [Bool.and_eq_true, Bool.not_eq_true'] at hmay
  obtain ⟨⟨⟨⟨⟨-, hperst⟩, -⟩, -⟩, -⟩, -⟩ := hmay
  exact hperst

theorem completes_bootStep_starts (hrun : s.boot.running = false) (hmay : s.mayStart = true) (hrecheck : s.thm.recheck = false) :
    completes (.bootStep t b) s (fun u => u.boot.running = true ∧ u.boot.step = 1 ∧ u.boot.attempt = s.boot.attempt + 1 ∧
      u.boot.startAt = max s.now t ∧ u.boot.perst = false) := by
  obtain ⟨cause, hexec⟩ := exec_bootStep_starts (t := t) (b := b) hrun hmay hrecheck
  obtain ⟨hruns, hstep, hattempt, hstart, hperst⟩ := newAttempt_spec (s.tick t).clearForStart cause []
  obtain ⟨hboot, hnow⟩ := clearForStart_boot (s.tick t)
  rw [hboot] at hattempt hperst
  exact ⟨_, hexec, hruns, hstep, hattempt, hstart.trans hnow, hperst.trans (perst_of_mayStart hmay)⟩

/-! ## Step 0x01 passes (R329) -/

theorem endStep_of_pass {s1 : State} (hpass : s.runStep b = passBy 0 s1) (h13 : s.boot.step ≠ 13) :
    s.endStep b = (s1.closeStep 0 1 0).enterStep (s.boot.step + 1) := by
  unfold State.endStep
  rw [hpass]
  exact if_neg h13

theorem runStep_one (hstep : s.boot.step = 1) (hrecheck : s.thm.recheck = false) : s.runStep b = passBy 0 s := by
  unfold State.runStep State.step1
  rw [hstep, hrecheck]
  rfl

theorem endStep_one (hstep : s.boot.step = 1) (hrecheck : s.thm.recheck = false) :
    s.endStep b = (s.closeStep 0 1 0).beginStep 2 := by
  rw [endStep_of_pass (runStep_one hstep hrecheck) (by omega), hstep]
  rfl

theorem completes_bootStep_one (hrun : s.boot.running = true) (hstep : s.boot.step = 1) (hrecheck : s.thm.recheck = false) :
    completes (.bootStep t b) s (fun u => u.boot.step = 2 ∧ u.boot.running = true ∧ u.boot.stepStart = max s.now t ∧
      u.boot.methods = setAt s.boot.methods 0 0 ∧ u.boot.alternates = s.boot.alternates ∧
      changesOnly [.time, .boot, .tly, .regs, .out, .events] s u) := by
  have hclosed := changesOnly_closeStep (s.tick t) 0 0
  have hnow : ((s.tick t).closeStep 0 1 0).now = max s.now t := hclosed .time rfl
  have hframe := changesOnly_of_tick (changesOnly_append hclosed (changesOnly_beginStep _ 2))
  obtain ⟨l, hpassed⟩ := closeStep_boot (s.tick t) 0 0
  obtain ⟨k, hbegun⟩ := beginStep_boot ((s.tick t).closeStep 0 1 0) 2
  have hmethod : setAt s.boot.methods (s.boot.step - 1) 0 = setAt s.boot.methods 0 0 := by rw [hstep]
  rw [hpassed] at hbegun
  refine ⟨_, (exec_bootStep_running hrun).trans (congrArg Host.Outcome.next (endStep_one (s := s.tick t) hstep hrecheck)), ?_⟩
  dsimp only
  rw [hbegun]
  exact ⟨rfl, hrun, hnow, hmethod, rfl, changesOnly_mono (by decide) hframe⟩

/-! ## Step 0x0B waits for the ring (R287) -/

theorem exec_bootStep_ringWaits (hrun : s.boot.running = true) (hstep : s.boot.step = 11) (hjoined : s.ring.joined = false) :
    exec (.bootStep t b) s = .next (s.tick t) := by
  have hstep' : (s.tick t).boot.step = 11 := hstep
  have hwait : (s.tick t).runStep b = .wait := by
    unfold State.runStep
    rw [hstep']
    exact if_neg (ne_true_of_eq_false hjoined)
  refine (exec_bootStep_running hrun).trans (congrArg Host.Outcome.next ?_)
  unfold State.endStep
  rw [hwait]

end

/-! ## Step 0x0D completes the start (R342; 02 R56) -/

/-- The start is complete; slots that are held keep no counters. -/
def startMarked (s : State) : State :=
  let b := s.boot.setNewest (fun a => { a with outcome := 1, activeMs := (s.now - s.boot.startAt) / msec })
  let h := (b.putHeader (fun h => { h with fwGood := b.fwSlot, pending := false }))
  { s with boot := { h with running := false, complete := true, failure := [], trainFails := 0, cold := false,
                            activeMs := (s.now - s.boot.perstAt) / msec },
           pfl := { s.pfl with slots := s.pfl.slots.map (fun d => if d.st = 3 then { d with ctrs := [] } else d) } }

/-- Memory_Active is set, where the link runs CXL and no dump waits. -/
def nowActive (s : State) : State := if s.cxlUp && !s.replayDue then s.setMemActive else s

/-- The start is told, with its methods. -/
def startTold (s : State) (ms : Nat) : State :=
  ev 0x580 0 [s.boot.attempt, ms, total (s.boot.methods.mapIdx (fun i m => m * 4 ^ i))] 1 s.raiseRollback

theorem finishStart_eq (s : State) : s.finishStart =
    (startTold (nowActive (startMarked s)) ((s.now - s.boot.perstAt) / msec)).ledgerRow.judgeWt := rfl

theorem changesOnly_startMarked (s : State) : changesOnly [.boot, .pfl] s (startMarked s) := by
  have hmark : ∀ (y : Boot) (p : Persist), changesOnly [.boot, .pfl] s { s with boot := y, pfl := p } := fun y p =>
    changesOnly_append (changesOnly_setBoot s y) (changesOnly_setPfl { s with boot := y } p)
  exact hmark _ _

theorem changesOnly_nowActive (s : State) : changesOnly [.link, .med, .qos, .pfl] s (nowActive s) := by
  unfold nowActive
  split
  · exact changesOnly_setMemActive s
  · exact changesOnly_refl _ s

theorem nowActive_store (s : State) : (nowActive s).med.store = s.med.store := by
  unfold nowActive
  split <;> rfl

theorem nowActive_memActive {s : State} (hup : s.cxlUp = true) (hclear : s.replayDue = false) : (nowActive s).link.memActive = true := by
  have hgo : (s.cxlUp && !s.replayDue) = true := by
    rw [hup, hclear]
    rfl
  unfold nowActive
  rw [if_pos hgo]
  rfl

theorem nowActive_of_down {s : State} (hdown : s.cxlUp = false) : nowActive s = s := by
  unfold nowActive
  rw [hdown]
  rfl

/-- No slot's state changes as the start is marked, so a dump that waits is still due. -/
theorem replayDue_startMarked (s : State) : (startMarked s).replayDue = s.replayDue := by
  have hst : ∀ d : DumpSlot, (if d.st = 3 then { d with ctrs := [] } else d).st = d.st := fun d => by split <;> rfl
  unfold State.replayDue startMarked
  dsimp only
  rw [List.zipIdx_map, List.any_map]
  refine congrArg (fun p => s.pfl.slots.zipIdx.any p) (funext fun e => ?_)
  dsimp only [Function.comp_apply, Prod.map_fst, Prod.map_snd, id]
  rw [hst]

/-- The firmware's rollback floor. -/
def besidesRollback (b : Boot) : Boot := { b with rollback := 0 }

theorem raiseRollback_spec (s : State) : changesOnly [.boot, .regs, .tly, .events, .out] s s.raiseRollback ∧
    besidesRollback s.raiseRollback.boot = besidesRollback s.boot := by
  unfold State.raiseRollback
  extract_lets n y z
  split
  · have hrow := changesOnly_append (changesOnly_ownRow z 1 5 enrolRow z.boot.enrolBytes) (changesOnly_ev 0x58C 0 [s.boot.rollback, n] 1 _)
    have hboot := congrArg besidesRollback (hrow .boot rfl)
    exact ⟨changesOnly_mono (by decide) (changesOnly_append (changesOnly_setBoot s _) hrow), hboot⟩
  · exact ⟨changesOnly_refl _ s, rfl⟩

/-- What the end of step 0x0D does after Memory_Active. -/
theorem startTold_spec (s : State) (ms : Nat) :
    changesOnly [.boot, .regs, .tly, .events, .out, .pfl, .cch] s (startTold s ms).ledgerRow.judgeWt ∧
      besidesRollback (startTold s ms).ledgerRow.judgeWt.boot = besidesRollback s.boot := by
  obtain ⟨hraise, hboot⟩ := raiseRollback_spec s
  have htold : changesOnly [.out, .events] s.raiseRollback (startTold s ms) := changesOnly_ev 0x580 0 _ 1 _
  have hmode := (modeChange_judgeWt (startTold s ms).ledgerRow).1
  have hrest := changesOnly_append (changesOnly_append htold (changesOnly_ledgerRow _)) hmode
  exact ⟨changesOnly_mono (by decide) (changesOnly_append hraise hrest), (congrArg besidesRollback (hrest .boot rfl)).trans hboot⟩

/-- What a complete start leaves. -/
structure Complete (s u : State) : Prop where
  complete : u.boot.complete = true
  running : u.boot.running = false
  cold : u.boot.cold = false
  failure : u.boot.failure = []
  trainFails : u.boot.trainFails = 0
  active : s.cxlUp = true → s.replayDue = false → u.link.memActive = true
  inactive : s.cxlUp = false → u.link.memActive = s.link.memActive
  store : u.med.store = s.med.store
  map : u.map = s.map
  key : u.key = s.key

theorem complete_finishStart (s : State) : Complete s s.finishStart := by
  obtain ⟨htold, hrollback⟩ := startTold_spec (nowActive (startMarked s)) ((s.now - s.boot.perstAt) / msec)
  rw [← finishStart_eq] at htold hrollback
  have hmarked := changesOnly_startMarked s
  have hactive := changesOnly_nowActive (startMarked s)
  have hboot : besidesRollback s.finishStart.boot = besidesRollback (startMarked s).boot :=
    hrollback.trans (congrArg besidesRollback (hactive .boot rfl))
  have hlink : s.finishStart.link = (nowActive (startMarked s)).link := htold .link rfl
  have hup : (startMarked s).cxlUp = s.cxlUp := rfl
  have hmed : s.finishStart.med = (nowActive (startMarked s)).med := htold .med rfl
  have hstore := (congrArg Media.store hmed).trans (nowActive_store (startMarked s))
  have hframe := changesOnly_append (changesOnly_append hmarked hactive) htold
  refine ⟨congrArg Boot.complete hboot, congrArg Boot.running hboot, congrArg Boot.cold hboot, congrArg Boot.failure hboot,
    congrArg Boot.trainFails hboot, fun hcxl hclear => ?_, fun hdown => ?_, hstore, hframe .map rfl, hframe .key rfl⟩
  · rw [hlink]
    exact nowActive_memActive (hup.trans hcxl) ((replayDue_startMarked s).trans hclear)
  · rw [hlink, nowActive_of_down (hup.trans hdown)]
    rfl

section
variable {t : Nat} {b : BootIn} {s : State}

theorem endStep_last (hstep : s.boot.step = 13) : s.endStep b = (s.closeStep 0 1 0).finishStart := by
  have hpass : s.runStep b = passBy 0 s := by
    unfold State.runStep
    rw [hstep]
    rfl
  unfold State.endStep
  rw [hpass]
  exact if_pos hstep

theorem completes_bootStep_last (hrun : s.boot.running = true) (hstep : s.boot.step = 13) : completes (.bootStep t b) s (fun u =>
      u.boot.complete = true ∧ u.boot.running = false ∧ u.boot.cold = false ∧ u.boot.failure = [] ∧ u.boot.trainFails = 0 ∧
      (s.cxlUp = true → s.replayDue = false → u.link.memActive = true) ∧ (s.cxlUp = false → u.link.memActive = s.link.memActive) ∧
      u.med.store = s.med.store ∧ u.map = s.map ∧ u.key = s.key) := by
  have hclosed := changesOnly_closeStep (s.tick t) 0 0
  have hdone := complete_finishStart ((s.tick t).closeStep 0 1 0)
  have hlink : ((s.tick t).closeStep 0 1 0).link = s.link := hclosed .link rfl
  have hpfl : ((s.tick t).closeStep 0 1 0).pfl = s.pfl := hclosed .pfl rfl
  have hmed : ((s.tick t).closeStep 0 1 0).med = s.med := hclosed .med rfl
  have hup : ((s.tick t).closeStep 0 1 0).cxlUp = s.cxlUp := congrArg (fun l : Link => decide (2 ≤ l.protocol)) hlink
  have hdue : ((s.tick t).closeStep 0 1 0).replayDue = s.replayDue := congrArg (fun p : Persist => p.slots.zipIdx.any
    (fun e => e.1.st == 2 || (e.1.st == 4 && p.wt.isNone) || (e.1.st == 3 && p.overlaySlot != some e.2))) hpfl
  exact ⟨_, (exec_bootStep_running hrun).trans (congrArg Host.Outcome.next (endStep_last hstep)), hdone.complete, hdone.running,
    hdone.cold, hdone.failure, hdone.trainFails, fun hcxl hclear => hdone.active (hup.trans hcxl) (hdue.trans hclear),
    fun hdown => (hdone.inactive (hup.trans hdown)).trans (congrArg Link.memActive hlink),
    hdone.store.trans (congrArg Media.store hmed), hdone.map.trans (hclosed .map rfl), hdone.key.trans (hclosed .key rfl)⟩

theorem exec_bootStep_complete (hrun : s.boot.running = false) (hdone : s.boot.complete = true) :
    exec (.bootStep t b) s = .next (s.tick t) := by
  have hstay : (s.tick t).mayStart = false := by
    have hdone' : (s.tick t).boot.complete = true := hdone
    unfold State.mayStart
    rw [hdone']
    simp
  exact congrArg Host.Outcome.next ((if_neg (ne_true_of_eq_false hrun)).trans (if_neg (ne_true_of_eq_false hstay)))

end

/-- Settles O25, clause by clause. -/
theorem bootSteps : Obligations.BootSteps := by
  unfold Obligations.BootSteps
  refine ⟨?starts, ?first, ?ring, ?last, ?complete⟩
  case starts => exact fun t b s hrun hmay hrecheck => completes_bootStep_starts hrun hmay hrecheck
  case first => exact fun t b s hrun hstep hrecheck => completes_bootStep_one hrun hstep hrecheck
  case ring => exact fun t b s hrun hstep hjoined => exec_bootStep_ringWaits hrun hstep hjoined
  case last => exact fun t b s hrun hstep => completes_bootStep_last hrun hstep
  case complete => exact fun t b s hrun hdone => exec_bootStep_complete hrun hdone

end Sys2Proof.Proofs
end
